-- ==== Sys2Proof/Word.lean ====
section
/-! DEFINITION. The plain value types of the model: words, bytes, wrapping counters, 64-byte items and sparse tables. -/

namespace Sys2Proof

/-- A byte (R6). -/
abbrev Byte := BitVec 8

/-- A word: 64 bits (R6). -/
abbrev Word := BitVec 64

/-- A sparse table from a number to a value: pairs with strictly rising numbers.  A number that is not listed
stands at the table's default. -/
abbrev SMap (α : Type) := List (Nat × α)

/-- A queue item: 64 bytes, eight little-endian words (R324).  Words 0 and 1 are the tag header of R34. -/
structure Item where
  w0 : Word := 0
  w1 : Word := 0
  w2 : Word := 0
  w3 : Word := 0
  w4 : Word := 0
  w5 : Word := 0
  w6 : Word := 0
  w7 : Word := 0
  deriving DecidableEq, Repr, Inhabited

/-- The words of an item in order of offset. -/
def Item.words (i : Item) : List Word := [i.w0, i.w1, i.w2, i.w3, i.w4, i.w5, i.w6, i.w7]

end Sys2Proof
end

