-- ==== Sys2Proof/Records.lean ====
section
/-! DEFINITION. The structures of the spec that both a command and the state carry, held decoded: one field per
named field of the spec's table, reserved bits left out (they read zero, R12). -/

namespace Sys2Proof

/-- A tag header (R34): the SESSION word and the word of FLAGS, TIER_HINT, CLASS, SEQ and EPOCH. -/
structure Tag where
  session : Word := 0
  w1 : Word := 0
  deriving DecidableEq, Repr, Inhabited

/-- Tiers (R55). -/
inductive Tier where
  | larder | dram | pool | sett
  deriving DecidableEq, Repr, Inhabited

/-- Tier codes (R55); the others are reserved. -/
def Tier.code : Tier → Nat
  | .larder => 0
  | .dram => 1
  | .pool => 2
  | .sett => 3

def Tier.ofCode : Nat → Option Tier
  | 0 => some .larder
  | 1 => some .dram
  | 2 => some .pool
  | 3 => some .sett
  | _ => none

/-- Who issued a tally operation (R317): a control core, the sequencer of a C-die, or another unit. -/
inductive Issuer where
  | core (c : Fin 4)
  | seq (die : Fin 4)
  | unit
  deriving DecidableEq, Repr, Inhabited

/-- Hamper states (R105). -/
inductive HState where
  | free | parked | reviving | active | giving | taking | restoring
  deriving DecidableEq, Repr, Inhabited

/-- KIND of a directory entry (R104). -/
inductive HKind where
  | none | home | shard
  deriving DecidableEq, Repr, Inhabited

/-- STATE codes (R105). -/
def HState.code : HState → Nat
  | .free => 0
  | .parked => 1
  | .reviving => 2
  | .active => 3
  | .giving => 4
  | .taking => 5
  | .restoring => 6
def HState.ofCode : Nat → HState
  | 1 => .parked
  | 2 => .reviving
  | 3 => .active
  | 4 => .giving
  | 5 => .taking
  | 6 => .restoring
  | _ => .free
/-- KIND codes (R104). -/
def HKind.code : HKind → Nat
  | .none => 0
  | .home => 1
  | .shard => 2
def HKind.ofCode : Nat → HKind
  | 1 => .home
  | 2 => .shard
  | _ => .none

/-- STATE of a pool directory record (R123). -/
inductive RecState where
  | none | held | inTransit | reserved
  deriving DecidableEq, Repr, Inhabited

/-- A holder or target of custody: a module number or a pool segment (R123). -/
inductive Holder where
  | module (m : Nat)
  | pool (seg : Nat)
  deriving DecidableEq, Repr, Inhabited

/-- A pool directory record (R123).  The word at 0x10 is `custody`, `state`, `holder` and `target` together. -/
structure PoolRec where
  origin : Word := 0
  current : Word := 0
  custody : BitVec 32 := 0
  state : RecState := .none
  holder : Holder := .module 0
  target : Holder := .module 0
  changeNs : Nat := 0
  cairn : Word := 0
  tclass : Nat := 0
  customer : Nat := 0
  deriving DecidableEq, Repr, Inhabited

/-- Codes of STATE, and a holder or target with its kind bit (R123). -/
def RecState.code : RecState → Nat
  | .none => 0
  | .held => 1
  | .inTransit => 2
  | .reserved => 3
def RecState.ofCode : Nat → RecState
  | 0 => .none
  | 1 => .held
  | 2 => .inTransit
  | _ => .reserved
def Holder.code : Holder → Nat
  | .module m => m % 1024
  | .pool g => 1024 + g % 1024
def Holder.ofCode (c : Nat) : Holder := if c < 1024 then .module c else .pool (c - 1024)

/-- Residence of a span (R157). -/
inductive Res where
  | empty | resident | parked | dropped
  deriving DecidableEq, Repr, Inhabited

/-- Which fault a transfer met at its target (R69, R284). -/
inductive XferFault where
  | sourceRead | destWrite | tablePage
  deriving DecidableEq, Repr, Inhabited

/-- What a home's firmware sends its shards in an XFER item, by which they follow it through its states (R99, R102, R106): open with
model slot, capacity, tenant class and customer; revive with a decode slot; park; free; giving; send the shard to a taker's
module under the handle it assigned. -/
inductive ShardShare where
  | open_ (model maxTokens tclass customer : Nat)
  | revive (decode : Nat)
  | park
  | free
  | giving
  | transfer (peer : Nat) (target : BitVec 64)
  deriving DecidableEq, Repr, Inhabited

/-- How the verify read of a ferry move ended (R68, R69). -/
inductive VerifyResult where
  | same | different
  deriving DecidableEq, Repr, Inhabited

/-- A segment entry of a composition map (R583). -/
structure PoolSeg where
  valid : Bool := false
  atomic : Bool := false
  ports : Nat := 0
  dpid : Nat := 0
  pages : Nat := 0
  devBase : Word := 0
  atomicBase : Word := 0
  deriving DecidableEq, Repr, Inhabited

/-- A composition map (R583); `kindOk` says KIND and VERSION hold their stated values. -/
structure CompMap where
  kindOk : Bool := true
  epoch : BitVec 16 := 0
  modules : Nat := 1
  ringPos : Nat := 0
  peers : List Nat := [0]
  chargeId : BitVec 32 := 0
  segs : SMap PoolSeg := []
  deriving DecidableEq, Repr, Inhabited

/-- An SPDM transport: MCTP, or DOE on one function (R726). -/
inductive SpdmPort where
  | mctp
  | doe (fn : Fin 2)
  deriving DecidableEq, Repr, Inhabited

/-- Who asks for a hamper change: a host command in progress, or firmware for a session. -/
inductive Asker where
  | host (cmd : Nat)
  | firmware (session : Word)
  deriving DecidableEq, Repr, Inhabited

/-- A register as software names it: a number of R637, or a byte offset in a function's BAR0 (R680). -/
inductive RegRef where
  | block (key : Nat)
  | bar (fn : Fin 2) (offset : Nat)
  deriving DecidableEq, Repr, Inhabited

/-- How an error-correcting code judged the words an action read (R229, R233). -/
inductive Ecc where
  | clean | corrected | uncorrectable
  deriving DecidableEq, Repr, Inhabited

/-- Formats of tile operations (R271). -/
inductive Fmt where
  | e4m3 | e5m2 | mx8e4 | mx8e5 | mx6e3 | mx6e2 | mx4 | bf16 | fp16 | fp32 | int8 | int32
  deriving DecidableEq, Repr, Inhabited

/-- Vector operations with the vector operand layout (R277, R278). -/
inductive VecOp where
  | add | sub | mul | fma | max | min | cmplt | cmpeq | sel | abs | neg | scale2
  | exp | log | rcp | rsqrt | maxr | sumr | adds | subs | muls
  deriving DecidableEq, Repr, Inhabited

/-- Register-register scalar operations (R290). -/
inductive AluOp where
  | add | sub | and | or | xor | shl | shr | sra | slt | sltu | mul
  deriving DecidableEq, Repr, Inhabited

/-- Tile slot operations (R277).  Regions and vector operands are the 14-bit values of R270 and R278. -/
inductive TileOp where
  | nop
  | loadb (fmt : Fmt) (src : BitVec 14)
  | mma (fmtA : Fmt) (srcA : BitVec 14) (acc : BitVec 3) (accum swap ld : Bool) (fmtB : Fmt) (srcB : BitVec 14)
  | vec (op : VecOp) (dst src1 src2 : BitVec 14) (scale : BitVec 9)
  | cvt (fmtS fmtD : Fmt) (src dst : BitVec 14) (sat : Bool)
  | mxq (fmtD : Fmt) (src dst : BitVec 14)
  deriving DecidableEq, Repr, Inhabited

/-- Mover opcodes (R282). -/
inductive MoverKind where
  | nop | get | put | xl | scatter | ring | zero
  deriving DecidableEq, Repr, Inhabited

/-- Larder-port slot operations (R286). -/
inductive PortOp where
  | nop
  | read (rm : BitVec 5) (bcast : Bool) (dst : BitVec 14) (la : BitVec 22)
  | write (rm : BitVec 5) (src : BitVec 14) (la : BitVec 22)
  | attend (rm : BitVec 5) (count : BitVec 12) (la : BitVec 22)
  deriving DecidableEq, Repr, Inhabited

/-- Scalar slot operations (R290). -/
inductive ScalarOp where
  | nop
  | alu (op : AluOp) (rd ra rb : BitVec 5)
  | addi (rd ra : BitVec 5) (imm : BitVec 29)
  | li (rd : BitVec 5) (imm : BitVec 39)
  | lih (rd : BitVec 5) (imm : BitVec 32)
  | lds (rd ra : BitVec 5) (word : BitVec 4) (la : BitVec 22)
  | sts (rs ra : BitVec 5) (word : BitVec 4) (la : BitVec 22)
  deriving DecidableEq, Repr, Inhabited

/-- Tally slot operations (R292). -/
inductive TallyOp where
  | nop
  | add (tally : BitVec 12) (n : BitVec 16)
  | set (tally : BitVec 12) (rs : BitVec 5)
  | wait (tally : BitVec 12) (rs : BitVec 5) (imm : BitVec 16)
  | read (tally : BitVec 12) (rd : BitVec 5)
  | qpush (queue : BitVec 9) (prio : BitVec 3) (la : BitVec 22)
  deriving DecidableEq, Repr, Inhabited

/-- Branch slot operations (R296). -/
inductive BranchOp where
  | nop
  | jmp (target : BitVec 28)
  | bz (rs : BitVec 5) (target : BitVec 28)
  | bnz (rs : BitVec 5) (target : BitVec 28)
  | loop (rs : BitVec 5) (target : BitVec 28)
  | endSeg (status : BitVec 16)
  | ppt (index : BitVec 16)
  | rdv (all : Bool) (rm : BitVec 5)
  deriving DecidableEq, Repr, Inhabited

/-- One slot action of a bundle: its slot is that of R268. -/
inductive SlotOp where
  | tile (op : TileOp)
  | mover (kind : MoverKind) (ra rl : BitVec 5) (tally : BitVec 12) (la : BitVec 22)
  | scalar (op : ScalarOp)
  | tally (op : TallyOp)
  | branch (op : BranchOp)
  | port (op : PortOp)
  deriving DecidableEq, Repr, Inhabited

/-! ### Configuration image (ch. 17) -/

/-- A pinned-region descriptor (R635). -/
structure PinDesc where
  base : Word := 0
  pages : Nat := 0
  kind : Nat := 0
  tier : Nat := 1
  die : Nat := 0
  deriving DecidableEq, Repr, Inhabited

/-- A larder region descriptor (R636), in granules. -/
structure LarderDesc where
  la : Nat := 0
  die : Nat := 0
  kind : Nat := 0
  granules : Nat := 0
  deriving DecidableEq, Repr, Inhabited

/-! ### Steps (ch. 9) -/

/-- KIND of a batch entry (R355). -/
inductive BatchKind where
  | decode | verify | prefill | ring
  deriving DecidableEq, Repr, Inhabited

/-- A batch entry (R355). -/
structure BatchEntry where
  session : Word := 0
  pos : Nat := 0
  qn : Nat := 1
  kind : BatchKind := .decode
  attn : Nat := 0
  fold : Word := 0
  deriving DecidableEq, Repr, Inhabited

/-- Session parameters of a step (R763). -/
structure StepParams where
  session : Word := 0
  steerBody : Word := 0
  expBody : Word := 0
  topK : Nat := 0
  newest : Nat := 0
  override : Bool := false
  steerEn : Bool := false
  expEn : Bool := false
  deriving DecidableEq, Repr, Inhabited

/-- What another module reports of a SPAN command: its ring position, each span's code (0: moved, 1: abandoned) and its
BASE (R165). -/
structure SpanShare where
  ringPos : Nat := 0
  spans : List (Nat × Nat × Nat) := []
  deriving DecidableEq, Repr, Inhabited

/-- Where a request message came from (R533, R537). -/
structure NetSrc where
  mac : BitVec 48 := 0
  ip : BitVec 128 := 0
  port : Nat := 0
  deriving DecidableEq, Repr, Inhabited

/-- A side record (R152): scales as FP32 patterns, the sketch as four words, STATS a state address. -/
structure Side where
  kScale : BitVec 32 := 0
  vScale : BitVec 32 := 0
  sketchValid : Bool := false
  sat : Nat := 0
  rows : Nat := 0
  sketch : List Word := [0, 0, 0, 0]
  stats : Nat := 0
  deriving DecidableEq, Repr, Inhabited

/-- What a module meets in a ring reduction (R207, R208): it begins one over its own output rows, BF16 rows of `width` elements of
`positions` query positions at larder offset `rows`, with the projection rows of its query heads, BF16 rows of `model` elements at
`proj`, and puts the sums at `dest`; or it receives a stage's chunk of one half. -/
inductive ReduceIn where
  | start (positions width model rows proj dest : Nat)
  | chunk (clockwise : Bool) (vals : List (BitVec 32))
  deriving DecidableEq, Repr, Inhabited

/-! ### Cairns (ch. 13) -/

/-- What the fabric returns for pool segments that other modules write: bytes by fabric address, and the segments that cannot be read. -/
structure PoolSeen where
  cells : List (Nat × Byte) := []
  lost : List Nat := []
  deriving DecidableEq, Repr, Inhabited

/-! ### Trail links (ch. 15) -/

/-- A received flit (R568): whether CRC and FEC were good, and its control word. -/
structure Flit where
  good : Bool := true
  ctl : Word := 0
  deriving DecidableEq, Repr, Inhabited

/-- The payload words of a received INIT flit (R572). -/
structure InitFlit where
  w0 : Word := 0
  w1 : Word := 0
  w2 : Word := 0
  deriving DecidableEq, Repr, Inhabited

/-- The 32 bytes that begin a frame (R574): the tag header of R34 and the two words of the frame header. -/
structure FrameHead where
  tag0 : Word := 0
  tag1 : Word := 0
  w0 : Word := 0
  w1 : Word := 0
  deriving DecidableEq, Repr, Inhabited

/-- A received frame (R574). -/
structure Frame where
  head : FrameHead := {}
  body : List Byte := []
  deriving DecidableEq, Repr, Inhabited

/-! ### Network edge (ch. 14) -/

/-- How full the receive buffer of a frame's priority is (R534): room, close to overflowing, or full. -/
inductive RxRoom where
  | room | nearFull | full
  deriving DecidableEq, Repr, Inhabited

/-- A received Ethernet frame (R532, R533): whether its FCS and UDP checksum are right and it matches a supported row up to
the UDP port, its addresses, priority, DSCP, ECN-CE mark, IP total length, ports and UDP payload. -/
structure EthFrame where
  fcsOk : Bool := true
  supported : Bool := true
  sumOk : Bool := true
  dstMac : BitVec 48 := 0
  src : NetSrc := {}
  prio : Nat := 0
  dscp : Nat := 0
  ecnCe : Bool := false
  ipLen : Nat := 0
  dstPort : Nat := 0
  room : RxRoom := .room
  /-- The module whose queue pair a RoCEv2 frame names. -/
  peer : Nat := 0
  payload : List Byte := []
  deriving DecidableEq, Repr, Inhabited

/-- The first SEND of a transfer (R544), with what R545 compares: the giver's model slot, KVS.GEOMETRY and module count. -/
structure XferHello where
  origin : Word := 0
  giver : Word := 0
  target : Word := 0
  custody : BitVec 32 := 0
  pages : Nat := 0
  spans : Nat := 0
  commitLen : Nat := 0
  model : Nat := 0
  geometry : Word := 0
  modules : Nat := 1
  deriving DecidableEq, Repr, Inhabited

/-- What an Acknowledge carries (R541). -/
inductive RoceNak where
  | ok | sequence | access
  deriving DecidableEq, Repr, Inhabited

end Sys2Proof
end

