-- ==== Sys2Proof/Syntax.lean ====
section
/-! DEFINITION. The commands of the block: one constructor per row of the opcode table, with the row's operands.  The
table gives its rows no bits, so operands are typed by what the rule of each row names. -/

namespace Sys2Proof

/-- The commands, in the order of the opcode table; each docstring names the row's mnemonic and rule. -/
inductive Instr where
  /-- REGISTER_WRITE (R15): A write to a register that has no row of its own takes effect according to its access code (RW, W1C, RWS shadow, RO ignored). -/
  | registerWrite (reg : RegRef) (value same : Word) (ns : Nat)
  /-- POWER_ON (R708): Input rising above 46 V after being below 40 V starts the full power-up and boot sequence. -/
  | powerOn
  /-- MODULE_RESET (R708): RESET_N held low for at least 10 µs resets the module with rails up, restarting at fuse reading. -/
  | moduleReset
  /-- RESET_N_RELEASE (R753): RESET_N high for 1 ms lets the held boot sequence continue from the 15 ms row. -/
  | resetNRelease
  /-- HOST_PORT_RESET (R708): PERST#, hot reset or link down resets the host port and HOST registers of both functions. -/
  | hostPortReset
  /-- FUNCTION_LEVEL_RESET (R659): An FLR disables the function's queue pairs, discards unfetched commands and resets its HOST registers. -/
  | functionLevelReset (fn : Fin 2)
  /-- UNDERVOLTAGE (R738): Input below 40 V for more than 100 µs turns every rail off at once and loses module state. -/
  | undervoltage
  /-- LOW_SUSTAINED (R738): Input between 40 and 46 V for more than 10 ms causes a latched shutdown. -/
  | lowSustained
  /-- OVERVOLTAGE (R738): Input above 56 V for more than 100 ms, or above 60 V for more than 1 ms, causes a latched shutdown. -/
  | overvoltage
  /-- PROGRAM_INHIBIT (R743): Input falling below 44 V stops the NAND controller from starting new programs. -/
  | programInhibit
  /-- VIN_EN_MAKE (R741): Making the VIN_EN contact enables the power stage and inrush charging. -/
  | vinEnMake
  /-- VIN_EN_BREAK (R754): Breaking VIN_EN stops the power stage before the blades part, losing state. -/
  | vinEnBreak
  /-- RAIL_WINDOW_TIMEOUT (R715): A rail group not in window 2 ms after enable turns all rails off and schedules a retry, with RAIL_FAULT after three failures. -/
  | railWindowTimeout
  /-- RAIL_RETRY (R715): One second after a rail failure the power-up sequence is retried. -/
  | railRetry
  /-- CLOCKS_LOCKED (R714): With clocks locked the X-dies leave reset, fuses are read, tile maps loaded and the ROM chooses and measures a bank. -/
  | clocksLocked (agree : Bool) (rom : BitVec 384)
  /-- DRAM_TRAINING_DONE (R615): Completion of channel training and Write X advances the boot to self-test, or fails with DRAM_TRAIN. -/
  | dramTrainingDone (ok : Bool) (channel : Fin 128) (failStep : Fin 7)
  /-- SELFTEST_DONE (R718): Completion of memory and logic BIST, known-answer and unit tests fences tiles, marks units or fails the module. -/
  | selftestDone (tiles : List (Fin 4 × Fin 34)) (larderOk : Bool) (knownOk : Bool) (units : List (Fin 8))
  /-- SETT_MOUNT_DONE (R623): Sett mount and TRIM_ALL complete; READY is set and a TRY bank is proven. -/
  | settMountDone (ok : Bool) (blocks : Nat) (spares : Nat)
  /-- BOOT_WATCHDOG (R713): A TRY bank not at stage 0x6 within 10 s triggers a MODULE reset with the TRY bank cleared. -/
  | bootWatchdog
  /-- GOV_POWER_SAMPLE (R731): Each 100 µs power mean at or above CAP_W steps one die down in role order, at most once per 10 ms. -/
  | govPowerSample (watts : Nat)
  /-- GOV_CURRENT_SAMPLE (R731): Each 10 µs sample above 1.05 × CAP_W or near the current limit increases or eases cycle stretching. -/
  | govCurrentSample (watts : Nat) (milliamps : Nat)
  /-- GOV_JUNCTION_SAMPLE (R731): A junction sample at or above THROTTLE_C steps that die down, and at 110 °C trips the module. -/
  | govJunctionSample (sensor : Fin 10) (tenths : Int)
  /-- GOV_STEP_UP (R731): Power below CAP_W − HYST_W for UP_MS with no thermal condition steps one die up in reverse role order. -/
  | govStepUp
  /-- MR4_READ (R603): A DRAM MR4 temperature reading doubles refresh above 85 °C and raises THERMAL above 105 °C. -/
  | mr4Read (die : Nat) (celsius : Int)
  /-- SENSOR_SAMPLE (R730): The platform block samples a sensor into PLT.SENSORn at its period. -/
  | sensorSample (sensor : Fin 23) (value : BitVec 32)
  /-- PARK_ENTRY (R745): After PARK_IDLE_MS of idleness firmware moves to PARKED: DRAM self-refresh and C-dies gated. -/
  | parkEntry (idleMs : Nat)
  /-- PARK_EXIT (R746): A fetched command, received frame, queue item or management request ungates the C-dies and exits self-refresh. -/
  | parkExit
  /-- PARK_UPKEEP_EXIT (R747): After 60 minutes parked firmware leaves PARKED for at least 2 s of sett upkeep. -/
  | parkUpkeepExit
  /-- SEGMENT_START (R264): A free sequencer takes the next start item, takes a start number, loads scalars and checks header and role. -/
  | segmentStart (die : Fin 4) (ecc : Ecc) (tableUe : Bool)
  /-- SEGMENT_RESUME (R306): A resume start item restores saved tile state and scalars and continues at the resume offset. -/
  | segmentResume (die : Fin 4) (ecc : Ecc)
  /-- BUNDLE_ISSUE (R272): A bundle issues GAP cycles after the previous one and starts its slot actions. -/
  | bundleIssue (die : Fin 4)
  /-- SLOT_EXPIRE (R273): A slot action expires at the end of its DUR cycles, making results such as LDS values available. -/
  | slotExpire (die : Fin 4) (slot : Fin 48) (ecc : Ecc)
  /-- MMA_DRAIN_COMPLETE (R234): 136 cycles after an MMA's last row the results are written into the accumulator set. -/
  | mmaDrainComplete (die : Fin 4) (tile : Fin 32) (ecc : Ecc)
  /-- RENDEZVOUS_COMPLETE (R299): When the named slots' earlier actions have expired and drained, the RDV bundle issues. -/
  | rendezvousComplete (die : Fin 4)
  /-- FETCH_DELIVERY (R308): Fetched code reaching the stream buffer clears a fetch miss or detects STREAM_FETCH. -/
  | fetchDelivery (die : Fin 4) (ecc : Ecc) (tableUe : Bool)
  /-- MOVER_TRANSFER_COMPLETE (R284): A mover transfer completes at its target and raises its tally, or ends the segment on a fault. -/
  | moverTransferComplete (die : Fin 4) (mover : Fin 8) (ecc : Ecc) (tableUe : Bool) (part : Nat)
    (lines : List (Nat × List (Nat × Byte)))
  /-- SEGMENT_RETIRE (R298): After END and every action, drain and transfer has finished, the segment retires and posts its completion. -/
  | segmentRetire (die : Fin 4)
  /-- PREEMPT_SAVE (R304): After the requested PPT's conditions are met, the sequencer saves state, clears REQ and posts PREEMPTED. -/
  | preemptSave (die : Fin 4) (ecc : Ecc)
  /-- PREEMPT_DISCARD (R181): A preempted segment is discarded once the die's start number is 2^30 beyond its own. -/
  | preemptDiscard (die : Fin 4)
  /-- TNOP (R277): The tile slot is occupied for DUR cycles with no operation. -/
  | tnop (die : Fin 4) (tile : Fin 32) (dur : BitVec 12)
  /-- LOADB (R235): Copies a stationary operand from the operand store into the shadow register. -/
  | loadb (die : Fin 4) (tile : Fin 32) (dur : BitVec 12) (fmt : Fmt) (src : BitVec 14)
  /-- MMA (R236): Multiplies rows of A by the active stationary operand into an accumulator set, optionally swapping and loading. -/
  | mma (die : Fin 4) (tile : Fin 32) (dur : BitVec 12) (fmtA : Fmt) (srcA : BitVec 14) (acc : BitVec 3) (accum : Bool) (swap : Bool) (ld : Bool) (fmtB : Fmt) (srcB : BitVec 14)
  /-- VADD (R277): Vector addition of two FP32 operands. -/
  | vadd (die : Fin 4) (tile : Fin 32) (dur : BitVec 12) (dst : BitVec 14) (src1 : BitVec 14) (src2 : BitVec 14)
  /-- VSUB (R277): Vector subtraction of two FP32 operands. -/
  | vsub (die : Fin 4) (tile : Fin 32) (dur : BitVec 12) (dst : BitVec 14) (src1 : BitVec 14) (src2 : BitVec 14)
  /-- VMUL (R277): Vector multiplication of two FP32 operands. -/
  | vmul (die : Fin 4) (tile : Fin 32) (dur : BitVec 12) (dst : BitVec 14) (src1 : BitVec 14) (src2 : BitVec 14)
  /-- VFMA (R277): Vector fused multiply-add into the destination. -/
  | vfma (die : Fin 4) (tile : Fin 32) (dur : BitVec 12) (dst : BitVec 14) (src1 : BitVec 14) (src2 : BitVec 14)
  /-- VMAX (R277): Elementwise maximum. -/
  | vmax (die : Fin 4) (tile : Fin 32) (dur : BitVec 12) (dst : BitVec 14) (src1 : BitVec 14) (src2 : BitVec 14)
  /-- VMIN (R277): Elementwise minimum. -/
  | vmin (die : Fin 4) (tile : Fin 32) (dur : BitVec 12) (dst : BitVec 14) (src1 : BitVec 14) (src2 : BitVec 14)
  /-- VCMPLT (R277): Elementwise less-than comparison giving 1.0 or 0.0. -/
  | vcmplt (die : Fin 4) (tile : Fin 32) (dur : BitVec 12) (dst : BitVec 14) (src1 : BitVec 14) (src2 : BitVec 14)
  /-- VCMPEQ (R277): Elementwise equality comparison giving 1.0 or 0.0. -/
  | vcmpeq (die : Fin 4) (tile : Fin 32) (dur : BitVec 12) (dst : BitVec 14) (src1 : BitVec 14) (src2 : BitVec 14)
  /-- VSEL (R277): Selects src1 where dst is nonzero, else src2. -/
  | vsel (die : Fin 4) (tile : Fin 32) (dur : BitVec 12) (dst : BitVec 14) (src1 : BitVec 14) (src2 : BitVec 14)
  /-- VABS (R277): Elementwise absolute value. -/
  | vabs (die : Fin 4) (tile : Fin 32) (dur : BitVec 12) (dst : BitVec 14) (src : BitVec 14)
  /-- VNEG (R277): Elementwise negation. -/
  | vneg (die : Fin 4) (tile : Fin 32) (dur : BitVec 12) (dst : BitVec 14) (src : BitVec 14)
  /-- VSCALE2 (R277): Multiplies by 2^n. -/
  | vscale2 (die : Fin 4) (tile : Fin 32) (dur : BitVec 12) (dst : BitVec 14) (src : BitVec 14) (n : BitVec 9)
  /-- VEXP (R277): Elementwise exponential at 16 lanes. -/
  | vexp (die : Fin 4) (tile : Fin 32) (dur : BitVec 12) (dst : BitVec 14) (src : BitVec 14)
  /-- VLOG (R277): Elementwise natural logarithm at 16 lanes. -/
  | vlog (die : Fin 4) (tile : Fin 32) (dur : BitVec 12) (dst : BitVec 14) (src : BitVec 14)
  /-- VRCP (R277): Elementwise reciprocal at 16 lanes. -/
  | vrcp (die : Fin 4) (tile : Fin 32) (dur : BitVec 12) (dst : BitVec 14) (src : BitVec 14)
  /-- VRSQRT (R277): Elementwise reciprocal square root at 16 lanes. -/
  | vrsqrt (die : Fin 4) (tile : Fin 32) (dur : BitVec 12) (dst : BitVec 14) (src : BitVec 14)
  /-- VMAXR (R277): Row maximum of each source row. -/
  | vmaxr (die : Fin 4) (tile : Fin 32) (dur : BitVec 12) (dst : BitVec 14) (src : BitVec 14)
  /-- VSUMR (R249): Row sum of each source row in a fixed pairwise tree. -/
  | vsumr (die : Fin 4) (tile : Fin 32) (dur : BitVec 12) (dst : BitVec 14) (src : BitVec 14)
  /-- VADDS (R277): Adds element i of src2 to row i of src1. -/
  | vadds (die : Fin 4) (tile : Fin 32) (dur : BitVec 12) (dst : BitVec 14) (src1 : BitVec 14) (src2 : BitVec 14)
  /-- VSUBS (R277): Subtracts element i of src2 from row i of src1. -/
  | vsubs (die : Fin 4) (tile : Fin 32) (dur : BitVec 12) (dst : BitVec 14) (src1 : BitVec 14) (src2 : BitVec 14)
  /-- VMULS (R277): Multiplies row i of src1 by element i of src2. -/
  | vmuls (die : Fin 4) (tile : Fin 32) (dur : BitVec 12) (dst : BitVec 14) (src1 : BitVec 14) (src2 : BitVec 14)
  /-- CVT (R242): Converts rows between formats with round-to-nearest-even and SAT handling. -/
  | cvt (die : Fin 4) (tile : Fin 32) (dur : BitVec 12) (fmtS : Fmt) (fmtD : Fmt) (src : BitVec 14) (dst : BitVec 14) (sat : Bool)
  /-- MXQ (R243): Converts FP32 rows to MX blocks with shared scale bytes. -/
  | mxq (die : Fin 4) (tile : Fin 32) (dur : BitVec 12) (fmtD : Fmt) (src : BitVec 14) (dst : BitVec 14)
  /-- MNOP (R282): The mover slot is occupied with no transfer. -/
  | mnop (die : Fin 4) (mover : Fin 8) (dur : BitVec 12)
  /-- MGET (R282): Reads from the state address space into the larder. -/
  | mget (die : Fin 4) (mover : Fin 8) (dur : BitVec 12) (ra : BitVec 5) (rl : BitVec 5) (tally : BitVec 12) (la : BitVec 22)
  /-- MPUT (R282): Writes from the larder into the state address space. -/
  | mput (die : Fin 4) (mover : Fin 8) (dur : BitVec 12) (ra : BitVec 5) (rl : BitVec 5) (tally : BitVec 12) (la : BitVec 22)
  /-- MXL (R282): Copies from another die's larder over the C-die ring. -/
  | mxl (die : Fin 4) (mover : Fin 8) (dur : BitVec 12) (ra : BitVec 5) (rl : BitVec 5) (tally : BitVec 12) (la : BitVec 22)
  /-- SCATTER (R167): Applies scatter descriptors, checking each and writing KV rows, scales and side records. -/
  | scatter (die : Fin 4) (mover : Fin 8) (dur : BitVec 12) (ra : BitVec 5) (rl : BitVec 5) (tally : BitVec 12) (la : BitVec 22)
  /-- MRING (R282): Sends larder data to the neighbouring module as LARDER_DATA frames. -/
  | mring (die : Fin 4) (mover : Fin 8) (dur : BitVec 12) (ra : BitVec 5) (rl : BitVec 5) (tally : BitVec 12) (la : BitVec 22)
  /-- MZERO (R282): Writes zero to a larder range. -/
  | mzero (die : Fin 4) (mover : Fin 8) (dur : BitVec 12) (ra : BitVec 5) (rl : BitVec 5) (tally : BitVec 12) (la : BitVec 22)
  /-- PNOP (R286): The larder-port slot is occupied with no transfer. -/
  | pnop (die : Fin 4) (dur : BitVec 12)
  /-- PREAD (R286): Delivers larder bytes into the named tiles' operand stores. -/
  | pread (die : Fin 4) (dur : BitVec 12) (rm : BitVec 5) (bcast : Bool) (dst : BitVec 14) (la : BitVec 22)
  /-- PWRITE (R286): Writes tile rows into the larder. -/
  | pwrite (die : Fin 4) (dur : BitVec 12) (rm : BitVec 5) (src : BitVec 14) (la : BitVec 22)
  /-- ATTEND (R289): Passes an attention list to the attention engine, which holds the named tiles. -/
  | attend (die : Fin 4) (dur : BitVec 12) (rm : BitVec 5) (count : BitVec 12) (la : BitVec 22)
  /-- SNOP (R290): The scalar slot is occupied with no operation. -/
  | snop (die : Fin 4) (slot : Fin 4) (dur : BitVec 12)
  /-- ADD (R290): Scalar addition modulo 2^64. -/
  | scalarAdd (die : Fin 4) (slot : Fin 4) (dur : BitVec 12) (rd : BitVec 5) (ra : BitVec 5) (rb : BitVec 5)
  /-- SUB (R290): Scalar subtraction modulo 2^64. -/
  | scalarSub (die : Fin 4) (slot : Fin 4) (dur : BitVec 12) (rd : BitVec 5) (ra : BitVec 5) (rb : BitVec 5)
  /-- AND (R290): Scalar bitwise AND. -/
  | scalarAnd (die : Fin 4) (slot : Fin 4) (dur : BitVec 12) (rd : BitVec 5) (ra : BitVec 5) (rb : BitVec 5)
  /-- OR (R290): Scalar bitwise OR. -/
  | scalarOr (die : Fin 4) (slot : Fin 4) (dur : BitVec 12) (rd : BitVec 5) (ra : BitVec 5) (rb : BitVec 5)
  /-- XOR (R290): Scalar bitwise XOR. -/
  | scalarXor (die : Fin 4) (slot : Fin 4) (dur : BitVec 12) (rd : BitVec 5) (ra : BitVec 5) (rb : BitVec 5)
  /-- SHL (R290): Scalar left shift. -/
  | scalarShl (die : Fin 4) (slot : Fin 4) (dur : BitVec 12) (rd : BitVec 5) (ra : BitVec 5) (rb : BitVec 5)
  /-- SHR (R290): Scalar logical right shift. -/
  | scalarShr (die : Fin 4) (slot : Fin 4) (dur : BitVec 12) (rd : BitVec 5) (ra : BitVec 5) (rb : BitVec 5)
  /-- SRA (R290): Scalar arithmetic right shift. -/
  | scalarSra (die : Fin 4) (slot : Fin 4) (dur : BitVec 12) (rd : BitVec 5) (ra : BitVec 5) (rb : BitVec 5)
  /-- SLT (R290): Signed less-than. -/
  | scalarSlt (die : Fin 4) (slot : Fin 4) (dur : BitVec 12) (rd : BitVec 5) (ra : BitVec 5) (rb : BitVec 5)
  /-- SLTU (R290): Unsigned less-than. -/
  | scalarSltu (die : Fin 4) (slot : Fin 4) (dur : BitVec 12) (rd : BitVec 5) (ra : BitVec 5) (rb : BitVec 5)
  /-- MUL (R290): Low 64 bits of a scalar product. -/
  | scalarMul (die : Fin 4) (slot : Fin 4) (dur : BitVec 12) (rd : BitVec 5) (ra : BitVec 5) (rb : BitVec 5)
  /-- ADDI (R290): Adds an immediate. -/
  | scalarAddi (die : Fin 4) (slot : Fin 4) (dur : BitVec 12) (rd : BitVec 5) (ra : BitVec 5) (imm : BitVec 29)
  /-- LI (R290): Loads a sign-extended immediate. -/
  | scalarLi (die : Fin 4) (slot : Fin 4) (dur : BitVec 12) (rd : BitVec 5) (imm : BitVec 39)
  /-- LIH (R290): Loads bits 63:32 from an immediate. -/
  | scalarLih (die : Fin 4) (slot : Fin 4) (dur : BitVec 12) (rd : BitVec 5) (imm : BitVec 32)
  /-- LDS (R291): Loads a larder word into a register, ready at slot expiry. -/
  | lds (die : Fin 4) (slot : Fin 4) (dur : BitVec 12) (rd : BitVec 5) (ra : BitVec 5) (word : BitVec 4) (la : BitVec 22)
  /-- STS (R291): Stores a register into a larder word, visible at slot expiry. -/
  | sts (die : Fin 4) (slot : Fin 4) (dur : BitVec 12) (rs : BitVec 5) (ra : BitVec 5) (word : BitVec 4) (la : BitVec 22)
  /-- YNOP (R292): The tally slot is occupied with no operation. -/
  | ynop (die : Fin 4) (slot : Fin 2) (dur : BitVec 12)
  /-- YADD (R292): Sends an ADD to a tally's home. -/
  | yadd (die : Fin 4) (slot : Fin 2) (dur : BitVec 12) (tally : BitVec 12) (n : BitVec 16)
  /-- YSET (R292): Sends a SET to a tally's home. -/
  | yset (die : Fin 4) (slot : Fin 2) (dur : BitVec 12) (tally : BitVec 12) (rs : BitVec 5)
  /-- YWAIT (R293): Stalls until a tally is at or beyond a target. -/
  | ywait (die : Fin 4) (slot : Fin 2) (dur : BitVec 12) (tally : BitVec 12) (rs : BitVec 5) (imm : BitVec 16)
  /-- YREAD (R292): Stalls until a tally value is written to a register. -/
  | yread (die : Fin 4) (slot : Fin 2) (dur : BitVec 12) (tally : BitVec 12) (rd : BitVec 5)
  /-- QPUSH (R292): Stalls until a 64-byte item from the larder enters a queue. -/
  | qpush (die : Fin 4) (slot : Fin 2) (dur : BitVec 12) (queue : BitVec 9) (prio : BitVec 3) (la : BitVec 22)
  /-- BNOP (R296): The branch slot is occupied with no operation. -/
  | bnop (die : Fin 4) (dur : BitVec 12)
  /-- JMP (R296): Unconditional branch. -/
  | jmp (die : Fin 4) (dur : BitVec 12) (target : BitVec 28)
  /-- BZ (R296): Branch if a register is zero. -/
  | bz (die : Fin 4) (dur : BitVec 12) (rs : BitVec 5) (target : BitVec 28)
  /-- BNZ (R296): Branch if a register is nonzero. -/
  | bnz (die : Fin 4) (dur : BitVec 12) (rs : BitVec 5) (target : BitVec 28)
  /-- LOOP (R296): Decrements a register and branches while nonzero. -/
  | loop (die : Fin 4) (dur : BitVec 12) (rs : BitVec 5) (target : BitVec 28)
  /-- END (R298): Ends the segment with a status and waits for retirement. -/
  | endSegment (die : Fin 4) (dur : BitVec 12) (status : BitVec 16)
  /-- PPT (R303): A preemption point that preempts only when REQ is set. -/
  | ppt (die : Fin 4) (dur : BitVec 12) (index : BitVec 16)
  /-- RDV (R299): Rendezvous holding the bundle until named slots' actions are complete. -/
  | rdv (die : Fin 4) (dur : BitVec 12) (all : Bool) (rm : BitVec 5)
  /-- TILE_REMAP (R254): A TILE.REMAP write with GO binds a logical tile to a physical tile at the next segment boundary. -/
  | tileRemap (die : Fin 4) (logical : BitVec 5) (phys : BitVec 6)
  /-- TILE_FENCE (R253): A TILE.REMAP write with GO and FENCE fences a physical tile. -/
  | tileFence (die : Fin 4) (phys : BitVec 6)
  /-- TALLY_ADD (R317): An ADD takes effect at the tally home and tests the wait list. -/
  | tallyAdd (issuer : Issuer) (tally : BitVec 12) (n : BitVec 32)
  /-- TALLY_SET (R317): A SET takes effect at the tally home and tests the wait list. -/
  | tallySet (issuer : Issuer) (tally : BitVec 12) (value : BitVec 32)
  /-- TALLY_READ (R317): A READ returns the tally value. -/
  | tallyRead (issuer : Issuer) (tally : BitVec 12)
  /-- TALLY_WAIT (R318): A WAIT is answered at once or placed on the wait list, or answered NOT_LISTED if the pool is full. -/
  | tallyWait (issuer : Issuer) (tally : BitVec 12) (target : BitVec 32)
  /-- TALLY_CANCEL (R321): A CANCEL removes the issuer's pending wait. -/
  | tallyCancel (issuer : Issuer) (tally : BitVec 12)
  /-- TALLY_WAKE (R318): A wake carrying the satisfying value reaches a waiter and clears its stall. -/
  | tallyWake (issuer : Issuer) (tally : BitVec 12)
  /-- WAIT_POLL (R320): An unlisted waiter issues a READ every 64 cycles until its wait is satisfied. -/
  | waitPoll (issuer : Issuer) (tally : BitVec 12)
  /-- CLEAR_PEAK (R338): Writing 1 to CLEAR_PEAK sets PEAK to the current USED. -/
  | clearPeak (die : Fin 4)
  /-- QUEUE_ITEM_ARRIVAL (R324): A wholly arrived item is checked and entered at its level, raising the notify tally. -/
  | queueItemArrival (queue : BitVec 9) (prio : BitVec 3) (sender : Nat) (item : Item) (bad : Bool)
  /-- HW_POP (R326): A hardware reader pops the oldest item of the lowest level, admitting waiting pushes. -/
  | hwPop (queue : BitVec 9)
  /-- HQ_PUSH (R330): A control core's push of its push buffer is accepted or refused. -/
  | hqPush (core : Fin 4) (queue : BitVec 9) (prio : BitVec 3) (ns : Nat)
  /-- HQ_POP (R331): A control core's pop fills its latch or reports EMPTY and UNDERRUN. -/
  | hqPop (core : Fin 4) (queue : BitVec 9) (ns : Nat)
  /-- HQ_FLUSH (R333): A flush discards every item of a queue at one instant. -/
  | hqFlush (queue : BitVec 9) (ns : Nat)
  /-- FERRY_MOVE (R68): A ferry MOVE request claims each page and starts copying it to the destination tier. -/
  | ferryMove (item : Item)
  /-- FERRY_DROP (R74): A ferry DROP request claims each page, unmaps it, shoots it down and defers its reclamation. -/
  | ferryDrop (item : Item)
  /-- FERRY_WRITE_DONE (R68): The destination write with its CRC completes and the verify read begins, or the move fails. -/
  | ferryWriteDone (page : Nat) (fault : Option XferFault)
  /-- FERRY_VERIFY_DONE (R68): The verify read completes; on a match the home is switched, otherwise the move fails. -/
  | ferryVerifyDone (page : Nat) (result : VerifyResult)
  /-- SHOOTDOWN_ACK (R66): A translation cache acknowledges a shootdown once its accesses under the old entry have completed. -/
  | shootdownAck (cache : Fin 8) (page : Nat)
  /-- WRITE_INTENT (R64): A write lacking permission makes the entry-update unit clear FERRY or pass a WP page to copy-on-write. -/
  | writeIntent (cache : Fin 8) (page : Nat)
  /-- AGE_TICK (R58): Every AGE_TICK ms, leaf AGE fields rise by 1, saturating at 255. -/
  | ageTick
  /-- EVICTION_PASS (R80): Free DRAM below LOW starts eviction of parked candidates until free capacity reaches HIGH. -/
  | evictionPass
  /-- BW_EST_UPDATE (R84): Every 100 ms the TSM updates TSM.BW_EST from bytes moved and busy time. -/
  | bwEstUpdate (poolBytes : Nat) (poolNs : Nat) (readBytes : Nat) (readNs : Nat) (writeBytes : Nat) (writeNs : Nat)
  /-- RATION_BIN_ADVANCE (R87): Every 15 minutes the sett ration window advances to a new bin. -/
  | rationBinAdvance
  /-- RETIRE_RETRY (R614): Every 10 µs a refused or abandoned page-retirement move is retried. -/
  | retireRetry (dramPage : Nat)
  /-- OPEN (R669): Opens a hamper in the lowest FREE slot and returns its handle. -/
  | openHamper (cmd : Nat) (sampler : Option (List Word))
  /-- CLOSE (R106): Closes a parked hamper, releasing spans, custody record and pages. -/
  | closeHamper (cmd : Nat) (seen : Option PoolRec)
  /-- PARK (R119): Parks an active hamper at a step boundary. -/
  | park (cmd : Nat) (seen : Option PoolRec)
  /-- REVIVE (R120): Revives a parked hamper: custody check, decode slot, REVIVING and ferries. -/
  | revive (cmd : Nat) (seen : Option PoolRec)
  /-- REVIVE_ITEM (R120): A shard module receiving a revive item posts ferry moves for its non-resident pages. -/
  | reviveItem (session : Word) (share : ShardShare)
  /-- REVIVE_HOLD_RELEASE (R120): A revive held under memory pressure proceeds once free DRAM reaches HIGH. -/
  | reviveHoldRelease (slot : Nat)
  /-- REVIVE_COMPLETE (R120): When every module's completion has arrived the hamper becomes ACTIVE, or PARKED on failure. -/
  | reviveComplete (slot : Nat) (reports : List (Nat × Nat))
  /-- LIKELIHOOD_DECAY (R121): Every DECAY_S seconds a parked hamper's LIKELIHOOD decays by one eighth. -/
  | likelihoodDecay (slot : Nat)
  /-- GIVE (R127): Starts a handover: marks the record IN_TRANSIT, goes GIVING and sends the session. -/
  | give (cmd : Nat) (seen : Option PoolRec)
  /-- HANDOVER_TAKE (R128): When every page and shard is installed and verified the taker swaps custody to itself. -/
  | handoverTake (slot : Nat) (seen : Option PoolRec) (shardsDone : List Nat)
  /-- HANDOVER_ACK (R129): The giver receiving the acknowledgement retires its copy. -/
  | handoverAck (origin : Word) (custody : BitVec 32) (current : Word)
  /-- CUSTODY_TIMEOUT (R131): With no acknowledgement by TIMEOUT_MS the giver re-adopts or retires by the record. -/
  | custodyTimeout (slot : Nat) (seen : Option PoolRec)
  /-- CUSTODY_CHECK (R133): Every CHECK_MS an active pool-tracked hamper's record is read and compared. -/
  | custodyCheck (slot : Nat) (seen : Option PoolRec)
  /-- CUSTODY_PROBE (R135): A custody probe item is answered HELD or NOT_HELD and may reveal an empty claim. -/
  | custodyProbe (origin : Word) (sender : Nat) (seen : Option PoolRec)
  /-- PROBE_TIMEOUT (R135): A probe unanswered within 1 ms makes the prober report CUSTODY_EMPTY. -/
  | probeTimeout (origin : Word) (answer : Option Bool)
  /-- EMPTY_CLAIM_RESTORE (R134): TIMEOUT_MS after detecting an empty claim the named module restores the session from CAIRN and re-adopts. -/
  | emptyClaimRestore (origin : Word) (pool : PoolSeen) (seen : Option PoolRec)
  /-- SPAN_OPEN (R162): Maps zeroed KV pages for an EMPTY span and makes it RESIDENT. -/
  | spanOpen (item : Item)
  /-- SPAN_PARK (R162): Ferries a span's pages to the pool or sett. -/
  | spanPark (item : Item)
  /-- SPAN_FETCH (R162): Ferries a span's pages to DRAM or the larder. -/
  | spanFetch (item : Item)
  /-- SPAN_DROP (R171): Marks a span DROPPED and places a deferred item for its pages. -/
  | spanDrop (item : Item)
  /-- RECOMP_BEGIN (R162): Maps zeroed pages for a DROPPED span and sets RECOMP. -/
  | recompBegin (item : Item)
  /-- RECOMP_END (R162): Makes a fully recomputed span RESIDENT and updates RECOMP_COST. -/
  | recompEnd (item : Item) (tileNs : List Nat)
  /-- SPAN_PIN (R162): Sets PINNED on a span. -/
  | spanPin (item : Item)
  /-- SPAN_UNPIN (R162): Clears PINNED on a span. -/
  | spanUnpin (item : Item)
  /-- SPAN_SHARE (R164): Makes sharer entries name an owner's spans after checking the sharing rule. -/
  | spanShare (item : Item)
  /-- SPAN_RELEASE (R162): Unshares or passes a span's pages to reclamation and makes it EMPTY. -/
  | spanRelease (item : Item)
  /-- STATS_MAP (R162): Maps zeroed statistics pages for a span's blocks. -/
  | statsMap (item : Item)
  /-- STATS_FREE (R162): Passes a span's statistics pages to deferred reclamation. -/
  | statsFree (item : Item)
  /-- DEFERRED_RELEASE (R180): A deferred item is released when every die's reclamation tally reaches its stamp, and its pages are dropped or freed. -/
  | deferredRelease (id : Nat)
  /-- DROP_RETRY (R171): Every 10 µs a page drop refused with FERRY_BUSY is retried. -/
  | dropRetry (id : Nat) (page : Nat)
  /-- RECOMPUTE_PREFILL (R174): After every RECOMP_BEGIN completes, firmware prefills the span layer by layer and ends with RECOMP_END. -/
  | recomputePrefill (slot : Nat) (spanNo : Nat) (away : List (Nat × Nat)) (answers : List (Nat × Nat)) (discarded : Option Nat)
  /-- RECOMP_BEGIN_RETRY (R175): A RECOMP_BEGIN refused with RECLAIM_PENDING is posted again every 10 µs. -/
  | recompBeginRetry (slot : Nat) (spanNo : Nat)
  /-- ATTENTION_ITEM_RESULT (R193): An attention item completes or fails, writes its result record and raises its tally. -/
  | attentionItemResult (die : Fin 4) (list : Nat)
  /-- RANK_REQUEST (R486): The SEU ranks an item's candidate spans and returns the first page of ranks. -/
  | rankRequest (die : Fin 4) (id : Nat) (slot : Nat) (layer : Nat) (head : Nat) (first : Nat) (tail : Nat) (newest : Nat) (commit : Nat) (sketch : List Word) (topK : Nat)
  /-- RANK_CONTINUATION (R486): The SEU returns the next page of a held ranking. -/
  | rankContinuation (die : Fin 4) (id : Nat) (topK : Nat)
  /-- RANK_RELEASE (R486): The engine releases a held ranking, freeing it for waiting requests. -/
  | rankRelease (die : Fin 4) (id : Nat)
  /-- REDUCE_STAGE (R208): On receipt of a stage's chunk the module adds or replaces it and sends its next chunk. -/
  | reduceStage (id : Nat) (die : Fin 4) (input : ReduceIn)
  /-- REDUCE_TIMEOUT (R210): A stage chunk not received within REDUCE_TIMEOUT_US ends the segment. -/
  | reduceTimeout (id : Nat)
  /-- RING_PREFILL_ROUND (R213): On receipt of a visiting set a module applies it, deposits its own heads' rows and forwards it. -/
  | ringPrefillRound (die : Fin 4) (slot : Nat) (layer : Nat) (round : Nat) (first : Nat) (tally : Nat) (set : List Word) (offs : List (Nat × Nat)) (la : BitVec 22)
  /-- REQUEST_GENERATE (R348): A GENERATE request item is checked and recorded as an open request. -/
  | requestGenerate (item : Item)
  /-- REQUEST_APPEND (R348): An APPEND request item is checked and recorded as an open request. -/
  | requestAppend (item : Item)
  /-- REQUEST_CANCEL (R352): A CANCEL request item sets CANCEL in the open request. -/
  | requestCancel (item : Item)
  /-- STEP_BOUNDARY (R354): At each step boundary firmware binds adapters, runs the deadline monitor and assembles and sends its sub-batch. -/
  | stepBoundary (seen : List (Word × PoolRec)) (away : List (Nat × Nat))
  /-- SUB_BATCH (R354): A module receives a sub-batch XFER item for step n. -/
  | subBatch (step : BitVec 32) (module : Nat) (entries : List BatchEntry) (last : Bool)
  /-- SESSION_PARAMETERS (R763): A module receives a session-parameter item with bound bodies and recall settings. -/
  | sessionParameters (step : BitVec 32) (params : StepParams)
  /-- STEP_BEGIN (R764): With every sub-batch and parameter item held, a module raises SPEC_LEN and begins step n. -/
  | stepBegin (drafts : List (Word × List Nat))
  /-- LIST_TIMEOUT (R357): No sub-batch within LIST_TIMEOUT_US: the step does not begin and STEP_STALL is raised. -/
  | listTimeout
  /-- STEP_DONE (R359): The home receives a shard's step-done item and commits sessions once all have arrived. -/
  | stepDone (module : Nat) (session : Word) (status : Nat) (spans : List Nat) (logits : List (List (BitVec 32)))
  /-- LENGTH_WORD (R764): A shard module writes a length word received from the home into its header. -/
  | lengthWord (session : Word) (commit : Nat) (spec : Nat)
  /-- RATION_REFILL (R379): Every PERIOD_MS firmware refills each ration balance up to CAP. -/
  | rationRefill
  /-- ADAPTER_RETIRE (R375): Once older steps end and no request pins it, PREV is cleared and the swap completes. -/
  | adapterRetire (cmd : Nat) (othersDone : Bool)
  /-- SEGMENT_PICK (R396): When a segment queue is below QUEUE_AHEAD firmware chooses and pushes the next start item. -/
  | segmentPick (die : Fin 4) (news : List (Nat × Item)) (load : Item)
  /-- PREEMPTED_COMPLETION (R402): On a PREEMPTED completion firmware counts it and pushes the resume item. -/
  | preemptedCompletion (die : Fin 4)
  /-- LOAD_SEGMENT_DONE (R405): A load segment's completion records the job as resident, or leaves the slot empty. -/
  | loadSegmentDone (die : Fin 4) (status : BitVec 16)
  /-- ACCT_WINDOW (R396): A WINDOW_MS period ends and COUNT scores restart. -/
  | acctWindow
  /-- SERVICE_ENTRY (R407): Firmware flushes a die's queue, saves or waits, sets SERVICE and pushes service segments. -/
  | serviceEntry (die : Fin 4) (segments : List Item)
  /-- SERVICE_EXIT (R407): After the last service segment firmware clears SERVICE and re-pushes items. -/
  | serviceExit (die : Fin 4)
  /-- TOKENIZE (R435): Turns source bytes into token entries. -/
  | tokenize (item : Item)
  /-- DETOKENIZE (R445): Turns token entries into bytes with stop-string detection. -/
  | detokenize (item : Item)
  /-- MASK (R456): Writes grammar token masks for up to nine positions. -/
  | mask (item : Item)
  /-- ADVANCE (R457): Applies tokens to the session's grammar state. -/
  | advance (item : Item)
  /-- GRAMMAR_OPEN (R458): Binds a grammar automaton to the session. -/
  | grammarOpen (item : Item)
  /-- GRAMMAR_CLOSE (R458): Unbinds the session's grammar automaton. -/
  | grammarClose (item : Item)
  /-- TEXT_RELEASE (R429): Drops the text unit's cached copy of the session's text state. -/
  | textRelease (item : Item)
  /-- SEARCH (R475): Searches an index: walks, batched scans, widening and result records. -/
  | search (item : Item)
  /-- LIST_PUBLISH (R483): Replaces one list's directory entry atomically. -/
  | listPublish (item : Item)
  /-- LIST_PUBLISH_COMPLETE (R483): When every scan of the old body has finished the publish completion is posted. -/
  | listPublishComplete
  /-- GRAPH_EDIT (R485): Replaces one centroid graph node as a whole image. -/
  | graphEdit (item : Item)
  /-- LOOKUP (R489): Looks up and pools embedding rows, with prefetch and promotion. -/
  | lookup (item : Item) (storeErrs : List Nat)
  /-- POOL_STAGE (R491): On receipt of an owner-pooling chunk the module combines it and sends its next stage. -/
  | poolStage (batch : Nat) (chunk : List (BitVec 32))
  /-- POOL_TIMEOUT (R491): A pooling chunk not received within POOL_TIMEOUT_US fails the item. -/
  | poolTimeout (batch : Nat)
  /-- UPDATE (R493): Writes embedding rows, combining entries per row. -/
  | update (item : Item)
  /-- TABLE_PUBLISH (R495): Switches an embedding table to a new version. -/
  | tablePublish (item : Item)
  /-- TABLE_RETIRE (R495): When items bound to the old base complete, PREV is cleared and the publish completes. -/
  | tableRetire
  /-- ROW_FILL_COMPLETE (R497): A row-store fill completes and becomes VALID if its claim still stands. -/
  | rowFillComplete (table : Nat) (row : Nat)
  /-- CUT (R508): Host command by which this module leads a cut: checks the group, takes an epoch and sends cut items. -/
  | cut (cmd : Nat) (handles : Option (List Word))
  /-- CUT_ITEM (R509): A snapshot engine receives a cut item, or fails it with SNAP_BUSY or SNAP_LATE. -/
  | cutItem (item : Item) (handles : List Word)
  /-- SHARD_MARK (R510): After step n's length words the module decides skips, copies headers and write-protects pages. -/
  | shardMark (seen : List (Nat × PoolRec)) (lost : List Nat)
  /-- PAGE_COPY_COMPLETE (R512): A page's staging copy completes; WP is cleared, COW_EPOCH set and stalled writers resume. -/
  | pageCopyComplete (page : Nat) (unreadable : Bool)
  /-- SHARD_DURABLE (R516): When all copies are durable in the group, the module writes its shard manifest. -/
  | shardDurable
  /-- MANIFEST_DURABLE (R516): When the manifest is durable the module sends shard-done to the lead. -/
  | manifestDurable
  /-- SHARD_DONE (R521): The lead receives a shard-done item and writes the cairn record once all have arrived. -/
  | shardDone (module : Nat) (page : Nat) (bytes : Nat) (crc : BitVec 32) (code : Nat)
  /-- CAIRN_RECORD_DURABLE (R521): With the cairn record durable the lead swaps HEAD, committing or failing the cut. -/
  | cairnRecordDurable (head : Word)
  /-- COMMIT_NOTICE (R522): A home module receiving a commit notice sets SNAP_EPOCH and updates or creates custody records. -/
  | commitNotice (ref : Word) (code : Nat) (seen : List (Nat × PoolRec))
  /-- SNAP_TIMEOUT (R526): COMMIT_TIMEOUT_MS after its own shard, the lead fails the cut or a module returns its extents. -/
  | snapTimeout
  /-- RESTORE (R523): Host command that restores a session from a cairn into a slot. -/
  | restore (cmd : Nat) (owners : Option (List (Word × Word))) (pool : PoolSeen)
  /-- RESTORE_ITEM (R524): A module receiving a restore item checks the cairn and geometry and rebuilds its share. -/
  | restoreItem (item : Item) (owners : List (Word × Word)) (pool : PoolSeen)
  /-- RESTORE_COMPLETE (R524): When every module's tally has risen the restored hamper becomes PARKED. -/
  | restoreComplete (slot : Nat) (code : Nat) (seen : Option PoolRec)
  /-- CHECKPOINT_GROUP (R672): Defines or rewrites a checkpoint group entry. -/
  | checkpointGroup (cmd : Nat)
  /-- CAIRN_RETIRE (R506): Frees the extents of one cairn. -/
  | cairnRetire (cmd : Nat) (pool : PoolSeen)
  /-- GROUP_SCRUB (R506): Frees every extent held by no kept cairn and no local cut. -/
  | groupScrub (cmd : Nat) (kept : Option (List Word)) (pool : PoolSeen)
  /-- ETH_FRAME_RX (R533): An Ethernet frame is received, checked or dropped, and its fragment placed in reassembly. -/
  | ethFrameRx (port : Fin 2) (frame : EthFrame)
  /-- PFC_RX (R534): A received PFC frame pauses transmission on its priority. -/
  | pfcRx (port : Fin 2) (prio : Fin 8) (pauseNs : Nat)
  /-- REQUEST_MESSAGE (R538): A completely reassembled REQUEST is checked, source-checked, policed and sent to tokenize. -/
  | requestMessage
  /-- REQUEST_TOKENIZED (R538): On TOKENIZE completion the edge polices by tokens and posts the request item. -/
  | requestTokenized
  /-- REASM_TIMEOUT (R537): A message incomplete within REASM_MS is discarded with NET_REASM. -/
  | reasmTimeout
  /-- RESPONSE_ITEM (R540): The edge pops a response from its transmit queue and places it in the shaper. -/
  | responseItem
  /-- SHAPER_RELEASE (R551): A held response fragment is sent when its customer's shaper credit permits. -/
  | shaperRelease
  /-- TRANSFER_ITEM (R544): A transfer item starts a SEND and RDMA WRITEs of a session's pages to a peer. -/
  | transferItem (item : Item)
  /-- TRANSFER_SEND_RX (R546): The taker's home receives a transfer SEND, reserves a slot and sends reserve items and its answer. -/
  | transferSendRx (peer : Nat) (hello : XferHello) (seen : Option PoolRec)
  /-- RESERVE_ITEM (R546): A taker-side module marks the reserved slot TAKING as a shard. -/
  | reserveItem (handle : Word) (origin : Word)
  /-- RESERVE_ANSWER (R546): The giver receives the taker's handle and starts the shard transfers. -/
  | reserveAnswer (peer : Nat) (origin : Word) (handle : Word)
  /-- RDMA_WRITE_RX (R545): A received page write is checked against its CRC and installed. -/
  | rdmaWriteRx (peer : Nat) (index : Nat) (data : List Byte) (imm : BitVec 32)
  /-- ROCE_ACK_RX (R544): An acknowledgement advances a transfer, completing it when every write is acknowledged. -/
  | roceAckRx (peer : Nat) (count : Nat) (nak : RoceNak)
  /-- ROCE_ACK_TIMEOUT (R541): After ACK_TIMEOUT_US the sender retransmits go-back-N, failing after 7 retries. -/
  | roceAckTimeout (peer : Nat)
  /-- CNP_RX (R541): A congestion notification halves the queue-pair rate at most once per 50 µs. -/
  | cnpRx (peer : Nat)
  /-- ROCE_RATE_RAISE (R541): Every 55 µs without notification the queue-pair rate rises by 1 GB/s. -/
  | roceRateRaise (peer : Nat)
  /-- RESERVATION_TIMEOUT (R546): A reserved slot without all transfers by TIMEOUT_MS returns to FREE. -/
  | reservationTimeout (slot : Nat) (homeDropped : Bool)
  /-- METER_SET (R553): Replaces a meter record's configuration words and clamps levels. -/
  | meterSet (cmd : Nat) (record : Option Item)
  /-- FLIT_RX (R570): A trail flit is accepted or discarded, its ACK and credits taken, and NAK sent if needed. -/
  | flitRx (port : Fin 8) (flit : Flit)
  /-- REPLAY_TIMEOUT (R570): No ACK progress within REPLAY_US resends unacknowledged flits, and RETRY_LIMIT takes the port DOWN. -/
  | replayTimeout (port : Fin 8)
  /-- FEC_LOCK_LOSS (R571): Loss of FEC lock takes a trail port DOWN. -/
  | fecLockLoss (port : Fin 8)
  /-- RETRAIN (R571): Every RETRAIN_MS a DOWN, unlocked port restarts bring-up. -/
  | retrain (port : Fin 8)
  /-- INIT_SEND (R572): Every 1 µs during bring-up a side sends an INIT flit. -/
  | initSend (port : Fin 8)
  /-- INIT_RX (R572): A received INIT flit is checked; a mismatch locks the port as MISWIRE, a pass sends INIT_DONE. -/
  | initRx (port : Fin 8) (init : InitFlit)
  /-- INIT_DONE_RX (R572): Receipt of INIT_DONE after sending it brings the port UP with sequences and credits reset. -/
  | initDoneRx (port : Fin 8)
  /-- ITEM_FRAME (R575): An ITEM frame becomes a queue item at its destination queue. -/
  | itemFrame (port : Fin 8) (frame : Frame)
  /-- LARDER_DATA_FRAME (R575): A LARDER_DATA frame is written into the larder and raises the tally after the LAST frame. -/
  | larderDataFrame (port : Fin 8) (frame : Frame)
  /-- FABRIC_COMPLETION (R579): A fabric access completion reaches the port, making a write durable. -/
  | fabricCompletion (id : Nat) (ok : Bool)
  /-- FABRIC_TIMEOUT (R582): No completion within TIMEOUT_US fails the access with FAB_ERROR. -/
  | fabricTimeout (id : Nat)
  /-- FABRIC_CAS_COMPLETE (R581): A compare-and-swap returns its old value and succeeds or fails. -/
  | fabricCasComplete (addr : Word) (expected : Word) (value : Word) (old : Word)
  /-- FABRIC_LINK_DOWN (R693): A fabric port losing its link is logged as a LINK fault and left out of port choice. -/
  | fabricLinkDown (port : Fin 4)
  /-- FABRIC_LINK_UP (R579): A fabric port coming up rejoins port choice after outstanding accesses drain. -/
  | fabricLinkUp (port : Fin 4) (width : Fin 3) (slow : Bool)
  /-- PREFETCH_INTERVAL (R588): Every 100 µs in ADAPT mode a port recomputes its prefetch DEPTH. -/
  | prefetchInterval (port : Fin 4) (meanNs : Nat)
  /-- RECOMPOSE (R584): Checks a new composition map and holds it for install. -/
  | recompose (cmd : Nat) (map : Option (List Byte))
  /-- MAP_INSTALL (R585): At the step boundary the new map is installed, the old drains and the charging record turns. -/
  | mapInstall (dirHeader : Word)
  /-- DRAIN_END (R585): After DRAIN_MS the old map is dropped. -/
  | drainEnd
  /-- HELD_ITEM_TIMEOUT (R585): An item held for a newer epoch not installed within DRAIN_MS is refused with EPOCH_AHEAD. -/
  | heldItemTimeout
  /-- CHARGE_TICK (R590): Every 1 ms the platform block adds to the open charging record. -/
  | chargeTick
  /-- SCRUB_READ (R612): Patrol scrub reads the next line and writes back a corrected line if no write intervened. -/
  | scrubRead (channel : Fin 128) (errs : List (Nat × Byte)) (wrote : Bool)
  /-- OSCILLATOR_CHECK (R617): Every 100 ms the WCK2DQ oscillators are read and a drifted channel retrained. -/
  | oscillatorCheck (channel : Fin 128) (drifted : Bool)
  /-- SETT_READ (R621): Reads a sett logical page into the staging buffer. -/
  | settRead (page : Nat)
  /-- SETT_PROGRAM (R621): Programs a sett logical page to new NAND locations. -/
  | settProgram (page : Nat) (data : List (Nat × Byte))
  /-- SETT_TRIM (R621): Unmaps a sett logical page. -/
  | settTrim (page : Nat)
  /-- TRIM_ALL (R621): Unmaps every sett logical page. -/
  | trimAll
  /-- SETT_READ_DONE (R621): A sett read completes with data or an uncorrectable error. -/
  | settReadDone (page : Nat) (lost : Bool) (retries : Nat) (rebuilt : Nat)
  /-- SETT_PROGRAM_DONE (R621): A sett program reports success once every codeword and parity is programmed. -/
  | settProgramDone (page : Nat) (ok : Bool) (blocks : List Nat) (bytes : Nat)
  /-- WEAR_LEVELLING (R624): An erase-count spread above 200 moves the coldest data to the most worn free block. -/
  | wearLevelling (least : Nat) (most : Nat) (cold : Nat) (bytes : Nat)
  /-- READ_DISTURB (R624): A block reaching 200,000 reads has its valid pages relocated and is erased. -/
  | readDisturb (block : Nat) (dest : Nat) (bytes : Nat)
  /-- RETENTION (R624): Data aged 30 days or needing read-retry is relocated. -/
  | retention (block : Nat) (dest : Nat) (bytes : Nat)
  /-- GROWN_DEFECT (R624): A program or erase failure retires the block and rebuilds its pages. -/
  | grownDefect (block : Nat) (dest : Nat) (bytes : Nat)
  /-- DIE_FAILURE (R624): A die that stops answering triggers rebuild of its stripes, or DEGRADED on a second failure. -/
  | dieFailure (die : Fin 1024)
  /-- LOAD_IMAGE (R643): Checks, measures and places a FULL image or stages a DELTA. -/
  | loadImage (cmd : Nat) (image : Option (List Byte)) (dirHeader dirBase headerBase : Word)
  /-- COMMIT (R651): Checks named agreement groups and makes them pending. -/
  | commit (cmd : Nat)
  /-- GROUP_APPLY (R651): At its safe point a pending group applies its shadows in one step. -/
  | groupApply (group : Fin 17)
  /-- SQ_TAIL_WRITE (R661): A doorbell write of a new submission tail makes commands available, or sets ERROR. -/
  | sqTailWrite (fn : Fin 2) (qp : Fin 16) (value : Word)
  /-- CQ_HEAD_WRITE (R662): A write of the completion head frees completion entries, or sets ERROR. -/
  | cqHeadWrite (fn : Fin 2) (qp : Fin 16) (value : Word)
  /-- QCFG_WRITE (R660): Setting EN enables a pair, or sets ERROR on a bad size; clearing EN stops fetching. -/
  | qcfgWrite (fn : Fin 2) (qp : Fin 16) (value : Word)
  /-- ATTN_CLEAR (R676): A W1C write clears HOST.ATTN bits. -/
  | attnClear (fn : Fin 2) (value same : Word)
  /-- ATTENTION_REASSERT (R676): Within 1 ms a cleared attention bit whose condition persists is set again. -/
  | attentionReassert (fn : Fin 2)
  /-- COMMAND_FETCH (R662): The module fetches a command when room allows, tags it and checks it by R667. -/
  | commandFetch (fn : Fin 2) (qp : Fin 16) (record : Option Item)
  /-- IDE_STATE_CHANGE (R658): A function's IDE stream leaving or entering Secure stops or resumes fetching and completions. -/
  | ideStateChange (fn : Fin 2) (secure : Bool)
  /-- NOP (R668): Completes at once. -/
  | hostNop (cmd : Nat)
  /-- WATCH (R677): Completes when a masked attention bit is set, or at its timeout. -/
  | watch (cmd : Nat)
  /-- WATCH_TIMEOUT (R677): TIMEOUT_MS passes and the WATCH completes with CODE 0. -/
  | watchTimeout (cmd : Nat)
  /-- READ_REGS (R668): Writes COUNT register values to host memory. -/
  | readRegs (cmd : Nat) (dmaOk : Bool)
  /-- SET_SAMPLER (R668): Replaces a session's sampler state. -/
  | setSampler (cmd : Nat) (sampler : Option (List Word))
  /-- BIND_ADAPTER (R672): Sets a session's adapter binding entries. -/
  | bindAdapter (cmd : Nat)
  /-- FERRY (R668): Host command posting a ferry request. -/
  | ferry (cmd : Nat)
  /-- SPAN (R165): Host command sending a span request to every module and combining completions. -/
  | span (cmd : Nat) (shares : List SpanShare)
  /-- SUBMIT_REQUEST (R670): Copies input entries, checks ORIGIN and builds a request item. -/
  | submitRequest (cmd : Nat) (entries : Option (List (BitVec 32)))
  /-- CANCEL (R352): Host command setting CANCEL on a request by REQ_ID. -/
  | cancel (cmd : Nat)
  /-- READ_OUTPUT (R671): Returns token-log entries of a session. -/
  | readOutput (cmd : Nat) (dmaOk : Bool)
  /-- ADAPTER_SWAP (R374): Installs a new adapter version and moves the old to PREV. -/
  | adapterSwap (cmd : Nat)
  /-- RATION_ADD (R379): Adds a signed amount to a customer's ration BALANCE. -/
  | rationAdd (cmd : Nat)
  /-- GRAMMAR_LOAD (R449): Writes a grammar directory entry and its image. -/
  | grammarLoad (cmd : Nat) (image : Option (List Byte))
  /-- UNIT_FAULT (R689): A unit fault stops the unit, firmware answers its items with UNIT_FAILED and resets it. -/
  | unitFault (unit : Fin 8)
  /-- UNIT_SELFTEST_DONE (R689): A passing self-test restores the unit as reader and clears its bit. -/
  | unitSelftestDone (unit : Fin 8) (pass : Bool)
  /-- STEP_ABORT (R685): A module receiving a step-abort discards step n unless committed, and acknowledges. -/
  | stepAbort (step : BitVec 32) (origin : Nat)
  /-- STEP_RERUN (R685): When every module has acknowledged and retired, firmware reruns the step or ends it STEP_ABORTED. -/
  | stepRerun (acks : List Nat)
  /-- STALL_PROBE (R692): On STEP_STALL firmware probes every participating module each LIST_TIMEOUT_US. -/
  | stallProbe (answers : List Nat)
  /-- MODULE_ABSENT (R692): A module silent for 1 s is taken as absent; requests fail with TRAIL_DOWN and sessions park. -/
  | moduleAbsent (module : Nat)
  /-- MODULE_FAULT (R696): A MODULE domain fault stops the data plane and sets FATAL. -/
  | moduleFault (code : BitVec 16) (detail : Word)
  /-- LOST_ITEM_TIMEOUT (R698): Work of a lost item with no completion after 10 s ends with ITEM_ECC. -/
  | lostItemTimeout
  /-- FUSE_PROGRAM (R721): Blows permitted fuse bits. -/
  | fuseProgram (session : Option Nat) (bits : List Nat) (signature : List Byte)
  /-- GET_CHARGE (R728): Returns a charging record. -/
  | getCharge (k : Nat)
  /-- JTAG_SESSION (R723): A JTAG debug session is measured into register 6, or not opened if the log is full. -/
  | jtagSession (digest : BitVec 384)
  /-- MCTP_CONTROL (R727): An MCTP control message is answered. -/
  | mctpControl (command : Nat) (arg : Nat)
  /-- GET_TID (R728): PLDM GetTID. -/
  | getTid
  /-- SET_TID (R728): PLDM SetTID. -/
  | setTid (tid : BitVec 8)
  /-- GET_PLDM_VERSION (R728): PLDM GetPLDMVersion. -/
  | getPldmVersion (kind : Nat)
  /-- GET_PLDM_TYPES (R728): PLDM GetPLDMTypes. -/
  | getPldmTypes
  /-- GET_PLDM_COMMANDS (R728): PLDM GetPLDMCommands. -/
  | getPldmCommands (kind : Nat)
  /-- GET_PDR (R728): PLDM GetPDR. -/
  | getPdr (record : Nat)
  /-- GET_SENSOR_READING (R730): Returns a PLT.SENSOR reading. -/
  | getSensorReading (sensor : Nat)
  /-- GET_STATE_SENSOR_READINGS (R728): PLDM GetStateSensorReadings. -/
  | getStateSensorReadings (sensor : Nat)
  /-- SET_NUMERIC_EFFECTER_VALUE (R731): Sets effecter 1, the power cap CAP_W. -/
  | setNumericEffecterValue (effecter : Nat) (value : BitVec 16)
  /-- GET_NUMERIC_EFFECTER_VALUE (R728): Returns an effecter value. -/
  | getNumericEffecterValue (effecter : Nat)
  /-- QUERY_DEVICE_IDENTIFIERS (R728): PLDM QueryDeviceIdentifiers. -/
  | queryDeviceIdentifiers
  /-- GET_FIRMWARE_PARAMETERS (R728): PLDM GetFirmwareParameters. -/
  | getFirmwareParameters
  /-- REQUEST_UPDATE (R729): Starts a firmware update if FW_UPDATE_EN permits. -/
  | requestUpdate
  /-- PASS_COMPONENT_TABLE (R728): PLDM PassComponentTable. -/
  | passComponentTable
  /-- UPDATE_COMPONENT (R729): Starts transfer of a component into the non-ACTIVE bank. -/
  | updateComponent (component : Fin 2) (size : Nat)
  /-- REQUEST_FIRMWARE_DATA (R729): Exchanges a firmware data chunk. -/
  | requestFirmwareData (offset : Nat) (data : List (BitVec 8))
  /-- TRANSFER_COMPLETE (R728): PLDM TransferComplete. -/
  | transferComplete
  /-- VERIFY_COMPLETE (R729): Reports success only if the image passes every check of R712. -/
  | verifyComplete
  /-- APPLY_COMPLETE (R728): PLDM ApplyComplete. -/
  | applyComplete
  /-- ACTIVATE_FIRMWARE (R729): Names the updated bank as TRY. -/
  | activateFirmware
  /-- GET_STATUS (R728): PLDM GetStatus. -/
  | getStatus
  /-- CANCEL_UPDATE_COMPONENT (R728): PLDM CancelUpdateComponent. -/
  | cancelUpdateComponent
  /-- CANCEL_UPDATE (R728): PLDM CancelUpdate. -/
  | cancelUpdate
  /-- GET_VERSION (R726): SPDM GET_VERSION. -/
  | getVersion (port : SpdmPort)
  /-- GET_CAPABILITIES (R726): SPDM GET_CAPABILITIES. -/
  | getCapabilities (port : SpdmPort)
  /-- NEGOTIATE_ALGORITHMS (R726): SPDM NEGOTIATE_ALGORITHMS. -/
  | negotiateAlgorithms (port : SpdmPort)
  /-- GET_DIGESTS (R726): SPDM GET_DIGESTS. -/
  | getDigests (port : SpdmPort)
  /-- GET_CERTIFICATE (R725): SPDM GET_CERTIFICATE returns the slot 0 chain. -/
  | getCertificate (port : SpdmPort) (slot : Nat)
  /-- CHALLENGE (R726): SPDM CHALLENGE. -/
  | challenge (port : SpdmPort) (slot : Nat)
  /-- GET_MEASUREMENTS (R726): SPDM signed measurements of registers or the log. -/
  | getMeasurements (port : SpdmPort) (index : Nat)
  /-- KEY_EXCHANGE (R726): SPDM KEY_EXCHANGE. -/
  | keyExchange (port : SpdmPort)
  /-- FINISH (R726): SPDM FINISH. -/
  | finish (port : SpdmPort) (session : Nat)
  /-- KEY_UPDATE (R726): SPDM KEY_UPDATE. -/
  | keyUpdate (port : SpdmPort) (session : Nat)
  /-- HEARTBEAT (R726): SPDM HEARTBEAT. -/
  | heartbeat (port : SpdmPort) (session : Nat)
  /-- END_SESSION (R726): SPDM END_SESSION. -/
  | endSession (port : SpdmPort) (session : Nat)
  /-- FEC_LOCK (R572): Lane alignment and FEC lock are achieved on a trail port, after which the side begins sending INIT flits toward UP. -/
  | fecLock (port : Fin 8)
  /-- ETH_LINK_STATE (R555): An Ethernet port's PCS alignment and FEC lock are gained or lost, changing NET.PORTn.LINK_UP, or uncorrectable FEC codewords set FEC_DEGRADED. -/
  | ethLinkState (port : Fin 2) (up : Bool) (badCodewords : Bool)
  /-- REBUILD_COMPLETE (R624): The rebuild of every stripe of a failed NAND die onto spare blocks ends and SETT.STATUS.REBUILDING returns to 0. -/
  | rebuildComplete (die : Fin 1024) (moves : List (Nat × Nat)) (codewords : Nat) (bytes : Nat)
  /-- PROMOTION_WINDOW (R496): A period of SEU.HOT.WINDOW_MS ends and row read counts for promotion into the row store start again. -/
  | promotionWindow
  deriving DecidableEq, Repr

end Sys2Proof
end

