-- ==== Sys2Proof/Config.lean ====
section
/-! DEFINITION. The free values: constants without a body, so that nothing can be proved about what they hold.  Each is
applied to the free-value counter of the state, or to the operands it may depend on. -/

namespace Sys2Proof.Config

/-- A floating-point accumulation's candidate result (R245, R251). -/
opaque mmaSum : Nat → BitVec 32
/-- The row sum of a given row by the fixed pairwise tree, whose shape the spec does not give (R249): a function of the
row alone, so equal rows give equal sums. -/
opaque rowSum : List (BitVec 32) → BitVec 32
/-- Candidate results of the 16-lane operations (R248). -/
opaque expValue : Nat → BitVec 32
opaque logValue : Nat → BitVec 32
opaque rcpValue : Nat → BitVec 32
opaque rsqrtValue : Nat → BitVec 32
/-- A sketch bit whose projected sum lies within the margin of R153. -/
opaque sketchBit : Nat → Bool
/-- Attention output elements (R222) and row statistics (R218). -/
opaque attnOut : Nat → BitVec 16
opaque attnStat : Nat → BitVec 32
/-- Bytes whose contents the spec leaves undefined after the event that reads them. -/
opaque undefByte : Nat → BitVec 8
opaque undefWord : Nat → BitVec 64
/-- A token log entry at or above SPEC_LEN (R115), by the free-value counter and the entry's key. -/
opaque staleEntry : Nat → Nat → BitVec 32
/-- A 32-bit result the spec does not state: a conversion to INT32 of a value outside its range (R242). -/
opaque word32 : Nat → BitVec 32
/-- A choice the spec leaves to the part: old or new contents (R231, R279), or a delay in cycles (R299). -/
opaque choice : Nat → Bool
opaque delay : Nat → Nat
/-- Which of several parts a read error strikes: the command that reports it names the slot alone (R229, R233). -/
opaque place : Nat → Nat
/-- How many of a write's read-modify-writes are merged with one that waits (R609). -/
opaque merged : Nat → Nat
/-- The bootstrap CRC, hash and signature functions the spec names by reference only. -/
opaque sha384 : List (BitVec 8) → BitVec 384
/-- Whether an ECDSA P-384 signature by a key verifies over a digest (R640). -/
opaque ecdsaOk : List (BitVec 8) → List (BitVec 8) → BitVec 384 → Bool
/-- The device secret generated from the entropy source (R721). -/
opaque entropy : Nat → BitVec 256
/-- Cryptographic bytes of SPDM and certificate replies (R725, R726). -/
opaque crypto : Nat → BitVec 64
/-- Sampler draws (R362). -/
opaque draw : Nat → Nat
/-- Candidate of a logit after a repetition penalty (R362, R251), by the logit and the penalty. -/
opaque penalized : BitVec 32 → BitVec 32 → BitVec 32
/-- Pooled sums of embedding rows (R490). -/
opaque poolSum : Nat → BitVec 32
/-- Whether the first of two list distances counts as nearer when one is a NaN (R476). -/
opaque nanNearer : BitVec 32 → BitVec 32 → Bool
/-- The row scale of an E4M3 row whose scale by R493 no FP32 value holds. -/
opaque rowScale : Nat → BitVec 32
/-- The tables of Unicode 15.1.0 that R438 names: combining classes, canonical and compatibility decompositions, and the primary
composite of a pair. -/
opaque combiningClass : Nat → Nat
opaque canonDecomp : Nat → List Nat
opaque compatDecomp : Nat → List Nat
opaque primaryComposite : Nat → Nat → Option Nat

end Sys2Proof.Config
end

