-- ==== Sys2Proof/Machine/Store.lean ====
section
/-! DEFINITION. Bit fields, serial numbers and the operations on sparse tables: the helpers every other file uses. -/

namespace Sys2Proof

/-- Bits hi:lo of a word, as a number (R5, R9). -/
def bits (w : Word) (hi lo : Nat) : Nat := (w.toNat / 2 ^ lo) % 2 ^ (hi - lo + 1)

/-- Bit `i` of a word. -/
def bit (w : Word) (i : Nat) : Bool := bits w i i = 1

/-- A field value placed at bit `lo`: the low `hi − lo + 1` bits of `v`. -/
def fld (hi lo v : Nat) : Word := BitVec.ofNat 64 ((v % 2 ^ (hi - lo + 1)) * 2 ^ lo)

/-- The mask of bits hi:lo. -/
def fldMask (hi lo : Nat) : Word := BitVec.ofNat 64 ((2 ^ (hi - lo + 1) - 1) * 2 ^ lo)

/-- A word with bits hi:lo replaced. -/
def setBits (w : Word) (hi lo v : Nat) : Word := (w &&& ~~~ fldMask hi lo) ||| fld hi lo v

/-- A flag as a number. -/
def bnat (b : Bool) : Nat := if b then 1 else 0

/-- `a ⊳ b`: b is newer than a by the serial-number rule of R19 at the width of the two values. -/
def newer {w : Nat} (a b : BitVec w) : Bool :=
  let d := (b - a).toNat
  1 ≤ d && d ≤ 2 ^ (w - 1) - 1

/-- The wait test of R318: (value − t) mod 2^32 lies in 0 to 2^31 − 1. -/
def reached (value t : BitVec 32) : Bool := (value - t).toNat ≤ 2 ^ 31 - 1

/-- A number seen as signed, `n` bits wide. -/
def sext (n v : Nat) : Int :=
  let m := v % 2 ^ n
  if m < 2 ^ (n - 1) then (m : Int) else (m : Int) - (2 ^ n : Nat)

/-- A 64-bit word from an integer, wrapping. -/
def ofInt64 (i : Int) : Word := BitVec.ofInt 64 i

/-- Milliseconds and microseconds on the nanosecond time base (R8). -/
def msec (n : Nat) : Nat := n * 1000000
def usec (n : Nat) : Nat := n * 1000

/-- The smaller and the larger bound applied to a number. -/
def clampNat (lo hi n : Nat) : Nat := max lo (min hi n)

/-- Subtraction that stops at 0 is the default of Nat; ceiling division. -/
def ceilDiv (a b : Nat) : Nat := (a + b - 1) / b

/-- A list cut into pieces of k. -/
def chunksOf {α : Type} (k : Nat) (l : List α) : List (List α) :=
  (List.range (ceilDiv l.length k)).map fun i => (l.drop (k * i)).take k

/-! ### Sparse tables -/

/-- What a table lists at a number. -/
def SMap.lookup {α : Type} : SMap α → Nat → Option α
  | [], _ => none
  | (k, v) :: m, i => if k = i then some v else SMap.lookup m i

/-- Insert a pair in rising order; the number must not be listed. -/
def SMap.insertSorted {α : Type} (k : Nat) (v : α) : SMap α → SMap α
  | [] => [(k, v)]
  | (j, w) :: m => if k < j then (k, v) :: (j, w) :: m else (j, w) :: SMap.insertSorted k v m

/-- Drop a number from a table. -/
def SMap.erase {α : Type} (m : SMap α) (k : Nat) : SMap α := m.filter fun p => p.1 != k

/-- List a value at a number. -/
def SMap.put {α : Type} (m : SMap α) (k : Nat) (v : α) : SMap α := SMap.insertSorted k v (m.erase k)

/-- The value at a number, `d` where none is listed. -/
def SMap.get {α : Type} (d : α) (m : SMap α) (k : Nat) : α := (m.lookup k).getD d

/-- Give a number a value, keeping no entry that equals the default. -/
def SMap.set {α : Type} [DecidableEq α] (d : α) (m : SMap α) (k : Nat) (v : α) : SMap α :=
  if v = d then m.erase k else m.put k v

/-- Change the value at a number. -/
def SMap.modify {α : Type} [DecidableEq α] (d : α) (m : SMap α) (k : Nat) (f : α → α) : SMap α :=
  m.set d k (f (m.get d k))

/-- Change a listed value; a number that is not listed stays so. -/
def SMap.adjust {α : Type} (m : SMap α) (k : Nat) (f : α → α) : SMap α :=
  m.map fun p => if p.1 = k then (p.1, f p.2) else p

/-- The numbers and the values a table lists. -/
def SMap.keys {α : Type} (m : SMap α) : List Nat := m.map (·.1)
def SMap.vals {α : Type} (m : SMap α) : List α := m.map (·.2)

/-- The canonical form: numbers strictly rising. -/
def SMap.sorted {α : Type} : SMap α → Bool
  | [] => true
  | [_] => true
  | a :: b :: m => a.1 < b.1 && SMap.sorted (b :: m)

/-- The lowest number at or above `lo`, below `lo + fuel`, that satisfies `p`. -/
def findFrom (p : Nat → Bool) (lo : Nat) : Nat → Option Nat
  | 0 => none
  | fuel + 1 => if p lo then some lo else findFrom p (lo + 1) fuel

/-- Replace the element at an index of a list. -/
def setNth {α : Type} (l : List α) (i : Nat) (v : α) : List α := l.set i v

/-- Sum of a list of numbers. -/
def sumNat (l : List Nat) : Nat := l.foldl (· + ·) 0

/-- The smallest number of a list. -/
def minNat? : List Nat → Option Nat
  | [] => none
  | a :: l => some (l.foldl min a)

end Sys2Proof
end

