-- ==== Sys2Proof/Machine/Fp.lean ====
section
/-! DEFINITION. Number formats, conversions and FP32 arithmetic of the tiles (R238 to R249).  A finite value is a sign and
a magnitude counted in units of 2^-300: every format's values, and every product of two of them, are whole counts. -/

namespace Sys2Proof

/-- A decoded number. -/
inductive FVal where
  | nan
  | inf (neg : Bool)
  | fin (neg : Bool) (mag : Nat)
  deriving DecidableEq, Repr

def FVal.isNaN : FVal → Bool
  | .nan => true
  | _ => false

def FVal.isInf : FVal → Bool
  | .inf _ => true
  | _ => false

/-- A floating-point format of R239: exponent and mantissa bits, bias, largest finite encoding (without sign), and
whether it has infinities and NaNs. -/
structure FpFmt where
  ebits : Nat
  mbits : Nat
  bias : Nat
  maxEnc : Nat
  hasInf : Bool
  nanEnc : Option Nat
  deriving DecidableEq, Repr

def fpE4M3 : FpFmt := ⟨4, 3, 7, 0x7E, false, some 0x7F⟩
def fpE5M2 : FpFmt := ⟨5, 2, 15, 0x7B, true, some 0x7F⟩
def fpE3M2 : FpFmt := ⟨3, 2, 3, 0x1F, false, none⟩
def fpE2M3 : FpFmt := ⟨2, 3, 1, 0x1F, false, none⟩
def fpE2M1 : FpFmt := ⟨2, 1, 1, 0x7, false, none⟩
def fpBF16 : FpFmt := ⟨8, 7, 127, 0x7F7F, true, some 0x7FC0⟩
def fpFP16 : FpFmt := ⟨5, 10, 15, 0x7BFF, true, some 0x7E00⟩
def fpFP32 : FpFmt := ⟨8, 23, 127, 0x7F7FFFFF, true, some 0x7FC00000⟩

/-- Magnitude of an encoding without its sign, in units of 2^-300. -/
def FpFmt.mag (f : FpFmt) (enc : Nat) : Nat :=
  let e := enc / 2 ^ f.mbits
  let m := enc % 2 ^ f.mbits
  if e = 0 then m * 2 ^ (301 - f.bias - f.mbits) else (2 ^ f.mbits + m) * 2 ^ (300 + e - f.bias - f.mbits)

/-- Decode an encoding (R239); every NaN encoding is NaN (R241). -/
def FpFmt.decode (f : FpFmt) (v : Nat) : FVal :=
  let w := f.ebits + f.mbits
  let neg := v / 2 ^ w % 2 = 1
  let enc := v % 2 ^ w
  if enc ≤ f.maxEnc then .fin neg (f.mag enc)
  else if f.hasInf && enc = f.maxEnc + 1 then .inf neg
  else .nan

/-- Round a count to a whole number of `u`, ties to even. -/
def rne (n u : Nat) : Nat :=
  let q := n / u
  let r := n % u
  if 2 * r < u then q else if u < 2 * r then q + 1 else if q % 2 = 0 then q else q + 1

/-- The place of the last kept bit for a magnitude: log2 of the step, counted from 2^-300. -/
def FpFmt.stepLog (f : FpFmt) (mag : Nat) : Nat := max (Nat.log2 mag - f.mbits) (301 - f.bias - f.mbits)

/-- Round a magnitude to nearest even; none when it overflows (R242: at or beyond the largest finite magnitude plus half
of the last step). -/
def FpFmt.round (f : FpFmt) (mag : Nat) : Option Nat :=
  let big := f.mag f.maxEnc
  if big + 2 ^ f.stepLog big / 2 ≤ mag then none
  else
    let q := f.stepLog mag
    let n := rne mag (2 ^ q)
    let low := 301 - f.bias - f.mbits
    if q = low then some n else some ((q - low + 1) * 2 ^ f.mbits + (n - 2 ^ f.mbits))

def FpFmt.signed (f : FpFmt) (neg : Bool) (enc : Nat) : Nat := bnat neg * 2 ^ (f.ebits + f.mbits) + enc

/-- Canonical NaN of a format; formats without NaN take zero, their block's scale saying NaN (R244). -/
def FpFmt.nanOf (f : FpFmt) : Nat := f.nanEnc.getD 0

/-- Convert to a format (R242): the encoding and whether a finite value saturated. -/
def FpFmt.encode (f : FpFmt) (sat : Bool) (v : FVal) : Nat × Bool :=
  match v with
  | .nan => (f.nanOf, false)
  | .inf neg =>
    if f.mbits = 2 && f.ebits = 5 && sat then (f.signed neg f.maxEnc, false)
    else if f.hasInf then (f.signed neg (f.maxEnc + 1), false)
    else if f.nanEnc.isNone then (0, false)
    else if sat then (f.signed neg f.maxEnc, false)
    else (f.nanOf, false)
  | .fin neg mag =>
    match f.round mag with
    | some e => (f.signed neg e, false)
    | none =>
      if sat || f.nanEnc.isNone then (f.signed neg f.maxEnc, true)
      else if f.hasInf then (f.signed neg (f.maxEnc + 1), false)
      else (f.nanOf, false)

/-! ### FP32 arithmetic (R240, R248) -/

abbrev F32 := BitVec 32

def F32.val (x : F32) : FVal := fpFP32.decode x.toNat
def f32Of (v : FVal) : F32 := BitVec.ofNat 32 (fpFP32.encode false v).1
def f32Nan : F32 := 0x7FC00000#32
def f32One : F32 := 0x3F800000#32

/-- A finite value as a signed count. -/
def toInt (neg : Bool) (mag : Nat) : Int := if neg then -(mag : Int) else (mag : Int)
def ofSigned (i : Int) : FVal := .fin (i < 0) i.natAbs

/-- Exact sum; zero from opposite signs is +0, from equal signs keeps the sign. -/
def FVal.add : FVal → FVal → FVal
  | .nan, _ => .nan
  | _, .nan => .nan
  | .inf a, .inf b => if a = b then .inf a else .nan
  | .inf a, _ => .inf a
  | _, .inf b => .inf b
  | .fin a m, .fin b n =>
    let i := toInt a m + toInt b n
    if i = 0 then .fin (a && b) 0 else ofSigned i

def FVal.neg : FVal → FVal
  | .nan => .nan
  | .inf a => .inf (!a)
  | .fin a m => .fin (!a) m

/-- Exact product. -/
def FVal.mul : FVal → FVal → FVal
  | .nan, _ => .nan
  | _, .nan => .nan
  | .inf a, .inf b => .inf (a != b)
  | .inf a, .fin b n => if n = 0 then .nan else .inf (a != b)
  | .fin a m, .inf b => if m = 0 then .nan else .inf (a != b)
  | .fin a m, .fin b n => .fin (a != b) (m * n / 2 ^ 300)

def f32Add (x y : F32) : F32 := f32Of (x.val.add y.val)
def f32Sub (x y : F32) : F32 := f32Of (x.val.add y.val.neg)
def f32Mul (x y : F32) : F32 := f32Of (x.val.mul y.val)
def f32Fma (x y z : F32) : F32 := f32Of ((x.val.mul y.val).add z.val)

/-- Order of two non-NaN values, −0 below +0. -/
def FVal.below : FVal → FVal → Bool
  | .inf a, .inf b => a && !b
  | .inf a, _ => a
  | _, .inf b => !b
  | .fin a m, .fin b n =>
    if m = 0 && n = 0 then a && !b else toInt a m < toInt b n
  | _, _ => false

/-- Numeric less-than and equality; false with NaN (R248). -/
def FVal.lt : FVal → FVal → Bool
  | .nan, _ => false
  | _, .nan => false
  | .fin a m, .fin b n => toInt a m < toInt b n
  | x, y => x.below y
def FVal.eq : FVal → FVal → Bool
  | .nan, _ => false
  | _, .nan => false
  | .fin a m, .fin b n => toInt a m = toInt b n
  | x, y => x = y

def f32Max (x y : F32) : F32 :=
  if x.val = .nan || y.val = .nan then f32Nan else if x.val.below y.val then y else x
def f32Min (x y : F32) : F32 :=
  if x.val = .nan || y.val = .nan then f32Nan else if y.val.below x.val then y else x
def f32Lt (x y : F32) : F32 := if x.val.lt y.val then f32One else 0
def f32Eq (x y : F32) : F32 := if x.val.eq y.val then f32One else 0
/-- dst ≠ 0 of VSEL: a NaN is not equal to zero. -/
def f32NonZero (x : F32) : Bool := !(x.val.eq (.fin false 0))
def f32Abs (x : F32) : F32 := if x.val = .nan then f32Nan else x &&& 0x7FFFFFFF#32
def f32Neg (x : F32) : F32 := if x.val = .nan then f32Nan else x ^^^ 0x80000000#32

/-- A count divided with a sticky last bit: rounding boundaries are even counts, so the mark decides no tie. -/
def stickyDiv (n d : Nat) : Nat :=
  let q := n / d
  if n % d = 0 then q else if q % 2 = 0 then q + 1 else q

/-- x × 2^n (R248). -/
def f32Scale2 (x : F32) (n : Int) : F32 :=
  match x.val with
  | .fin a m => f32Of (.fin a (if 0 ≤ n then m * 2 ^ n.toNat else stickyDiv m (2 ^ n.natAbs)))
  | v => f32Of v

/-- Spacing of FP32 values at a magnitude, in units of 2^-300. -/
def ulpAt (mag : Nat) : Nat := 2 ^ fpFP32.stepLog mag

def absDiff (a b : Nat) : Nat := if a ≤ b then b - a else a - b

/-- Quotient of two values. -/
def FVal.div : FVal → FVal → FVal
  | .nan, _ => .nan
  | _, .nan => .nan
  | .inf _, .inf _ => .nan
  | .inf a, .fin b _ => .inf (a != b)
  | .fin a _, .inf b => .fin (a != b) 0
  | .fin a m, .fin b n =>
    if n = 0 then (if m = 0 then .nan else .inf (a != b)) else .fin (a != b) (stickyDiv (m * 2 ^ 300) n)

/-- A value rounded to one of its two neighbours: the candidate when it lies within 1 ulp, else the nearest. -/
def f32Near (v : FVal) (cand : F32) : F32 :=
  match v, cand.val with
  | .fin a m, .fin b n => if (toInt b n - toInt a m).natAbs ≤ ulpAt m then cand else f32Of v
  | _, _ => f32Of v

/-- Reciprocal within 1 ulp (R248): the candidate when it lies within the bound, else the rounded exact value. -/
def f32Rcp (x cand : F32) : F32 :=
  match x.val with
  | .nan => f32Nan
  | .inf a => f32Of (.fin a 0)
  | .fin a m =>
    if m = 0 then f32Of (.inf a)
    else
      let q := stickyDiv (2 ^ 600) m
      match cand.val with
      | .fin b c => if a = b && absDiff (c * m) (2 ^ 600) ≤ ulpAt q * m then cand else f32Of (.fin a q)
      | _ => f32Of (.fin a q)

/-- Integer square root, bit by bit from 2^k down. -/
def isqrtLoop (n : Nat) : Nat → Nat → Nat
  | 0, r => r
  | k + 1, r => isqrtLoop n k (if (r + 2 ^ k) * (r + 2 ^ k) ≤ n then r + 2 ^ k else r)

/-- Reciprocal square root within 2 ulp (R248); `open_` is used where the spec states no result (−0 and +infinity). -/
def f32Rsqrt (x cand open_ : F32) : F32 :=
  match x.val with
  | .nan => f32Nan
  | .inf a => if a then f32Nan else open_
  | .fin a m =>
    if m = 0 then if a then open_ else f32Of (.inf false)
    else if a then f32Nan
    else
      let q := isqrtLoop (2 ^ 900 / m) 460 0
      let u := 2 * ulpAt q
      match cand.val with
      | .fin false c => if (c - u) * (c - u) * m ≤ 2 ^ 900 && 2 ^ 900 ≤ (c + u) * (c + u) * m then cand
        else f32Of (.fin false q)
      | _ => f32Of (.fin false q)

/-! Exponential and logarithm in fixed point with 320 bits after the point: far closer to the exact value than any bound here. -/

def fxOne : Nat := 2 ^ 320
/-- artanh z for z up to 1/3, and ln 2 = 2 artanh (1/3). -/
def fxAtanh (z : Nat) : Nat :=
  ((List.range 104).foldl (fun (a : Nat × Nat) i => (a.1 + a.2 / (2 * i + 1), a.2 * z / fxOne * z / fxOne)) (0, z)).1
def fxLn2 : Nat := 2 * fxAtanh (fxOne / 3)
/-- e^r for r below 1. -/
def fxExp (r : Nat) : Nat :=
  ((List.range 80).foldl (fun (a : Nat × Nat) k => (a.1 + a.2, a.2 * r / (fxOne * (k + 1)))) (0, fxOne)).1

/-- e^x for x = ± m × 2^-300, as a count of 2^-300. -/
def expCount (neg : Bool) (m : Nat) : Nat :=
  let x := m * 2 ^ 20
  let k := x / fxLn2
  if neg then fxExp (fxLn2 - x % fxLn2) / 2 ^ (21 + k) else fxExp (x % fxLn2) * 2 ^ k / 2 ^ 20

/-- ln (m × 2^-300) for m > 0, as a count of 2^-300. -/
def lnCount (m : Nat) : Int :=
  let k := Nat.log2 m
  (((k : Int) - 300) * fxLn2 + 2 * fxAtanh ((m - 2 ^ k) * fxOne / (m + 2 ^ k))) / (2 ^ 20 : Nat)

/-- e^x (R248): the candidate when it lies within 2 ulp, or within 2^-149 among 0 and the subnormals below −87.3365, else the rounded
exact value; the limits are exact. -/
def f32Exp (x cand : F32) : F32 :=
  match x.val with
  | .nan => f32Nan
  | .inf a => if a then 0 else f32Of (.inf false)
  | .fin a m =>
    if !a && 887228 * 2 ^ 300 < m * 10000 then f32Of (.inf false)
    else if a && 400 * 2 ^ 300 < m then if cand.toNat ≤ 1 then cand else 0
    else
      let e := expCount a m
      let low := a && 873365 * 2 ^ 300 < m * 10000
      match cand.val with
      | .fin false c =>
        if low then if cand.toNat < 2 ^ 23 && absDiff c e ≤ 2 ^ 151 then cand else BitVec.ofNat 32 (min (2 ^ 23 - 1) (rne e (2 ^ 151)))
        else if absDiff c e ≤ 2 * ulpAt e then cand else f32Of (.fin false e)
      | _ => if low then BitVec.ofNat 32 (min (2 ^ 23 - 1) (rne e (2 ^ 151))) else f32Of (.fin false e)

/-- ln x (R248): the candidate when it lies within 2^-21 for x in 0.5 to 2, within 2 ulp elsewhere, else the rounded exact value;
ln 0 = −infinity, and a negative x gives NaN. -/
def f32Log (x cand : F32) : F32 :=
  match x.val with
  | .nan => f32Nan
  | .inf a => if a then f32Nan else f32Of (.inf false)
  | .fin a m =>
    if m = 0 then f32Of (.inf true)
    else if a then f32Nan
    else
      let l := lnCount m
      let u := if 2 ^ 299 ≤ m && m ≤ 2 ^ 301 then 2 ^ 279 else 2 * ulpAt l.natAbs
      match cand.val with
      | .fin b c => if (toInt b c - l).natAbs ≤ u then cand else f32Of (ofSigned l)
      | _ => f32Of (ofSigned l)

/-- MAXR: the maximum of a row. -/
def f32MaxRow : List F32 → F32
  | [] => f32Of (.inf true)
  | [x] => f32Max x x
  | x :: xs => f32Max x (f32MaxRow xs)

/-- The exact sum of a row, and the sum of its magnitudes. -/
def exactSum (row : List F32) : FVal := row.foldl (fun a x => a.add x.val) (.fin true 0)
def magSum (row : List F32) : Nat := row.foldl (fun a x => match x.val with
  | .fin _ m => a + m
  | _ => a) 0

/-- SUMR (R248, R249): the fixed tree's value when it lies within 7 × 2^-24 × Σ|x|, else the rounded exact sum. -/
def f32SumRow (row : List F32) : F32 :=
  match exactSum row with
  | .fin a m =>
    match F32.val (Config.rowSum row) with
    | .fin b c =>
      if (toInt b c - toInt a m).natAbs * 2 ^ 24 ≤ 7 * magSum row then Config.rowSum row else f32Of (.fin a m)
    | _ => f32Of (.fin a m)
  | v => f32Of v

/-! ### Vector operations (R277) -/

/-- Operations whose second source is another operand (R277). -/
def VecOp.twoSources : VecOp → Bool
  | .abs => false
  | .neg => false
  | .scale2 => false
  | .exp => false
  | .log => false
  | .rcp => false
  | .rsqrt => false
  | .maxr => false
  | .sumr => false
  | _ => true

/-- The 16-lane operations (R248). -/
def VecOp.slow : VecOp → Bool
  | .exp => true
  | .log => true
  | .rcp => true
  | .rsqrt => true
  | _ => false

/-- Cycles per row (R277). -/
def VecOp.rowCycles (o : VecOp) : Nat := if o.slow then 8 else 2

/-- Does the second source give one element per row (R277)? -/
def VecOp.perRow : VecOp → Bool
  | .adds => true
  | .subs => true
  | .muls => true
  | _ => false
def VecOp.reduces : VecOp → Bool
  | .maxr => true
  | .sumr => true
  | _ => false

/-! ### Tile formats (R271) -/

/-- The element format of a tile format, for the floating-point ones. -/
def Fmt.fp? : Fmt → Option FpFmt
  | .e4m3 => some fpE4M3
  | .e5m2 => some fpE5M2
  | .mx8e4 => some fpE4M3
  | .mx8e5 => some fpE5M2
  | .mx6e3 => some fpE3M2
  | .mx6e2 => some fpE2M3
  | .mx4 => some fpE2M1
  | .bf16 => some fpBF16
  | .fp16 => some fpFP16
  | .fp32 => some fpFP32
  | .int8 => none
  | .int32 => none

/-- Bits of one element. -/
def Fmt.bitsOf : Fmt → Nat
  | .e4m3 => 8
  | .e5m2 => 8
  | .mx8e4 => 8
  | .mx8e5 => 8
  | .mx6e3 => 6
  | .mx6e2 => 6
  | .mx4 => 4
  | .bf16 => 16
  | .fp16 => 16
  | .fp32 => 32
  | .int8 => 8
  | .int32 => 32

def Fmt.isMx : Fmt → Bool
  | .mx8e4 => true
  | .mx8e5 => true
  | .mx6e3 => true
  | .mx6e2 => true
  | .mx4 => true
  | _ => false

def Fmt.isFp8 : Fmt → Bool
  | .e4m3 => true
  | .e5m2 => true
  | _ => false

/-- FMT encodings (R271); 0x7 and 0xD to 0xF are reserved. -/
def Fmt.ofCode : Nat → Option Fmt
  | 0 => some .e4m3
  | 1 => some .e5m2
  | 2 => some .mx8e4
  | 3 => some .mx8e5
  | 4 => some .mx6e3
  | 5 => some .mx6e2
  | 6 => some .mx4
  | 8 => some .bf16
  | 9 => some .fp16
  | 10 => some .fp32
  | 11 => some .int8
  | 12 => some .int32
  | _ => none

def Fmt.code : Fmt → Nat
  | .e4m3 => 0
  | .e5m2 => 1
  | .mx8e4 => 2
  | .mx8e5 => 3
  | .mx6e3 => 4
  | .mx6e2 => 5
  | .mx4 => 6
  | .bf16 => 8
  | .fp16 => 9
  | .fp32 => 10
  | .int8 => 11
  | .int32 => 12

/-- Decode one element; integers are their values. -/
def Fmt.decode (f : Fmt) (v : Nat) : FVal :=
  match f.fp? with
  | some p => p.decode v
  | none =>
    let i := sext f.bitsOf v
    .fin (i < 0) (i.natAbs * 2 ^ 300)

/-- Convert to an integer of `w` bits (R242): nearest even, saturating; NaN gives 0. -/
def encodeInt (w : Nat) (v : FVal) : Nat × Bool :=
  let put := fun (i : Int) => (BitVec.ofInt w i).toNat
  let hi : Nat := 2 ^ (w - 1) - 1
  match v with
  | .nan => (0, false)
  | .inf neg => (put (if neg then -(hi + 1 : Nat) else (hi : Int)), false)
  | .fin neg mag =>
    let n := rne mag (2 ^ 300)
    if neg then if hi + 1 < n then (put (-(hi + 1 : Nat)), true) else (put (-(n : Int)), false)
    else if hi < n then (put hi, true) else (put n, false)

/-- Encode a value in a format: the element and whether a finite value saturated. -/
def Fmt.encode (f : Fmt) (sat : Bool) (v : FVal) : Nat × Bool :=
  match f.fp? with
  | some p => p.encode sat v
  | none => encodeInt f.bitsOf v

/-- E8M0 scale (R239): none for 0xFF. -/
def mxScaleExp (b : Nat) : Option Int := if b % 256 = 255 then none else some ((b % 256 : Nat) - 127)

/-- A value times 2^e; counts below 2^-300 keep a sticky bit. -/
def FVal.shift (v : FVal) (e : Int) : FVal :=
  match v with
  | .fin a m => .fin a (if 0 ≤ e then m * 2 ^ e.toNat else stickyDiv m (2 ^ e.natAbs))
  | x => x

/-- emax of R243. -/
def Fmt.emax : Fmt → Int
  | .mx8e4 => 8
  | .mx8e5 => 15
  | .mx6e3 => 4
  | _ => 2

/-- The largest finite magnitude of a block. -/
def maxMag (vs : List FVal) : Nat := vs.foldl (fun a v => match v with
  | .fin _ m => max a m
  | _ => a) 0

def clampInt (lo hi i : Int) : Int := max lo (min hi i)

/-- MXQ of one block (R243, R244): the scale byte, the elements, and how many finite values saturated. -/
def mxBlock (f : Fmt) (vs : List FVal) : Nat × List Nat × Nat :=
  let special := vs.any fun v => match v with
    | .fin _ _ => false
    | _ => true
  let small := f != .mx8e4 && f != .mx8e5
  if special && small then (255, vs.map fun _ => 0, 0)
  else
    let a := maxMag vs
    let x : Int := if a = 0 then -127 else clampInt (-127) 127 ((Nat.log2 a : Int) - 300 - f.emax)
    let es := vs.map fun v => f.encode true (v.shift (-x))
    ((x + 127).toNat, es.map (·.1), (es.filter (·.2)).length)

end Sys2Proof
end

