-- ==== Sys2Proof/Machine/Codes.lean ====
section
/-! DEFINITION. The 16-bit codes of the spec's code tables, one constant per mnemonic, and the domain of R701 and R702. -/

namespace Sys2Proof.Code

/-- UNMAPPED (R79): Leaf or directory entry has V = 0. -/
def unmapped : Nat := 0x0201
/-- NONCANON (R79): Address bits 63:52 nonzero. -/
def noncanon : Nat := 0x0202
/-- NOT_RESIDENT (R79): Data-plane access to a sett home. -/
def notResident : Nat := 0x0203
/-- POISONED (R79): Home contents lost. -/
def poisoned : Nat := 0x0204
/-- TIER_DENIED (R79): Tier not permitted for the tenant class. -/
def tierDenied : Nat := 0x0205
/-- PIN_VIOLATION (R79): Move or drop of a pinned page. -/
def pinViolation : Nat := 0x0206
/-- FERRY_BUSY (R79): Page already claimed or write-protected. -/
def ferryBusy : Nat := 0x0207
/-- FERRY_VERIFY (R79): Destination failed verification. -/
def ferryVerify : Nat := 0x0208
/-- FERRY_DEST (R79): Destination write error. -/
def ferryDest : Nat := 0x0209
/-- SOURCE_READ (R79): Uncorrectable read of the source. -/
def sourceRead : Nat := 0x020A
/-- SETT_RATIONED (R79): Sett write refused by the ration. -/
def settRationed : Nat := 0x020B
/-- DEST_FULL (R79): No free page in the destination. -/
def destFull : Nat := 0x020C
/-- NOT_DROPPABLE (R79): Drop of a page with KV = 0. -/
def notDroppable : Nat := 0x020D
/-- TABLE_FAULT (R79): Uncorrectable error in a page-table page. -/
def tableFault : Nat := 0x020E
/-- FERRY_ABANDONED (R79): Move or drop abandoned by a write intent. -/
def ferryAbandoned : Nat := 0x020F
/-- BAD_HANDLE (R137): Slot out of range; slot FREE with a generation not older than the entry's; or generation newer than the entry's. -/
def badHandle : Nat := 0x0301
/-- STALE_HANDLE (R137): Generation older than the entry's, the entry FREE or not. -/
def staleHandle : Nat := 0x0302
/-- HAMPER_STATE (R137): Transition not permitted from the current state. -/
def hamperState : Nat := 0x0303
/-- HAMPER_BUSY (R137): Another state change in progress. -/
def hamperBusy : Nat := 0x0304
/-- NO_DECODE_SLOT (R137): No free decode slot in the module's range. -/
def noDecodeSlot : Nat := 0x0305
/-- LENGTH_LIMIT (R137): Step would exceed MAX_TOKENS. -/
def lengthLimit : Nat := 0x0306
/-- CUSTODY_LOST (R137): Record holds a newer custody number; this module's copy was discarded by R133. -/
def custodyLost : Nat := 0x0307
/-- CUSTODY_BUSY (R137): Custody compare-and-swap failed, or a give ended in re-adoption by R131. -/
def custodyBusy : Nat := 0x0308
/-- CUSTODY_CORRUPT (R137): Record and holder disagree in a way R133 cannot resolve. -/
def custodyCorrupt : Nat := 0x0309
/-- CUSTODY_EMPTY (R137): Recorded holder answers NOT_HELD or does not answer, or an empty claim has a null CAIRN. -/
def custodyEmpty : Nat := 0x030A
/-- CUSTODY_DIR (R137): Directory segment header invalid, a record probe found no room, or a handover of an untracked session while DIR_POOL is 0xFF (R125, R126). -/
def custodyDir : Nat := 0x030B
/-- SPAN_EMPTY (R182): Scatter to a span with RES = EMPTY. -/
def spanEmpty : Nat := 0x0401
/-- KV_RANGE (R182): Scatter positions outside the range of R167. -/
def kvRange : Nat := 0x0402
/-- SPAN_STATE (R182): Request or scatter not permitted by the span's RES or flags. -/
def spanState : Nat := 0x0403
/-- SPAN_SHARED (R182): RELEASE or close of a span with SHARERS ≠ 0. -/
def spanShared : Nat := 0x0404
/-- SHARE_MISMATCH (R182): Token IDs or model slot differ between sharer and owner. -/
def shareMismatch : Nat := 0x0405
/-- SHARE_LIMIT (R182): Owner's SHARERS already 255. -/
def shareLimit : Nat := 0x0406
/-- RECOMP_INCOMPLETE (R182): RECOMP_END with ROWS below 256 in some block. -/
def recompIncomplete : Nat := 0x0407
/-- RECLAIM_PENDING (R182): OPEN or RECOMP_BEGIN while the span's deferred item is pending. -/
def reclaimPending : Nat := 0x0408
/-- RECLAIM_FULL (R182): Deferred list full. -/
def reclaimFull : Nat := 0x0409
/-- BAD_GEOMETRY (R182): LAYER, HEAD or SRC_FMT out of range. -/
def badGeometry : Nat := 0x040A
/-- SPAN_RANGE (R182): FIRST_SPAN + COUNT exceeds SPANS. -/
def spanRange : Nat := 0x040B
/-- ATTN_ABSENT (R225): Exact-class item met an absent span. -/
def attnAbsent : Nat := 0x0501
/-- ATTN_RANGE (R225): POS + QN above SPEC_LEN, or FIRST_SPAN above POS / 256. -/
def attnRange : Nat := 0x0502
/-- ATTN_MODE (R225): Combination of CLASS, FOLD, STATS and DIR not permitted. -/
def attnMode : Nat := 0x0503
/-- ATTN_EMPTY (R225): A query row with no attended key. -/
def attnEmpty : Nat := 0x0504
/-- STATS_MISSING (R225): Statistics page not mapped for a row. -/
def statsMissing : Nat := 0x0505
/-- REDUCE_TIMEOUT (R225): Ring reduction stage not received in time. -/
def reduceTimeout : Nat := 0x0506
/-- TILE_FORMAT (R256): MMA format pair not in R238, or reserved format value. -/
def tileFormat : Nat := 0x0601
/-- TILE_FENCED (R256): Slot names a logical tile that is unmapped or mapped to a fenced tile. -/
def tileFenced : Nat := 0x0602
/-- TILE_SHORT (R256): Segment needs more logical tiles than the die has mapped. -/
def tileShort : Nat := 0x0603
/-- TILE_ECC (R256): Uncorrectable error in an operand store or accumulator set. -/
def tileEcc : Nat := 0x0604
/-- REMAP_DENIED (R256): TILE.REMAP refused by R255. -/
def remapDenied : Nat := 0x0605
/-- OVERLAP (R309): Occupancy check failed; cause in SEQ.FAULTn. -/
def overlap : Nat := 0x0701
/-- SLOT_DURATION (R309): DUR breaks the rule of its opcode. -/
def slotDuration : Nat := 0x0702
/-- LARDER_RANGE (R309): LA beyond the larder. -/
def larderRange : Nat := 0x0703
/-- OPERAND_RANGE (R309): Rows, bytes or address outside their space. -/
def operandRange : Nat := 0x0704
/-- SEG_HEADER (R309): Header check or resume check failed. -/
def segHeader : Nat := 0x0705
/-- BRANCH_RANGE (R309): Branch target not a bundle of the segment. -/
def branchRange : Nat := 0x0706
/-- STREAM_FETCH (R309): Uncorrectable error in fetched code. -/
def streamFetch : Nat := 0x0707
/-- PREEMPTED (R309): Segment saved at a preemption point; not a fault. -/
def preempted : Nat := 0x0708
/-- PREEMPT_DISCARD (R309): Preempted segment discarded under R181. -/
def preemptDiscard : Nat := 0x0709
/-- QUEUE_FULL (R335): Control-core push to a full queue. -/
def queueFull : Nat := 0x0801
/-- QUEUE_DISABLED (R335): Push to a queue whose DEPTH is 0. -/
def queueDisabled : Nat := 0x0802
/-- ITEM_ECC (R335): Item lost to an uncorrectable error. -/
def itemEcc : Nat := 0x0803
/-- REQ_OPEN (R380): Session already has an open request, or a park, give or close met one. -/
def reqOpen : Nat := 0x0901
/-- REQ_FULL (R380): No free request record. -/
def reqFull : Nat := 0x0902
/-- REQ_STATE (R380): Request identifier stale, CANCEL with no open request, or GENERATE with no input and no pending token. -/
def reqState : Nat := 0x0903
/-- REQ_DENIED (R380): Customer does not match the session or the adapter entry. -/
def reqDenied : Nat := 0x0904
/-- RATION_EXHAUSTED (R380): Ration empty under REFUSE. -/
def rationExhausted : Nat := 0x0905
/-- ADAPTER_MISSING (R380): Named adapter entry EMPTY. -/
def adapterMissing : Nat := 0x0906
/-- ADAPTER_VERSION (R380): Swap version not newer. -/
def adapterVersion : Nat := 0x0907
/-- ADAPTER_BUSY (R380): Swap while the previous version is still retiring. -/
def adapterBusy : Nat := 0x0908
/-- DRAFT_UNAVAILABLE (R380): No usable draft slot for SPEC_EN = 1. -/
def draftUnavailable : Nat := 0x0909
/-- GRAMMAR_DEAD (R380): Grammar mask excluded every token. -/
def grammarDead : Nat := 0x090A
/-- NO_CANDIDATE (R380): Every token left by the mask had a logit of −infinity or NaN (R362). -/
def noCandidate : Nat := 0x090B
/-- REQ_CANCELLED (R380): Request ended by CANCEL; not a fault (R352). -/
def reqCancelled : Nat := 0x090C
/-- ROLE_MISMATCH (R414): Segment role not served by the die under R393. -/
def roleMismatch : Nat := 0x0A01
/-- TILE_RESERVED (R414): Service segment names a tile outside the reserved engines. -/
def tileReserved : Nat := 0x0A02
/-- TEXT_INVALID (R459): Ill-formed UTF-8 under INVALID = REFUSE. -/
def textInvalid : Nat := 0x0B01
/-- TEXT_CONTROL (R459): Control-token text under ESCAPE = REFUSE. -/
def textControl : Nat := 0x0B02
/-- TEXT_OVERFLOW (R459): Output exceeds DST_CAP. -/
def textOverflow : Nat := 0x0B03
/-- TEXT_MODE (R459): Vocabulary slot invalid, BYTES without byte fallback, or vocabulary mismatch. -/
def textMode : Nat := 0x0B04
/-- TEXT_TOKEN (R459): Token at or above ENTRIES. -/
def textToken : Nat := 0x0B05
/-- GRAMMAR_MISSING (R459): Directory entry empty. -/
def grammarMissing : Nat := 0x0B06
/-- GRAMMAR_BUSY (R459): REFS limit, or load while REFS ≠ 0. -/
def grammarBusy : Nat := 0x0B07
/-- GRAMMAR_STATE (R459): Open while bound, or mask or advance while unbound. -/
def grammarState : Nat := 0x0B08
/-- GRAMMAR_BROKEN (R459): Token without a transition, or a state out of range. -/
def grammarBroken : Nat := 0x0B09
/-- GRAMMAR_DEPTH (R459): CALL with a full stack. -/
def grammarDepth : Nat := 0x0B0A
/-- GRAMMAR_IMAGE (R459): Automaton image header check failed. -/
def grammarImage : Nat := 0x0B0B
/-- SEU_INDEX (R498): Index slot with VALID = 0. -/
def seuIndex : Nat := 0x0C01
/-- SEU_TABLE (R498): Table with VALID = 0. -/
def seuTable : Nat := 0x0C02
/-- SEU_RANGE (R498): List, node or row number out of range. -/
def seuRange : Nat := 0x0C03
/-- SEU_VERSION (R498): Published version not newer. -/
def seuVersion : Nat := 0x0C04
/-- SEU_BUSY (R498): Table publish while the previous version is retiring. -/
def seuBusy : Nat := 0x0C05
/-- POOL_TIMEOUT (R498): Owner-pooling stage not received in time. -/
def poolTimeout : Nat := 0x0C06
/-- SNAP_BUSY (R527): A cut is already in progress on the module. -/
def snapBusy : Nat := 0x0D01
/-- SNAP_LATE (R527): Cut item arrived after the sub-batch for n + 1. -/
def snapLate : Nat := 0x0D02
/-- SNAP_ENGINE (R527): Snapshot engine unit fault. -/
def snapEngine : Nat := 0x0D03
/-- SNAP_POOL (R527): Pool segment write error. -/
def snapPool : Nat := 0x0D04
/-- SNAP_SPACE (R527): No free extent in the group. -/
def snapSpace : Nat := 0x0D05
/-- SNAP_TIMEOUT (R527): Shard-done or commit notice not received in time. -/
def snapTimeout : Nat := 0x0D06
/-- SNAP_COMMIT (R527): HEAD compare-and-swap failed. -/
def snapCommit : Nat := 0x0D07
/-- SNAP_REF (R527): Cairn reference, record or manifest invalid, or group entry invalid (R508). -/
def snapRef : Nat := 0x0D08
/-- SNAP_GEOMETRY (R527): Target geometry differs from the cairn's. -/
def snapGeometry : Nat := 0x0D09
/-- SNAP_LOST (R527): Non-KV page or header unrecoverable, or session not in every manifest. -/
def snapLost : Nat := 0x0D0A
/-- NET_FORMAT (R554): Malformed message, overlapping fragment or reserved value. -/
def netFormat : Nat := 0x0E01
/-- NET_DENIED (R554): Source address unknown, or customer outside its range. -/
def netDenied : Nat := 0x0E02
/-- NET_REASM (R554): Reassembly timed out or buffer full. -/
def netReasm : Nat := 0x0E03
/-- METER_RED (R554): Request coloured red. -/
def meterRed : Nat := 0x0E04
/-- XFER_PEER (R554): Peer unknown, or retries exhausted. -/
def xferPeer : Nat := 0x0E05
/-- XFER_CRC (R554): Transferred page failed its CRC-32C. -/
def xferCrc : Nat := 0x0E06
/-- XFER_GEOMETRY (R554): Geometry or module count differs, or TARGET names no slot reserved by R546. -/
def xferGeometry : Nat := 0x0E07
/-- TRAIL_MISWIRE (R591): INIT from the wrong module or port, or with a different MODULES. -/
def trailMiswire : Nat := 0x0F01
/-- TRAIL_DOWN (R591): Destination unreachable in both directions. -/
def trailDown : Nat := 0x0F02
/-- STALE_MAP (R591): Item epoch older than the current and drained map. -/
def staleMap : Nat := 0x0F03
/-- EPOCH_AHEAD (R591): Item epoch newer than the current map and not installed in time. -/
def epochAhead : Nat := 0x0F04
/-- MAP_INVALID (R591): Composition map refused by R584. -/
def mapInvalid : Nat := 0x0F05
/-- SEG_IN_USE (R591): Changed segment still in use. -/
def segInUse : Nat := 0x0F06
/-- MAP_RING_BUSY (R591): Ring change while a directory entry is in use. -/
def mapRingBusy : Nat := 0x0F07
/-- FAB_RANGE (R591): Segment invalid, offset out of range, or swap misaligned. -/
def fabRange : Nat := 0x0F08
/-- FAB_ATOMIC (R591): Compare-and-swap to a segment without ATOMIC. -/
def fabAtomic : Nat := 0x0F09
/-- FAB_ERROR (R591): Poison, completion error, timeout or no port up. -/
def fabError : Nat := 0x0F0A
/-- DRAM_TRAIN (R626): A channel failed training at start. -/
def dramTrain : Nat := 0x1001
/-- DRAM_UE (R626): Uncorrectable DRAM line, reported in logs; units see the codes of R611. -/
def dramUe : Nat := 0x1002
/-- SETT_UE (R626): Sett logical page unreadable. -/
def settUe : Nat := 0x1003
/-- SETT_WORN (R626): PROGRAM refused for lack of spare blocks. -/
def settWorn : Nat := 0x1004
/-- SETT_MOUNT (R626): Translation layer state unreadable at start. -/
def settMount : Nat := 0x1005
/-- CFG_DENIED (R654): Host function not permitted to load images. -/
def cfgDenied : Nat := 0x1101
/-- CFG_FORMAT (R654): Header, section table or record malformed. -/
def cfgFormat : Nat := 0x1102
/-- CFG_SIGNATURE (R654): Key hash or signature check failed. -/
def cfgSignature : Nat := 0x1103
/-- CFG_MISSING (R654): Required section or register record absent. -/
def cfgMissing : Nat := 0x1104
/-- CFG_AGREE (R654): A load check or an agreement rule failed. -/
def cfgAgree : Nat := 0x1105
/-- CFG_SECTION (R654): Section type not permitted in a delta. -/
def cfgSection : Nat := 0x1106
/-- CFG_BASE (R654): Base digest mismatch, no full image in effect, or a second full image. -/
def cfgBase : Nat := 0x1107
/-- CFG_BUSY (R654): Load or commit in progress, or group already pending. -/
def cfgBusy : Nat := 0x1108
/-- CFG_IN_USE (R654): Group change refused by R650. -/
def cfgInUse : Nat := 0x1109
/-- CFG_LOG_FULL (R654): Measurement log full; the image is not measured (R724). -/
def cfgLogFull : Nat := 0x110A
/-- INVALID_FIELD (R679): Reserved value, reserved bit set, field out of range or misaligned address. -/
def invalidField : Nat := 0x1201
/-- BAD_OPCODE (R679): Reserved opcode. -/
def badOpcode : Nat := 0x1202
/-- HOST_DMA (R679): DMA read of an argument buffer failed. -/
def hostDma : Nat := 0x1203
/-- HOST_DENIED (R679): Function not permitted for the command by the protection map. -/
def hostDenied : Nat := 0x1204
/-- NOT_READY (R679): Command other than NOP, WATCH, READ_REGS or LOAD_IMAGE before a full image is in effect. -/
def notReady : Nat := 0x1205
/-- DIR_FULL (R679): No FREE directory slot in the module's range. -/
def dirFull : Nat := 0x1206
/-- OUTPUT_RANGE (R679): READ_OUTPUT beyond committed output. -/
def outputRange : Nat := 0x1207
/-- UNIT_FAILED (R703): The unit that serves the item is failed or was reset. -/
def unitFailed : Nat := 0x1301
/-- STEP_ABORTED (R703): Step discarded three times, or aborted with no rerun possible. -/
def stepAborted : Nat := 0x1302
/-- MODULE_FAULT (R703): Module domain fault with no more specific code. -/
def moduleFault : Nat := 0x1303
/-- DISCARDED (R703): The command's effect was discarded; re-issue with REISSUE = 1. -/
def discarded : Nat := 0x1304
/-- RAIL_FAULT (R732): MODULE | Rail group out of window three times. -/
def railFault : Nat := 0x1401
/-- FUSE_MISMATCH (R732): MODULE | Fuse readers disagree. -/
def fuseMismatch : Nat := 0x1402
/-- BOOT_FW_INVALID (R732): MODULE | No bank copy verifies. -/
def bootFwInvalid : Nat := 0x1403
/-- ROLLBACK (R732): MODULE | Only SVN checks failed. -/
def rollback : Nat := 0x1404
/-- SELFTEST_FAILED (R732): MODULE | Larder, stream buffer or known-answer test failed. -/
def selftestFailed : Nat := 0x1405
/-- THERMAL_TRIP (R732): MODULE | Junction at or above 110 °C. -/
def thermalTrip : Nat := 0x1406
/-- FW_UPDATE_REFUSED (R732): ITEM | Update image failed verification. -/
def fwUpdateRefused : Nat := 0x1407
/-- FUSE_DENIED (R732): ITEM | FUSE_PROGRAM not permitted. -/
def fuseDenied : Nat := 0x1408
/-- BOOT_TIMEOUT (R732): ITEM | TRY bank did not reach stage 0x6 AWAIT_IMAGE within 10 s; recorded after the fallback boot. -/
def bootTimeout : Nat := 0x1409

end Sys2Proof.Code
end

