-- ==== Sys2Proof/Machine/Frame.lean ====
section
/-! DEFINITION. The fields of trail flits and frames (R568, R572 to R574). -/

namespace Sys2Proof

/-! ### Frames (R573, R574) -/

def FrameHead.dest (h : FrameHead) : Nat := bits h.w0 63 54
def FrameHead.src (h : FrameHead) : Nat := bits h.w0 53 44
def FrameHead.stream (h : FrameHead) : Nat := bits h.w0 43 36
def FrameHead.mtype (h : FrameHead) : Nat := bits h.w0 35 32
def FrameHead.bodyLen (h : FrameHead) : Nat := bits h.w0 16 0
def FrameHead.die (h : FrameHead) : Nat := bits h.w1 63 62
def FrameHead.la (h : FrameHead) : Nat := bits h.w1 61 40
def FrameHead.tally (h : FrameHead) : Nat := bits h.w1 39 28
def FrameHead.prio (h : FrameHead) : Nat := bits h.w1 11 9
def FrameHead.queue (h : FrameHead) : Nat := bits h.w1 8 0
def FrameHead.cls (h : FrameHead) : Nat := bits h.tag1 35 32

/-- The header words of an ITEM frame and of a LARDER_DATA frame, without their tag. -/
def itemHead (dest src stream prio queue : Nat) : FrameHead :=
  { w0 := fld 63 54 dest ||| fld 53 44 src ||| fld 43 36 stream ||| fld 16 0 48, w1 := fld 11 9 prio ||| fld 8 0 queue }
def dataHead (dest src stream n die la tally : Nat) : FrameHead :=
  { w0 := fld 63 54 dest ||| fld 53 44 src ||| fld 43 36 stream ||| fld 35 32 1 ||| fld 16 0 n
    w1 := fld 63 62 die ||| fld 61 40 la ||| fld 39 28 tally }

/-- Frames of one stream (R566): the queue or die is the frame's own. -/
def FrameHead.sameStream (a b : FrameHead) : Bool :=
  a.src = b.src && a.stream = b.stream && a.dest = b.dest && a.cls = b.cls && a.mtype = b.mtype &&
    (if a.mtype = 0 then a.queue = b.queue else a.die = b.die)

/-- The VC of a frame (R573), its size in bytes (R574) and the credits it needs. -/
def FrameHead.vc (h : FrameHead) : Nat := if h.mtype = 0 then 0 else if h.cls = 3 || h.cls = 8 then 1 else 2
def FrameHead.size (h : FrameHead) : Nat := (32 + h.bodyLen + 15) / 16 * 16
def FrameHead.credits (h : FrameHead) : Nat := ceilDiv h.size 64

/-- The frames of a LARDER_DATA transfer at consecutive larder addresses (R575). -/
def dataFrames (dest src stream n die la tally : Nat) : List FrameHead :=
  (List.range (ceilDiv n 65536)).map fun i => dataHead dest src stream (min 65536 (n - 65536 * i)) die (la + 512 * i) tally

/-! ### Flits (R568, R572) -/

def InitFlit.kind (f : InitFlit) : Nat := bits f.w0 63 48
def InitFlit.version (f : InitFlit) : Nat := bits f.w0 47 32
def InitFlit.epoch (f : InitFlit) : BitVec 16 := BitVec.ofNat 16 (bits f.w0 31 16)
def InitFlit.module (f : InitFlit) : Nat := bits f.w1 63 54
def InitFlit.port (f : InitFlit) : Nat := bits f.w1 53 51
def InitFlit.modules (f : InitFlit) : Nat := bits f.w1 47 44
def InitFlit.grants (f : InitFlit) : List Nat := [bits f.w2 63 52, bits f.w2 51 40, bits f.w2 39 28]

def Flit.ftype (f : Flit) : Nat := bits f.ctl 63 60
def Flit.fseq (f : Flit) : BitVec 12 := BitVec.ofNat 12 (bits f.ctl 57 46)
def Flit.ack (f : Flit) : BitVec 12 := BitVec.ofNat 12 (bits f.ctl 45 34)
def Flit.cvc (f : Flit) : Nat := bits f.ctl 33 32
def Flit.total (f : Flit) : BitVec 12 := BitVec.ofNat 12 (bits f.ctl 31 20)

end Sys2Proof
end

