-- ==== Sys2Proof/Machine/Regs.lean ====
section
/-! DEFINITION. The register file of R637: the number of every register, and for every register the fields of
its field map (R14): bit range, access code (R15) and reset value (R18).  A register is keyed by
block · 65536 + REG, the numbers of R637.  Bits outside the listed fields are reserved and read as zero (R12).
A Reset entry I stands at 0 until an image is in effect and F at the blank fuse value 0: see log entry 3. -/

namespace Sys2Proof

/-- Access codes (R15). -/
inductive Access where
  | ro | rw | w1c | wo | rws
  deriving DecidableEq, Repr

/-- Where a field's reset value comes from (R18). -/
inductive ResetSrc where
  | lit (v : Nat) | fuse | image
  deriving DecidableEq, Repr

/-- One row of a field map: bits hi:lo, access code and reset. -/
structure RegField where
  hi : Nat
  lo : Nat
  acc : Access
  reset : ResetSrc
  deriving DecidableEq, Repr

/-- A family of `count` consecutive registers with one field map. -/
structure RegRow where
  first : Nat
  count : Nat
  fields : List RegField
  deriving DecidableEq, Repr

namespace Reg

/-- TSM.ROOT (R90): 24:0 ROOT_PAGE. -/
def tsmRoot : Nat := 65536
/-- TSM.WATERMARK (R91): 47:32 AGE_TICK; 31:16 HIGH; 15:0 LOW. -/
def tsmWatermark : Nat := 65537
/-- TSM.POLICY (R92): 63:32 MODE; 15:0 POOL_FLOOR. -/
def tsmPolicy : Nat := 65538
/-- TSM.COST_WEIGHT (R93): 47:32 W_TILE; 31:16 W_FAB; 15:0 W_SETT. -/
def tsmCostWeight : Nat := 65539
/-- TSM.BW_EST (R94): 47:32 POOL_BW; 31:16 SETT_RD_BW; 15:0 SETT_WR_BW. -/
def tsmBwEst : Nat := 65540
/-- TSM.SETT_RATION (R95): 47:40 THRESH_HI; 39:32 THRESH_LO; 31:0 LIMIT. -/
def tsmSettRation : Nat := 65541
/-- TSM.SETT_USED (R96): 63:0 USED. -/
def tsmSettUsed : Nat := 65542
/-- TSM.RECOMP_COST0 to TSM.RECOMP_COST15 (R97): 31:0 TIME_NS. -/
def tsmRecompCost (i : Nat) : Nat := 65543 + i
/-- TSM.CNT0 to TSM.CNT15 (R98): 63:0 COUNT. -/
def tsmCnt (i : Nat) : Nat := 65559 + i
/-- TSM.SNAP (R528): 63:48 EPOCH; 47:32 COMMIT_TIMEOUT_MS; 9:9 ACTIVE; 8:0 QUEUE. -/
def tsmSnap : Nat := 65575
/-- TSM.SNAP_STAGE (R529): 51:36 PAGES; 35:0 PAGE. -/
def tsmSnapStage : Nat := 65576
/-- TSM.SNAP_PROGRESS (R530): 63:32 COPIED; 31:0 MARKED. -/
def tsmSnapProgress : Nat := 65577
/-- HMP.DIR_RANGE (R138): 53:32 DIR_LAST; 21:0 DIR_FIRST. -/
def hmpDirRange : Nat := 131072
/-- HMP.DECODE_RANGE (R139): 28:16 DEC_LAST; 12:0 DEC_FIRST. -/
def hmpDecodeRange : Nat := 131073
/-- HMP.CUSTODY (R140): 39:32 DIR_POOL; 31:16 CHECK_MS; 15:0 TIMEOUT_MS. -/
def hmpCustody : Nat := 131074
/-- HMP.REVIVE (R141): 39:8 DECAY_S; 7:0 INIT. -/
def hmpRevive : Nat := 131075
/-- HMP.CNT0 to HMP.CNT7 (R142): 63:0 COUNT. -/
def hmpCnt (i : Nat) : Nat := 131076 + i
/-- KVS.GEOMETRY0 to KVS.GEOMETRY15 (R144): 63:56 SCALE_MIN_EXP; 50:48 HEADROOM_EXP; 47:46 HEAD_DIM; 45:40 GROUP; 39:36 HEADS_LOCAL; 35:28 LAYERS; 15:0 PAGES_PER_SPAN. -/
def kvsGeometry (i : Nat) : Nat := 196608 + i
/-- KVS.PROJ0 to KVS.PROJ15 (R183): 63:0 ADDR. -/
def kvsProj (i : Nat) : Nat := 196624 + i
/-- KVS.CONTROL (R184): 8:0 SPAN_QUEUE. -/
def kvsControl : Nat := 196640
/-- KVS.RECLAIM (R185): 16:0 PENDING. -/
def kvsReclaim : Nat := 196641
/-- KVS.ATTN (R226): 63:48 PART_LOCAL; 47:32 REDUCE_TIMEOUT_US; 21:12 DEF_TOP_K; 11:4 DEF_NEWEST. -/
def kvsAttn : Nat := 196642
/-- KVS.CNT0 to KVS.CNT15 (R186): 63:0 COUNT. -/
def kvsCnt (i : Nat) : Nat := 196643 + i
/-- TILE.MAP0 to TILE.MAP15 (R257): 61:56 PHYS_7; 53:48 PHYS_6; 45:40 PHYS_5; 37:32 PHYS_4; 29:24 PHYS_3; 21:16 PHYS_2; 13:8 PHYS_1; 5:0 PHYS_0. -/
def tileMap (i : Nat) : Nat := 262144 + i
/-- TILE.REMAP (R258): 16:16 GO; 15:15 FENCE; 14:13 DIE; 10:6 LOGICAL; 5:0 PHYS. -/
def tileRemap : Nat := 262160
/-- TILE.STATUS0 to TILE.STATUS3 (R259): 39:39 INT_SAT; 38:38 NO_SPARE; 37:36 SPARES; 33:0 FENCED. -/
def tileStatus (i : Nat) : Nat := 262161 + i
/-- TILE.FENCE (R260): 7:0 THRESH. -/
def tileFence : Nat := 262165
/-- TILE.CNT0 to TILE.CNT7 (R261): 63:0 COUNT. -/
def tileCnt (i : Nat) : Nat := 262166 + i
/-- SEQ.CONTROL0 to SEQ.CONTROL3 (R311): 8:0 SEGQ. -/
def seqControl (i : Nat) : Nat := 327680 + i
/-- SEQ.STATUS0 to SEQ.STATUS3 (R312): 63:32 START_NO; 7:4 DVFS; 3:3 SAVED; 2:0 STATE. -/
def seqStatus (i : Nat) : Nat := 327684 + i
/-- SEQ.PREEMPT0 to SEQ.PREEMPT3 (R313): 0:0 REQ. -/
def seqPreempt (i : Nat) : Nat := 327688 + i
/-- SEQ.FAULT0 to SEQ.FAULT3 (R314): 63:48 CODE; 47:44 CAUSE; 43:38 SLOT; 37:10 OFFSET. -/
def seqFault (i : Nat) : Nat := 327692 + i
/-- SEQ.CNT0 to SEQ.CNT7 (R315): 63:0 COUNT. -/
def seqCnt (i : Nat) : Nat := 327696 + i
/-- DRAM.SCRUB (R627): 23:16 RETIRE_CE; 7:0 PERIOD_H. -/
def dramScrub : Nat := 393216
/-- DRAM.STATUS (R628): 35:23 RETIRED; 15:8 CHANNELS; 2:2 HOT; 1:1 SELF_REFRESH; 0:0 TRAINED. -/
def dramStatus : Nat := 393217
/-- DRAM.ERRLOG (R629): 63:63 VALID; 62:60 STEP; 59:53 CHANNEL; 52:50 CODEWORD; 25:0 LINE. -/
def dramErrlog : Nat := 393218
/-- DRAM.CELOG (R629): 63:63 VALID; 62:60 STEP; 59:53 CHANNEL; 52:50 CODEWORD; 25:0 LINE. -/
def dramCelog : Nat := 393219
/-- DRAM.CNT0 to DRAM.CNT7 (R631): 63:0 COUNT. -/
def dramCnt (i : Nat) : Nat := 393220 + i
/-- SETT.STATUS (R630): 63:63 MOUNTED; 62:62 REBUILDING; 61:61 DEGRADED; 60:60 WORN; 47:32 CODE; 23:16 SPARE_PCT; 9:0 FAILED_DIES. -/
def settStatus : Nat := 458752
/-- SETT.LIFE (R630): 15:0 LIFE_USED. -/
def settLife : Nat := 458753
/-- SETT.CNT0 to SETT.CNT7 (R631): 63:0 COUNT. -/
def settCnt (i : Nat) : Nat := 458754 + i
/-- TRL.CONTROL (R592): 63:48 REPLAY_US; 47:40 RETRY_LIMIT; 39:24 RETRAIN_MS; 23:16 ENABLE; 8:0 ERR_QUEUE. -/
def trlControl : Nat := 524288
/-- TRL.PORT0 to TRL.PORT7 (R593): 63:62 STATE; 61:61 MISWIRE; 60:51 PEER_MODULE; 50:48 PEER_PORT. -/
def trlPort (i : Nat) : Nat := 524289 + i
/-- TRL.CREDIT (R594): 35:24 GRANT2; 23:12 GRANT1; 11:0 GRANT0. -/
def trlCredit : Nat := 524297
/-- TRL.CNT0 to TRL.CNT7 (R600): 63:0 COUNT. -/
def trlCnt (i : Nat) : Nat := 524298 + i
/-- FAB.CONTROL (R595): 63:48 TIMEOUT_US; 47:42 DRAIN_MS; 35:0 MAP_PAGE. -/
def fabControl : Nat := 589824
/-- FAB.COMP (R596): 63:48 EPOCH; 47:32 OLD_EPOCH; 31:31 DRAINING; 11:9 RING_POS; 8:0 HELD. -/
def fabComp : Nat := 589825
/-- FAB.PORT0 to FAB.PORT3 (R597): 63:63 LINK_UP; 62:61 WIDTH; 60:60 RATE; 7:0 DEPTH. -/
def fabPort (i : Nat) : Nat := 589826 + i
/-- FAB.PREFETCH (R598): 63:63 MODE; 39:32 FIXED_DEPTH; 31:24 MIN_DEPTH; 23:16 MAX_DEPTH; 15:8 MARGIN. -/
def fabPrefetch : Nat := 589830
/-- FAB.CNT0 to FAB.CNT7 (R600): 63:0 COUNT. -/
def fabCnt (i : Nat) : Nat := 589831 + i
/-- NET.PORT0 to NET.PORT1 (R555): 63:63 LINK_UP; 62:62 FEC_DEGRADED; 47:0 MAC. -/
def netPort (i : Nat) : Nat := 655360 + i
/-- NET.CONTROL (R556): 63:48 MSG_PORT; 47:32 REASM_MS; 31:24 REASM_MIB; 23:16 EGRESS_MIB; 15:13 PFC_PRIO; 12:12 PFC_EN; 8:0 QUEUE. -/
def netControl : Nat := 655362
/-- NET.ROCE (R557): 63:48 ACK_TIMEOUT_US; 35:0 PEER_PAGE. -/
def netRoce : Nat := 655363
/-- NET.SRC (R558): 51:36 ENTRIES; 35:0 PAGE. -/
def netSrc : Nat := 655364
/-- NET.DSCP0 to NET.DSCP1 (R559): 32 fields. -/
def netDscp (i : Nat) : Nat := 655365 + i
/-- NET.CNT0 to NET.CNT7 (R561): 63:0 COUNT. -/
def netCnt (i : Nat) : Nat := 655367 + i
/-- MTR.TABLE (R560): 35:0 PAGE. -/
def mtrTable : Nat := 720896
/-- MTR.CNT0 to MTR.CNT7 (R561): 63:0 COUNT. -/
def mtrCnt (i : Nat) : Nat := 720897 + i
/-- TXT.VOCAB0 to TXT.VOCAB15 (R460): 63:63 VALID; 35:0 PAGE. -/
def txtVocab (i : Nat) : Nat := 786432 + i
/-- TXT.STOP (R461): 48:36 SETS; 35:0 PAGE. -/
def txtStop : Nat := 786448
/-- TXT.GRAMMAR (R462): 48:36 COUNT; 35:0 PAGE. -/
def txtGrammar : Nat := 786449
/-- TXT.CONTROL (R463): 9:9 FORCE_REFUSE; 8:0 QUEUE. -/
def txtControl : Nat := 786450
/-- TXT.CNT0 to TXT.CNT7 (R464): 63:0 COUNT. -/
def txtCnt (i : Nat) : Nat := 786451 + i
/-- SEU.CONTROL (R499): 63:56 WIDEN_LIMIT; 55:40 POOL_TIMEOUT_US; 39:30 KV_EXTRA; 8:0 QUEUE. -/
def seuControl : Nat := 851968
/-- SEU.INDEX_DIR (R500): 35:0 PAGE. -/
def seuIndexDir : Nat := 851969
/-- SEU.TABLE_DIR (R500): 44:36 TABLES; 35:0 PAGE. -/
def seuTableDir : Nat := 851970
/-- SEU.SCRATCH (R500): 35:0 PAGE. -/
def seuScratch : Nat := 851971
/-- SEU.HOT (R501): 63:48 WINDOW_MS; 47:32 PROMOTE; 31:16 PREFETCH_ROWS. -/
def seuHot : Nat := 851972
/-- SEU.CNT0 to SEU.CNT11 (R502): 63:0 COUNT. -/
def seuCnt (i : Nat) : Nat := 851973 + i
/-- CTL.REQ (R381): 35:0 TABLE_PAGE. -/
def ctlReq : Nat := 917504
/-- CTL.REQ_COUNT (R381): 16:0 RECORDS. -/
def ctlReqCount : Nat := 917505
/-- CTL.STEP (R382): 63:48 LIST_TIMEOUT_US; 47:32 MAX_TOKENS; 31:19 PREFILL_CHUNK; 18:0 RING_MIN. -/
def ctlStep : Nat := 917506
/-- CTL.SPEC (R383): 4:4 DRAFT_EN; 3:0 DRAFT_SLOT. -/
def ctlSpec : Nat := 917507
/-- CTL.STEER0 to CTL.STEER15 (R384): 63:57 BASIS; 56:38 SETS; 35:0 DIR_PAGE. -/
def ctlSteer (i : Nat) : Nat := 917508 + i
/-- CTL.EXPERT0 to CTL.EXPERT15 (R385): 36:36 ENABLED; 35:0 TABLE_PAGE. -/
def ctlExpert (i : Nat) : Nat := 917524 + i
/-- CTL.RATION (R386): 47:32 PERIOD_MS; 31:16 OUT_W; 15:0 IN_W. -/
def ctlRation : Nat := 917540
/-- CTL.RATION_TABLE (R387): 35:0 PAGE. -/
def ctlRationTable : Nat := 917541
/-- CTL.CNT0 to CTL.CNT15 (R388): 63:0 COUNT. -/
def ctlCnt (i : Nat) : Nat := 917542 + i
/-- CTL.SCHED (R415): 63:62 ACCT_MODE; 47:32 PREEMPT_W_US; 31:16 WINDOW_MS; 7:4 QUEUE_AHEAD. -/
def ctlSched : Nat := 917558
/-- CTL.DIE_ROLE (R416): 19:16 SERVICE; 15:0 ROLE. -/
def ctlDieRole : Nat := 917559
/-- CTL.RESERVED0 to CTL.RESERVED3 (R417): 31:0 MASK. -/
def ctlReserved (i : Nat) : Nat := 917560 + i
/-- CTL.JOB_TABLE (R418): 42:36 JOBS; 35:0 PAGE. -/
def ctlJobTable : Nat := 917564
/-- CTL.DIE_JOB0 to CTL.DIE_JOB3 (R419): 31:0 RESIDENT. -/
def ctlDieJob (i : Nat) : Nat := 917565 + i
/-- CTL.DEADLINE (R420): 63:48 MARGIN_US; 47:44 FALLBACK_DEPTH; 43:43 PAST. -/
def ctlDeadline : Nat := 917569
/-- CTL.STEP_EST0 to CTL.STEP_EST15 (R421): 31:0 STEP_NS. -/
def ctlStepEst (i : Nat) : Nat := 917570 + i
/-- CTL.CFG (R655): 63:63 LOADED; 48:32 DIRTY; 16:0 PENDING. -/
def ctlCfg : Nat := 917586
/-- TLY.OP0 to TLY.OP3 (R336): 63:63 GO; 62:60 OP; 55:44 TALLY; 31:0 VALUE. -/
def tlyOp (i : Nat) : Nat := 983040 + i
/-- TLY.RESULT0 to TLY.RESULT3 (R337): 63:63 DONE; 62:62 WAITING; 47:32 STATUS; 31:0 VALUE. -/
def tlyResult (i : Nat) : Nat := 983044 + i
/-- TLY.POOL0 to TLY.POOL3 (R338): 63:63 CLEAR_PEAK; 28:16 PEAK; 12:0 USED. -/
def tlyPool (i : Nat) : Nat := 983048 + i
/-- TLY.CNT0 to TLY.CNT7 (R339): 63:0 COUNT. -/
def tlyCnt (i : Nat) : Nat := 983052 + i
/-- HQ.QCFG0 to HQ.QCFG511 (R340): 57:42 BASE; 41:29 DEPTH; 28:25 READER; 12:12 NOTIFY_EN; 11:0 NOTIFY_TALLY. -/
def hqQcfg (i : Nat) : Nat := 1048576 + i
/-- HQ.QSTAT0 to HQ.QSTAT511 (R342): 47:47 UNDERRUN; 46:46 ECC_LOST; 45:45 EMPTY; 44:44 FULL; 39:32 LEVELS; 12:0 COUNT. -/
def hqQstat (i : Nat) : Nat := 1049088 + i
/-- HQ.PUSH0 to HQ.PUSH3 (R343): 63:63 GO; 62:62 BUSY; 47:32 STATUS; 11:9 PRIO; 8:0 QUEUE. -/
def hqPush (i : Nat) : Nat := 1049600 + i
/-- HQ.PBUF0 to HQ.PBUF31 (R343): 63:0 WORD. -/
def hqPbuf (i : Nat) : Nat := 1049604 + i
/-- HQ.POP0 to HQ.POP3 (R344): 63:63 GO; 62:62 BUSY; 61:61 EMPTY; 11:9 PRIO; 8:0 QUEUE. -/
def hqPop (i : Nat) : Nat := 1049636 + i
/-- HQ.LATCH0 to HQ.LATCH31 (R344): 63:0 WORD. -/
def hqLatch (i : Nat) : Nat := 1049640 + i
/-- HQ.FLUSH (R345): 63:63 GO; 62:62 BUSY; 8:0 QUEUE. -/
def hqFlush : Nat := 1049672
/-- HQ.CNT0 to HQ.CNT7 (R346): 63:0 COUNT. -/
def hqCnt (i : Nat) : Nat := 1049673 + i
/-- PLT.CHARGE (R599): 3:0 HEAD. -/
def pltCharge : Nat := 1114112
/-- PLT.BOOT (R733): 63:60 STAGE; 59:57 RESET_CAUSE; 56:56 BANK; 55:55 TRY_FAILED; 54:48 SVN_FUSED; 47:32 FAIL_CODE; 31:0 FW_VERSION. -/
def pltBoot : Nat := 1114113
/-- PLT.FUSE0 to PLT.FUSE63 (R734): 63:0 BITS. -/
def pltFuse (i : Nat) : Nat := 1114114 + i
/-- PLT.MEAS0 to PLT.MEAS47 (R734): 63:0 WORD. -/
def pltMeas (i : Nat) : Nat := 1114178 + i
/-- PLT.SENSOR0 to PLT.SENSOR23 (R734): 31:0 VALUE. -/
def pltSensor (i : Nat) : Nat := 1114226 + i
/-- PLT.CHARGE_REC0 to PLT.CHARGE_REC127 (R734): 63:0 WORD. -/
def pltChargeRec (i : Nat) : Nat := 1114250 + i
/-- PLT.GOV (R735): 51:44 THROTTLE_C; 43:32 HYST_W; 31:16 UP_MS; 15:0 CAP_W. -/
def pltGov : Nat := 1114378
/-- PLT.GOV_STATUS (R736): 21:21 STRETCH; 20:20 CAPPED; 19:16 THERMAL; 15:0 TARGET. -/
def pltGovStatus : Nat := 1114379
/-- PLT.CNT0 to PLT.CNT7 (R737): 63:0 COUNT. -/
def pltCnt (i : Nat) : Nat := 1114380 + i
/-- PLT.PWR (R762): 63:61 STATE; 32:32 PARK_EN; 31:16 PARK_IDLE_MS; 15:0 PARKS. -/
def pltPwr : Nat := 1114388
/-- FLT.LOG (R704): 63:32 WRITTEN. -/
def fltLog : Nat := 1179648
/-- FLT.UNITS (R705): 15:8 FENCED; 7:0 FAILED. -/
def fltUnits : Nat := 1179649
/-- FLT.EVENT0 to FLT.EVENT1023 (R706): 63:0 WORD. -/
def fltEvent (i : Nat) : Nat := 1179650 + i
/-- FLT.CNT0 to FLT.CNT7 (R707): 63:0 COUNT. -/
def fltCnt (i : Nat) : Nat := 1180674 + i

end Reg

/-- Field maps of block 0x01, TSM. -/
def regRowsTsm : List RegRow :=
  [ ⟨65536, 1, [⟨24, 0, .ro, .image⟩]⟩,
    ⟨65537, 1, [⟨47, 32, .rws, .image⟩, ⟨31, 16, .rws, .image⟩, ⟨15, 0, .rws, .image⟩]⟩,
    ⟨65538, 1, [⟨63, 32, .rws, .image⟩, ⟨15, 0, .rws, .image⟩]⟩,
    ⟨65539, 1, [⟨47, 32, .rws, .lit 256⟩, ⟨31, 16, .rws, .lit 256⟩, ⟨15, 0, .rws, .lit 1024⟩]⟩,
    ⟨65540, 1, [⟨47, 32, .ro, .lit 4800⟩, ⟨31, 16, .ro, .lit 560⟩, ⟨15, 0, .ro, .lit 240⟩]⟩,
    ⟨65541, 1, [⟨47, 40, .rws, .lit 240⟩, ⟨39, 32, .rws, .lit 192⟩, ⟨31, 0, .rws, .lit 86400⟩]⟩,
    ⟨65542, 1, [⟨63, 0, .ro, .lit 0⟩]⟩,
    ⟨65543, 16, [⟨31, 0, .ro, .image⟩]⟩,
    ⟨65559, 16, [⟨63, 0, .ro, .lit 0⟩]⟩,
    ⟨65575, 1, [⟨63, 48, .ro, .lit 0⟩, ⟨47, 32, .rws, .lit 2000⟩, ⟨9, 9, .ro, .lit 0⟩, ⟨8, 0, .ro, .image⟩]⟩,
    ⟨65576, 1, [⟨51, 36, .ro, .image⟩, ⟨35, 0, .ro, .image⟩]⟩,
    ⟨65577, 1, [⟨63, 32, .ro, .lit 0⟩, ⟨31, 0, .ro, .lit 0⟩]⟩ ]

/-- Field maps of block 0x02, HMP. -/
def regRowsHmp : List RegRow :=
  [ ⟨131072, 1, [⟨53, 32, .ro, .image⟩, ⟨21, 0, .ro, .image⟩]⟩,
    ⟨131073, 1, [⟨28, 16, .ro, .image⟩, ⟨12, 0, .ro, .image⟩]⟩,
    ⟨131074, 1, [⟨39, 32, .rws, .image⟩, ⟨31, 16, .rws, .lit 1000⟩, ⟨15, 0, .rws, .lit 250⟩]⟩,
    ⟨131075, 1, [⟨39, 8, .rws, .lit 3600⟩, ⟨7, 0, .rws, .lit 64⟩]⟩,
    ⟨131076, 8, [⟨63, 0, .ro, .lit 0⟩]⟩ ]

/-- Field maps of block 0x03, KVS. -/
def regRowsKvs : List RegRow :=
  [ ⟨196608, 16, [⟨63, 56, .ro, .image⟩, ⟨50, 48, .ro, .image⟩, ⟨47, 46, .ro, .image⟩, ⟨45, 40, .ro, .image⟩,
      ⟨39, 36, .ro, .image⟩, ⟨35, 28, .ro, .image⟩, ⟨15, 0, .ro, .image⟩]⟩,
    ⟨196624, 16, [⟨63, 0, .ro, .image⟩]⟩,
    ⟨196640, 1, [⟨8, 0, .ro, .image⟩]⟩,
    ⟨196641, 1, [⟨16, 0, .ro, .lit 0⟩]⟩,
    ⟨196642, 1, [⟨63, 48, .ro, .image⟩, ⟨47, 32, .rws, .lit 500⟩, ⟨21, 12, .rws, .lit 64⟩,
      ⟨11, 4, .rws, .lit 16⟩]⟩,
    ⟨196643, 16, [⟨63, 0, .ro, .lit 0⟩]⟩ ]

/-- Field maps of block 0x04, TILE. -/
def regRowsTile : List RegRow :=
  [ ⟨262144, 16, [⟨61, 56, .ro, .fuse⟩, ⟨53, 48, .ro, .fuse⟩, ⟨45, 40, .ro, .fuse⟩, ⟨37, 32, .ro, .fuse⟩,
      ⟨29, 24, .ro, .fuse⟩, ⟨21, 16, .ro, .fuse⟩, ⟨13, 8, .ro, .fuse⟩, ⟨5, 0, .ro, .fuse⟩]⟩,
    ⟨262160, 1, [⟨16, 16, .wo, .lit 0⟩, ⟨15, 15, .wo, .lit 0⟩, ⟨14, 13, .wo, .lit 0⟩, ⟨10, 6, .wo, .lit 0⟩,
      ⟨5, 0, .wo, .lit 0⟩]⟩,
    ⟨262161, 4, [⟨39, 39, .w1c, .lit 0⟩, ⟨38, 38, .ro, .lit 0⟩, ⟨37, 36, .ro, .fuse⟩, ⟨33, 0, .ro, .lit 0⟩]⟩,
    ⟨262165, 1, [⟨7, 0, .rws, .lit 4⟩]⟩,
    ⟨262166, 8, [⟨63, 0, .ro, .lit 0⟩]⟩ ]

/-- Field maps of block 0x05, SEQ. -/
def regRowsSeq : List RegRow :=
  [ ⟨327680, 4, [⟨8, 0, .ro, .image⟩]⟩,
    ⟨327684, 4, [⟨63, 32, .ro, .lit 0⟩, ⟨7, 4, .ro, .lit 3⟩, ⟨3, 3, .ro, .lit 0⟩, ⟨2, 0, .ro, .lit 0⟩]⟩,
    ⟨327688, 4, [⟨0, 0, .rw, .lit 0⟩]⟩,
    ⟨327692, 4, [⟨63, 48, .ro, .lit 0⟩, ⟨47, 44, .ro, .lit 0⟩, ⟨43, 38, .ro, .lit 0⟩, ⟨37, 10, .ro, .lit 0⟩]⟩,
    ⟨327696, 8, [⟨63, 0, .ro, .lit 0⟩]⟩ ]

/-- Field maps of block 0x06, DRAM. -/
def regRowsDram : List RegRow :=
  [ ⟨393216, 1, [⟨23, 16, .rws, .lit 16⟩, ⟨7, 0, .rws, .lit 24⟩]⟩,
    ⟨393217, 1, [⟨35, 23, .ro, .lit 0⟩, ⟨15, 8, .ro, .lit 0⟩, ⟨2, 2, .ro, .lit 0⟩, ⟨1, 1, .ro, .lit 0⟩,
      ⟨0, 0, .ro, .lit 0⟩]⟩,
    ⟨393218, 1, [⟨63, 63, .w1c, .lit 0⟩, ⟨62, 60, .ro, .lit 0⟩, ⟨59, 53, .ro, .lit 0⟩, ⟨52, 50, .ro, .lit 0⟩,
      ⟨25, 0, .ro, .lit 0⟩]⟩,
    ⟨393219, 1, [⟨63, 63, .w1c, .lit 0⟩, ⟨62, 60, .ro, .lit 0⟩, ⟨59, 53, .ro, .lit 0⟩, ⟨52, 50, .ro, .lit 0⟩,
      ⟨25, 0, .ro, .lit 0⟩]⟩,
    ⟨393220, 8, [⟨63, 0, .ro, .lit 0⟩]⟩ ]

/-- Field maps of block 0x07, SETT. -/
def regRowsSett : List RegRow :=
  [ ⟨458752, 1, [⟨63, 63, .ro, .lit 0⟩, ⟨62, 62, .ro, .lit 0⟩, ⟨61, 61, .w1c, .lit 0⟩, ⟨60, 60, .ro, .lit 0⟩,
      ⟨47, 32, .ro, .lit 0⟩, ⟨23, 16, .ro, .lit 0⟩, ⟨9, 0, .ro, .lit 0⟩]⟩,
    ⟨458753, 1, [⟨15, 0, .ro, .lit 0⟩]⟩,
    ⟨458754, 8, [⟨63, 0, .ro, .lit 0⟩]⟩ ]

/-- Field maps of block 0x08, TRL. -/
def regRowsTrl : List RegRow :=
  [ ⟨524288, 1, [⟨63, 48, .rws, .lit 5⟩, ⟨47, 40, .rws, .lit 8⟩, ⟨39, 24, .rws, .lit 1⟩, ⟨23, 16, .rws, .image⟩,
      ⟨8, 0, .ro, .image⟩]⟩,
    ⟨524289, 8, [⟨63, 62, .ro, .lit 0⟩, ⟨61, 61, .w1c, .lit 0⟩, ⟨60, 51, .ro, .lit 0⟩, ⟨50, 48, .ro, .lit 0⟩]⟩,
    ⟨524297, 1, [⟨35, 24, .ro, .image⟩, ⟨23, 12, .ro, .image⟩, ⟨11, 0, .ro, .image⟩]⟩,
    ⟨524298, 8, [⟨63, 0, .ro, .lit 0⟩]⟩ ]

/-- Field maps of block 0x09, FAB. -/
def regRowsFab : List RegRow :=
  [ ⟨589824, 1, [⟨63, 48, .rws, .lit 100⟩, ⟨47, 42, .rws, .lit 50⟩, ⟨35, 0, .ro, .image⟩]⟩,
    ⟨589825, 1, [⟨63, 48, .ro, .image⟩, ⟨47, 32, .ro, .lit 0⟩, ⟨31, 31, .ro, .lit 0⟩, ⟨11, 9, .ro, .image⟩,
      ⟨8, 0, .ro, .lit 0⟩]⟩,
    ⟨589826, 4, [⟨63, 63, .ro, .lit 0⟩, ⟨62, 61, .ro, .lit 0⟩, ⟨60, 60, .ro, .lit 0⟩, ⟨7, 0, .ro, .lit 8⟩]⟩,
    ⟨589830, 1, [⟨63, 63, .rws, .lit 0⟩, ⟨39, 32, .rws, .lit 8⟩, ⟨31, 24, .rws, .lit 4⟩,
      ⟨23, 16, .rws, .lit 64⟩, ⟨15, 8, .rws, .lit 2⟩]⟩,
    ⟨589831, 8, [⟨63, 0, .ro, .lit 0⟩]⟩ ]

/-- Field maps of block 0x0a, NET. -/
def regRowsNet : List RegRow :=
  [ ⟨655360, 2, [⟨63, 63, .ro, .lit 0⟩, ⟨62, 62, .w1c, .lit 0⟩, ⟨47, 0, .ro, .fuse⟩]⟩,
    ⟨655362, 1, [⟨63, 48, .rws, .image⟩, ⟨47, 32, .rws, .lit 100⟩, ⟨31, 24, .ro, .image⟩, ⟨23, 16, .ro, .image⟩,
      ⟨15, 13, .rws, .image⟩, ⟨12, 12, .rws, .image⟩, ⟨8, 0, .ro, .image⟩]⟩,
    ⟨655363, 1, [⟨63, 48, .rws, .lit 100⟩, ⟨35, 0, .ro, .image⟩]⟩,
    ⟨655364, 1, [⟨51, 36, .ro, .image⟩, ⟨35, 0, .ro, .image⟩]⟩,
    ⟨655365, 2, [⟨63, 62, .rws, .image⟩, ⟨61, 60, .rws, .image⟩, ⟨59, 58, .rws, .image⟩, ⟨57, 56, .rws, .image⟩,
      ⟨55, 54, .rws, .image⟩, ⟨53, 52, .rws, .image⟩, ⟨51, 50, .rws, .image⟩, ⟨49, 48, .rws, .image⟩,
      ⟨47, 46, .rws, .image⟩, ⟨45, 44, .rws, .image⟩, ⟨43, 42, .rws, .image⟩, ⟨41, 40, .rws, .image⟩,
      ⟨39, 38, .rws, .image⟩, ⟨37, 36, .rws, .image⟩, ⟨35, 34, .rws, .image⟩, ⟨33, 32, .rws, .image⟩,
      ⟨31, 30, .rws, .image⟩, ⟨29, 28, .rws, .image⟩, ⟨27, 26, .rws, .image⟩, ⟨25, 24, .rws, .image⟩,
      ⟨23, 22, .rws, .image⟩, ⟨21, 20, .rws, .image⟩, ⟨19, 18, .rws, .image⟩, ⟨17, 16, .rws, .image⟩,
      ⟨15, 14, .rws, .image⟩, ⟨13, 12, .rws, .image⟩, ⟨11, 10, .rws, .image⟩, ⟨9, 8, .rws, .image⟩,
      ⟨7, 6, .rws, .image⟩, ⟨5, 4, .rws, .image⟩, ⟨3, 2, .rws, .image⟩, ⟨1, 0, .rws, .image⟩]⟩,
    ⟨655367, 8, [⟨63, 0, .ro, .lit 0⟩]⟩ ]

/-- Field maps of block 0x0b, MTR. -/
def regRowsMtr : List RegRow :=
  [ ⟨720896, 1, [⟨35, 0, .ro, .image⟩]⟩,
    ⟨720897, 8, [⟨63, 0, .ro, .lit 0⟩]⟩ ]

/-- Field maps of block 0x0c, TXT. -/
def regRowsTxt : List RegRow :=
  [ ⟨786432, 16, [⟨63, 63, .ro, .image⟩, ⟨35, 0, .ro, .image⟩]⟩,
    ⟨786448, 1, [⟨48, 36, .ro, .image⟩, ⟨35, 0, .ro, .image⟩]⟩,
    ⟨786449, 1, [⟨48, 36, .ro, .image⟩, ⟨35, 0, .ro, .image⟩]⟩,
    ⟨786450, 1, [⟨9, 9, .rws, .image⟩, ⟨8, 0, .ro, .image⟩]⟩,
    ⟨786451, 8, [⟨63, 0, .ro, .lit 0⟩]⟩ ]

/-- Field maps of block 0x0d, SEU. -/
def regRowsSeu : List RegRow :=
  [ ⟨851968, 1, [⟨63, 56, .rws, .lit 4⟩, ⟨55, 40, .rws, .lit 500⟩, ⟨39, 30, .rws, .lit 64⟩, ⟨8, 0, .ro, .image⟩]⟩,
    ⟨851969, 1, [⟨35, 0, .ro, .image⟩]⟩,
    ⟨851970, 1, [⟨44, 36, .ro, .image⟩, ⟨35, 0, .ro, .image⟩]⟩,
    ⟨851971, 1, [⟨35, 0, .ro, .image⟩]⟩,
    ⟨851972, 1, [⟨63, 48, .rws, .lit 100⟩, ⟨47, 32, .rws, .lit 8⟩, ⟨31, 16, .rws, .lit 4096⟩]⟩,
    ⟨851973, 12, [⟨63, 0, .ro, .lit 0⟩]⟩ ]

/-- Field maps of block 0x0e, CTL. -/
def regRowsCtl : List RegRow :=
  [ ⟨917504, 1, [⟨35, 0, .ro, .image⟩]⟩,
    ⟨917505, 1, [⟨16, 0, .ro, .image⟩]⟩,
    ⟨917506, 1, [⟨63, 48, .rws, .lit 1000⟩, ⟨47, 32, .rws, .image⟩, ⟨31, 19, .rws, .image⟩,
      ⟨18, 0, .rws, .image⟩]⟩,
    ⟨917507, 1, [⟨4, 4, .rws, .image⟩, ⟨3, 0, .rws, .image⟩]⟩,
    ⟨917508, 16, [⟨63, 57, .ro, .image⟩, ⟨56, 38, .ro, .image⟩, ⟨35, 0, .ro, .image⟩]⟩,
    ⟨917524, 16, [⟨36, 36, .ro, .image⟩, ⟨35, 0, .ro, .image⟩]⟩,
    ⟨917540, 1, [⟨47, 32, .rws, .lit 1000⟩, ⟨31, 16, .rws, .lit 256⟩, ⟨15, 0, .rws, .lit 256⟩]⟩,
    ⟨917541, 1, [⟨35, 0, .ro, .image⟩]⟩,
    ⟨917542, 16, [⟨63, 0, .ro, .lit 0⟩]⟩,
    ⟨917558, 1, [⟨63, 62, .rws, .image⟩, ⟨47, 32, .rws, .image⟩, ⟨31, 16, .rws, .lit 1000⟩,
      ⟨7, 4, .rws, .lit 2⟩]⟩,
    ⟨917559, 1, [⟨19, 16, .rw, .lit 15⟩, ⟨15, 0, .ro, .image⟩]⟩,
    ⟨917560, 4, [⟨31, 0, .ro, .image⟩]⟩,
    ⟨917564, 1, [⟨42, 36, .ro, .image⟩, ⟨35, 0, .ro, .image⟩]⟩,
    ⟨917565, 4, [⟨31, 0, .ro, .lit 4294967295⟩]⟩,
    ⟨917569, 1, [⟨63, 48, .rws, .lit 50000⟩, ⟨47, 44, .rws, .lit 4⟩, ⟨43, 43, .rws, .lit 0⟩]⟩,
    ⟨917570, 16, [⟨31, 0, .ro, .lit 0⟩]⟩,
    ⟨917586, 1, [⟨63, 63, .ro, .lit 0⟩, ⟨48, 32, .ro, .lit 0⟩, ⟨16, 0, .ro, .lit 0⟩]⟩ ]

/-- Field maps of block 0x0f, TLY. -/
def regRowsTly : List RegRow :=
  [ ⟨983040, 4, [⟨63, 63, .wo, .lit 0⟩, ⟨62, 60, .wo, .lit 0⟩, ⟨55, 44, .wo, .lit 0⟩, ⟨31, 0, .wo, .lit 0⟩]⟩,
    ⟨983044, 4, [⟨63, 63, .ro, .lit 0⟩, ⟨62, 62, .ro, .lit 0⟩, ⟨47, 32, .ro, .lit 0⟩, ⟨31, 0, .ro, .lit 0⟩]⟩,
    ⟨983048, 4, [⟨63, 63, .wo, .lit 0⟩, ⟨28, 16, .ro, .lit 0⟩, ⟨12, 0, .ro, .lit 0⟩]⟩,
    ⟨983052, 8, [⟨63, 0, .ro, .lit 0⟩]⟩ ]

/-- Field maps of block 0x10, HQ. -/
def regRowsHq : List RegRow :=
  [ ⟨1048576, 512, [⟨57, 42, .ro, .image⟩, ⟨41, 29, .ro, .image⟩, ⟨28, 25, .ro, .image⟩, ⟨12, 12, .rws, .image⟩,
      ⟨11, 0, .rws, .image⟩]⟩,
    ⟨1049088, 512, [⟨47, 47, .w1c, .lit 0⟩, ⟨46, 46, .w1c, .lit 0⟩, ⟨45, 45, .ro, .lit 1⟩, ⟨44, 44, .ro, .lit 0⟩,
      ⟨39, 32, .ro, .lit 0⟩, ⟨12, 0, .ro, .lit 0⟩]⟩,
    ⟨1049600, 4, [⟨63, 63, .wo, .lit 0⟩, ⟨62, 62, .ro, .lit 0⟩, ⟨47, 32, .ro, .lit 0⟩, ⟨11, 9, .rw, .lit 0⟩,
      ⟨8, 0, .rw, .lit 0⟩]⟩,
    ⟨1049604, 32, [⟨63, 0, .rw, .lit 0⟩]⟩,
    ⟨1049636, 4, [⟨63, 63, .wo, .lit 0⟩, ⟨62, 62, .ro, .lit 0⟩, ⟨61, 61, .ro, .lit 0⟩, ⟨11, 9, .ro, .lit 0⟩,
      ⟨8, 0, .rw, .lit 0⟩]⟩,
    ⟨1049640, 32, [⟨63, 0, .ro, .lit 0⟩]⟩,
    ⟨1049672, 1, [⟨63, 63, .wo, .lit 0⟩, ⟨62, 62, .ro, .lit 0⟩, ⟨8, 0, .rw, .lit 0⟩]⟩,
    ⟨1049673, 8, [⟨63, 0, .ro, .lit 0⟩]⟩ ]

/-- Field maps of block 0x11, PLT. -/
def regRowsPlt : List RegRow :=
  [ ⟨1114112, 1, [⟨3, 0, .ro, .lit 0⟩]⟩,
    ⟨1114113, 1, [⟨63, 60, .ro, .lit 0⟩, ⟨59, 57, .ro, .lit 0⟩, ⟨56, 56, .ro, .lit 0⟩, ⟨55, 55, .ro, .lit 0⟩,
      ⟨54, 48, .ro, .fuse⟩, ⟨47, 32, .ro, .lit 0⟩, ⟨31, 0, .ro, .lit 0⟩]⟩,
    ⟨1114114, 64, [⟨63, 0, .ro, .fuse⟩]⟩,
    ⟨1114178, 48, [⟨63, 0, .ro, .lit 0⟩]⟩,
    ⟨1114226, 24, [⟨31, 0, .ro, .lit 0⟩]⟩,
    ⟨1114250, 128, [⟨63, 0, .ro, .lit 0⟩]⟩,
    ⟨1114378, 1, [⟨51, 44, .rw, .lit 95⟩, ⟨43, 32, .rw, .lit 50⟩, ⟨31, 16, .rw, .lit 50⟩,
      ⟨15, 0, .rw, .lit 1800⟩]⟩,
    ⟨1114379, 1, [⟨21, 21, .ro, .lit 0⟩, ⟨20, 20, .ro, .lit 0⟩, ⟨19, 16, .ro, .lit 0⟩, ⟨15, 0, .ro, .lit 13107⟩]⟩,
    ⟨1114380, 8, [⟨63, 0, .ro, .lit 0⟩]⟩,
    ⟨1114388, 1, [⟨63, 61, .ro, .lit 1⟩, ⟨32, 32, .rw, .lit 1⟩, ⟨31, 16, .rw, .lit 1000⟩, ⟨15, 0, .ro, .lit 0⟩]⟩ ]

/-- Field maps of block 0x12, FLT. -/
def regRowsFlt : List RegRow :=
  [ ⟨1179648, 1, [⟨63, 32, .ro, .lit 0⟩]⟩,
    ⟨1179649, 1, [⟨15, 8, .ro, .lit 0⟩, ⟨7, 0, .ro, .lit 0⟩]⟩,
    ⟨1179650, 1024, [⟨63, 0, .ro, .lit 0⟩]⟩,
    ⟨1180674, 8, [⟨63, 0, .ro, .lit 0⟩]⟩ ]

/-- The field maps of one block of R637; a reserved block has none. -/
def regRowsOf : Nat → List RegRow
  | 1 => regRowsTsm
  | 2 => regRowsHmp
  | 3 => regRowsKvs
  | 4 => regRowsTile
  | 5 => regRowsSeq
  | 6 => regRowsDram
  | 7 => regRowsSett
  | 8 => regRowsTrl
  | 9 => regRowsFab
  | 10 => regRowsNet
  | 11 => regRowsMtr
  | 12 => regRowsTxt
  | 13 => regRowsSeu
  | 14 => regRowsCtl
  | 15 => regRowsTly
  | 16 => regRowsHq
  | 17 => regRowsPlt
  | 18 => regRowsFlt
  | _ => []

/-- The field map of a register: none for a number R637 does not give. -/
def regFields (key : Nat) : Option (List RegField) :=
  ((regRowsOf (key / 65536)).find? fun r => r.first ≤ key && key < r.first + r.count).map (·.fields)

/-- How many registers a block has in R637. -/
def blockSize (b : Nat) : Nat := (regRowsOf b).foldl (fun n r => n + r.count) 0

/-- The value of a register after reset: every literal reset in its place, I and F fields zero. -/
def regReset (key : Nat) : Word :=
  ((regFields key).getD []).foldl (fun w f =>
    match f.reset with
    | .lit v => w ||| BitVec.ofNat 64 (v * 2 ^ f.lo)
    | _ => w) 0

/-- The bits of a register whose fields have one access code. -/
def regMask (key : Nat) (a : Access) : Word :=
  ((regFields key).getD []).foldl (fun w f =>
    if f.acc = a then w ||| BitVec.ofNat 64 ((2 ^ (f.hi - f.lo + 1) - 1) * 2 ^ f.lo) else w) 0

/-- The bits of a register whose fields take their reset from the image. -/
def regImageMask (key : Nat) : Word :=
  ((regFields key).getD []).foldl (fun w f =>
    if f.reset = .image then w ||| BitVec.ofNat 64 ((2 ^ (f.hi - f.lo + 1) - 1) * 2 ^ f.lo) else w) 0

end Sys2Proof
end

