-- ==== Sys2Proof/Machine/State.lean ====
section
/-! DEFINITION. The state of the module as plain data: every register, table, queue, counter and unit of the spec,
and the queue of waiting commands.  Tables of the spec are held decoded, one structure per entry (log entry 5). -/

namespace Sys2Proof.Machine

/-! ### Tallies and queues (ch. 08) -/

/-- A pending wait on a tally (R318): issuer and target, in order of registration. -/
structure WaitEntry where
  tally : Nat := 0
  issuer : Issuer := .unit
  target : BitVec 32 := 0
  deriving DecidableEq, Repr, Inhabited

/-- A wake on its way to a waiter, carrying the satisfying value (R318). -/
structure Wake where
  tally : Nat := 0
  issuer : Issuer := .unit
  value : BitVec 32 := 0
  deriving DecidableEq, Repr, Inhabited

/-- An ADD or SET sent by a stream and not yet at its home (R292, R317). -/
structure StreamOp where
  die : Nat := 0
  tally : Nat := 0
  isSet : Bool := false
  value : BitVec 32 := 0
  deriving DecidableEq, Repr, Inhabited

/-- The tallies and their homes (R316 to R322). -/
structure Tly where
  vals : SMap (BitVec 32) := []
  waits : List WaitEntry := []
  polled : List WaitEntry := []
  wakes : List Wake := []
  sent : List StreamOp := []
  deriving DecidableEq, Repr, Inhabited

/-- An item in a queue: its level, its bytes, and whether its store holds an uncorrectable error (R334). -/
structure QEntry where
  prio : Nat := 0
  item : Item := {}
  bad : Bool := false
  deriving DecidableEq, Repr, Inhabited

/-- A hardware push held at a full queue (R327); a QPUSH names its die, which stays at its stall point. -/
structure WaitPush where
  prio : Nat := 0
  item : Item := {}
  after : Option Nat := none
  die : Option Nat := none
  /-- The trail port whose credits the item's frame keeps (R575). -/
  port : Option Nat := none
  deriving DecidableEq, Repr, Inhabited

/-- One hardware queue: items in order of arrival, and the pushes that wait (R326, R327). -/
structure Queue where
  items : List QEntry := []
  waiting : List WaitPush := []
  deriving DecidableEq, Repr, Inhabited

/-- A refusal reported to the unit that issued an item (R41, R325): the sender, the code, and the item's tag. -/
structure Refused where
  sender : Nat := 0
  code : Nat := 0
  tag : Tag := {}
  deriving DecidableEq, Repr, Inhabited

/-- An item that arrived before a commit, with the register values it is worked under (R648). -/
structure OldCfg where
  item : Item := {}
  regs : SMap Word := []
  deriving DecidableEq, Repr, Inhabited

/-- The hardware queues; the last SEQ accepted from each sender and class (R39), the SEQ counters of this module
as sender (key: receiver · 16 + class), the items popped by a hardware reader and not yet begun (R328), the refusals that
issuing units were told, until when a core's push (key: core), pop (4 + core) or flush (8) is BUSY (R332), and the items that arrived before
a commit of their unit's registers. -/
structure Hq where
  queues : SMap Queue := []
  lastSeq : SMap (BitVec 16) := []
  sendSeq : SMap (BitVec 16) := []
  hand : SMap (List Item) := []
  refusals : List Refused := []
  busy : SMap Nat := []
  old : List OldCfg := []
  deriving DecidableEq, Repr, Inhabited

/-! ### State address space (ch. 02) -/

/-- A leaf entry of the page table (R58). -/
structure Leaf where
  v : Bool := false
  tier : Tier := .dram
  tclass : Nat := 0
  loc : Nat := 0
  kv : Bool := false
  poison : Bool := false
  pin : Bool := false
  wp : Bool := false
  ferry : Bool := false
  ferryId : Nat := 0
  cow : BitVec 16 := 0
  age : Nat := 0
  deriving DecidableEq, Repr, Inhabited

/-- A directory entry of the page table at level 1 or 2 (R57). -/
structure DirTab where
  v : Bool := false
  loc : Nat := 0
  deriving DecidableEq, Repr, Inhabited

/-- Whom the end of a ferry or span request is reported to (R71, R163). -/
inductive Origin where
  | none
  | item (queue tally : Nat) (tag0 tag1 : Word)
  | host (cmd : Nat)
  | span (req : Nat)
  | revive (slot : Nat)
  | transfer (slot peer : Nat) (target : Word)
  | evict (slot : Nat) (span : Option Nat)
  | retire (dramPage : Nat)
  | recompute (slot span : Nat)
  deriving DecidableEq, Repr, Inhabited

/-- How one page or span of a request ended (R69, R71). -/
inductive Outcome1 where
  | moved | abandoned | failed (code : Nat)
  deriving DecidableEq, Repr, Inhabited

/-- Stages of a ferry move of one page (R68); a claim whose shootdown is complete is ready, and writes as soon as its block move
may be outstanding (R39). -/
inductive FerryStage where
  | claim | ready | write | verify
  deriving DecidableEq, Repr, Inhabited

/-- A ferry move or drop in progress on one page, from its claim to its switch (R68, R74): the tag of its block move (R34, R586), its session
from the claim on, and the program status of a sett destination once the translation layer has given it. -/
structure PageOp where
  req : Nat := 0
  ferryId : Nat := 0
  isDrop : Bool := false
  dst : Tier := .dram
  dstLoc : Nat := 0
  stage : FerryStage := .claim
  engine : Nat := 0
  tag : Tag := {}
  prog : Option Bool := none
  /-- The claim's place in the order of claims: a request's pages are claimed in page order (R588). -/
  num : Nat := 0
  deriving DecidableEq, Repr, Inhabited

/-- A ferry request in progress: its pages' outcomes so far and how many are still to end (R67, R71). -/
structure FerryReq where
  id : Nat := 0
  origin : Origin := .none
  results : SMap Outcome1 := []
  waiting : Nat := 0
  deriving DecidableEq, Repr, Inhabited

/-- What follows a completed shootdown (R66): the next stage of a claim, the return of a location to its
allocator, deferred reclamation of a dropped page's home, or the copy of a write-protected page. -/
inductive ShootCont where
  | nothing
  | claimed (ferryId : Nat)
  | switched (req : Nat) (tier : Tier) (loc : Nat)
  | dropped (req : Nat) (tier : Tier) (loc : Nat)
  | freed (tier : Tier) (loc : Nat)
  | released (item : Nat) (tier : Tier) (loc : Nat)
  | marked
  deriving DecidableEq, Repr, Inhabited

/-- A shootdown in progress: the caches that have not acknowledged it (R66). -/
structure Shoot where
  page : Nat := 0
  waiting : List Nat := []
  cont : ShootCont := .nothing
  deriving DecidableEq, Repr, Inhabited

/-- The tier manager: page table, translation caches, allocators, requests, ration bins (R56 to R98). -/
structure Tsm where
  leaf : SMap Leaf := []
  /-- The boot region is mapped (R717): 16,384 pinned pages of DRAM from page 0, at state address 0 upward (log entry 39). -/
  boot : Bool := false
  /-- Directory entries of the level-1 and level-2 tables: entry i of the table in DRAM page d at d · 4,096 + i (R56, R57). -/
  dirs : SMap DirTab := []
  /-- Translation caches (R62): entry of page p in cache c at c · 2^36 + p. -/
  tlb : SMap Leaf := []
  /-- Locations handed out by the tiers' allocators, keyed by tier code · 2^40 + LOCATION. -/
  alloc : SMap Unit := []
  reqs : List FerryReq := []
  ops : SMap PageOp := []
  shoots : List Shoot := []
  nextReq : Nat := 1
  nextFerryId : Nat := 1
  nextOp : Nat := 0
  /-- The 96 ration bins of R87 and the bin in use. -/
  bins : SMap Nat := []
  bin : Nat := 0
  /-- Eviction has begun below LOW and not yet reached HIGH (R80). -/
  evicting : Bool := false
  /-- The pressure condition of R85 holds. -/
  pressure : Bool := false
  /-- Write-protected pages a writer waits for, passed to the snapshot engine (R64, R511). -/
  cow : List Nat := []
  /-- DRAM pages under retirement whose move is to be tried again (R614). -/
  retiring : List Nat := []
  /-- DRAM pages retired for good (R614): never given out again. -/
  retired : List Nat := []
  /-- State addresses not yet given to a hamper (log entry 12). -/
  nextVa : Nat := 4294967296
  deriving DecidableEq, Repr, Inhabited

/-! ### Hampers (ch. 03) -/

/-- A session directory entry (R104). -/
structure DirEnt where
  gen : BitVec 32 := 0
  state : HState := .free
  kind : HKind := .none
  decode : Nat := 0
  tracked : Bool := false
  tclass : Nat := 0
  model : Nat := 0
  header : Nat := 0
  customer : Nat := 0
  lastNs : Nat := 0
  deriving DecidableEq, Repr, Inhabited

/-- A hamper header (R110, R111). -/
structure Header where
  handle : Word := 0
  origin : Word := 0
  specLen : Nat := 0
  commitLen : Nat := 0
  maxTokens : Nat := 0
  vocab : Nat := 0
  customer : Nat := 0
  tokenLog : Nat := 0
  spanTable : Nat := 0
  spans : Nat := 0
  spanGen : BitVec 32 := 0
  custody : BitVec 32 := 0
  custodyNs : Nat := 0
  recAddr : Word := 0
  revives : Nat := 0
  likelihood : Nat := 0
  parkedNs : Nat := 0
  snapEpoch : BitVec 16 := 0
  /-- Four adapter binding words (R371). -/
  adapter : List Word := [0, 0, 0, 0]
  /-- Eight words of tokenizer carry (R430). -/
  carry : List Word := [0, 0, 0, 0, 0, 0, 0, 0]
  /-- Eight words of sampler state (R361). -/
  sampler : List Word := [0, 0, 0, 0, 0, 0, 0, 0]
  /-- Grammar state word and stack (R453), bottom first. -/
  grammar : List Word := []
  deriving DecidableEq, Repr, Inhabited

/-- The state change in progress on a hamper (R108). -/
inductive ChangeKind where
  | revive | give | close | restore | cut | take | release | open_ | park | free
  deriving DecidableEq, Repr, Inhabited

/-- `waiting` are the shard modules that have not completed the transition yet (R106); the command then ends with the code and data. -/
structure Change where
  kind : ChangeKind := .revive
  cmd : Option Nat := none
  sinceNs : Nat := 0
  waiting : List Nat := []
  code : Nat := 0
  data : Word := 0
  deriving DecidableEq, Repr, Inhabited

/-- A revive in progress (R120): the modules whose completion is awaited, the first failed code, and whether it is
held at step 3. -/
structure Revive where
  held : Bool := false
  waiting : List Nat := []
  failCode : Nat := 0
  cmd : Option Nat := none
  deriving DecidableEq, Repr, Inhabited

/-- A handover in progress at this module as giver (R127). -/
structure Give where
  key : Nat := 0
  n : BitVec 32 := 0
  taker : Holder := .module 0
  sinceNs : Nat := 0
  cmd : Option Nat := none
  deriving DecidableEq, Repr, Inhabited

/-- A handover in progress at this module as taker (R127, R546). -/
structure Take where
  key : Nat := 0
  n : BitVec 32 := 0
  giver : Holder := .module 0
  current : Word := 0
  sinceNs : Nat := 0
  /-- Modules whose shard is not yet installed and verified. -/
  waiting : List Nat := []
  peer : Nat := 0
  deriving DecidableEq, Repr, Inhabited

/-- A custody probe sent and not answered (R135). -/
structure Probe where
  origin : Word := 0
  module : Nat := 0
  sinceNs : Nat := 0
  deriving DecidableEq, Repr, Inhabited

/-- An empty claim this module has detected (R134). -/
structure EmptyClaim where
  key : Nat := 0
  sinceNs : Nat := 0
  deriving DecidableEq, Repr, Inhabited

/-- Hampers and custody.  Tables are keyed by directory slot; the token log by slot · 2^24 + position.  Pool directory records
stand in the pool's bytes (R123). -/
structure Hmp where
  dir : SMap DirEnt := []
  hdr : SMap Header := []
  log : SMap (BitVec 32) := []
  /-- RECORD_LOG2 of DIR_POOL as read at the last install, where KIND and VERSION were right (R125). -/
  dirLog : Option Nat := none
  changes : SMap Change := []
  revives : SMap Revive := []
  gives : SMap Give := []
  takes : SMap Take := []
  probes : List Probe := []
  empties : List EmptyClaim := []
  /-- Slots whose session is in the running step's batch (R354). -/
  batch : List Nat := []
  /-- Parks that wait for the step boundary (R119): slot and host command. -/
  parks : List (Nat × Option Nat) := []
  /-- Releases to a pool segment whose cut is in progress (R130): slot to segment. -/
  releases : SMap Nat := []
  /-- State address of the header region (R109). -/
  headerBase : Nat := 0
  /-- State address of the session directory (R104). -/
  dirBase : Nat := 0
  deriving DecidableEq, Repr, Inhabited

/-! ### KV spans (ch. 04) -/

/-- A span table entry (R156); `base` is bits 63:16 of the state address of block 0. -/
structure SpanEnt where
  base : Nat := 0
  sharers : Nat := 0
  res : Res := .empty
  pinned : Bool := false
  inSnap : Bool := false
  recomp : Bool := false
  shared : Bool := false
  gen : BitVec 32 := 0
  anchor : Nat := 0
  deriving DecidableEq, Repr, Inhabited

/-- What a deferred item frees (R180). -/
inductive DeferKind where
  | drop (slot span : Nat)
  | pages
  | home (tier : Tier) (loc : Nat)
  deriving DecidableEq, Repr, Inhabited

/-- A deferred item: stamps of the four dies, and the pages still to be unmapped (R180, R171). -/
structure DeferItem where
  id : Nat := 0
  kind : DeferKind := .pages
  stamps : List (BitVec 32) := []
  pages : List Nat := []
  released : Bool := false
  /-- Pages whose claim was refused with FERRY_BUSY, and shootdowns awaited. -/
  busy : List Nat := []
  shooting : Nat := 0
  /-- The span request that waits for the item's end (R171). -/
  req : Option Nat := none
  /-- Spans the pages belonged to, as slot · 2^16 + span: OPEN and RECOMP_BEGIN wait for them (R162). -/
  owners : List Nat := []
  deriving DecidableEq, Repr, Inhabited

/-- A span request in progress (R163): outcomes by span number, and page actions or drops still to end. -/
structure SpanReq where
  id : Nat := 0
  slot : Nat := 0
  op : Nat := 0
  first : Nat := 0
  count : Nat := 0
  results : SMap Outcome1 := []
  waiting : Nat := 0
  origin : Origin := .none
  deriving DecidableEq, Repr, Inhabited

/-- A recompute in progress at the home module (R174, R175): the modules that rebuild the span, those whose RECOMP_BEGIN has not
completed, those it is to be posted to again and when, and the attempts so far. -/
structure Recompute where
  slot : Nat := 0
  span : Nat := 0
  began : List Nat := []
  waiting : List Nat := []
  again : List Nat := []
  attempts : Nat := 1
  retryNs : Nat := 0
  /-- The 256 token log entries the prefill reads, the next layer it prefills, and whether RECOMP_END has been posted. -/
  tokens : List (BitVec 32) := []
  layer : Nat := 0
  ending : Bool := false
  /-- The code with which this module's own span request, or a scatter of its own, has ended. -/
  own : Option Nat := none
  failed : Option Nat := none
  deriving DecidableEq, Repr, Inhabited

/-- A span request firmware has sent to the span engine's queue and awaits (R161). -/
structure SpanAsk where
  item : Item := {}
  origin : Origin := .none
  deriving DecidableEq, Repr, Inhabited

/-- Span tables: entries keyed by slot · 2^16 + span, side records by (slot · 2^16 + span) · 2^12 + block. -/
structure Kvs where
  spans : SMap SpanEnt := []
  side : SMap Side := []
  deferred : List DeferItem := []
  /-- Items of hampers that went to FREE while the list was full; each enters it when there is room (R181). -/
  held : List DeferItem := []
  asks : List SpanAsk := []
  nextId : Nat := 1
  reqs : List SpanReq := []
  recomputes : List Recompute := []
  /-- Spans firmware has queued for recompute and not rebuilt (R174, R198), and those of them that a request waits on (R194, R200):
  slot and span. -/
  wanted : List (Nat × Nat) := []
  needed : List (Nat × Nat) := []
  deriving DecidableEq, Repr, Inhabited

/-! ### Host interface (ch. 18) -/

/-- A queue pair of one function (R660 to R664, R680). -/
structure QPair where
  sqBase : Word := 0
  cqBase : Word := 0
  en : Bool := false
  error : Bool := false
  sqSize : Nat := 0
  cqSize : Nat := 0
  tail : Nat := 0
  headReg : Nat := 0
  sqHead : Nat := 0
  cqTail : Nat := 0
  phase : Bool := true
  deriving DecidableEq, Repr, Inhabited

/-- A completion record (R673) with the host address it is written to. -/
structure Completion where
  fn : Nat := 0
  qp : Nat := 0
  addr : Word := 0
  r0 : Word := 0
  r1 : Word := 0
  r2 : Word := 0
  r3 : Word := 0
  deriving DecidableEq, Repr, Inhabited

/-- A host command in progress (R662, R667).  `silent` marks one whose completion record is not written
(R659, R663); `began` one that has begun (R666); `spans` is for SPAN, `groups` for COMMIT. -/
structure HostCmd where
  id : Nat := 0
  fn : Nat := 0
  qp : Nat := 0
  cid : Nat := 0
  opcode : Nat := 0
  reissue : Bool := false
  fence : Bool := false
  ctrlTokens : Bool := false
  epoch : BitVec 16 := 0
  session : Word := 0
  args : List Word := []
  silent : Bool := false
  began : Bool := false
  sinceNs : Nat := 0
  /-- COMMIT: groups still pending, groups committed, first refusal (R652). -/
  groupsLeft : List Nat := []
  groupsDone : List Nat := []
  firstCode : Nat := 0
  /-- SPAN: modules whose completion is awaited, and the combined outcome of each span with the ring position and the
  BASE of its first failure (R165). -/
  waitMods : List Nat := []
  spanRes : SMap (Outcome1 × Nat × Nat) := []
  /-- A discard has removed its effect (R687). -/
  discarded : Bool := false
  deriving DecidableEq, Repr, Inhabited

/-- A completion whose record is not written yet because IDE is not Secure (R658). -/
structure HeldDone where
  cmd : HostCmd := {}
  code : Nat := 0
  detail : Word := 0
  data : Word := 0
  doneNs : Nat := 0
  deriving DecidableEq, Repr, Inhabited

/-- The HOST registers and rings of one function. -/
structure HostFn where
  enable : Bool := false
  attn : BitVec 8 := 0
  ideSecure : Bool := false
  qps : SMap QPair := []
  /-- Completion records held while IDE is not Secure (R658). -/
  held : List HeldDone := []
  deriving DecidableEq, Repr, Inhabited

/-- The host port: both functions, the commands in progress, READY, FATAL and the firmware version. -/
structure HostPort where
  fns : SMap HostFn := []
  cmds : List HostCmd := []
  nextId : Nat := 1
  ready : Bool := false
  fatal : Bool := false
  fatalCode : Nat := 0
  deriving DecidableEq, Repr, Inhabited

/-! ### Tiles and bundle sequencers (ch. 05 to 07, 10) -/

/-- Stationary registers of one physical tile: which of the two is active, and the formats of the loads that filled
them (R235, R280).  Their bytes stand in memory space 6. -/
structure TileSt where
  active : Nat := 0
  fmt0 : Option Fmt := none
  fmt1 : Option Fmt := none
  /-- Time base of each uncorrectable error of the last hour (R253). -/
  errs : List Nat := []
  deriving DecidableEq, Repr, Inhabited

/-- A slot action issued and not yet expired (R273): its start and expiry cycle, the logical tile's physical tile, and
the register values it read at issue (R276). -/
structure SlotAct where
  op : SlotOp := .tile .nop
  start : Nat := 0
  expiry : Nat := 0
  phys : Nat := 0
  va : Word := 0
  vb : Word := 0
  /-- Format of the stationary operand an MMA multiplies by, after its swap (R280). -/
  bf : Option Fmt := none
  deriving DecidableEq, Repr, Inhabited

/-- What a pass contributes to one accumulator element: the exact sum of products and of their magnitudes in units of
2^-300, and whether a NaN or an infinity stands among them (R245, R246). -/
structure PSum where
  sum : Int := 0
  mag : Nat := 0
  nan : Bool := false
  pinf : Bool := false
  ninf : Bool := false
  /-- A NaN stood among the inputs; a stationary operand was never loaded (R305). -/
  nanIn : Bool := false
  undef : Bool := false
  deriving DecidableEq, Repr, Inhabited

/-- An MMA whose rows have all entered and whose set is draining (R234): row-major sums of rows 0 to `rows` − 1. -/
structure Drain where
  tile : Nat := 0
  phys : Nat := 0
  set : Nat := 0
  int : Bool := false
  accum : Bool := false
  rows : Nat := 0
  done : Nat := 0
  sums : List PSum := []
  deriving DecidableEq, Repr, Inhabited

/-- A mover transfer issued and not complete (R284). -/
structure Xfer where
  mover : Nat := 0
  kind : MoverKind := .nop
  ra : Word := 0
  rl : Nat := 0
  tally : Nat := 0
  la : Nat := 0
  tag : Tag := {}
  /-- The frames of an MRING are on their way (R575). -/
  sent : Bool := false
  deriving DecidableEq, Repr, Inhabited

/-- An attention list in progress (R289): the tiles it holds, the next item's larder byte offset, the items left, and
the blocks already read for folded items (R205). -/
structure AttnList where
  tiles : List Nat := []
  at_ : Nat := 0
  left : Nat := 0
  folded : List (Nat × Nat) := []
  deriving DecidableEq, Repr, Inhabited

/-- Stall points (R274). -/
inductive Stall where
  | rdv (all : Bool) (mask : Nat)
  | wait (tally : Nat) (target : BitVec 32)
  | read (tally reg : Nat)
  | push (queue prio : Nat) (item : Item)
  | preempt (index : Nat)
  | fetch
  deriving DecidableEq, Repr, Inhabited

/-- States of a sequencer (R312). -/
inductive SeqState where
  | idle | running | stalled | ending | saving | discarding
  deriving DecidableEq, Repr, Inhabited

/-- What the sequencer knows of the preempted segment in its die's save area; the tile state, the scalars and the save header stand in
memory (R304, R400). -/
structure Save where
  item : Item := {}
  segId : Nat := 0
  startNo : BitVec 32 := 0
  offset : Nat := 0
  index : Nat := 0
  pins : SMap (BitVec 32) := []
  readings : SMap SpanEnt := []
  cycles : Nat := 0
  tileMask : Nat := 0
  deriving DecidableEq, Repr, Inhabited

/-- One C-die's sequencer and attention engine.  `regs` are the scalar registers, `snap` their values at the issue of
the current bundle (R276), `wrote` the registers that bundle has written (R291). -/
structure Die where
  state : SeqState := .idle
  item : Item := {}
  startNo : BitVec 32 := 0
  nextStart : BitVec 32 := 0
  segId : Nat := 0
  entry : Nat := 0
  codeBytes : Nat := 0
  tileMask : Nat := 0
  pptCount : Nat := 0
  offset : Nat := 0
  bundleAt : Nat := 0
  first : Bool := true
  cycle : Nat := 0
  regs : SMap Word := []
  snap : SMap Word := []
  wrote : List Nat := []
  slots : SMap SlotAct := []
  /-- Expired tile and larder-port actions that still count for bank ports: slot and action (R287). -/
  recent : List (Nat × SlotAct) := []
  /-- Units of 64 bytes of expired larder-port actions that are not in place before a rendezvous names the P slot (R288): address
  and bytes. -/
  late : List (Nat × List Byte) := []
  drains : List Drain := []
  xfers : List Xfer := []
  lists : List AttnList := []
  stalls : List Stall := []
  stallCycles : Nat := 0
  endStatus : Nat := 0
  save : Option Save := none
  pins : SMap (BitVec 32) := []
  readings : SMap SpanEnt := []
  /-- First word of the 4 MiB of code in the stream buffer (R307, R308). -/
  bufLo : Nat := 0
  /-- Time base when the present stall began (R274). -/
  stallFrom : Nat := 0
  /-- Counter values when the segment started or resumed, for accounting (R406). -/
  startNs : Nat := 0
  deriving DecidableEq, Repr, Inhabited

/-- One half of a ring all-reduce (R208): its next stage, since when it waits for that stage's chunk, and the vectors of its query
positions as FP32 patterns. -/
structure RedHalf where
  stage : Nat := 0
  sinceNs : Nat := 0
  y : List (List (BitVec 32)) := []
  deriving DecidableEq, Repr, Inhabited

/-- A ring all-reduce (R208): its number, die, the ring position and count of modules, the two halves, where the sums go, and
chunks that came before the module's own partials. -/
structure Reduction where
  id : Nat := 0
  die : Nat := 0
  pos : Nat := 0
  count : Nat := 1
  started : Bool := false
  cw : RedHalf := {}
  ccw : RedHalf := {}
  dest : Nat := 0
  inbox : List (Bool × List (BitVec 32)) := []
  deriving DecidableEq, Repr, Inhabited

/-- A layer of a ring prefill (R213): the next round, the number of rounds when all are done, and the visiting set last here. -/
structure RingRound where
  slot : Nat := 0
  layer : Nat := 0
  round : Nat := 0
  set : List Word := []
  deriving DecidableEq, Repr, Inhabited

/-- Tiles, dies and the node's attention work. -/
structure Compute where
  dies : SMap Die := []
  tiles : SMap TileSt := []
  reductions : List Reduction := []
  rings : List RingRound := []
  /-- Remaps requested and waiting for the segment boundary (R254): die, logical tile, physical tile. -/
  remaps : List (Nat × Nat × Nat) := []
  /-- Attention items and scatter descriptors that failed and that firmware has not handled yet (R194, R167): session and code. -/
  fails : List (Word × Nat) := []
  /-- Absent or poisoned spans that items of the step have met on this module (R198, R199, R694): session and span. -/
  absent : List (Word × Nat) := []
  deriving DecidableEq, Repr, Inhabited

/-! ### Platform block (ch. 20, 21) -/

/-- A firmware bank: its control firmware and service library images, and which of its four copies read without
uncorrectable error (R710). -/
structure Bank where
  control : List Byte := []
  service : List Byte := []
  copies : List Bool := [true, true, true, true]
  deriving DecidableEq, Repr, Inhabited

/-- An entry of the measurement log (R724): register, kind of event and digest. -/
structure MeasEvent where
  reg : Nat := 0
  kind : Nat := 0
  digest : BitVec 384 := 0
  deriving DecidableEq, Repr, Inhabited

/-- An SPDM secured session (R726): its number, whether FINISH has completed it, and its key update count. -/
structure SpdmSession where
  port : SpdmPort := .mctp
  id : Nat := 0
  finished : Bool := false
  keyGen : Nat := 0
  beatNs : Nat := 0
  deriving DecidableEq, Repr, Inhabited

/-- How far an SPDM connection has come: version, capabilities, algorithms. -/
structure SpdmConn where
  version : Nat := 0
  caps : Bool := false
  algs : Bool := false
  deriving DecidableEq, Repr, Inhabited

/-- States of the PLDM firmware device (R728, R729). -/
inductive UpdState where
  | idle | learn | ready | download | verify | apply | activate
  deriving DecidableEq, Repr, Inhabited

/-- The platform block: power and boot, fuses, banks, measurements, governor, parking and the management endpoint. -/
structure Plat where
  /-- The input has been below 40 V since the last power-up began (R708). -/
  low : Bool := false
  /-- Rails are in their windows (R715). -/
  rails : Bool := false
  /-- A latched shutdown holds the module off (R738). -/
  latched : Bool := false
  vinEn : Bool := true
  resetHeld : Bool := false
  railFails : Nat := 0
  railRetryAt : Option Nat := none
  inhibit : Bool := false
  stage : Nat := 0
  cause : Nat := 0
  failCode : Nat := 0
  fwVersion : BitVec 32 := 0
  bootBank : Nat := 0
  tryFailed : Bool := false
  romNs : Nat := 0
  /-- The fuse array, and the fuses as both readers read them at the last start (R716, R722). -/
  array : SMap Word := []
  fuses : SMap Word := []
  bankA : Bank := {}
  bankB : Bank := {}
  activeBank : Nat := 0
  tryBank : Option Nat := none
  meas : SMap (BitVec 384) := []
  measLog : List MeasEvent := []
  /-- Governor (R731): power target and thermal target of each die, and times. -/
  powerTarget : SMap Nat := []
  thermTarget : SMap Nat := []
  /-- Cycle stretch of each die in eighths (R47, R731). -/
  stretch : SMap Nat := []
  lastPowerDown : Option Nat := none
  lastThermDown : SMap Nat := []
  belowSince : Option Nat := none
  lastPower : Nat := 0
  /-- Samples of 100 µs above CAP_W (R737), dies at or above THROTTLE_C at their last sample, and DRAM above 105 °C. -/
  overCap : Nat := 0
  hotDies : List Nat := []
  dramHot : Bool := false
  /-- Last MR4 reading of each DRAM die (R603). -/
  dramTemps : SMap Int := []
  lastDramDown : Option Nat := none
  /-- C-die and base-die rails are off after THERMAL_TRIP (R758). -/
  tripped : Bool := false
  stretchNs : Nat := 0
  tilesGated : Bool := false
  /-- Parking (R745 to R747): parked since, and in SERVING for upkeep since. -/
  parkedSince : Option Nat := none
  upkeepSince : Option Nat := none
  /-- The address straps ADDR2 to ADDR0 as the node ties them, lowest first; none: left open (R751, R752). -/
  straps : List (Option Bool) := [none, none, none]
  /-- Management endpoint (R726 to R729). -/
  tid : Nat := 0
  eid : Nat := 0
  spdm : SMap SpdmConn := []
  sessions : List SpdmSession := []
  nextSession : Nat := 1
  upd : UpdState := .idle
  updBank : Nat := 0
  updComp : Nat := 0
  updOffset : Nat := 0
  updSize : Nat := 0
  updDone : List Nat := []
  secretMade : Bool := false
  jtagOpen : Bool := false
  deriving DecidableEq, Repr, Inhabited

/-! ### Faults (ch. 19) -/

/-- A lost queue item whose work is being found (R698). -/
structure LostItem where
  queue : Nat := 0
  item : Item := {}
  sinceNs : Nat := 0
  deriving DecidableEq, Repr, Inhabited

/-- A discarded segment (R685, R686): die, start item, code, and the job it was pushed for. -/
structure Discard where
  die : Nat := 0
  item : Item := {}
  code : Nat := 0
  job : Option Nat := none
  deriving DecidableEq, Repr, Inhabited

/-- Fault bookkeeping: fault times of each unit in the last hour (R689), re-issue counts of segments that belong to no
step (R686), lost items, and the modules that answered the probes of R692. -/
structure Flt where
  unitTimes : SMap (List Nat) := []
  segRetries : SMap Nat := []
  lost : List LostItem := []
  /-- Stream discards that firmware has not handled yet. -/
  discards : List Discard := []
  stallSince : Option Nat := none
  /-- The modules probed and when last, and those that answered (R692). -/
  probed : List Nat := []
  probeNs : Nat := 0
  answered : List Nat := []
  absent : List Nat := []
  deriving DecidableEq, Repr, Inhabited

/-! ### Composition map and configuration (ch. 15, 17), the parts every unit reads -/

/-- An item held because its epoch is newer than the map's (R585). -/
structure HeldItem where
  queue : Nat := 0
  prio : Nat := 0
  sender : Nat := 0
  item : Item := {}
  bad : Bool := false
  port : Option Nat := none
  sinceNs : Nat := 0
  /-- When it is refused with EPOCH_AHEAD: DRAIN_MS after its arrival (R585, R648). -/
  untilNs : Nat := 0
  deriving DecidableEq, Repr, Inhabited

/-- Composition maps: the one in effect, the old one while it drains and since when, and the next one. -/
structure Comp where
  map : CompMap := {}
  old : Option CompMap := none
  drainSince : Nat := 0
  /-- DRAIN_MS in nanoseconds as it stood at the last install (R648). -/
  drainNs : Nat := 0
  next : Option CompMap := none
  nextBytes : List Byte := []
  nextCmd : Option Nat := none
  held : List HeldItem := []
  deriving DecidableEq, Repr, Inhabited



/-! ### Text unit (ch. 11) -/

/-- The slots whose text state the unit caches (R429). -/
structure Txt where
  cached : List Nat := []
  deriving DecidableEq, Repr, Inhabited

/-! ### Configuration (ch. 17) -/

/-- A staged INDEX section: where its body stands, its size and its directory entry (R646). -/
structure StagedIndex where
  dest : Word := 0
  size : Nat := 0
  entry : Item := {}
  deriving DecidableEq, Repr, Inhabited

/-- A staged VOCAB section (R646). -/
structure StagedVocab where
  dest : Word := 0
  size : Nat := 0
  deriving DecidableEq, Repr, Inhabited

/-- The image in effect: its digest, larder and pinned regions, and the places of its vocabularies (key: slot) and indexes (key: 16 +
slot); staged bodies; and the groups that await their safe points with their COMMIT commands (R651). -/
structure Cfg where
  base : Option (BitVec 384) := none
  larder : List LarderDesc := []
  pins : List PinDesc := []
  places : SMap (Nat × Nat) := []
  /-- Where TABLE bodies stand: first byte and size. -/
  tables : List (Nat × Nat) := []
  vocabs : SMap StagedVocab := []
  indexes : SMap StagedIndex := []
  pending : SMap Nat := []
  deriving DecidableEq, Repr, Inhabited



/-! ### Requests, steps, adapters and scheduling (ch. 9, 10) -/

/-- States of an open request (R351). -/
inductive ReqState where
  | queued | reviveWait | prefill | decode | rationWait
  deriving DecidableEq, Repr, Inhabited

/-- A request record (R350), with what firmware keeps beside it: the session's slot, whether its session has become ACTIVE,
the log entries still to feed (a pending token first, R363), the drafts of the step in progress (R365), fallback and the
rate r in units of 1/65,536 (R410), the output of the step in progress, the first output position, and where its responses
go. -/
structure ReqRec where
  item : Item := {}
  use : BitVec 16 := 0
  state : ReqState := .queued
  held : ReqState := .queued
  cancel : Bool := false
  newDone : Nat := 0
  inputDone : Nat := 0
  openNs : Nat := 0
  firstNs : Nat := 0
  lastStep : BitVec 32 := 0
  slot : Nat := 0
  input : List (BitVec 32) := []
  feed : List (BitVec 32) := []
  fed : Nat := 0
  pend : Bool := false
  drafts : List Nat := []
  inStep : Bool := false
  fallback : Bool := false
  rate : Nat := 65536
  firstOut : Nat := 0
  /-- Bytes, tokens and marks of the output that the step in progress has committed (R540). -/
  outBytes : List Byte := []
  outToks : Nat := 0
  late : Bool := false
  unverified : Bool := false
  /-- The request has reached its end and closes DONE at the step boundary. -/
  ended : Bool := false
  cmd : Option Nat := none
  net : Option NetSrc := none
  /-- A code that ends the request FAILED at the next step boundary (R351). -/
  failed : Nat := 0
  deriving DecidableEq, Repr, Inhabited

/-- A request item posted and not yet read by firmware, with its input entries when they came from the host (R670) or the
text unit (R538), and its sender. -/
structure Posted where
  item : Item := {}
  entries : Option (List (BitVec 32)) := none
  cmd : Option Nat := none
  net : Option NetSrc := none
  deriving DecidableEq, Repr, Inhabited

/-- A response on its way to the network edge (R540). -/
structure NetResp where
  net : NetSrc := {}
  session : Word := 0
  clientRef : Nat := 0
  customer : Nat := 0
  status : Nat := 0
  late : Bool := false
  final : Bool := false
  unverified : Bool := false
  out : List Byte := []
  tokens : Nat := 0
  deriving DecidableEq, Repr, Inhabited

/-- A sub-batch received for a step (R354); `whole` once its item with LAST = 1 has come. -/
structure SubBatch where
  step : BitVec 32 := 0
  module : Nat := 0
  entries : List BatchEntry := []
  whole : Bool := false
  deriving DecidableEq, Repr, Inhabited

/-- A step-done report (R359): session, module and status. -/
structure Report where
  session : Word := 0
  module : Nat := 0
  status : Nat := 0
  /-- Absent or poisoned spans that the module's items have met (R198, R199, R694). -/
  spans : List Nat := []
  deriving DecidableEq, Repr, Inhabited

/-- How this module builds a session's attention items of a step (R226, R763): class, TOP_K, NEWEST and the named bodies. -/
structure AttnPlan where
  session : Word := 0
  attn : Nat := 0
  topK : Nat := 0
  newest : Nat := 0
  steer : Option Word := none
  exp : Option Word := none
  deriving DecidableEq, Repr, Inhabited

/-- A step on this module (R359): its batch, how its attention items are built, the reports of each session homed here with the target's logits, the sessions
homed here that are neither committed nor discarded, the sessions homed elsewhere whose length word has not come, and the
modules whose acknowledgement of an abort is awaited (R685). -/
structure StepRun where
  n : BitVec 32 := 0
  plans : List AttnPlan := []
  batch : List BatchEntry := []
  sentNs : Nat := 0
  reports : List Report := []
  logits : List (Word × List (List (BitVec 32))) := []
  open_ : List Word := []
  shards : List Word := []
  acks : List Nat := []
  aborted : Bool := false
  tries : Nat := 0
  deriving DecidableEq, Repr, Inhabited

/-- An adapter swap that awaits retirement (R375). -/
structure Swap where
  cmd : Nat := 0
  entry : Nat := 0
  isSteer : Bool := true
  model : Nat := 0
  deriving DecidableEq, Repr, Inhabited

/-- A segment whose start item is built and whose dependences have completed (R396). -/
structure ReadySeg where
  job : Nat := 0
  die : Nat := 0
  item : Item := {}
  readyNs : Nat := 0
  deriving DecidableEq, Repr, Inhabited

/-- What firmware keeps of one die: the items it has pushed with their jobs and ready times,
the load segment in flight, the job of the saved segment, and the items flushed
for service mode with their levels (R402 to R407). -/
structure DieJobs where
  pushed : List (Item × Nat × Nat) := []
  loading : Option (Nat × Item) := none
  victim : Option Nat := none
  entering : Bool := false
  flushed : List (Item × Nat) := []
  deriving DecidableEq, Repr, Inhabited

/-- Control-complex firmware. -/
structure Fw where
  reqs : SMap ReqRec := []
  /-- Use counts of the record indices (R349). -/
  uses : SMap (BitVec 16) := []
  posted : List Posted := []
  /-- The network edge's transmit queue (R540, R552). -/
  responses : List NetResp := []
  /-- Number of the newest step begun on this module (R354). -/
  step : BitVec 32 := 0
  /-- Number of the step whose sub-batch this module has sent and that has not begun, with the time it was sent. -/
  sent : Option (BitVec 32 × Nat) := none
  subs : List SubBatch := []
  params : List (BitVec 32 × StepParams) := []
  cur : Option StepRun := none
  stalled : Bool := false
  /-- Slots whose NEXT_TOKEN finished late (R413). -/
  lateNext : List Nat := []
  swaps : List Swap := []
  /-- Ready segments in order of becoming ready (R396). -/
  ready : List ReadySeg := []
  /-- PENDING_PREEMPTS of each job (R396), and segments started in the window, keyed by 4 · job + die. -/
  preempted : SMap Nat := []
  started : SMap Nat := []
  jobs : SMap DieJobs := []
  windowNs : Nat := 0
  refillNs : Nat := 0
  /-- Companion hampers of the draft model (R364): the companion's slot, by the slot of its target. -/
  companions : SMap Nat := []
  deriving DecidableEq, Repr, Inhabited



/-! ### Trail links and fabric ports (ch. 15) -/

/-- Bytes of one frame in a flit's payload (R573): the frame's header, from which byte, how many, and whether they are its last. -/
structure FlitPart where
  head : FrameHead := {}
  off : Nat := 0
  len : Nat := 0
  last : Bool := true
  deriving DecidableEq, Repr, Inhabited

/-- A DATA flit that has been sent (R568): FSEQ, VC and payload. -/
structure DataFlit where
  seq : BitVec 12 := 0
  vc : Nat := 0
  parts : List FlitPart := []
  deriving DecidableEq, Repr, Inhabited

/-- Link state of a trail port beyond TRL.PORTn (R570 to R573): FEC lock, bring-up progress, the next FSEQ, unacknowledged
flits, frames waiting for credits, the frame in progress of each VC with the bytes of it already sent, the bulk VC sent last, the
expected FSEQ, and credit totals per VC: the peer's grants, credits used, credits the peer has returned, and credits returned to
it. -/
structure TrailPort where
  fec : Bool := false
  sentDone : Bool := false
  gotDone : Bool := false
  downNs : Nat := 0
  seq : BitVec 12 := 0
  unacked : List DataFlit := []
  waiting : List FrameHead := []
  cur : SMap (FrameHead × Nat) := []
  bulk : Nat := 2
  ackNs : Nat := 0
  retries : Nat := 0
  expect : BitVec 12 := 0
  naked : Bool := false
  grants : List Nat := [0, 0, 0]
  used : List (BitVec 12) := [0, 0, 0]
  back : List (BitVec 12) := [0, 0, 0]
  returned : List (BitVec 12) := [0, 0, 0]
  rot : Nat := 0
  deriving DecidableEq, Repr, Inhabited

/-- What waits for a fabric access: a page move of the ferry engines, a snapshot's write, the read-ahead buffer of an X-die, or
nothing any more: a page read ahead and written meanwhile. -/
inductive FabUse where
  | ferry (page : Nat)
  | snap (epoch : Nat)
  | ahead (x page : Nat)
  | dropped
  deriving DecidableEq, Repr, Inhabited

/-- A fabric access of one page (R579): its port, and once it is issued (R588) the time of that and the tag it carries (R34); until
then the session, class and flags its tag will have. -/
structure FabAcc where
  id : Nat := 0
  write : Bool := false
  seg : Nat := 0
  page : Nat := 0
  port : Nat := 0
  use : FabUse := .ferry 0
  session : Word := 0
  cls : Nat := 4
  flags : Nat := 0
  issued : Bool := false
  sinceNs : Nat := 0
  tag : Tag := {}
  deriving DecidableEq, Repr, Inhabited

/-- Fabric ports: the tracker, the port choice in force for each segment, and the pages in the read-ahead buffers of X0
and X1 (R589). -/
structure Fab where
  accs : List FabAcc := []
  nextId : Nat := 1
  choice : SMap (List Nat) := []
  ahead : SMap (List Nat) := []
  deriving DecidableEq, Repr, Inhabited



/-! ### Snapshots (ch. 13) -/

/-- A span as a shard records it (R510, R519): STATUS, the owner's handle for OWNER, its first logical page, its pages still
to be copied with the offsets of their copies, and its side records. -/
structure SnapSpan where
  n : Nat := 0
  status : Nat := 0
  pinned : Bool := false
  anchor : Nat := 0
  owner : Nat := 0
  first : Nat := 0
  base : Nat := 0
  /-- The span entry that IN_SNAP marks: slot and span number of the pages' owner. -/
  mark : Nat × Nat := (0, 0)
  deriving DecidableEq, Repr, Inhabited

/-- A session of a shard: what the cut froze, and where its runs stand in the group (R518). -/
structure SnapSess where
  slot : Nat := 0
  home : Bool := false
  model : Nat := 0
  hdr : Header := {}
  table : List SnapSpan := []
  /-- The words of the span table, the side array and the token log, each padded to whole pages, and their pages. -/
  image : List Word := []
  pages : List Nat := []
  header : Nat := 0
  nonkv : Nat := 0
  spanList : Nat := 0
  crcList : Nat := 0
  cairnSeen : Word := 0
  deriving DecidableEq, Repr, Inhabited

/-- How far a module's part of a cut has come (R508 to R516). -/
inductive CutPhase where
  | waiting | copying | manifest | done
  deriving DecidableEq, Repr, Inhabited

/-- The cut in progress on this module. -/
structure SnapCut where
  epoch : BitVec 16 := 0
  group : Nat := 0
  lead : Nat := 0
  step : BitVec 32 := 0
  handles : List Word := []
  headSeen : Word := 0
  phase : CutPhase := .waiting
  sessions : List SnapSess := []
  skipped : Nat := 0
  /-- Pages still to be copied, and the order of R512. -/
  todo : List Nat := []
  extents : List Nat := []
  next : Nat := 0
  limit : Nat := 0
  /-- Where earlier extents were left before their end (R506). -/
  gaps : List Nat := []
  manifest : Nat := 0
  /-- Copies put into the staging region so far (R512), and the cut item behind this part. -/
  staged : Nat := 0
  item : Item := {}
  doneNs : Nat := 0
  deriving DecidableEq, Repr, Inhabited

/-- A shard as its shard-done item reports it (R516). -/
structure ShardRec where
  module : Nat := 0
  page : Nat := 0
  bytes : Nat := 0
  crc : BitVec 32 := 0
  deriving DecidableEq, Repr, Inhabited

/-- A cut this module leads (R508, R521): the host command or the releasing slot behind it. -/
structure SnapLead where
  epoch : BitVec 16 := 0
  group : Nat := 0
  step : BitVec 32 := 0
  count : Nat := 0
  headSeen : Word := 0
  cmd : Option Nat := none
  release : Option Nat := none
  waiting : List Nat := []
  shards : List ShardRec := []
  cutNs : Nat := 0
  record : Option Nat := none
  deriving DecidableEq, Repr, Inhabited

/-- A restore in progress on this module (R524): who asked, the item, whether this module's share is built, and the empty
claim it serves (R134). -/
structure Restoring where
  slot : Nat := 0
  cmd : Option Nat := none
  item : Item := {}
  built : Bool := false
  code : Nat := 0
  claim : Option Nat := none
  deriving DecidableEq, Repr, Inhabited

structure Snap where
  cur : Option SnapCut := none
  lead : Option SnapLead := none
  restores : List Restoring := []
  deriving DecidableEq, Repr, Inhabited



/-! ### DRAM and sett devices (ch. 16) -/

/-- The next line of each channel's patrol scrub, the times of corrected lines of each page in the last 24 hours, the pages whose
retirement was skipped (R612, R614), and the uncorrectable lines of pinned bodies: user line numbers (R611, R694). -/
structure Dram where
  scrubPos : SMap Nat := []
  ces : SMap (List Nat) := []
  skipped : List Nat := []
  bad : List Nat := []
  deriving DecidableEq, Repr, Inhabited

/-- A NAND block of the translation layer (its write time may lie before the present start of the time base), numbered die · 65,536 + index (R620, R624): erases, reads since the last erase, the
age of its data as a time, whether a codeword of it needed read-retry, and whether it is retired. -/
structure SettBlock where
  erases : Nat := 0
  reads : Nat := 0
  writtenNs : Option Int := none
  retry : Bool := false
  retired : Bool := false
  deriving DecidableEq, Repr, Inhabited

/-- When the data of a block was written; 0 for an empty block. -/
def SettBlock.written (x : SettBlock) : Int := x.writtenNs.getD 0

/-- A PROGRAM in progress (R621, R622): the bytes that are not zero, and whether a TRIM arrived meanwhile. -/
structure SettProg where
  page : Nat := 0
  data : List (Nat × Byte) := []
  trim : Bool := false
  deriving DecidableEq, Repr, Inhabited

/-- A READ in progress with the contents it arrived at; none when the page was unreadable (R621, R622). -/
structure SettRead where
  page : Nat := 0
  mapped : Bool := false
  data : Option (List (Nat × Byte)) := none
  deriving DecidableEq, Repr, Inhabited

/-- The flash translation layer: NAND blocks of each mapped logical page, blocks, blocks in all and spare blocks as the device
reports them, unreadable pages, operations in progress in arrival order, the pages in the DRAM staging buffer, and failed dies
whose rebuild has not ended. -/
structure Sett where
  place : SMap (List Nat) := []
  blocks : SMap SettBlock := []
  count : Nat := 0
  spares : Nat := 0
  failedDies : Nat := 0
  lost : List Nat := []
  progs : List SettProg := []
  reads : List SettRead := []
  staged : SMap (List (Nat × Byte)) := []
  rebuilding : List Nat := []
  deriving DecidableEq, Repr, Inhabited



/-! ### Network edge (ch. 14) -/

/-- A request message (R535 to R538): its sender, DSCP and header words of its first fragment, the bytes received by offset,
the IP lengths of its frames, when its first fragment arrived and when it was complete, and whether BYTES policing coloured it
yellow. -/
structure NetMsg where
  src : NetSrc := {}
  dscp : Nat := 0
  w0 : Word := 0
  w1 : Word := 0
  w2 : Word := 0
  id : Nat := 0
  bytes : SMap Byte := []
  lens : List Nat := []
  sinceNs : Nat := 0
  doneNs : Nat := 0
  yellow : Bool := false
  /-- The NET registers it completes under, where a commit has changed them since its first fragment (R649). -/
  old : SMap Word := []
  deriving DecidableEq, Repr, Inhabited

/-- A response fragment in the shaper (R540, R551): its customer, sender, bytes, IP length and the units a TOKENS shaper
charges for it. -/
structure ShapedFrag where
  customer : Nat := 0
  dest : NetSrc := {}
  bytes : List Byte := []
  ipLen : Nat := 0
  tokens : Nat := 0
  sinceNs : Nat := 0
  deriving DecidableEq, Repr, Inhabited

/-- Messages over a queue pair (R541, R544, R546). -/
inductive RoceMsg where
  | hello (h : XferHello)
  | answer (origin handle : Word)
  | page (index : Nat) (imm : BitVec 32) (data : List Byte)
  | ack (count : Nat)
  | nak
  | cnp
  deriving DecidableEq, Repr, Inhabited

/-- A queue pair (R541): rate in bytes per second, times of the last halving, notification and raise, messages sent and not
acknowledged with their transfer's number, retries, and the time of the last send. -/
structure QueuePair where
  rate : Nat := 100000000000
  halvedNs : Option Nat := none
  cnpNs : Nat := 0
  raisedNs : Nat := 0
  unacked : List (Nat × RoceMsg) := []
  retries : Nat := 0
  sentNs : Nat := 0
  deriving DecidableEq, Repr, Inhabited

/-- A transfer this module sends (R543). -/
structure XferOut where
  id : Nat := 0
  peer : Nat := 0
  item : Item := {}
  deriving DecidableEq, Repr, Inhabited

/-- A transfer this module receives from a peer (R545): its slot, the SEND that announced it, the next stream page, and the
span numbers whose pages follow the non-KV run. -/
structure XferIn where
  slot : Nat := 0
  hello : XferHello := {}
  next : Nat := 0
  deriving DecidableEq, Repr, Inhabited

/-- The edge: messages in reassembly, complete messages, messages at the text unit, the shaper, the next MSG_ID, the customer
last served, whether the egress buffer has stopped the transmit queue, PFC pauses keyed by 8 · port + priority, queue pairs
and transfers, and the handles that takers assigned to sessions given from here (R546). -/
structure Net where
  reasm : List NetMsg := []
  ready : List NetMsg := []
  toText : List NetMsg := []
  shaper : List ShapedFrag := []
  nextMsg : Nat := 0
  lastCust : Nat := 0
  stopped : Bool := false
  pauses : SMap Nat := []
  qps : SMap QueuePair := []
  outs : List XferOut := []
  nextXfer : Nat := 1
  ins : SMap XferIn := []
  answers : SMap Word := []
  /-- Page lists that firmware has built for transfers (R543): first state page and pages. -/
  lists : List (Nat × Nat) := []
  deriving DecidableEq, Repr, Inhabited

/-- What the edge sends (R534, R540, R541). -/
inductive NetOut where
  | response (dest : NetSrc) (bytes : List Byte)
  | pfc (prio : Nat)
  /-- To a module, by its entry of the peer table (R533, R542). -/
  | roce (peer : Nat) (entry : List Word) (m : RoceMsg)
  deriving DecidableEq, Repr, Inhabited


/-! ### Search and embedding unit (ch. 12) -/

/-- A span ranking (R486): its engine and the engine's number for it, the spans in rank order, how many have been returned,
and the page returned last. -/
structure Ranking where
  die : Nat := 0
  id : Nat := 0
  order : List Nat := []
  given : Nat := 0
  page : List Nat := []
  deriving DecidableEq, Repr, Inhabited

/-- A LOOKUP under owner pooling (R491): its item, ring position, module count, next stage, the block, the entries of each
output row, elements per row, the bound body, when the last chunk came, and the time it waits for one. -/
structure Pooling where
  batch : Nat := 0
  item : Item := {}
  table : Nat := 0
  base : Word := 0
  pos : Nat := 0
  count : Nat := 1
  stage : Nat := 0
  block : List (BitVec 32) := []
  rows : List Nat := []
  width : Nat := 1
  sinceNs : Nat := 0
  /-- POOL_TIMEOUT_US in nanoseconds, as at the item's arrival (R648). -/
  timeoutNs : Nat := 0
  deriving DecidableEq, Repr, Inhabited

/-- A row store entry (R496, R497): FILLING or VALID with the row's bytes and where they stand, prefetched and not yet read, last
read or claimed. -/
structure StoreRow where
  filling : Bool := true
  data : List Byte := []
  size : Nat := 0
  /-- The row's state address. -/
  addr : Nat := 0
  ahead : Bool := false
  lastNs : Nat := 0
  deriving DecidableEq, Repr, Inhabited

/-- The unit: rankings held and rank requests that wait, pooling lookups, published lists and tables whose completions are
due (with the base replaced), the row store and the reads of rows in the period (key: table · 2^40 + row), and when the period
began. -/
structure Seu where
  rankings : List Ranking := []
  rankWait : List Ranking := []
  pools : List Pooling := []
  lists : List (Item × Word) := []
  tables : List (Item × Word) := []
  /-- Items that arrived before their table's publish, with the BASE each is bound to (R495). -/
  bound : List (Item × Word) := []
  store : SMap StoreRow := []
  reads : SMap Nat := []
  windowNs : Nat := 0
  deriving DecidableEq, Repr, Inhabited


/-! ### What leaves the module -/

/-- Messages to another module of the node over the trail links or to another node (R39, ch. 03, 04, 09, 13, 19). -/
inductive Msg where
  | share (session : Word) (x : ShardShare)
  | shareDone (session : Word) (code : Nat)
  | reviveDone (session : Word) (code : Nat)
  | handoverAck (origin : Word) (custody : BitVec 32)
  | probe (origin : Word)
  | probeAnswer (origin : Word) (held : Bool) (custody : BitVec 32)
  | spanRequest (item : Item)
  | words (kind : Nat) (ws : List Word)
  /-- One XFER item of a sub-batch: the step, and up to two batch entries; the last one has LAST = 1 (R355). -/
  | subItem (last : Bool) (step : BitVec 32) (ws : List Word)
  /-- A session-parameter item: the step, and the payload words (R763). -/
  | params (session : Word) (step : BitVec 32) (ws : List Word)
  /-- The report of a refused tag for a queue of its issuer's module (R576). -/
  | refused (queue : Nat) (ws : List Word)
  deriving DecidableEq, Repr, Inhabited

/-- Everything the module sends to something outside it, in order. -/
inductive Out where
  | completion (c : Completion)
  | hostWrite (fn : Nat) (addr : Word) (ws : List Word)
  | toModule (module : Nat) (cls : Nat) (m : Msg)
  | larderData (next : Bool) (die : Nat) (la : Nat) (tally : Nat) (data : List Byte)
  | chunk (next : Bool) (id : Nat) (vals : List (BitVec 32))
  | net (port : Nat) (m : NetOut)
  /-- A flit: the parts of frames in the payload of a DATA flit, or the payload's words, and the control word (R568). -/
  | flit (port : Nat) (parts : List FlitPart) (payload : List Word) (ctl : Word)
  | mgmt (addr : Nat) (ws : List Word)
  deriving DecidableEq, Repr, Inhabited

/-! ### The machine -/

/-- The state of the module. -/
structure State where
  /-- The module's time base in nanoseconds (R8). -/
  now : Nat := 0
  /-- The commands that wait, first in first out (the model's own). -/
  pending : List Instr := []
  /-- When each periodic event last took effect, on the time base (see State.periodic). -/
  ticks : SMap Nat := []
  /-- Number of free values used so far (the model's own): each is `Config.x` of this counter. -/
  free : Nat := 0
  /-- Register file: values that differ from the reset value, by number of R637. -/
  regs : SMap Word := []
  /-- Shadows of RWS registers that differ from the value in effect (R17, R646). -/
  shadow : SMap Word := []
  /-- Byte contents of every memory (see Ops.lean for the address layout); unlisted bytes read 0. -/
  mem : List Host.Cell := []
  out : List Out := []
  plat : Plat := {}
  host : HostPort := {}
  hq : Hq := {}
  tly : Tly := {}
  tsm : Tsm := {}
  hmp : Hmp := {}
  kvs : Kvs := {}
  cmp : Compute := {}
  comp : Comp := {}
  txt : Txt := {}
  cfg : Cfg := {}
  fw : Fw := {}
  trl : SMap TrailPort := []
  fab : Fab := {}
  snp : Snap := {}
  dram : Dram := {}
  sett : Sett := {}
  net : Net := {}
  seu : Seu := {}
  flt : Flt := {}
  deriving DecidableEq, Repr, Inhabited

/-- Why the machine stops.  No command of the spec ends a run here: see '## Stops' in NOTES.md. -/
inductive Fault where
  /-- Never raised: the spec gives every row an effect or a report.  Safe. -/
  | neverRaised
  deriving DecidableEq, Repr

/-- Why a command has no meaning. -/
inductive Refusal where
  /-- An arm of exec not yet modelled; carries the mnemonic.  Safe. -/
  | notModelled (mnemonic : String)
  deriving DecidableEq, Repr

/-- The module at the start of the POWER_ON sequence (R708, R709, R714): every register at the Reset column's value,
no fuse blown, every tally 0, memories clear, no session, nothing waiting. -/
def State.reset : State := {}

end Sys2Proof.Machine
end

