-- ==== Sys2Proof/Machine/Ops.lean ====
section
/-! DEFINITION. The operations every unit shares: registers, byte memory, tallies, hardware queues, attention bits, host
completions and the event log. -/

namespace Sys2Proof.Machine

open Sys2Proof

/-! ### Registers (R14 to R18) -/

/-- The stored value of a register. -/
def State.reg (s : State) (k : Nat) : Word := SMap.get (regReset k) s.regs k

/-- Set the stored value of a register. -/
def State.setReg (s : State) (k : Nat) (v : Word) : State := { s with regs := s.regs.set (regReset k) k v }

/-- Field hi:lo of a register. -/
def State.field (s : State) (k hi lo : Nat) : Nat := bits (s.reg k) hi lo

/-- Set field hi:lo of a register. -/
def State.setField (s : State) (k hi lo v : Nat) : State := s.setReg k (setBits (s.reg k) hi lo v)

/-- Do something with other values in some registers, which it leaves as they are. -/
def State.withRegs (s : State) (rs : SMap Word) (f : State → State) : State :=
  if rs.isEmpty then f s
  else rs.foldl (fun t x => t.setReg x.1 (s.reg x.1)) (f (rs.foldl (fun t x => t.setReg x.1 x.2) s))

/-- Add to a counter register, wrapping at 2^64. -/
def State.bumpBy (s : State) (k n : Nat) : State := s.setReg k (s.reg k + BitVec.ofNat 64 n)

/-- Add 1 to a counter register. -/
def State.bump (s : State) (k : Nat) : State := s.bumpBy k 1

/-! ### When units run -/

/-- Rails are up, the X-dies have left reset, and no MODULE fault has stopped the module (R696, R714). -/
def State.live (s : State) : Bool :=
  s.plat.rails && 1 ≤ s.plat.stage && !s.plat.latched && !s.host.fatal

/-- The outcome of a command that acts only while the module is live: a module that is off or stopped stays as it is. -/
def gate (s : State) (f : State → State) : Host.Outcome State Fault Refusal :=
  .next (if s.live then f s else s)

/-- A periodic event: it takes effect when its period has passed since it last did, and not before (log entry 90). -/
def State.periodic (s : State) (event period : Nat) (f : State → State) : State :=
  if SMap.get 0 s.ticks event + period ≤ s.now then f { s with ticks := SMap.set 0 s.ticks event s.now } else s

/-- The periodic events: their keys in `ticks`. -/
def tickAge : Nat := 0
def tickBw : Nat := 1
def tickBin : Nat := 2
def tickCustody : Nat := 3
def tickCharge : Nat := 4
def tickRefill : Nat := 5
def tickAcct : Nat := 6
def tickPromote : Nat := 7
def tickDecay : Nat := 8
/-- PREFETCH_INTERVAL of fabric port k is event 16 + k. -/
def tickPrefetch : Nat := 16

/-- Apply a change only when a condition holds. -/
def State.iff (s : State) (c : Bool) (f : State → State) : State := if c then f s else s

/-! ### Byte memory

One address space of naturals holds every memory, `code · 2^64 + offset`: code 0 the larders (die · 2^29 + byte),
1 DRAM (page · 65,536 + byte), 2 the pool (the fabric address of R578), 3 the sett (logical page · 65,536 + byte),
4 the tile operand stores ((die · 34 + tile) · 2^21 + bank · 2^20 + byte), 5 the accumulator sets
((die · 34 + tile) · 2^19 + set · 2^16 + byte) and 6 the stationary registers ((die · 34 + tile) · 2^17 + which ·
2^16 + byte), tiles by physical number. -/

def larderAddr (die off : Nat) : Nat := die * 2 ^ 29 + off
def dramAddr (page off : Nat) : Nat := 1 * 2 ^ 64 + page * 65536 + off
def poolAddr (fabric : Nat) : Nat := 2 * 2 ^ 64 + fabric
def settAddr (lpn off : Nat) : Nat := 3 * 2 ^ 64 + lpn * 65536 + off
def storeAddr (die phys bank off : Nat) : Nat := 4 * 2 ^ 64 + (die * 34 + phys) * 2 ^ 21 + bank * 2 ^ 20 + off
def accAddr (die phys off : Nat) : Nat := 5 * 2 ^ 64 + (die * 34 + phys) * 2 ^ 19 + off
def statAddr (die phys which off : Nat) : Nat := 6 * 2 ^ 64 + (die * 34 + phys) * 2 ^ 17 + which * 2 ^ 16 + off

/-- Bytes of one larder (R26). -/
def larderBytes : Nat := 402653184

/-- Address of byte `off` of a page's home (R59). -/
def homeAddr (t : Tier) (loc off : Nat) : Nat :=
  match t with
  | .larder => larderAddr (loc / 2 ^ 38) (loc % 8192 * 65536 + off)
  | .dram => dramAddr loc off
  | .pool => poolAddr (loc / 2 ^ 32 * 2 ^ 56 + loc % 2 ^ 32 * 65536 + off)
  | .sett => settAddr loc off

def State.byte (s : State) (a : Nat) : Byte := SMap.get 0 s.mem a
def State.setByte (s : State) (a : Nat) (b : Byte) : State := { s with mem := SMap.set 0 s.mem a b }

/-- `n` bytes from an address upward. -/
def State.readBytes (s : State) (a n : Nat) : List Byte := (List.range n).map fun i => s.byte (a + i)

/-- Write bytes from an address upward. -/
def writeCells (m : List Host.Cell) (a : Nat) : List Byte → List Host.Cell
  | [] => m
  | b :: bs => writeCells (SMap.set 0 m a b) (a + 1) bs

def State.writeBytes (s : State) (a : Nat) (bs : List Byte) : State := { s with mem := writeCells s.mem a bs }

/-- A little-endian number of `n` bytes (R10). -/
def State.readNat (s : State) (a : Nat) : Nat → Nat
  | 0 => 0
  | n + 1 => (s.byte a).toNat + 256 * s.readNat (a + 1) n

def leBytes (v : Nat) : Nat → List Byte
  | 0 => []
  | n + 1 => BitVec.ofNat 8 v :: leBytes (v / 256) n

/-- The number that little-endian bytes spell (R10), and the word at the start, or at an offset, of a byte string. -/
def leWord : List Byte → Nat
  | [] => 0
  | b :: bs => b.toNat + 256 * leWord bs
def bytesWord (bs : List Byte) : Word := BitVec.ofNat 64 (leWord (bs.take 8))
def wordAt (bs : List Byte) (off : Nat) : Word := bytesWord (bs.drop off)

def State.readWord (s : State) (a : Nat) : Word := BitVec.ofNat 64 (s.readNat a 8)
def State.writeWord (s : State) (a : Nat) (w : Word) : State := s.writeBytes a (leBytes w.toNat 8)
def State.read32 (s : State) (a : Nat) : BitVec 32 := BitVec.ofNat 32 (s.readNat a 4)
def State.write32 (s : State) (a : Nat) (w : BitVec 32) : State := s.writeBytes a (leBytes w.toNat 4)

/-- The eight words at an address. -/
def State.readItem (s : State) (a : Nat) : Item :=
  ⟨s.readWord a, s.readWord (a + 8), s.readWord (a + 16), s.readWord (a + 24),
    s.readWord (a + 32), s.readWord (a + 40), s.readWord (a + 48), s.readWord (a + 56)⟩

/-- Write words from an address upward. -/
def State.writeWords (s : State) (a : Nat) (ws : List Word) : State :=
  s.writeBytes a (ws.flatMap fun w => leBytes w.toNat 8)

/-- Clear a range: no byte of it stays listed. -/
def zeroCells (m : List Host.Cell) (a n : Nat) : List Host.Cell := m.filter fun c => c.1 < a || a + n ≤ c.1
def State.zeroRange (s : State) (a n : Nat) : State := { s with mem := zeroCells s.mem a n }

/-- Copy a range: the destination is cleared and then takes every listed byte of the source. -/
def State.copyRange (s : State) (src dst n : Nat) : State :=
  let cells := s.mem.filter fun c => src ≤ c.1 && c.1 < src + n
  { s with mem := cells.foldr (fun c m => SMap.set 0 m (c.1 - src + dst) c.2) (zeroCells s.mem dst n) }

/-- The canonical form of the byte memory: addresses strictly rising, no entry equal to what an unlisted address reads as. -/
def Memory.wf (m : List Host.Cell) : Bool := SMap.sorted m && m.all fun c => c.2 != 0

def State.emit (s : State) (o : Out) : State := { s with out := s.out ++ [o] }

/-- The next free value's number. -/
def State.fresh (s : State) : Nat × State := (s.free, { s with free := s.free + 1 })

/-! ### Fuses (R720, R722) -/

def State.fuse (s : State) (i : Nat) : Bool := bit (SMap.get 0 s.plat.fuses (i / 64)) (i % 64)

/-- TIER_PERMIT of the protection map. -/
def State.tierPermit (s : State) (tclass : Nat) (t : Tier) : Bool := s.fuse (864 + 4 * tclass + t.code)

/-! ### Tag headers (R34 to R41) -/

def tagClass (w : Word) : Nat := bits w 35 32
def tagEpoch (w : Word) : BitVec 16 := BitVec.ofNat 16 (bits w 15 0)
def tagSeq (w : Word) : BitVec 16 := BitVec.ofNat 16 (bits w 31 16)
/-- A reserved CLASS or a nonzero reserved bit (R41): bits 63:56, FLAGS 15:6. -/
def tagBad (w : Word) : Bool := 10 ≤ tagClass w || bits w 63 56 ≠ 0 || bits w 55 46 ≠ 0
/-- The tag with LAST = 1. -/
def tagLast (w : Word) : Word := setBits w 40 40 1
/-- Flags of R38. -/
def tagSnap (w : Word) : Bool := bit w 41
def tagReissue (w : Word) : Word := setBits w 44 44 1
def flagLast : Nat := 1
def flagSnap : Nat := 2
def flagSpec : Nat := 4
def flagPinned : Nat := 8

/-- A tag of an item this module issues: no tier hint but where one is given, and the epoch current at its issue (R34, R586). -/
def State.mkTag (s : State) (session : Word) (cls flags hint : Nat) (seq : BitVec 16) : Tag :=
  ⟨session, fld 55 40 flags ||| fld 39 36 hint ||| fld 35 32 cls ||| fld 31 16 seq.toNat ||| fld 15 0 s.comp.map.epoch.toNat⟩

/-- Numbers of the reading units of this module's queues (R341), as its SEQ counters know them. -/
def readerUnit (reader : Nat) : Nat := 2 ^ 22 + reader

/-- The SEQ of the next item to a receiving unit in a class; the counter advances by 1 (R39). -/
def State.nextSeq (s : State) (receiver cls : Nat) : BitVec 16 × State :=
  let k := receiver * 16 + cls
  let q := SMap.get 0 s.hq.sendSeq k + 1
  (q, { s with hq.sendSeq := SMap.set 0 s.hq.sendSeq k q })

/-- An item of firmware under the next SEQ of its receiver and class, and the epoch current at its issue (R34, R39, R586). -/
def State.stamp (s : State) (receiver : Nat) (it : Item) : Item × State :=
  let r := s.nextSeq receiver (tagClass it.w1)
  ({ it with w1 := setBits it.w1 31 0 (r.1.toNat * 2 ^ 16 + s.comp.map.epoch.toNat) }, r.2)

/-! ### Tallies (R316 to R322) -/

def State.tally (s : State) (t : Nat) : BitVec 32 := SMap.get 0 s.tly.vals t

/-- Reclamation tallies (R179, R322). -/
def isReclaim (t : Nat) : Bool := t % 1024 = 1023

/-- Give a tally a value and wake every listed wait it satisfies, in order of registration (R318). -/
def State.putTally (s : State) (t : Nat) (v : BitVec 32) : State :=
  let hit := s.tly.waits.filter fun w => w.tally = t && reached v w.target
  let rest := s.tly.waits.filter fun w => !(w.tally = t && reached v w.target)
  let s := { s with
    tly.vals := SMap.set 0 s.tly.vals t v
    tly.waits := rest
    tly.wakes := s.tly.wakes ++ hit.map (fun (w : WaitEntry) => Wake.mk t w.issuer v) }
  s.bumpBy (Reg.tlyCnt 4) hit.length

/-- ADD n at a tally's home (R317); refused on a reclamation tally (R322). -/
def State.addTally (s : State) (t : Nat) (n : BitVec 32) : State :=
  if isReclaim t then s.bump (Reg.tlyCnt 7)
  else (s.putTally t (s.tally t + n)).bump (Reg.tlyCnt 0)

/-- SET v at a tally's home (R317); refused on a reclamation tally (R322). -/
def State.setTally (s : State) (t : Nat) (v : BitVec 32) : State :=
  if isReclaim t then s.bump (Reg.tlyCnt 7)
  else (s.putTally t v).bump (Reg.tlyCnt 1)

/-- A unit's completion raises a tally by 1 (R317). -/
def State.raise (s : State) (t : Nat) : State := s.addTally t 1

/-- Waits listed on the tallies homed on a die (R320). -/
def State.poolUsed (s : State) (die : Nat) : Nat := (s.tly.waits.filter fun w => w.tally / 1024 = die).length

/-! ### Composition map (R583) -/

/-- This module's number: PEER at RING_POS. -/
def State.self (s : State) : Nat := s.comp.map.peers.getD s.comp.map.ringPos 0

/-- The other modules of the node. -/
def State.peers (s : State) : List Nat :=
  (s.comp.map.peers.take s.comp.map.modules).filter fun m => m ≠ s.self

def State.seg (s : State) (n : Nat) : PoolSeg := SMap.get {} s.comp.map.segs n

/-! ### Epochs (R585) -/

/-- The check of a unit on an epoch, without the holding of newer items: 0, STALE_MAP or EPOCH_AHEAD. -/
def State.epochCode (s : State) (e : BitVec 16) : Nat :=
  if e = s.comp.map.epoch then 0
  else if (s.comp.old.map fun m => m.epoch) = some e then 0
  else if newer s.comp.map.epoch e then Code.epochAhead
  else Code.staleMap

/-- Handle an item by the map of its epoch: the old map's peers and segments while that one drains (R585); transactions carry the
epoch current at their issue (R586). -/
def State.byMap (s : State) (tag1 : Word) (f : State → State) : State :=
  match s.comp.old with
  | none => f s
  | some m =>
    if tagEpoch tag1 = m.epoch && m.epoch ≠ s.comp.map.epoch then
      { f { s with comp.map := { m with epoch := s.comp.map.epoch } } with comp.map := s.comp.map }
    else f s

/-! ### Trail links (R563 to R573) -/

def State.trailPort (s : State) (p : Nat) : TrailPort := SMap.get {} s.trl p
def State.setTrl (s : State) (p : Nat) (x : TrailPort) : State := { s with trl := s.trl.set {} p x }
def State.trlState (s : State) (p : Nat) : Nat := s.field (Reg.trlPort p) 63 62
def State.trlUp (s : State) (p : Nat) : Bool := s.trlState p = 2

/-- The ports of the NEXT and PREV bundles (R564). -/
def bundle (next : Bool) : List Nat := if next then [0, 1, 4, 5] else [2, 3, 6, 7]

/-- Ring distance to a module, if the map has it. -/
def State.ringDist (s : State) (m : Nat) : Option Nat :=
  let n := s.comp.map.modules
  ((s.comp.map.peers.take n).findIdx? fun x => x = m).map fun k => (k + n - s.comp.map.ringPos) % n

/-- The up ports a frame for a module may take (R565): the nearer bundle, or the other one. -/
def State.portsTo (s : State) (m : Nat) : List Nat :=
  match s.ringDist m with
  | none => []
  | some 0 => []
  | some d =>
    let near := (bundle (d ≤ s.comp.map.modules - d)).filter s.trlUp
    if near.isEmpty then (bundle (!(d ≤ s.comp.map.modules - d))).filter s.trlUp else near

/-- Frames of a port that are unacknowledged or not yet sent, oldest first. -/
def TrailPort.frames (x : TrailPort) : List FrameHead :=
  ((x.unacked.flatMap fun u => u.parts).filter fun q => q.last).map (·.head) ++ x.cur.map (fun c => c.2.1) ++ x.waiting

/-- Send credits left on a VC. -/
def TrailPort.avail (x : TrailPort) (vc : Nat) : Nat :=
  x.grants.getD vc 0 - ((x.used.getD vc 0) - (x.back.getD vc 0)).toNat

/-- The next frame of a VC that may start: its oldest, when the port holds credits for the whole of it (R573). -/
def TrailPort.next (x : TrailPort) (vc : Nat) : Option FrameHead :=
  (x.waiting.find? fun f => f.vc = vc).filter fun f => f.credits ≤ x.avail vc

/-- A VC has bytes to send. -/
def TrailPort.ready (x : TrailPort) (vc : Nat) : Bool := (SMap.lookup x.cur vc).isSome || (x.next vc).isSome

/-- The VC of the next flit (R573): VC 0 first; VC 1 and VC 2 alternate. -/
def TrailPort.pick (x : TrailPort) : Option Nat :=
  if x.ready 0 then some 0
  else if x.ready 1 && (x.bulk = 2 || !x.ready 2) then some 1
  else if x.ready 2 then some 2
  else none

/-- Fill a flit's payload from the frames of a VC, starting frames as credits allow (R573). -/
def TrailPort.fill (vc : Nat) : Nat → Nat → TrailPort → List FlitPart × TrailPort
  | 0, _, x => ([], x)
  | fuel + 1, room, x =>
    if room = 0 then ([], x)
    else
      match SMap.lookup x.cur vc with
      | some (f, done) =>
        let n := min room (f.size - done)
        let last := decide (f.size ≤ done + n)
        let x := { x with cur := if last then SMap.erase x.cur vc else SMap.put x.cur vc (f, done + n) }
        let r := x.fill vc fuel (room - n)
        (⟨f, done, n, last⟩ :: r.1, r.2)
      | none =>
        match x.next vc with
        | none => ([], x)
        | some f =>
          { x with
            waiting := x.waiting.erase f
            cur := SMap.put x.cur vc (f, 0)
            used := x.used.set vc (x.used.getD vc 0 + BitVec.ofNat 12 f.credits) }.fill vc fuel room

/-- The control word of a flit (R568): the current ACK and the credit total of the next VC in the rotation (R570). -/
def TrailPort.ctl (x : TrailPort) (ftype vc : Nat) (seq : BitVec 12) : Word :=
  fld 63 60 ftype ||| fld 59 58 vc ||| fld 57 46 seq.toNat ||| fld 45 34 (x.expect - 1).toNat ||| fld 33 32 x.rot |||
    fld 31 20 (x.returned.getD x.rot 0).toNat

/-- Send a flit. -/
def State.sendFlit (s : State) (p ftype : Nat) (u : DataFlit) (payload : List Word) : State :=
  let x := s.trailPort p
  (s.setTrl p { x with rot := (x.rot + 1) % 3 }).emit (.flit p u.parts payload (x.ctl ftype u.vc u.seq))

/-- Send one new DATA flit, if the replay buffer has room and a VC has bytes (R570, R573). -/
def State.nextFlit (s : State) (p : Nat) : Option State :=
  let x := s.trailPort p
  if 2047 ≤ x.unacked.length then none
  else
    x.pick.map fun vc =>
      let r := x.fill vc 32 240
      let u : DataFlit := ⟨x.seq, vc, r.1⟩
      let x := { r.2 with
        unacked := x.unacked ++ [u]
        seq := x.seq + 1
        bulk := if vc = 0 then x.bulk else vc
        ackNs := if x.unacked.isEmpty then s.now else x.ackNs }
      ((s.setTrl p x).sendFlit p 1 u []).bump (Reg.trlCnt 0)

/-- Send waiting frames while credits and the replay buffer allow. -/
def pumpLoop (p : Nat) : Nat → State → State
  | 0, s => s
  | fuel + 1, s =>
    match s.nextFlit p with
    | none => s
    | some s => pumpLoop p fuel s

def State.pump (s : State) (p : Nat) : State := pumpLoop p 2047 s

/-- Put a frame on the port of its stream: the port that holds its unacknowledged frames, else by R566.  A frame for a module that the
map does not have is discarded and counted (R565); with no port up in either direction the frame is lost (TRAIL_DOWN). -/
def State.sendFrame (s : State) (f : FrameHead) : State :=
  if (s.ringDist f.dest).isNone then s.bump (Reg.trlCnt 6)
  else
    let ups := s.portsTo f.dest
    match ups with
    | [] => s
    | p0 :: _ =>
      let busy := ups.find? fun p => (s.trailPort p).frames.any f.sameStream
      let p := busy.getD (ups.getD ((f.stream + f.dest + f.cls) % ups.length) p0)
      (s.setTrl p { s.trailPort p with waiting := (s.trailPort p).waiting ++ [f] }).pump p

/-- Frames of a stream that are not yet acknowledged on the first hop. -/
def State.unsent (s : State) (p : FrameHead → Bool) : Bool := (List.range 8).any fun k => (s.trailPort k).frames.any p

/-- Numbers of the receiving units of this module's block moves and fabric transactions: a tier, a pool segment. -/
def tierUnit (t : Tier) : Nat := 2 ^ 20 + t.code
def segUnit (seg : Nat) : Nat := 2 ^ 21 + seg

/-- The most items of one class that a sender has outstanding to one receiver (R39). -/
def seqWindow : Nat := 16384

/-- Number of a receiving unit of another module, as this module's SEQ counters know it (R39): unit `unit` of module `m`. -/
def peerUnit (m unit : Nat) : Nat := 256 * (m + 1) + unit

/-- Send a frame under a tag of its own, with the next SEQ of its receiver and class.  The replay buffers of the ports (R570) hold
fewer than 16,384 frames, so the bound of R39 on outstanding items holds. -/
def State.sendTagged (s : State) (f : FrameHead) (session : Word) (cls flags : Nat) : State :=
  let r := s.nextSeq (peerUnit f.dest f.stream) cls
  let tag := s.mkTag session cls flags 0xF r.1
  r.2.sendFrame { f with tag0 := tag.session, tag1 := tag.w1 }

/-- Send the frames of a transfer in order, LAST = 1 on the final one (R575). -/
def State.sendFrames (s : State) (session : Word) (cls : Nat) : List FrameHead → State
  | [] => s
  | [f] => s.sendTagged f session cls flagLast
  | f :: fs => (s.sendTagged f session cls 0).sendFrames session cls fs

/-- The module at the next or the previous ring position. -/
def State.neighbour (s : State) (next : Bool) : Nat :=
  let n := s.comp.map.modules
  s.comp.map.peers.getD ((s.comp.map.ringPos + (if next then 1 else n - 1)) % n) 0

/-- Return receive credits of a VC to the peer (R573). -/
def State.giveCredits (s : State) (p vc n : Nat) : State :=
  let x := s.trailPort p
  s.setTrl p { x with returned := x.returned.set vc (x.returned.getD vc 0 + BitVec.ofNat 12 n) }

/-! ### Hardware queues (R324 to R334) -/

def State.queue (s : State) (q : Nat) : Queue := SMap.get {} s.hq.queues q
def State.setQueue (s : State) (q : Nat) (x : Queue) : State := { s with hq.queues := s.hq.queues.set {} q x }
def State.qDepth (s : State) (q : Nat) : Nat := s.field (Reg.hqQcfg q) 41 29
def State.qReader (s : State) (q : Nat) : Nat := s.field (Reg.hqQcfg q) 28 25

/-- Enter an item and raise the notify tally (R329). -/
def State.enter (s : State) (q : Nat) (e : QEntry) : State :=
  let x := s.queue q
  let s := (s.setQueue q { x with items := x.items ++ [e] }).bump (Reg.hqCnt 0)
  s.iff (bit (s.reg (Reg.hqQcfg q)) 12) fun s => s.raise (s.field (Reg.hqQcfg q) 11 0)

/-- Clock of a die in MHz at its DVFS step (R312). -/
def State.dieMhz (s : State) (die : Nat) : Nat := [600, 900, 1200, 1500].getD (s.field (Reg.seqStatus die) 7 4) 1500

/-- Cycles a die's arithmetic islands make in a time: each lasts the longer by the die's stretch, in eighths (R47). -/
def State.dieCycles (s : State) (die ns : Nat) : Nat :=
  ns * s.dieMhz die * 8 / (1000 * (8 + SMap.get 0 s.plat.stretch die))

/-- Count the cycles a stall has lasted so far (R274, R315). -/
def State.runStall (s : State) (die : Nat) (d : Die) : Die × State :=
  if d.stalls.isEmpty then (d, s)
  else
    let c := s.dieCycles die (s.now - d.stallFrom)
    ({ d with cycle := d.cycle + c, bundleAt := d.cycle + c, stallCycles := d.stallCycles + c, stallFrom := s.now },
      s.bumpBy (Reg.seqCnt 2) c)

/-- Give a die the stalls that are left: the last to clear ends the stall, whose cycles are counted (R274, R315). -/
def State.unstall (s : State) (die : Nat) (d : Die) (left : List Stall) : State :=
  if left.isEmpty && !d.stalls.isEmpty then
    let r := s.runStall die d
    let d := { r.1 with stalls := [], state := if d.state = .stalled then .running else d.state }
    { r.2 with cmp.dies := r.2.cmp.dies.set {} die d }
  else { s with cmp.dies := s.cmp.dies.set {} die { d with stalls := left } }

/-- Give a die's cycles a stretch from now on (R47); the cycles of a stall so far keep the old one. -/
def State.setStretch (s : State) (die k : Nat) : State :=
  let r := s.runStall die (SMap.get {} s.cmp.dies die)
  { r.2 with cmp.dies := r.2.cmp.dies.set {} die r.1, plat.stretch := SMap.set 0 r.2.plat.stretch die k }

/-- The stretch of a die's cycles in eighths, and whether stretching is active on the module. -/
def State.stretchOf (s : State) (die : Nat) : Nat := SMap.get 0 s.plat.stretch die
def State.stretching (s : State) : Bool := [0, 1, 2, 3].any fun d => 0 < s.stretchOf d

/-- A stream's QPUSH stall at a die clears when its item has entered (R274). -/
def State.clearPush (s : State) (die : Nat) : State :=
  let d := SMap.get {} s.cmp.dies die
  s.unstall die d (d.stalls.filter fun x => match x with
    | .push .. => false
    | _ => true)

/-- After an item of a hardware push has entered: its tally is raised, its stream goes on. -/
def State.pushed (s : State) (w : WaitPush) : State :=
  let s := match w.after with
    | some t => s.raise t
    | none => s
  let s := match w.port with
    | some p => s.giveCredits p 0 2
    | none => s
  match w.die with
  | some d => s.clearPush d
  | none => s

/-- A hardware push (R327): entered at once, or held while the queue is full.  A disabled queue takes nothing (R325). -/
def State.hwPush (s : State) (q : Nat) (w : WaitPush) (bad : Bool := false) : State :=
  let x := s.queue q
  if s.qDepth q = 0 then
    let s := match w.port with
      | some p => s.giveCredits p 0 2
      | none => s
    match w.after with
    | some t => s.raise t
    | none => s
  else if x.items.length < s.qDepth q then (s.enter q ⟨w.prio, w.item, bad⟩).pushed w
  else (s.setQueue q { x with waiting := x.waiting ++ [w] }).bump (Reg.hqCnt 4)

/-- Waiting pushes enter in order while there is room (R327). -/
def admitLoop (q : Nat) : List WaitPush → State → State
  | [], s => s
  | w :: ws, s =>
    if (s.queue q).items.length < s.qDepth q then
      let s := s.setQueue q { s.queue q with waiting := ws }
      admitLoop q ws ((s.enter q ⟨w.prio, w.item, false⟩).pushed w)
    else s

def State.letIn (s : State) (q : Nat) : State := admitLoop q (s.queue q).waiting s

/-- The lowest level that holds an item (R326). -/
def lowestLevel (l : List QEntry) : Option Nat := minNat? (l.map (·.prio))

/-- Take the oldest item of a level out of a list in order of arrival. -/
def takeLevel (p : Nat) : List QEntry → Option (QEntry × List QEntry)
  | [] => none
  | e :: l => if e.prio = p then some (e, l) else (takeLevel p l).map fun r => (r.1, e :: r.2)

/-- The next good item by R326, discarding items with an uncorrectable error on the way (R334): the item, the list
left, and how many were lost.  `fuel` is the list's length. -/
def popGood : Nat → List QEntry → Option QEntry × List QEntry × Nat
  | 0, l => (none, l, 0)
  | fuel + 1, l =>
    match lowestLevel l with
    | none => (none, l, 0)
    | some p =>
      match takeLevel p l with
      | none => (none, l, 0)
      | some (e, rest) =>
        if e.bad then
          let r := popGood fuel rest
          (r.1, r.2.1, r.2.2 + 1)
        else (some e, rest, 0)

/-- The items a run of `popGood` loses, for R698. -/
def lostItems : Nat → List QEntry → List Item
  | 0, _ => []
  | fuel + 1, l =>
    match lowestLevel l with
    | none => []
    | some p =>
      match takeLevel p l with
      | none => []
      | some (e, rest) => if e.bad then e.item :: lostItems fuel rest else []

/-! ### Attention and host completions (R673 to R677) -/

def State.fn (s : State) (f : Nat) : HostFn := SMap.get {} s.host.fns f
def State.setFn (s : State) (f : Nat) (x : HostFn) : State := { s with host.fns := s.host.fns.set {} f x }
def HostFn.qp (x : HostFn) (q : Nat) : QPair := SMap.get {} x.qps q
def HostFn.setQp (x : HostFn) (q : Nat) (p : QPair) : HostFn := { x with qps := x.qps.set {} q p }

/-- The highest attention value pending (R674). -/
def attnTop (a : BitVec 8) : Nat :=
  if a.getLsbD 7 then 7 else if a.getLsbD 6 then 6 else if a.getLsbD 5 then 5 else if a.getLsbD 4 then 4
  else if a.getLsbD 3 then 3 else if a.getLsbD 2 then 2 else if a.getLsbD 1 then 1 else 0

/-- Write a completion record (R673): status, phase and identity in word 0, then DETAIL, DATA and the time of completion. -/
def State.writeRecord (s : State) (c : HostCmd) (code : Nat) (detail data : Word) (doneNs : Nat) : State :=
  let f := s.fn c.fn
  let q := f.qp c.qp
  let r0 := fld 63 61 (attnTop f.attn) ||| fld 60 48 code ||| fld 47 47 (bnat q.phase) ||| fld 43 40 c.qp
    ||| fld 39 32 c.opcode ||| fld 15 0 c.cid
  let wrap := q.cqTail + 1 = q.cqSize
  let q' := { q with cqTail := if wrap then 0 else q.cqTail + 1, phase := if wrap then !q.phase else q.phase }
  (s.setFn c.fn (f.setQp c.qp q')).emit (.completion
    { fn := c.fn, qp := c.qp, addr := q.cqBase + BitVec.ofNat 64 (32 * q.cqTail), r0 := r0, r1 := detail, r2 := data,
      r3 := BitVec.ofNat 64 doneNs })

/-- IDE is required and the function's stream is not Secure (R658). -/
def State.ideBlocked (s : State) (f : Nat) : Bool := s.fuse 930 && !(s.fn f).ideSecure

/-- Complete a host command in progress: its record is written, held for IDE, or dropped (R658, R659, R663). -/
def State.complete (s : State) (id code : Nat) (detail data : Word) : State :=
  match s.host.cmds.find? (fun c => c.id = id) with
  | none => s
  | some c =>
    let s := { s with host.cmds := s.host.cmds.filter fun c => c.id ≠ id }
    let code := if c.discarded then Code.discarded else code
    if c.silent then s
    else if s.ideBlocked c.fn then
      let f := s.fn c.fn
      s.setFn c.fn { f with held := f.held ++ [⟨c, code, detail, data, s.now⟩] }
    else s.writeRecord c code detail data s.now

/-- A command may begin: every earlier command of its ring has begun, and with FENCE every one has completed
(R665, R666). -/
def State.mayBegin (s : State) (c : HostCmd) : Bool :=
  s.host.cmds.all fun e => !(e.fn = c.fn && e.qp = c.qp && e.id < c.id) || (e.began && !c.fence)

/-- The fetched command with an identifier and an opcode that may begin now. -/
def State.cmd? (s : State) (id opcode : Nat) : Option HostCmd :=
  s.host.cmds.find? fun c => c.id = id && c.opcode = opcode && !c.began && s.mayBegin c

/-- A command in progress that has begun. -/
def State.begun? (s : State) (id opcode : Nat) : Option HostCmd :=
  s.host.cmds.find? fun c => c.id = id && c.opcode = opcode && c.began

/-- A command begins and goes on. -/
def State.began (s : State) (id : Nat) : State :=
  { s with host.cmds := s.host.cmds.map fun (c : HostCmd) =>
      if c.id = id then { c with began := true, sinceNs := s.now } else c }

def HostCmd.arg (c : HostCmd) (i : Nat) : Word := c.args.getD i 0

/-- Complete the WATCH commands a function's attention bits satisfy (R677). -/
def watchLoop (f : Nat) : List HostCmd → State → State
  | [], s => s
  | c :: cs, s =>
    let a := (s.fn f).attn.toNat / 2 * 2
    let hit := c.fn = f && c.opcode = 1 && c.began && (a &&& (bits (c.arg 0) 7 1 * 2)) ≠ 0
    watchLoop f cs (if hit then s.complete c.id 0 (BitVec.ofNat 64 a) 0 else s)

/-- Set an attention bit in both functions (R676). -/
def State.setAttn (s : State) (v : Nat) : State :=
  [0, 1].foldl (fun s f =>
    let x := s.fn f
    watchLoop f s.host.cmds (s.setFn f { x with attn := x.attn ||| BitVec.ofNat 8 (2 ^ v) })) s

/-! ### Event log (R700) -/

/-- Store a register word at an index of the event ring. -/
def State.putEvent (s : State) (k i : Nat) (w : Word) : State := s.setReg (Reg.fltEvent (4 * k + i)) w

/-- The four words of an event record. -/
def State.eventWords (s : State) (k : Nat) (w1 session detail : Word) : State :=
  (((s.putEvent k 0 (BitVec.ofNat 64 s.now)).putEvent k 1 w1).putEvent k 2 session).putEvent k 3 detail

/-- Write one event record, count it in FLT.LOG.WRITTEN, then set the LOG attention. -/
def State.event (s : State) (code domain die unit step : Nat) (session detail : Word) : State :=
  let n := s.field Reg.fltLog 63 32
  let w1 := fld 63 48 code ||| fld 47 44 domain ||| fld 43 40 die ||| fld 39 32 unit ||| fld 31 0 step
  ((s.eventWords (n % 256) w1 session detail).setField Reg.fltLog 63 32 (n + 1)).setAttn 1

/-- A report of POISONED is recorded; the other losses are recorded where they are met (R700). -/
def State.noteReport (s : State) (code : Nat) (session detail : Word) : State :=
  s.iff (code = Code.poisoned) fun s => s.event code 0 4 255 0 session detail

/-- A MODULE domain fault (R696): FATAL is set with its code, the FATAL attention follows. -/
def State.moduleFault (s : State) (code : Nat) (detail : Word) : State :=
  let s := s.event code 4 4 255 0 0 detail
  let s := s.setAttn 7
  { s with host.fatal := true, host.fatalCode := code }

/-- An uncorrectable error in a page-table page met by a walk for a state address (R61, R611): TABLE_FAULT of the whole module. -/
def State.tableFault (s : State) (addr : Nat) : State := s.moduleFault Code.tableFault (BitVec.ofNat 64 addr)

/-- A sampler state as the module takes it: eight words, reserved bits 0 (R12, R361). -/
def samplerClean (ws : List Word) : List Word :=
  let w := fun i => ws.getD i 0
  [w 0, w 1, setBits (setBits (w 2) 63 46 0) 27 16 0, w 3, w 4, setBits (setBits (w 5) 63 32 0) 30 18 0, 0, 0]

/-! ### Leaving PARKED (R746) -/

/-- Bytes whose contents are undefined take free values. -/
def State.undefRange (s : State) (r : Nat × Nat) : State :=
  let base := s.free
  ({ s with free := base + r.2 }).writeBytes r.1 ((List.range r.2).map fun i => Config.undefByte (base + i))

/-- The gated C-dies lost their contents: operand stores and accumulator sets are undefined (R746). -/
def State.ungate (s : State) : State :=
  (s.undefRange (storeAddr 0 0 0 0, 4 * 34 * 2 ^ 21)).undefRange (accAddr 0 0 0, 4 * 34 * 2 ^ 19)

/-- Leave PARKED for SERVING. -/
def State.unpark (s : State) : State :=
  ({ s with plat.parkedSince := none }.ungate).setField Reg.dramStatus 1 1 0

/-- The arrival of work while PARKED makes the module leave that state first (R746). -/
def State.wake (s : State) : State := s.iff s.plat.parkedSince.isSome State.unpark

/-! ### Messages to the node's modules -/

/-- The session a message belongs to; 0 is the null handle (R35). -/
def Msg.session : Msg → Word
  | .share h _ => h
  | .shareDone h _ => h
  | .reviveDone h _ => h
  | .spanRequest it => it.w0
  | .params h _ _ => h
  | .words 10 ws => ws.headD 0
  | .words 16 ws => ws.headD 0
  | _ => 0

/-- LAST of a message's tag: every message is one item but a sub-batch (R38, R355). -/
def Msg.last : Msg → Bool
  | .subItem last _ _ => last
  | _ => true

/-- The queue a message names. -/
def Msg.queue : Msg → Nat
  | .refused q _ => q
  | _ => 0

/-- An item for another module: an ITEM frame of 80 bytes on the trail links (R574), under a tag with the message's session;
firmware sends as stream 0x20.  The spec names no destination queue but that of R576: queue 0 stands for the others (log entry
108). -/
def State.send (s : State) (m cls : Nat) (msg : Msg) : State :=
  (s.emit (.toModule m cls msg)).sendTagged (itemHead m s.self 32 0 msg.queue) msg.session cls (if msg.last then flagLast else 0)
/-- Larder bytes for the neighbour's larder: LARDER_DATA frames of CLASS KVRING on the mover's stream (R282, R575). -/
def State.sendRing (s : State) (next : Bool) (stream die la tally : Nat) (data : List Byte) : State :=
  (s.emit (.larderData next die la tally data)).sendFrames 0 3
    (dataFrames (s.neighbour next) s.self stream data.length die la tally)
/-- A chunk of a reduction or of an owner-pooling item for the neighbour. -/
def State.sendChunk (s : State) (next : Bool) (cls id : Nat) (vals : List (BitVec 32)) : State :=
  (s.emit (.chunk next id vals)).sendFrames 0 cls
    (dataFrames (s.neighbour next) s.self 33 (128 * ceilDiv (4 * vals.length) 128) 0 0 0)
def State.sendAll (s : State) (cls : Nat) (msg : Msg) : State :=
  s.peers.foldl (fun s m => s.send m cls msg) s

end Sys2Proof.Machine
end

