-- ==== Sys2Proof/Machine/Tally.lean ====
section
/-! DEFINITION. Tally operations at their homes (R316 to R323, R336 to R339). -/

namespace Sys2Proof.Machine

open Sys2Proof

/-- A core's result register after an operation that answers at once: DONE, STATUS and the returned value (R337). -/
def State.coreResult (s : State) (c status : Nat) (v : BitVec 32) : State :=
  s.setReg (Reg.tlyResult c) (fld 63 63 1 ||| fld 47 32 status ||| fld 31 0 v.toNat)

/-- A core's result register while its wait is listed or polled (R337). -/
def State.coreWaiting (s : State) (c : Nat) : State := s.setReg (Reg.tlyResult c) (fld 62 62 1)

/-- Give the issuer its answer: a core's result register, a stream's YREAD register, or nothing. -/
def State.answer (s : State) (i : Issuer) (status : Nat) (v : BitVec 32) : State :=
  match i with
  | .core c => s.coreResult c.val status v
  | _ => s

/-- Forget the stream operation an arriving ADD or SET was (R294). -/
def State.arrive (s : State) (i : Issuer) (t : Nat) (isSet : Bool) (v : BitVec 32) : State :=
  match i with
  | .seq d => { s with tly.sent := s.tly.sent.erase ⟨d.val, t, isSet, v⟩ }
  | _ => s

/-- ADD at a tally's home (R317, R322): the value rises by n, the wait list is tested, the issuer gets the old value. -/
def State.opAdd (s : State) (issuer : Issuer) (t : Nat) (n : BitVec 32) : State :=
  let old := s.tally t
  ((s.arrive issuer t false n).addTally t n).answer issuer (if isReclaim t then Code.invalidField else 0)
    (if isReclaim t then 0 else old)

/-- TALLY_ADD (R317). -/
def execTallyAdd (issuer : Issuer) (tally : BitVec 12) (n : BitVec 32) (s : State) : Host.Outcome State Fault Refusal :=
  gate s fun s => s.opAdd issuer tally.toNat n

/-- SET at a tally's home (R317, R322): the value becomes v, the wait list is tested, the issuer gets the old value. -/
def State.opSet (s : State) (issuer : Issuer) (t : Nat) (v : BitVec 32) : State :=
  let old := s.tally t
  ((s.arrive issuer t true v).setTally t v).answer issuer (if isReclaim t then Code.invalidField else 0)
    (if isReclaim t then 0 else old)

/-- TALLY_SET (R317). -/
def execTallySet (issuer : Issuer) (tally : BitVec 12) (value : BitVec 32) (s : State) : Host.Outcome State Fault Refusal :=
  gate s fun s => s.opSet issuer tally.toNat value

/-- Is a stall the YREAD of a tally? -/
def Stall.isRead (t : Nat) : Stall → Bool
  | .read u _ => u = t
  | _ => false

def State.die (s : State) (d : Nat) : Die := SMap.get {} s.cmp.dies d
def State.setDie (s : State) (d : Nat) (x : Die) : State := { s with cmp.dies := s.cmp.dies.set {} d x }

/-- A YREAD's value reaches its register and its stall clears (R274, R292). -/
def State.readDone (s : State) (die t : Nat) (v : BitVec 32) : State :=
  let d := s.die die
  let regs := d.stalls.foldl (fun r x => match x with
    | .read u rd => if u = t && rd ≠ 0 then SMap.set 0 r rd (v.setWidth 64) else r
    | _ => r) d.regs
  s.unstall die { d with regs := regs } (d.stalls.filter fun x => !x.isRead t)

/-- READ at a tally's home (R317): the value is returned; a stalled YREAD of it completes. -/
def State.opRead (s : State) (issuer : Issuer) (t : Nat) : State :=
  let v := s.tally t
  let s := s.bump (Reg.tlyCnt 2)
  match issuer with
  | .core c => s.coreResult c.val 0 v
  | .seq d => s.readDone d.val t v
  | .unit => s

/-- TALLY_READ (R317). -/
def execTallyRead (issuer : Issuer) (tally : BitVec 12) (s : State) : Host.Outcome State Fault Refusal :=
  gate s fun s => s.opRead issuer tally.toNat

/-- Every wait of one bundle is judged on the values the sequencer now observes (R293): the stall clears when all of
them hold at once. -/
def State.waitDone (s : State) (die : Nat) : State :=
  let d := s.die die
  let hold := d.stalls.all fun x => match x with
    | .wait u target => reached (s.tally u) target
    | _ => true
  s.iff hold fun s => s.unstall die d (d.stalls.filter fun x => match x with
    | .wait .. => false
    | _ => true)

/-- A satisfied wait reaches its waiter: a core's result, or a stream's stall (R318, R337). -/
def State.satisfied (s : State) (i : Issuer) (v : BitVec 32) : State :=
  match i with
  | .core c => s.coreResult c.val 0 v
  | .seq d => s.waitDone d.val
  | .unit => s

/-- Drop an issuer's pending waits, those on one tally or all of a core's; a wake on its way to a cancelled wait is ignored
(R321). -/
def State.dropWaits (s : State) (p : WaitEntry → Bool) : State :=
  { s with tly.waits := s.tly.waits.filter fun w => !p w, tly.polled := s.tly.polled.filter fun w => !p w
           tly.wakes := s.tly.wakes.filter fun w => !p (WaitEntry.mk w.tally w.issuer 0) }

/-- Does a new WAIT of an issuer replace this pending wait (R321)? -/
def replaces (i : Issuer) (t : Nat) (w : WaitEntry) : Bool :=
  match i with
  | .core _ => w.issuer = i
  | _ => w.issuer = i && w.tally = t

/-- The highest number of pool entries in use since reset or since CLEAR_PEAK (R338). -/
def State.notePeak (s : State) (die : Nat) : State :=
  let u := s.poolUsed die
  s.iff (s.field (Reg.tlyPool die) 28 16 < u) fun s => s.setField (Reg.tlyPool die) 28 16 u

/-- WAIT at a tally's home (R318, R320, R321): answered at once when the test passes, else listed, or polled when the die's wait
pool is full. -/
def State.opWait (s : State) (issuer : Issuer) (t : Nat) (target : BitVec 32) : State :=
  let old := ((s.tly.waits ++ s.tly.polled).filter (replaces issuer t)).length
  let s := (s.dropWaits (replaces issuer t)).bumpBy (Reg.tlyCnt 6) old
  if reached (s.tally t) target then s.satisfied issuer (s.tally t)
  else
    let s := match issuer with
      | .core c => s.coreWaiting c.val
      | _ => s
    if s.poolUsed (t / 1024) < 4096 then
      (({ s with tly.waits := s.tly.waits ++ [WaitEntry.mk t issuer target] }).bump (Reg.tlyCnt 3)).notePeak (t / 1024)
    else ({ s with tly.polled := s.tly.polled ++ [WaitEntry.mk t issuer target] }).bump (Reg.tlyCnt 5)

/-- TALLY_WAIT (R318). -/
def execTallyWait (issuer : Issuer) (tally : BitVec 12) (target : BitVec 32) (s : State) : Host.Outcome State Fault Refusal :=
  gate s fun s => s.opWait issuer tally.toNat target

/-- CANCEL at a tally's home (R317, R321): the issuer's pending wait on the tally goes; a core's waiting result clears. -/
def State.opCancel (s : State) (issuer : Issuer) (t : Nat) : State :=
  let p := fun (w : WaitEntry) => w.issuer = issuer && w.tally = t
  let n := ((s.tly.waits ++ s.tly.polled).filter p).length
  let s := ((s.dropWaits p).bumpBy (Reg.tlyCnt 6) n)
  match issuer with
  | .core c => s.coreResult c.val 0 0
  | _ => s

/-- TALLY_CANCEL (R317). -/
def execTallyCancel (issuer : Issuer) (tally : BitVec 12) (s : State) : Host.Outcome State Fault Refusal :=
  gate s fun s => s.opCancel issuer tally.toNat

/-- A write of TLY.OPc with GO = 1 (R336, R337): DONE clears and one operation is issued; a reserved OP is refused (R13). -/
def State.coreOp (s : State) (c : Fin 4) (v : Word) : State :=
  let s := s.setField (Reg.tlyResult c.val) 63 63 0
  let t := bits v 55 44
  let x := BitVec.ofNat 32 (bits v 31 0)
  match bits v 62 60 with
  | 0 => s.opRead (.core c) t
  | 1 => s.opAdd (.core c) t x
  | 2 => s.opSet (.core c) t x
  | 3 => s.opWait (.core c) t x
  | 4 => s.opCancel (.core c) t
  | _ => s.coreResult c.val Code.invalidField 0

/-- TALLY_WAKE (R318, R321): a wake in flight reaches its waiter; one whose wait was cancelled is ignored. -/
def execTallyWake (issuer : Issuer) (tally : BitVec 12) (s : State) : Host.Outcome State Fault Refusal :=
  gate s fun s =>
    match s.tly.wakes.find? fun w => w.issuer = issuer && w.tally = tally.toNat with
    | none => s
    | some w =>
      let s := { s with tly.wakes := s.tly.wakes.erase w }
      match issuer with
      | .core c => s.iff (bit (s.reg (Reg.tlyResult c.val)) 62) fun s => s.satisfied issuer w.value
      | _ => s.satisfied issuer w.value

/-- WAIT_POLL (R320): an unlisted waiter reads the tally; its wait ends when the test of R318 passes. -/
def execWaitPoll (issuer : Issuer) (tally : BitVec 12) (s : State) : Host.Outcome State Fault Refusal :=
  gate s fun s =>
    match s.tly.polled.find? fun w => w.issuer = issuer && w.tally = tally.toNat with
    | none => s
    | some w =>
      let s := s.bump (Reg.tlyCnt 2)
      if reached (s.tally tally.toNat) w.target then
        ({ s with tly.polled := s.tly.polled.erase w }).satisfied issuer (s.tally tally.toNat)
      else s

/-- A write of TLY.POOLn with CLEAR_PEAK = 1: PEAK becomes the current USED. -/
def State.clearPeak (s : State) (die : Nat) : State := s.setField (Reg.tlyPool die) 28 16 (s.poolUsed die)

/-- CLEAR_PEAK (R338). -/
def execClearPeak (die : Fin 4) (s : State) : Host.Outcome State Fault Refusal :=
  gate s fun s => s.clearPeak die.val

end Sys2Proof.Machine
end

