-- ==== Sys2Proof/Machine/QueueOps.lean ====
section
/-! DEFINITION. Hardware queue commands (R324 to R346). -/

namespace Sys2Proof.Machine

open Sys2Proof

/-- Senders of this module's own items among the senders of R39; a frame's sender is numbered by its module and stream, the cores
are sender 0. -/
def dieSender (die : Nat) : Nat := 2 ^ 20 + die

/-- Where the last SEQ accepted from a sender in a class by a receiving unit is kept (R39). -/
def seqKey (sender reader cls : Nat) : Nat := (sender * 16 + reader) * 16 + cls

/-- A duplicate by R39: SEQ is not newer than the last accepted. -/
def State.duplicate (s : State) (key : Nat) (w1 : Word) : Bool :=
  match SMap.lookup s.hq.lastSeq key with
  | none => false
  | some a => !newer a (tagSeq w1)

def State.noteSeq (s : State) (key : Nat) (w1 : Word) : State :=
  { s with hq.lastSeq := SMap.put s.hq.lastSeq key (tagSeq w1) }

/-- The code of R41, R585 or R325 that refuses an item at a queue's home, or 0. -/
def State.refusalOf (s : State) (q : Nat) (item : Item) : Nat :=
  if tagBad item.w1 then Code.invalidField
  else if s.epochCode (tagEpoch item.w1) ≠ 0 then s.epochCode (tagEpoch item.w1)
  else if s.qDepth q = 0 then Code.queueDisabled
  else 0

/-- Count a refusal for a stale epoch (R600). -/
def State.noteRefusal (s : State) (code : Nat) : State :=
  s.iff (code = Code.staleMap) fun s => s.bump (Reg.fabCnt 4)

/-- An item arrives at its queue's home (R39, R41, R325, R327, R585): a code of refusal or 0, and the state after it.  A
frame's credits return when its item leaves the frame buffer; the item of an ITEM frame whose epoch is newer is held, and keeps
them. -/
def State.arriveItem (s : State) (q prio sender : Nat) (item : Item) (bad : Bool) (port : Option Nat) : Nat × State :=
  let key := seqKey sender (s.qReader q) (tagClass item.w1)
  let back := match port with
    | some p => s.giveCredits p 0 2
    | none => s
  let code := s.refusalOf q item
  if code = Code.epochAhead && port.isSome && s.comp.held.length < 256 then
    (0, ({ s with comp.held := s.comp.held ++ [HeldItem.mk q prio sender item bad port s.now (s.now + msec (s.field Reg.fabControl 47 42))] }).bump (Reg.fabCnt 5))
  else if code ≠ 0 then (code, back.noteRefusal code)
  else if s.duplicate key item.w1 then (0, back)
  else (0, ((s.iff (s.qReader q ≠ 0) State.wake).noteSeq key item.w1).hwPush q { prio := prio, item := item, port := port } bad)

/-- Tell an issuing unit that its item was refused. -/
def State.tellIssuer (s : State) (sender code : Nat) (item : Item) : State :=
  s.iff (code ≠ 0) fun s => { s with hq.refusals := s.hq.refusals ++ [⟨sender, code, ⟨item.w0, item.w1⟩⟩] }

/-- QUEUE_ITEM_ARRIVAL (R324, R325, R327): an item whose last byte has arrived is checked and entered, held while the
queue is full, or not entered at all; a refusal is reported to its issuer (R41, R585). -/
def execQueueItemArrival (queue : BitVec 9) (prio : BitVec 3) (sender : Nat) (item : Item) (bad : Bool) (s : State) :
    Host.Outcome State Fault Refusal :=
  gate s fun s =>
    let r := s.arriveItem queue.toNat prio.toNat sender item bad none
    r.2.tellIssuer sender r.1 item

/-- A unit of R683 is failed. -/
def State.unitFailed (s : State) (u : Nat) : Bool := bit (s.reg Reg.fltUnits) u

/-- The units of R683 that serve a reader's queues: ferry and snapshot engines, the edge, the text unit and the search unit. -/
def unitsOf : Nat → List Nat
  | 5 => [2, 3]
  | 7 => [4, 5]
  | 8 => [1]
  | 9 => [0]
  | 10 => [6]
  | _ => []

/-- The working unit that reads for a reader's code; none where firmware or a unit outside R683's table reads (R689, R698). -/
def State.workingUnit (s : State) (reader : Nat) : Option Nat := (unitsOf reader).find? fun u => !s.unitFailed u

/-- Every unit that serves a reader is failed: firmware reads its queues (R689, R690). -/
def State.readerFailed (s : State) (reader : Nat) : Bool := !(unitsOf reader).isEmpty && (unitsOf reader).all s.unitFailed

/-- DIE of a unit in the code of R700: X0 or X1. -/
def unitDie (u : Nat) : Nat := if u = 0 || u = 1 || u = 2 || u = 4 then 4 else 5

/-- Record items lost to uncorrectable errors: ECC_LOST, the count, the work to be found, and an event each, of the domain UNIT for
the unit that reads the queue, else ITEM (R334, R698, log entry 110). -/
def State.noteLost (s : State) (q : Nat) (lost : List Item) : State :=
  if lost.isEmpty then s
  else
    let s := (s.setField (Reg.hqQstat q) 46 46 1).bumpBy (Reg.hqCnt 6) lost.length
    let s := { s with flt.lost := s.flt.lost ++ lost.map fun it => (LostItem.mk q it s.now) }
    lost.foldl (fun s it => match s.workingUnit (s.qReader q) with
      | some u => s.event Code.itemEcc 2 (unitDie u) u 0 it.w0 (BitVec.ofNat 64 q)
      | none => s.event Code.itemEcc 0 4 255 0 it.w0 (BitVec.ofNat 64 q)) s

/-- A pop at the queue's home (R326, R334): the item, and the queue after it with waiting pushes admitted. -/
def State.popQueue (s : State) (q : Nat) : Option QEntry × State :=
  let x := s.queue q
  let r := popGood x.items.length x.items
  let s := s.setQueue q { x with items := r.2.1 }
  let s := s.noteLost q (lostItems x.items.length x.items)
  let s := match r.1 with
    | some _ => s.bump (Reg.hqCnt 1)
    | none => s
  (r.1, s.letIn q)

/-- The completion item of R71 and R163: counts, first code and first address, with the request's tag and LAST = 1. -/
def completionItem (tag0 tag1 : Word) (moved abandoned failed code : Nat) (addr : Word) : Item :=
  { w0 := tag0, w1 := tagLast tag1, w2 := fld 63 32 moved ||| fld 31 0 abandoned,
    w3 := fld 63 32 failed ||| fld 15 0 code, w4 := addr }

/-- Post a completion item and then raise its tally (R71, log entry 9). -/
def State.post (s : State) (q : Nat) (item : Item) (tally : Nat) : State :=
  s.hwPush q { prio := 0, item := item, after := some tally }

/-- Firmware's answer to an item of a failed unit (R689): UNIT_FAILED in the unit's completion format, and the item's tally. -/
def State.unitAnswer (s : State) (reader : Nat) (it : Item) : State :=
  let whole := fld 63 32 0xFFFFFFFF
  let c : Item :=
    if reader = 5 || reader = 7 then completionItem it.w0 it.w1 0 0 0 Code.unitFailed 0
    else { w0 := it.w0, w1 := tagLast it.w1, w2 := fld 63 48 Code.unitFailed
           w4 := if reader = 9 then whole else 0, w5 := if reader = 9 then 0 else whole }
  s.post (bits it.w6 40 32) c (bits it.w6 11 0)

/-- The queue a unit reads, where a register names it (R184, R463, R499, R528, R556); the other readers take any queue that names
them.  Sequencers take their items when a segment starts, and a stopped edge pops nothing (R552). -/
def State.readsQueue (s : State) (unit q : Nat) : Bool :=
  match unit with
  | 6 => q = s.field Reg.kvsControl 8 0
  | 7 => q = s.field Reg.tsmSnap 8 0
  | 8 => q = s.field Reg.netControl 8 0 && !s.net.stopped
  | 9 => q = s.field Reg.txtControl 8 0
  | 10 => q = s.field Reg.seuControl 8 0
  | _ => 4 < unit

/-! ### GO and BUSY (R332)

A push, pop or flush of a core takes effect at its write, and BUSY stays 1 until the home has answered; how long that takes is the
command's operand, within the bound the manual gives. -/

def busyPush (core : Nat) : Nat := core
def busyPop (core : Nat) : Nat := 4 + core
def busyFlush : Nat := 8

/-- A GO write's operation is still in progress. -/
def State.isBusy (s : State) (k : Nat) : Bool := s.now < SMap.get 0 s.hq.busy k

/-- Start an operation of a GO field that stays busy for `ns`; a GO write while BUSY is 1 is ignored and counted. -/
def State.go (s : State) (k ns : Nat) (f : State → State) : State :=
  if s.isBusy k then s.bump (Reg.hqCnt 7) else f { s with hq.busy := SMap.set 0 s.hq.busy k (s.now + ns) }

/-- The item in a core's push buffer (R330). -/
def State.pushBuffer (s : State) (c : Nat) : Item :=
  ⟨s.reg (Reg.hqPbuf (8 * c)), s.reg (Reg.hqPbuf (8 * c + 1)), s.reg (Reg.hqPbuf (8 * c + 2)),
    s.reg (Reg.hqPbuf (8 * c + 3)), s.reg (Reg.hqPbuf (8 * c + 4)), s.reg (Reg.hqPbuf (8 * c + 5)),
    s.reg (Reg.hqPbuf (8 * c + 6)), s.reg (Reg.hqPbuf (8 * c + 7))⟩

/-- A core's push finds no room: the queue is full, or the edge has stopped popping it (R327, R552). -/
def State.noRoom (s : State) (q : Nat) : Bool :=
  s.qDepth q ≤ (s.queue q).items.length || s.net.stopped && q = s.field Reg.netControl 8 0

/-- A core's push of its buffer (R327, R330, R335, R552): STATUS holds the outcome. -/
def State.corePush (s : State) (core queue prio : Nat) : State :=
  let item := s.pushBuffer core
  let key := seqKey 0 (s.qReader queue) (tagClass item.w1)
  let put := fun (s : State) (st : Nat) =>
    s.setReg (Reg.hqPush core) (fld 47 32 st ||| fld 11 9 prio ||| fld 8 0 queue)
  let code := s.refusalOf queue item
  if code ≠ 0 then (put s code).noteRefusal code
  else if s.duplicate key item.w1 then put s 0
  else if s.noRoom queue then (put s Code.queueFull).bump (Reg.hqCnt 5)
  else put ((s.noteSeq key item.w1).enter queue ⟨prio, item, false⟩) 0

/-- HQ_PUSH (R330, R327, R332, R335): a write of HQ.PUSHc with GO = 1. -/
def execHqPush (core : Fin 4) (queue : BitVec 9) (prio : BitVec 3) (ns : Nat) (s : State) : Host.Outcome State Fault Refusal :=
  gate s fun s => s.go (busyPush core.val) (min ns 150) fun s => s.corePush core.val queue.toNat prio.toNat

/-- Fill a core's pop latch (R331). -/
def State.fillLatch (s : State) (c : Nat) : Nat → List Word → State
  | _, [] => s
  | i, w :: ws => (s.setReg (Reg.hqLatch (8 * c + i)) w).fillLatch c (i + 1) ws

/-- A core's pop (R331): the next item moves into its latch, or EMPTY and UNDERRUN are reported and the latch is left.  Only queues
whose reader is the control cores are popped by a core (R328). -/
def State.corePop (s : State) (core q : Nat) : State :=
  if s.qReader q ≠ 0 then s.setField (Reg.hqPop core) 8 0 q
  else
    let r := s.popQueue q
    match r.1 with
    | some e => (r.2.fillLatch core 0 e.item.words).setReg (Reg.hqPop core) (fld 11 9 e.prio ||| fld 8 0 q)
    | none =>
      let s := ((r.2.setField (Reg.hqPop core) 61 61 1).setField (Reg.hqPop core) 8 0 q)
      (s.setField (Reg.hqQstat q) 47 47 1).bump (Reg.hqCnt 3)

/-- HQ_POP (R331, R332): a write of HQ.POPc with GO = 1. -/
def execHqPop (core : Fin 4) (queue : BitVec 9) (ns : Nat) (s : State) : Host.Outcome State Fault Refusal :=
  gate s fun s => s.go (busyPop core.val) (min ns 150) fun s => s.corePop core.val queue.toNat

/-- A flush (R333): every item of the queue goes at one instant; waiting pushes then enter in order. -/
def State.coreFlush (s : State) (q : Nat) : State :=
  let x := s.queue q
  let s := (s.setQueue q { x with items := [] }).bumpBy (Reg.hqCnt 2) x.items.length
  (s.setField Reg.hqFlush 8 0 q).letIn q

/-- HQ_FLUSH (R333, R345): a write of HQ.FLUSH with GO = 1; it completes within 100 ns. -/
def execHqFlush (queue : BitVec 9) (ns : Nat) (s : State) : Host.Outcome State Fault Refusal :=
  gate s fun s => s.go busyFlush (min ns 100) fun s => s.coreFlush queue.toNat

/-- Take an item out of a hardware reader's hand as its work begins. -/
def State.begin_ (s : State) (unit : Nat) (item : Item) : State :=
  { s with
    hq.hand := SMap.set [] s.hq.hand unit ((SMap.get [] s.hq.hand unit).erase item)
    hq.old := s.hq.old.filter fun o => o.item ≠ item }

/-- The items in a reader's hand that came before an item. -/
def State.handBefore (s : State) (unit : Nat) (item : Item) : List Item :=
  let hand := SMap.get [] s.hq.hand unit
  if hand.contains item then hand.takeWhile (· ≠ item) else []

/-! ### Items that arrived before a commit (R648) -/

/-- The items a reader has not begun: in its queues, waiting for them, or in its hand. -/
def State.arrived (s : State) (reader : Nat) : List Item :=
  SMap.get [] s.hq.hand reader ++
    (s.hq.queues.filter fun x => s.qReader x.1 = reader).flatMap fun x => x.2.items.map (·.item) ++ x.2.waiting.map (·.item)

/-- Before a commit of a reader's registers: its items keep the values they arrived under. -/
def State.keepCfg (s : State) (reader : Nat) (keys : List Nat) : State :=
  let mk := fun (it : Item) =>
    match s.hq.old.find? fun o => o.item = it with
    | some o => { o with regs := keys.foldl (fun m k => if (SMap.lookup m k).isSome then m else SMap.put m k (s.reg k)) o.regs }
    | none => OldCfg.mk it (keys.foldl (fun m k => SMap.put m k (s.reg k)) [])
  let its := (s.arrived reader).eraseDups
  { s with hq.old := (s.hq.old.filter fun o => !its.contains o.item) ++ its.map mk }

/-- Work on an item under the values it arrived under. -/
def State.underCfg (s : State) (it : Item) (f : State → State) : State :=
  match s.hq.old.find? fun o => o.item = it with
  | none => f s
  | some o => s.withRegs o.regs f

end Sys2Proof.Machine
end

