-- ==== Sys2Proof/Machine/TsmOps.lean ====
section
/-! DEFINITION. The page table, the allocators of the tiers, claims and shootdowns (R52 to R78). -/

namespace Sys2Proof.Machine

open Sys2Proof

/-! ### Page table -/

/-- Pages of the boot region: 1 GiB (R717). -/
def bootPages : Nat := 16384

/-- The leaf entry of a page; the boot region's pages are pinned at the DRAM pages of the same number. -/
def State.leaf (s : State) (p : Nat) : Leaf :=
  if s.tsm.boot && p < bootPages then { v := true, tier := .dram, loc := p, pin := true } else SMap.get {} s.tsm.leaf p
def State.setLeaf (s : State) (p : Nat) (l : Leaf) : State := { s with tsm.leaf := s.tsm.leaf.set {} p l }

/-- ROOT_PAGE: the DRAM page of the level-1 table (R56, R90). -/
def State.rootPage (s : State) : Nat := s.field Reg.tsmRoot 24 0

/-- Indexes of a page in the tables of levels 1, 2 and 3 (R52). -/
def l1Index (p : Nat) : Nat := p / 2 ^ 24 % 4096
def l2Index (p : Nat) : Nat := p / 2 ^ 12 % 4096
def l3Index (p : Nat) : Nat := p % 4096

/-- Entry `i` of the directory table in DRAM page `d` (R57). -/
def State.dirTab (s : State) (d i : Nat) : DirTab := SMap.get {} s.tsm.dirs (d * 4096 + i)

/-- Pages of the PAGE_TABLE region of the image (R56, R76). -/
def State.tableRegion (s : State) : Nat := sumNat ((s.cfg.pins.filter fun d => d.kind = 0).map fun d => d.pages)

/-- The DRAM page that the next table takes: the pages of the PAGE_TABLE region are homed from ROOT_PAGE upward and taken in
order (log entry 11). -/
def State.nextTable (s : State) : Nat := s.rootPage + 1 + s.tsm.dirs.length

/-- Tables that a page's entry still lacks: level 3, or levels 2 and 3. -/
def State.tablesNeeded (s : State) (p : Nat) : Nat :=
  let e1 := s.dirTab s.rootPage (l1Index p)
  if !e1.v then 2 else if !(s.dirTab e1.loc (l2Index p)).v then 1 else 0

/-- The PAGE_TABLE region has room for the tables a page needs. -/
def State.tableRoom (s : State) (p : Nat) : Bool :=
  s.tablesNeeded p = 0 || s.tsm.dirs.length + 1 + s.tablesNeeded p ≤ s.tableRegion

/-- Enter a table in a directory table. -/
def State.addTable (s : State) (d i : Nat) : State :=
  if (s.dirTab d i).v then s
  else { s with tsm.dirs := SMap.put s.tsm.dirs (d * 4096 + i) ⟨true, s.nextTable⟩ }

/-- Mark the directory entries above a page present (R57): a level-2 table under the root, then a level-3 table under it. -/
def State.mapDirs (s : State) (p : Nat) : State :=
  let s := s.addTable s.rootPage (l1Index p)
  s.addTable (s.dirTab s.rootPage (l1Index p)).loc (l2Index p)

/-- The walk of the tables from ROOT_PAGE (R61): none where an entry on the way, or the leaf, has V = 0. -/
def State.walkLeaf (s : State) (p : Nat) : Option Leaf :=
  let e1 := s.dirTab s.rootPage (l1Index p)
  if !e1.v then none
  else if !(s.dirTab e1.loc (l2Index p)).v then none
  else if !(s.leaf p).v then none
  else some (s.leaf p)

/-- A walk of the page table for an access: the leaf, or the first fault in the order of R61. -/
def State.walk (s : State) (p : Nat) (data : Bool) : Except Nat Leaf :=
  match s.walkLeaf p with
  | none => .error Code.unmapped
  | some l =>
    if l.poison then .error Code.poisoned
    else if !s.tierPermit l.tclass l.tier then .error Code.tierDenied
    else if l.tier = .sett && data then .error Code.notResident
    else .ok l

/-- A page of the header region (R109). -/
def State.isHeaderPage (s : State) (p : Nat) : Bool :=
  s.hmp.headerBase / 65536 ≤ p && p < s.hmp.headerBase / 65536 + 262144 && 0 < s.hmp.headerBase

/-! ### Allocators -/

/-- Key of a home in the set of allocated locations. -/
def homeKey (t : Tier) (loc : Nat) : Nat := t.code * 2 ^ 40 + loc

/-- First location of a tier's part: a base die for LARDER, a segment for POOL (R59). -/
def subBase (t : Tier) (sub : Nat) : Nat :=
  match t with
  | .larder => sub * 2 ^ 38
  | .pool => sub * 2 ^ 32
  | _ => 0

/-- Pages a tier's part holds (R59). -/
def State.tierCap (s : State) (t : Tier) (sub : Nat) : Nat :=
  match t with
  | .larder => 6144
  | .dram => 33554432
  | .pool => if (s.seg sub).valid then (s.seg sub).pages else 0
  | .sett => 805306368

/-- Allocated pages of a tier's part. -/
def State.usedPages (s : State) (t : Tier) (sub : Nat) : Nat :=
  let b := homeKey t (subBase t sub)
  (s.tsm.alloc.filter fun x => b ≤ x.1 && x.1 < b + s.tierCap t sub).length + (if t = .dram && s.tsm.boot then bootPages else 0)

def State.freePages (s : State) (t : Tier) (sub : Nat) : Nat := s.tierCap t sub - s.usedPages t sub

/-- Free DRAM user capacity in bytes (R80). -/
def State.freeDram (s : State) : Nat := s.freePages .dram 0 * 65536

/-- The lowest free location of a tier's part, if any (log entry 11).  In a larder that is any of its 6,144 pages: the manual does
not say which of them stand clear of the image's larder regions (log entry 89). -/
def State.allocLoc (s : State) (t : Tier) (sub : Nat) : Option Nat :=
  let b := homeKey t (subBase t sub)
  match findFrom (fun k => (SMap.lookup s.tsm.alloc k).isNone) b (s.tsm.alloc.length + 1) with
  | some k => if k < b + s.tierCap t sub then some (k - t.code * 2 ^ 40) else none
  | none => none

def State.take (s : State) (t : Tier) (loc : Nat) : State :=
  { s with tsm.alloc := SMap.put s.tsm.alloc (homeKey t loc) () }
/-- Return a location to its tier's allocator; a retired DRAM page is never given out again (R614). -/
def State.giveBack (s : State) (t : Tier) (loc : Nat) : State :=
  if t = .dram && s.tsm.retired.contains loc then s
  else { s with tsm.alloc := SMap.erase s.tsm.alloc (homeKey t loc) }

/-- The pool segment the TSM uses (R82): permitted, VALID, most free pages, lowest number among equals. -/
def State.chooseSeg (s : State) (tclass : Nat) : Option Nat :=
  if !s.tierPermit tclass .pool then none
  else
    (s.comp.map.segs.filter fun x => x.2.valid).foldl (fun best x =>
      match best with
      | none => some x.1
      | some b => if s.freePages .pool b < s.freePages .pool x.1 then some x.1 else best) none

/-! ### Shootdowns (R66) -/

/-- The translation caches: C-dies 0 to 3, the engines of X0 and X1, the search unit and the text unit. -/
def caches : List Nat := [0, 1, 2, 3, 4, 5, 6, 7]

def State.shoot (s : State) (p : Nat) (c : ShootCont) : State :=
  { s with tsm.shoots := s.tsm.shoots ++ [Shoot.mk p caches c] }

/-! ### Sett ration (R87 to R89) -/

def State.settUsed (s : State) : Nat := (s.reg Reg.tsmSettUsed).toNat
def State.settLimit (s : State) : Nat := s.field Reg.tsmSettRation 31 0 * 10 ^ 9

/-- Count bytes the TSM writes into the sett (R87). -/
def State.countSett (s : State) (n : Nat) : State :=
  let s := { s with tsm.bins := SMap.set 0 s.tsm.bins s.tsm.bin (SMap.get 0 s.tsm.bins s.tsm.bin + n) }
  s.setReg Reg.tsmSettUsed (BitVec.ofNat 64 (s.settUsed + n))

/-! ### Claims (R68 to R70) -/

/-- What the entry-update unit does with one page of a request. -/
inductive Claim where
  | ended (o : Outcome1)
  | claim (dst : Tier) (loc : Nat)
  deriving DecidableEq, Repr

/-- What a request asks of each page. -/
structure Want where
  isDrop : Bool := false
  dest : Tier := .dram
  seg : Nat := 255
  die : Nat := 0
  retire : Bool := false
  /-- The request's tag carries SNAPNS: its addresses lie in the snapshot namespace, which no walker translates (R54). -/
  snap : Bool := false
  /-- The session of the request (R34). -/
  session : Word := 0
  deriving DecidableEq, Repr

/-- Check 4 of R70 with its exceptions: the page already lies where the move would take it. -/
def Want.already (w : Want) (l : Leaf) : Bool :=
  !w.isDrop && !w.retire && l.tier = w.dest &&
    !(w.dest = .larder && l.loc / 2 ^ 38 ≠ w.die) && !(w.dest = .pool && w.seg ≠ 255 && l.loc / 2 ^ 32 ≠ w.seg)

/-- The part of the destination tier a move goes to. -/
def State.wantSub (s : State) (w : Want) (l : Leaf) : Option Nat :=
  match w.dest with
  | .larder => some w.die
  | .pool => if w.seg = 255 then s.chooseSeg l.tclass else some w.seg
  | _ => some 0

/-- The checks of R70 in order. -/
def State.claimCheck (s : State) (p : Nat) (w : Want) : Claim :=
  let l := s.leaf p
  if w.snap || 2 ^ 36 ≤ p then .ended (.failed Code.noncanon)
  else if (s.walkLeaf p).isNone then .ended (.failed Code.unmapped)
  else if l.pin || (s.isHeaderPage p && !w.retire) then .ended (.failed Code.pinViolation)
  else if w.isDrop && !l.kv then .ended (.failed Code.notDroppable)
  else if w.already l then .ended .moved
  else if l.ferry || l.wp then .ended (.failed Code.ferryBusy)
  else if w.isDrop then .claim l.tier l.loc
  else if !s.tierPermit l.tclass w.dest then .ended (.failed Code.tierDenied)
  else if s.unitFailed 2 && s.unitFailed 3 then .ended (.failed Code.unitFailed)
  else if (w.dest = .sett || l.tier = .sett) && s.unitFailed 7 then .ended (.failed Code.unitFailed)
  else if w.dest = .sett && s.settLimit < s.settUsed + 65536 then .ended (.failed Code.settRationed)
  else if w.dest = .sett && bit (s.reg Reg.settStatus) 60 then .ended (.failed Code.destFull)
  else
    match s.wantSub w l with
    | none => .ended (.failed Code.destFull)
    | some sub =>
      match s.allocLoc w.dest sub with
      | none => .ended (.failed Code.destFull)
      | some loc => .claim w.dest loc

/-- A fresh nonzero FERRY_ID (R68). -/
def State.nextFid (s : State) : Nat := s.tsm.nextFerryId
def fidAfter (n : Nat) : Nat := if n ≥ 65535 then 1 else n + 1

/-- Which ferry engine takes a claim: engine 0 unless it is failed (R690, log entry 11). -/
def State.ferryEngine (s : State) : Nat := if s.unitFailed 2 then 1 else 0

/-- Stage 0 of R68: claim a page for a request, and start its shootdown. -/
def State.claimPage (s : State) (req p : Nat) (w : Want) (dst : Tier) (loc : Nat) : State :=
  let fid := s.nextFid
  let s := s.setLeaf p { s.leaf p with ferry := true, ferryId := fid }
  let s := if w.isDrop then s else s.take dst loc
  let s := if !w.isDrop && dst = .sett then s.countSett 65536 else s
  let s := { s with
    tsm.nextFerryId := fidAfter fid
    tsm.ops := SMap.put s.tsm.ops p
      { req := req, ferryId := fid, isDrop := w.isDrop, dst := dst, dstLoc := loc, engine := s.ferryEngine,
        tag := ⟨w.session, 0⟩, num := s.tsm.nextOp }
    tsm.nextOp := s.tsm.nextOp + 1 }
  s.shoot p (.claimed fid)

/-- Put each page of a request through R70; the outcomes at once, and the number claimed. -/
def claimLoop (req : Nat) (w : Want) : List Nat → State → SMap Outcome1 × Nat × State
  | [], s => ([], 0, s)
  | p :: ps, s =>
    match s.claimCheck p w with
    | .ended o =>
      let s := match o with
        | .failed c => s.iff (c = Code.settRationed) fun s => s.bump (Reg.tsmCnt 4)
        | _ => s
      let r := claimLoop req w ps s
      ((p, o) :: r.1, r.2.1, r.2.2)
    | .claim t loc =>
      let r := claimLoop req w ps (s.claimPage req p w t loc)
      (r.1, r.2.1 + 1, r.2.2)

/-! ### Mapping and unmapping -/

/-- Map a zeroed page at a home (R162). -/
def State.mapAt (s : State) (p : Nat) (t : Tier) (loc : Nat) (kv : Bool) (tclass : Nat) : State :=
  let s := (s.mapDirs p).take t loc
  let s := s.setLeaf p { v := true, tier := t, tclass := tclass, loc := loc, kv := kv }
  s.zeroRange (homeAddr t loc 0) 65536

/-- Map a zeroed page with a fresh home (R162); none when the tier, or the PAGE_TABLE region, is full. -/
def State.mapPage (s : State) (p : Nat) (t : Tier) (sub : Nat) (kv : Bool) (tclass : Nat) : Option State :=
  match s.allocLoc t sub with
  | none => none
  | some loc => if s.tableRoom p then some (s.mapAt p t loc kv tclass) else none

/-- Map a run of pages, all or none. -/
def mapRun (t : Tier) (sub : Nat) (kv : Bool) (tclass : Nat) : List Nat → State → Option State
  | [], s => some s
  | p :: ps, s =>
    match s.mapPage p t sub kv tclass with
    | none => none
    | some s => mapRun t sub kv tclass ps s

/-- Drop the read-ahead copies of a page (R589). -/
def State.dropAhead (s : State) (p : Nat) : State :=
  { s with
    fab.ahead := s.fab.ahead.map fun (x : Nat × List Nat) => (x.1, x.2.filter fun q => q ≠ p)
    fab.accs := s.fab.accs.map fun a =>
      match a.use with
      | .ahead _ q => if q = p then { a with use := .dropped } else a
      | _ => a }

/-- Drop every transient copy of a page's contents: read-ahead, and rows of the row store that touch it (R60). -/
def State.dropCopies (s : State) (p : Nat) : State :=
  { s.dropAhead p with seu.store := s.seu.store.filter fun x =>
      !(x.2.addr < 65536 * (p + 1) && 65536 * p < x.2.addr + max 1 x.2.size) }

/-- Take a page's home away in one update (R74 step 2); no copy of its contents outlives it (R60). -/
def State.unmap (s : State) (p : Nat) : State := (s.setLeaf p {}).dropCopies p

/-- `n` pages from a page number upward. -/
def pageRun (p n : Nat) : List Nat := (List.range n).map (p + ·)

end Sys2Proof.Machine
end

