-- ==== Sys2Proof/Machine/FabricOps.lean ====
section
/-! DEFINITION. Accesses to pool segments through the fabric ports (R578 to R582, R588, R589). -/

namespace Sys2Proof.Machine

open Sys2Proof

/-- The up ports of a segment's mask, in ascending order. -/
def State.segPorts (s : State) (seg : Nat) : List Nat :=
  (List.range 4).filter fun k => (s.seg seg).ports / 2 ^ k % 2 = 1 && bit (s.reg (Reg.fabPort k)) 63

/-- The choice in force for a segment: a change waits for every outstanding access to it (R579). -/
def State.segChoice (s : State) (seg : Nat) : List Nat :=
  if s.fab.accs.any fun a => a.seg = seg then (SMap.lookup s.fab.choice seg).getD (s.segPorts seg) else s.segPorts seg

/-- The port an access to page P of a segment leaves through. -/
def State.segPort (s : State) (seg page : Nat) : Option Nat :=
  let ks := s.segChoice seg
  ks[page % ks.length]?

/-- A fabric address lies in its segment (R578). -/
def State.fabIn (s : State) (seg off : Nat) : Bool := (s.seg seg).valid && off < 65536 * (s.seg seg).pages

/-- FAB_ERROR for an access to a home that no port reaches (R582), else 0. -/
def State.reachCode (s : State) (t : Tier) (loc : Nat) : Nat :=
  if t = .pool && (s.segPort (loc / 2 ^ 32) (loc % 2 ^ 32)).isNone then Code.fabError else 0

/-- Count bytes read from or written to the pool (R600). -/
def State.countPool (s : State) (t : Tier) (write : Bool) (n : Nat) : State :=
  s.iff (t = .pool) fun s => s.bumpBy (Reg.fabCnt (if write then 1 else 0)) n

/-- Lines of a DRAM page that a write of n bytes covers in part. -/
def partLines (off n : Nat) : Nat :=
  if n = 0 then 0
  else if off / 256 = (off + n - 1) / 256 then bnat (n < 256)
  else bnat (off % 256 ≠ 0) + bnat ((off + n) % 256 ≠ 0)

/-- An engine's write to a page's home: each line of DRAM it covers in part is one read-modify-write (R609), but for those that merge
with a write to the line that still waits, which the spec leaves open. -/
def State.partWrite (s : State) (t : Tier) (off n : Nat) : State :=
  let k := partLines off n
  if t ≠ .dram || k = 0 then s else s.fresh.2.bumpBy (Reg.dramCnt 2) (k - Config.merged s.free)

/-- An access may be issued: nothing earlier to its page waits, no earlier write to it is outstanding (R579), and a read stays within
its port's DEPTH (R588). -/
def State.mayIssue (s : State) (a : FabAcc) : Bool :=
  let before := s.fab.accs.takeWhile fun x => x.id ≠ a.id
  !(before.any fun x => x.seg = a.seg && x.page = a.page && (!x.issued || x.write)) &&
    (a.write || (s.fab.accs.filter fun x => x.issued && !x.write && x.port = a.port).length < s.field (Reg.fabPort a.port) 7 0)

/-- Issue an access under a tag of the epoch current now (R586). -/
def State.issueAcc (s : State) (a : FabAcc) : State :=
  let r := s.nextSeq (segUnit a.seg) a.cls
  let tag := s.mkTag a.session a.cls a.flags Tier.pool.code r.1
  let s := r.2
  { s with fab.accs := s.fab.accs.map fun x =>
      if x.id = a.id then { x with issued := true, sinceNs := s.now, tag := tag } else x }

/-- Issue every access that may be, in arrival order. -/
def State.pumpFab (s : State) : State :=
  (s.fab.accs.filter fun a => !a.issued).foldl (fun s a => if s.mayIssue a then s.issueAcc a else s) s

/-- An access of one page enters its port's tracker and is issued when it may be; none when no port is up (R579, R582). -/
def State.fabIssue (s : State) (write : Bool) (seg page : Nat) (use : FabUse) (session : Word) (cls flags : Nat) :
    Option State :=
  match s.segPort seg page with
  | none => none
  | some k =>
    let a : FabAcc := { id := s.fab.nextId, write := write, seg := seg, page := page, port := k, use := use,
                        session := session, cls := cls, flags := flags }
    some { s with
      fab.choice := SMap.put s.fab.choice seg (s.segChoice seg)
      fab.accs := s.fab.accs ++ [a]
      fab.nextId := s.fab.nextId + 1 }.pumpFab

/-- Take accesses out of the tracker; others may then be issued. -/
def State.dropAccs (s : State) (p : FabAcc → Bool) : State :=
  { s with fab.accs := s.fab.accs.filter fun a => !p a }.pumpFab

/-! ### Compare-and-swap (R581) -/

/-- 0, or the code that refuses a swap: FAB_RANGE, FAB_ATOMIC or FAB_ERROR. -/
def State.casCode (s : State) (fabric : Word) : Nat :=
  let seg := bits fabric 63 56
  let off := bits fabric 55 0
  if off % 8 ≠ 0 || !s.fabIn seg off then Code.fabRange
  else if !(s.seg seg).atomic then Code.fabAtomic
  else if (s.segPort seg (off / 65536)).isNone then Code.fabError
  else 0

/-- Count a completed swap and whether it found another value. -/
def State.countCas (s : State) (hit : Bool) : State :=
  (s.bump (Reg.fabCnt 2)).iff (!hit) fun s => s.bump (Reg.fabCnt 3)

/-- A swap on the module's view of the pool; true when the old value was the expected one. -/
def State.cas (s : State) (fabric expected value : Word) : Bool × State :=
  let a := poolAddr fabric.toNat
  let hit := s.readWord a = expected
  (hit, (if hit then s.writeWord a value else s).countCas hit)

/-! ### Read-ahead (R589) -/

/-- Following pages with pool homes, up to a depth. -/
def State.aheadPages (s : State) (p depth : Nat) : List Nat :=
  (pageRun (p + 1) depth).filter fun q => (s.leaf q).v && (s.leaf q).tier = .pool

/-- The page is in a read-ahead buffer. -/
def State.buffered (s : State) (p : Nat) : Bool := s.fab.ahead.any fun y => y.2.contains p

/-- A WEIGHT read of a pool page by a mover: a buffered page is a hit; reads of up to DEPTH following pages start for the buffer of the
port's X-die. -/
def State.readAhead (s : State) (p : Nat) : State :=
  let l := s.leaf p
  if l.tier ≠ .pool then s
  else
    match s.segPort (l.loc / 2 ^ 32) (l.loc % 2 ^ 32) with
    | none => s
    | some k =>
      let x := k / 2
      let s := s.iff (s.buffered p) fun s => s.bump (Reg.fabCnt 6)
      let due := (s.aheadPages p (s.field (Reg.fabPort k) 7 0)).filter fun q =>
        !(SMap.get [] s.fab.ahead x).contains q && !(s.fab.accs.any fun a => a.use = .ahead x q)
      due.foldl (fun s q =>
        let m := s.leaf q
        (s.fabIssue false (m.loc / 2 ^ 32) (m.loc % 2 ^ 32) (.ahead x q) 0 6 0).getD s) s

/-- A page read ahead enters the buffer, which holds 512 pages, the oldest leaving first. -/
def State.fillAhead (s : State) (a : FabAcc) : State :=
  match a.use with
  | .ahead x q =>
    let l := s.leaf q
    if l.v && l.tier = .pool && l.loc = a.seg * 2 ^ 32 + a.page then
      let all := SMap.get [] s.fab.ahead x ++ [q]
      { s with fab.ahead := SMap.set [] s.fab.ahead x (all.drop (all.length - 512)) }
    else s
  | _ => s

end Sys2Proof.Machine
end

