-- ==== Sys2Proof/Machine/KvOps.lean ====
section
/-! DEFINITION. Handles, headers, span tables, deferred reclamation, and how ferry and span requests end. -/

namespace Sys2Proof.Machine

open Sys2Proof

/-! ### Handles and the directory (R99 to R108) -/

def hModule (h : Word) : Nat := bits h 63 54
def hSlot (h : Word) : Nat := bits h 53 32
def hGen (h : Word) : BitVec 32 := BitVec.ofNat 32 (bits h 31 0)
def mkHandle (m slot : Nat) (g : BitVec 32) : Word := fld 63 54 m ||| fld 53 32 slot ||| fld 31 0 g.toNat

def State.dir (s : State) (slot : Nat) : DirEnt := SMap.get {} s.hmp.dir slot
def State.setDir (s : State) (slot : Nat) (e : DirEnt) : State := { s with hmp.dir := s.hmp.dir.set {} slot e }
def State.hdr (s : State) (slot : Nat) : Header := SMap.get {} s.hmp.hdr slot
def State.setHdr (s : State) (slot : Nat) (h : Header) : State := { s with hmp.hdr := s.hmp.hdr.set {} slot h }

/-- The rules of R102 in order: 0 when the handle refers to the session, else the code of the refusal. -/
def State.handleCode (s : State) (h : Word) : Nat :=
  let slot := hSlot h
  let e := s.dir slot
  let outside := hModule h = s.self &&
    !(s.field Reg.hmpDirRange 21 0 ≤ slot && slot ≤ s.field Reg.hmpDirRange 53 32)
  if outside then Code.badHandle
  else if newer (hGen h) e.gen then Code.staleHandle
  else if e.state = .free then Code.badHandle
  else if hGen h ≠ e.gen then Code.badHandle
  else 0

/-- A command or message that names a session is accepted only by its home module (R102). -/
def State.homeCode (s : State) (h : Word) : Nat :=
  if hModule h ≠ s.self then Code.badHandle else s.handleCode h

/-- Count a refusal with STALE_HANDLE (R142). -/
def State.noteStale (s : State) (code : Nat) : State :=
  s.iff (code = Code.staleHandle) fun s => s.bump (Reg.hmpCnt 7)

/-- The generation after a return to FREE: never 0 (R101). -/
def nextGen (g : BitVec 32) : BitVec 32 := if g + 1 = 0 then 1 else g + 1

/-- A change of the hamper is in progress (R108), a park that waits for the step boundary among them. -/
def State.busy (s : State) (slot : Nat) : Bool :=
  (SMap.lookup s.hmp.changes slot).isSome || s.hmp.parks.any fun x => x.1 = slot
def State.beginChange (s : State) (slot : Nat) (k : ChangeKind) (cmd : Option Nat) : State :=
  { s with hmp.changes := SMap.put s.hmp.changes slot { kind := k, cmd := cmd, sinceNs := s.now } }
def State.endChange (s : State) (slot : Nat) : State := { s with hmp.changes := SMap.erase s.hmp.changes slot }

/-- Move a hamper to a state, noting the time (R104, R106). -/
def State.setHState (s : State) (slot : Nat) (st : HState) : State :=
  s.setDir slot { s.dir slot with state := st, lastNs := s.now }

/-- Complete the host command behind an asker, if there is one. -/
def State.reply (s : State) (a : Option Nat) (code : Nat) (detail data : Word) : State :=
  match a with
  | some id => s.complete id code detail data
  | none => s

/-- The home has made a transition and its shards follow (R99, R106): the transition is in progress until every one of them has
completed it, and the command then ends; a node of one module has none to wait for. -/
def State.follow (s : State) (slot : Nat) (h : Word) (k : ChangeKind) (x : ShardShare) (cmd : Option Nat) (code : Nat)
    (data : Word) : State :=
  if s.peers.isEmpty then s.reply cmd code 0 data
  else
    { s.sendAll 7 (.share h x) with
      hmp.changes := SMap.put s.hmp.changes slot
        { kind := k, cmd := cmd, sinceNs := s.now, waiting := s.peers, code := code, data := data } }

/-! ### Geometry (R143 to R147) -/

def State.layers (s : State) (m : Nat) : Nat := s.field (Reg.kvsGeometry m) 35 28
def State.heads (s : State) (m : Nat) : Nat := s.field (Reg.kvsGeometry m) 39 36
def State.group (s : State) (m : Nat) : Nat := s.field (Reg.kvsGeometry m) 45 40
def State.pps (s : State) (m : Nat) : Nat := s.field (Reg.kvsGeometry m) 15 0
/-- Head dimension d (R145). -/
def State.headDim (s : State) (m : Nat) : Nat := 64 * 2 ^ s.field (Reg.kvsGeometry m) 47 46
def State.pagesPerBlock (s : State) (m : Nat) : Nat := if s.headDim m = 256 then 2 else 1
/-- Blocks of a span on this module. -/
def State.blocks (s : State) (m : Nat) : Nat := s.layers m * s.heads m

def tablePages (spans : Nat) : Nat := ceilDiv (16 * spans) 65536
def sidePages (spans blocks : Nat) : Nat := ceilDiv (64 * spans * blocks) 65536
def logPages (maxTokens : Nat) : Nat := ceilDiv (4 * maxTokens) 65536

/-- First page of a hamper's KV region (R151). -/
def State.kvPage (s : State) (slot : Nat) : Nat :=
  let h := s.hdr slot
  h.spanTable / 65536 + tablePages h.spans + sidePages h.spans (s.blocks (s.dir slot).model)

/-! ### Span tables (R156 to R160) -/

def spanKey (slot n : Nat) : Nat := slot * 65536 + n
def sideKey (slot n b : Nat) : Nat := (slot * 65536 + n) * 4096 + b

/-- A span's entry; one never edited is EMPTY with its reserved BASE (R151). -/
def State.span (s : State) (slot n : Nat) : SpanEnt :=
  (SMap.lookup s.kvs.spans (spanKey slot n)).getD
    { base := s.kvPage slot + s.pps (s.dir slot).model * n }
def State.setSpan (s : State) (slot n : Nat) (e : SpanEnt) : State :=
  { s with kvs.spans := SMap.put s.kvs.spans (spanKey slot n) e }
def State.side (s : State) (slot n b : Nat) : Side := SMap.get {} s.kvs.side (sideKey slot n b)
def State.setSide (s : State) (slot n b : Nat) (r : Side) : State :=
  { s with kvs.side := s.kvs.side.set {} (sideKey slot n b) r }

/-- Change every side record of a span. -/
def sideLoop (slot n : Nat) (f : Side → Side) : List Nat → State → State
  | [], s => s
  | b :: bs, s => sideLoop slot n f bs (s.setSide slot n b (f (s.side slot n b)))
def State.mapSides (s : State) (slot n : Nat) (f : Side → Side) : State :=
  sideLoop slot n f (List.range (s.blocks (s.dir slot).model)) s

/-- An edit that changes RES or RECOMP: the header's SPAN_GEN advances and the entry takes it (R159). -/
def State.editSpan (s : State) (slot n : Nat) (e : SpanEnt) : State :=
  let g := (s.hdr slot).spanGen + 1
  (s.setHdr slot { s.hdr slot with spanGen := g }).setSpan slot n { e with gen := g }

/-- Pages of a span. -/
def State.spanPages (s : State) (slot n : Nat) : List Nat :=
  pageRun (s.span slot n).base (s.pps (s.dir slot).model)

/-- RES from the homes of a span's pages (R157). -/
def State.resOf (s : State) (pages : List Nat) : Res :=
  if pages.all fun p => (s.leaf p).tier = .dram || (s.leaf p).tier = .larder then .resident else .parked

/-- State address of a side record (R151). -/
def State.sideAddr (s : State) (slot n b : Nat) : Nat :=
  let h := s.hdr slot
  h.spanTable + 65536 * tablePages h.spans + 64 * (n * s.blocks (s.dir slot).model + b)

/-- The page of the span table that holds an entry, and the pages of the side array that hold its records (R151, R156). -/
def State.entryPage (s : State) (slot n : Nat) : Nat := ((s.hdr slot).spanTable + 16 * n) / 65536
def State.recordPages (s : State) (slot n : Nat) : List Nat :=
  let b := s.blocks (s.dir slot).model
  let p := s.sideAddr slot n 0 / 65536
  pageRun p ((s.sideAddr slot n (b - 1)) / 65536 + 1 - p)

/-- The write of an edit of a span's entry, or of its side records, would reach a page that has lost its home (R160). -/
def State.entryLost (s : State) (slot n : Nat) : Bool := (s.leaf (s.entryPage slot n)).poison
def State.sidesLost (s : State) (slot n : Nat) : Bool := (s.recordPages slot n).any fun p => (s.leaf p).poison

/-- RES from the homes would differ from the entry's (R158). -/
def State.resMoves (s : State) (slot n : Nat) : Bool :=
  let e := s.span slot n
  (e.res = .resident || e.res = .parked) && e.res ≠ s.resOf (s.spanPages slot n)

/-- Set RES of a present span from its pages' homes (R158); an unchanged RES is no edit, and one whose write would reach a lost page
is not made (R160). -/
def State.refreshRes (s : State) (slot n : Nat) : State :=
  s.iff (s.resMoves slot n && !s.entryLost slot n) fun s =>
    s.editSpan slot n { s.span slot n with res := s.resOf (s.spanPages slot n) }

/-- A page of a hamper's span table or side array has lost its home (R160). -/
def State.tablePoisoned (s : State) (slot : Nat) : Bool :=
  let h := s.hdr slot
  (pageRun (h.spanTable / 65536) (tablePages h.spans + sidePages h.spans (s.blocks (s.dir slot).model))).any
    fun p => (s.leaf p).poison

/-- The session whose own span a shared entry names: the unshared entry of another slot with the same BASE (R164). -/
def State.ownerOf (s : State) (slot n : Nat) : Option Nat :=
  let b := (s.span slot n).base
  (s.kvs.spans.find? fun x => x.2.base = b && !x.2.shared && x.1 ≠ spanKey slot n && x.2.res ≠ .empty).map
    fun x => x.1 / 65536

/-- Firmware queues the recompute of a span (R174, R198); `need` when a request waits on it (R194, R200). -/
def State.wantSpan (s : State) (need : Bool) (slot n : Nat) : State :=
  let add := fun (l : List (Nat × Nat)) => if l.contains (slot, n) then l else l ++ [(slot, n)]
  { s with kvs.wanted := add s.kvs.wanted, kvs.needed := if need then add s.kvs.needed else s.kvs.needed }

/-- The tail span: the span that holds position COMMIT_LEN (R81). -/
def State.tailSpan (s : State) (slot : Nat) : Nat := (s.hdr slot).commitLen / 256

/-! ### Deferred reclamation (R179 to R181) -/

def State.stamps (s : State) : List (BitVec 32) :=
  [(SMap.get {} s.cmp.dies 0).nextStart, (SMap.get {} s.cmp.dies 1).nextStart,
    (SMap.get {} s.cmp.dies 2).nextStart, (SMap.get {} s.cmp.dies 3).nextStart]

/-- Every die's reclamation tally equals its stamp or is newer than it (R180). -/
def State.stampsPassed (s : State) (st : List (BitVec 32)) : Bool :=
  [0, 1, 2, 3].all fun d =>
    let t := s.tally (1024 * d + 1023)
    t = st.getD d 0 || newer (st.getD d 0) t

def State.deferFull (s : State) : Bool := 65536 ≤ s.kvs.deferred.length

/-- Place a deferred item; the list holds 65,536 (R181).  An item that no edit could be refused for, because its pages are unmapped
or its hamper is FREE already, waits beside a full list (log entry 97). -/
def State.defer (s : State) (k : DeferKind) (pages owners : List Nat) (req : Option Nat) : State :=
  let it : DeferItem := { id := s.kvs.nextId, kind := k, stamps := s.stamps, pages := pages, req := req, owners := owners }
  let s := { s with kvs.nextId := s.kvs.nextId + 1 }
  if s.deferFull then { s with kvs.held := s.kvs.held ++ [it] } else { s with kvs.deferred := s.kvs.deferred ++ [it] }

/-- Take an item off the list; the first that waits for room is placed and stamped (R180, R181). -/
def State.undefer (s : State) (id : Nat) : State :=
  let l := s.kvs.deferred.filter fun x => x.id ≠ id
  match s.kvs.held with
  | [] => { s with kvs.deferred := l }
  | x :: xs =>
    if 65536 ≤ l.length then { s with kvs.deferred := l }
    else { s with kvs.deferred := l ++ [{ x with stamps := s.stamps }], kvs.held := xs }

/-- A deferred item of a span is pending (R162). -/
def State.spanPending (s : State) (slot n : Nat) : Bool :=
  (s.kvs.deferred ++ s.kvs.held).any fun it => it.owners.contains (spanKey slot n)

/-! ### Ends of requests (R71, R163, R165) -/

/-- The outcome of a span from those of its pages: failed before abandoned before moved (R163). -/
def worse : Outcome1 → Outcome1 → Outcome1
  | .failed c, _ => .failed c
  | _, .failed c => .failed c
  | .abandoned, _ => .abandoned
  | _, o => o

def countOf (r : SMap Outcome1) (p : Outcome1 → Bool) : Nat := (r.filter fun x => p x.2).length
def isMoved : Outcome1 → Bool
  | .moved => true
  | _ => false
def isAbandoned : Outcome1 → Bool
  | .abandoned => true
  | _ => false
def isFailed : Outcome1 → Bool
  | .failed _ => true
  | _ => false

/-- The lowest-numbered failed entry of an ascending result list. -/
def firstFailed : SMap Outcome1 → Option (Nat × Nat)
  | [] => none
  | (k, .failed c) :: _ => some (k, c)
  | _ :: r => firstFailed r

/-- The completion item of R71 for a set of results; `addr` gives the address of a failed entry. -/
def resultItem (t0 t1 : Word) (r : SMap Outcome1) (addr : Nat → Word) : Item :=
  let f := firstFailed r
  completionItem t0 t1 (countOf r isMoved) (countOf r isAbandoned) (countOf r isFailed)
    ((f.map (·.2)).getD 0) ((f.map fun x => addr x.1).getD 0)

/-- Report the end of a span request: its item to the queue, or its part of a host SPAN command (R163, R165). -/
def State.mergeSpan (s : State) (cmd ringPos : Nat) (r : SMap Outcome1) (base : Nat → Nat) : State :=
  let upd := fun (c : HostCmd) =>
    let m := r.foldl (fun m x =>
      let v := match SMap.lookup m x.1 with
        | none => (x.2, ringPos, base x.1)
        | some (o, rp, b) =>
          if isFailed o && isFailed x.2 then (if rp ≤ ringPos then (o, rp, b) else (x.2, ringPos, base x.1))
          else if isFailed o then (o, rp, b)
          else if isFailed x.2 then (x.2, ringPos, base x.1)
          else (worse o x.2, rp, b)
      SMap.put m x.1 v) c.spanRes
    { c with spanRes := m, waitMods := c.waitMods.filter fun p => p ≠ ringPos }
  let s := { s with host.cmds := s.host.cmds.map (fun (c : HostCmd) => if c.id = cmd then upd c else c) }
  match s.host.cmds.find? (fun (c : HostCmd) => c.id = cmd) with
  | none => s
  | some c =>
    if c.waitMods.isEmpty then
      let res : SMap Outcome1 := c.spanRes.map (fun (x : Nat × Outcome1 × Nat × Nat) => (x.1, x.2.1))
      let it := resultItem 0 0 res fun n => match SMap.lookup c.spanRes n with
        | some (_, _, b) => BitVec.ofNat 64 (b * 65536)
        | none => 0
      (s.noteReport (bits it.w3 15 0) c.session it.w4).complete cmd (bits it.w3 15 0) it.w2 it.w4
    else s

/-- Post a completion item, with its record in the event log (R71, R163, R700). -/
def State.postResult (s : State) (q tally : Nat) (it : Item) : State :=
  (s.noteReport (bits it.w3 15 0) it.w0 it.w4).post q it tally

def State.endSpanReq (s : State) (r : SpanReq) : State :=
  let s := { s with kvs.reqs := s.kvs.reqs.filter fun x => x.id ≠ r.id }
  match r.origin with
  | .item q t t0 t1 => s.postResult q t (resultItem t0 t1 r.results fun n => BitVec.ofNat 64 ((s.span r.slot n).base * 65536))
  | .host c => s.mergeSpan c s.comp.map.ringPos r.results fun n => (s.span r.slot n).base
  | .recompute slot span =>
    { s with kvs.recomputes := s.kvs.recomputes.map fun (x : Recompute) =>
        if x.slot = slot && x.span = span then { x with own := some (((firstFailed r.results).map (·.2)).getD 0) } else x }
  | _ => s

/-- One action of a span request has ended; the request ends with its last. -/
def State.spanPart (s : State) (id : Nat) (n : Nat) (o : Outcome1) : State :=
  match s.kvs.reqs.find? fun x => x.id = id with
  | none => s
  | some r =>
    let o := match SMap.lookup r.results n with
      | some p => worse p o
      | none => o
    let r := { r with results := SMap.put r.results n o, waiting := r.waiting - 1 }
    if r.waiting = 0 then s.endSpanReq r
    else { s with kvs.reqs := s.kvs.reqs.map (fun (x : SpanReq) => if x.id = id then r else x) }

/-- The end of the ferries of a PARK or FETCH span request: RES from the homes, outcomes by span (R162, R163). -/
def State.spanFerries (s : State) (id : Nat) (pages : SMap Outcome1) : State :=
  match s.kvs.reqs.find? fun x => x.id = id with
  | none => s
  | some r =>
    let ns := (List.range r.count).map (r.first + ·)
    let live := ns.filter fun n => (SMap.lookup r.results n).isNone
    let res := live.foldl (fun m n =>
      let base := (s.span r.slot n).base
      let mine := pages.filter fun x => base ≤ x.1 && x.1 < base + s.pps (s.dir r.slot).model
      let lost : Outcome1 := if s.resMoves r.slot n && s.entryLost r.slot n then .failed Code.poisoned else .moved
      SMap.put m n (mine.foldl (fun o x => worse o x.2) lost)) r.results
    let s := live.foldl (fun s n => s.refreshRes r.slot n) s
    s.endSpanReq { r with results := res, waiting := 0 }

/-- A module's share of a revive has ended (R120): spans' RES are set, and the home is told. -/
def State.reviveShare (s : State) (slot : Nat) (pages : SMap Outcome1) : State :=
  let h := s.hdr slot
  let s := (List.range h.spans).foldl (fun s n => s.refreshRes slot n) s
  let code := ((firstFailed pages).map (·.2)).getD 0
  if (s.dir slot).kind = .home then
    match SMap.lookup s.hmp.revives slot with
    | none => s
    | some r =>
      let r := { r with waiting := r.waiting.filter fun m => m ≠ s.self,
                        failCode := if r.failCode = 0 then code else r.failCode }
      { s with hmp.revives := SMap.put s.hmp.revives slot r }
  else if (s.dir slot).state ≠ .reviving then s
  else ((if code = 0 then s.setHState slot .active else s.setHState slot .parked).send (hModule h.handle) 7
    (.reviveDone h.handle code))

/-- The retirement of a DRAM page ends: it leaves the retry list, and DRAM.STATUS.RETIRED counts it (R614). -/
def State.retiredPage (s : State) (d : Nat) : State :=
  let s := { s with tsm.retiring := s.tsm.retiring.filter fun x => x ≠ d }
  s.setField Reg.dramStatus 35 23 (s.field Reg.dramStatus 35 23 + 1)

/-- Pages of the non-KV run: span table, side array and at the home the token log (R518). -/
def tablePageList (s : State) (slot : Nat) : List Nat :=
  let h := s.hdr slot
  let b := h.spanTable / 65536
  let home := (s.dir slot).kind = .home
  pageRun b (tablePages h.spans + sidePages h.spans (s.blocks (s.dir slot).model)) ++
    (if home then pageRun (h.tokenLog / 65536) (logPages h.maxTokens) else [])

/-- The pages of a session's data in stream order (R543): the non-KV run, and the pages of every RESIDENT or PARKED span. -/
def State.dataPages (s : State) (slot : Nat) : List Nat :=
  tablePageList s slot ++ (List.range (s.hdr slot).spans).flatMap fun n =>
    if (s.span slot n).res = .resident || (s.span slot n).res = .parked then s.spanPages slot n else []

/-- Write words over mapped pages from page p. -/
def writeListPages : Nat → Nat → List Word → State → State
  | 0, _, _, s => s
  | n + 1, p, ws, s => writeListPages n (p + 1) (ws.drop 8192) (s.writeWords (homeAddr (s.leaf p).tier (s.leaf p).loc 0) (ws.take 8192))

/-- Firmware pushes the transfer item of this module's hamper or shard (R127, R543) on the edge's queue: the page list is built on
pages of its own; with no page for it nothing is sent, and the giver re-adopts by R131 (log entry 94). -/
def State.pushTransfer (s : State) (slot peer : Nat) (target : Word) : State :=
  let list := (s.dir slot).header :: (s.dataPages slot).map fun p => 65536 * p
  let n := list.length
  let k := ceilDiv (8 * n) 65536
  let p := s.tsm.nextVa
  let q := s.field Reg.netControl 8 0
  match mapRun .dram 0 false (s.dir slot).tclass (pageRun p k) s with
  | some s =>
    let s := writeListPages k p (list.map fun a => BitVec.ofNat 64 a) s
    let r := s.stamp (readerUnit 8)
      { w0 := (s.hdr slot).handle, w1 := fld 35 32 7 ||| fld 40 40 1, w2 := fld 63 54 peer, w3 := fld 63 32 n
        w4 := BitVec.ofNat 64 (65536 * p), w5 := target }
    { r.2 with tsm.nextVa := p + k, net.lists := s.net.lists ++ [(p, k)] }.hwPush q { prio := 0, item := r.1 }
  | none => s

/-- Step 1 of a transfer: pages homed in the sett are ferried to DRAM first (R63, R543). -/
def State.settPages (s : State) (slot : Nat) : List Nat :=
  (s.dataPages slot).filter fun p => (s.leaf p).v && (s.leaf p).tier = .sett

/-- Post the end of a ferry request by its origin (R71, R86, R614). -/
def State.endFerry (s : State) (r : FerryReq) : State :=
  let s := { s with tsm.reqs := s.tsm.reqs.filter fun x => x.id ≠ r.id }
  let addr := fun (p : Nat) => BitVec.ofNat 64 (p * 65536)
  match r.origin with
  | .item q t t0 t1 => s.postResult q t (resultItem t0 t1 r.results addr)
  | .host c =>
    let it := resultItem 0 0 r.results addr
    (s.noteReport (bits it.w3 15 0) 0 it.w4).complete c (bits it.w3 15 0) it.w2 it.w4
  | .span id => s.spanFerries id r.results
  | .revive slot => s.reviveShare slot r.results
  | .transfer slot peer target =>
    if (r.results.any fun x => isFailed x.2) || (s.dir slot).state ≠ .giving then s else s.pushTransfer slot peer target
  | .evict slot span =>
    let s := match span with
      | some n => s.refreshRes slot n
      | none => s
    s.iff (r.results.any fun x => isFailed x.2) fun s => s.bump (Reg.tsmCnt 3)
  | .retire p =>
    if r.results.all fun x => isMoved x.2 then s.retiredPage p else s
  | _ => s

/-- One page of a request has ended; after the last, the request ends (R71). -/
def State.endPage (s : State) (req p : Nat) (o : Outcome1) : State :=
  let s := s.iff (isAbandoned o) fun s => s.bump (Reg.tsmCnt 5)
  match s.tsm.reqs.find? fun x => x.id = req with
  | none => s
  | some r =>
    let r := { r with results := SMap.put r.results p o, waiting := r.waiting - 1 }
    if r.waiting = 0 then s.endFerry r
    else { s with tsm.reqs := s.tsm.reqs.map (fun (x : FerryReq) => if x.id = req then r else x) }

/-- Start a request over pages: every page goes through R70; a request with no claim ends at once. -/
def State.startFerry (s : State) (o : Origin) (w : Want) (pages : List Nat) : State :=
  let id := s.tsm.nextReq
  let s := { s with tsm.nextReq := id + 1 }
  let r := claimLoop id w pages s
  let req := FerryReq.mk id o (r.1.foldl (fun m x => SMap.put m x.1 x.2) []) r.2.1
  let s := { r.2.2 with tsm.reqs := r.2.2.tsm.reqs ++ [req] }
  if r.2.1 = 0 then s.endFerry req else s

/-- A claim is lost or fails before its switch (R69): FERRY is cleared, the destination is discarded, the source
remains home, and the page ends with the given outcome. -/
def State.dropClaim (s : State) (p : Nat) (o : Outcome1) (poison : Bool := false) : State :=
  match SMap.lookup s.tsm.ops p with
  | none => s
  | some op =>
    let s := s.setLeaf p { s.leaf p with ferry := false, ferryId := 0, poison := poison || (s.leaf p).poison }
    let s := { s with tsm.ops := SMap.erase s.tsm.ops p }
    let s := if op.isDrop then s else s.giveBack op.dst op.dstLoc
    s.endPage op.req p o

/-! ### Dropping a span (R81, R171) -/

/-- The drop rule: the conditions of R81 and R171 on a span. -/
def State.dropAllowed (s : State) (slot n : Nat) : Bool :=
  let e := s.span slot n
  let ps := s.spanPages slot n
  (e.res = .resident || e.res = .parked) && !e.shared && e.sharers = 0 && !e.inSnap && !e.recomp && !e.pinned
    && n ≠ s.tailSpan slot && 256 * (n + 1) ≤ (s.hdr slot).commitLen
    && ps.all fun p => (s.leaf p).kv && !(s.leaf p).pin && !(s.leaf p).wp && (s.leaf p).tier ≠ .larder

/-- Statistics pages that a span's side records name. -/
def State.statPages (s : State) (slot n : Nat) : List Nat :=
  ((List.range (s.blocks (s.dir slot).model)).map fun b => (s.side slot n b).stats / 65536).filter fun p => p ≠ 0

/-- Steps 1 to 3 of R171: the entry becomes DROPPED, statistics pages and the span's pages get deferred items. -/
def State.dropSpan (s : State) (slot n : Nat) (req : Option Nat) : Except Nat State :=
  let stats := s.statPages slot n
  if !s.dropAllowed slot n then .error Code.spanState
  else if s.entryLost slot n || (!stats.isEmpty && s.sidesLost slot n) then .error Code.poisoned
  else
    if 65536 < s.kvs.deferred.length + 1 + bnat (!stats.isEmpty) then .error Code.reclaimFull
    else
      let pages := s.spanPages slot n
      let s := s.editSpan slot n { s.span slot n with res := .dropped }
      let s := s.iff (!stats.isEmpty) fun s =>
        (s.mapSides slot n fun r => { r with stats := 0 }).defer .pages stats [spanKey slot n] none
      let s := s.defer (.drop slot n) pages [spanKey slot n] req
      .ok (s.bump (Reg.kvsCnt 3))

/-- A deferred item whose pages are all freed leaves the list; a drop's completion is posted (R171). -/
def State.endDefer (s : State) (id : Nat) : State :=
  match s.kvs.deferred.find? fun x => x.id = id with
  | none => s
  | some it =>
    if it.released && it.busy.isEmpty && it.shooting = 0 then
      let s := s.undefer id
      match it.kind, it.req with
      | .drop _ n, some r => s.spanPart r n .moved
      | _, _ => s
    else s

/-- Change a deferred item. -/
def State.setDefer (s : State) (id : Nat) (f : DeferItem → DeferItem) : State :=
  { s with kvs.deferred := s.kvs.deferred.map (fun (x : DeferItem) => if x.id = id then f x else x) }

/-- Free one page of a released item (R74, R171): skipped when unmapped, retried when claimed or protected. -/
def State.freePage (s : State) (id p : Nat) : State :=
  let l := s.leaf p
  if !l.v then s
  else if l.ferry || l.wp then s.setDefer id fun it => { it with busy := it.busy ++ [p] }
  else
    let s := (s.unmap p).shoot p (.released id l.tier l.loc)
    s.setDefer id fun it => { it with shooting := it.shooting + 1 }

def freeLoop (id : Nat) : List Nat → State → State
  | [], s => s
  | p :: ps, s => freeLoop id ps (s.freePage id p)

/-! ### Translation for an access (R60 to R64) -/

/-- What an access meets: a home, a fault, or a wait for copy-on-write. -/
inductive Trans where
  | home (t : Tier) (loc : Nat)
  | fault (code : Nat)
  | stall
  deriving DecidableEq, Repr

def tlbKey (cache p : Nat) : Nat := cache * 2 ^ 36 + p

/-- A cached entry grants a write only when filled with FERRY, WP and POISON clear (R62). -/
def Leaf.writable (l : Leaf) : Bool := !l.ferry && !l.wp && !l.poison

/-- Fill a translation cache with an entry as it stands; a cache holds only entries with V = 1 (R62). -/
def State.fillTlb (s : State) (cache p : Nat) : State :=
  s.iff (s.leaf p).v fun s => { s with tsm.tlb := SMap.put s.tsm.tlb (tlbKey cache p) (s.leaf p) }

/-- A write that meets a write-protected page passes it to the snapshot engine, and the writer stalls (R514). -/
def State.askCopy (s : State) (p : Nat) : State :=
  if s.tsm.cow.contains p then s else { s with tsm.cow := s.tsm.cow ++ [p] }.bump (Reg.tsmCnt 12)

/-- The write intent of R64 on a page: a claim is abandoned, a write-protected page goes to the snapshot engine. -/
def State.intent (s : State) (cache p : Nat) : State :=
  let s := if (s.leaf p).ferry then s.dropClaim p .abandoned else s
  if (s.leaf p).wp then s.askCopy p else s.fillTlb cache p

/-- How a writer goes on with the leaf entry that a write intent returned (R64). -/
def Leaf.afterIntent (l : Leaf) (data : Bool) : Trans :=
  if !l.v then .fault Code.unmapped
  else if l.poison then .fault Code.poisoned
  else if l.tier = .sett && data then .fault Code.notResident
  else if l.wp then .stall
  else .home l.tier l.loc

/-- Set AGE to 0 on an access (R58). -/
def State.touch (s : State) (p : Nat) : State :=
  s.iff ((s.leaf p).v && (s.leaf p).age ≠ 0) fun s => s.setLeaf p { s.leaf p with age := 0 }

/-- Translate an access by a unit's walker: `data` marks a data-plane unit (R63). -/
def State.translate (s : State) (cache addr : Nat) (write data : Bool) : Trans × State :=
  if 2 ^ 52 ≤ addr then (.fault Code.noncanon, s)
  else
    let p := addr / 65536
    if (s.leaf p).v && (s.leaf p).pin then (.home (s.leaf p).tier (s.leaf p).loc, s.touch p)
    else
      let filled := match SMap.lookup s.tsm.tlb (tlbKey cache p) with
        | some l => Except.ok (l, s)
        | none =>
          match s.walk p data with
          | .error c => .error c
          | .ok l => .ok (l, { s with tsm.tlb := SMap.put s.tsm.tlb (tlbKey cache p) l })
      match filled with
      | .error c => (.fault c, s)
      | .ok (l, s) =>
        let s := s.touch p
        let s := if write then s.dropAhead p else s
        if write && !l.writable then
          let s := s.intent cache p
          ((s.leaf p).afterIntent data, s)
        else (.home l.tier l.loc, s)

/-- Byte address of a state address's home, for an access already known to succeed. -/
def State.physOf (s : State) (addr : Nat) : Nat :=
  let l := s.leaf (addr / 65536)
  homeAddr l.tier l.loc (addr % 65536)

/-! ### Hampers to FREE (R107) -/

/-- Every mapped page of a hamper on this module: log, table, side array, KV region and statistics pages. -/
def State.hamperPages (s : State) (slot : Nat) : List Nat :=
  let h := s.hdr slot
  let m := (s.dir slot).model
  let log := h.tokenLog / 65536
  let kv := s.kvPage slot
  let stats := (s.kvs.side.filter fun x => x.1 / 4096 / 65536 = slot && x.2.stats ≠ 0).map fun x => x.2.stats / 65536
  (s.tsm.leaf.filter fun x => x.2.v && !x.2.pin &&
    ((h.tokenLog ≠ 0 && log ≤ x.1 && x.1 < log + logPages h.maxTokens) ||
     (h.spanTable ≠ 0 && h.spanTable / 65536 ≤ x.1 && x.1 < kv + s.pps m * h.spans) || stats.contains x.1)).map (·.1)

/-- Unshare every shared span of a hamper: owners' SHARERS fall (R164, R165). -/
def unshareLoop (slot : Nat) : List Nat → State → State
  | [], s => s
  | n :: ns, s =>
    let s := if (s.span slot n).shared then
        match s.ownerOf slot n with
        | some o => s.iff (!s.entryLost o n) fun s => s.setSpan o n { s.span o n with sharers := (s.span o n).sharers - 1 }
        | none => s
      else s
    unshareLoop slot ns s

/-- One hamper goes to FREE: its pages pass to deferred reclamation, its generation advances, KIND becomes none (R107). -/
def State.freeOne (s : State) (slot : Nat) : State :=
  let pages := s.hamperPages slot
  let s := unshareLoop slot (List.range (s.hdr slot).spans) s
  let s := s.iff (!pages.isEmpty) fun s => s.defer .pages pages [] none
  let e := s.dir slot
  let s := s.setDir slot { gen := nextGen e.gen, lastNs := s.now }
  { s with
    hmp.hdr := SMap.erase s.hmp.hdr slot
    hmp.log := s.hmp.log.filter fun x => x.1 / 2 ^ 24 ≠ slot
    kvs.spans := s.kvs.spans.filter fun x => x.1 / 65536 ≠ slot
    kvs.side := s.kvs.side.filter fun x => x.1 / 4096 / 65536 ≠ slot
    hmp.changes := SMap.erase s.hmp.changes slot
    hmp.revives := SMap.erase s.hmp.revives slot
    hmp.gives := SMap.erase s.hmp.gives slot
    hmp.takes := SMap.erase s.hmp.takes slot }

/-- A hamper goes to FREE (R107), and the companion hamper of its draft model with it (R364). -/
def State.toFree (s : State) (slot : Nat) : State :=
  let c := SMap.lookup s.fw.companions slot
  let s := { s.freeOne slot with fw.companions := s.fw.companions.filter fun x => x.1 ≠ slot && x.2 ≠ slot }
  match c with
  | some k => s.freeOne k
  | none => s

/-- PART_LOCAL of a model slot (R187). -/
def State.partLocal (s : State) (m : Nat) : Bool := bit (s.reg Reg.kvsAttn) (48 + m)

/-- The lowest decode slot of the module's range that no hamper holds (R120). -/
def State.freeDecode (s : State) : Option Nat :=
  let lo := s.field Reg.hmpDecodeRange 12 0
  let hi := s.field Reg.hmpDecodeRange 28 16
  let used := (s.hmp.dir.filter fun x => x.2.state = .active || x.2.state = .reviving).map fun x => x.2.decode
  match findFrom (fun k => !used.contains k) lo (used.length + 1) with
  | some k => if k ≤ hi then some k else none
  | none => none

/-- The lowest FREE slot of the module's directory range (R669). -/
def State.freeSlot (s : State) : Option Nat :=
  let lo := s.field Reg.hmpDirRange 21 0
  let hi := s.field Reg.hmpDirRange 53 32
  match findFrom (fun k => (s.dir k).state = .free && !s.busy k) lo (s.hmp.dir.length + s.hmp.changes.length + 1) with
  | some k => if k ≤ hi then some k else none
  | none => none

end Sys2Proof.Machine
end

