-- ==== Sys2Proof/Machine/Scatter.lean ====
section
/-! DEFINITION. KV scatters: quantisation, side records, sketches and scatter descriptors (R148 to R154, R166 to R170). -/

namespace Sys2Proof.Machine

open Sys2Proof

/-- A descriptor of R166. -/
structure Desc where
  session : Word
  pos : Nat
  rows : Nat
  layer : Nat
  head : Nat
  recompute : Bool
  fmt : Nat
  srcK : Nat
  srcV : Nat
  tally : Nat
  deriving DecidableEq, Repr

def Desc.ofItem (i : Item) : Desc :=
  ⟨i.w0, bits i.w1 63 32, bits i.w1 31 19, bits i.w1 18 11, bits i.w1 10 7, bit i.w1 6, bits i.w1 5 4,
    bits i.w2 28 0, bits i.w3 28 0, bits i.w4 11 0⟩

/-- The spans a run of rows touches. -/
def Desc.spans (d : Desc) : List Nat :=
  (List.range ((d.pos + d.rows - 1) / 256 + 1 - d.pos / 256)).map (d.pos / 256 + ·)

/-- A walker's reading of one entry in the running segment: read once, against the pin taken at the first reading (R177, R178). -/
def State.readEntry (s : State) (die slot n : Nat) : SpanEnt × BitVec 32 × State :=
  let d := s.die die
  let pin := (SMap.lookup d.pins slot).getD (s.hdr slot).spanGen
  let e := (SMap.lookup d.readings (spanKey slot n)).getD (s.span slot n)
  (e, pin, s.setDie die { d with pins := SMap.put d.pins slot pin, readings := SMap.put d.readings (spanKey slot n) e })

/-- A walker's readings of a list of entries. -/
def readEntries (die slot : Nat) : List Nat → State → List SpanEnt × State
  | [], s => ([], s)
  | n :: ns, s =>
    let e := s.readEntry die slot n
    let r := readEntries die slot ns e.2.2
    (e.1 :: r.1, r.2)

/-- The checks of R167 in order that need no span: 0 when the descriptor passes.  ROWS_N of 0 or above 4,096 is refused with
INVALID_FIELD after the geometry (DESIGN CHOICE: R167 names neither code nor place; log entry 98). -/
def State.descRange (s : State) (d : Desc) : Nat :=
  let h := s.handleCode d.session
  let slot := hSlot d.session
  let m := (s.dir slot).model
  if h ≠ 0 then h
  else if s.layers m ≤ d.layer || s.heads m ≤ d.head || 2 ≤ d.fmt then Code.badGeometry
  else if d.rows = 0 || 4096 < d.rows then Code.invalidField
  else if d.recompute then
    if d.pos / 256 ≠ (d.pos + d.rows - 1) / 256 || (s.hdr slot).spans ≤ d.pos / 256 then Code.kvRange else 0
  else if d.pos < (s.hdr slot).commitLen || (s.hdr slot).maxTokens < d.pos + d.rows then Code.kvRange
  else 0

/-- The checks of R167 on the entries a mover has read. -/
def Desc.spanCode (d : Desc) (es : List SpanEnt) : Nat :=
  if d.recompute then if es.all fun e => e.res = .dropped && e.recomp then 0 else Code.spanState
  else if es.any fun e => e.res = .empty then Code.spanEmpty
  else if es.any fun e => e.res = .dropped || e.shared then Code.spanState
  else 0

/-- The checks of R167 in order; 0 when the descriptor passes.  The mover reads the span table as a walker (R177). -/
def State.descCode (s : State) (die : Nat) (d : Desc) : Nat × State :=
  let c := s.descRange d
  if c ≠ 0 then (c, s)
  else
    let r := readEntries die (hSlot d.session) d.spans s
    (d.spanCode r.1, r.2)

/-- Element `j` of source row `i` in the die's larder: BF16 or FP32 rows of `dim` elements. -/
def State.srcElem (s : State) (die base fmt dim i j : Nat) : FVal :=
  if fmt = 0 then fpBF16.decode (s.readNat (larderAddr die (base + 2 * (i * dim + j))) 2)
  else fpFP32.decode (s.readNat (larderAddr die (base + 4 * (i * dim + j))) 4)

/-- Least power of two at or above n / d: its exponent, for n > 0. -/
def ceilLog2Ratio (n d : Nat) : Int :=
  let e : Int := (Nat.log2 n : Int) - Nat.log2 d - 1
  let ok := fun (e : Int) => if 0 ≤ e then n ≤ d * 2 ^ e.toNat else n * 2 ^ e.natAbs ≤ d
  if ok e then e else if ok (e + 1) then e + 1 else e + 2

/-- The block scale of R149 as an exponent, from the largest magnitude in units of 2^-300. -/
def State.scaleExp (s : State) (m : Nat) (vs : List FVal) : Int :=
  let lo := sext 8 (s.field (Reg.kvsGeometry m) 63 56)
  let head := s.field (Reg.kvsGeometry m) 50 48
  let inf := vs.any fun v => match v with
    | .inf _ => true
    | _ => false
  let a := maxMag vs
  if inf then 127
  else if a = 0 then lo
  else min 127 (max lo (ceilLog2Ratio (a * 2 ^ head) (448 * 2 ^ 300)))

/-- FP32 pattern of 2^e, and the exponent of a stored scale. -/
def pow2F32 (e : Int) : BitVec 32 :=
  f32Of (.fin false (if 0 ≤ e then 2 ^ (300 + e.toNat) else 2 ^ (300 - e.natAbs)))
def scaleLog (x : BitVec 32) : Int :=
  match F32.val x with
  | .fin _ m => (Nat.log2 m : Int) - 300
  | _ => 0

/-- Convert one element by R148: the byte, whether it saturated, whether it is NaN. -/
def quantise (v : FVal) (e : Int) : Byte × Bool × Bool :=
  let r := fpE4M3.encode true (v.shift (-e))
  (BitVec.ofNat 8 r.1, r.2 || v.isInf, v = .nan)

/-- Write one row of keys or values; counts of saturated and NaN elements. -/
def rowLoop (die base fmt dim i a : Nat) (e : Int) : List Nat → Nat × Nat → State → (Nat × Nat) × State
  | [], n, s => (n, s)
  | j :: js, n, s =>
    let q := quantise (s.srcElem die base fmt dim i j) e
    rowLoop die base fmt dim i a e js (n.1 + bnat q.2.1, n.2 + bnat q.2.2) (s.setByte (a + j) q.1)

/-- The state address of a block (R147). -/
def State.blockAddr (s : State) (slot n layer head : Nat) : Nat :=
  let m := (s.dir slot).model
  (s.span slot n).base * 65536 + 65536 * s.pagesPerBlock m * (layer * s.heads m + head)

/-- An element of a mean vector, exact where it is finite. -/
inductive Mean where
  | nan
  | inf (neg : Bool)
  | fin (v : Int)
  deriving DecidableEq, Repr

/-- The mean of one element over rows, times their number: a NaN, or infinities of both signs, make a NaN. -/
def meanOf (vs : List FVal) : Mean :=
  if vs.contains .nan || (vs.contains (.inf true) && vs.contains (.inf false)) then .nan
  else if vs.contains (.inf true) then .inf true
  else if vs.contains (.inf false) then .inf false
  else .fin (vs.foldl (fun (a : Int) v => match v with
    | .fin b n => a + toInt b n
    | _ => a) 0)

/-- Is Σ σ_ij × m_j at or above 0 (R153)?  No value: the sum lies within 2^−20 × Σ |m_j| of zero, and its bit may be either.  A sum
that is a NaN is not at or above 0. -/
def projSign (sigma : Nat → Bool) (mean : List Mean) : Option Bool :=
  let ms := mean.zipIdx
  if mean.contains .nan then some false
  else
    let infs := ms.filterMap fun x => match x.1 with
      | .inf b => some (b == sigma x.2)
      | _ => none
    if !infs.isEmpty then some (infs.all fun neg => !neg)
    else
      let val := fun (x : Mean) => match x with
        | .fin v => v
        | _ => 0
      let sum := ms.foldl (fun (a : Int) x => if sigma x.2 then a + val x.1 else a - val x.1) 0
      if sum.natAbs * 2 ^ 20 ≤ sumNat (mean.map fun x => (val x).natAbs) then none else some (decide (0 ≤ sum))

/-- The 256 bits of a sketch of a mean vector (R153), by the model slot's projection table; bits that may be either are free. -/
def State.projBits (s : State) (m : Nat) (mean : List Mean) : List Bool × State :=
  let dim := mean.length
  let proj := (s.reg (Reg.kvsProj m)).toNat
  let base := s.free
  let bitOf := fun (i : Nat) =>
    (projSign (fun j => (s.byte (s.physOf (proj + i * (dim / 8) + j / 8))).toNat / 2 ^ (j % 8) % 2 = 1) mean).getD
      (Config.sketchBit (base + i))
  ((List.range 256).map bitOf, { s with free := base + 256 })

/-- Four words of a sketch, bit i in word i / 64 (R152). -/
def sketchWords (bs : List Bool) : List Word :=
  (List.range 4).map fun k =>
    BitVec.ofNat 64 (sumNat ((List.range 64).map fun i => bnat (bs.getD (64 * k + i) false) * 2 ^ i))

/-- The sketch of a block (R153), from its stored keys. -/
def State.sketch (s : State) (slot n layer head : Nat) : List Word × State :=
  let m := (s.dir slot).model
  let dim := s.headDim m
  let blk := s.blockAddr slot n layer head
  let key := fun (t j : Nat) => fpE4M3.decode (s.byte (s.physOf (blk + t * dim + j))).toNat
  let r := s.projBits m ((List.range dim).map fun j => meanOf ((List.range 256).map fun t => key t j))
  (sketchWords r.1, r.2)

/-- Set the scales of a block whose row 0 this descriptor writes (R149). -/
def State.openBlock (s : State) (die slot n : Nat) (d : Desc) (first count : Nat) : State :=
  let m := (s.dir slot).model
  let dim := s.headDim m
  let b := d.layer * s.heads m + d.head
  let vals := fun (base : Nat) => (List.range count).flatMap fun i => (List.range dim).map fun j =>
    s.srcElem die base d.fmt dim (first + i) j
  s.setSide slot n b { s.side slot n b with
    kScale := pow2F32 (s.scaleExp m (vals d.srcK)), vScale := pow2F32 (s.scaleExp m (vals d.srcV)) }

/-- A write of `n` bytes by a mover at a state address: where the bytes go and the state, or the code that stops it (R63, R64, R170,
R582); a page under a snapshot's protection has been waited for before the operation began. -/
def State.moverWrite (s : State) (cache addr n : Nat) : Except Nat Nat × State :=
  match s.translate cache addr true true with
  | (.fault c, s) => (.error c, s)
  | (.stall, s) => (.error Code.ferryBusy, s)
  | (.home t loc, s) =>
    if s.reachCode t loc ≠ 0 then (.error (s.reachCode t loc), s)
    else (.ok (homeAddr t loc (addr % 65536)), (s.countPool t true n).partWrite t (addr % 65536) n)

/-- Write rows one by one until done or a fault: the code that stopped the writes (R168, R169, R170).  The side record is written at
its own home with the row. -/
def scatterRows (die cache slot : Nat) (d : Desc) : List Nat → State → Nat × State
  | [], s => (0, s)
  | i :: is, s =>
    let m := (s.dir slot).model
    let dim := s.headDim m
    let n := (d.pos + i) / 256
    let t := (d.pos + i) % 256
    let b := d.layer * s.heads m + d.head
    let blk := s.blockAddr slot n d.layer d.head
    match s.moverWrite cache (s.sideAddr slot n b) 64 with
    | (.error c, s) => (c, s)
    | (.ok _, s) =>
      let s := if t = 0 then s.openBlock die slot n d i (min (d.rows - i) 256) else s
      match s.moverWrite cache (blk + t * dim) dim with
      | (.error c, s) => (c, s)
      | (.ok ka, s) =>
        match s.moverWrite cache (blk + 256 * dim + t * dim) dim with
        | (.error c, s) => (c, s)
        | (.ok va, s) =>
          let r := s.side slot n b
          let k := rowLoop die d.srcK d.fmt dim i ka (scaleLog r.kScale) (List.range dim) (0, 0) s
          let v := rowLoop die d.srcV d.fmt dim i va (scaleLog r.vScale) (List.range dim) k.1 k.2
          let s := v.2.setSide slot n b { r with
            sat := min 255 (r.sat + v.1.1), rows := if t = 0 then 1 else max r.rows (t + 1) }
          let s := ((s.bump (Reg.kvsCnt 0)).bumpBy (Reg.kvsCnt 1) v.1.1).bumpBy (Reg.kvsCnt 2) v.1.2
          let s := if t = 255 then
              let sk := s.sketch slot n d.layer d.head
              sk.2.setSide slot n b { sk.2.side slot n b with sketch := sk.1, sketchValid := true }
            else s
          scatterRows die cache slot d is s

/-- Pages that a checked descriptor would write: its blocks and their side records. -/
def State.descPages (s : State) (d : Desc) : List Nat :=
  let slot := hSlot d.session
  let m := (s.dir slot).model
  d.spans.flatMap fun n =>
    s.sideAddr slot n (d.layer * s.heads m + d.head) / 65536 ::
      pageRun (s.blockAddr slot n d.layer d.head / 65536) (s.pagesPerBlock m)

/-- A refused or failed descriptor: the session's step is discarded, or the recompute restarts, with its code (R167, R169). -/
def State.descFailed (s : State) (d : Desc) (code : Nat) : State :=
  if code = 0 then s
  else if d.recompute then
    { s with kvs.recomputes := s.kvs.recomputes.map fun (x : Recompute) =>
        if x.slot = hSlot d.session && x.span = d.pos / 256 && x.failed.isNone then { x with failed := some code } else x }
  else if s.cmp.fails.any fun x => x.1 = d.session then s
  else { s with cmp.fails := s.cmp.fails ++ [(d.session, code)] }

/-- One descriptor at a larder byte offset: refused, failed or done; its STATUS is written and its tally raised (R167 to R169).
`bad` is the code of an uncorrectable error that it meets, if it does (log entry 98). -/
def State.scatterOne (s : State) (die at_ : Nat) (bad : Option Nat) : State :=
  let d := Desc.ofItem (s.readItem (larderAddr die at_))
  let q := s.descCode die d
  let r :=
    if q.1 ≠ 0 then (q.1, q.2.noteStale q.1)
    else match bad with
      | some c => (c, q.2)
      | none => scatterRows die die (hSlot d.session) d (List.range d.rows) q.2
  let s := (r.2.descFailed d r.1).noteReport r.1 d.session 0
  let w := s.readWord (larderAddr die (at_ + 40))
  (s.writeWord (larderAddr die (at_ + 40)) (setBits w 63 48 r.1)).raise d.tally

/-- Does some passing descriptor write a page under snapshot protection (R170)? -/
def State.scatterCow (s : State) (die at_ n : Nat) : List Nat :=
  (List.range n).flatMap fun i =>
    let d := Desc.ofItem (s.readItem (larderAddr die (at_ + 64 * i)))
    if (s.descCode die d).1 ≠ 0 then [] else (s.descPages d).filter fun p => (s.leaf p).v && !(s.leaf p).pin && (s.leaf p).wp

/-- State ranges that a descriptor's rows occupy: keys and values (R147). -/
def State.descRanges (s : State) (d : Desc) : List (Nat × Nat) :=
  let slot := hSlot d.session
  let dim := s.headDim (s.dir slot).model
  (List.range d.rows).flatMap fun i =>
    let a := s.blockAddr slot ((d.pos + i) / 256) d.layer d.head + (d.pos + i) % 256 * dim
    [(a, dim), (a + 256 * dim, dim)]

/-- State ranges that the descriptors of a stopped SCATTER may have written. -/
def State.scatterRanges (s : State) (die at_ n : Nat) : List (Nat × Nat) :=
  (List.range n).flatMap fun i =>
    let d := Desc.ofItem (s.readItem (larderAddr die (at_ + 64 * i)))
    if (s.descCode die d).1 ≠ 0 then [] else s.descRanges d

/-- The descriptors of a SCATTER in order; the one of number `bad`, if any, meets an uncorrectable error. -/
def scatterLoop (die at_ : Nat) (bad : Option (Nat × Nat)) : List Nat → State → State
  | [], s => s
  | i :: is, s =>
    scatterLoop die at_ bad is (s.scatterOne die (at_ + 64 * i) (bad.bind fun b => if b.1 = i then some b.2 else none))

end Sys2Proof.Machine
end

