-- ==== Sys2Proof/Machine/Operands.lean ====
section
/-! DEFINITION. Operand forms of bundle streams: bundle headers, slot words and their fields (R267 to R296). -/

namespace Sys2Proof.Machine

open Sys2Proof

/-- Number of the branch slot and of the larder-port slot (R268). -/
def slotB : Nat := 46
def slotP : Nat := 47

/-- Larder granules of one base die: an LA at or beyond it is out of range (R270). -/
def larderGranules : Nat := 3145728

/-- GAP in cycles and PRESENT of a bundle header (R267). -/
def bundleGap (w : Word) : Nat := bits w 59 48 + 1
def bundlePresent (w : Word) : List Nat := (List.range 48).filter fun k => bit w k
/-- DUR in cycles of a slot word (R269). -/
def slotDur (w : Word) : Nat := bits w 55 44 + 1

def bv (n : Nat) (w : Word) (hi lo : Nat) : BitVec n := BitVec.ofNat n (bits w hi lo)

/-- Vector opcodes (R277). -/
def vecOpOf : Nat → Option VecOp
  | 0x10 => some .add
  | 0x11 => some .sub
  | 0x12 => some .mul
  | 0x13 => some .fma
  | 0x14 => some .max
  | 0x15 => some .min
  | 0x16 => some .cmplt
  | 0x17 => some .cmpeq
  | 0x18 => some .sel
  | 0x19 => some .abs
  | 0x1A => some .neg
  | 0x1B => some .scale2
  | 0x1C => some .exp
  | 0x1D => some .log
  | 0x1E => some .rcp
  | 0x1F => some .rsqrt
  | 0x20 => some .maxr
  | 0x21 => some .sumr
  | 0x22 => some .adds
  | 0x23 => some .subs
  | 0x24 => some .muls
  | _ => none

/-- A tile slot word (R277): reserved opcodes and values end the segment with the invalid-field status (R13),
reserved formats with TILE_FORMAT (R271); reserved bits are ignored (R12). -/
def decodeTile (w : Word) : Except Nat TileOp :=
  let fmt := fun hi lo => Fmt.ofCode (bits w hi lo)
  match bits w 63 56 with
  | 0x00 => .ok .nop
  | 0x01 =>
    match fmt 43 40 with
      | some f => .ok (.loadb f (bv 14 w 39 26))
      | none => .error Code.tileFormat
  | 0x02 =>
    match fmt 43 40, fmt 19 16 with
      | some a, some b =>
        .ok (.mma a (bv 14 w 39 26) (bv 3 w 25 23) (bit w 22) (bit w 21) (bit w 20) b (bv 14 w 15 2))
      | _, _ => .error Code.tileFormat
  | 0x28 =>
    match fmt 43 40, fmt 39 36 with
      | some a, some b => .ok (.cvt a b (bv 14 w 35 22) (bv 14 w 21 8) (bit w 7))
      | _, _ => .error Code.tileFormat
  | 0x29 =>
    match fmt 43 40 with
      | some f => if f.isMx then .ok (.mxq f (bv 14 w 35 22) (bv 14 w 21 8)) else .error Code.tileFormat
      | none => .error Code.tileFormat
  | op =>
    match vecOpOf op with
    | none => .error Code.invalidField
    | some .scale2 =>
      if bits w 15 7 = 256 then .error Code.invalidField
      else .ok (.vec .scale2 (bv 14 w 43 30) (bv 14 w 29 16) 0 (bv 9 w 15 7))
    | some v =>
      if !v.twoSources && bits w 15 2 ≠ 0 then .error Code.invalidField
      else .ok (.vec v (bv 14 w 43 30) (bv 14 w 29 16) (bv 14 w 15 2) 0)

/-- Mover opcodes (R282). -/
def moverKindOf : Nat → Option MoverKind
  | 0 => some .nop
  | 1 => some .get
  | 2 => some .put
  | 3 => some .xl
  | 4 => some .scatter
  | 5 => some .ring
  | 6 => some .zero
  | _ => none

def aluOpOf : Nat → Option AluOp
  | 0x01 => some .add
  | 0x02 => some .sub
  | 0x03 => some .and
  | 0x04 => some .or
  | 0x05 => some .xor
  | 0x06 => some .shl
  | 0x07 => some .shr
  | 0x08 => some .sra
  | 0x09 => some .slt
  | 0x0A => some .sltu
  | 0x0B => some .mul
  | _ => none

/-- A scalar slot word (R290). -/
def decodeScalar (w : Word) : Except Nat ScalarOp :=
  let rd := bv 5 w 43 39
  let ra := bv 5 w 38 34
  match bits w 63 56 with
  | 0x00 => .ok .nop
  | 0x0C => .ok (.addi rd ra (bv 29 w 28 0))
  | 0x0D => .ok (.li rd (bv 39 w 38 0))
  | 0x0E => .ok (.lih rd (bv 32 w 31 0))
  | 0x10 => .ok (.lds rd ra (bv 4 w 25 22) (bv 22 w 21 0))
  | 0x11 => .ok (.sts rd ra (bv 4 w 25 22) (bv 22 w 21 0))
  | op =>
    match aluOpOf op with
    | none => .error Code.invalidField
    | some o => .ok (.alu o rd ra (bv 5 w 33 29))

/-- A tally slot word (R292). -/
def decodeTally (w : Word) : Except Nat TallyOp :=
  let t := bv 12 w 43 32
  let r := bv 5 w 31 27
  match bits w 63 56 with
  | 0x00 => .ok .nop
  | 0x01 => .ok (.add t (bv 16 w 15 0))
  | 0x02 => .ok (.set t r)
  | 0x03 => .ok (.wait t r (bv 16 w 15 0))
  | 0x04 => .ok (.read t r)
  | 0x05 => .ok (.qpush (bv 9 w 43 35) (bv 3 w 34 32) (bv 22 w 21 0))
  | _ => .error Code.invalidField

/-- A branch slot word (R296). -/
def decodeBranch (w : Word) : Except Nat BranchOp :=
  let t := bv 28 w 27 0
  let r := bv 5 w 43 39
  match bits w 63 56 with
  | 0x00 => .ok .nop
  | 0x01 => .ok (.jmp t)
  | 0x02 => .ok (.bz r t)
  | 0x03 => .ok (.bnz r t)
  | 0x04 => .ok (.loop r t)
  | 0x05 => .ok (.endSeg (bv 16 w 15 0))
  | 0x06 => .ok (.ppt (bv 16 w 15 0))
  | 0x07 => .ok (.rdv (bit w 43) (bv 5 w 42 38))
  | _ => .error Code.invalidField

/-- A larder-port slot word (R286). -/
def decodePort (w : Word) : Except Nat PortOp :=
  let rm := bv 5 w 43 39
  let la := bv 22 w 21 0
  match bits w 63 56 with
  | 0x00 => .ok .nop
  | 0x01 => .ok (.read rm (bit w 38) (bv 14 w 37 24) la)
  | 0x02 => .ok (.write rm (bv 14 w 37 24) la)
  | 0x03 => .ok (.attend rm (bv 12 w 38 27) la)
  | _ => .error Code.invalidField

/-- A slot word by the kind of its slot (R268, R269). -/
def decodeSlot (slot : Nat) (w : Word) : Except Nat SlotOp :=
  if slot < 32 then (decodeTile w).map .tile
  else if slot < 40 then
    match moverKindOf (bits w 63 56) with
    | none => .error Code.invalidField
    | some .nop => .ok (.mover .nop 0 0 0 0)
    | some k =>
      if (k = .scatter || k = .zero) && bits w 43 39 ≠ 0 then .error Code.invalidField
      else .ok (.mover k (bv 5 w 43 39) (bv 5 w 38 34) (bv 12 w 33 22) (bv 22 w 21 0))
  else if slot < 44 then (decodeScalar w).map .scalar
  else if slot < 46 then (decodeTally w).map .tally
  else if slot = slotB then (decodeBranch w).map .branch
  else (decodePort w).map .port

/-! ### Vector operands (R278) -/

/-- A vector operand: accumulator rows from set · 128 + row on, or store rows from 256-byte unit of a bank. -/
inductive VOperand where
  | acc (row : Nat)
  | store (bank unit : Nat)
  deriving DecidableEq, Repr

/-- Decode a 14-bit vector operand. -/
def vOperand (v : BitVec 14) : VOperand :=
  let n := v.toNat
  if n / 8192 = 0 then .acc (n / 1024 % 8 * 128 + n % 128) else .store (n / 4096 % 2) (n % 4096)

/-- A store region (R270): bank and byte offset. -/
def region (v : BitVec 14) : Nat × Nat := (v.toNat / 8192, v.toNat % 8192 * 128)

end Sys2Proof.Machine
end

