-- ==== Sys2Proof/Machine/Tiles.lean ====
section
/-! DEFINITION. What a tile computes: stationary loads, passes, drains and the vector unit (R228 to R249, R277 to R280). -/

namespace Sys2Proof.Machine

open Sys2Proof

/-! ### Tile maps (R252 to R257) -/

/-- Physical tile of a logical tile; none when unmapped. -/
def State.physTile (s : State) (die logical : Nat) : Option Nat :=
  let k := s.field (Reg.tileMap (4 * die + logical / 8)) (8 * (logical % 8) + 5) (8 * (logical % 8))
  if k = 63 then none else some k

/-- FENCED of TILE.STATUSn. -/
def State.tileFenced (s : State) (die phys : Nat) : Bool := bit (s.reg (Reg.tileStatus die)) phys

/-- The physical tile a slot runs on: mapped, and not to a fenced tile (R255). -/
def State.usableTile (s : State) (die logical : Nat) : Option Nat :=
  match s.physTile die logical with
  | none => none
  | some p => if s.tileFenced die p then none else some p

def State.tileSt (s : State) (die phys : Nat) : TileSt := SMap.get {} s.cmp.tiles (die * 34 + phys)
def State.setTileSt (s : State) (die phys : Nat) (t : TileSt) : State :=
  { s with cmp.tiles := s.cmp.tiles.set {} (die * 34 + phys) t }

/-- Format of the load that filled the active register, and of the shadow (R280). -/
def TileSt.activeFmt (t : TileSt) : Option Fmt := if t.active = 0 then t.fmt0 else t.fmt1
def TileSt.shadowFmt (t : TileSt) : Option Fmt := if t.active = 0 then t.fmt1 else t.fmt0
def TileSt.swap (t : TileSt) : TileSt := { t with active := 1 - t.active }
def TileSt.loaded (t : TileSt) (f : Fmt) : TileSt :=
  if t.active = 0 then { t with fmt1 := some f } else { t with fmt0 := some f }

/-! ### Layouts of matrices (R230, R232) -/

/-- Elements of K in a stored row of an operand whose partner's format is known (R238). -/
def kOf (fa fb : Fmt) : Nat := if fa = .mx4 && fb = .mx4 then 256 else 128

/-- Bytes from one row of `k` elements to the next: whole granules (R230, log entry 15). -/
def rowStride (f : Fmt) (k : Nat) : Nat := ceilDiv (k * f.bitsOf / 8) 128 * 128

/-- Element `i` of the packed row at an address (R232). -/
def State.element (s : State) (row : Nat) (f : Fmt) (i : Nat) : Nat :=
  let b := i * f.bitsOf
  s.readNat (row + b / 8) (f.bitsOf / 8 + 1) / 2 ^ (b % 8) % 2 ^ f.bitsOf

/-- Pack a row of elements, the lower-indexed in the lower bits (R232). -/
def packNat (w : Nat) : List Nat → Nat
  | [] => 0
  | e :: es => e + 2 ^ w * packNat w es
def packRow (f : Fmt) (es : List Nat) : List Byte := leBytes (packNat f.bitsOf es) (es.length * f.bitsOf / 8)

/-- A scaled element: E8M0 of NaN makes it NaN (R239, R244). -/
def scaled (v : FVal) (scale : Nat) : FVal :=
  match mxScaleExp scale with
  | none => .nan
  | some e => v.shift e

/-! ### Stationary loads (R235, R237) -/

/-- Bytes a stationary operand occupies in the store: 128 columns, then its scales. -/
def loadBytes (f : Fmt) : Nat := 128 * rowStride f 128 + (if f.isMx then if f = .mx4 then 1024 else 512 else 0)

/-- Copy a stationary operand into the shadow register: its columns at byte 0, its scales at byte 2^15. -/
def State.loadShadow (s : State) (die phys : Nat) (f : Fmt) (src : BitVec 14) : State :=
  let t := s.tileSt die phys
  let to_ := statAddr die phys (1 - t.active) 0
  let from_ := storeAddr die phys (region src).1 (region src).2
  let n := 128 * rowStride f 128
  let s := s.copyRange from_ to_ n
  let s := s.iff f.isMx fun s => s.copyRange (from_ + n) (to_ + 2 ^ 15) (if f = .mx4 then 1024 else 512)
  s.setTileSt die phys (t.loaded f)

/-! ### Passes (R236, R245, R246) -/

/-- The sign and value of a product join a sum. -/
def PSum.add (p : PSum) (v : FVal) (nanIn : Bool) : PSum :=
  match v with
  | .nan => { p with nan := true, nanIn := p.nanIn || nanIn }
  | .inf a => if a then { p with ninf := true } else { p with pinf := true }
  | .fin a m => { p with sum := p.sum + toInt a m, mag := p.mag + m }

/-- The accumulators of one pass over `rows` rows, row by row: the sums of products of A with the stationary operand. -/
def State.passSums (s : State) (die phys : Nat) (fa : Fmt) (srcA : BitVec 14) (fb : Option Fmt) (which rows : Nat) :
    List PSum :=
  match fb with
  | none => (List.range (rows * 128)).map fun _ => { undef := true }
  | some fb =>
    let k := kOf fa fb
    let a := storeAddr die phys (region srcA).1 (region srcA).2
    let b := statAddr die phys which 0
    let sa := a + rows * rowStride fa k
    let sb := b + 2 ^ 15
    let mx := fa.isMx
    (List.range rows).flatMap fun i =>
      let row := (List.range k).map fun j =>
        let v := fa.decode (s.element (a + i * rowStride fa k) fa j)
        if mx then scaled v (s.byte (sa + i * (k / 32) + j / 32)).toNat else v
      (List.range 128).map fun n =>
        let col := (List.range k).map fun j =>
          let v := fb.decode (s.element (b + n * rowStride fb k) fb j)
          if mx then scaled v (s.byte (sb + n * (k / 32) + j / 32)).toNat else v
        (row.zip col).foldl (fun p (x : FVal × FVal) => p.add (x.1.mul x.2) (x.1 = .nan || x.2 = .nan)) {}

/-- The largest finite FP32 magnitude plus half its last step, where results become infinite (R246). -/
def f32Limit : Nat := fpFP32.mag fpFP32.maxEnc + 2 ^ fpFP32.stepLog (fpFP32.mag fpFP32.maxEnc) / 2

/-- An FP32 accumulation by the bound of R245: the free candidate when it satisfies the bound, else the rounded exact
value. -/
def accumulate (c : F32) (p : PSum) (cand : F32) : F32 :=
  if p.undef then cand
  else
    match c.val with
    | .nan => f32Nan
    | .inf a => if p.nan || (if a then p.pinf else p.ninf) then f32Nan else f32Of (.inf a)
    | .fin a m =>
      if p.nan || (p.pinf && p.ninf) then f32Nan
      else if p.pinf then f32Of (.inf false)
      else if p.ninf then f32Of (.inf true)
      else
        let e := toInt a m + p.sum
        let slack := e.natAbs * 16 + (m + p.mag) * 256
        let near := fun (d : Nat) => d * 2 ^ 28 ≤ slack
        let exact := f32Of (if e = 0 then .fin (a && m = 0 && p.mag = 0) 0 else ofSigned e)
        match cand.val with
        | .nan => exact
        | .inf b => if near (((f32Limit : Int) - (if b then -e else e)).toNat) then cand else exact
        | .fin b n => if near (toInt b n - e).natAbs then cand else exact

/-- Counters of R246 for one element: became infinite from finite inputs, became NaN from non-NaN inputs. -/
def madeInf (c : F32) (p : PSum) (r : F32) : Bool :=
  match r.val, c.val with
  | .inf _, .fin _ _ => !p.pinf && !p.ninf && !p.undef
  | _, _ => false
def madeNan (c : F32) (p : PSum) (r : F32) : Bool :=
  r.val = .nan && c.val != .nan && !p.nanIn && !p.undef

/-- An INT32 accumulation (R247): exact, then saturated; and whether it saturated. -/
def intAccumulate (c : BitVec 32) (p : PSum) : BitVec 32 × Bool :=
  let v := sext 32 c.toNat + p.sum / (2 ^ 300 : Nat)
  let hi : Int := (2 ^ 31 - 1 : Nat)
  let lo : Int := -((2 ^ 31 : Nat) : Int)
  if hi < v then (BitVec.ofInt 32 hi, true) else if v < lo then (BitVec.ofInt 32 lo, true) else (BitVec.ofInt 32 v, false)

/-- Write a drained pass into its set, element by element: new element, counts of saturations, infinities, NaNs. -/
def drainLoop (int accum : Bool) (a : Nat) : List PSum → Nat → Nat × Nat × Nat → State → (Nat × Nat × Nat) × State
  | [], _, n, s => (n, s)
  | p :: ps, i, n, s =>
    let c := if accum then s.read32 (a + 4 * i) else 0
    if int then
      let r := intAccumulate c p
      drainLoop int accum a ps (i + 1) (n.1 + bnat r.2, n.2) (s.write32 (a + 4 * i) r.1)
    else
      let f := s.fresh
      let r := accumulate c p (Config.mmaSum f.1)
      drainLoop int accum a ps (i + 1) (n.1, n.2.1 + bnat (madeInf c p r), n.2.2 + bnat (madeNan c p r))
        (f.2.write32 (a + 4 * i) r)

/-- MMA_DRAIN_COMPLETE of one drain (R234, R246, R247). -/
def State.drain (s : State) (die : Nat) (d : Drain) : State :=
  let r := drainLoop d.int d.accum (accAddr die d.phys (d.set * 65536)) d.sums 0 (0, 0, 0) s
  let s := (((r.2.bumpBy (Reg.tileCnt 1) r.1.1).bumpBy (Reg.tileCnt 2) r.1.2.1).bumpBy (Reg.tileCnt 3) r.1.2.2)
  s.iff (0 < r.1.1) fun s => s.setField (Reg.tileStatus die) 39 39 1

/-! ### Vector unit (R248, R249, R278, R279) -/

/-- Byte address of row `i` of a vector operand with rows of `stride` bytes. -/
def VOperand.rowAddr (o : VOperand) (die phys stride i : Nat) : Nat :=
  match o with
  | .acc r => accAddr die phys ((r + i) * 512)
  | .store b u => storeAddr die phys b (u * 256 + i * stride)

/-- Do `n` rows of `stride` bytes with `tail` bytes after them stay in their space (R278)? -/
def VOperand.fits (o : VOperand) (stride n tail : Nat) : Bool :=
  match o with
  | .acc r => r + n ≤ 1024
  | .store _ u => u * 256 + n * stride + tail ≤ 1048576

/-- An FP32 row of 128 elements. -/
def State.row32 (s : State) (a : Nat) : List F32 := (List.range 128).map fun i => s.read32 (a + 4 * i)
def row32Bytes (r : List F32) : List Byte := r.flatMap fun x => leBytes x.toNat 4

/-- One element of an elementwise operation; `old` is the destination's element. -/
def vecElem (op : VecOp) (scale : Int) (x y old free : F32) : F32 :=
  match op with
  | .add => f32Add x y
  | .sub => f32Sub x y
  | .mul => f32Mul x y
  | .fma => f32Fma x y old
  | .max => f32Max x y
  | .min => f32Min x y
  | .cmplt => f32Lt x y
  | .cmpeq => f32Eq x y
  | .sel => if f32NonZero old then x else y
  | .abs => f32Abs x
  | .neg => f32Neg x
  | .scale2 => f32Scale2 x scale
  | .exp => f32Exp x free
  | .log => f32Log x free
  | .rcp => f32Rcp x free
  | .rsqrt => f32Rsqrt x free (Config.word32 free.toNat)
  | .adds => f32Add x y
  | .subs => f32Sub x y
  | .muls => f32Mul x y
  | .maxr => x
  | .sumr => x

/-- The free candidate of an operation at a counter value. -/
def vecFree (op : VecOp) (n : Nat) : F32 :=
  match op with
  | .exp => Config.expValue n
  | .log => Config.logValue n
  | .rcp => Config.rcpValue n
  | .rsqrt => Config.rsqrtValue n
  | _ => 0

/-- One row of an operation: operands from `src`, written into `s`. -/
def vecRow (op : VecOp) (scale : Int) (die phys : Nat) (dst s1 s2 : VOperand) (i base : Nat) (src s : State) : State :=
  let x := src.row32 (s1.rowAddr die phys 512 i)
  if op.reduces then
    let v := if op = .maxr then f32MaxRow x else f32SumRow x
    s.write32 (dst.rowAddr die phys 512 (i / 128) + 4 * (i % 128)) v
  else
    let y := if op.perRow then
        let e := src.read32 (s2.rowAddr die phys 512 (i / 128) + 4 * (i % 128))
        List.replicate 128 e
      else src.row32 (s2.rowAddr die phys 512 i)
    let old := src.row32 (dst.rowAddr die phys 512 i)
    let r := (List.range 128).map fun j =>
      vecElem op scale (x.getD j 0) (y.getD j 0) (old.getD j 0) (vecFree op (base + 128 * i + j))
    s.writeBytes (dst.rowAddr die phys 512 i) (row32Bytes r)

/-- Rows in an order; each row reads the old or the current contents by the free choice of R279. -/
def vecLoop (op : VecOp) (scale : Int) (die phys : Nat) (dst s1 s2 : VOperand) (base : Nat) (s0 : State) :
    List Nat → State → State
  | [], s => s
  | i :: is, s =>
    vecLoop op scale die phys dst s1 s2 base s0 is
      (vecRow op scale die phys dst s1 s2 i base (if Config.choice (base + i) then s0 else s) s)

/-- A vector operation of `n` rows (R248, R279). -/
def State.vector (s : State) (op : VecOp) (die phys : Nat) (dst s1 s2 : BitVec 14) (scale : BitVec 9) (n : Nat) : State :=
  let base := s.free
  let rows := List.range n
  let order := if Config.choice (base + 128 * n + 1) then rows else rows.reverse
  let s := { s with free := base + 128 * n + 2 }
  vecLoop op (sext 9 scale.toNat) die phys (vOperand dst) (vOperand s1) (vOperand s2) base s order s

/-- A block's scale region follows its rows (R232); bytes of scales for `n` rows. -/
def scaleBytes (f : Fmt) (n : Nat) : Nat := if f.isMx then 4 * n else 0

/-- Values of a stored row in a format, with its scales when it is MX. -/
def State.rowVals (s : State) (f : Fmt) (row scales : Nat) : List FVal :=
  (List.range 128).map fun j =>
    let v := f.decode (s.element row f j)
    if f.isMx then scaled v (s.byte (scales + j / 32)).toNat else v

/-- Convert one value; to INT32 a value with no stated result is free (R242). -/
def convert (f : Fmt) (sat : Bool) (v : FVal) (n : Nat) : Nat × Bool :=
  let r := f.encode sat v
  match f, v with
  | .int32, .fin _ _ => if r.2 then ((Config.word32 n).toNat, false) else r
  | .int32, _ => ((Config.word32 n).toNat, false)
  | _, _ => r

/-- The rows of a conversion: each row is read, its old or its current contents by the free choice of R231 and R279, converted and
written; the count of saturations. -/
def cvtLoop (fs fd : Fmt) (sat : Bool) (die phys : Nat) (src dst : VOperand) (n : Nat) (s0 : State) :
    List Nat → Nat → State → Nat × State
  | [], k, s => (k, s)
  | i :: is, k, s =>
    let old := if Config.choice (s.free + 128) then s0 else s
    let a := src.rowAddr die phys (rowStride fs 128) i
    let b := dst.rowAddr die phys (rowStride fd 128) i
    let sc := src.rowAddr die phys (rowStride fs 128) n + 4 * i
    if fs = fd then
      let s := { s with free := s.free + 129 }
      let s := s.writeBytes b (old.readBytes a (128 * fs.bitsOf / 8))
      let s := s.iff fs.isMx fun s =>
        s.writeBytes (dst.rowAddr die phys (rowStride fd 128) n + 4 * i) (old.readBytes sc 4)
      cvtLoop fs fd sat die phys src dst n s0 is k s
    else
      let base := s.free
      let vs := old.rowVals fs a sc
      let es := (List.range 128).map fun j => convert fd sat (vs.getD j .nan) (base + j)
      let s := { s with free := base + 129 }
      cvtLoop fs fd sat die phys src dst n s0 is (k + (es.filter (·.2)).length) (s.writeBytes b (packRow fd (es.map (·.1))))

/-- CVT (R242, R248). -/
def State.cvt (s : State) (fs fd : Fmt) (sat : Bool) (die phys : Nat) (src dst : BitVec 14) (n : Nat) : State :=
  let r := cvtLoop fs fd sat die phys (vOperand src) (vOperand dst) n s (List.range n) 0 s
  r.2.bumpBy (Reg.tileCnt 4) r.1

/-- The rows of MXQ: four blocks a row, elements at the destination, scale bytes after the element region. -/
def mxqLoop (f : Fmt) (die phys : Nat) (src dst : VOperand) (n : Nat) (s0 : State) : List Nat → Nat → State → Nat × State
  | [], k, s => (k, s)
  | i :: is, k, s =>
    let old := if Config.choice s.free then s0 else s
    let s := { s with free := s.free + 1 }
    let vs := (old.row32 (src.rowAddr die phys 512 i)).map F32.val
    let blocks := (List.range 4).map fun b => mxBlock f ((vs.drop (32 * b)).take 32)
    let s := s.writeBytes (dst.rowAddr die phys (rowStride f 128) i) (packRow f (blocks.flatMap (·.2.1)))
    let s := s.writeBytes (dst.rowAddr die phys (rowStride f 128) n + 4 * i)
      (blocks.map fun b => BitVec.ofNat 8 b.1)
    mxqLoop f die phys src dst n s0 is (k + sumNat (blocks.map (·.2.2))) s

/-- MXQ (R243, R244). -/
def State.mxq (s : State) (f : Fmt) (die phys : Nat) (src dst : BitVec 14) (n : Nat) : State :=
  let r := mxqLoop f die phys (vOperand src) (vOperand dst) n s (List.range n) 0 s
  r.2.bumpBy (Reg.tileCnt 4) r.1

/-! ### Checks of a tile action before it starts (R238, R277, R278, R280) -/

/-- Cycles of one A row (R237). -/
def rowRate (f : Fmt) : Nat := if f = .bf16 || f = .fp16 then 4 else 1

/-- The pair table of R238. -/
def pairOk (a b : Fmt) : Bool :=
  (a.isFp8 && b.isFp8) || (a.isMx && b.isMx) || (a = .bf16 && b = .bf16) || (a = .fp16 && b = .fp16)
    || (a = .int8 && b = .int8)

/-- Formats LOADB and MMA accept (R271). -/
def arrayFmt (f : Fmt) : Bool := f != .fp32 && f != .int32

/-- Rows of a vector operation from its duration; none when the duration breaks the rule (R277). -/
def vecRows (c dur : Nat) : Option Nat :=
  if 12 + c ≤ dur && (dur - 12) % c = 0 then some ((dur - 12) / c) else none

/-- Does a store region of `n` bytes stay in its bank? -/
def regionFits (v : BitVec 14) (n : Nat) : Bool := (region v).2 + n ≤ 1048576

/-- The code a tile action ends its segment with before it starts, 0 when it passes. -/
def tileCode (t : TileSt) (op : TileOp) (dur : Nat) : Nat :=
  match op with
  | .nop => 0
  | .loadb f src =>
    if !arrayFmt f then Code.tileFormat
    else if dur ≠ 128 then Code.slotDuration
    else if !regionFits src (loadBytes f) then Code.operandRange
    else 0
  | .mma fa sa _ _ sw ld fb sb =>
    let bf := if sw then t.shadowFmt else t.activeFmt
    let rows := dur / rowRate fa
    let k := kOf fa (bf.getD fa)
    if !arrayFmt fa || (ld && !arrayFmt fb) then Code.tileFormat
    else if (match bf with
      | some b => !pairOk fa b
      | none => false) then Code.tileFormat
    else if dur % rowRate fa ≠ 0 || rows = 0 || 128 < rows || (ld && dur < 128) then Code.slotDuration
    else if !regionFits sa (rows * rowStride fa k + (if fa.isMx then rows * (k / 32) else 0)) then Code.operandRange
    else if ld && !regionFits sb (loadBytes fb) then Code.operandRange
    else 0
  | .vec v d a b _ =>
    match vecRows v.rowCycles dur with
    | none => Code.slotDuration
    | some n =>
      let dn := if v.reduces then ceilDiv n 128 else n
      let bn := if v.perRow then ceilDiv n 128 else n
      if (vOperand d).fits 512 dn 0 && (vOperand a).fits 512 n 0 && (!v.twoSources || (vOperand b).fits 512 bn 0) then 0
      else Code.operandRange
  | .cvt fs fd a d _ =>
    let accOk := fun (o : BitVec 14) (f : Fmt) => o.toNat / 8192 = 1 || f = .fp32 || f = .int32
    if (fd.isMx && fs ≠ fd) || !accOk a fs || !accOk d fd then Code.tileFormat
    else
      match vecRows 2 dur with
      | none => Code.slotDuration
      | some n =>
        if (vOperand a).fits (rowStride fs 128) n (scaleBytes fs n)
            && (vOperand d).fits (rowStride fd 128) n (scaleBytes fd n) then 0
        else Code.operandRange
  | .mxq f a d =>
    if !f.isMx || d.toNat / 8192 = 0 then Code.tileFormat
    else
      match vecRows 2 dur with
      | none => Code.slotDuration
      | some n =>
        if (vOperand a).fits 512 n 0 && (vOperand d).fits (rowStride f 128) n (scaleBytes f n) then 0
        else Code.operandRange

/-! ### Bank ports (R231, R237, R279, R287) -/

/-- One demand on a bank's port: cycles from `start` to before `stop`, every cycle or every fourth. -/
structure Demand where
  bank : Nat
  write : Bool
  start : Nat
  stop : Nat
  every4 : Bool
  bytes : Nat
  deriving DecidableEq, Repr

def Demand.at_ (d : Demand) (t : Nat) : Nat :=
  if d.start ≤ t && t < d.stop && (!d.every4 || (t - d.start) % 4 = 0) then d.bytes else 0

/-- Does some cycle exceed 256 bytes on a port?  Sums change only at starts, so four cycles from each start suffice. -/
def portOver (ds : List Demand) : Bool :=
  ds.any fun d => (List.range 4).any fun j =>
    256 < sumNat ((ds.filter fun e => e.bank = d.bank && e.write = d.write).map fun e => e.at_ (d.start + j))

def vDemand (o : BitVec 14) (write : Bool) (start stop bytes : Nat) : List Demand :=
  match vOperand o with
  | .acc _ => []
  | .store b _ => [⟨b, write, start, stop, false, bytes⟩]

/-- Bytes per cycle of a load (R237). -/
def loadRate (f : Fmt) : Nat :=
  if f = .bf16 || f = .fp16 then 256
  else if f = .mx4 then 136
  else if f = .mx6e3 || f = .mx6e2 then 100
  else if f.isMx then 132
  else 128

/-- Port demands of a tile action; `bf` is the format of the operand an MMA multiplies by. -/
def tileDemand (op : TileOp) (start dur : Nat) (bf : Option Fmt) : List Demand :=
  let stop := start + dur
  match op with
  | .nop => []
  | .loadb f src => [⟨(region src).1, false, start, stop, false, loadRate f⟩]
  | .mma fa sa _ _ _ ld fb sb =>
    let k := kOf fa (bf.getD fa)
    let a := if rowRate fa = 4 then Demand.mk (region sa).1 false start stop true 256
      else ⟨(region sa).1, false, start, stop, false, k * fa.bitsOf / 8 + (if fa.isMx then k / 32 else 0)⟩
    if ld then [a, ⟨(region sb).1, false, start, start + 128, false, loadRate fb⟩] else [a]
  | .vec v d a b _ =>
    let r := if v.slow then 64 else 256
    let back := if v = .fma || v = .sel then vDemand d false start stop r else []
    vDemand d true start stop r ++ vDemand a false start stop r
      ++ (if v.twoSources then vDemand b false start stop r else []) ++ back
  | .cvt fs fd a d _ =>
    let rate := fun (f : Fmt) => (128 * f.bitsOf / 8 + (if f.isMx then 4 else 0)) / 2
    vDemand a false start stop (rate fs) ++ vDemand d true start stop (rate fd)
  | .mxq f a d =>
    vDemand a false start stop 256 ++ vDemand d true start stop ((128 * f.bitsOf / 8 + 4) / 2)

/-- Accumulator sets a tile action reads or writes other than as an MMA's destination. -/
def vSets (o : BitVec 14) (n : Nat) : List Nat :=
  match vOperand o with
  | .acc r => (List.range 8).filter fun k => r < 128 * (k + 1) && 128 * k < r + n
  | .store _ _ => []
def tileSets (op : TileOp) (dur : Nat) : List Nat :=
  match op with
  | .vec v d a b _ =>
    let n := (dur - 12) / v.rowCycles
    vSets d (if v.reduces then ceilDiv n 128 else n) ++ vSets a n
      ++ (if v.twoSources then vSets b (if v.perRow then ceilDiv n 128 else n) else [])
  | .cvt _ _ a d _ => vSets a ((dur - 12) / 2) ++ vSets d ((dur - 12) / 2)
  | .mxq _ a d => vSets a ((dur - 12) / 2) ++ vSets d ((dur - 12) / 2)
  | _ => []

end Sys2Proof.Machine
end

