-- ==== Sys2Proof/Machine/Softmax.lean ====
section
/-! DEFINITION. The numbers of attention: scores, online softmax, its error bound, and gradients (R202, R204, R218, R219, R222 to
R224).  Every floating-point step takes a free candidate and keeps it where the bound of that step allows it. -/

namespace Sys2Proof.Machine

open Sys2Proof

/-- A block as the engine applies it: its scales, and its rows by position with their stored key and value elements. -/
structure KBlock where
  kScale : F32
  vScale : F32
  rows : List (Nat × List FVal × List FVal)
  deriving DecidableEq, Repr

/-- The products of two rows of elements (R245). -/
def dotSum (xs ys : List FVal) : PSum :=
  (xs.zip ys).foldl (fun p x => p.add (x.1.mul x.2) (x.1 = .nan || x.2 = .nan)) {}

def f32NegInf : F32 := 0xFF800000#32

/-- The exponent of c_q and the query row in E4M3 (R202): c_q = 2^ceil(log2(a / 448)), 1 for a row of zeros. -/
def queryExp (q : List FVal) : Int := if maxMag q = 0 then 0 else ceilLog2Ratio (maxMag q) (448 * 2 ^ 300)
def queryE4M3 (q : List FVal) : List FVal :=
  q.map fun v => fpE4M3.decode (fpE4M3.encode true (v.shift (-queryExp q))).1

/-- One score: (q · k) × c_q × K_SCALE × SCORE_SCALE, accumulated in FP32 (R202); `n` numbers its candidate. -/
def score (q : List FVal) (scale : F32) (b : KBlock) (k : List FVal) (n : Nat) : F32 :=
  f32Mul (f32Mul (f32Mul (accumulate 0 (dotSum (queryE4M3 q) k) (Config.mmaSum n)) (pow2F32 (queryExp q))) b.kScale) scale

/-- The scores of a row over a block; −infinity where a key is not attended. -/
def scoresOf (q : List FVal) (scale : F32) (att : Nat → Bool) (b : KBlock) (n : Nat) : List F32 :=
  b.rows.zipIdx.map fun x => if att x.1.1 then score q scale b x.1.2.1 (n + x.2) else f32NegInf

/-- Weights as MXFP8 E4M3 values with 32-element blocks along the keys (R202). -/
def mxWeights (p : List F32) : List FVal :=
  (chunksOf 32 p).flatMap fun c =>
    let r := mxBlock .mx8e4 (c.map F32.val)
    r.2.1.map fun e => scaled (fpE4M3.decode e) r.1

/-- The running state of a row (R202). -/
structure RowSt where
  m : F32 := f32NegInf
  l : F32 := 0
  o : List F32 := []
  deriving DecidableEq, Repr

/-- One block applied to a row (R202), and the next candidate's number. -/
def rowBlock (q : List FVal) (scale : F32) (att : Nat → Bool) (st : RowSt) (b : KBlock) (n : Nat) : RowSt × Nat :=
  let k := b.rows.length
  let ss := scoresOf q scale att b n
  let mn := f32Max st.m (f32MaxRow ss)
  if mn = f32NegInf then (st, n)
  else
    let a := f32Exp (f32Sub st.m mn) (Config.expValue (n + k))
    let p := ss.zipIdx.map fun x => f32Exp (f32Sub x.1 mn) (Config.expValue (n + k + 1 + x.2))
    let l := (chunksOf 128 p).foldl (fun x c => f32Add x (f32SumRow c)) (f32Mul st.l a)
    let w := mxWeights p
    let o := st.o.zipIdx.map fun x =>
      accumulate (f32Mul x.1 a) (dotSum w (b.rows.map fun r => (r.2.2.getD x.2 .nan).mul b.vScale.val)) (Config.mmaSum (n + 2 * k + 1 + x.2))
    ({ m := mn, l := l, o := o }, n + 2 * k + 1 + o.length)

def rowBlocks (q : List FVal) (scale : F32) (att : Nat → Bool) : List KBlock → RowSt → Nat → RowSt × Nat
  | [], st, n => (st, n)
  | b :: bs, st, n =>
    let r := rowBlock q scale att st b n
    rowBlocks q scale att bs r.1 r.2

/-- Blocks in an order the module may choose (R202, R203). -/
def anyOrder {α : Type} : Nat → Nat → List α → List α
  | 0, _, l => l
  | fuel + 1, n, l =>
    let i := Config.draw n % l.length
    match l[i]? with
    | none => l
    | some x => x :: anyOrder fuel (n + 1) (l.eraseIdx i)

/-! ### The error bound (R222) -/

def intOf : FVal → Int
  | .fin b m => toInt b m
  | _ => 0
def mulInt (a b : Int) : Int := a * b / (2 ^ 300 : Nat)

/-- An attended key of the exact softmax: its score, and the stored value row, element × scale, in units of 2^-300. -/
structure ExactKey where
  score : Int
  keys : List Nat
  vals : List Int
  deriving DecidableEq, Repr

def exactKeys (q : List FVal) (scale : F32) (att : Nat → Bool) (bs : List KBlock) : List ExactKey :=
  bs.flatMap fun b => (b.rows.filter fun r => att r.1).map fun r =>
    let k := r.2.1.map fun x => intOf (x.mul b.kScale.val)
    { score := mulInt ((q.zip k).foldl (fun a x => a + mulInt (intOf x.1) x.2) 0) (intOf scale.val)
      keys := k.map Int.natAbs
      vals := r.2.2.map fun x => intOf (x.mul b.vScale.val) }

/-- Δ of R222, rounded up. -/
def softmaxDelta (q : List FVal) (scale : F32) (ks : List ExactKey) : Nat :=
  let cq := if 0 ≤ queryExp q then 2 ^ (300 + (queryExp q).toNat) else 2 ^ (300 - (queryExp q).natAbs)
  let worst := (ks.map fun k => sumNat ((q.zip k.keys).map fun x =>
    ((intOf x.1).natAbs * (2 ^ 16 + 1) / 2 ^ 20 + cq / 2 ^ 10 + 1) * x.2 / 2 ^ 300 + 1)).foldl max 0
  worst * (intOf scale.val).natAbs / 2 ^ 300 + 1

/-- Element i of the exact softmax attention over the stored keys and values, and the distance from it that R222 allows before the
rounding to BF16; none where the bound says nothing within the range of numbers. -/
def exactOut (q : List FVal) (scale : F32) (ks : List ExactKey) (i : Nat) : Int × Option Nat :=
  let top := (ks.map (·.score)).foldl max ((ks.map (·.score)).headD 0)
  let w := ks.map fun k => expCount true (top - k.score).toNat
  let o := ((ks.zip w).foldl (fun a x => a + x.1.vals.getD i 0 * (x.2 : Int)) 0) / ((sumNat w : Nat) : Int)
  let big := (ks.map fun k => (k.vals.getD i 0).natAbs).foldl max 0
  let d := 2 * softmaxDelta q scale ks
  (o, if 200 * 2 ^ 300 < d then none
      else some ((expCount false d - 2 ^ 300 + 3 * 2 ^ 295 + 2 ^ 282) * big / 2 ^ 300 + 1))

/-- The output element before BF16 rounding: o / l where it lies within the bound of R222, else the exact value.  The bounds of R223
and R224 follow from it by the triangle inequality. -/
def outElem (q : List FVal) (scale : F32) (ks : List ExactKey) (st : RowSt) (i : Nat) : FVal :=
  let e := exactOut q scale ks i
  match (st.o.getD i 0).val, st.l.val with
  | .fin b m, .fin false l =>
    if l = 0 then ofSigned e.1
    else
      let v := FVal.fin b (stickyDiv (m * 2 ^ 300) l)
      match e.2 with
      | none => v
      | some d => if (intOf v - e.1).natAbs ≤ d then v else ofSigned e.1
  | _, _ => ofSigned e.1

/-- The numbers of a row are finite, so that its scores are stated; a row whose query or factor is an infinity or a NaN has no stated
result (log entry 99). -/
def finiteRow (q : List FVal) (scale : F32) (bs : List KBlock) : Bool :=
  let fin := fun (v : FVal) => match v with
    | .fin _ _ => true
    | _ => false
  q.all fin && fin scale.val && bs.all fun b => fin b.kScale.val && fin b.vScale.val

/-- One forward row (R202, R218, R222): its BF16 outputs, ROW_MAX and LOG_SUM, and the next candidate's number. -/
def forwardRow (q : List FVal) (scale : F32) (att : Nat → Bool) (bs : List KBlock) (n : Nat) :
    List (BitVec 16) × F32 × F32 × Nat :=
  let dim := q.length
  if !finiteRow q scale bs then
    ((List.range dim).map fun i => Config.attnOut (n + i), Config.attnStat n, Config.attnStat (n + 1), n + dim + 2)
  else
    let r := rowBlocks q scale att (anyOrder bs.length n bs) { o := List.replicate dim 0 } (n + bs.length)
    let ks := exactKeys q scale att bs
    ((List.range dim).map fun i => BitVec.ofNat 16 (fpBF16.encode false (outElem q scale ks r.1 i)).1,
      r.1.m, f32Log r.1.l (Config.logValue r.2), r.2 + 1)

/-! ### Gradients (R219, R220) -/

def bf16Of (v : FVal) : FVal := fpBF16.decode (fpBF16.encode false v).1

/-- A row of a backward item: its query, output gradient, forward output, and L = ROW_MAX + LOG_SUM. -/
structure BackRow where
  pos : Nat
  q : List FVal
  dO : List FVal
  o : List FVal
  l : F32
  deriving DecidableEq, Repr

/-- P and dS of one row over a block (R219); keys and values enter as BF16. -/
def backTerms (scale : F32) (att : Nat → Nat → Bool) (r : BackRow) (d : F32) (b : KBlock) (n : Nat) : List (F32 × F32) :=
  let ss := scoresOf r.q scale (att r.pos) b n
  let k := b.rows.length
  (b.rows.zip ss).zipIdx.map fun x =>
    let p := f32Exp (f32Sub x.1.2 r.l) (Config.expValue (n + k + x.2))
    let v := x.1.1.2.2.map fun e => bf16Of (e.mul b.vScale.val)
    let dp := accumulate 0 (dotSum r.dO v) (Config.mmaSum (n + 2 * k + x.2))
    (p, f32Mul p (f32Sub dp d))

/-- Element e of dQ of a row, block by block. -/
def dqElem (scale : F32) (bs : List KBlock) (ts : List (List (F32 × F32))) (e n : Nat) : F32 :=
  ((bs.zip ts).zipIdx.foldl (fun (a : F32) x =>
    f32Add a (f32Mul scale (accumulate 0
      (dotSum (x.1.2.map fun t => bf16Of t.2.val) (x.1.1.rows.map fun r => bf16Of ((r.2.1.getD e .nan).mul x.1.1.kScale.val)))
      (Config.mmaSum (n + x.2))))) 0)

/-- dQ, dK and dV of a backward item, element by element (R219): dQ of each row, then dK and dV of each position from `pos` on,
summed over the rows. -/
def backward (scale : F32) (att : Nat → Nat → Bool) (rows : List BackRow) (bs : List KBlock) (dim pos qn n : Nat) :
    List F32 × List F32 × List F32 :=
  let keys := sumNat (bs.map fun b => b.rows.length)
  let w := 4 * keys + 8
  let ts := rows.zipIdx.map fun x =>
    let d := accumulate 0 (dotSum x.1.dO x.1.o) (Config.mmaSum (n + x.2 * w))
    bs.map fun b => backTerms scale att x.1 d b (n + x.2 * w + 1)
  let m := n + rows.length * w
  let dq := ts.zipIdx.flatMap fun x => (List.range dim).map fun e => dqElem scale bs x.1 e (m + (x.2 * dim + e) * (bs.length + 1))
  let m := m + rows.length * dim * (bs.length + 1)
  let at_ := fun (j : Nat) (sel : F32 × F32 → F32) => ts.map fun t =>
    (((bs.zip t).flatMap fun x => x.1.rows.zip x.2).find? fun y => y.1.1 = j).elim (FVal.fin false 0) fun y => bf16Of (sel y.2).val
  let dk := (List.range qn).flatMap fun i => (List.range dim).map fun e =>
    f32Mul scale (accumulate 0 (dotSum (at_ (pos + i) (·.2)) (rows.map fun r => r.q.getD e .nan)) (Config.mmaSum (m + 2 * (i * dim + e))))
  let dv := (List.range qn).flatMap fun i => (List.range dim).map fun e =>
    accumulate 0 (dotSum (at_ (pos + i) (·.1)) (rows.map fun r => r.dO.getD e .nan)) (Config.mmaSum (m + 2 * (i * dim + e) + 1))
  (dq, dk, dv)

/-- Candidates that `backward` may use. -/
def backCount (rows dim qn keys blocks : Nat) : Nat := rows * (4 * keys + 8) + rows * dim * (blocks + 1) + 2 * qn * dim

end Sys2Proof.Machine
end

