-- ==== Sys2Proof/Machine/Spans.lean ====
section
/-! DEFINITION. Span requests and deferred reclamation (R161 to R165, R171, R180). -/

namespace Sys2Proof.Machine

open Sys2Proof

/-! ### The request item of R161 -/

def spanOp (it : Item) : Nat := bits it.w3 7 0
def spanFirst (it : Item) : Nat := bits it.w2 63 32
def spanCount (it : Item) : Nat := bits it.w2 31 0
def spanOrigin (it : Item) : Origin := .item (bits it.w5 40 32) (bits it.w5 11 0) it.w0 it.w1

/-- What the span engine does with one span: an outcome at once, or an action still to end. -/
inductive SpanStep where
  | ended (o : Outcome1) (s : State)
  | waits (s : State)

/-- Refuse one span, which stays as it is (R162). -/
def spanFail (s : State) (c : Nat) : SpanStep := .ended (.failed c) s

/-- The spans of a request in ascending order (R163). -/
def spanLoop (id : Nat) (f : Nat → State → SpanStep) : List Nat → SMap Outcome1 → Nat → State →
    SMap Outcome1 × Nat × State
  | [], r, w, s => (r, w, s)
  | n :: ns, r, w, s =>
    match f n s with
    | .ended o s => spanLoop id f ns (SMap.put r n o) w s
    | .waits s => spanLoop id f ns r (w + 1) s

/-- The spans of a request, ascending. -/
def spanList (it : Item) : List Nat := (List.range (spanCount it)).map (spanFirst it + ·)

/-- Report a request refused before any span is touched: every span counts as failed with the code, the lowest of them first (R163,
R165).  A request of no span, and a host command's, has no outcome but the code. -/
def State.refuseSpan (s : State) (it : Item) (o : Origin) (code : Nat) : State :=
  match o with
  | .host c => if spanCount it = 0 then s.complete c code 0 0 else
      s.mergeSpan c s.comp.map.ringPos ((spanList it).foldl (fun m n => SMap.put m n (.failed code)) [])
        fun n => (s.span (hSlot it.w0) n).base
  | .item q t _ _ =>
    let base := if s.handleCode it.w0 = 0 then (s.span (hSlot it.w0) (spanFirst it)).base else 0
    s.postResult q t (completionItem it.w0 it.w1 0 0 (spanCount it) code (BitVec.ofNat 64 (65536 * base)))
  | _ => s.endSpanReq { slot := hSlot it.w0, results := [(spanFirst it, .failed code)], origin := o }

/-- An edit is not made where its write would reach a lost page: the span fails and keeps its entry (R160).  Statistics requests write
side records alone. -/
def spanGuard (op slot n : Nat) (s : State) : SpanStep → SpanStep
  | .ended (.failed c) t => .ended (.failed c) t
  | r =>
    if (op ≠ 10 && op ≠ 11 && s.entryLost slot n) || ([0, 4, 8, 9, 10, 11].contains op && s.sidesLost slot n) then
      spanFail s Code.poisoned
    else r

/-- The checks of a whole request: the handle (R102) and SPANS (R161). -/
def State.spanCode (s : State) (it : Item) : Nat :=
  let slot := hSlot it.w0
  let h := s.handleCode it.w0
  if h ≠ 0 then h
  else if spanCount it = 0 || 65536 < spanCount it then Code.invalidField
  else if (s.hdr slot).spans < spanFirst it + spanCount it then Code.spanRange
  else 0

/-- Run a span request whose spans each do `f`. -/
def State.runSpans (s : State) (it : Item) (o : Origin) (f : Nat → Nat → Nat → State → SpanStep) : State :=
  let code := s.spanCode it
  if code ≠ 0 then (s.noteStale code).refuseSpan it o code
  else
    let id := s.kvs.nextId
    let slot := hSlot it.w0
    let s := { s with kvs.nextId := id + 1 }
    let r := spanLoop id (fun n s => spanGuard (spanOp it) slot n s (f id slot n s)) (spanList it) [] 0 s
    let req : SpanReq := { id := id, slot := slot, op := spanOp it, first := spanFirst it, count := spanCount it,
                           results := r.1, waiting := r.2.1, origin := o }
    if r.2.1 = 0 then r.2.2.endSpanReq req else { r.2.2 with kvs.reqs := r.2.2.kvs.reqs ++ [req] }

/-- Firmware sends a span request to the queue that KVS.CONTROL names, under its next SEQ (R161, R184); a queue of no depth refuses
it. -/
def State.askSpan (s : State) (it : Item) (o : Origin) : State :=
  let q := s.field Reg.kvsControl 8 0
  if s.qDepth q = 0 then s.refuseSpan it o Code.queueDisabled
  else
    let r := s.stamp (readerUnit 6) it
    { r.2 with kvs.asks := r.2.kvs.asks ++ [SpanAsk.mk r.1 o] }.hwPush q { prio := 0, item := r.1 }

/-- Whom a request answers: firmware that awaits it, else the reply queue and tally it names. -/
def State.takeAsk (s : State) (it : Item) : Origin × State :=
  match s.kvs.asks.find? fun a => a.item = it with
  | some a => (a.origin, { s with kvs.asks := s.kvs.asks.erase a })
  | none => (spanOrigin it, s)

/-- The span request firmware posts for one span of a session (R161). -/
def State.spanItem (s : State) (slot span op : Nat) : Item :=
  { w0 := (s.hdr slot).handle, w1 := fld 35 32 4 ||| fld 15 0 s.comp.map.epoch.toNat, w2 := fld 63 32 span ||| fld 31 0 1, w3 := fld 7 0 op }

/-- A row's command: the item names the row's operation and is worked under its epoch's map (R585); a reserved operation, 0x0C to 0xFF,
is answered with INVALID_FIELD (R13). -/
def spanGate (op : Nat) (it : Item) (s : State) (f : Origin → State → State) : Host.Outcome State Fault Refusal :=
  gate s fun s =>
    let r := (s.begin_ 6 it).takeAsk it
    if spanOp it = op then r.2.byMap it.w1 (f r.1)
    else if 12 ≤ spanOp it then r.2.refuseSpan it r.1 Code.invalidField
    else s

/-- A row whose spans each do `f`. -/
def spanRow (op : Nat) (it : Item) (s : State) (f : Nat → Nat → Nat → State → SpanStep) :
    Host.Outcome State Fault Refusal :=
  spanGate op it s fun o s => s.runSpans it o f

def argTier (it : Item) : Option Tier := Tier.ofCode (bits it.w4 7 4)
def argAnchor (it : Item) : Nat := bits it.w4 63 32
def argSub (it : Item) : Nat := bits it.w4 1 0

/-- OPEN of one span (R162).  A tier that the row does not name is refused with INVALID_FIELD, here and for PARK and FETCH: the manual
names no code for it (DESIGN CHOICE, log entry 98). -/
def spanOpenOne (it : Item) (_id slot n : Nat) (s : State) : SpanStep :=
  let e := s.span slot n
  let t := (argTier it).getD .sett
  if t ≠ .dram && t ≠ .larder then spanFail s Code.invalidField
  else if e.res ≠ .empty then spanFail s Code.spanState
  else if s.spanPending slot n then spanFail s Code.reclaimPending
  else
    match mapRun t (if t = .larder then argSub it else 0) true (s.dir slot).tclass (s.spanPages slot n) s with
    | none => spanFail s Code.destFull
    | some s =>
      let s := s.mapSides slot n fun r => { r with rows := 0, sketchValid := false, stats := 0 }
      .ended .moved (s.editSpan slot n { e with res := .resident, anchor := argAnchor it })

/-- SPAN_OPEN (R162). -/
def execSpanOpen (item : Item) (s : State) : Host.Outcome State Fault Refusal :=
  spanRow 0 item s (spanOpenOne item)

/-- The requirement of PARK and FETCH (R162). -/
def State.ferryable (s : State) (slot n : Nat) : Bool :=
  let e := s.span slot n
  (e.res = .resident || e.res = .parked) && !e.shared && !e.recomp

/-- PARK and FETCH (R162, R163): one ferry request over the pages of every span that qualifies. -/
def State.ferrySpans (s : State) (it : Item) (o : Origin) (tiers : List Tier) : State :=
  let code := s.spanCode it
  let bad := match argTier it with
    | some t => !tiers.contains t
    | none => true
  if code ≠ 0 then (s.noteStale code).refuseSpan it o code
  else if bad then s.refuseSpan it o Code.invalidField
  else
    let slot := hSlot it.w0
    let ns := spanList it
    let ok := ns.filter fun n => s.ferryable slot n
    let res : SMap Outcome1 := ns.foldl (fun m n =>
      if s.ferryable slot n then m else SMap.put m n (.failed Code.spanState)) []
    let id := s.kvs.nextId
    let req : SpanReq := { id := id, slot := slot, op := spanOp it, first := spanFirst it, count := spanCount it,
                           results := res, waiting := 1, origin := o }
    let s := { s with kvs.nextId := id + 1, kvs.reqs := s.kvs.reqs ++ [req] }
    let seg := if bits it.w4 15 8 = 255 then 255 else bits it.w4 15 8
    s.startFerry (.span id) { dest := (argTier it).getD .dram, seg := seg, die := argSub it }
      (ok.flatMap fun n => s.spanPages slot n)

/-- SPAN_PARK (R162): ferry MOVEs to the pool or the sett. -/
def execSpanPark (item : Item) (s : State) : Host.Outcome State Fault Refusal :=
  spanGate 1 item s fun o s => s.ferrySpans item o [.pool, .sett]

/-- SPAN_FETCH (R162): ferry MOVEs to DRAM or the larder. -/
def execSpanFetch (item : Item) (s : State) : Host.Outcome State Fault Refusal :=
  spanGate 2 item s fun o s => s.ferrySpans item o [.dram, .larder]

/-- DROP of one span (R171): it ends when its deferred item's pages are freed. -/
def spanDropOne (_it : Item) (id slot n : Nat) (s : State) : SpanStep :=
  match s.dropSpan slot n (some id) with
  | .error c => spanFail s c
  | .ok s => .waits s

/-- SPAN_DROP (R162, R171). -/
def execSpanDrop (item : Item) (s : State) : Host.Outcome State Fault Refusal :=
  spanRow 3 item s (spanDropOne item)

/-- Zero the pages of a list at their homes; no copy of the old contents outlives it. -/
def State.zeroPages (s : State) (ps : List Nat) : State :=
  ps.foldl (fun s p => (s.zeroRange (homeAddr (s.leaf p).tier (s.leaf p).loc 0) 65536).dropCopies p) s

/-- RECOMP_BEGIN of one span (R162): zeroed DRAM pages at BASE, RECOMP set; while RECOMP is 1 it restarts, with the pages of the
attempt before zeroed again. -/
def recompBeginOne (_it : Item) (_id slot n : Nat) (s : State) : SpanStep :=
  let e := s.span slot n
  if e.res ≠ .dropped then spanFail s Code.spanState
  else if s.spanPending slot n then spanFail s Code.reclaimPending
  else
    let ps := (s.spanPages slot n).filter fun p => !(s.leaf p).v
    let old := (s.spanPages slot n).filter fun p => (s.leaf p).v
    match mapRun .dram 0 true (s.dir slot).tclass ps s with
    | none => spanFail s Code.destFull
    | some s =>
      let s := (s.zeroPages old).mapSides slot n fun r => { r with rows := 0 }
      .ended .moved (if e.recomp then s else s.editSpan slot n { s.span slot n with recomp := true })

/-- RECOMP_BEGIN (R162). -/
def execRecompBegin (item : Item) (s : State) : Host.Outcome State Fault Refusal :=
  spanRow 4 item s (recompBeginOne item)

/-- TSM.RECOMP_COST of a model slot after a recompute that took `ns` of tile time (R84): the average is taken in whole nanoseconds,
rounded down once, and a value above 32 bits saturates (DESIGN CHOICE: the manual names neither, log entry 71). -/
def State.noteCost (s : State) (m ns : Nat) : State :=
  s.setField (Reg.tsmRecompCost m) 31 0 (min (2 ^ 32 - 1) ((7 * s.field (Reg.tsmRecompCost m) 31 0 + ns) / 8))

/-- RECOMP_END of one span (R162); each recompute that completes updates TSM.RECOMP_COST by the tile time measured for it (R84). -/
def recompEndOne (it : Item) (tileNs : List Nat) (_id slot n : Nat) (s : State) : SpanStep :=
  let e := s.span slot n
  if e.res ≠ .dropped || !e.recomp then spanFail s Code.spanState
  else if (List.range (s.blocks (s.dir slot).model)).any fun b => (s.side slot n b).rows ≠ 256 then
    spanFail s Code.recompIncomplete
  else
    let s := match tileNs[n - spanFirst it]? with
      | some ns => s.noteCost (s.dir slot).model ns
      | none => s
    .ended .moved (s.editSpan slot n { e with res := .resident, recomp := false })

/-- RECOMP_END (R162, R84): every request completed, whatever its spans' outcomes, counts in SPANS_RECOMPUTED (R186); `tileNs` are
the measured tile times of its spans in order. -/
def execRecompEnd (item : Item) (tileNs : List Nat) (s : State) : Host.Outcome State Fault Refusal :=
  spanGate 5 item s fun o s => (s.bump (Reg.kvsCnt 4)).runSpans item o (recompEndOne item tileNs)

/-- SPAN_PIN (R162): not EMPTY; PINNED := 1. -/
def spanPinOne (_id slot n : Nat) (s : State) : SpanStep :=
  let e := s.span slot n
  if e.res = .empty then spanFail s Code.spanState else .ended .moved (s.setSpan slot n { e with pinned := true })

def execSpanPin (item : Item) (s : State) : Host.Outcome State Fault Refusal := spanRow 6 item s spanPinOne

/-- SPAN_UNPIN (R162): PINNED := 0. -/
def spanUnpinOne (_id slot n : Nat) (s : State) : SpanStep :=
  .ended .moved (s.setSpan slot n { s.span slot n with pinned := false })

def execSpanUnpin (item : Item) (s : State) : Host.Outcome State Fault Refusal := spanRow 7 item s spanUnpinOne

/-- TOKEN of a log entry (R112). -/
def logToken (e : BitVec 32) : Nat := e.toNat % 2 ^ 18
def State.logAt (s : State) (slot pos : Nat) : BitVec 32 := SMap.get 0 s.hmp.log (slot * 2 ^ 24 + pos)
def State.setLog (s : State) (slot pos : Nat) (e : BitVec 32) : State :=
  { s with hmp.log := SMap.set 0 s.hmp.log (slot * 2 ^ 24 + pos) e }

/-- Both sessions' logs hold the same tokens over a span (R164). -/
def State.sameTokens (s : State) (a b n : Nat) : Bool :=
  (List.range 256).all fun i => logToken (s.logAt a (256 * n + i)) = logToken (s.logAt b (256 * n + i))

/-- SHARE of one span (R164). -/
def spanShareOne (it : Item) (_id slot n : Nat) (s : State) : SpanStep :=
  let own := hSlot it.w4
  let e := s.span slot n
  let o := s.span own n
  let m := (s.dir slot).model
  if s.handleCode it.w4 ≠ 0 then spanFail (s.noteStale (s.handleCode it.w4)) (s.handleCode it.w4)
  else if e.res ≠ .empty then spanFail s Code.spanState
  else if (s.hdr own).spans ≤ n || !(o.res = .resident || o.res = .parked) || o.shared || o.recomp
      || (s.hdr own).commitLen < 256 * (n + 1) then spanFail s Code.spanState
  else if (s.dir own).model ≠ m then spanFail s Code.shareMismatch
  else if (s.dir slot).kind = .home && !s.sameTokens slot own n then spanFail s Code.shareMismatch
  else if 255 ≤ o.sharers then spanFail s Code.shareLimit
  else if s.entryLost own n then spanFail s Code.poisoned
  else
    let s := (List.range (s.blocks m)).foldl
      (fun s b => s.setSide slot n b { s.side own n b with stats := 0 }) s
    let s := s.setSpan own n { o with sharers := o.sharers + 1 }
    let s := s.editSpan slot n { e with base := o.base, shared := true, res := o.res }
    .ended .moved (s.bump (Reg.kvsCnt 7))

/-- SPAN_SHARE (R164). -/
def execSpanShare (item : Item) (s : State) : Host.Outcome State Fault Refusal :=
  spanRow 8 item s (spanShareOne item)

/-- Put a sharer's entry back: its reserved BASE, and one sharer fewer at the owner (R164). -/
def State.unshare (s : State) (slot n : Nat) : State :=
  let s := match s.ownerOf slot n with
    | some o => s.iff (!s.entryLost o n) fun s => s.setSpan o n { s.span o n with sharers := (s.span o n).sharers - 1 }
    | none => s
  s.setSpan slot n { s.span slot n with shared := false, base := s.kvPage slot + s.pps (s.dir slot).model * n }

/-- RELEASE of one span (R162).  RECOMP falls with RES (DESIGN CHOICE: an EMPTY span is in no recompute, and the row does not name the
bit; log entry 98). -/
def spanReleaseOne (_it : Item) (_id slot n : Nat) (s : State) : SpanStep :=
  let e := s.span slot n
  if e.sharers ≠ 0 then spanFail s Code.spanShared
  else if e.shared && (s.ownerOf slot n).any fun o => s.entryLost o n then spanFail s Code.poisoned
  else
    let own := if e.shared then [] else (s.spanPages slot n).filter fun p => (s.leaf p).v
    let pages := own ++ (s.statPages slot n).filter fun p => (s.leaf p).v
    if s.deferFull && !pages.isEmpty then spanFail s Code.reclaimFull
    else
      let s := if e.shared then s.unshare slot n else s
      let s := s.iff (!pages.isEmpty) fun s => s.defer .pages pages [spanKey slot n] none
      let s := s.mapSides slot n fun r => { r with stats := 0 }
      let e' := { s.span slot n with pinned := false }
      .ended .moved (if e.res = .empty then s.setSpan slot n e'
        else s.editSpan slot n { e' with res := .empty, recomp := false })

/-- SPAN_RELEASE (R162). -/
def execSpanRelease (item : Item) (s : State) : Host.Outcome State Fault Refusal :=
  spanRow 9 item s (spanReleaseOne item)

/-- Map one zeroed DRAM page per block and name it in STATS. -/
def statsLoop (slot n base : Nat) : List Nat → State → Option State
  | [], s => some s
  | b :: bs, s =>
    match s.mapPage (base + b) .dram 0 false (s.dir slot).tclass with
    | none => none
    | some s => statsLoop slot n base bs (s.setSide slot n b { s.side slot n b with stats := (base + b) * 65536 })

/-- STATS_MAP of one span (R162): the pages stand at ARG + 65,536 × b for every span of the request.  An ARG that is not a page's
address, or a page there that is mapped already, is refused with INVALID_FIELD, so a request of several spans maps its first alone
(DESIGN CHOICE: the manual names neither a code nor a step per span; log entry 98). -/
def statsMapOne (it : Item) (_id slot n : Nat) (s : State) : SpanStep :=
  let e := s.span slot n
  let base := it.w4.toNat / 65536
  if !(e.res = .resident || e.res = .parked) then spanFail s Code.spanState
  else if it.w4.toNat % 65536 ≠ 0 || 2 ^ 36 ≤ base + s.blocks (s.dir slot).model
      || (pageRun base (s.blocks (s.dir slot).model)).any fun p => (s.leaf p).v then spanFail s Code.invalidField
  else
    match statsLoop slot n base (List.range (s.blocks (s.dir slot).model)) s with
    | none => spanFail s Code.destFull
    | some s => .ended .moved s

/-- STATS_MAP (R162). -/
def execStatsMap (item : Item) (s : State) : Host.Outcome State Fault Refusal :=
  spanRow 10 item s (statsMapOne item)

/-- STATS_FREE of one span (R162). -/
def statsFreeOne (_it : Item) (_id slot n : Nat) (s : State) : SpanStep :=
  let pages := (s.statPages slot n).filter fun p => (s.leaf p).v
  if s.deferFull && !pages.isEmpty then spanFail s Code.reclaimFull
  else
    let s := s.iff (!pages.isEmpty) fun s => s.defer .pages pages [spanKey slot n] none
    .ended .moved (s.mapSides slot n fun r => { r with stats := 0 })

/-- STATS_FREE (R162). -/
def execStatsFree (item : Item) (s : State) : Host.Outcome State Fault Refusal :=
  spanRow 11 item s (statsFreeOne item)

/-- DEFERRED_RELEASE (R180): once every die's reclamation tally has reached the item's stamp, its pages are unmapped
and shot down in ascending order, or its home returns to the allocator. -/
def execDeferredRelease (id : Nat) (s : State) : Host.Outcome State Fault Refusal :=
  gate s fun s =>
    match s.kvs.deferred.find? fun x => x.id = id with
    | none => s
    | some it =>
      if it.released || !s.stampsPassed it.stamps then s
      else
        let s := (s.setDefer id fun x => { x with released := true }).bump (Reg.kvsCnt 6)
        match it.kind with
        | .home t loc => (s.giveBack t loc).endDefer id
        | _ => (freeLoop id it.pages s).endDefer id

/-- DROP_RETRY (R171): a page whose drop was refused with FERRY_BUSY is tried again. -/
def execDropRetry (id page : Nat) (s : State) : Host.Outcome State Fault Refusal :=
  gate s fun s =>
    match s.kvs.deferred.find? fun x => x.id = id with
    | none => s
    | some it =>
      if it.busy.contains page then
        ((s.setDefer id fun x => { x with busy := x.busy.erase page }).freePage id page).endDefer id
      else s

end Sys2Proof.Machine
end

