-- ==== Sys2Proof/Machine/Layout.lean ====
section
/-! DEFINITION. The bytes of the tables that the state holds decoded (R57, R58, R104, R110 to R112, R152, R156, R350): their words, what
words decode to, and which state addresses they fill. -/

namespace Sys2Proof.Machine

open Sys2Proof

def padTo (n : Nat) (l : List Word) : List Word := l ++ List.replicate (n - l.length) 0

/-- Two token log entries to a word. -/
def logWords : List (BitVec 32) → List Word
  | a :: b :: l => (fld 63 32 b.toNat ||| fld 31 0 a.toNat) :: logWords l
  | [a] => [fld 31 0 a.toNat]
  | [] => []

/-- A 16-bit string to words, four to a word, and back. -/
def halfWords : List Nat → List Word
  | a :: b :: c :: d :: l => (fld 63 48 d ||| fld 47 32 c ||| fld 31 16 b ||| fld 15 0 a) :: halfWords l
  | [] => []
  | l => [(List.range 4).foldl (fun w i => w ||| fld (16 * i + 15) (16 * i) (l.getD i 0)) 0]
def halvesOf (ws : List Word) : List Nat := ws.flatMap fun w => [bits w 15 0, bits w 31 16, bits w 47 32, bits w 63 48]

/-! ### Page table entries (R57, R58) -/

/-- A directory entry: TIER = DRAM and PIN = 1 (R57). -/
def DirTab.words (e : DirTab) : List Word := [if e.v then fld 63 60 1 ||| fld 55 16 e.loc ||| fld 5 5 1 ||| 1 else 0, 0]
def DirTab.ofWords (w : Word) : DirTab := { v := bit w 0, loc := if bit w 0 then bits w 55 16 else 0 }

/-- A leaf entry (R58). -/
def Leaf.words (l : Leaf) : List Word :=
  [fld 63 60 l.tier.code ||| fld 59 56 l.tclass ||| fld 55 16 l.loc ||| fld 7 7 (bnat l.kv) ||| fld 6 6 (bnat l.poison)
      ||| fld 5 5 (bnat l.pin) ||| fld 4 4 (bnat l.wp) ||| fld 3 3 (bnat l.ferry) ||| fld 0 0 (bnat l.v),
    fld 63 48 l.ferryId ||| fld 47 32 l.cow.toNat ||| fld 7 0 l.age]
def Leaf.ofWords (a b : Word) : Leaf :=
  { v := bit a 0, tier := (Tier.ofCode (bits a 63 60)).getD .larder, tclass := bits a 59 56, loc := bits a 55 16, kv := bit a 7
    poison := bit a 6, pin := bit a 5, wp := bit a 4, ferry := bit a 3, ferryId := bits b 63 48
    cow := BitVec.ofNat 16 (bits b 47 32), age := bits b 7 0 }

/-- An entry of no mapped page has every bit 0. -/
def State.leafWords (s : State) (p : Nat) : List Word := if (s.leaf p).v then (s.leaf p).words else [0, 0]

/-! ### Directory entries and headers (R104, R105, R110, R111) -/

def DirEnt.words (e : DirEnt) : List Word :=
  [fld 63 32 e.gen.toNat ||| fld 31 28 e.state.code ||| fld 27 26 e.kind.code ||| fld 25 13 e.decode ||| fld 12 12 (bnat e.tracked)
      ||| fld 11 8 e.tclass ||| fld 7 4 e.model,
    BitVec.ofNat 64 e.header, fld 19 0 e.customer, BitVec.ofNat 64 e.lastNs]
def DirEnt.ofWords (a b c d : Word) : DirEnt :=
  { gen := BitVec.ofNat 32 (bits a 63 32), state := .ofCode (bits a 31 28), kind := .ofCode (bits a 27 26), decode := bits a 25 13
    tracked := bit a 12, tclass := bits a 11 8, model := bits a 7 4, header := b.toNat / 4096 * 4096, customer := bits c 19 0
    lastNs := d.toNat }

/-- The 4 KiB of a home header (R110). -/
def headerWords (h : Header) : List Word :=
  padTo 512
    (padTo 64
      ([h.handle, h.origin, fld 63 32 h.specLen ||| fld 31 0 h.commitLen,
        fld 63 32 h.maxTokens ||| fld 23 20 h.vocab ||| fld 19 0 h.customer, BitVec.ofNat 64 h.tokenLog,
        BitVec.ofNat 64 h.spanTable, fld 63 32 h.spans ||| fld 31 0 h.spanGen.toNat, fld 63 32 h.custody.toNat,
        BitVec.ofNat 64 h.custodyNs, h.recAddr, fld 63 32 h.revives ||| fld 7 0 h.likelihood,
        BitVec.ofNat 64 h.parkedNs, fld 15 0 h.snapEpoch.toNat] ++ padTo 4 h.adapter ++ padTo 8 h.carry ++
        padTo 8 h.sampler)
      ++ h.grammar.take 1 ++ halfWords ((h.grammar.drop 1).map fun w => bits w 15 0))

/-- The header that 512 words hold: of the grammar stack, DEPTH entries (R453). -/
def Header.ofWords (ws : List Word) : Header :=
  let w := fun (i : Nat) => ws.getD i 0
  { handle := w 0, origin := w 1, specLen := bits (w 2) 63 32, commitLen := bits (w 2) 31 0, maxTokens := bits (w 3) 63 32
    vocab := bits (w 3) 23 20, customer := bits (w 3) 19 0, tokenLog := (w 4).toNat, spanTable := (w 5).toNat
    spans := bits (w 6) 63 32, spanGen := BitVec.ofNat 32 (bits (w 6) 31 0), custody := BitVec.ofNat 32 (bits (w 7) 63 32)
    custodyNs := (w 8).toNat, recAddr := w 9, revives := bits (w 10) 63 32, likelihood := bits (w 10) 7 0
    parkedNs := (w 11).toNat, snapEpoch := BitVec.ofNat 16 (bits (w 12) 15 0)
    adapter := (ws.drop 13).take 4, carry := (ws.drop 17).take 8, sampler := (ws.drop 25).take 8
    grammar := if w 64 = 0 then [] else
      w 64 :: ((halvesOf ((ws.drop 65).take 447)).take (bits (w 64) 10 0)).map fun n => BitVec.ofNat 64 n }

/-- The words of a record (R123); reserved bits are zero (R12). -/
def poolRecWords (r : PoolRec) : List Word :=
  [r.origin, r.current,
    fld 63 32 r.custody.toNat ||| fld 31 30 r.state.code ||| fld 29 19 r.holder.code ||| fld 18 8 r.target.code,
    BitVec.ofNat 64 r.changeNs, r.cairn, fld 23 20 r.tclass ||| fld 19 0 r.customer, 0, 0]

/-- The record that eight words hold. -/
def poolRecOf (i : Item) : PoolRec :=
  { origin := i.w0, current := i.w1, custody := BitVec.ofNat 32 (bits i.w2 63 32), state := .ofCode (bits i.w2 31 30)
    holder := .ofCode (bits i.w2 29 19), target := .ofCode (bits i.w2 18 8), changeNs := i.w3.toNat, cairn := i.w4
    tclass := bits i.w5 23 20, customer := bits i.w5 19 0 }

/-! ### Span table entries and side records (R152, R156) -/

def resCode : Res → Nat
  | .empty => 0
  | .resident => 1
  | .parked => 2
  | .dropped => 3
def resOfCode : Nat → Res
  | 1 => .resident
  | 2 => .parked
  | 3 => .dropped
  | _ => .empty

def spanWords (e : SpanEnt) : List Word :=
  [fld 63 16 e.base ||| fld 15 8 e.sharers ||| fld 7 6 (resCode e.res) ||| fld 5 5 (bnat e.pinned) ||| fld 4 4 (bnat e.inSnap)
      ||| fld 3 3 (bnat e.recomp) ||| fld 2 2 (bnat e.shared),
    fld 63 32 e.gen.toNat ||| fld 31 0 e.anchor]
def spanOfWords (a b : Word) : SpanEnt :=
  { base := bits a 63 16, sharers := bits a 15 8, res := resOfCode (bits a 7 6), pinned := bit a 5, inSnap := bit a 4
    recomp := bit a 3, shared := bit a 2, gen := BitVec.ofNat 32 (bits b 63 32), anchor := bits b 31 0 }

def sideWords (r : Side) : List Word :=
  [fld 63 32 r.vScale.toNat ||| fld 31 0 r.kScale.toNat,
    fld 40 40 (bnat r.sketchValid) ||| fld 39 32 r.sat ||| fld 8 0 r.rows] ++ r.sketch.take 4 ++
    [BitVec.ofNat 64 r.stats, 0]
def sideOfWords (ws : List Word) : Side :=
  let w := fun (i : Nat) => ws.getD i 0
  { vScale := BitVec.ofNat 32 (bits (w 0) 63 32), kScale := BitVec.ofNat 32 (bits (w 0) 31 0), sketchValid := bit (w 1) 40
    sat := bits (w 1) 39 32, rows := bits (w 1) 8 0, sketch := (ws.drop 2).take 4, stats := (w 6).toNat }

/-! ### Request records (R349 to R351) -/

/-- REQ_ID of a record (R349). -/
def State.reqUse (s : State) (i : Nat) : BitVec 16 := SMap.get 0 s.fw.uses i
def reqId (i : Nat) (use : BitVec 16) : Word := fld 31 16 i ||| fld 15 0 use.toNat

def ReqState.code : ReqState → Nat
  | .queued => 1
  | .reviveWait => 2
  | .prefill => 3
  | .decode => 4
  | .rationWait => 5
def ReqState.ofCode : Nat → ReqState
  | 2 => .reviveWait
  | 3 => .prefill
  | 4 => .decode
  | 5 => .rationWait
  | _ => .queued

/-- A record's sixteen words: a free one holds its identifier alone. -/
def State.reqWords (s : State) (i : Nat) : List Word :=
  match SMap.lookup s.fw.reqs i with
  | none => padTo 16 (List.replicate 8 0 ++ [fld 63 32 (reqId i (s.reqUse i)).toNat])
  | some r =>
    padTo 16 (r.item.words ++
      [fld 63 32 (reqId i r.use).toNat ||| fld 31 28 r.state.code ||| fld 27 24 r.held.code ||| fld 23 23 (bnat r.cancel),
        fld 63 32 r.newDone ||| fld 31 0 r.inputDone, BitVec.ofNat 64 r.openNs, BitVec.ofNat 64 r.firstNs,
        fld 63 32 r.lastStep.toNat ||| fld 31 16 r.failed])

/-- Store a record's words. -/
def State.putReqWords (s : State) (i : Nat) (ws : List Word) : State :=
  let w := fun (k : Nat) => ws.getD k 0
  let use := BitVec.ofNat 16 (bits (w 8) 47 32)
  let s := { s with fw.uses := SMap.put s.fw.uses i use }
  if bits (w 8) 31 28 = 0 then { s with fw.reqs := SMap.erase s.fw.reqs i }
  else
    let r : ReqRec := (SMap.lookup s.fw.reqs i).getD {}
    { s with fw.reqs := SMap.put s.fw.reqs i { r with
        item := ⟨w 0, w 1, w 2, w 3, w 4, w 5, w 6, w 7⟩, use := use, state := .ofCode (bits (w 8) 31 28)
        held := .ofCode (bits (w 8) 27 24), cancel := bit (w 8) 23, newDone := bits (w 9) 63 32, inputDone := bits (w 9) 31 0
        openNs := (w 10).toNat, firstNs := (w 11).toNat, lastStep := BitVec.ofNat 32 (bits (w 12) 63 32)
        failed := bits (w 12) 31 16, slot := hSlot (w 0) } }

/-- State address and length of the request records (R349, R381). -/
def State.reqBase (s : State) : Nat := 65536 * s.field Reg.ctlReq 35 0
def State.reqBytes (s : State) : Nat := 128 * s.field Reg.ctlReqCount 16 0

/-! ### The token log (R112, R115) -/

/-- A token log entry as it is read: contents at or above SPEC_LEN are undefined (R115). -/
def State.logCell (s : State) (slot i : Nat) : BitVec 32 :=
  if i < (s.hdr slot).specLen then SMap.get 0 s.hmp.log (slot * 2 ^ 24 + i) else Config.staleEntry s.free (slot * 2 ^ 24 + i)

/-! ### Which table fills a state address -/

/-- An entry of a decoded table. -/
inductive TabRef where
  /-- Directory entry of a slot. -/
  | dir (slot : Nat)
  /-- Header of a slot. -/
  | hdr (slot : Nat)
  /-- Request record. -/
  | req (i : Nat)
  /-- Two token log entries of a slot, from an even position. -/
  | log (slot pos : Nat)
  /-- Span table entry. -/
  | span (slot n : Nat)
  /-- Side record of a block. -/
  | side (slot n b : Nat)
  /-- Directory entry of the table in a DRAM page. -/
  | dirTab (d i : Nat)
  /-- Leaf entry of a page. -/
  | leaf (p : Nat)
  deriving DecidableEq, Repr

/-- The entry that a table page of the page table holds at a byte offset: the root and level-2 tables hold directory entries, level-3
tables leaf entries (R56). -/
def State.tableRef (s : State) (d off : Nat) : Option (TabRef × Nat) :=
  let i := off / 16
  let w := off % 16 / 8
  if d = s.rootPage then some (.dirTab d i, w)
  else
    match s.tsm.dirs.find? fun x => x.2.v && x.2.loc = d with
    | none => none
    | some (k, _) =>
      if k / 4096 = s.rootPage then some (.dirTab d i, w)
      else
        match s.tsm.dirs.find? fun x => x.2.v && x.2.loc = k / 4096 with
        | none => none
        | some (j, _) => some (.leaf (j % 4096 * 2 ^ 24 + k % 4096 * 2 ^ 12 + i), w)

/-- The token log, span table or side array of a hamper at a state address. -/
def State.slotRef (s : State) (slot a : Nat) : Option (TabRef × Nat) :=
  let h := s.hdr slot
  let b := s.blocks (s.dir slot).model
  let side := h.spanTable + 65536 * tablePages h.spans
  if h.tokenLog ≠ 0 && h.tokenLog ≤ a && a < h.tokenLog + 4 * h.maxTokens then some (.log slot ((a - h.tokenLog) / 8 * 2), 0)
  else if h.spanTable = 0 || a < h.spanTable then none
  else if a < h.spanTable + 16 * h.spans then some (.span slot ((a - h.spanTable) / 16), (a - h.spanTable) % 16 / 8)
  else if side ≤ a && a < side + 64 * h.spans * b then
    let k := (a - side) / 64
    some (.side slot (k / b) (k % b), (a - side) % 64 / 8)
  else none

/-- The table entry, and the word of it, that the byte at a state address belongs to. -/
def State.tabRef (s : State) (a : Nat) : Option (TabRef × Nat) :=
  let l := s.leaf (a / 65536)
  if s.hmp.dirBase ≠ 0 && s.hmp.dirBase ≤ a && a < s.hmp.dirBase + 32 * 2 ^ 22 then
    some (.dir ((a - s.hmp.dirBase) / 32), (a - s.hmp.dirBase) % 32 / 8)
  else if s.hmp.headerBase ≠ 0 && s.hmp.headerBase ≤ a && a < s.hmp.headerBase + 4096 * 2 ^ 22 then
    some (.hdr ((a - s.hmp.headerBase) / 4096), (a - s.hmp.headerBase) % 4096 / 8)
  else if s.reqBase ≠ 0 && s.reqBase ≤ a && a < s.reqBase + s.reqBytes then
    some (.req ((a - s.reqBase) / 128), (a - s.reqBase) % 128 / 8)
  else if l.pin && l.tier = .dram then s.tableRef l.loc (a % 65536)
  else (s.hmp.hdr.map (·.1)).findSome? fun slot => s.slotRef slot a

/-- The words of a table entry. -/
def State.tabWords (s : State) : TabRef → List Word
  | .dir n => (s.dir n).words
  | .hdr n => headerWords (s.hdr n)
  | .req i => s.reqWords i
  | .log n i => logWords [s.logCell n i, s.logCell n (i + 1)]
  | .span n k => spanWords (s.span n k)
  | .side n k b => sideWords (s.side n k b)
  | .dirTab d i => (s.dirTab d i).words
  | .leaf p => s.leafWords p

/-- Store the words of a table entry. -/
def State.putTab (s : State) (r : TabRef) (ws : List Word) : State :=
  let w := fun (i : Nat) => ws.getD i 0
  match r with
  | .dir n => s.setDir n (.ofWords (w 0) (w 1) (w 2) (w 3))
  | .hdr n => s.setHdr n (.ofWords ws)
  | .req i => s.putReqWords i ws
  | .log n i =>
    let log := SMap.set 0 s.hmp.log (n * 2 ^ 24 + i) ((w 0).setWidth 32)
    { s with hmp.log := SMap.set 0 log (n * 2 ^ 24 + i + 1) (BitVec.ofNat 32 (bits (w 0) 63 32)) }
  | .span n k => s.setSpan n k (spanOfWords (w 0) (w 1))
  | .side n k b => s.setSide n k b (sideOfWords ws)
  | .dirTab d i => { s with tsm.dirs := SMap.set {} s.tsm.dirs (d * 4096 + i) (.ofWords (w 0)) }
  | .leaf p => s.setLeaf p (if bit (w 0) 0 then .ofWords (w 0) (w 1) else {})

/-! ### Bytes at a state address -/

/-- The byte at a mapped state address: of a table entry, or of the page's home. -/
def State.vbyte (s : State) (a : Nat) : Byte :=
  match s.tabRef a with
  | some (r, i) => BitVec.ofNat 8 (((s.tabWords r).getD i 0).toNat / 2 ^ (8 * (a % 8)))
  | none => s.byte (s.physOf a)

/-- Write the byte at a mapped state address. -/
def State.setVbyte (s : State) (a : Nat) (b : Byte) : State :=
  match s.tabRef a with
  | some (r, i) =>
    let ws := s.tabWords r
    s.putTab r (ws.set i (setBits (ws.getD i 0) (8 * (a % 8) + 7) (8 * (a % 8)) b.toNat))
  | none => s.setByte (s.physOf a) b

/-- The page holds entries of a decoded table. -/
def State.tabled (s : State) (p : Nat) : Bool :=
  let lo := 65536 * p
  let hi := lo + 65536
  let l := s.leaf p
  let meets := fun (a n : Nat) => a ≠ 0 && lo < a + n && a < hi
  meets s.hmp.dirBase (32 * 2 ^ 22) || meets s.hmp.headerBase (4096 * 2 ^ 22) || meets s.reqBase s.reqBytes ||
    (l.pin && l.tier = .dram && (l.loc = s.rootPage || s.tsm.dirs.any fun x => x.2.loc = l.loc)) ||
    s.hmp.hdr.any fun x =>
      meets x.2.tokenLog (65536 * logPages x.2.maxTokens) ||
        meets x.2.spanTable (65536 * (tablePages x.2.spans + sidePages x.2.spans (s.blocks (s.dir x.1).model)))

/-- `n` bytes of one mapped page. -/
def State.vbytes (s : State) (a n : Nat) : List Byte :=
  if s.tabled (a / 65536) then (List.range n).map fun i => s.vbyte (a + i) else s.readBytes (s.physOf a) n

/-- Write bytes of one mapped page. -/
def State.setVbytes (s : State) (a : Nat) (bs : List Byte) : State :=
  if s.tabled (a / 65536) then bs.zipIdx.foldl (fun s x => s.setVbyte (a + x.2) x.1) s else s.writeBytes (s.physOf a) bs

end Sys2Proof.Machine
end

