-- ==== Sys2Proof/Machine/Access.lean ====
section
/-! DEFINITION. Accesses of a unit to the state address space, page by page (R53, R54, R61 to R64). -/

namespace Sys2Proof.Machine

open Sys2Proof

/-- Split a transfer at page boundaries: state address, offset in the transfer, bytes. -/
def pagePieces (addr n : Nat) : List (Nat × Nat × Nat) :=
  (List.range ((addr + n - 1) / 65536 + 1 - addr / 65536)).map fun i =>
    let lo := max addr ((addr / 65536 + i) * 65536)
    let hi := min (addr + n) ((addr / 65536 + i + 1) * 65536)
    (lo, lo - addr, hi - lo)

/-- Firmware reads and writes state memory through the translation cache of the TSM engines (R61, log entry 105). -/
def firmwareCache : Nat := 5

/-- How a move between memory and larder goes on: done, waiting for copy-on-write, or a fault. -/
inductive Moved where
  | done (s : State)
  | wait (s : State)
  | fault (code : Nat) (s : State)

/-! Uncorrectable lines of pinned pages, whose translations never fault (R77, R611, R694). -/

/-- First byte of a state address's DRAM home as a user byte address (R604); none for another home or an unpinned page. -/
def State.pinnedAt (s : State) (a : Nat) : Option Nat :=
  let l := s.leaf (a / 65536)
  if l.v && l.pin && l.tier = .dram then some (65536 * l.loc + a % 65536) else none

/-- A read of n bytes of one page meets an uncorrectable line. -/
def State.badRead (s : State) (a n : Nat) : Bool :=
  match s.pinnedAt a with
  | none => false
  | some b => s.dram.bad.any fun k => b / 256 ≤ k && k ≤ (b + n - 1) / 256

/-- A write of n bytes of one page covers an uncorrectable line in part: it is not made (R611). -/
def State.badWrite (s : State) (a n : Nat) : Bool :=
  match s.pinnedAt a with
  | none => false
  | some b => s.dram.bad.any fun k => b / 256 ≤ k && k ≤ (b + n - 1) / 256 && !(b ≤ 256 * k && 256 * k + 256 ≤ b + n)

/-- A write of n bytes of one page replaces the lines it covers whole (R611). -/
def State.mend (s : State) (a n : Nat) : State :=
  match s.pinnedAt a with
  | none => s
  | some b => { s with dram.bad := s.dram.bad.filter fun k => !(b ≤ 256 * k && 256 * k + 256 ≤ b + n) }

/-- Some bytes of a body in pinned pages cannot be read. -/
def State.bodyLost (s : State) (a n : Nat) : Bool := !s.dram.bad.isEmpty && (pagePieces a n).any fun x => s.badRead x.1 x.2.2

/-- Bytes read by a unit through its cache, or the fault of the first page that has one. -/
def readPieces (cache : Nat) : List (Nat × Nat × Nat) → State → Except Nat (List Byte) × State
  | [], s => (.ok [], s)
  | (a, _, n) :: ps, s =>
    match s.translate cache a false true with
    | (.fault c, s) => (.error c, s)
    | (.stall, s) => (.error Code.ferryBusy, s)
    | (.home t loc, s) =>
      let here := if s.tabled (a / 65536) then s.vbytes a n else s.readBytes (homeAddr t loc (a % 65536)) n
      if s.reachCode t loc ≠ 0 then (.error (s.reachCode t loc), s)
      else if s.badRead a n then (.error Code.poisoned, s)
      else
        match readPieces cache ps (s.countPool t false n) with
        | (.ok bs, s') => (.ok (here ++ bs), s')
        | r => r

/-- `n` bytes at a state address, read by the unit with translation cache `cache`. -/
def State.getBytes (s : State) (cache addr n : Nat) : Except Nat (List Byte) × State :=
  if n = 0 then (.ok [], s) else readPieces cache (pagePieces addr n) s

/-- Bytes written by a unit: done, a page that waits for its snapshot copy, or a fault. -/
def writePieces (cache : Nat) (bs : List Byte) : List (Nat × Nat × Nat) → State → Moved
  | [], s => .done s
  | (a, off, n) :: ps, s =>
    match s.translate cache a true true with
    | (.fault c, s) => .fault c s
    | (.stall, s) => .wait s
    | (.home t loc, s) =>
      let data := (bs.drop off).take n
      if s.reachCode t loc ≠ 0 then .fault (s.reachCode t loc) s
      else if s.badWrite a n then .fault Code.poisoned s
      else
        let s := if s.tabled (a / 65536) then s.setVbytes a data else s.writeBytes (homeAddr t loc (a % 65536)) data
        writePieces cache bs ps (((s.mend a n).countPool t true n).partWrite t (a % 65536) n)

def State.putBytes (s : State) (cache addr : Nat) (bs : List Byte) : Moved :=
  if bs.isEmpty then .done s else writePieces cache bs (pagePieces addr bs.length) s

/-- `n` bytes at a state address become undefined, on pages that are mapped. -/
def State.undefState (s : State) (addr n : Nat) : State :=
  if n = 0 then s
  else (pagePieces addr n).foldl (fun s x =>
    s.iff (s.leaf (x.1 / 65536)).v fun s => s.undefRange (s.physOf x.1, x.2.2)) s

/-! Tables of firmware and units stand in pinned regions, whose pages never fault (R77). -/

/-- A word of a table at a state address; an address without a page reads 0. -/
def State.tabWord (s : State) (addr : Nat) : Word :=
  if (s.leaf (addr / 65536)).v then
    if s.tabled (addr / 65536) then BitVec.ofNat 64 (((s.vbytes addr 8).zipIdx.map fun x => x.1.toNat * 256 ^ x.2).foldl (· + ·) 0)
    else s.readWord (s.physOf addr)
  else 0
def State.setTabWord (s : State) (addr : Nat) (v : Word) : State :=
  if (s.leaf (addr / 65536)).v then
    if s.tabled (addr / 65536) then s.setVbytes addr (leBytes v.toNat 8) else s.writeWord (s.physOf addr) v
  else s
/-- Bytes of a table. -/
def State.tabBytes (s : State) (addr n : Nat) : List Byte :=
  (List.range n).map fun i => if (s.leaf ((addr + i) / 65536)).v then s.vbyte (addr + i) else 0
def State.setTabBytes (s : State) (addr : Nat) (bs : List Byte) : State :=
  if bs.isEmpty then s
  else (pagePieces addr bs.length).foldl (fun s x =>
    s.iff (s.leaf (x.1 / 65536)).v fun s => (s.setVbytes x.1 ((bs.drop x.2.1).take x.2.2)).mend x.1 x.2.2) s
/-- Put bytes at their homes, page by page, on pages that are mapped. -/
def State.setHomes (s : State) (addr : Nat) (bs : List Byte) : State :=
  if bs.isEmpty then s
  else (pagePieces addr bs.length).foldl (fun s x =>
    s.iff (s.leaf (x.1 / 65536)).v fun s => (s.writeBytes (s.physOf x.1) ((bs.drop x.2.1).take x.2.2)).mend x.1 x.2.2) s
/-- Copy between a memory and state addresses of a pinned region, page by page. -/
def State.copyToState (s : State) (src addr n : Nat) : State :=
  (pagePieces addr n).foldl (fun s x => s.iff (s.leaf (x.1 / 65536)).v fun s =>
    (s.copyRange (src + x.2.1) (s.physOf x.1) x.2.2).mend x.1 x.2.2) s
def State.copyFromState (s : State) (addr dst n : Nat) : State :=
  (pagePieces addr n).foldl (fun s x => s.iff (s.leaf (x.1 / 65536)).v fun s => s.copyRange (s.physOf x.1) (dst + x.2.1) x.2.2) s

/-- A page of a pinned region. -/
def State.pinned (s : State) (page : Nat) : Bool := (s.leaf page).v && (s.leaf page).pin

/-- State bytes on pinned pages. -/
def State.pinnedRange (s : State) (a n : Nat) : Bool :=
  (pageRun (a / 65536) ((a + n - 1) / 65536 + 1 - a / 65536)).all s.pinned

/-- A token entry of R112 at a state address. -/
def entryToken (w : BitVec 32) : Nat := w.toNat % 2 ^ 18
def entryOrigin (w : BitVec 32) : Nat := w.toNat / 2 ^ 22 % 4
def mkEntry (token origin : Nat) (late unverified : Bool) : BitVec 32 :=
  BitVec.ofNat 32 (token % 2 ^ 18 + origin % 4 * 2 ^ 22 + bnat late * 2 ^ 24 + bnat unverified * 2 ^ 25)
/-- Little-endian 32-bit words of a byte string. -/
def words32 : List Byte → List (BitVec 32)
  | a :: b :: c :: d :: bs => (d ++ c ++ b ++ a) :: words32 bs
  | _ => []
def bytes32 (ws : List (BitVec 32)) : List Byte := ws.flatMap fun w => leBytes w.toNat 4

end Sys2Proof.Machine
end

