-- ==== Sys2Proof/Machine/Ecc.lean ====
section
/-! DEFINITION. The field GF(2^8) and the inline check code of a DRAM line (R504, R605 to R607). -/

namespace Sys2Proof.Machine

open Sys2Proof

/-! ### GF(2^8) with 0x11D, α = 2 (R504, R605) -/

def gfDouble (b : Byte) : Byte := if b.getLsbD 7 then (b <<< 1) ^^^ 0x1D#8 else b <<< 1
/-- b · α^i. -/
def gfPow (b : Byte) : Nat → Byte
  | 0 => b
  | i + 1 => gfDouble (gfPow b i)

/-! ### RS(36,32) over the bytes of a stored line (R605 to R607)

Bytes 0 to 255 of a stored line are its data and 256 to 287 its check bytes.  The code is linear and a codeword's syndromes are
zero, so the syndromes of what is read are those of its difference from what was written. -/

/-- The codeword that byte `b` of a stored line belongs to, and the power of x it is the coefficient of (R605). -/
def symbolOf (b : Nat) : Nat × Nat :=
  if b < 256 then (b % 32 / 4, 35 - (4 * (b / 32) + b % 4)) else ((b - 256) / 4, 3 - (b - 256) % 4)

/-- The byte of a stored line that holds the coefficient of x^p of codeword j. -/
def byteOfSymbol (j p : Nat) : Nat :=
  if p < 4 then 256 + 4 * j + (3 - p) else 32 * ((35 - p) / 4) + 4 * j + (35 - p) % 4

/-- Product in GF(2^8). -/
def gfMul (a b : Byte) : Byte :=
  (List.range 8).foldl (fun r i => if b.getLsbD i then r ^^^ gfPow a i else r) 0

/-- One step of the division by g(x) = x^4 + 0x0F·x^3 + 0x36·x^2 + 0x78·x + 0x40 (R606): the remainder, highest power first. -/
def checkStep (r : List Byte) (d : Byte) : List Byte :=
  let k := r.headD 0 ^^^ d
  let g := fun (i : Nat) (c : Byte) => r.getD i 0 ^^^ gfMul c k
  [g 1 0x0F, g 2 0x36, g 3 0x78, gfMul 0x40 k]

/-- The check bytes of a codeword, coefficients of x^3 to x^0, of its data symbols 0 to 31 (R606). -/
def checkSymbols (ds : List Byte) : List Byte := ds.foldl checkStep [0, 0, 0, 0]

/-- Burst 8 of a line of 256 data bytes (R605, R606): the all-zero line has all-zero check bytes (R610). -/
def lineChecks (data : List Byte) : List Byte :=
  (List.range 8).flatMap fun j => checkSymbols ((List.range 32).map fun i => data.getD (32 * (i / 4) + 4 * j + i % 4) 0)

/-- Where burst k of line L of a channel stands (R604): rank, bank, row and column burst. -/
structure BurstPlace where
  rank : Nat
  bank : Nat
  row : Nat
  column : Nat
  deriving DecidableEq, Repr

def burstPlace (l k : Nat) : BurstPlace :=
  let b := 9 * l + k
  let r := b % 301989888
  { rank := b / 301989888, bank := r / 64 % 16, row := r / 1024, column := r % 64 }

/-- Syndrome S_m of codeword j of a line whose bytes differ from the written ones by `errs` (R607). -/
def syndrome (errs : List (Nat × Byte)) (j m : Nat) : Byte :=
  errs.foldl (fun r e => if (symbolOf e.1).1 = j then r ^^^ gfPow e.2 (m * (symbolOf e.1).2) else r) 0

/-- What decode() of R607 finds: a correction is the power of x and the value to add. -/
inductive Decoded where
  | clean | corrected (p : Nat) (value : Byte) | uncorrectable
  deriving DecidableEq, Repr

/-- decode() of R607. -/
def decodeSyndromes (s0 s1 s2 s3 : Byte) : Decoded :=
  if s0 = 0 && s1 = 0 && s2 = 0 && s3 = 0 then .clean
  else if s0 = 0 then .uncorrectable
  else
    match (List.range 36).find? fun p => s1 = gfPow s0 p && s2 = gfPow s1 p && s3 = gfPow s2 p with
    | some p => .corrected p s0
    | none => .uncorrectable

def decodeWord (errs : List (Nat × Byte)) (j : Nat) : Decoded :=
  decodeSyndromes (syndrome errs j 0) (syndrome errs j 1) (syndrome errs j 2) (syndrome errs j 3)

def Decoded.corrects : Decoded → Bool
  | .corrected _ _ => true
  | _ => false

/-- The outcome of a line (R607) and its first failing or corrected codeword (R629). -/
def lineEcc (errs : List (Nat × Byte)) : Ecc × Nat :=
  match (List.range 8).find? fun j => decodeWord errs j = .uncorrectable with
  | some j => (.uncorrectable, j)
  | none =>
    match (List.range 8).find? fun j => (decodeWord errs j).corrects with
    | some j => (.corrected, j)
    | none => (.clean, 0)

/-- The difference from the written line that the decoder leaves: nothing after a right correction, an error after a wrong one or
one that passes as clean. -/
def residue (errs : List (Nat × Byte)) : List (Nat × Byte) :=
  errs ++ (List.range 8).filterMap fun j => match decodeWord errs j with
    | .corrected p v => some (byteOfSymbol j p, v)
    | _ => none

end Sys2Proof.Machine
end

