-- ==== Sys2Proof/Machine/StateSpace.lean ====
section
/-! DEFINITION. Ferry moves and drops, shootdowns, eviction and the sett ration (R52 to R98). -/

namespace Sys2Proof.Machine

open Sys2Proof

/-! ### Ferry requests -/

def ferryOp (it : Item) : Nat := bits it.w3 3 0
def ferryCount (it : Item) : Nat := bits it.w3 63 32
def ferryOrigin (it : Item) : Origin := .item (bits it.w5 40 32) (bits it.w5 11 0) it.w0 it.w1

/-- What a ferry request item asks (R67). -/
def ferryWant (it : Item) : Want :=
  { isDrop := ferryOp it = 1, dest := (Tier.ofCode (bits it.w3 7 4)).getD .dram,
    seg := bits it.w4 15 8, die := bits it.w4 1 0, snap := tagSnap it.w1, session := it.w0 }

/-- The request's fields lie in their ranges (R13, R67). -/
def ferryOk (it : Item) : Bool :=
  ferryOp it ≤ 1 && bits it.w2 15 0 = 0 && 1 ≤ ferryCount it && ferryCount it ≤ 65536 &&
    (ferryOp it = 1 || bits it.w3 7 4 ≤ 3)

/-- Run a ferry request item: refused whole with the invalid-field status, or its pages put through R70. -/
def State.ferryRequest (s : State) (it : Item) : State :=
  let s := s.begin_ 5 it
  if ferryOk it then s.startFerry (ferryOrigin it) (ferryWant it) (pageRun (it.w2.toNat / 65536) (ferryCount it))
  else s.post (bits it.w5 40 32) (completionItem it.w0 it.w1 0 0 0 Code.invalidField it.w2) (bits it.w5 11 0)

/-- FERRY_MOVE (R67 to R71). -/
def execFerryMove (item : Item) (s : State) : Host.Outcome State Fault Refusal :=
  gate s fun s => if ferryOp item = 1 then s else s.byMap item.w1 fun s => s.ferryRequest item

/-- FERRY_DROP (R67, R74). -/
def execFerryDrop (item : Item) (s : State) : Host.Outcome State Fault Refusal :=
  gate s fun s => if ferryOp item = 1 then s.byMap item.w1 fun s => s.ferryRequest item else s

/-- A transfer fault of a move (R69): an unreadable source is poisoned, loses its contents and stays the home. -/
def State.ferryFault (s : State) (page : Nat) (f : XferFault) : State :=
  match SMap.lookup s.tsm.ops page with
  | none => s
  | some op =>
    let s := s.dropAccs fun a => a.use = FabUse.ferry page
    match f with
    | .sourceRead =>
      ((s.dropClaim page (.failed Code.sourceRead) true).bump (Reg.fltCnt 6)).event Code.sourceRead 0
        (4 + op.engine) (2 + op.engine) 0 0 (BitVec.ofNat 64 (page * 65536))
    | .destWrite => s.dropClaim page (.failed Code.ferryDest)
    | .tablePage => s.tableFault (page * 65536)

/-- The write stage of a move starts: pool accesses enter their port's tracker, and fail at once with no port up (R582). -/
def State.fabFerry (s : State) (page : Nat) : State :=
  match SMap.lookup s.tsm.ops page with
  | none => s
  | some op =>
    let l := s.leaf page
    let read := if l.tier = .pool then s.fabIssue false (l.loc / 2 ^ 32) (l.loc % 2 ^ 32) (.ferry page) op.tag.session 4 0 else some s
    match read with
    | none => s.ferryFault page .sourceRead
    | some s =>
      if op.dst = .pool then
        (s.fabIssue true (op.dstLoc / 2 ^ 32) (op.dstLoc % 2 ^ 32) (.ferry page) op.tag.session 4 0).getD (s.ferryFault page .destWrite)
      else s

/-- Block moves outstanding to a tier. -/
def State.movesTo (s : State) (t : Tier) : Nat := (s.tsm.ops.filter fun x => x.2.stage = .write && x.2.dst = t).length

/-- The block move of a page starts under a tag of the epoch current now (R34, R586). -/
def State.startMove (s : State) (page : Nat) (op : PageOp) : State :=
  let r := s.nextSeq (tierUnit op.dst) 4
  let op := { op with stage := .write, tag := s.mkTag op.tag.session 4 0 op.dst.code r.1 }
  { r.2 with tsm.ops := SMap.put r.2.tsm.ops page op }.fabFerry page

/-- A read from the pool waits for an earlier page of its request that will be read from the pool too (R588). -/
def State.readsLater (s : State) (page : Nat) (op : PageOp) : Bool :=
  (s.leaf page).tier = .pool && s.tsm.ops.any fun x => x.2.req = op.req && x.2.num < op.num && !x.2.isDrop &&
    (x.2.stage = .claim || x.2.stage = .ready) && (s.leaf x.1).tier = .pool

/-- Start the ready moves that may be outstanding (R39), in page order (R588). -/
def moveLoop : List Nat → State → State
  | [], s => s
  | p :: ps, s =>
    match SMap.lookup s.tsm.ops p with
    | none => moveLoop ps s
    | some op =>
      moveLoop ps (if op.stage = .ready && s.movesTo op.dst < seqWindow && !s.readsLater p op then s.startMove p op else s)

/-- The pages of the ready moves, in the order of their claims. -/
def State.readyPages (s : State) : List Nat :=
  ((s.tsm.ops.filter fun x => x.2.stage = .ready).foldl (fun m x => SMap.put m x.2.num x.1) ([] : SMap Nat)).map (·.2)
def State.startMoves (s : State) : State := moveLoop s.readyPages s

/-- A sett operation on a move's source or destination has not completed (R622). -/
def State.settPending (s : State) (src : Tier) (loc : Nat) (dst : Tier) (dstLoc : Nat) : Bool :=
  (src = .sett && s.sett.reads.any fun r => r.page = loc) || (dst = .sett && s.sett.progs.any fun p => p.page = dstLoc)

/-- FERRY_WRITE_DONE (R68, R69): with every fabric access and sett operation of the page complete, the destination holds the source's contents
and is verified next; or the move fails. -/
def execFerryWriteDone (page : Nat) (fault : Option XferFault) (s : State) : Host.Outcome State Fault Refusal :=
  gate s fun s =>
    match SMap.lookup s.tsm.ops page with
    | none => s
    | some op =>
      if op.stage ≠ .write then s
      else
        match fault with
        | none =>
          let l := s.leaf page
          if s.fab.accs.any (fun a => a.use = FabUse.ferry page) || s.settPending l.tier l.loc op.dst op.dstLoc then s
          else
            let s := s.copyRange (homeAddr l.tier l.loc 0) (homeAddr op.dst op.dstLoc 0) 65536
            { s with tsm.ops := SMap.put s.tsm.ops page { op with stage := .verify } }.startMoves
        | some f => (s.ferryFault page f).startMoves

/-- The verification of stage 2 (R68): CRCs agree, and for a sett destination the translation layer has reported program success. -/
def PageOp.verified (op : PageOp) (result : VerifyResult) : Bool :=
  result = .same && (op.dst ≠ .sett || op.prog = some true)

/-- FERRY_VERIFY_DONE (R68, R69): verified, the home is switched in one update and the source is shot down; else the destination
is discarded. -/
def execFerryVerifyDone (page : Nat) (result : VerifyResult) (s : State) : Host.Outcome State Fault Refusal :=
  gate s fun s =>
    match SMap.lookup s.tsm.ops page with
    | none => s
    | some op =>
      if op.stage ≠ .verify then s
      else
        if !op.verified result then s.dropClaim page (.failed Code.ferryVerify)
        else
          let l := s.leaf page
          if l.ferry && l.ferryId = op.ferryId then
            let s := s.setLeaf page { l with tier := op.dst, loc := op.dstLoc, ferry := false, ferryId := 0 }
            let s := { s with tsm.ops := SMap.erase s.tsm.ops page }
            (s.shoot page (.switched op.req l.tier l.loc)).bump (Reg.tsmCnt 6)
          else s.dropClaim page .abandoned

/-- What follows a completed shootdown. -/
def State.shotDown (s : State) (p : Nat) (c : ShootCont) : State :=
  match c with
  | .nothing => s
  | .marked => s
  | .claimed fid =>
    match SMap.lookup s.tsm.ops p with
    | none => s.startMoves
    | some op =>
      if op.ferryId ≠ fid || op.stage ≠ .claim then s.startMoves
      else if op.isDrop then
        let l := s.leaf p
        if s.deferFull then s.dropClaim p (.failed Code.reclaimFull)
        else
          let s := { s.unmap p with tsm.ops := SMap.erase s.tsm.ops p }
          s.shoot p (.dropped op.req l.tier l.loc)
      else ({ s with tsm.ops := SMap.put s.tsm.ops p { op with stage := .ready } }).startMoves
  | .switched req t loc => (s.giveBack t loc).endPage req p .moved
  | .dropped req t loc => (s.defer (.home t loc) [] [] none).endPage req p .moved
  | .freed t loc => s.giveBack t loc
  | .released id t loc =>
    ((s.giveBack t loc).setDefer id fun it => { it with shooting := it.shooting - 1 }).endDefer id

/-- Take one cache's acknowledgement off the oldest shootdown of a page that awaits it: the list left, and the
continuation when it was the last. -/
def ackShoot (cache page : Nat) : List Shoot → List Shoot × Option ShootCont
  | [] => ([], none)
  | x :: xs =>
    if x.page = page && x.waiting.contains cache then
      let w := x.waiting.filter fun c => c ≠ cache
      if w.isEmpty then (xs, some x.cont) else ({ x with waiting := w } :: xs, none)
    else
      let r := ackShoot cache page xs
      (x :: r.1, r.2)

/-- SHOOTDOWN_ACK (R66): the cache has dropped the entry and every access it began under it has completed; with the
last acknowledgement the shootdown is complete. -/
def execShootdownAck (cache : Fin 8) (page : Nat) (s : State) : Host.Outcome State Fault Refusal :=
  gate s fun s =>
    if s.tsm.shoots.any fun x => x.page = page && x.waiting.contains cache.val then
      let r := ackShoot cache.val page s.tsm.shoots
      let s := { s with tsm.tlb := SMap.erase s.tsm.tlb (tlbKey cache.val page), tsm.shoots := r.1 }
      match r.2 with
      | none => s
      | some c => (s.bump (Reg.tsmCnt 7)).shotDown page c
    else s

/-- WRITE_INTENT (R64): the entry-update unit clears FERRY, and so abandons the claim, or passes a write-protected page
to the snapshot engine. -/
def execWriteIntent (cache : Fin 8) (page : Nat) (s : State) : Host.Outcome State Fault Refusal :=
  gate s fun s => if (s.leaf page).v && !(s.leaf page).pin then s.intent cache.val page else s

/-- AGE_TICK (R58, R91): each AGE_TICK ms, AGE of every mapped page rises by 1 and saturates at 255. -/
def execAgeTick (s : State) : Host.Outcome State Fault Refusal :=
  gate s fun s => s.periodic tickAge (msec (s.field Reg.tsmWatermark 47 32)) fun s =>
    { s with tsm.leaf := s.tsm.leaf.map (fun (x : Nat × Leaf) =>
        if x.2.v then (x.1, { x.2 with age := min 255 (x.2.age + 1) }) else x) }

/-! ### Eviction (R80 to R86) -/

/-- A cost in microseconds as a fraction; none is infinite. -/
abbrev Cost := Option (Nat × Nat)

def Cost.le (a b : Cost) : Bool :=
  match a, b with
  | none, none => true
  | none, some _ => false
  | some _, none => true
  | some (n, d), some (m, e) => n * e ≤ m * d

/-- scarcity() of R89 as a fraction, infinite where the window cannot take `n` more bytes or the sett is failed. -/
def State.scarcity (s : State) (n : Nat) : Cost :=
  let u := s.settUsed
  let l := s.settLimit
  let lo := s.field Reg.tsmSettRation 39 32
  let hi := s.field Reg.tsmSettRation 47 40
  if l < u + n || s.unitFailed 7 then none
  else if u * 256 < lo * l then some (1, 1)
  else if hi * l ≤ u * 256 then some (8, 1)
  else some (l * (hi - lo) + 7 * (u * 256 - lo * l), l * (hi - lo))

/-- A candidate of R80: a span of a parked hamper, or one of its non-KV pages, with its AGE. -/
structure Cand where
  slot : Nat := 0
  span : Option Nat := none
  pages : List Nat := []
  age : Nat := 0
  deriving DecidableEq, Repr

/-- The three costs of R82 for `bytes` of a hamper. -/
def State.costDrop (s : State) (slot : Nat) : Cost :=
  some ((s.hdr slot).likelihood * s.field (Reg.tsmRecompCost (s.dir slot).model) 31 0 * s.field Reg.tsmCostWeight 47 32,
    256 * 1000 * 256)

/-- A rate of 0 in TSM.BW_EST makes a cost infinite (the manual divides by it and names no result: log entry 91). -/
def State.costPool (s : State) (slot bytes : Nat) : Cost :=
  let bw := s.field Reg.tsmBwEst 47 32
  match s.chooseSeg (s.dir slot).tclass with
  | none => none
  | some g =>
    if s.freePages .pool g * 65536 < bytes + s.field Reg.tsmPolicy 15 0 * 2 ^ 30 || bw = 0 then none
    else some ((256 + (s.hdr slot).likelihood) * bytes * s.field Reg.tsmCostWeight 31 16, 256 * bw * 100 * 256)

def State.costSett (s : State) (slot bytes : Nat) : Cost :=
  let sw := s.field Reg.tsmBwEst 15 0
  let sr := s.field Reg.tsmBwEst 31 16
  match s.scarcity bytes with
  | none => none
  | some (n, d) =>
    if sw = 0 || sr = 0 then none
    else
      let a := n * bytes * s.field Reg.tsmCostWeight 15 0
      let b := d * sw * 100 * 256
      let c := (s.hdr slot).likelihood * bytes
      let e := 256 * sr * 100
      some (a * e + c * b, b * e)

/-- What eviction does with a candidate. -/
inductive Decision where
  | drop | pool | sett | blocked
  deriving DecidableEq, Repr

/-- TSM.POLICY.MODE of a tenant class (R83). -/
def State.evictMode (s : State) (tclass : Nat) : Nat := s.field Reg.tsmPolicy (2 * tclass + 33) (2 * tclass + 32)

/-- A candidate may be dropped by eviction: a span that R81 and R171 let go. -/
def State.evictDrop (s : State) (c : Cand) : Bool :=
  match c.span with
  | none => false
  | some n => s.dropAllowed c.slot n

/-- The choice of R82 and R83: least cost, POOL before SETT before DROP among equals. -/
def State.judge (s : State) (c : Cand) : Decision :=
  let bytes := 65536 * c.pages.length
  let mode := s.evictMode (s.dir c.slot).tclass
  let pool := s.costPool c.slot bytes
  let sett := s.costSett c.slot bytes
  let drop := if s.evictDrop c && mode ≠ 1 then s.costDrop c.slot else none
  if mode = 2 && s.evictDrop c then .drop
  else if pool.isSome && Cost.le pool sett && Cost.le pool drop then .pool
  else if sett.isSome && Cost.le sett drop then .sett
  else if drop.isSome then .drop
  else .blocked

/-- DRAM-homed pages of a list that eviction may take. -/
def State.dramPages (s : State) (ps : List Nat) : List Nat :=
  ps.filter fun p => (s.leaf p).v && (s.leaf p).tier = .dram && !(s.leaf p).pin

def maxAge (s : State) (ps : List Nat) : Nat := ps.foldl (fun a p => max a (s.leaf p).age) 0

/-- The candidates of one parked hamper. -/
def State.candsOf (s : State) (slot : Nat) : List Cand :=
  let spans := (List.range (s.hdr slot).spans).filterMap fun n =>
    let e := s.span slot n
    let ps := s.dramPages (s.spanPages slot n)
    if (e.res = .resident || e.res = .parked) && !e.shared && !ps.isEmpty then
      some (Cand.mk slot (some n) ps (maxAge s ps))
    else none
  let other := (s.dramPages (s.hamperPages slot)).filter fun p => !(s.leaf p).kv && !s.isHeaderPage p
  spans ++ other.map fun p => Cand.mk slot none [p] (s.leaf p).age

/-- Highest AGE first; candidates of equal AGE stay in order of slot and address (log entry 13). -/
def insertCand (c : Cand) : List Cand → List Cand
  | [] => [c]
  | d :: ds => if d.age ≤ c.age then c :: d :: ds else d :: insertCand c ds

def State.candidates (s : State) : List Cand :=
  let parked := (s.hmp.dir.filter fun x => x.2.state = .parked).map (·.1)
  (parked.flatMap s.candsOf).foldr insertCand []

/-- Carry out a decision (R86): the count first, then the drop or the ferry. -/
def State.evict (s : State) (c : Cand) : State :=
  match s.judge c with
  | .blocked => s.bump (Reg.tsmCnt 3)
  | .drop =>
    let s := s.bump (Reg.tsmCnt 0)
    match c.span with
    | none => s
    | some n =>
      match s.dropSpan c.slot n none with
      | .ok s => s
      | .error _ => s.bump (Reg.tsmCnt 3)
  | .pool => (s.bump (Reg.tsmCnt 1)).startFerry (.evict c.slot c.span) { dest := .pool, session := (s.hdr c.slot).handle } c.pages
  | .sett => (s.bump (Reg.tsmCnt 2)).startFerry (.evict c.slot c.span) { dest := .sett, session := (s.hdr c.slot).handle } c.pages

def State.evictLow (s : State) : Nat := s.field Reg.tsmWatermark 15 0 * 2 ^ 30
def State.evictHigh (s : State) : Nat := s.field Reg.tsmWatermark 31 16 * 2 ^ 30

/-- DRAM that drops and ferries in progress will still free. -/
def State.comingFree (s : State) : Nat :=
  let shot := s.tsm.shoots.filter fun x => match x.cont with
    | .switched _ .dram _ | .dropped _ .dram _ | .freed .dram _ | .released _ .dram _ => true
    | _ => false
  let late := s.kvs.deferred.map fun d => match d.kind with
    | .home .dram _ => 1
    | .home _ _ => 0
    | _ => (s.dramPages d.pages).length
  65536 * ((s.tsm.ops.filter fun x => (s.leaf x.1).tier = .dram && !(x.2.dst = .dram && !x.2.isDrop)).length +
    shot.length + late.foldl (· + ·) 0)

/-- Take candidates until free DRAM, with what the drops and ferries in progress will free, reaches HIGH; a candidate whose action
has failed frees nothing and the next one is taken (R80, R86). -/
def evictLoop (high : Nat) : List Cand → State → State
  | [], s => s
  | c :: cs, s => if high ≤ s.freeDram + s.comingFree then s else evictLoop high cs (s.evict c)

/-- EVICTION_PASS (R80 to R86): from free DRAM below LOW until it reaches HIGH, candidates are evicted; if it would stay below LOW
after every candidate, the pressure condition holds and MEM_PRESSURE is set. -/
def execEvictionPass (s : State) : Host.Outcome State Fault Refusal :=
  gate s fun s =>
    if s.evictHigh ≤ s.freeDram then { s with tsm.pressure := false, tsm.evicting := false }
    else if s.freeDram < s.evictLow || s.tsm.evicting then
      let s := { s with tsm.evicting := true }
      let s := s.iff (!(s.unitFailed 2 && s.unitFailed 3)) fun s => evictLoop s.evictHigh s.candidates s
      s.iff (s.freeDram + s.comingFree < s.evictLow) fun s => ({ s with tsm.pressure := true }).setAttn 2
    else s

/-- A rate in units of 100 MB/s, kept when the engines were idle and held in 16 bits. -/
def rate (old bytes ns : Nat) : Nat := if ns = 0 then old else min 65535 (bytes * 10 / ns)

/-- BW_EST_UPDATE (R84), every 100 ms: each field from the bytes the engines moved and the time they were busy. -/
def execBwEstUpdate (poolBytes poolNs readBytes readNs writeBytes writeNs : Nat) (s : State) :
    Host.Outcome State Fault Refusal :=
  gate s fun s => s.periodic tickBw (msec 100) fun s =>
    let k := Reg.tsmBwEst
    s.setReg k (fld 47 32 (rate (s.field k 47 32) poolBytes poolNs) |||
      fld 31 16 (rate (s.field k 31 16) readBytes readNs) ||| fld 15 0 (rate (s.field k 15 0) writeBytes writeNs))

/-- RATION_BIN_ADVANCE (R87): every 15 minutes the next bin becomes current and the oldest leaves the window. -/
def execRationBinAdvance (s : State) : Host.Outcome State Fault Refusal :=
  gate s fun s => s.periodic tickBin (900 * 10 ^ 9) fun s =>
    let b := (s.tsm.bin + 1) % 96
    let old := SMap.get 0 s.tsm.bins b
    let s := { s with tsm.bin := b, tsm.bins := SMap.set 0 s.tsm.bins b 0 }
    s.setReg Reg.tsmSettUsed (BitVec.ofNat 64 (s.settUsed - old))

/-- The state page whose home is a DRAM page. -/
def State.pageAtDram (s : State) (d : Nat) : Option Nat :=
  (s.tsm.leaf.find? fun x => x.2.v && x.2.tier = .dram && x.2.loc = d).map (·.1)

/-- RETIRE_RETRY (R614, R109): a retirement move that was refused or abandoned is tried again; a page that no longer
homes anything is done. -/
def execRetireRetry (dramPage : Nat) (s : State) : Host.Outcome State Fault Refusal :=
  gate s fun s =>
    if !s.tsm.retiring.contains dramPage then s
    else
      match s.pageAtDram dramPage with
      | none => s.retiredPage dramPage
      | some p =>
        if (SMap.lookup s.tsm.ops p).isSome then s
        else s.startFerry (.retire dramPage) { dest := .dram, retire := true } [p]

end Sys2Proof.Machine
end

