-- ==== Sys2Proof/Machine/Lines.lean ====
section
/-! DEFINITION. Reads of DRAM lines, and page retirement (R604 to R607, R611, R614, R629). -/

namespace Sys2Proof.Machine

open Sys2Proof

/-! ### Lines and pages (R604, R611, R614) -/

/-- The line number of line L of a channel (R604). -/
def lineOf (channel l : Nat) : Nat := l * 128 + Nat.xor channel (Nat.xor (l % 128) (l / 128 % 128))

/-- The channel and the line in the channel of a DRAM user line (R604). -/
def placeOf (n : Nat) : Nat × Nat := (Nat.xor (n % 128) (Nat.xor (n / 128 % 128) (n / 16384 % 128)), n / 128)

/-- DRAM.ERRLOG and DRAM.CELOG of a line (R629). -/
def lineLog (channel codeword l : Nat) : Word := fld 63 63 1 ||| fld 59 53 channel ||| fld 52 50 codeword ||| fld 25 0 l

/-- KIND of the pinned region a page lies in (R635). -/
def State.pinKind (s : State) (p : Nat) : Option Nat :=
  (s.cfg.pins.find? fun d => d.base.toNat / 65536 ≤ p && p < d.base.toNat / 65536 + d.pages).map (·.kind)

/-- A state page has lost its home at a DRAM user line (R611, R694): POISON on a mapped page, a MODULE fault for a FIRMWARE or
PAGE_TABLE region.  In another pinned region the line stays bad until it is written whole, and the fault is its reader's: the items
that read a body fail, and a segment whose spill or save area it is is discarded. -/
def State.loseHome (s : State) (p line code : Nat) : State :=
  let s := s.bump (Reg.fltCnt 6)
  if !(s.leaf p).pin then s.setLeaf p { s.leaf p with poison := true }
  else if s.pinKind p = some 0 then s.tableFault (65536 * p)
  else if s.pinKind p = some 3 then s.moduleFault code (BitVec.ofNat 64 (65536 * p))
  else if s.dram.bad.contains line then s
  else { s with dram.bad := s.dram.bad ++ [line] }

/-- Corrected lines of a DRAM page in the last 24 hours, with a new one. -/
def State.noteCe (s : State) (page : Nat) : Nat × State :=
  let old := (SMap.get [] s.dram.ces page).filter fun t => s.now < t + 24 * 3600 * 10 ^ 9
  (old.length + 1, { s with dram.ces := SMap.put s.dram.ces page (old ++ [s.now]) })

/-- Pages retired or being retired. -/
def State.retireCount (s : State) : Nat := s.field Reg.dramStatus 35 23 + s.tsm.retiring.length

/-- Retire a DRAM page (R614): its home moves away by R68, or the page is counted as skipped, a free one being withheld. -/
def State.retirePage (s : State) (d : Nat) : State :=
  let skip := fun (s : State) => ({ s with dram.skipped := s.dram.skipped ++ [d] }).bump (Reg.dramCnt 5)
  if (SMap.lookup s.tsm.alloc (homeKey .dram d)).isNone then
    ({ skip s with tsm.retired := s.tsm.retired ++ [d] }).take .dram d
  else
    match s.pageAtDram d with
    | none => skip s
    | some p =>
      if (s.leaf p).pin || 4096 ≤ s.retireCount then skip s
      else
        ({ s with tsm.retired := s.tsm.retired ++ [d], tsm.retiring := s.tsm.retiring ++ [d] }).startFerry (.retire d)
          { dest := .dram, retire := true } [p]

/-- A corrected line counts against its page; the page that reaches RETIRE_CE is retired (R614). -/
def State.correctedPage (s : State) (page : Nat) : State :=
  let r := s.noteCe page
  let lim := s.field Reg.dramScrub 23 16
  r.2.iff (0 < lim && lim ≤ r.1 && !s.tsm.retired.contains page && !s.dram.skipped.contains page)
    fun s => s.retirePage page

/-- Data bytes of a DRAM user line that differ by `diff` from what they held. -/
def State.changeLine (s : State) (n : Nat) (diff : List (Nat × Byte)) : State :=
  (diff.filter fun e => e.1 < 256).foldl (fun s e =>
    let a := dramAddr 0 (256 * n + e.1)
    s.setByte a (s.byte a ^^^ e.2)) s

/-- A controller reads a DRAM user line whose bytes differ by `errs` from what was written to it, and decodes it (R605 to R607, R611,
R614, R629): a corrected line counts against its page, an uncorrectable one loses its page's home.  What the decoder leaves of a
difference stays in the line, unless it was written meanwhile. -/
def State.lineRead (s : State) (n : Nat) (errs : List (Nat × Byte)) (keep : Bool) : Ecc × State :=
  let r := lineEcc errs
  let x := placeOf n
  let left := fun (s : State) => s.iff keep fun s => s.changeLine n (residue errs)
  match r.1 with
  | .clean => (.clean, left s)
  | .corrected =>
    let s := (s.bump (Reg.dramCnt 0)).setReg Reg.dramCelog (lineLog x.1 r.2 x.2)
    (.corrected, (left s).correctedPage (n / 256))
  | .uncorrectable =>
    let s := (s.bump (Reg.dramCnt 1)).setReg Reg.dramErrlog (lineLog x.1 r.2 x.2)
    (.uncorrectable, match s.pageAtDram (n / 256) with
      | none => s
      | some p => s.loseHome p n Code.dramUe)

/-- Several lines are read; one of them is uncorrectable. -/
def linesRead : List (Nat × List (Nat × Byte)) → State → Bool × State
  | [], s => (false, s)
  | x :: xs, s =>
    let r := s.lineRead x.1 x.2 true
    let q := linesRead xs r.2
    (r.1 = .uncorrectable || q.1, q.2)

/-- An access to pieces of state pages reads DRAM user line k: a read reads every line it touches, a write those it covers in part
(R609). -/
def State.readsLine (s : State) (write : Bool) (pieces : List (Nat × Nat × Nat)) (k : Nat) : Bool :=
  pieces.any fun x =>
    let l := s.leaf (x.1 / 65536)
    let b := 65536 * l.loc + x.1 % 65536
    l.v && l.tier = .dram && b / 256 ≤ k && k ≤ (b + x.2.2 - 1) / 256 &&
      (!write || (b / 256 = k && b % 256 ≠ 0) || ((b + x.2.2 - 1) / 256 = k && (b + x.2.2) % 256 ≠ 0))

end Sys2Proof.Machine
end

