-- ==== Sys2Proof/Machine/Crc.lean ====
section
/-! DEFINITION. CRC-32C (R266, R123): the reflected Castagnoli polynomial, initial value and final complement of ones
(PRESUMED, log entry 14). -/

namespace Sys2Proof

/-- One bit of the reflected division. -/
def crcBit (c : BitVec 32) : BitVec 32 := if c.getLsbD 0 then (c >>> 1) ^^^ 0x82F63B78#32 else c >>> 1

def crcByte (c : BitVec 32) (b : Byte) : BitVec 32 :=
  crcBit (crcBit (crcBit (crcBit (crcBit (crcBit (crcBit (crcBit (c ^^^ b.setWidth 32))))))))

/-- CRC-32C over bytes in order. -/
def crc32c (bs : List Byte) : BitVec 32 := ~~~ (bs.foldl crcByte 0xFFFFFFFF#32)

/-- CRC-32C over little-endian words. -/
def wordBytes (w : Word) : List Byte :=
  (List.range 8).map fun i => BitVec.ofNat 8 (w.toNat / 2 ^ (8 * i))
def crcWords (ws : List Word) : BitVec 32 := crc32c (ws.flatMap wordBytes)

/-- CRC-32C over the first `n` bytes of an image whose CRC stands in the 4 bytes at `at_`, taken as zero. -/
def imageCrc (bs : List Byte) (n at_ : Nat) : BitVec 32 :=
  crc32c ((bs.take at_ ++ [0, 0, 0, 0] ++ bs.drop (at_ + 4)).take n)

end Sys2Proof
end

