-- ==== Sys2Proof/Machine/Sequencer.lean ====
section
/-! DEFINITION. Bundle sequencers: starting slot actions, their expiry, occupancy checks, and how segments begin and end
(R262 to R308, R392, R393, R400 to R403). -/

namespace Sys2Proof.Machine

open Sys2Proof

/-! ### Segments in progress and the reclamation tally (R179) -/

/-- The oldest start number in progress on a die, or the next one. -/
def Die.oldest (d : Die) : BitVec 32 :=
  let run := if d.state = .idle then none else some d.startNo
  match run, d.save.map (·.startNo) with
  | none, none => d.nextStart
  | some a, none => a
  | none, some b => b
  | some a, some b => if newer a b then a else b

/-- The sequencer alone sets its die's reclamation tally. -/
def State.putReclaim (s : State) (die : Nat) : State := s.putTally (1024 * die + 1023) (s.die die).oldest

/-! ### Segment boundaries (R43, R254) -/

/-- A remap binding takes effect: TILE.MAP changes and the replaced tile loses its contents. -/
def State.bindTile (s : State) (die logical phys : Nat) : State :=
  let s := match s.physTile die logical with
    | some p => (((s.zeroRange (storeAddr die p 0 0) (2 ^ 21)).zeroRange (accAddr die p 0) (2 ^ 19)).setTileSt die p {})
    | none => s
  (s.setField (Reg.tileMap (4 * die + logical / 8)) (8 * (logical % 8) + 5) (8 * (logical % 8)) phys).bump (Reg.tileCnt 7)

/-- DVFS step the governor asks for on a die: the lower of its power and thermal targets (R731). -/
def State.dvfsTarget (s : State) (die : Nat) : Nat :=
  min (SMap.get 3 s.plat.powerTarget die) (SMap.get 3 s.plat.thermTarget die)

/-- What takes effect at a die's segment boundary. -/
def State.boundary (s : State) (die : Nat) : State :=
  let mine := s.cmp.remaps.filter fun r => r.1 = die
  let s := { s with cmp.remaps := s.cmp.remaps.filter fun r => r.1 ≠ die }
  let s := mine.foldl (fun s r => s.bindTile die r.2.1 r.2.2) s
  s.setField (Reg.seqStatus die) 7 4 (s.dvfsTarget die)

/-! ### Completion items (R310) -/

def segQueue (it : Item) : Nat := bits it.w7 40 32
def segTally (it : Item) : Nat := bits it.w7 11 0
def segResume (it : Item) : Bool := bit it.w7 48

/-- The running step's number for an event record, or 0 (R700). -/
def State.stepNo (s : State) : Nat :=
  match s.fw.cur with
  | some r => r.n.toNat
  | none => 0

/-- A start item without what differs between its pushes: RESUME, REISSUE, SEQ and EPOCH. -/
def plainStart (it : Item) : Item := { it with w1 := setBits (setBits it.w1 44 44 0) 31 0 0, w7 := setBits it.w7 48 48 0 }

/-- The job of a start item firmware has pushed to a die, and when it was ready. -/
def State.pushedJob (s : State) (die : Nat) (it : Item) : Option (Nat × Nat) :=
  ((SMap.get {} s.fw.jobs die).pushed.find? fun x => x.1 = plainStart it).map (·.2)

/-- An accounting record of a job and die (R406). -/
def State.acctAddr (s : State) (job die : Nat) : Nat := 65536 * s.field Reg.ctlJobTable 35 0 + 0x800 + 32 * (4 * job + die)
def State.acctAdd (s : State) (job die off n : Nat) : State :=
  let a := s.acctAddr job die + off
  s.setTabWord a (s.tabWord a + BitVec.ofNat 64 n)
/-- Add to one half of a record's word at 0x10; the halves wrap by themselves. -/
def State.acctHalf (s : State) (job die : Nat) (high : Bool) : State :=
  let a := s.acctAddr job die + 16
  let w := s.tabWord a
  s.setTabWord a (if high then setBits w 63 32 (bits w 63 32 + 1) else setBits w 31 0 (bits w 31 0 + 1))

/-- Account a segment's start (R396, R406). -/
def State.acctStart (s : State) (die : Nat) (it : Item) : State :=
  match s.pushedJob die it with
  | none => s
  | some (j, t) =>
    let s := (s.acctAdd j die 0 (s.now - t)).acctAdd j die 24 1
    { s with fw.started := SMap.set 0 s.fw.started (4 * j + die) (SMap.get 0 s.fw.started (4 * j + die) + 1) }

/-- Account a segment's completion or save (R396, R406): an END clears the job's pending preemptions. -/
def State.acctEnd (s : State) (die : Nat) (d : Die) (saved ended : Bool) : State :=
  match s.pushedJob die d.item with
  | none => s
  | some (j, _) =>
    let s := s.acctAdd j die 8 (s.now - d.startNs)
    let x := SMap.get {} s.fw.jobs die
    let s := if saved then s
      else { s with fw.jobs := SMap.put s.fw.jobs die { x with pushed := x.pushed.filter fun y => y.1 ≠ plainStart d.item } }
    if ended then { s with fw.preempted := SMap.erase s.fw.preempted j } else s

/-- Post the completion item of a segment and raise its tally. -/
def State.postSegment (s : State) (d : Die) (status index slot : Nat) : State :=
  s.post (segQueue d.item)
    { w0 := d.item.w0, w1 := tagLast d.item.w1, w2 := fld 63 48 status ||| fld 47 32 index ||| fld 31 0 d.segId,
      w3 := fld 63 32 d.startNo.toNat, w4 := BitVec.ofNat 64 d.cycle, w5 := BitVec.ofNat 64 d.stallCycles,
      w6 := fld 35 8 d.offset ||| fld 7 0 slot } (segTally d.item)

/-! ### Results of stopped actions (R302) -/

/-- Where an action would have written: address and length, in the memories of Ops.lean. -/
def destRanges (die : Nat) (a : SlotAct) : List (Nat × Nat) :=
  let vDest := fun (o : BitVec 14) (stride n : Nat) => [((vOperand o).rowAddr die a.phys stride 0, n)]
  let dur := a.expiry - a.start
  match a.op with
  | .tile (.mma _ _ acc _ _ _ _ _) => [(accAddr die a.phys (acc.toNat * 65536), 65536)]
  | .tile (.vec v d _ _ _) =>
    let n := (dur - 12) / v.rowCycles
    vDest d 512 ((if v.reduces then ceilDiv n 128 else n) * 512)
  | .tile (.cvt _ fd _ d _) => vDest d 0 ((dur - 12) / 2 * rowStride fd 128)
  | .tile (.mxq fd _ d) => vDest d 0 ((dur - 12) / 2 * (rowStride fd 128 + 4))
  | .port (.write _ _ la) => [(larderAddr die (128 * la.toNat), 128 * dur * ((List.range 32).filter (bit a.va)).length)]
  | .scalar (.sts _ _ _ _) => [(larderAddr die a.vb.toNat, 8)]
  | _ => []

/-- Destinations of a PREAD in progress: every named tile's region. -/
def State.readDests (s : State) (die : Nat) (a : SlotAct) : List (Nat × Nat) :=
  match a.op with
  | .port (.read _ _ dst _) =>
    ((List.range 32).filter (bit a.va)).filterMap fun t =>
      (s.physTile die t).map fun p => (storeAddr die p (region dst).1 (region dst).2, 256 * (a.expiry - a.start))
  | _ => []

/-- The results of every action, drain and transfer still in progress become undefined. -/
def State.undefInFlight (s : State) (die : Nat) (d : Die) : State :=
  let acts := d.slots.flatMap fun x => destRanges die x.2 ++ s.readDests die x.2
  let drains := d.drains.map fun x => (accAddr die x.phys (x.set * 65536), 512 * x.rows)
  let moves := d.xfers.flatMap fun x => match x.kind with
    | .get => [(larderAddr die (128 * x.la), x.rl)]
    | .xl => [(larderAddr die (128 * x.la), x.rl)]
    | .zero => [(larderAddr die (128 * x.la), x.rl)]
    | _ => []
  let far := d.xfers.flatMap fun x => match x.kind with
    | .put => [(x.ra.toNat, x.rl)]
    | .scatter => s.scatterRanges die (128 * x.la) x.rl
    | _ => []
  let s := far.foldl (fun s x => s.undefState x.1 x.2) s
  (acts ++ drains ++ moves ++ d.late.map fun x => (x.1, x.2.length)).foldl State.undefRange s

/-! ### Discards (R302, R321, R687) -/

/-- A sequencer's pending waits and held pushes go with its segment. -/
def State.dropIssued (s : State) (die : Nat) : State :=
  let p := fun (w : WaitEntry) => match w.issuer with
    | .seq d => d.val = die
    | _ => false
  let n := ((s.tly.waits ++ s.tly.polled).filter p).length
  let s := (s.dropWaits p).bumpBy (Reg.tlyCnt 6) n
  { s with hq.queues := s.hq.queues.map fun (x : Nat × Queue) =>
      (x.1, { x.2 with waiting := x.2.waiting.filter fun w => w.die ≠ some die }) }

/-- A die with no segment running. -/
def Die.stopped (d : Die) : Die :=
  { d with state := .idle, slots := [], recent := [], late := [], drains := [], xfers := [], lists := [], stalls := [], wrote := [],
           pins := [], readings := [] }

/-- Firmware learns of a discarded segment (R685, R686). -/
def State.noteDiscard (s : State) (die : Nat) (it : Item) (code : Nat) : State :=
  { s with flt.discards := s.flt.discards ++ [Discard.mk die it code ((s.pushedJob die it).map (·.1))] }

/-- A code ends the running segment before END: it is discarded, retired and reported (R302, R314, R687). -/
def State.faultSegment (s : State) (die code cause slot : Nat) : State :=
  let d := s.die die
  let s := (s.noteRefusal code).setReg (Reg.seqFault die)
    (fld 63 48 code ||| fld 47 44 cause ||| fld 43 38 (if slot < 48 then slot else 0) ||| fld 37 10 d.offset)
  let s := s.bump (if code = Code.overlap then Reg.seqCnt 6 else Reg.seqCnt 7)
  let s := (s.undefInFlight die d).dropIssued die
  let s := if d.first && d.save.any fun v => v.startNo = d.startNo then s else s.noteDiscard die d.item code
  let s := (((s.setDie die d.stopped).putReclaim die).acctEnd die d false false).bump (Reg.fltCnt 0)
  let s := (s.event code 1 die 255 (s.stepNo) d.item.w0 (s.reg (Reg.seqFault die))).setAttn 6
  (s.postSegment d code 0 slot).boundary die

/-! ### Register operands (R276, R290, R291) -/

def Die.val (d : Die) (r : BitVec 5) : Word := SMap.get 0 d.snap r.toNat

/-- Registers an operation reads. -/
def opReads : SlotOp → List (BitVec 5)
  | .mover _ ra rl _ _ => [ra, rl]
  | .scalar (.alu _ _ ra rb) => [ra, rb]
  | .scalar (.addi _ ra _) => [ra]
  | .scalar (.lih rd _) => [rd]
  | .scalar (.lds _ ra _ _) => [ra]
  | .scalar (.sts rs ra _ _) => [rs, ra]
  | .tally (.set _ rs) => [rs]
  | .tally (.wait _ rs _) => [rs]
  | .branch (.bz rs _) => [rs]
  | .branch (.bnz rs _) => [rs]
  | .branch (.loop rs _) => [rs]
  | .branch (.rdv all rm) => if all then [] else [rm]
  | .port (.read rm _ _ _) => [rm]
  | .port (.write rm _ _) => [rm]
  | .port (.attend rm _ _) => [rm]
  | _ => []

/-- The register an operation writes, s0 excepted. -/
def opWrites (o : SlotOp) : Option Nat :=
  let r := match o with
    | .scalar (.alu _ rd _ _) => rd
    | .scalar (.addi rd _ _) => rd
    | .scalar (.li rd _) => rd
    | .scalar (.lih rd _) => rd
    | .scalar (.lds rd _ _ _) => rd
    | .tally (.read _ rd) => rd
    | .branch (.loop rs _) => rs
    | _ => 0
  if r = 0 then none else some r.toNat

/-- Registers with an LDS on its way. -/
def Die.ldsBusy (d : Die) : List Nat :=
  d.slots.filterMap fun x => match x.2.op with
    | .scalar (.lds rd _ _ _) => if rd = 0 then none else some rd.toNat
    | _ => none

/-- Results of register-register operations (R290). -/
def aluValue (o : AluOp) (a b : Word) : Word :=
  match o with
  | .add => a + b
  | .sub => a - b
  | .and => a &&& b
  | .or => a ||| b
  | .xor => a ^^^ b
  | .shl => a <<< (b.toNat % 64)
  | .shr => a >>> (b.toNat % 64)
  | .sra => a.sshiftRight (b.toNat % 64)
  | .slt => if a.toInt < b.toInt then 1 else 0
  | .sltu => if a.toNat < b.toNat then 1 else 0
  | .mul => a * b

/-- Result of a one-cycle scalar operation. -/
def scalarValue (o : ScalarOp) (d : Die) : Word :=
  match o with
  | .alu op _ ra rb => aluValue op (d.val ra) (d.val rb)
  | .addi _ ra imm => d.val ra + imm.signExtend 64
  | .li _ imm => imm.signExtend 64
  | .lih rd imm => setBits (d.val rd) 63 32 imm.toNat
  | _ => 0

/-- Larder byte address of LDS and STS: 128 × LA + 8 × WORD + RA, modulo 2^64. -/
def scalarAddr (d : Die) (ra : BitVec 5) (word : BitVec 4) (la : BitVec 22) : Nat :=
  (d.val ra + BitVec.ofNat 64 (128 * la.toNat + 8 * word.toNat)).toNat

/-! ### Checks before an action starts -/

/-- Bytes of a PREAD or PWRITE in all, for the tiles of a mask. -/
def maskTiles (w : Word) : List Nat := (List.range 32).filter fun k => bit w k

/-- Tiles an attention list holds, on a die. -/
def Die.held (d : Die) : List Nat := d.lists.flatMap (·.tiles)

/-- Codes of a larder range: LA beyond the larder, or a run past its end. -/
def larderCode (la n : Nat) : Nat :=
  if larderGranules ≤ la then Code.larderRange
  else if larderBytes < 128 * la + n then Code.operandRange
  else 0

/-- The code of a mover's operands (R270, R283); registers already read. -/
def moverCode (k : MoverKind) (ra rl : Word) (la : Nat) : Nat :=
  let n := rl.toNat
  let count := if n % 128 ≠ 0 || n < 128 || 16777216 < n then Code.operandRange else 0
  let local_ := larderCode la n
  match k with
  | .nop => 0
  | .scatter =>
    if larderGranules ≤ la then Code.larderRange
    else if n = 0 || 256 < n || larderBytes < 128 * la + 64 * n then Code.operandRange
    else 0
  | .get => if count ≠ 0 then count else local_
  | .put => if count ≠ 0 then count else local_
  | .zero => if count ≠ 0 then count else local_
  | .xl =>
    if count ≠ 0 then count else if local_ ≠ 0 then local_ else larderCode (bits ra 21 0) n
  | .ring =>
    if count ≠ 0 then count else if local_ ≠ 0 then local_ else larderCode (bits ra 21 0) n

/-- The code of a PREAD, PWRITE or ATTEND (R270, R286). -/
def State.portCode (s : State) (die : Nat) (op : PortOp) (dur : Nat) (mask : Word) : Nat :=
  let ts := maskTiles mask
  let bad := ts.any fun t => (s.usableTile die t).isNone
  match op with
  | .nop => 0
  | .read _ bcast dst la =>
    let n := 256 * dur * (if bcast then 1 else ts.length)
    if bad then Code.tileFenced
    else if larderCode la.toNat n ≠ 0 then larderCode la.toNat n
    else if !regionFits dst (256 * dur) then Code.operandRange
    else 0
  | .write _ src la =>
    let fits := match vOperand src with
      | .acc r => r * 512 + 128 * dur ≤ 524288
      | .store _ u => u * 256 + 128 * dur ≤ 1048576
    if bad then Code.tileFenced
    else if larderCode la.toNat (128 * dur * ts.length) ≠ 0 then larderCode la.toNat (128 * dur * ts.length)
    else if !fits then Code.operandRange
    else 0
  | .attend _ count la =>
    if bad then Code.tileFenced else larderCode la.toNat (64 * (count.toNat + 1))

/-- The code an action ends the segment with for its operands, 0 when they are in order. -/
def State.operandCode (s : State) (die slot : Nat) (op : SlotOp) (dur : Nat) (d : Die) : Nat :=
  match op with
  | .tile t =>
    match s.usableTile die slot with
    | none => Code.tileFenced
    | some p => tileCode (s.tileSt die p) t dur
  | .mover k ra rl _ la => moverCode k (d.val ra) (d.val rl) la.toNat
  | .scalar o =>
    match o with
    | .nop => 0
    | .lds _ ra w la =>
      let a := scalarAddr d ra w la
      if dur < 40 then Code.slotDuration
      else if larderGranules ≤ la.toNat then Code.larderRange
      else if a % 8 ≠ 0 || larderBytes ≤ a then Code.operandRange
      else 0
    | .sts _ ra w la =>
      let a := scalarAddr d ra w la
      if dur < 40 then Code.slotDuration
      else if larderGranules ≤ la.toNat then Code.larderRange
      else if a % 8 ≠ 0 || larderBytes ≤ a then Code.operandRange
      else 0
    | _ => if dur ≠ 1 then Code.slotDuration else 0
  | .tally (.add t _) => if isReclaim t.toNat then Code.invalidField else 0
  | .tally (.set t _) => if isReclaim t.toNat then Code.invalidField else 0
  | .tally (.qpush _ _ la) => larderCode la.toNat 64
  | .tally _ => 0
  | .branch (.endSeg st) => if st.toNat = 0 || 0xF000 ≤ st.toNat then 0 else Code.invalidField
  | .branch (.ppt i) => if i.toNat < d.pptCount then 0 else Code.invalidField
  | .branch _ => 0
  | .port p =>
    match p with
    | .nop => 0
    | .read rm _ _ _ => s.portCode die p dur (d.val rm)
    | .write rm _ _ => s.portCode die p dur (d.val rm)
    | .attend rm _ _ => s.portCode die p dur (d.val rm)

/-- Format of the stationary operand an MMA multiplies by: the shadow's when it swaps (R235, R280). -/
def operandFmt (t : TileSt) : SlotOp → Option Fmt
  | .tile (.mma _ _ _ _ sw _ _ _) => if sw then t.shadowFmt else t.activeFmt
  | _ => none

/-- Bank-port demands of one action on a physical tile; larder-port actions reach 4 cycles before and after (R287). -/
def State.demands (s : State) (die phys : Nat) (slot : Nat) (a : SlotAct) : List Demand :=
  match a.op with
  | .tile t => if a.phys = phys && slot < 32 then tileDemand t (a.start + 4) (a.expiry - a.start) a.bf
    else []
  | .port (.read _ _ dst _) =>
    if (maskTiles a.va).any fun t => s.physTile die t = some phys then
      [⟨(region dst).1, true, a.start, a.expiry + 8, false, 256⟩]
    else []
  | .port (.write _ src _) =>
    if (maskTiles a.va).any fun t => s.physTile die t = some phys then vDemand src false a.start (a.expiry + 8) 128 else []
  | _ => []

/-- Physical tiles whose ports an action uses. -/
def State.portTiles (s : State) (die : Nat) (a : SlotAct) : List Nat :=
  match a.op with
  | .tile _ => [a.phys]
  | .port (.read _ _ _ _) => (maskTiles a.va).filterMap (s.physTile die)
  | .port (.write _ _ _) => (maskTiles a.va).filterMap (s.physTile die)
  | _ => []

/-- Sets of a tile that are draining. -/
def Die.draining (d : Die) (phys : Nat) : List Drain := d.drains.filter fun x => x.phys = phys

/-- Does an action touch a draining set other than as an ordered MMA (R234)? -/
def State.drainHit (s : State) (die slot : Nat) (a : SlotAct) (d : Die) : Bool :=
  match a.op with
  | .tile (.mma fa _ acc accum _ _ _ _) =>
    (d.draining a.phys).any fun x => x.set = acc.toNat && !(accum && x.int = (fa = .int8))
  | .tile t => (d.draining a.phys).any fun x => slot < 32 && (tileSets t (a.expiry - a.start)).contains x.set
  | .port (.write _ src _) =>
    (maskTiles a.va).any fun t => (s.physTile die t).any fun p =>
      (d.draining p).any fun x => (vSets src (ceilDiv (128 * (a.expiry - a.start)) 512)).contains x.set
  | _ => false

/-- The first overlap cause of R301 an action meets, 0 when none. -/
def State.overlapCause (s : State) (die slot : Nat) (a : SlotAct) (d : Die) : Nat :=
  let others := d.slots ++ d.recent
  if (SMap.lookup d.slots slot).isSome then 1
  else if (s.portTiles die a).any fun p =>
    portOver (s.demands die p slot a ++ others.flatMap fun x => s.demands die p x.1 x.2) then 2
  else if s.drainHit die slot a d then 3
  else if (match opWrites a.op with
    | some r => d.wrote.contains r
    | none => false) then 5
  else if (opReads a.op).any fun r => d.ldsBusy.contains r.toNat then 6
  else if (match a.op with
    | .mover .nop _ _ _ _ => false
    | .mover _ _ _ _ _ => 16 ≤ (d.xfers.filter fun (x : Xfer) => x.mover + 32 = slot).length
    | _ => false) then 7
  else if (match a.op with
    | .tile _ => d.held.contains slot
    | .port .nop => false
    | .port _ => (maskTiles a.va).any fun t => d.held.contains t
    | _ => false) then 8
  else 0

/-! ### Starting an action (R273, R276) -/

/-- Write a scalar register; s0 takes nothing. -/
def Die.put (d : Die) (r : BitVec 5) (v : Word) : Die :=
  if r = 0 then d else { d with regs := SMap.set 0 d.regs r.toNat v }

/-- Note the register an operation writes in this bundle. -/
def Die.note (d : Die) (o : SlotOp) : Die :=
  match opWrites o with
  | some r => { d with wrote := d.wrote ++ [r] }
  | none => d

def Die.stall (d : Die) (now : Nat) (x : Stall) : Die :=
  { d with stalls := d.stalls ++ [x], state := .stalled, stallFrom := if d.stalls.isEmpty then now else d.stallFrom }

/-- The values an action takes with it. -/
def opCarried (o : SlotOp) (d : Die) : Word × Word :=
  match o with
  | .port (.read rm _ _ _) => (d.val rm, 0)
  | .port (.write rm _ _) => (d.val rm, 0)
  | .port (.attend rm _ _) => (d.val rm, 0)
  | .scalar (.lds _ ra w la) => (0, BitVec.ofNat 64 (scalarAddr d ra w la))
  | .scalar (.sts rs ra w la) => (d.val rs, BitVec.ofNat 64 (scalarAddr d ra w la))
  | _ => (0, 0)

/-- The receiving unit of a transfer: the tier of its first page, or a larder. -/
def State.xferUnit (s : State) (x : Xfer) : Nat :=
  match x.kind with
  | .get | .put => tierUnit (s.leaf (x.ra.toNat / 65536)).tier
  | _ => tierUnit .larder

/-- FLAGS of a transfer (R38): PINNED where its target lies in a pinned region, SPEC for rows at or above COMMIT_LEN, which are
those of MODE 0 descriptors. -/
def State.xferFlags (s : State) (die : Nat) (x : Xfer) : Nat :=
  match x.kind with
  | .get | .put => if (s.leaf (x.ra.toNat / 65536)).pin then flagPinned else 0
  | .scatter =>
    if (List.range x.rl).any fun i => !(Desc.ofItem (s.readItem (larderAddr die (128 * x.la + 64 * i)))).recompute then flagSpec
    else 0
  | _ => 0

/-- The tag of a mover transfer: the segment's session and class, the tier of its target, and a SEQ of its own (R34).  A mover holds
at most 16 transfers (R301), so the bound of R39 on outstanding items holds. -/
def State.xferTag (s : State) (die : Nat) (x : Xfer) : Tag × State :=
  let it := (s.die die).item
  let cls := tagClass it.w1
  let r := s.nextSeq (s.xferUnit x) cls
  let hint := match x.kind with
    | .get | .put => (s.leaf (x.ra.toNat / 65536)).tier.code
    | _ => Tier.larder.code
  (s.mkTag it.w0 cls (flagLast + s.xferFlags die x) hint r.1, r.2)

/-- The copies of a PWRITE, one run after the other: from, to and length (R286). -/
def State.portRuns (s : State) (die : Nat) (a : SlotAct) (src : BitVec 14) (la : Nat) : List (Nat × Nat × Nat) :=
  let n := 128 * (a.expiry - a.start)
  ((maskTiles a.va).filterMap (s.physTile die)).zipIdx.map fun x =>
    ((vOperand src).rowAddr die x.1 512 0, larderAddr die (128 * la + x.2 * n), n)

/-- The tiles' bytes into the larder (R286). -/
def State.portWrite (s : State) (die : Nat) (a : SlotAct) (src : BitVec 14) (la : Nat) : State :=
  (s.portRuns die a src la).foldl (fun s x => s.copyRange x.1 x.2.1 x.2.2) s

/-! ### What a consumer reads of results in progress (R46) -/

/-- A die's larder with everything in progress that writes it in place: transfers into it, PWRITEs and STSs. -/
def State.landed (s : State) (die : Nat) : State :=
  let d := s.die die
  let s := d.xfers.foldl (fun s x =>
    let la := larderAddr die (128 * x.la)
    match x.kind with
    | .get => (pagePieces x.ra.toNat x.rl).foldl (fun s p =>
        s.iff (s.leaf (p.1 / 65536)).v fun s => s.copyRange (s.physOf p.1) (la + p.2.1) p.2.2) s
    | .xl => s.copyRange (larderAddr (bits x.ra 23 22) (128 * bits x.ra 21 0)) la x.rl
    | .zero => s.zeroRange la x.rl
    | _ => s) s
  d.slots.foldl (fun s a =>
    match a.2.op with
    | .port (.write _ src la) => s.portWrite die a.2 src la.toNat
    | .scalar (.sts _ _ _ _) => s.writeWord (larderAddr die a.2.vb.toNat) a.2.va
    | _ => s) s

/-- Something in progress on the die writes its larder. -/
def Die.writesLarder (d : Die) : Bool :=
  (d.xfers.any fun x => match x.kind with
    | .get | .xl | .zero => true
    | _ => false) ||
  d.slots.any fun a => match a.2.op with
    | .port (.write _ _ _) => true
    | .scalar (.sts _ _ _ _) => true
    | _ => false

/-- Listed bytes of a range, by offset in it. -/
def cellsOf (m : List Host.Cell) (a n : Nat) : List Host.Cell :=
  (m.filter fun c => a ≤ c.1 && c.1 < a + n).map fun c => (c.1 - a, c.2)

/-- What a unit reads of a die's larder: of each 64-byte unit the old or the new value, where something in progress writes it
(R46). -/
def State.seen (s : State) (die off n : Nat) : List Host.Cell × State :=
  let a := larderAddr die off
  let old := cellsOf s.mem a n
  if !(s.die die).writesLarder then (old, s)
  else
    let base := s.free
    let isNew := fun (c : Host.Cell) => Config.choice (base + (off + c.1) / 64 - off / 64)
    ((old.filter fun c => !isNew c) ++ (cellsOf (s.landed die).mem a n).filter isNew, { s with free := base + n / 64 + 2 })

/-- Put the bytes a unit has read at a place. -/
def State.paste (s : State) (cells : List Host.Cell) (dst n : Nat) : State :=
  { s with mem := cells.foldr (fun c m => SMap.set 0 m (c.1 + dst) c.2) (zeroCells s.mem dst n) }

/-- Bytes, and the word, that a unit has read. -/
def cellBytes (cells : List Host.Cell) (n : Nat) : List Byte := (List.range n).map (SMap.get 0 cells)
def cellWord (cells : List Host.Cell) : Word :=
  BitVec.ofNat 64 (((cellBytes cells 8).zipIdx.map fun x => x.1.toNat * 256 ^ x.2).foldl (· + ·) 0)

/-- Bytes that a port action delivers land unit by unit: some at once, the others when a rendezvous that names the P slot completes
(R46, R288). -/
def State.landPort (s : State) (die dst : Nat) (bs : List Byte) : State :=
  let base := s.free
  ((chunksOf 64 bs).zipIdx).foldl (fun s x =>
    if Config.choice (base + x.2) then s.writeBytes (dst + 64 * x.2) x.1
    else s.setDie die { s.die die with late := (s.die die).late ++ [(dst + 64 * x.2, x.1)] })
    { s with free := base + bs.length / 64 + 1 }

/-- The rest of what the die's port actions delivered is in place. -/
def State.landLate (s : State) (die : Nat) : State :=
  let d := s.die die
  d.late.foldl (fun s x => s.writeBytes x.1 x.2) (s.setDie die { d with late := [] })

/-- Of two contents of memory, one for each unit of 64 bytes (R46, R231). -/
def mergeMem (old new : List Host.Cell) (base : Nat) : List Host.Cell :=
  (new.filter fun c => Config.choice (base + c.1 / 64)).foldr (fun c m => SMap.set 0 m c.1 c.2)
    (old.filter fun c => !Config.choice (base + c.1 / 64))

/-- The item a QPUSH sends: 64 bytes of the larder. -/
def State.pushItem (s : State) (die la : Nat) : Item := s.readItem (larderAddr die (128 * la))

/-- The code with which the home of a queue refuses a QPUSH: it ends the segment (R335, R41, log entry 76). -/
def State.pushCode (s : State) (die : Nat) (op : SlotOp) : Nat :=
  match op with
  | .tally (.qpush q _ la) => s.refusalOf q.toNat (s.pushItem die la.toNat)
  | _ => 0

/-- What starting an action does at once, after its checks: one-cycle results, transfers, tally operations, stalls,
attention lists, swaps, and the choice of the next bundle. -/
def State.begin (s : State) (die slot : Nat) (op : SlotOp) (phys : Nat) : State :=
  let d := s.die die
  match op with
  | .tile (.mma _ _ _ _ sw _ _ _) => s.iff sw fun s => s.setTileSt die phys (s.tileSt die phys).swap
  | .tile _ => s
  | .mover .nop _ _ _ _ => s
  | .mover k ra rl t la =>
    let x : Xfer := { mover := slot - 32, kind := k, ra := d.val ra, rl := (d.val rl).toNat, tally := t.toNat, la := la.toNat }
    let r := s.xferTag die x
    r.2.setDie die { d with xfers := d.xfers ++ [{ x with tag := r.1 }] }
  | .scalar (.lds _ _ _ _) => s
  | .scalar (.sts _ _ _ _) => s
  | .scalar .nop => s
  | .scalar (.alu o rd ra rb) => s.setDie die (d.put rd (scalarValue (.alu o rd ra rb) d))
  | .scalar (.addi rd ra i) => s.setDie die (d.put rd (scalarValue (.addi rd ra i) d))
  | .scalar (.li rd i) => s.setDie die (d.put rd (scalarValue (.li rd i) d))
  | .scalar (.lih rd i) => s.setDie die (d.put rd (scalarValue (.lih rd i) d))
  | .tally .nop => s
  | .tally (.add t n) =>
    { s with tly.sent := s.tly.sent ++ [⟨die, t.toNat, false, BitVec.ofNat 32 (n.toNat + 1)⟩] }
  | .tally (.set t rs) => { s with tly.sent := s.tly.sent ++ [⟨die, t.toNat, true, (d.val rs).setWidth 32⟩] }
  | .tally (.wait t rs i) =>
    s.setDie die (d.stall s.now (.wait t.toNat ((d.val rs).setWidth 32 + BitVec.ofNat 32 i.toNat)))
  | .tally (.read t rd) => s.setDie die (d.stall s.now (.read t.toNat rd.toNat))
  | .tally (.qpush q p la) =>
    let it := s.pushItem die la.toNat
    let s := s.setDie die (d.stall s.now (.push q.toNat p.toNat it))
    let key := seqKey (dieSender die) (s.qReader q.toNat) (tagClass it.w1)
    if s.duplicate key it.w1 then s.clearPush die
    else (s.noteSeq key it.w1).hwPush q.toNat { prio := p.toNat, item := it, die := some die }
  | .branch .nop => s
  | .branch (.jmp t) => s.setDie die { d with offset := t.toNat }
  | .branch (.bz rs t) => s.iff (d.val rs = 0) fun s => s.setDie die { d with offset := t.toNat }
  | .branch (.bnz rs t) => s.iff (d.val rs ≠ 0) fun s => s.setDie die { d with offset := t.toNat }
  | .branch (.loop rs t) =>
    let v := d.val rs - 1
    let d := d.put rs v
    s.setDie die (if v ≠ 0 then { d with offset := t.toNat } else d)
  | .branch (.endSeg st) => s.setDie die { d with state := .ending, endStatus := st.toNat }
  | .branch (.ppt i) =>   -- while a save is held the point is unrequested (R399)
    s.iff (s.field (Reg.seqPreempt die) 0 0 = 1 && d.save.isNone) fun s =>
      s.setDie die { d with state := .saving, endStatus := i.toNat }
  | .branch (.rdv _ _) => s
  | .port (.attend rm count la) =>
    s.setDie die { d with lists := d.lists ++
      [{ tiles := maskTiles (d.val rm), at_ := 128 * la.toNat, left := count.toNat + 1 }] }
  | .port _ => s

/-- The entry of an action in its slot: when it starts and expires, its physical tile, and the values it takes with it (R273,
R276). -/
def State.action (s : State) (die slot : Nat) (op : SlotOp) (dur : Nat) : SlotAct :=
  let d := s.die die
  let phys := if slot < 32 then (s.physTile die slot).getD 0 else 0
  let v := opCarried op d
  { op := op, start := d.cycle, expiry := d.cycle + dur, phys := phys, va := v.1, vb := v.2
    bf := if slot < 32 then operandFmt (s.tileSt die phys) op else none }

/-- Check and start one action of the bundle in issue, or name the code and cause that end the segment. -/
def State.startAction (s : State) (die slot : Nat) (op : SlotOp) (dur : Nat) : Except (Nat × Nat) State :=
  let d := s.die die
  let a := s.action die slot op dur
  if (SMap.lookup d.slots slot).isSome then .error (Code.overlap, 1)
  else
    let code := s.operandCode die slot op dur d
    if code ≠ 0 then .error (code, 0)
    else
      let c := s.overlapCause die slot a d
      let refused := s.pushCode die op
      if c ≠ 0 then .error (Code.overlap, c)
      else if refused ≠ 0 then .error (refused, 0)
      else
        let s := s.setDie die ({ d with slots := SMap.put d.slots slot a }.note op)
        .ok (s.begin die slot op a.phys)

/-! ### Expiry (R273, R234, R288) -/

/-- Larder bytes go into each named tile's store. -/
def State.portRead (s : State) (die : Nat) (a : SlotAct) (bcast : Bool) (dst : BitVec 14) (la : Nat) : State :=
  let n := 256 * (a.expiry - a.start)
  ((maskTiles a.va).filterMap (s.physTile die)).zipIdx.foldl (fun s x =>
    let r := s.seen die (128 * la + (if bcast then 0 else x.2 * n)) n
    r.2.landPort die (storeAddr die x.1 (region dst).1 (region dst).2) (cellBytes r.1 n)) s

/-- The effect of an action that expires. -/
def State.expireEffect (s : State) (die slot : Nat) (a : SlotAct) : State :=
  let dur := a.expiry - a.start
  match a.op with
  | .tile (.loadb f src) => s.loadShadow die a.phys f src
  | .tile (.mma fa sa acc accum _ ld fb sb) =>
    let t := s.tileSt die a.phys
    let rows := dur / rowRate fa
    let dr : Drain := { tile := slot, phys := a.phys, set := acc.toNat, int := fa = .int8, accum := accum, rows := rows,
                        done := a.expiry + 136, sums := s.passSums die a.phys fa sa t.activeFmt t.active rows }
    let d := s.die die
    let s := (s.setDie die { d with drains := d.drains ++ [dr] }).bumpBy (Reg.tileCnt 0) dur
    s.iff ld fun s => s.loadShadow die a.phys fb sb
  | .tile (.vec v d x y sc) => s.vector v die a.phys d x y sc ((dur - 12) / v.rowCycles)
  | .tile (.cvt fs fd x d sat) => s.cvt fs fd sat die a.phys x d ((dur - 12) / 2)
  | .tile (.mxq f x d) => s.mxq f die a.phys x d ((dur - 12) / 2)
  | .scalar (.lds rd _ _ _) =>
    let r := s.seen die a.vb.toNat 8
    r.2.setDie die ((r.2.die die).put rd (cellWord r.1))
  | .scalar (.sts _ _ _ _) => s.writeWord (larderAddr die a.vb.toNat) a.va
  | .port (.read _ b dst la) => s.portRead die a b dst la.toNat
  | .port (.write _ src la) =>
    (s.portRuns die a src la.toNat).foldl (fun s x => s.landPort die x.2.1 (s.readBytes x.1 x.2.2)) s
  | _ => s

/-- An action leaves its slot; those that use bank ports are remembered for four cycles (R287). -/
def Die.leave (d : Die) (slot : Nat) (a : SlotAct) : Die :=
  let keep := d.recent.filter fun x => d.cycle < x.2.expiry + 4
  { d with slots := SMap.erase d.slots slot, cycle := max d.cycle a.expiry, recent := keep ++ [(slot, a)] }

/-- Two actions reach one tile's memories from different islands: a tile action and a larder-port action. -/
def State.crosses (s : State) (die : Nat) (a b : SlotAct) : Bool :=
  match a.op, b.op with
  | .tile _, .port _ => (s.portTiles die b).contains a.phys
  | .port _, .tile _ => (s.portTiles die a).contains b.phys
  | _, _ => false

/-- What another action in progress has written so far, of each unit of 64 bytes, is either all or nothing (R46, R231). -/
def State.partly (s : State) (die slot : Nat) (a : SlotAct) : State :=
  (s.die die).slots.foldl (fun s x =>
    if x.1 ≠ slot && s.crosses die a x.2 then
      let t := (s.expireEffect die x.1 x.2).landLate die
      { s with mem := mergeMem s.mem t.mem t.free, free := t.free + 2 ^ 62 }
    else s) s

def State.expire (s : State) (die slot : Nat) (a : SlotAct) : State :=
  let s := s.setDie die ((s.die die).leave slot a)
  (s.partly die slot a).expireEffect die slot a

/-- A drain ends (R234). -/
def State.endDrain (s : State) (die : Nat) (x : Drain) : State :=
  let d := s.die die
  (s.setDie die { d with drains := d.drains.erase x, cycle := max d.cycle x.done }).drain die x

/-- The next thing due on a die by a cycle: an action's expiry or a drain's end, the earliest first. -/
inductive Due where
  | act (slot : Nat) (a : SlotAct)
  | drain (x : Drain)

def Due.time : Due → Nat
  | .act _ a => a.expiry
  | .drain x => x.done

def Die.nextDue (d : Die) (p : Due → Bool) : Option Due :=
  ((d.slots.map fun x => Due.act x.1 x.2) ++ d.drains.map Due.drain).foldl (fun (b : Option Due) x =>
    if !p x then b
    else match b with
      | none => some x
      | some y => if x.time < y.time then some x else b) none

/-- Let everything that satisfies `p` come due, in order of time. -/
def runDue (die : Nat) (p : Due → Bool) : Nat → State → State
  | 0, s => s
  | fuel + 1, s =>
    match (s.die die).nextDue p with
    | none => s
    | some (.act slot a) => runDue die p fuel (s.expire die slot a)
    | some (.drain x) => runDue die p fuel (s.endDrain die x)

/-- How many things can come due: every action, and every drain of now or of an MMA. -/
def Die.dueCount (d : Die) : Nat := 2 * d.slots.length + d.drains.length

/-- The die's clock reaches a cycle. -/
def State.runTo (s : State) (die t : Nat) : State :=
  let s := runDue die (fun x => x.time ≤ t) (s.die die).dueCount s
  s.setDie die { s.die die with cycle := max (s.die die).cycle t }

/-- Every action expires and every drain ends (R298). -/
def State.runAll (s : State) (die : Nat) : State := (runDue die (fun _ => true) (s.die die).dueCount s).landLate die

/-- The die's clock reaches the cycle at which a rendezvous completes; one that names the P slot puts what the port delivered in
place (R288, R299). -/
def State.runRdv (s : State) (die t : Nat) (all : Bool) (mask : Nat) : State :=
  (s.runTo die t).iff (all || mask / 2 ^ slotP % 2 = 1) fun s => s.landLate die

/-! ### Code in memory (R265, R307) -/

/-- The first fault of fetching a range of state addresses (R63, R307), 0 when none. -/
def State.fetchCode (s : State) (addr n : Nat) : Nat :=
  let page := fun (p : Nat) =>
    let l := s.leaf p
    if l.v && l.pin then 0
    else match s.walk p true with
      | .error c => c
      | .ok l => if l.tier = .dram || l.tier = .larder then 0 else Code.notResident
  ((List.range ((addr + n - 1) / 65536 + 1 - addr / 65536)).map fun i => page (addr / 65536 + i)).foldl
    (fun a c => if a ≠ 0 then a else c) 0

def State.codeByte (s : State) (addr : Nat) : Byte := s.byte (s.physOf addr)
def State.codeWord (s : State) (addr : Nat) : Word := s.readWord (s.physOf addr)

/-- Number of set bits of PRESENT. -/
def bundleWords (w : Word) : Nat := 1 + (bundlePresent w).length

/-- Does a word offset begin a bundle?  Bundles follow one another from ENTRY (R296). -/
def bundleStart (word : Nat → Word) (target : Nat) : Nat → Nat → Bool
  | 0, _ => false
  | fuel + 1, at_ => if target = at_ then true else if target < at_ then false
    else bundleStart word target fuel (at_ + bundleWords (word at_))

/-- The segment header of the running segment, and a word of its code. -/
def State.segWord (s : State) (d : Die) (off : Nat) : Word := s.codeWord (d.item.w2.toNat + 8 * off)

def Die.inCode (d : Die) (off : Nat) : Bool := d.entry ≤ 8 * off && 8 * off < d.entry + d.codeBytes

/-- BRANCH_RANGE (R297). -/
def State.targetOk (s : State) (d : Die) (t : Nat) : Bool :=
  d.inCode t && bundleStart (s.segWord d) t (d.codeBytes / 8) (d.entry / 8)

def branchTarget : BranchOp → Option Nat
  | .jmp t => some t.toNat
  | .bz _ t => some t.toNat
  | .bnz _ t => some t.toNat
  | .loop _ t => some t.toNat
  | _ => none

/-! ### Issue of one bundle (R272, R299) -/

/-- Start the slot actions of a bundle in ascending order. -/
def startSlots (die off : Nat) : List (Nat × Word) → State → Except (Nat × Nat × Nat × State) State
  | [], s => .ok s
  | (k, w) :: rest, s =>
    match decodeSlot k w with
    | .error c => .error (c, 0, k, s)
    | .ok op =>
      let bad := match op with
        | .branch b => (match branchTarget b with
          | some t => !s.targetOk (s.die die) t
          | none => false)
        | _ => false
      if bad then .error (Code.branchRange, 0, k, s)
      else match s.startAction die k op (slotDur w) with
        | .error (c, cause) => .error (c, cause, k, s)
        | .ok s => startSlots die off rest s

/-- Open the issue of a bundle at a cycle: the registers it reads are those of now (R276). -/
def Die.open (d : Die) (t : Nat) : Die :=
  { d with cycle := t, bundleAt := t, first := false, snap := d.regs, wrote := [] }

/-- Base of a die's pinned region of a kind: 1 SAVE, 2 SPILL (R76, R635); 0 for none. -/
def State.dieRegion (s : State) (kind die : Nat) : Nat :=
  ((s.cfg.pins.find? fun d => d.kind = kind && d.die = die).map fun d => d.base.toNat).getD 0

/-- The save is gone: VALID of its header and SAVED are 0 (R403). -/
def State.clearSave (s : State) (die : Nat) : State :=
  let a := s.dieRegion 2 die
  let s := s.iff (a ≠ 0) fun s => s.setTabWord a (setBits (s.tabWord a) 0 0 0)
  (s.setDie die { s.die die with save := none }).setField (Reg.seqStatus die) 3 3 0

/-- The first bundle after a resume issues: the save it came from is used up (R403). -/
def State.useSave (s : State) (die : Nat) : State :=
  let d := s.die die
  s.iff (d.first && d.save.any fun v => v.startNo = d.startNo) fun s => s.clearSave die

/-- Issue the bundle at the die's offset on a cycle whose due actions have run. -/
def State.issueAt (s : State) (die t : Nat) : State :=
  let s := s.useSave die
  let d := s.die die
  let off := d.offset
  let h := s.segWord d off
  let ks := bundlePresent h
  let ws := (List.range ks.length).map fun i => (ks.getD i 0, s.segWord d (off + 1 + i))
  let s := (s.setDie die { d.open t with offset := off + bundleWords h }).bump (Reg.seqCnt 0)
  match startSlots die off ws s with
  | .ok s => s
  | .error (c, cause, k, s) => (s.setDie die { s.die die with offset := off }).faultSegment die c cause k

/-- The rendezvous a bundle carries: ALL and the slot mask of RM. -/
def State.bundleRdv (s : State) (d : Die) : Option (Bool × Nat) :=
  let h := s.segWord d d.offset
  let ks := bundlePresent h
  match ks.findIdx? (· = slotB) with
  | none => none
  | some i =>
    match decodeSlot slotB (s.segWord d (d.offset + 1 + i)) with
    | .ok (.branch (.rdv all rm)) => some (all, (SMap.get 0 d.regs rm.toNat).toNat)
    | _ => none

/-- Does a rendezvous wait for this? -/
def rdvNames (all : Bool) (mask : Nat) : Due → Bool
  | .act k a => (all || mask / 2 ^ k % 2 = 1) && (match a.op with
    | .tile _ => true
    | .scalar _ => true
    | .port _ => true
    | _ => false)
  | .drain x => all || mask / 2 ^ x.tile % 2 = 1

/-- The cycle after which everything a rendezvous names has ended. -/
def Die.rdvTime (d : Die) (all : Bool) (mask : Nat) : Nat :=
  let ends := (d.slots.map fun x => Due.act x.1 x.2).filter (rdvNames all mask)
  let mmas := ends.filterMap fun x => match x with
    | .act _ a => (match a.op with
      | .tile (.mma _ _ _ _ _ _ _ _) => some (a.expiry + 136)
      | _ => none)
    | .drain _ => none
  ((ends.map Due.time) ++ mmas ++ ((d.drains.map Due.drain).filter (rdvNames all mask)).map Due.time).foldl max 0

/-- A bundle is in the stream buffer (R307, R308). -/
def Die.buffered (d : Die) : Bool := d.bufLo ≤ d.offset && 8 * (d.offset - d.bufLo) < 4194304

end Sys2Proof.Machine
end

