-- ==== Sys2Proof/Machine/Streams.lean ====
section
/-! DEFINITION. The commands of the bundle sequencers (R262 to R308). -/

namespace Sys2Proof.Machine

open Sys2Proof

/-- The next start item of a die: one popped already, or the next of its segment queue (R262). -/
def State.takeStart (s : State) (die : Nat) : Option Item × State :=
  match SMap.get [] s.hq.hand (die + 1) with
  | it :: _ => (some it, s)
  | [] =>
    let r := s.popQueue (s.field (Reg.seqControl die) 8 0)
    match r.1 with
    | none => (none, r.2)
    | some e => (some e.item, { r.2 with hq.hand := SMap.set [] r.2.hq.hand (die + 1) [e.item] })

def State.dieService (s : State) (die : Nat) : Bool := bit (s.reg Reg.ctlDieRole) (16 + die)
def State.dieRole (s : State) (die : Nat) : Nat := s.field Reg.ctlDieRole (4 * die + 3) (4 * die)

/-- ROLE_MISMATCH of R393. -/
def State.roleBad (s : State) (die role : Nat) : Bool :=
  (role = 4 && !s.dieService die) || (role ≠ 4 && s.dieService die) || (role = 1 && s.dieRole die = 2)
    || (role = 2 && s.dieRole die = 1)

/-- A unfenced spare tile remains on a die (R255). -/
def State.spares (s : State) (die : Nat) : Nat :=
  ((List.range 34).filter fun p => !s.tileFenced die p && (List.range 32).all fun t => s.physTile die t ≠ some p).length

/-- TILE_SHORT of R255 and R266: a named tile is unmapped, or fenced with no spare. -/
def State.tileShort (s : State) (die mask : Nat) : Bool :=
  (List.range 32).any fun t => mask / 2 ^ t % 2 = 1 &&
    match s.physTile die t with
    | none => true
    | some p => s.tileFenced die p && s.spares die = 0

/-- The checks of R266, R255, R393 and R408 in order; 0 when the segment may run. -/
def State.headerCode (s : State) (die seg : Nat) (ecc : Ecc) : Nat :=
  let f := s.fetchCode seg 64
  if f ≠ 0 then f
  else if ecc = .uncorrectable then Code.streamFetch
  else
    let w0 := s.codeWord seg
    let w1 := s.codeWord (seg + 8)
    let w2 := s.codeWord (seg + 16)
    let entry := bits w1 31 0
    let n := bits w1 63 32
    let mask := bits w2 63 32
    let role := bits (s.codeWord (seg + 32)) 35 32
    if bits w0 63 48 ≠ 0x5E67 || bits w0 47 32 ≠ 1 then Code.segHeader
    else if entry % 8 ≠ 0 || entry < 64 || n < 8 || 67108864 < n then Code.segHeader
    else if s.fetchCode (seg + entry) n ≠ 0 then s.fetchCode (seg + entry) n
    else if crc32c ((List.range n).map fun i => s.codeByte (seg + entry + i)) ≠ BitVec.ofNat 32 (bits w2 31 0) then
      Code.segHeader
    else if s.tileShort die mask then Code.tileShort
    else if s.roleBad die role then Code.roleMismatch
    else if s.dieService die && (List.range 32).any fun t =>
        mask / 2 ^ t % 2 = 1 && !bit (s.reg (Reg.ctlReserved die)) t then Code.tileReserved
    else 0

/-- Load the fields of a header the sequencer keeps. -/
def State.loadHeader (s : State) (d : Die) : Die :=
  let seg := d.item.w2.toNat
  let w1 := s.codeWord (seg + 8)
  { d with segId := bits (s.codeWord seg) 31 0, entry := bits w1 31 0, codeBytes := bits w1 63 32,
           tileMask := bits (s.codeWord (seg + 16)) 63 32, pptCount := bits (s.codeWord (seg + 24)) 31 16 }

/-- The registers a start item loads (R264). -/
def startRegs (it : Item) : SMap Word :=
  SMap.set 0 (SMap.set 0 (SMap.set 0 (SMap.set 0 [] 1 it.w3) 2 it.w4) 3 it.w5) 4 it.w6

/-- SEGMENT_START (R61, R262, R264, R266, R393): an idle die takes the next start item that is not a resume. -/
def execSegmentStart (die : Fin 4) (ecc : Ecc) (tableUe : Bool) (s : State) : Host.Outcome State Fault Refusal :=
  gate s fun s =>
    let n := die.val
    if (s.die n).state ≠ .idle then s
    else
      let r := s.takeStart n
      match r.1 with
      | none => r.2
      | some it =>
        if segResume it then r.2
        else
          let s := (r.2.begin_ (n + 1) it).boundary n
          let d := s.die n
          let d := { d.stopped with
            state := .running, item := it, startNo := d.nextStart, nextStart := d.nextStart + 1, regs := startRegs it,
            segId := 0, entry := 0, codeBytes := 0, tileMask := 0, pptCount := 0, offset := 0, first := true,
            cycle := 0, bundleAt := 0, stallCycles := 0, startNs := s.now }
          let s := (s.setDie n d).putReclaim n
          let s := s.setField (Reg.seqStatus n) 63 32 d.startNo.toNat
          let code := s.headerCode n it.w2.toNat ecc
          if tableUe then s.tableFault it.w2.toNat
          else if code ≠ 0 then s.faultSegment n code 0 255
          else
            let d := s.loadHeader d
            let s := s.acctStart n it
            s.setDie n { d with offset := d.entry / 8, bufLo := d.entry / 8 }

/-- A resume that is refused: its own completion item carries the code; a save stays (R306, R393). -/
def State.refuseResume (s : State) (die : Nat) (it : Item) (code : Nat) : State :=
  let s := s.setReg (Reg.seqFault die) (fld 63 48 code)
  let s := ((s.bump (Reg.seqCnt 7)).bump (Reg.fltCnt 0)).event code 1 die 255 (s.stepNo) it.w0 0
  ((s.noteDiscard die it code).setAttn 6).postSegment
    { (s.die die).stopped with item := it, segId := bits (s.codeWord it.w2.toNat) 31 0, cycle := 0, stallCycles := 0, offset := 0 }
    code 0 255

/-- Clear VALID of the save header in memory is the loss of the decoded save; tile formats are unknown after a resume
(R305, R403). -/
def State.forgetTiles (s : State) (die mask : Nat) : State :=
  (List.range 32).foldl (fun s t =>
    match s.physTile die t with
    | some p => s.iff (mask / 2 ^ t % 2 = 1) fun s => s.setTileSt die p { s.tileSt die p with fmt0 := none, fmt1 := none }
    | none => s) s

/-- Where the tile state of a mask's tiles stands in the die's save area: store or accumulators, state address and bytes (R400). -/
def State.saveRuns (s : State) (die mask : Nat) : List (Nat × Nat × Nat) :=
  let base := s.dieRegion 1 die
  if base = 0 then []
  else (List.range 32).flatMap fun t =>
    match s.physTile die t with
    | none => []
    | some p =>
      if mask / 2 ^ t % 2 = 0 then []
      else [(storeAddr die p 0 0, base + 2621440 * t, 2097152), (accAddr die p 0, base + 2621440 * t + 2097152, 524288)]

/-- The save header (R400). -/
def saveWords (v : Save) (regs : SMap Word) (now dvfs : Nat) : List Word :=
  [fld 63 48 0x5A7E ||| fld 47 32 1 ||| 1, fld 47 32 v.index ||| fld 31 0 v.segId,
    fld 63 32 v.startNo.toNat ||| fld 31 0 v.tileMask, fld 27 0 v.offset] ++ v.item.words ++
    ((List.range 32).map fun r => SMap.get 0 regs r) ++ [BitVec.ofNat 64 now, fld 3 0 dvfs]

/-- Write a save: the tile state, then the header (R400, R401). -/
def State.writeSave (s : State) (die : Nat) (v : Save) (regs : SMap Word) : State :=
  let s := (s.saveRuns die v.tileMask).foldl (fun s x => s.copyToState x.1 x.2.1 x.2.2) s
  let a := s.dieRegion 2 die
  s.iff (a ≠ 0) fun s =>
    s.setTabBytes a ((saveWords v regs s.now (s.field (Reg.seqStatus die) 7 4)).flatMap fun w => leBytes w.toNat 8)

/-- A line of the save that a resume reads is uncorrectable (R694). -/
def State.saveLost (s : State) (die mask : Nat) : Bool :=
  ((s.saveRuns die mask).any fun x => s.bodyLost x.2.1 x.2.2) || s.bodyLost (s.dieRegion 2 die) 0x170

/-- Restore the tile state of a save, onto the tiles the logical tiles now name (R403); the scalars are those of the header. -/
def State.restoreTiles (s : State) (die mask : Nat) : State :=
  (s.saveRuns die mask).foldl (fun s x => s.copyFromState x.2.1 x.1 x.2.2) s
def State.savedRegs (s : State) (die : Nat) : SMap Word :=
  let a := s.dieRegion 2 die
  (List.range 32).foldl (fun m r => if r = 0 || a = 0 then m else SMap.set 0 m r (s.tabWord (a + 0x60 + 8 * r))) []

/-- SEGMENT_RESUME (R306, R393, R403, R694): an idle die whose next item is a resume restores the save it holds, which stays until the
first bundle issues.  After an uncorrectable error in the save area the save is treated as absent and its segment is rerun. -/
def execSegmentResume (die : Fin 4) (ecc : Ecc) (s : State) : Host.Outcome State Fault Refusal :=
  gate s fun s =>
    let n := die.val
    if (s.die n).state ≠ .idle then s
    else
      let r := s.takeStart n
      match r.1 with
      | none => r.2
      | some it =>
        if !segResume it then r.2
        else
          let s := (r.2.begin_ (n + 1) it).boundary n
          match (s.die n).save with
          | none => s.refuseResume n it Code.segHeader
          | some v =>
            let f := s.fetchCode it.w2.toNat 64
            if f ≠ 0 then s.refuseResume n it f
            else if it.w2 ≠ v.item.w2 || bits (s.codeWord it.w2.toNat) 31 0 ≠ v.segId then
              s.refuseResume n it Code.segHeader
            else if s.roleBad n (bits (s.codeWord (it.w2.toNat + 32)) 35 32) then
              s.refuseResume n it Code.roleMismatch
            else if ecc = .uncorrectable || s.saveLost n v.tileMask then
              ((s.clearSave n).putReclaim n).refuseResume n { v.item with w7 := setBits v.item.w7 48 48 0 } Code.poisoned
            else
              let s := (s.restoreTiles n v.tileMask).forgetTiles n v.tileMask
              let d := s.die n
              let d := s.loadHeader { d.stopped with
                state := .running, item := it, startNo := v.startNo, regs := s.savedRegs n,
                pins := v.pins, readings := v.readings, first := true, cycle := 0, bundleAt := 0, stallCycles := 0,
                startNs := s.now }
              let s := s.setDie n { d with offset := v.offset, bufLo := v.offset }
              let s := s.setField (Reg.seqStatus n) 63 32 v.startNo.toNat
              let x := SMap.get {} s.fw.jobs n
              let s := { s with fw.jobs := SMap.put s.fw.jobs n { x with victim := none } }
              (s.putReclaim n).bump (Reg.ctlCnt 9)

/-- The cycle on which the next bundle is laid. -/
def State.laidCycle (s : State) (d : Die) : Nat :=
  if d.first then d.cycle else max d.cycle (d.bundleAt + bundleGap (s.segWord d d.offset))

/-- BUNDLE_ISSUE (R272, R299, R301): the running die's next bundle issues, waits for its rendezvous, misses the stream
buffer, or ends the segment. -/
def execBundleIssue (die : Fin 4) (s : State) : Host.Outcome State Fault Refusal :=
  gate s fun s =>
    let n := die.val
    let d := s.die n
    if d.state ≠ .running then s
    else if !d.buffered then (s.setDie n (d.stall s.now .fetch)).bump (Reg.seqCnt 4)
    else if !d.inCode d.offset then s.faultSegment n Code.branchRange 0 slotB
    else
      let t := s.laidCycle d
      match s.bundleRdv d with
      | none => (s.runTo n t).issueAt n t
      | some (all, mask) =>
        if d.rdvTime all mask ≤ t then (s.runRdv n t all mask).issueAt n t
        else s.setDie n (d.stall s.now (.rdv all mask))

/-- RENDEZVOUS_COMPLETE (R299): what the waiting bundle's rendezvous names has ended, and the bundle issues within 8
cycles of the last of it. -/
def execRendezvousComplete (die : Fin 4) (s : State) : Host.Outcome State Fault Refusal :=
  gate s fun s =>
    let n := die.val
    let d := s.die n
    match d.stalls with
    | [.rdv all mask] =>
      let laid := s.laidCycle d
      let f := s.fresh
      let t := max laid (d.rdvTime all mask) + (if d.rdvTime all mask ≤ laid then 0 else Config.delay f.1 % 9)
      let s := (f.2.setDie n { d with stalls := [], state := .running, stallCycles := d.stallCycles + (t - laid) }).runRdv n t all mask
      (((s.bumpBy (Reg.seqCnt 3) (t - laid)).bumpBy (Reg.seqCnt 2) (t - laid)).issueAt n t)
    | _ => s

/-- FETCH_DELIVERY (R61, R307, R308): code reaches the stream buffer; an error in a table page is a TABLE_FAULT; an uncorrectable error in it ends the segment. -/
def execFetchDelivery (die : Fin 4) (ecc : Ecc) (tableUe : Bool) (s : State) : Host.Outcome State Fault Refusal :=
  gate s fun s =>
    let n := die.val
    let d := s.die n
    if d.state = .idle then s
    else if tableUe then s.tableFault (d.item.w2.toNat + 8 * d.offset)
    else if ecc = .uncorrectable then s.faultSegment n Code.streamFetch 0 255
    else if d.stalls.contains .fetch then
      s.unstall n { d with bufLo := d.offset } (d.stalls.filter fun x => x ≠ .fetch)
    else s

/-! ### Errors in tile memories (R229, R253) -/

/-- Fence a physical tile (R253). -/
def State.fenceTile (s : State) (die phys : Nat) : State := s.setField (Reg.tileStatus die) phys phys 1

/-- Count an uncorrectable error of a tile in the last hour; the tile is fenced after the segment's discard. -/
def State.tileError (s : State) (die phys slot : Nat) : State :=
  let t := s.tileSt die phys
  let errs := (t.errs.filter fun x => s.now < x + 3600 * 10 ^ 9) ++ [s.now]
  let s := (s.setTileSt die phys { t with errs := errs }).bump (Reg.tileCnt 6)
  let s := s.faultSegment die Code.tileEcc 0 slot
  s.iff (s.field Reg.tileFence 7 0 ≤ errs.length) fun s => s.fenceTile die phys

/-- The physical tile whose store or accumulators an expiring action reads: its own, or for a PWRITE one of those it names. -/
def State.slotTile (s : State) (die slot : Nat) (a : SlotAct) : Option Nat :=
  if slot < 32 then some a.phys
  else match a.op with
    | .port (.write _ _ _) =>
      let ts := s.portTiles die a
      ts[Config.place s.free % ts.length]?
    | _ => none

/-- SLOT_EXPIRE (R229, R233, R273, R695): a slot's action expires.  What it reads of a tile's store or accumulators counts a corrected
error there and ends the segment with TILE_ECC on an uncorrectable one; an uncorrectable error of the larder ends it with POISONED. -/
def execSlotExpire (die : Fin 4) (slot : Fin 48) (ecc : Ecc) (s : State) : Host.Outcome State Fault Refusal :=
  gate s fun s =>
    let n := die.val
    match SMap.lookup (s.die n).slots slot.val with
    | none => s
    | some a =>
      let s := runDue n (fun x => x.time < a.expiry) (s.die n).dueCount s
      let tile := s.slotTile n slot.val a
      match ecc with
      | .uncorrectable =>
        let s := s.fresh.2
        match tile with
        | some p => s.tileError n p slot.val
        | none => s.faultSegment n Code.poisoned 0 slot.val
      | .corrected => (s.iff tile.isSome fun s => s.bump (Reg.tileCnt 5)).expire n slot.val a
      | .clean => s.expire n slot.val a

/-- MMA_DRAIN_COMPLETE (R234): the oldest drain of a tile writes its last results. -/
def execMmaDrainComplete (die : Fin 4) (tile : Fin 32) (ecc : Ecc) (s : State) : Host.Outcome State Fault Refusal :=
  gate s fun s =>
    let n := die.val
    match (s.die n).drains.find? fun x => x.tile = tile.val with
    | none => s
    | some x =>
      let s := runDue n (fun y => y.time < x.done) (s.die n).dueCount s
      match ecc with
      | .uncorrectable => s.tileError n x.phys tile.val
      | .corrected => (s.bump (Reg.tileCnt 5)).endDrain n x
      | .clean => s.endDrain n x

/-! ### Mover transfers (R282 to R285, R695) -/

/-- Read or write each page piece in order; a fault stops the transfer.  `weight` marks reads of CLASS WEIGHT, which start
read-ahead (R589). -/
def movePieces (die : Nat) (write weight : Bool) (local_ : Nat) : List (Nat × Nat × Nat) → State → Moved
  | [], s => .done s
  | (a, off, n) :: ps, s =>
    match s.translate die a write true with
    | (.fault c, s) => .fault c s
    | (.stall, s) => .wait s
    | (.home t loc, s0) =>
      let s := s0
      let h := homeAddr t loc (a % 65536)
      let held := weight && s.buffered (a / 65536)
      let lost := if write then s.badWrite a n else s.badRead a n
      let code := if held then 0 else if lost then Code.poisoned else s.reachCode t loc
      let s := (s.iff (weight && !write) fun s => s.readAhead (a / 65536)).iff (!held) fun s =>
        s.countPool t write n
      let s := s.iff write fun s => (s.mend a n).partWrite t (a % 65536) n
      let table := s.tabled (a / 65536)
      let r := if write then s.seen die (local_ + off) n else (cellsOf s.mem h n, s)
      let s :=
        if write then if table then r.2.setVbytes a (cellBytes r.1 n) else r.2.paste r.1 h n
        else
          let to_ := larderAddr die (local_ + off)
          if table then s.writeBytes to_ (s.vbytes a n) else s.paste r.1 to_ n
      if code ≠ 0 then .fault code s0 else movePieces die write weight local_ ps s

/-- Carry out a transfer (R282); the scatter descriptor of number `bad`, if any, meets an uncorrectable error. -/
def State.moveXfer (s : State) (die : Nat) (x : Xfer) (bad : Option (Nat × Nat)) : Moved :=
  let la := larderAddr die (128 * x.la)
  match x.kind with
  | .get => movePieces die false (tagClass x.tag.w1 = 6) (128 * x.la) (pagePieces x.ra.toNat x.rl) s
  | .put => movePieces die true false (128 * x.la) (pagePieces x.ra.toNat x.rl) s
  | .xl =>
    let r := s.seen (bits x.ra 23 22) (128 * bits x.ra 21 0) x.rl
    .done (r.2.paste r.1 la x.rl)
  | .zero => .done (s.zeroRange la x.rl)
  | .scatter =>
    let cow := s.scatterCow die (128 * x.la) x.rl
    if cow.isEmpty then .done (scatterLoop die (128 * x.la) bad (List.range x.rl) s)
    else .wait (cow.foldl State.askCopy s)
  | .ring =>
    let m := s.neighbour (!bit x.ra 24)
    let mine := fun (h : FrameHead) => h.src = s.self && h.stream = 8 * die + x.mover && h.mtype = 1
    if x.sent then if s.unsent mine then .wait s else .done s
    else if (s.portsTo m).isEmpty then .fault Code.trailDown s
    else
      let r := s.seen die (128 * x.la) x.rl
      let s := r.2.setDie die { r.2.die die with
        xfers := (r.2.die die).xfers.map fun y => if y = x then { x with sent := true } else y }
      .wait (s.sendRing (!bit x.ra 24) (8 * die + x.mover) (bits x.ra 23 22) (bits x.ra 21 0) (bits x.ra 47 36)
        (cellBytes r.1 x.rl))
  | .nop => .done s

/-- A transfer reads a DRAM user line; of a SCATTER, its descriptor `part`. -/
def State.xferReads (s : State) (die : Nat) (x : Xfer) (part k : Nat) : Bool :=
  match x.kind with
  | .get => s.readsLine false (pagePieces x.ra.toNat x.rl) k
  | .put => s.readsLine true (pagePieces x.ra.toNat x.rl) k
  | .scatter => s.readsLine true (s.descRanges (Desc.ofItem (s.readItem (larderAddr die (128 * x.la + 64 * part)))) |>.map fun r => (r.1, 0, r.2)) k
  | _ => false

/-- MOVER_TRANSFER_COMPLETE (R284, R285, R575): the oldest transfer of a mover is in place and raises its tally, waits for a
protected page, sends the frames of an MRING or waits for their acknowledgement on the first hop, or ends the segment with its
fault's code.  `lines` are the DRAM lines it reads that differ from what was written (R607, R611).  An uncorrectable error of a line,
of the larder, or of a page-table page that a scatter meets fails the descriptor `part` alone (R169). -/
def execMoverTransferComplete (die : Fin 4) (mover : Fin 8) (ecc : Ecc) (tableUe : Bool) (part : Nat)
    (lines : List (Nat × List (Nat × Byte))) (s : State) : Host.Outcome State Fault Refusal :=
  gate s fun s =>
    let n := die.val
    match (s.die n).xfers.find? fun x => x.mover = mover.val with
    | none => s
    | some x =>
      let r := linesRead (lines.filter fun l => s.xferReads n x part l.1) s
      let s := r.2
      let ue := r.1 || ecc = .uncorrectable
      let bad := if tableUe then some (part, Code.tableFault) else if ue then some (part, Code.poisoned) else none
      if tableUe && (x.kind = .get || x.kind = .put) then s.tableFault x.ra.toNat
      else if ue && x.kind ≠ .scatter then s.faultSegment n Code.poisoned 0 (32 + mover.val)
      else
        match s.moveXfer n x bad with
        | .wait s => s
        | .fault c s => s.faultSegment n c 0 (32 + mover.val)
        | .done s => (s.setDie n { s.die n with xfers := (s.die n).xfers.erase x }).raise x.tally

/-! ### Ends (R298, R304, R181) -/

/-- Nothing of the segment runs outside the bundle clock. -/
def Die.quiet (d : Die) : Bool := d.xfers.isEmpty && d.lists.isEmpty

/-- SEGMENT_RETIRE (R298): after END, when every action has expired, every drain has finished, every transfer has
completed and no tile is held, the segment retires and posts its completion. -/
def execSegmentRetire (die : Fin 4) (s : State) : Host.Outcome State Fault Refusal :=
  gate s fun s =>
    let n := die.val
    if (s.die n).state ≠ .ending || !(s.die n).quiet then s
    else
      let s := (s.runAll n).bump (Reg.seqCnt 1)
      let d := s.die n
      let s := ((s.setDie n d.stopped).putReclaim n).acctEnd n d false true
      (s.postSegment d d.endStatus 0 255).boundary n

/-- A tile whose state the save was reading when an error struck. -/
def State.saveTile (s : State) (die mask : Nat) : Nat :=
  let ts := ((List.range 32).filter fun t => mask / 2 ^ t % 2 = 1).filterMap (s.physTile die)
  ts.getD (Config.place s.free % ts.length) 0

/-- PREEMPT_SAVE (R229, R304, R400, R401): at a requested preemption point whose conditions are met the sequencer saves the
segment, clears REQ and posts PREEMPTED; an uncorrectable error of the tile state that it reads discards the segment, with no save. -/
def execPreemptSave (die : Fin 4) (ecc : Ecc) (s : State) : Host.Outcome State Fault Refusal :=
  gate s fun s =>
    let n := die.val
    if (s.die n).state ≠ .saving || !(s.die n).quiet then s
    else
      let s := s.runAll n
      let d := s.die n
      if ecc = .uncorrectable then s.fresh.2.tileError n (s.saveTile n d.tileMask) 255
      else
        let s := s.iff (ecc = .corrected) fun s => s.bump (Reg.tileCnt 5)
        let v : Save := {
          item := d.item, segId := d.segId, startNo := d.startNo, offset := d.offset, index := d.endStatus
          pins := d.pins, readings := d.readings, cycles := d.cycle, tileMask := d.tileMask }
        let s := (((s.writeSave n v d.regs).setDie n { d.stopped with save := some v }).putReclaim n).acctEnd n d true false
        let s := (s.setField (Reg.seqStatus n) 3 3 1).setField (Reg.seqPreempt n) 0 0 0
        ((s.bump (Reg.seqCnt 5)).postSegment d Code.preempted d.endStatus 255).boundary n

/-- PREEMPT_DISCARD (R181): a save whose start number lies 2^30 behind the die's next one is discarded and reported. -/
def execPreemptDiscard (die : Fin 4) (s : State) : Host.Outcome State Fault Refusal :=
  gate s fun s =>
    let n := die.val
    match (s.die n).save with
    | none => s
    | some v =>
      if ((s.die n).nextStart - v.startNo).toNat < 2 ^ 30 then s
      else
        let s := (s.clearSave n).putReclaim n
        let s := (s.bump (Reg.seqCnt 7)).bump (Reg.fltCnt 0)
        let s := s.setReg (Reg.seqFault n) (fld 63 48 Code.preemptDiscard ||| fld 37 10 v.offset)
        let s := s.noteDiscard n v.item Code.preemptDiscard
        let x := SMap.get {} s.fw.jobs n
        let s := { s with fw.jobs := SMap.put s.fw.jobs n { x with
          victim := none, pushed := x.pushed.filter fun y => y.1 ≠ plainStart v.item } }
        let s := (s.event Code.preemptDiscard 1 n 255 (s.stepNo) v.item.w0 0).setAttn 6
        s.postSegment { (s.die n).stopped with
          item := v.item, segId := v.segId, startNo := v.startNo, cycle := v.cycles, stallCycles := 0, offset := v.offset }
          Code.preemptDiscard 0 255

/-! ### One slot action by itself

The rows of the slot opcodes: one slot action, issued as a bundle of its own one cycle after the bundle before it in the
running segment (log entry 16). -/

/-- The state in which a bundle of one action is issued: one cycle after the bundle before it (log entry 16), with everything due by
then expired, and the registers it reads those of that cycle (R276). -/
def State.laid (s : State) (die : Nat) : State :=
  let d := s.die die
  let t := if d.first then d.cycle else max d.cycle (d.bundleAt + 1)
  let s := (s.runTo die t).useSave die
  (s.setDie die ((s.die die).open t)).bump (Reg.seqCnt 0)

/-- Issue one slot action as a bundle of its own. -/
def State.issueOne (s : State) (die slot : Nat) (op : Except Nat SlotOp) (dur : Nat) : State :=
  if (s.die die).state ≠ .running then s
  else
    let s := s.laid die
    match op with
    | .error c => s.faultSegment die c 0 slot
    | .ok op =>
      match s.startAction die slot op dur with
      | .ok s => s
      | .error (c, cause) => s.faultSegment die c cause slot

/-- A branch by itself: its target is checked as R297 says. -/
def State.issueBranch (s : State) (die : Nat) (b : BranchOp) (dur : Nat) : State :=
  let bad := match branchTarget b with
    | some t => !s.targetOk (s.die die) t
    | none => false
  s.issueOne die slotB (if bad then .error Code.branchRange else .ok (.branch b)) dur

/-- DUR of a slot word is its cycles − 1 (R269). -/
def cyclesOf (dur : BitVec 12) : Nat := dur.toNat + 1

end Sys2Proof.Machine
end

