-- ==== Sys2Proof/Machine/Attention.lean ====
section
/-! DEFINITION. The attention engine: items, choice of spans, results, ring reductions and ring prefill (R187 to R224). -/

namespace Sys2Proof.Machine

open Sys2Proof

/-! ### Items (R190)

Larder offsets of an item or a visiting-list entry are used as they stand: past the end of the larder a read finds 0 and a write
reaches cells of no use, for the manual names no check of them (DESIGN CHOICE, log entry 99). -/

structure AttnItem where
  session : Word
  pos : Nat
  qn : Nat
  layer : Nat
  head : Nat
  cls : Nat
  fold : Bool
  stats : Bool
  back : Bool
  scale : BitVec 32
  topK : Nat
  newest : Nat
  firstSpan : Nat
  ringHead : Nat
  qSrc : Nat
  oDst : Nat
  visits : Nat
  grad : Nat
  tally : Nat
  result : Nat
  deriving DecidableEq, Repr

def AttnItem.ofItem (i : Item) : AttnItem :=
  ⟨i.w0, bits i.w1 63 32, bits i.w1 31 19, bits i.w1 18 11, bits i.w1 10 7, bits i.w1 6 5, bit i.w1 4, bit i.w1 3,
    bit i.w1 2, BitVec.ofNat 32 (bits i.w2 63 32), bits i.w2 31 22, bits i.w2 21 14, bits i.w3 63 32, bits i.w3 6 0, bits i.w4 28 0, bits i.w5 28 0,
    bits i.w6 47 32, bits i.w6 28 0, bits i.w7 40 29, bits i.w7 28 0⟩

/-- The model's KV head count (R187). -/
def State.kvHeads (s : State) (m : Nat) : Nat :=
  if s.partLocal m then s.heads m else s.heads m * s.comp.map.modules

/-- The model KV head an item attends (R191). -/
def State.modelHead (s : State) (m : Nat) (a : AttnItem) : Nat :=
  if a.cls = 2 then a.ringHead
  else if s.partLocal m then a.head
  else s.heads m * s.comp.map.ringPos + a.head

/-- The checks of R192, 0 when the item passes. -/
def State.attnCode (s : State) (a : AttnItem) : Nat :=
  let h := s.handleCode a.session
  let slot := hSlot a.session
  let m := (s.dir slot).model
  let ring := a.cls = 2
  if h ≠ 0 then h
  else if s.layers m ≤ a.layer || s.heads m ≤ a.head || (ring && s.kvHeads m ≤ a.ringHead) then Code.badGeometry
  else if a.cls = 3 || a.qn = 0 || 4096 < a.qn || (ring && (a.head ≠ 0 || a.visits = 0))
      || (!ring && (a.ringHead ≠ 0 || a.visits ≠ 0)) then Code.invalidField
  else if (s.hdr slot).specLen < a.pos + a.qn || a.pos / 256 < a.firstSpan then Code.attnRange
  else if (ring && (a.fold || a.back)) || (a.stats && (a.cls ≠ 1 || a.back)) || (a.back && (a.cls ≠ 1 || a.fold)) then
    Code.attnMode
  else 0

/-! ### Reading span tables as a walker (R177, R178) -/

/-- Present or absent by R178; the third row counts STALE_WALKS. -/
def State.presence (s : State) (die slot n : Nat) : Bool × State :=
  let r := s.readEntry die slot n
  match r.1.res with
  | .empty => (false, r.2.2)
  | .resident => (!r.1.recomp, r.2.2)
  | .parked => (!r.1.recomp, r.2.2)
  | .dropped =>
    if r.1.recomp then (false, r.2.2)
    else if newer r.2.1 r.1.gen then (true, r.2.2.bump (Reg.kvsCnt 5))
    else (false, r.2.2)

/-- Split spans into present and absent, in order. -/
def presentLoop (die slot : Nat) : List Nat → State → List Nat × List Nat × State
  | [], s => ([], [], s)
  | n :: ns, s =>
    let p := s.presence die slot n
    let r := presentLoop die slot ns p.2
    if p.1 then (n :: r.1, r.2.1, r.2.2) else (r.1, n :: r.2.1, r.2.2)

/-! ### Choice of spans (R196, R197, R199) -/

/-- Hamming distance of two sketches. -/
def hamming (a b : List Word) : Nat :=
  sumNat ((a.zip b).map fun x => sumNat ((List.range 64).map fun i => bnat (bit (x.1 ^^^ x.2) i)))

/-- Is the first candidate ranked before the second: smaller distance, then higher span (R196)? -/
def rankBefore (a b : Nat × Nat) : Bool := a.1 < b.1 || (a.1 = b.1 && b.2 < a.2)
def insertRank (x : Nat × Nat) : List (Nat × Nat) → List (Nat × Nat)
  | [] => [x]
  | y :: ys => if rankBefore x y then x :: y :: ys else y :: insertRank x ys
def rankSort (l : List (Nat × Nat)) : List (Nat × Nat) := l.foldr insertRank []

/-- The sketch of the mean query row of an item. -/
def State.querySketch (s : State) (die m : Nat) (a : AttnItem) : List Word × State :=
  let dim := s.headDim m
  let rows := s.group m * a.qn
  let q := fun (r j : Nat) => fpBF16.decode (s.readNat (larderAddr die (a.qSrc + 2 * (r * dim + j))) 2)
  let r := s.projBits m ((List.range dim).map fun j => meanOf ((List.range rows).map fun i => q i j))
  (sketchWords r.1, r.2)

/-- Take spans in rank order while fewer than TOP_K are taken: chosen, absent. -/
def takeRanked (die slot : Nat) : List Nat → Nat → State → List Nat × List Nat × State
  | [], _, s => ([], [], s)
  | n :: ns, k, s =>
    if k = 0 then ([], [], s)
    else
      let p := s.presence die slot n
      let r := takeRanked die slot ns (if p.1 then k - 1 else k) p.2
      if p.1 then (n :: r.1, r.2.1, r.2.2) else (r.1, n :: r.2.1, r.2.2)

/-- Ranks the search unit returns at a time (R486). -/
def State.rankPage (s : State) (topK : Nat) : Nat := topK + s.field Reg.seuControl 39 30

/-- The ranking of a request: candidates in the order of R196 (R486). -/
def State.rankOrder (s : State) (slot layer head first tail newest commit : Nat) (sketch : List Word) : List Nat :=
  let always := max first (tail + 1 - newest)
  let b := layer * s.heads (s.dir slot).model + head
  let cand := ((List.range (tail - first)).map (first + ·)).filter fun n =>
    n < always && !(s.span slot n).pinned && (s.side slot n b).sketchValid && 256 * (n + 1) ≤ commit
  (rankSort (cand.map fun n => (hamming sketch (s.side slot n b).sketch, n))).map (·.2)

/-- The recall class's choice (R196): chosen spans and absent spans in the order met.  The search unit serves a rank request and as
many continuations as the selection takes (R486); PINNED is that of the engine's one reading of each entry (R178). -/
def State.chooseRecall (s : State) (die slot : Nat) (a : AttnItem) : List Nat × List Nat × State :=
  let m := (s.dir slot).model
  let tail := (a.pos + a.qn - 1) / 256
  let all := (List.range (tail + 1 - a.firstSpan)).map (a.firstSpan + ·)
  let e := readEntries die slot all s
  let always := ((all.zip e.1).filter fun x => max a.firstSpan (tail + 1 - a.newest) ≤ x.1 || x.2.pinned).map (·.1)
  let q := e.2.querySketch die m a
  let ranked := (s.rankOrder slot a.layer a.head a.firstSpan tail a.newest (s.hdr slot).commitLen q.1).filter fun n => !always.contains n
  let r := takeRanked die slot ranked a.topK q.2
  let pages := max 1 (ceilDiv (r.1.length + r.2.1.length) (max 1 (s.rankPage a.topK)))
  let w := presentLoop die slot always (r.2.2.bumpBy (Reg.seuCnt 5) pages)
  (w.1 ++ r.1, r.2.1 ++ w.2.1, w.2.2)

/-- The exact class's spans (R199): all of them, with those absent. -/
def State.chooseExact (s : State) (die slot : Nat) (a : AttnItem) : List Nat × List Nat × State :=
  let tail := (a.pos + a.qn - 1) / 256
  presentLoop die slot ((List.range (tail + 1 - a.firstSpan)).map (a.firstSpan + ·)) s

/-! ### Reading blocks (R201, R205) -/

/-- What an item's keys are read from: state-memory blocks or visiting-list rows, as the positions of each and the byte
of key and value element (row, element). -/
structure KeySrc where
  pos : Nat
  rows : Nat
  bf16 : Bool
  /-- Byte address of key element (t, j) and value element (t, j), by the memories of Ops.lean. -/
  kAt : Nat
  vAt : Nat
  kScale : BitVec 32
  vScale : BitVec 32
  deriving DecidableEq, Repr

/-- A half of a block read for an item: where its bytes are, or the code of R79 or R582 that fails the item (R201); bytes read from a
pool home are counted. -/
def State.readHalf (s : State) (die addr n : Nat) (again : Bool) : Except Nat (Tier × Nat) × State :=
  match s.translate die addr false true with
  | (.fault c, s) => (.error c, s)
  | (.stall, s) => (.error Code.poisoned, s)
  | (.home t l, s) =>
    if again then (.ok (t, homeAddr t l (addr % 65536)), s)
    else if s.reachCode t l ≠ 0 then (.error (s.reachCode t l), s)
    else (.ok (t, homeAddr t l (addr % 65536)), s.countPool t false n)

/-- Read each chosen span's block: a fault ends the item, pool homes are counted, and blocks of folded items are read once (R201,
R205); the code or the sources, with the folded blocks read so far. -/
def readBlocks (die slot layer head : Nat) (fold : Bool) : List Nat → List (Nat × Nat) → List KeySrc → State →
    Except Nat (List KeySrc) × List (Nat × Nat) × State
  | [], f, ks, s => (.ok ks, f, s)
  | n :: ns, f, ks, s =>
    let m := (s.dir slot).model
    let dim := s.headDim m
    let a := s.blockAddr slot n layer head
    let again := fold && f.any fun x => x.1 = a
    match s.readHalf die a (256 * dim) again with
    | (.error c, s) => (.error c, f, s)
    | (.ok k, s) =>
      match s.readHalf die (a + 256 * dim) (256 * dim) again with
      | (.error c, s) => (.error c, f, s)
      | (.ok v, s) =>
        let s := s.iff again fun s => s.bump (Reg.kvsCnt 10)
        let s := s.iff (!again && (k.1 = .pool || v.1 = .pool)) fun s => s.bump (Reg.kvsCnt 12)
        let r := s.side slot n (layer * s.heads m + head)
        readBlocks die slot layer head fold ns (if fold && !again then f ++ [(a, 1)] else f)
          (ks ++ [⟨256 * n, 256, false, k.2, v.2, r.kScale, r.vScale⟩]) s

/-- A visiting-list entry of R214; none when malformed. -/
def State.visit (s : State) (die m off : Nat) : Option (Nat × KeySrc) :=
  let w0 := s.readWord (larderAddr die off)
  let k := bits (s.readWord (larderAddr die (off + 8))) 28 0
  let v := bits (s.readWord (larderAddr die (off + 16))) 28 0
  let rows := bits w0 31 19
  let head := bits w0 18 12
  let kind := bits w0 11 10
  let sc := s.readWord (larderAddr die (off + 24))
  if rows = 0 || 4096 < rows || 119 < head || 2 ≤ kind || (kind = 0 && rows ≠ 256) || (kind = 1 && sc ≠ 0) then none
  else if kind = 0 then
    some (head, ⟨bits w0 63 32, 256, false, larderAddr die k, larderAddr die (k + 256 * s.headDim m),
      BitVec.ofNat 32 (bits sc 31 0), BitVec.ofNat 32 (bits sc 63 32)⟩)
  else some (head, ⟨bits w0 63 32, rows, true, larderAddr die k, larderAddr die v, 0, 0⟩)

/-- The visiting entries of an item whose HEAD is its RING_HEAD; none when one is malformed. -/
def State.visits (s : State) (die m : Nat) (a : AttnItem) : Option (List KeySrc) :=
  let es := (List.range a.visits).map fun i => s.visit die m (a.grad + 32 * i)
  if es.any Option.isNone then none
  else some (es.filterMap fun e => match e with
    | some (h, k) => if h = a.ringHead then some k else none
    | none => none)

/-! ### Rows (R195, R202, R204) -/

/-- Does a query at position p attend key position j (R195)? -/
def attends (a : AttnItem) (c p j : Nat) : Bool := 256 * a.firstSpan ≤ j && j ≤ p && (j < c || a.pos ≤ j)

/-- One stored key or value element. -/
def State.kvElem (s : State) (k : KeySrc) (at_ dim t j : Nat) : FVal :=
  if k.bf16 then fpBF16.decode (s.readNat (at_ + 2 * (t * dim + j)) 2) else fpE4M3.decode (s.byte (at_ + t * dim + j)).toNat

/-- Keys of a source attended by position p: whether there is one, and whether one holds a NaN. -/
def State.keyScan (s : State) (a : AttnItem) (c p dim : Nat) (k : KeySrc) : Bool × Bool :=
  let ts := (List.range k.rows).filter fun t => attends a c p (k.pos + t)
  (!ts.isEmpty, ts.any fun t => (List.range dim).any fun j =>
    s.kvElem k k.kAt dim t j = .nan || s.kvElem k k.vAt dim t j = .nan)

/-- Kinds of an output row: no attended key, a NaN, or ordinary. -/
inductive RowKind where
  | empty | nan | plain
  deriving DecidableEq, Repr

def State.rowKind (s : State) (a : AttnItem) (c p dim : Nat) (ks : List KeySrc) : RowKind :=
  let r := ks.map (s.keyScan a c p dim)
  if !(r.any (·.1)) then .empty else if r.any (·.2) then .nan else .plain

/-- Row t of a source: its key and value elements as stored. -/
def State.srcRow (s : State) (k : KeySrc) (dim t : Nat) : List FVal × List FVal :=
  ((List.range dim).map fun j => s.kvElem k k.kAt dim t j, (List.range dim).map fun j => s.kvElem k k.vAt dim t j)

/-- The blocks of a source (R215): BF16 rows are quantised by R149, each 256-row aligned group as one block. -/
def State.keyBlocks (s : State) (m dim : Nat) (k : KeySrc) : List KBlock :=
  let row := fun (t : Nat) => (k.pos + t, (s.srcRow k dim t).1, (s.srcRow k dim t).2)
  if !k.bf16 then [⟨k.kScale, k.vScale, (List.range k.rows).map row⟩]
  else
    let q := fun (e : Int) (v : FVal) => fpE4M3.decode (quantise v e).1.toNat
    (List.range ((k.pos + k.rows - 1) / 256 + 1 - k.pos / 256)).map fun g =>
      let rs := ((List.range k.rows).map row).filter fun r => r.1 / 256 = k.pos / 256 + g
      let ke := s.scaleExp m (rs.flatMap fun r => r.2.1)
      let ve := s.scaleExp m (rs.flatMap fun r => r.2.2)
      ⟨pow2F32 ke, pow2F32 ve, rs.map fun r => (r.1, r.2.1.map (q ke), r.2.2.map (q ve))⟩

/-- A BF16 row of `dim` elements in a larder. -/
def State.bf16Row (s : State) (die off dim : Nat) : List FVal :=
  (List.range dim).map fun j => fpBF16.decode (s.readNat (larderAddr die (off + 2 * j)) 2)

/-- The rows of a forward item (R202, R204, R218): zeros without a key, NaNs for a NaN, else online softmax over the blocks; row
statistics go to the addresses `stats` gives by row. -/
def outRows (die dim grp c : Nat) (a : AttnItem) (kinds : List RowKind) (bs : List KBlock) (stats : Nat → Option Nat) :
    List Nat → State → State
  | [], s => s
  | r :: rs, s =>
    let p := a.pos + r / grp
    let f := forwardRow (s.bf16Row die (a.qSrc + 2 * dim * r) dim) a.scale (attends a c p) bs s.free
    let s := { s with free := f.2.2.2 }
    let vals : List Byte := match kinds.getD (r / grp) .plain with
      | .empty => List.replicate (2 * dim) 0
      | .nan => (List.range dim).flatMap fun _ => leBytes 0x7FC0 2
      | .plain => f.1.flatMap fun x => leBytes x.toNat 2
    let s := s.writeBytes (larderAddr die (a.oDst + 2 * dim * r)) vals
    let s := match stats r with
      | some at_ => (s.write32 at_ f.2.1).write32 (at_ + 4) f.2.2.1
      | none => s
    outRows die dim grp c a kinds bs stats rs s

/-- The statistics page of each span of an item's positions (R155, R218): its home and the state, a fault, or a page that waits for its
snapshot copy. -/
def statHomes (die slot block : Nat) (write : Bool) : List Nat → State → Except (Option Nat) (SMap Nat) × State
  | [], s => (.ok [], s)
  | n :: ns, s =>
    match s.translate die (s.side slot n block).stats write true with
    | (.fault c, s) => (.error (some c), s)
    | (.stall, s) => (.error none, s)
    | (.home t l, s) =>
      match statHomes die slot block write ns s with
      | (.ok m, s) => (.ok (SMap.put m n (homeAddr t l 0)), s)
      | r => r

/-- The byte address of a row's statistics entry (R155). -/
def statEntry (homes : SMap Nat) (a : AttnItem) (grp r : Nat) : Option Nat :=
  (SMap.lookup homes ((a.pos + r / grp) / 256)).map fun h => h + 8 * (32 * ((a.pos + r / grp) % 256) + r % grp)

/-- FP32 elements over a larder range. -/
def State.writeF32s (s : State) (die off : Nat) (xs : List F32) : State := s.writeBytes (larderAddr die off) (row32Bytes xs)

/-- A backward item (R219, R220): from Q, the forward output, dO and the saved statistics to dQ, dK and dV. -/
def State.runBack (s : State) (die dim grp c : Nat) (a : AttnItem) (homes : SMap Nat) (bs : List KBlock) : State :=
  let n := grp * a.qn
  let rows : List BackRow := (List.range n).map fun r =>
    let at_ := (statEntry homes a grp r).getD 0
    { pos := a.pos + r / grp, q := s.bf16Row die (a.qSrc + 2 * dim * r) dim, dO := s.bf16Row die (a.grad + 2 * dim * r) dim
      o := s.bf16Row die (a.oDst + 2 * dim * r) dim, l := f32Add (s.read32 at_) (s.read32 (at_ + 4)) }
  let g := backward a.scale (attends a c) rows bs dim a.pos a.qn s.free
  let keys := sumNat (bs.map fun b => b.rows.length)
  let s := { s with free := s.free + backCount n dim a.qn keys bs.length }
  let q := a.grad + 2 * n * dim
  ((s.writeF32s die q g.1).writeF32s die (q + 4 * n * dim) g.2.1).writeF32s die (q + 4 * n * dim + 4 * a.qn * dim) g.2.2

/-- Spans of the positions of an item. -/
def AttnItem.ownSpans (a : AttnItem) : List Nat := (List.range ((a.pos + a.qn - 1) / 256 + 1 - a.pos / 256)).map (a.pos / 256 + ·)

/-- The statistics pages of every position of an item are named (R218, R219). -/
def State.statsNamed (s : State) (slot : Nat) (a : AttnItem) : Bool :=
  a.ownSpans.all fun n => (s.side slot n (a.layer * s.heads (s.dir slot).model + a.head)).stats ≠ 0

/-- Spans whose blocks a set of sources stands for: 256-row groups (R193, R215). -/
def srcSpans (ks : List KeySrc) : Nat := sumNat (ks.map fun k => (k.pos + k.rows - 1) / 256 + 1 - k.pos / 256)

/-- Outcome of one item: its code, spans read, absent spans in order, NaN rows, the absent spans of an exact item; or it waits for a
ranking to be free (R486) or for a page's snapshot copy (R64). -/
structure AttnDone where
  code : Nat := 0
  read : Nat := 0
  absent : List Nat := []
  nans : Nat := 0
  missed : List Nat := []
  waits : Bool := false

/-- Apply the blocks of an item that has read them (R202 to R220). -/
def State.applyItem (s : State) (die slot c : Nat) (a : AttnItem) (absent : List Nat) (ks : List KeySrc) : AttnDone × State :=
  let m := (s.dir slot).model
  let dim := s.headDim m
  let grp := s.group m
  let stat := a.stats || a.back
  match if stat then statHomes die slot (a.layer * s.heads m + a.head) a.stats a.ownSpans s else (.ok [], s) with
  | (.error none, s) => ({ waits := true }, s)
  | (.error (some c), s) => ({ code := c, absent := absent }, s)
  | (.ok homes, s) =>
    let bs := ks.flatMap (s.keyBlocks m dim)
    if a.back then ({ read := srcSpans ks }, s.runBack die dim grp c a homes bs)
    else
      let kinds := (List.range a.qn).map fun i => s.rowKind a c (a.pos + i) dim ks
      let s := outRows die dim grp c a kinds bs (fun r => if a.stats then statEntry homes a grp r else none) (List.range (grp * a.qn)) s
      ({ code := if kinds.contains .empty then Code.attnEmpty else 0, read := srcSpans ks, absent := absent
         nans := grp * (kinds.filter (· = .nan)).length }, s)

/-- Carry out one item (R192 to R220). -/
def State.runItem (s : State) (die : Nat) (a : AttnItem) (folded : List (Nat × Nat)) :
    AttnDone × List (Nat × Nat) × State :=
  let code := s.attnCode a
  let slot := hSlot a.session
  let c := (s.hdr slot).commitLen
  if code ≠ 0 then ({ code := code }, folded, s.noteStale code)
  else if (a.stats || a.back) && !s.statsNamed slot a then ({ code := Code.statsMissing }, folded, s)
  else if a.cls = 0 && 64 ≤ s.seu.rankings.length then ({ waits := true }, folded, s)
  else
    let ch := if a.cls = 2 then ([], [], s) else if a.cls = 0 then s.chooseRecall die slot a else s.chooseExact die slot a
    let s := ch.2.2
    if a.cls = 1 && !ch.2.1.isEmpty then ({ code := Code.attnAbsent, missed := ch.2.1 }, folded, s)
    else
      let src := if a.cls = 2 then
          match s.visits die (s.dir slot).model a with
          | none => (Except.error Code.invalidField, folded, s)
          | some ks => (Except.ok ks, folded, s)
        else readBlocks die slot a.layer a.head a.fold ch.1 folded [] s
      match src with
      | (.error e, f, s) => ({ code := e, absent := ch.2.1 }, f, s)
      | (.ok ks, f, s) =>
        let r := s.applyItem die slot c a ch.2.1 ks
        (r.1, f, r.2)

/-- The 64-byte result record of R193. -/
def resultWords (r : AttnDone) : List Word :=
  let l := (List.range 14).map fun i => r.absent.getD i 0xFFFFFFFF
  (fld 63 48 r.code ||| fld 47 30 r.read ||| fld 29 12 r.absent.length) ::
    (List.range 7).map fun i => fld 63 32 (l.getD (2 * i + 1) 0) ||| fld 31 0 (l.getD (2 * i) 0)

/-- Spans with a page that has lost its home, of those an item reads (R694). -/
def State.lostSpans (s : State) (slot : Nat) : List Nat :=
  (List.range (s.hdr slot).spans).filter fun n =>
    ((s.span slot n).res = .resident || (s.span slot n).res = .parked) && (s.spanPages slot n).any fun p => (s.leaf p).poison

/-- Firmware notes what an item has met (R194, R198, R199, R694): at the home a recompute is queued for each listed absent span that is
still DROPPED, and a request waits on those of an exact item; another module tells the home with its step-done (log entry 100). -/
def State.noteAbsent (s : State) (a : AttnItem) (r : AttnDone) : State :=
  let slot := hSlot a.session
  let met := ((r.absent.take 14) ++ r.missed).filter fun n => (s.span slot n).res = .dropped
  let lost := if r.code = Code.poisoned || r.code = Code.sourceRead then s.lostSpans slot else []
  if hModule a.session = s.self then met.foldl (fun s n => s.wantSpan (!r.missed.isEmpty) slot n) s
  else { s with cmp.absent := s.cmp.absent ++ ((met ++ lost).map fun n => (a.session, n)).filter fun x => !s.cmp.absent.contains x }

/-- Larder bytes of an accumulator file. -/
def accBytes : Nat := 524288

/-- The part of a die's spill area that rows may take: the pages after that of the save header (R203, R400). -/
def State.spillRange (s : State) (die : Nat) : Nat × Nat :=
  match s.cfg.pins.find? fun d => d.kind = 2 && d.die = die with
  | none => (0, 0)
  | some d => (d.base.toNat + 65536, 65536 * (d.pages - 1))

/-- The accumulator sets of a list's tiles do not hold the running state of its rows (R203, log entry 99). -/
def rowsSpill (tiles : List Nat) (rows dim : Nat) : Bool := tiles.length * 131072 < rows * (dim + 2)

/-- The running state of a list's rows stands in the accumulator sets of its tiles, in no stated layout, and what they cannot hold in
the die's spill area (R203): their contents are open. -/
def State.rowState (s : State) (die : Nat) (tiles : List Nat) (rows dim : Nat) : State :=
  let s := tiles.foldl (fun s t => match s.physTile die t with
    | some p => s.undefRange (accAddr die p 0, accBytes)
    | none => s) s
  s.iff (rowsSpill tiles rows dim) fun s => s.undefState (s.spillRange die).1 (s.spillRange die).2

/-- The item of a list that comes next, and the rows of all that are left. -/
def State.listItem (s : State) (die : Nat) (l : AttnList) (i : Nat) : AttnItem := AttnItem.ofItem (s.readItem (larderAddr die (l.at_ + 64 * i)))
def State.listRows (s : State) (die : Nat) (l : AttnList) : Nat :=
  sumNat ((List.range l.left).map fun i => (s.listItem die l i).qn * s.group (s.dir (hSlot (s.listItem die l 0).session)).model)

/-- ATTENTION_ITEM_RESULT (R193, R203, R289, R690): the next item of a list completes or fails; the tiles are released before the
last item's tally.  While the search unit is failed a recall item runs as exact.  A line of the
spill area that cannot be read ends the segment (R694). -/
def execAttentionItemResult (die : Fin 4) (list : Nat) (s : State) : Host.Outcome State Fault Refusal :=
  gate s fun s =>
    let n := die.val
    let d := s.die n
    match d.lists[list]? with
    | none => s
    | some l =>
      let a := s.listItem n l 0
      let exact := a.cls = 0 && s.unitFailed 6
      let a := if exact then { a with cls := 1 } else a
      let m := (s.dir (hSlot a.session)).model
      let rows := s.listRows n l
      let lost := rowsSpill l.tiles rows (s.headDim m) && s.bodyLost (s.spillRange n).1 (s.spillRange n).2
      let s0 := s.iff exact fun s => s.bump (Reg.fltCnt 7)
      let r := s0.runItem n a l.folded
      if lost then s.faultSegment n Code.poisoned 0 slotP
      else if r.1.waits then { s with tsm.cow := r.2.2.tsm.cow }
      else
        let s := r.2.2.rowState n l.tiles rows (s.headDim m)
        let s := s.writeWords (larderAddr n a.result) (resultWords r.1)
        let s := ((s.bump (Reg.kvsCnt 8)).bumpBy (Reg.kvsCnt 9) r.1.read).bumpBy (Reg.kvsCnt 15) r.1.nans
        let s := s.iff (a.cls = 0) fun s => s.bumpBy (Reg.kvsCnt 11) r.1.absent.length
        let s := (s.noteAbsent a r.1).noteReport r.1.code a.session 0
        let s := s.iff (r.1.code ≠ 0) fun s =>
          { s.bump (Reg.kvsCnt 13) with cmp.fails := s.cmp.fails ++ [(a.session, r.1.code)] }
        let d := s.die n
        let l' := { l with at_ := l.at_ + 64, left := l.left - 1, folded := r.2.1 }
        let s := s.setDie n { d with lists := if l.left ≤ 1 then d.lists.eraseIdx list else d.lists.set list l' }
        s.raise a.tally

/-! ### Ring reductions (R207 to R210) -/

/-- Chunk c of M of a vector, and the vector with the chunk replaced. -/
def chunkOf (y : List (BitVec 32)) (m c : Nat) : List (BitVec 32) := (y.drop (c * (y.length / m))).take (y.length / m)
def setChunk (y : List (BitVec 32)) (m c : Nat) (v : List (BitVec 32)) : List (BitVec 32) :=
  y.take (c * (y.length / m)) ++ v ++ y.drop ((c + 1) * (y.length / m))

/-- Position of this module on the ring as the direction counts it. -/
def ringPos (pos m : Nat) (clockwise : Bool) : Nat := if clockwise then pos else (m - pos) % m

/-- The chunk a module sends at a stage, and the chunk it receives (R208). -/
def chunkOut (pos m t : Nat) : Nat := if t < m - 1 then (pos + m - t % m) % m else (pos + 1 + 2 * m - (t - (m - 1))) % m
def recvChunk (pos m t : Nat) : Nat :=
  if t < m - 1 then (pos + 2 * m - t - 1) % m else (pos + 2 * m - (t - (m - 1))) % m

/-- The partial vectors of a module (R207): each output row times the projection rows of the module's query heads, in FP32. -/
def State.partials (s : State) (die positions width model rows proj : Nat) : List (List F32) :=
  let w := (List.range width).map fun k => s.bf16Row die (proj + 2 * k * model) model
  (List.range positions).map fun p =>
    let o := s.bf16Row die (rows + 2 * p * width) width
    (List.range model).map fun n =>
      accumulate 0 (dotSum o (w.map fun r => r.getD n .nan)) (Config.mmaSum (s.free + p * model + n))

/-- A chunk of a half: the elements of every query position, one position after the other. -/
def RedHalf.chunk (h : RedHalf) (m c : Nat) : List F32 := h.y.flatMap fun y => chunkOf y m c

/-- A half takes a stage's chunk (R208): added to the own one in the first m − 1 stages, in place of it in the others. -/
def RedHalf.take (h : RedHalf) (pos m : Nat) (vals : List F32) (now : Nat) : RedHalf :=
  let c := recvChunk pos m h.stage
  let y := h.y.zipIdx.map fun x =>
    let mine := chunkOf x.1 m c
    let got := (vals.drop (x.2 * mine.length)).take mine.length
    setChunk x.1 m c ((List.range mine.length).map fun i =>
      if h.stage < m - 1 then f32Add (mine.getD i 0) (got.getD i 0) else got.getD i 0)
  { y := y, stage := h.stage + 1, sinceNs := now }

/-- A half is complete after 2 × (m − 1) stages; a half without query positions has nothing to send. -/
def RedHalf.done (h : RedHalf) (m : Nat) : Bool := h.y.isEmpty || 2 * (m - 1) ≤ h.stage
def Reduction.half (r : Reduction) (clockwise : Bool) : RedHalf := if clockwise then r.cw else r.ccw
def Reduction.setHalf (r : Reduction) (clockwise : Bool) (h : RedHalf) : Reduction :=
  if clockwise then { r with cw := h } else { r with ccw := h }
def Reduction.done (r : Reduction) : Bool := r.started && r.cw.done r.count && r.ccw.done r.count

/-- Send the chunk of a half's next stage to the next module of its direction. -/
def State.sendHalf (s : State) (r : Reduction) (clockwise : Bool) : State :=
  let h := r.half clockwise
  if h.done r.count then s
  else s.sendChunk clockwise 3 r.id (h.chunk r.count (chunkOut (ringPos r.pos r.count clockwise) r.count h.stage))

def State.setReduction (s : State) (r : Reduction) : State :=
  { s with cmp.reductions := (s.cmp.reductions.filter fun (x : Reduction) => x.id ≠ r.id) ++ [r] }

/-- The reduction is complete: it is counted once, and its sums go to the larder, query position by query position (R209, R227). -/
def State.endReduction (s : State) (r : Reduction) : State :=
  (s.bump (Reg.kvsCnt 14)).writeF32s r.die r.dest (r.cw.y ++ r.ccw.y).flatten

/-- A stage's chunk joins its half, and the half's next chunk goes out (R208). -/
def State.reduceChunk (s : State) (r : Reduction) (clockwise : Bool) (vals : List F32) : State :=
  let h := r.half clockwise
  if h.done r.count then s
  else
    let r := r.setHalf clockwise (h.take (ringPos r.pos r.count clockwise) r.count vals s.now)
    let s := (s.setReduction r).sendHalf r clockwise
    if r.done then s.endReduction r else s

/-- Chunks that came before the module's own partials, in order. -/
def reduceInbox (id : Nat) : List (Bool × List F32) → State → State
  | [], s => s
  | x :: xs, s =>
    match s.cmp.reductions.find? fun r => r.id = id with
    | none => s
    | some r => reduceInbox id xs (s.reduceChunk r x.1 x.2)

/-- REDUCE_STAGE (R207 to R210): a module begins a reduction over its own partial vectors, half of the query positions going each way
with the larger half clockwise, the first positions among them (log entry 17); or a stage's chunk arrives, is added or replaces the
own one, and the next chunk is sent.  A chunk that is before the module's own partials waits for them. -/
def execReduceStage (id : Nat) (die : Fin 4) (x : ReduceIn) (s : State) : Host.Outcome State Fault Refusal :=
  gate s fun s =>
    let m := s.comp.map.modules
    let old := s.cmp.reductions.find? fun (r : Reduction) => r.id = id
    match x with
    | .start positions width model rows proj dest =>
      if model % m ≠ 0 || (old.any fun r => r.started && !r.done) then s
      else
        let y := s.partials die.val positions width model rows proj
        let k := positions - positions / 2
        let inbox := (old.map fun r => if r.started then [] else r.inbox).getD []
        let r : Reduction := {
          id := id, die := die.val, pos := s.comp.map.ringPos, count := m, started := true, dest := dest
          cw := { y := y.take k, sinceNs := s.now }, ccw := { y := y.drop k, sinceNs := s.now } }
        let s := { s with free := s.free + positions * model }
        let s := ((s.setReduction r).sendHalf r true).sendHalf r false
        if r.done then s.endReduction r else reduceInbox id inbox s
    | .chunk clockwise vals =>
      match old with
      | none => s.setReduction { id := id, die := die.val, pos := s.comp.map.ringPos, count := m, inbox := [(clockwise, vals)] }
      | some r => if r.started then s.reduceChunk r clockwise vals else s.setReduction { r with inbox := r.inbox ++ [(clockwise, vals)] }

/-- A half has waited longer than REDUCE_TIMEOUT_US for a stage's chunk (R210). -/
def RedHalf.late (h : RedHalf) (m limit now : Nat) : Bool := !h.done m && h.sinceNs + limit ≤ now

/-- REDUCE_TIMEOUT (R210): a chunk overdue by REDUCE_TIMEOUT_US ends the die's segment. -/
def execReduceTimeout (id : Nat) (s : State) : Host.Outcome State Fault Refusal :=
  gate s fun s =>
    match s.cmp.reductions.find? fun x => x.id = id with
    | none => s
    | some r =>
      let limit := usec (s.field Reg.kvsAttn 47 32)
      if !r.started || !(r.cw.late r.count limit s.now || r.ccw.late r.count limit s.now) then s
      else
        let s := { s with cmp.reductions := s.cmp.reductions.filter fun (x : Reduction) => x.id ≠ id }
        if (s.die r.die).state = .idle then s else s.faultSegment r.die Code.reduceTimeout 0 255

/-! ### Ring prefill (R211 to R217) -/

/-- The next ring position's module. -/
def State.nextModule (s : State) : Nat :=
  s.comp.map.peers.getD ((s.comp.map.ringPos + 1) % s.comp.map.modules) 0

/-- The chunks of ring position m (R212): first position and length of chunks m and 2M − 1 − m. -/
def ringChunks (p0 n modules m : Nat) : List (Nat × Nat) :=
  let c := n / (2 * modules)
  [(p0 + c * m, c), (p0 + c * (2 * modules - 1 - m), c)]

/-- The pieces of a run of positions, of at most 4,096 rows. -/
def ringPieces (x : Nat × Nat) : List (Nat × Nat) :=
  (List.range (ceilDiv x.2 4096)).map fun i => (x.1 + 4096 * i, min 4096 (x.2 - 4096 * i))

/-- A visiting-list entry as its words (R214). -/
def visitWords (pos rows head kind k v : Nat) (scales : Word) : List Word :=
  [fld 63 32 pos ||| fld 31 19 rows ||| fld 18 12 head ||| fld 11 10 kind, fld 28 0 k, fld 28 0 v, scales]

/-- The new rows of a module's own chunks for every KV head of the model (R213): position, rows and head. -/
def State.newRows (s : State) (model p0 n : Nat) : List (Nat × Nat × Nat) :=
  (ringChunks p0 n s.comp.map.modules s.comp.map.ringPos).flatMap fun c =>
    (List.range (s.kvHeads model)).flatMap fun h => (ringPieces c).map fun x => (x.1, x.2, h)

/-- The earlier blocks of a module's own heads (R213): span and local head. -/
def State.oldBlocks (s : State) (model first p0 : Nat) : List (Nat × Nat) :=
  ((List.range (p0 / 256 - first)).map (first + ·)).flatMap fun n => (List.range (s.heads model)).map fun h => (n, h)

/-- Copy the earlier blocks into the larder at the places given: their entries, or the code of the first that cannot be read. -/
def ringBlocks (die slot layer : Nat) : List ((Nat × Nat) × Nat × Nat) → State → Except Nat (List Word) × State
  | [], s => (.ok [], s)
  | ((n, h), k, _) :: xs, s =>
    let m := (s.dir slot).model
    let bytes := 512 * s.headDim m
    let b := layer * s.heads m + h
    match s.getBytes die (s.blockAddr slot n layer h) bytes with
    | (.error c, s) => (.error c, s)
    | (.ok bs, s) =>
      let r := s.side slot n b
      match ringBlocks die slot layer xs (s.writeBytes (larderAddr die k) bs) with
      | (.ok ws, s) =>
        (.ok (visitWords (256 * n) 256 (s.heads m * s.comp.map.ringPos + h) 0 k 0 (fld 63 32 r.vScale.toNat ||| fld 31 0 r.kScale.toNat) ++ ws), s)
      | e => e

/-- The entries of a visiting set, four words each. -/
def setEntries (set : List Word) : List (List Word) := chunksOf 4 set

/-- The MODE = 0 descriptors that deposit the new rows of this module's own KV heads in a set (R215). -/
def State.deposits (s : State) (session : Word) (model layer tally : Nat) (set : List Word) : List Item :=
  (setEntries set).filterMap fun e =>
    let w := e.getD 0 0
    let h := bits w 18 12
    if bits w 11 10 = 1 && h / s.heads model = s.comp.map.ringPos then
      some { w0 := session
             w1 := fld 63 32 (bits w 63 32) ||| fld 31 19 (bits w 31 19) ||| fld 18 11 layer ||| fld 10 7 (h % s.heads model)
             w2 := fld 28 0 (bits (e.getD 1 0) 28 0), w3 := fld 28 0 (bits (e.getD 2 0) 28 0), w4 := fld 11 0 tally }
    else none

/-- The rows and blocks of a set travel with its entries into the next module's larder, at the same offsets (R213). -/
def State.sendSet (s : State) (die model tally : Nat) (set : List Word) : State :=
  let dim := s.headDim model
  (setEntries set).foldl (fun s e =>
    let k := bits (e.getD 1 0) 28 0
    let v := bits (e.getD 2 0) 28 0
    let n := 2 * bits (e.getD 0 0) 31 19 * dim
    let put := fun (s : State) (off : Nat) => s.sendRing true (8 * die) die (off / 128) tally (s.readBytes (larderAddr die off) n)
    if bits (e.getD 0 0) 11 10 = 1 then put (put s k) v else put s k) s

/-- The visiting set of a round (R213): a module's own in round 0, the new rows of its chunks and the earlier blocks of its heads; in
a later round the set that has come. -/
def State.ringSet (s : State) (die slot layer round first : Nat) (e : BatchEntry) (set : List Word) (offs : List (Nat × Nat)) :
    Except Nat (List Word) × State :=
  if round ≠ 0 then (.ok set, s)
  else
    let model := (s.dir slot).model
    let news := s.newRows model e.pos e.qn
    let mine := (news.zip offs).flatMap fun x => visitWords x.1.1 x.1.2.1 x.1.2.2 1 x.2.1 x.2.2 0
    match ringBlocks die slot layer ((s.oldBlocks model first e.pos).zip (offs.drop news.length)) s with
    | (.ok ws, s) => (.ok (mine ++ ws), s)
    | r => r

/-- RING_PREFILL_ROUND (R212, R213, R215, R217): in round 0 the module forms its own visiting set, the BF16 rows of its two chunks,
which stand in its larder at the offsets given, and the earlier blocks of its own heads, which it copies there; in a later round the set
of the module before is here.  It deposits the new rows of its own heads, by descriptors that it writes to the larder, and sends the
set on unless the round is the last. -/
def execRingPrefillRound (die : Fin 4) (slot layer round first tally : Nat) (set : List Word) (offs : List (Nat × Nat)) (la : BitVec 22)
    (s : State) : Host.Outcome State Fault Refusal :=
  gate s fun s =>
    let m := s.comp.map.modules
    let n := die.val
    let model := (s.dir slot).model
    let cur := (s.cmp.rings.find? fun x => x.slot = slot && x.layer = layer).map (·.round)
    match s.fw.cur.bind fun r => r.batch.find? fun e => e.kind = .ring && hSlot e.session = slot with
    | none => s
    | some e =>
      if s.partLocal model || s.layers model ≤ layer || m ≤ round || cur.getD 0 ≠ round then s
      else
        match s.ringSet n slot layer round first e set offs with
        | (.error c, s) => { s with cmp.fails := s.cmp.fails ++ [(e.session, c)] }
        | (.ok set, s) =>
          let ds := s.deposits e.session model layer tally set
          let s := ds.zipIdx.foldl (fun s x => s.writeWords (larderAddr n (128 * la.toNat + 64 * x.2)) x.1.words) s
          let s := scatterLoop n (128 * la.toNat) none (List.range ds.length) s
          let rest := s.cmp.rings.filter fun x => !(x.slot = slot && x.layer = layer)
          let s := { s with cmp.rings := rest ++ [RingRound.mk slot layer (round + 1) set] }
          if round + 1 = m then s
          else (s.sendSet n model tally set).send s.nextModule 3 (.words 18 (e.session :: BitVec.ofNat 64 (layer * 256 + round + 1) :: set))

/-- Every layer of a ring prefill is deposited on this module (R217). -/
def State.ringDone (s : State) (slot : Nat) : Bool :=
  (List.range (s.layers (s.dir slot).model)).all fun l =>
    s.cmp.rings.any fun x => x.slot = slot && x.layer = l && x.round = s.comp.map.modules

end Sys2Proof.Machine
end

