-- ==== Sys2Proof/Machine/Boot.lean ====
section
/-! DEFINITION. Resets, power events and the boot sequence (R51, R708 to R719, R738 to R743, R753, R754). -/

namespace Sys2Proof.Machine

open Sys2Proof

/-- A time that outlives a restart of the time base at 0. -/
def SettBlock.rebase (x : SettBlock) (now : Nat) : SettBlock := { x with writtenNs := x.writtenNs.map (· - (now : Int)) }

/-- What a POWER_ON or MODULE reset leaves: the fuses, the sett boot area, the sett's contents and translation layer (R623),
what lies outside the module (the pool), and the model's own queue, output and free-value counter (R51, R709).  The time base
starts again at 0 (R18, R680). -/
def State.cleared (s : State) (rails : Bool) (stage cause : Nat) : State :=
  { pending := s.pending, free := s.free, out := s.out
    mem := s.mem.filter fun c => c.1 / 2 ^ 64 = 2 || c.1 / 2 ^ 64 = 3
    sett := { place := s.sett.place, blocks := s.sett.blocks.map fun x => (x.1, x.2.rebase s.now), count := s.sett.count, spares := s.sett.spares,
              failedDies := s.sett.failedDies, lost := s.sett.lost, rebuilding := s.sett.rebuilding }
    plat := {
      rails := rails, stage := stage, cause := cause, low := s.plat.low, latched := s.plat.latched
      vinEn := s.plat.vinEn, resetHeld := s.plat.resetHeld, inhibit := s.plat.inhibit
      array := s.plat.array, fuses := s.plat.array, bankA := s.plat.bankA, bankB := s.plat.bankB
      activeBank := s.plat.activeBank, tryBank := s.plat.tryBank, straps := s.plat.straps, secretMade := s.plat.secretMade } }

/-- Every rail off: all state that is not retained is lost (R51). -/
def State.railsOff (s : State) : State := s.cleared false 0 0

/-- The power stage starts: the beginning of a POWER_ON sequence (R714). -/
def State.powerUp (s : State) : State := s.cleared false 0 0

/-- POWER_ON (R708, R714, R740): the input rises above 46 V after being below 40 V.  The power stage starts only while
VIN_EN is made (R741). -/
def execPowerOn (s : State) : Host.Outcome State Fault Refusal :=
  .next (if s.plat.low then
    { s with plat.low := false, plat.latched := false, plat.inhibit := false, plat.railFails := 0 }.powerUp else s)

/-- MODULE_RESET (R708, R709): RESET_N low for 10 µs; the rails stay up and the sequence starts at the fuse reading once
RESET_N is released. -/
def execModuleReset (s : State) : Host.Outcome State Fault Refusal :=
  .next (if s.plat.rails then { s with plat.resetHeld := true }.cleared true 0 1 else { s with plat.resetHeld := true })

/-- RESET_N_RELEASE (R753): RESET_N has been high for 1 ms; the held sequence may continue. -/
def execResetNRelease (s : State) : Host.Outcome State Fault Refusal :=
  .next { s with plat.resetHeld := false }

/-- UNDERVOLTAGE (R738): every rail off at once. -/
def execUndervoltage (s : State) : Host.Outcome State Fault Refusal :=
  .next { s with plat.low := true, plat.inhibit := true }.railsOff

/-- A latched shutdown (R740): off until the input has been below 40 V and above 46 V again. -/
def State.shutdown (s : State) : State := { s with plat.latched := true }.railsOff

/-- LOW_SUSTAINED (R738): 40 to 46 V for more than 10 ms. -/
def execLowSustained (s : State) : Host.Outcome State Fault Refusal := .next s.shutdown

/-- OVERVOLTAGE (R738). -/
def execOvervoltage (s : State) : Host.Outcome State Fault Refusal := .next s.shutdown

/-- PROGRAM_INHIBIT (R743): below 44 V the NAND controller starts no new program. -/
def execProgramInhibit (s : State) : Host.Outcome State Fault Refusal := .next { s with plat.inhibit := true }

/-- VIN_EN_MAKE (R741, R754): with the input present and no latched shutdown the power stage starts. -/
def execVinEnMake (s : State) : Host.Outcome State Fault Refusal :=
  .next (if s.plat.vinEn then s
    else if s.plat.low || s.plat.latched then { s with plat.vinEn := true }
    else { s with plat.vinEn := true }.powerUp)

/-- VIN_EN_BREAK (R754): the power stage stops before the blades part. -/
def execVinEnBreak (s : State) : Host.Outcome State Fault Refusal := .next { s with plat.vinEn := false }.railsOff

/-- Power is being applied and the rails are not yet up. -/
def State.ramping (s : State) : Bool :=
  !s.plat.rails && s.plat.vinEn && !s.plat.low && !s.plat.latched && s.plat.railRetryAt.isNone && s.plat.railFails < 3

/-- RAIL_WINDOW_TIMEOUT (R715): a group out of its window turns every rail off; a retry follows after 1 s, and after three
failures the module stays off with RAIL_FAULT. -/
def execRailWindowTimeout (s : State) : Host.Outcome State Fault Refusal :=
  .next (if !s.ramping then s
    else
      let n := s.plat.railFails + 1
      let s := s.railsOff
      if n < 3 then { s with plat.railFails := n, plat.railRetryAt := some (s.now + 10 ^ 9) }
      else { s with plat.railFails := n, plat.stage := 15, plat.failCode := Code.railFault, host.fatal := true,
                    host.fatalCode := Code.railFault })

/-- RAIL_RETRY (R715): one second later the power-up is tried again. -/
def execRailRetry (s : State) : Host.Outcome State Fault Refusal :=
  .next (match s.plat.railRetryAt with
    | none => s
    | some t => if s.now < t then s else { s with plat.railRetryAt := none })

/-- PWRGD is released while every rail is in its window, and stays so after THERMAL_TRIP; PRSNT_N is tied to ground (R751, R758). -/
def State.pwrgd (s : State) : Bool := s.plat.rails
def prsntN : Bool := false

/-! ### Fuses and measurements (R716, R720 to R724) -/

/-- A run of fuse bits as read. -/
def State.fuseBits (s : State) (hi lo : Nat) : Nat :=
  sumNat ((List.range (hi - lo + 1)).map fun i => bnat (s.fuse (lo + i)) * 2 ^ i)

/-- SVN_FUSED: the blown bits among 863:800. -/
def State.svnFused (s : State) : Nat := ((List.range 64).filter fun i => s.fuse (800 + i)).length

/-- Extend a measurement register (R724): none when the log is full. -/
def State.extend (s : State) (reg kind : Nat) (d : BitVec 384) : Option State :=
  if 256 ≤ s.plat.measLog.length then none
  else
    let m := SMap.get 0 s.plat.meas reg
    let h := Config.sha384 (leBytes m.toNat 48 ++ leBytes d.toNat 48)
    some { s with plat.meas := SMap.put s.plat.meas reg h, plat.measLog := s.plat.measLog ++ [MeasEvent.mk reg kind d] }

/-- The start of boot, when the log is empty: an extension that always finds room. -/
def State.extendD (s : State) (reg kind : Nat) (d : BitVec 384) : State := (s.extend reg kind d).getD s

/-- A boot failure: stage FAILED, FATAL with the code (R714, R732). -/
def State.bootFail (s : State) (code : Nat) : State :=
  { s.moduleFault code 0 with plat.stage := 15, plat.failCode := code }

/-- The tile maps as the repair fuses give them (R252, R720): a later valid entry overrides an earlier one. -/
def State.loadTileMaps (s : State) : State :=
  let s := (List.range 128).foldl (fun s i =>
    s.setField (Reg.tileMap (i / 8)) (8 * (i % 8) + 5) (8 * (i % 8)) (i % 32)) s
  (List.range 32).foldl (fun s i =>
    let e := s.fuseBits (1035 + 12 * i) (1024 + 12 * i)
    let die := i / 8
    let t := e / 64 % 32
    s.iff (2048 ≤ e) fun s => s.setField (Reg.tileMap (4 * die + t / 8)) (8 * (t % 8) + 5) (8 * (t % 8)) (e % 64)) s

/-- Put fuse words into the registers that show them; the words of DEVICE_SECRET read 0 (R734). -/
def State.loadFuses (s : State) : State := { s with plat.fuses := s.plat.array }

/-! ### Choice of bank (R712) -/

def State.bank (s : State) (b : Nat) : Bank := if b = 0 then s.plat.bankA else s.plat.bankB

/-- Fields of a firmware image's header (R711). -/
def fwSvn (bs : List Byte) : Nat := bits (wordAt bs 0) 7 0
def fwSigOff (bs : List Byte) : Nat := bits (wordAt bs 8) 31 0
def fwVersion (bs : List Byte) : BitVec 32 := BitVec.ofNat 32 (bits (wordAt bs 16) 31 0)

/-- A firmware image's header is valid for a component (R711): the image ends with its signature block. -/
def fwHeaderOk (component : Nat) (bs : List Byte) : Bool :=
  bits (wordAt bs 0) 63 48 = 0xF17E && bits (wordAt bs 0) 47 32 = 1 && bits (wordAt bs 0) 31 16 = component && fwSvn bs ≤ 64 &&
    bs.length ≤ 8388608 && bits (wordAt bs 8) 63 32 = bs.length && 0x40 ≤ fwSigOff bs && fwSigOff bs + 256 = bs.length

/-- The signature block at an offset (R640): the key's SHA-384 is the hash in fuses, and the signature over the bytes before the block
verifies. -/
def State.signed (s : State) (bs : List Byte) (off : Nat) : Bool :=
  let block := bs.drop off
  let key := block.take 97
  Config.sha384 key = BitVec.ofNat 384 (s.fuseBits 383 0) && ((block.drop 0x61).take 7).all (· = 0) && (block.drop 0xC8).all (· = 0) &&
    Config.ecdsaOk key ((block.drop 0x68).take 96) (Config.sha384 (bs.take off))

/-- Everything but the SVN check of an image: 1 the control firmware, 2 the service library (R711, R712). -/
def State.imageOk (s : State) (component : Nat) (bs : List Byte) : Bool := fwHeaderOk component bs && s.signed bs (fwSigOff bs)

/-- Both images of a bank pass but for their SVN, from some copy that reads. -/
def State.bankReads (s : State) (b : Nat) : Bool :=
  (s.bank b).copies.any (· = true) && s.imageOk 1 (s.bank b).control && s.imageOk 2 (s.bank b).service

/-- Does a bank verify: some copy reads, and both images pass? -/
def State.bankOk (s : State) (b : Nat) : Bool :=
  s.bankReads b && s.svnFused ≤ fwSvn (s.bank b).control && s.svnFused ≤ fwSvn (s.bank b).service
/-- Does a bank fail the SVN check alone? -/
def State.bankOld (s : State) (b : Nat) : Bool := s.bankReads b && !s.bankOk b

/-- The boot ROM's choice: the bank, and the state with a refused TRY bank cleared; none when no copy verifies. -/
def State.chooseBank (s : State) : Option Nat × Nat × State :=
  let rolled := fun (bs : List Nat) => if bs.any s.bankOld then Code.rollback else Code.bootFwInvalid
  match s.plat.tryBank with
  | none => if s.bankOk s.plat.activeBank then (some s.plat.activeBank, 0, s) else (none, rolled [s.plat.activeBank], s)
  | some t =>
    if s.bankOk t then (some t, 0, s)
    else
      let s' := { s with plat.tryFailed := true, plat.tryBank := none }
      if s.bankOk s.plat.activeBank then (some s.plat.activeBank, 0, s') else (none, rolled [t, s.plat.activeBank], s')

/-- CLOCKS_LOCKED (R714, R716, R252, R712, R723): the X-dies leave reset, fuses are read, tile maps loaded, registers 0 and
2 extended, and the ROM chooses and measures a bank; DRAM training then starts. -/
def execClocksLocked (agree : Bool) (rom : BitVec 384) (s : State) : Host.Outcome State Fault Refusal :=
  .next (if s.plat.stage ≠ 0 || s.plat.resetHeld || !(s.plat.rails || s.ramping) then s
    else
      let s := { s with plat.rails := true, plat.stage := 1, plat.romNs := s.now }
      if !agree then s.bootFail Code.fuseMismatch
      else
        let s := s.loadFuses.loadTileMaps
        let fz := (List.range 22).flatMap fun i =>
          if 6 ≤ i && i < 10 then [] else leBytes (SMap.get 0 s.plat.fuses i).toNat 8
        let s := (s.extendD 0 0 rom).extendD 2 2 (Config.sha384 fz)
        let r := s.chooseBank
        match r.1 with
        | none => r.2.2.bootFail r.2.1
        | some b =>
          let s := r.2.2
          let k := s.bank b
          let s := (s.extendD 1 1 (Config.sha384 k.control)).extendD 3 3 (Config.sha384 k.service)
          { s with plat.bootBank := b, plat.fwVersion := Sys2Proof.Machine.fwVersion k.control, plat.stage := 3 })

/-- DRAM_TRAINING_DONE (R615, R616, R714, R717): training and Write X have passed and firmware maps its boot region, or DRAM_TRAIN fails the module and
DRAM.ERRLOG names the channel and the step. -/
def execDramTrainingDone (ok : Bool) (channel : Fin 128) (failStep : Fin 7) (s : State) : Host.Outcome State Fault Refusal :=
  .next (if s.plat.stage ≠ 3 then s
    else if ok then
      let s := s.setReg Reg.dramStatus (setBits (setBits (s.reg Reg.dramStatus) 15 8 128) 0 0 1)
      { s with plat.stage := 4, tsm.boot := true }
    else
      (s.setReg Reg.dramErrlog (fld 63 63 1 ||| fld 62 60 failStep.val ||| fld 59 53 channel.val)).bootFail Code.dramTrain)

/-- A tile that failed self-test: fenced, and its logical tile remapped to a spare where one remains (R253, R254). -/
def State.selftestTile (s : State) (die phys : Nat) : State :=
  let s := (s.fenceTile die phys).bump (Reg.pltCnt 5)
  let t := (List.range 32).find? fun t => s.physTile die t = some phys
  let sp := (List.range 34).find? fun p => !s.tileFenced die p && (List.range 32).all fun t => s.physTile die t ≠ some p
  match t, sp with
  | some t, some p => s.bindTile die t p
  | _, _ => s

/-- SELFTEST_DONE (R718, R719): failed tiles are fenced and remapped, failed units marked; a failed larder, stream buffer
or known-answer test fails the module. -/
def execSelftestDone (tiles : List (Fin 4 × Fin 34)) (larderOk knownOk : Bool) (units : List (Fin 8)) (s : State) :
    Host.Outcome State Fault Refusal :=
  .next (if s.plat.stage ≠ 4 then s
    else
      let s := tiles.foldl (fun s x => s.selftestTile x.1.val x.2.val) s
      if !larderOk || !knownOk then s.bootFail Code.selftestFailed
      else
        let s := units.foldl (fun s u => s.setField Reg.fltUnits u.val u.val 1) s
        { s with plat.stage := 5 })

/-- Blow fuse bits. -/
def blowBits (a : SMap Word) (bs : List Nat) : SMap Word :=
  bs.foldl (fun a i => SMap.set 0 a (i / 64) (setBits (SMap.get 0 a (i / 64)) (i % 64) (i % 64) 1)) a

/-- TRY_BANK_PROVEN (R713): the TRY bank becomes ACTIVE, and SVN fuse bits are blown up to the larger SVN of its images. -/
def State.proveTry (s : State) : State :=
  match s.plat.tryBank with
  | none => s
  | some t =>
    if t ≠ s.plat.bootBank then s
    else
      let k := s.bank t
      let want := max (fwSvn k.control) (fwSvn k.service) - s.svnFused
      let free := ((List.range 64).map (800 + ·)).filter fun i => !s.fuse i
      { s with plat.activeBank := t, plat.tryBank := none, plat.array := blowBits s.plat.array (free.take want),
               plat.fuses := blowBits s.plat.fuses (free.take want) }

/-- BOOT_WATCHDOG (R713): a TRY bank not at stage 0x6 within 10 s of the start of the ROM causes a MODULE reset that boots
with the TRY bank cleared; BOOT_TIMEOUT is recorded. -/
def execBootWatchdog (s : State) : Host.Outcome State Fault Refusal :=
  .next (if s.plat.tryBank = some s.plat.bootBank && 1 ≤ s.plat.stage && s.plat.stage < 6
      && s.plat.romNs + 10 * 10 ^ 9 ≤ s.now then
    let s := { s with plat.tryBank := none }.cleared true 0 1
    { s with plat.tryFailed := true, plat.failCode := Code.bootTimeout }
  else s)

end Sys2Proof.Machine
end

