-- ==== Sys2Proof/Machine/TextImage.lean ====
section
/-! DEFINITION. The images of the text unit as bytes: vocabularies with their tries (R431 to R434) and grammar automata (R450 to R452). -/

namespace Sys2Proof.Machine

open Sys2Proof

/-! ### Vocabulary images (R431) -/

/-- A vocabulary image: its bytes. -/
structure Vocab where
  img : List Byte := []
  deriving DecidableEq, Repr, Inhabited

namespace Vocab

/-- Word i of the header. -/
def w (v : Vocab) (i : Nat) : Word := wordAt v.img (8 * i)
def entries (v : Vocab) : Nat := bits (v.w 0) 31 0
def fallbackScore (v : Vocab) : BitVec 32 := BitVec.ofNat 32 (bits (v.w 1) 63 32)
def norm (v : Vocab) : Nat := bits (v.w 1) 31 30
def nfc (v : Vocab) : Bool := v.norm = 1
def byteFallback (v : Vocab) : Bool := bit (v.w 1) 29
def presplit (v : Vocab) : Bool := bit (v.w 1) 28
def addPrefix (v : Vocab) : Bool := bit (v.w 1) 27
def showControl (v : Vocab) : Bool := bit (v.w 1) 26
def spaceMark (v : Vocab) : Nat := bits (v.w 1) 20 0
def strOff (v : Vocab) : Nat := bits (v.w 2) 63 32
def strBytes (v : Vocab) : Nat := bits (v.w 2) 31 0
def trieOff (v : Vocab) : Nat := bits (v.w 3) 63 32
def trieNodes (v : Vocab) : Nat := bits (v.w 3) 31 0
def ctrlOff (v : Vocab) : Nat := bits (v.w 4) 63 32
def ctrlNodes (v : Vocab) : Nat := bits (v.w 4) 31 0
def unk (v : Vocab) : Nat := bits (v.w 5) 63 46
def eos (v : Vocab) : Nat := bits (v.w 5) 45 28
def byteBase (v : Vocab) : Nat := bits (v.w 5) 27 10
def entryOff (v : Vocab) : Nat := bits (v.w 6) 63 32
def size (v : Vocab) : Nat := bits (v.w 6) 31 0

end Vocab

/-- KIND of a token entry (R432). -/
inductive TokKind where
  | normal | control | byte | reserved
  deriving DecidableEq, Repr, Inhabited

def TokKind.ofCode : Nat → TokKind
  | 0 => .normal
  | 1 => .control
  | 2 => .byte
  | _ => .reserved

/-- A token entry (R432) with its string. -/
structure VocabEntry where
  score : BitVec 32 := 0
  str : List Byte := []
  kind : TokKind := .normal
  deriving DecidableEq, Repr, Inhabited

/-- The two words of token t's entry. -/
def Vocab.entryWords (v : Vocab) (t : Nat) : Word × Word :=
  (wordAt v.img (v.entryOff + 16 * t), wordAt v.img (v.entryOff + 16 * t + 8))

/-- The entry of token t; none at or above ENTRIES. -/
def Vocab.entry? (v : Vocab) (t : Nat) : Option VocabEntry :=
  if v.entries ≤ t then none
  else
    let e := v.entryWords t
    some { score := BitVec.ofNat 32 (bits e.1 63 32)
           str := (v.img.drop (v.strOff + bits e.1 31 0)).take (bits e.2 63 56)
           kind := .ofCode (bits e.2 55 54) }

def Vocab.kind? (v : Vocab) (t : Nat) : Option TokKind := (v.entry? t).map (·.kind)

/-! ### Tries (R433) -/

/-- A node of a trie. -/
structure TrieNode where
  first : Nat := 0
  children : Nat := 0
  label : Nat := 0
  token : Nat := 0
  term : Bool := false
  deriving DecidableEq, Repr, Inhabited

/-- Node n of the trie at an offset of an image. -/
def trieNode (img : List Byte) (off n : Nat) : TrieNode :=
  let a := wordAt img (off + 16 * n)
  let b := wordAt img (off + 16 * n + 8)
  { first := bits a 63 32, children := bits a 31 23, label := bits a 22 15, token := bits b 63 46, term := bit b 45 }

/-- The child of a node along a byte: among its CHILDREN consecutive nodes. -/
def trieChild (img : List Byte) (off : Nat) (n : TrieNode) (b : Byte) : Option TrieNode :=
  ((List.range n.children).map fun i => trieNode img off (n.first + i)).find? fun c => c.label = b.toNat

/-- Walk from a node: the tokens of the TERM nodes on the path a byte string spells, each with the bytes it takes. -/
def trieWalk (img : List Byte) (off : Nat) : TrieNode → Nat → List Byte → List (Nat × Nat)
  | n, k, [] => if n.term then [(n.token, k)] else []
  | n, k, b :: bs =>
    (if n.term then [(n.token, k)] else []) ++
      match trieChild img off n b with
      | none => []
      | some c => trieWalk img off c (k + 1) bs

/-- The piece whose string is `bs` (R441). -/
def Vocab.piece (v : Vocab) (bs : List Byte) : Option Nat :=
  ((trieWalk v.img v.trieOff (trieNode v.img v.trieOff 0) 0 bs).find? fun x => x.2 = bs.length && 0 < x.2).map (·.1)

/-- A control-token string stands at the start of `bs` (R439). -/
def Vocab.controlAt (v : Vocab) (bs : List Byte) : Bool :=
  v.ctrlNodes ≠ 0 && (trieWalk v.img v.ctrlOff (trieNode v.img v.ctrlOff 0) 0 bs).any fun x => 0 < x.2

/-- Every node of a trie keeps within it, and its TERM nodes name entries of one kind. -/
def Vocab.trieOk (v : Vocab) (off nodes : Nat) (k : TokKind) : Bool :=
  (List.range nodes).all fun i =>
    let n := trieNode v.img off i
    n.children ≤ 256 && (n.children = 0 || n.first + n.children ≤ nodes) && (!n.term || v.kind? n.token = some k)

/-- The load checks of R434 and the field ranges of R431 to R433, on a body that stands at `dest`. -/
def Vocab.ok (v : Vocab) (dest : Nat) : Bool :=
  let inside := fun (o n : Nat) => o % 16 = 0 && o + n ≤ v.size
  dest % 65536 = 0 && bits (v.w 0) 63 48 = 0x70CA && bits (v.w 0) 47 32 = 1 && 64 ≤ v.size && v.size ≤ v.img.length &&
    imageCrc v.img v.size 0x38 = BitVec.ofNat 32 (bits (v.w 7) 31 0) && 1 ≤ v.entries && v.entries ≤ 262144 && v.norm ≤ 1 &&
    1 ≤ v.trieNodes && v.trieNodes ≤ 16777216 && inside v.strOff v.strBytes && inside v.trieOff (16 * v.trieNodes) &&
    (v.ctrlNodes = 0 || inside v.ctrlOff (16 * v.ctrlNodes)) && inside v.entryOff (16 * v.entries) &&
    ((List.range v.entries).all fun t =>
      let e := v.entryWords t
      bits e.1 31 0 + bits e.2 63 56 ≤ v.strBytes && bits e.2 55 54 ≤ 2) &&
    v.unk < v.entries && v.eos < v.entries && v.kind? v.unk = some .normal &&
    (!v.byteFallback || (List.range 256).all fun i =>
      match v.entry? (v.byteBase + i) with
      | some e => e.kind = .byte && e.str.length = 1
      | none => false) &&
    v.trieOk v.trieOff v.trieNodes .normal && v.trieOk v.ctrlOff v.ctrlNodes .control

/-! ### Grammar automata (R450 to R452) -/

/-- OP of a transition (R452). -/
inductive GramOp where
  | goto | call | ret | reserved
  deriving DecidableEq, Repr, Inhabited

def GramOp.ofCode : Nat → GramOp
  | 0 => .goto
  | 1 => .call
  | 2 => .ret
  | _ => .reserved

/-- A transition entry (R452); TOP 0xFFFF is none. -/
structure GramTrans where
  first : Nat := 0
  last : Nat := 0
  op : GramOp := .goto
  target : Nat := 0
  push : Nat := 0
  top : Option Nat := none
  deriving DecidableEq, Repr, Inhabited

/-- An automaton image (R450): its bytes. -/
structure Grammar where
  img : List Byte := []
  deriving DecidableEq, Repr, Inhabited

namespace Grammar

def w (g : Grammar) (i : Nat) : Word := wordAt g.img (8 * i)
def states (g : Grammar) : Nat := bits (g.w 0) 31 16
def start (g : Grammar) : Nat := bits (g.w 0) 15 0
def transCount (g : Grammar) : Nat := bits (g.w 1) 63 32
def bitmaps (g : Grammar) : Nat := bits (g.w 1) 31 0
def stateOff (g : Grammar) : Nat := bits (g.w 2) 63 32
def transOff (g : Grammar) : Nat := bits (g.w 2) 31 0
def bitmapOff (g : Grammar) : Nat := bits (g.w 3) 63 32
def size (g : Grammar) : Nat := bits (g.w 4) 63 32

/-- The two words of state q's entry (R451). -/
def stateWords (g : Grammar) (q : Nat) : Word × Word :=
  (wordAt g.img (g.stateOff + 16 * q), wordAt g.img (g.stateOff + 16 * q + 8))
/-- ACCEPT of a state: the grammar may end in it. -/
def accept (g : Grammar) (q : Nat) : Bool := bit (g.stateWords q).1 31

/-- Transition entry i (R452). -/
def transAt (g : Grammar) (i : Nat) : GramTrans :=
  let a := wordAt g.img (g.transOff + 16 * i)
  let b := wordAt g.img (g.transOff + 16 * i + 8)
  { first := bits a 63 46, last := bits a 45 28, op := .ofCode (bits a 27 26), target := bits b 63 48, push := bits b 47 32
    top := if bits b 31 16 = 0xFFFF then none else some (bits b 31 16) }

/-- The entries of a state in table order; a number at or above STATES has none. -/
def trans (g : Grammar) (q : Nat) : List GramTrans :=
  if g.states ≤ q then []
  else (List.range (bits (g.stateWords q).2 31 0)).map fun i => g.transAt (bits (g.stateWords q).2 63 32 + i)

/-- Bytes of a bitmap for a vocabulary of `n` entries (R450). -/
def bitmapBytes (n : Nat) : Nat := ceilDiv n 512 * 64

/-- Bit t of a state's bitmap, bit t mod 8 of byte t / 8; an empty bitmap is all zeros. -/
def bitmapBit (g : Grammar) (n q t : Nat) : Bool :=
  let k := bits (g.stateWords q).1 63 32
  q < g.states && k ≠ 0xFFFFFFFF &&
    (g.img.getD (g.bitmapOff + k * bitmapBytes n + t / 8) 0).getLsbD (t % 8)

/-- The header checks of R450, for a vocabulary of `n` entries. -/
def ok (g : Grammar) (n : Nat) : Bool :=
  bits (g.w 0) 63 48 = 0x6A7A && bits (g.w 0) 47 32 = 1 && 64 ≤ g.size && g.size ≤ g.img.length &&
    imageCrc g.img g.size 0x20 = BitVec.ofNat 32 (bits (g.w 4) 31 0) && 1 ≤ g.states && g.states ≤ 65535 &&
    g.start < g.states && g.stateOff + 16 * g.states ≤ g.size && g.transOff + 16 * g.transCount ≤ g.size &&
    g.bitmapOff + bitmapBytes n * g.bitmaps ≤ g.size

end Grammar

end Sys2Proof.Machine
end

