-- ==== Sys2Proof/Machine/Text.lean ====
section
/-! DEFINITION. The text unit: UTF-8, tokenization, detokenization with stop strings, and grammar automata (R423 to R458).
The computations are functions of images and bytes; the rows that use them follow. -/

namespace Sys2Proof.Machine

open Sys2Proof

/-! ### UTF-8 (R436) -/

/-- A lead byte's number of continuation bytes and the range of the first of them. -/
def utf8Lead (b : Nat) : Option (Nat × Nat × Nat) :=
  if b < 0x80 then some (0, 0x80, 0xBF)
  else if 0xC2 ≤ b && b ≤ 0xDF then some (1, 0x80, 0xBF)
  else if b = 0xE0 then some (2, 0xA0, 0xBF)
  else if b = 0xED then some (2, 0x80, 0x9F)
  else if 0xE1 ≤ b && b ≤ 0xEF then some (2, 0x80, 0xBF)
  else if b = 0xF0 then some (3, 0x90, 0xBF)
  else if 0xF1 ≤ b && b ≤ 0xF3 then some (3, 0x80, 0xBF)
  else if b = 0xF4 then some (3, 0x80, 0x8F)
  else none

/-- How many of the following bytes continue a character: up to `need`, the first in lo to hi. -/
def contCount : Nat → Nat → Nat → List Byte → Nat
  | 0, _, _, _ => 0
  | _, _, _, [] => 0
  | need + 1, lo, hi, b :: bs =>
    if lo ≤ b.toNat && b.toNat ≤ hi then 1 + contCount need 0x80 0xBF bs else 0

/-- A character, or a maximal subpart of an ill-formed sequence; `open_` marks a prefix of a character that the input
ends in. -/
structure Chunk where
  off : Nat := 0
  bytes : List Byte := []
  good : Bool := true
  open_ : Bool := false
  deriving DecidableEq, Repr

/-- The first chunk of a non-empty input. -/
def firstChunk (off : Nat) (b : Byte) (bs : List Byte) : Chunk :=
  match utf8Lead b.toNat with
  | none => { off := off, bytes := [b], good := false }
  | some (need, lo, hi) =>
    let n := contCount need lo hi bs
    { off := off, bytes := b :: bs.take n, good := n = need, open_ := n < need && n = bs.length }

/-- Cut an input into chunks; `fuel` is its length. -/
def utf8Chunks : Nat → Nat → List Byte → List Chunk
  | 0, _, _ => []
  | _, _, [] => []
  | fuel + 1, off, b :: bs =>
    let c := firstChunk off b bs
    c :: utf8Chunks fuel (off + c.bytes.length) (bs.drop (c.bytes.length - 1))

/-- Encode a code point. -/
def utf8Encode (c : Nat) : List Byte :=
  let b := fun (n : Nat) => BitVec.ofNat 8 n
  if c < 0x80 then [b c]
  else if c < 0x800 then [b (0xC0 + c / 64), b (0x80 + c % 64)]
  else if c < 0x10000 then [b (0xE0 + c / 4096), b (0x80 + c / 64 % 64), b (0x80 + c % 64)]
  else [b (0xF0 + c / 262144), b (0x80 + c / 4096 % 64), b (0x80 + c / 64 % 64), b (0x80 + c % 64)]

/-- U+FFFD. -/
def replacement : List Byte := [0xEF, 0xBF, 0xBD]

/-! ### Tokenization (R435 to R442) -/

/-- A character: its bytes, each with the offset of the source byte that produced it. -/
abbrev TChar := List (Byte × Nat)

/-- Runs of characters, and single bytes placed between them (INVALID = BYTES). -/
inductive TextRun where
  | chars (cs : List TChar)
  | byte (b : Byte)
  deriving DecidableEq, Repr

/-- Put a character in front of the runs. -/
def consChar (c : TChar) : List TextRun → List TextRun
  | .chars cs :: rs => .chars (c :: cs) :: rs
  | rs => .chars [c] :: rs

/-- Bytes that all come from one source byte. -/
def allFrom (off : Nat) (bs : List Byte) : TChar := bs.map fun b => (b, off)

/-- INVALID applied to the chunks (R436): the runs and the number replaced, or the code with the offset. -/
def handleInvalid (mode : Nat) : List Chunk → Except (Nat × Nat) (List TextRun × Nat)
  | [] => .ok ([], 0)
  | c :: cs =>
    if c.good then (handleInvalid mode cs).map fun r => (consChar (c.bytes.zipIdx c.off) r.1, r.2)
    else if mode = 2 then .error (Code.textInvalid, c.off)
    else if mode = 1 then (handleInvalid mode cs).map fun r => (c.bytes.map TextRun.byte ++ r.1, r.2)
    else (handleInvalid mode cs).map fun r => (consChar (allFrom c.off replacement) r.1, r.2 + 1)

/-! #### The stream-safe process and NFC (R438)

The algorithms of UAX #15 over the tables of Unicode 15.1.0, which the spec names and does not print (`Config`): combining classes,
decompositions and primary composites. -/

/-- The code point that the bytes of a well-formed character spell. -/
def utf8Decode : List Byte → Nat
  | [a] => a.toNat
  | [a, b] => (a.toNat % 32) * 64 + b.toNat % 64
  | [a, b, c] => (a.toNat % 16) * 4096 + (b.toNat % 64) * 64 + c.toNat % 64
  | [a, b, c, d] => (a.toNat % 8) * 262144 + (b.toNat % 64) * 4096 + (c.toNat % 64) * 64 + d.toNat % 64
  | _ => 0

/-- A code point with the source offset of its character. -/
abbrev CodeAt := Nat × Nat

/-- Does a character start a sequence (combining class 0)? -/
def starter (c : Nat) : Bool := Config.combiningClass c = 0

/-- The stream-safe process: U+034F after every 30 consecutive non-starters, counted over compatibility decompositions; `n` is the
count so far. -/
def streamSafe : Nat → List CodeAt → List CodeAt
  | _, [] => []
  | n, c :: cs =>
    let d := Config.compatDecomp c.1
    let lead := (d.takeWhile fun x => !starter x).length
    let trail := (d.reverse.takeWhile fun x => !starter x).length
    let cut := 30 < n + lead
    let n := if cut then 0 else n
    let rest := c :: streamSafe (if d.any starter then trail else n + d.length) cs
    if cut then (0x34F, c.2) :: rest else rest

/-- Put a character into a decomposed text, listed last first, in canonical order: marks of one run rise in class and keep their
order within a class. -/
def orderMark (x : CodeAt) : List CodeAt → List CodeAt
  | [] => [x]
  | y :: ys =>
    if !starter x.1 && Config.combiningClass x.1 < Config.combiningClass y.1 then y :: orderMark x ys else x :: y :: ys

/-- Canonical decomposition in canonical order. -/
def canonical (cs : List CodeAt) : List CodeAt :=
  ((cs.flatMap fun c => (Config.canonDecomp c.1).map fun x => (x, c.2)).foldl (fun acc x => orderMark x acc) []).reverse

/-- Canonical composition: `done` before the last starter, then the starter, then the marks after it, both listed last first. -/
def composeFrom (done : List CodeAt) (st : Option CodeAt) (marks : List CodeAt) : List CodeAt → List CodeAt
  | [] => done.reverse ++ st.toList ++ marks.reverse
  | c :: cs =>
    match st with
    | none => if starter c.1 then composeFrom done (some c) [] cs else composeFrom (c :: done) none [] cs
    | some b =>
      let free := match marks with
        | [] => true
        | m :: _ => decide (Config.combiningClass m.1 < Config.combiningClass c.1)
      match if free then Config.primaryComposite b.1 c.1 else none with
      | some p => composeFrom done (some (p, b.2)) marks cs
      | none =>
        if starter c.1 then composeFrom (marks ++ b :: done) (some c) [] cs else composeFrom done st (c :: marks) cs

/-- Step 4 of R435 on a run; text below U+0080 is its own NFC. -/
def normalizeRun (v : Vocab) (cs : List TChar) : List TChar :=
  if !v.nfc || cs.all (fun c => c.all fun b => b.1.toNat < 0x80) then cs
  else
    let codes := cs.map fun c => (utf8Decode (c.map (·.1)), (c.headD (0, 0)).2)
    (composeFrom [] none [] (canonical (streamSafe 0 codes))).map fun c => allFrom c.2 (utf8Encode c.1)

/-- Step 5 of R435: spaces become SPACE_MARK. -/
def markSpaces (v : Vocab) (cs : List TChar) : List TChar :=
  if v.spaceMark = 0 then cs
  else cs.map fun c => if c.map (·.1) = [0x20] then allFrom ((c.headD (0, 0)).2) (utf8Encode v.spaceMark) else c

/-- The source offset of the first byte at which a control string occurs. -/
def findControl (v : Vocab) : List (Byte × Nat) → Option Nat
  | [] => none
  | b :: bs => if v.controlAt (b.1 :: bs.map (·.1)) then some b.2 else findControl v bs

/-- Segments of R440: before each SPACE_MARK with PRESPLIT, and at most 8,192 bytes. -/
def segments (v : Vocab) : List (List Byte) → List (List Byte) → Nat → List (List (List Byte))
  | [], [], _ => []
  | [], cur, _ => [cur.reverse]
  | c :: cs, cur, n =>
    let cut := !cur.isEmpty && ((v.presplit && v.spaceMark ≠ 0 && c = utf8Encode v.spaceMark) || 8192 < n + c.length)
    if cut then cur.reverse :: segments v cs [c] c.length else segments v cs (c :: cur) (n + c.length)

/-- A boundary of the lattice: its best score and the edge that reached it, as start and tokens (R441). -/
structure LatNode where
  score : F32 := 0
  reached : Bool := false
  start : Nat := 0
  toks : List Nat := []
  deriving DecidableEq, Repr, Inhabited

/-- The fallback edge of a character: its tokens and score. -/
def fallbackEdge (v : Vocab) (c : List Byte) : List Nat × F32 :=
  if v.byteFallback then
    (c.map fun b => v.byteBase + b.toNat, c.tail.foldl (fun a _ => f32Add a v.fallbackScore) v.fallbackScore)
  else ([v.unk], v.fallbackScore)

/-- Offer an edge to a node: taken when strictly better, or when none has been taken yet (an edge that scores −infinity, or a NaN
until a number comes). -/
def offer (best : F32) (sc : F32) (start : Nat) (toks : List Nat) (n : LatNode) : LatNode :=
  let x := f32Add best sc
  if !n.reached || n.score.val.lt x.val || (n.score.val.isNaN && !x.val.isNaN) then { score := x, reached := true, start := start, toks := toks } else n

/-- The node at the boundary after `cs`, from the nodes before it: edges in order of their start, the piece before the
fallback edge. -/
def nodeAt (v : Vocab) (cs : List (List Byte)) (nodes : List LatNode) : LatNode :=
  (List.range cs.length).foldl (fun n i =>
    let str := (cs.drop i).flatMap id
    let best := (nodes.getD i {}).score
    let n := match v.piece str with
      | some p => offer best ((v.entry? p).getD {}).score i [p] n
      | none => n
    if i + 1 = cs.length then
      let f := fallbackEdge v (cs.getD i [])
      offer best f.2 i f.1 n
    else n) {}

/-- The nodes of a segment. -/
def lattice (v : Vocab) (cs : List (List Byte)) : List LatNode :=
  (List.range cs.length).foldl (fun ns j => ns ++ [nodeAt v (cs.take (j + 1)) ns]) [{ reached := true }]

/-- The tokens on the back path from a boundary. -/
def backPath (ns : List LatNode) : Nat → Nat → List Nat
  | 0, _ => []
  | _, 0 => []
  | fuel + 1, j =>
    let n := ns.getD j {}
    backPath ns fuel n.start ++ n.toks

def segmentTokens (v : Vocab) (cs : List (List Byte)) : List Nat := backPath (lattice v cs) cs.length cs.length

/-- Tokens of a run. -/
def runTokens (v : Vocab) : TextRun → List Nat
  | .byte b => [v.byteBase + b.toNat]
  | .chars cs => (segments v (cs.map fun c => c.map (·.1)) [] 0).flatMap (segmentTokens v)

/-- Fields of a text item (R425). -/
structure TextItem where
  src : Nat := 0
  len : Nat := 0
  op : Nat := 0
  vocab : Nat := 0
  escape : Nat := 0
  invalid : Nat := 0
  origin : Nat := 0
  tail : Bool := false
  first : Bool := false
  final : Bool := false
  dst : Nat := 0
  cap : Nat := 0
  stopSet : Nat := 0xFFFF
  grammar : Nat := 0xFFFF
  queue : Nat := 0
  tally : Nat := 0
  deriving DecidableEq, Repr

def TextItem.ofItem (i : Item) : TextItem :=
  { src := i.w2.toNat, len := bits i.w3 63 32, op := bits i.w3 31 28, vocab := bits i.w3 27 24
    escape := bits i.w3 23 22, invalid := bits i.w3 21 20, origin := bits i.w3 19 18, tail := bit i.w3 17
    first := bit i.w3 16, final := bit i.w3 15, dst := i.w4.toNat, cap := bits i.w5 63 32
    stopSet := bits i.w5 31 16, grammar := bits i.w5 15 0, queue := bits i.w6 40 32, tally := bits i.w6 11 0 }

/-- Largest and smallest SRC_LEN of an operation (R425). -/
def textLenOk : Nat → Nat → Bool
  | 0, n => n ≤ 67108864
  | 1, n => n ≤ 4096
  | 2, n => n ≤ 8
  | 3, n => 1 ≤ n && n ≤ 9
  | _, n => n = 0

/-- A reserved operation, 0x7 to 0xF (R426): any row of the unit refuses it. -/
def textReserved (i : Item) : Bool := 7 ≤ (TextItem.ofItem i).op

/-- Reserved values of a text item (R13, R425). -/
def textOk (i : Item) : Bool :=
  let t := TextItem.ofItem i
  textLenOk t.op t.len && t.escape ≤ 1 && t.invalid ≤ 2 && (t.origin = 0 || t.origin = 2)
    && (t.op = 4 || t.grammar = 0xFFFF)

/-- What TOKENIZE found, or the code and offset of its failure. -/
structure Tokenized where
  toks : List Nat := []
  replaced : Nat := 0
  carry : List Byte := []
  fallback : Nat := 0
  deriving DecidableEq, Repr

/-- A byte token or UNK (R464). -/
def isFallback (v : Vocab) (t : Nat) : Bool := t = v.unk || v.kind? t = some .byte

/-- Step 5 of R435: the prefix marker of a session's first input. -/
def addPrefix (v : Vocab) (t : TextItem) (runs : List TextRun) : List TextRun :=
  if t.first && v.addPrefix && v.spaceMark ≠ 0 then consChar (allFrom 0 (utf8Encode v.spaceMark)) runs else runs

/-- R435 on a whole input: the carried bytes stand in front.  INVALID = BYTES is refused without byte fallback (R436). -/
def tokenizeBytes (v : Vocab) (t : TextItem) (refuse : Bool) (input : List Byte) : Except (Nat × Nat) Tokenized :=
  let cs := utf8Chunks input.length 0 input
  let keep := t.tail && (match cs.getLast? with
    | some c => c.open_
    | none => false)
  let carry := if keep then (cs.getLast?.map (·.bytes)).getD [] else []
  if t.invalid = 1 && !v.byteFallback then .error (Code.textMode, 0)
  else
    match handleInvalid t.invalid (if keep then cs.dropLast else cs) with
    | .error e => .error e
    | .ok (runs, replaced) =>
      let runs := runs.map fun r => match r with
        | .chars cs => .chars (markSpaces v (normalizeRun v cs))
        | r => r
      let runs := addPrefix v t runs
      let hit := if refuse then runs.findSome? (fun r => match r with
        | .chars cs => findControl v (cs.flatMap id)
        | _ => none) else none
      match hit with
      | some off => .error (Code.textControl, off)
      | none =>
        let toks := runs.flatMap (runTokens v)
        .ok { toks := toks, replaced := replaced, carry := carry, fallback := (toks.filter (isFallback v)).length }

/-! ### Detokenization (R443 to R448) -/

/-- Replace each UTF-8 encoding of a mark by a space. -/
def unmark (m : List Byte) : Nat → List Byte → List Byte
  | 0, bs => bs
  | _, [] => []
  | fuel + 1, b :: bs =>
    if !m.isEmpty && m.isPrefixOf (b :: bs) then 0x20 :: unmark m fuel ((b :: bs).drop m.length)
    else b :: unmark m fuel bs

/-- The bytes a token contributes (R443); none beyond ENTRIES. -/
def tokenBytes (v : Vocab) (t : Nat) : Option (List Byte) :=
  match v.entry? t with
  | none => none
  | some e =>
    if t = v.unk then some replacement
    else
      match e.kind with
      | .reserved => some []
      | .normal => some (if v.spaceMark = 0 then e.str else unmark (utf8Encode v.spaceMark) e.str.length e.str)
      | .byte => some e.str
      | .control => some (if v.showControl then e.str else [])

/-- A match: start, end (one past its last byte). -/
abbrev StopMatch := Nat × Nat

/-- A stop entry and a stop set (R444). -/
inductive StopEntry where
  | token (t : Nat)
  | str (bs : List Byte)
  deriving DecidableEq, Repr, Inhabited

structure StopSet where
  include_ : Bool := false
  entries : List StopEntry := []
  deriving DecidableEq, Repr, Inhabited

/-- Occurrences of the stop entries that end at or after byte s (R446); the token itself counts for a TOKEN entry. -/
def stopMatches (ss : StopSet) (buf : List Byte) (s tok : Nat) : List StopMatch :=
  ss.entries.flatMap fun e => match e with
    | .token t => if t = tok then [(s, buf.length)] else []
    | .str p => ((List.range buf.length).filter fun i =>
        !p.isEmpty && p.isPrefixOf (buf.drop i) && s < i + p.length).map fun i => (i, i + p.length)

/-- The earlier end first, then the longer match. -/
def betterMatch (a b : StopMatch) : Bool := a.2 < b.2 || (a.2 = b.2 && a.1 ≤ b.1)
def bestMatch : List StopMatch → Option StopMatch
  | [] => none
  | m :: ms => some (ms.foldl (fun a b => if betterMatch a b then a else b) m)

/-- The longest suffix that is a proper prefix of a stop string. -/
def holdStop (ss : StopSet) (buf : List Byte) : Nat :=
  (List.range (buf.length + 1)).foldl (fun h n =>
    if ss.entries.any fun e => match e with
      | .str p => n < p.length && (buf.drop (buf.length - n)).isPrefixOf p
      | _ => false
    then n else h) 0

/-- Bytes of the unfinished character that ends the buffer. -/
def holdChar (buf : List Byte) : Nat :=
  match (utf8Chunks buf.length 0 buf).getLast? with
  | some c => if c.open_ then c.bytes.length else 0
  | none => 0

/-- What DETOKENIZE found: raw bytes sent, bytes held, the stop token's index with TRAIL, and tokens consumed. -/
structure Detok where
  sent : List Byte := []
  held : List Byte := []
  stop : Option (Nat × Nat) := none
  used : Nat := 0
  deriving DecidableEq, Repr

/-- The loop of R445 from entry `i`; none when a token lies beyond ENTRIES. -/
def detokLoop (v : Vocab) (ss : StopSet) (final : Bool) : Nat → List Nat → List Byte → List Byte → Option Detok
  | i, [], buf, sent =>
    some (if final then { sent := sent ++ buf, used := i } else { sent := sent, held := buf, used := i })
  | i, t :: ts, buf, sent =>
    match tokenBytes v t with
    | none => none
    | some bs =>
      let b := buf ++ bs
      match bestMatch (stopMatches ss b buf.length t) with
      | some m =>
        some { sent := sent ++ b.take (if ss.include_ then m.2 else m.1), stop := some (i, b.length - m.2), used := i + 1 }
      | none =>
        let h := max (holdStop ss b) (holdChar b)
        detokLoop v ss final (i + 1) ts (b.drop (b.length - h)) (sent ++ b.take (b.length - h))

/-- Ill-formed subparts of the bytes sent become U+FFFD (R448): the output and the number replaced. -/
def sanitize (bs : List Byte) : List Byte × Nat :=
  (utf8Chunks bs.length 0 bs).foldl (fun r c =>
    if c.good then (r.1 ++ c.bytes, r.2) else (r.1 ++ replacement, r.2 + 1)) ([], 0)

/-! ### Grammar automata (R450 to R457) -/

/-- Current state and stack, top first. -/
structure Gram where
  state : Nat := 0
  stack : List Nat := []
  deriving DecidableEq, Repr

/-- The transition a token takes (R455). -/
def findTrans (g : Grammar) (p : Gram) (t : Nat) : Option GramTrans :=
  (g.trans p.state).find? fun x =>
    x.first ≤ t && t ≤ x.last && (x.top = none || (!p.stack.isEmpty && x.top = p.stack.head?))

/-- Advance by one token (R455): the new state or the code; `none` codes for a token without a transition. -/
def gramStep (g : Grammar) (eos : Nat) (p : Gram) (t : Nat) : Except Nat Gram :=
  if t = eos && g.accept p.state && p.stack.isEmpty then .ok p
  else
    match findTrans g p t with
    | none => .error Code.grammarBroken
    | some x =>
      let check := fun (q : Gram) => if q.state < g.states then Except.ok q else .error Code.grammarBroken
      match x.op with
      | .goto => check { p with state := x.target }
      | .call =>
        if 1788 ≤ p.stack.length then .error Code.grammarDepth
        else check { state := x.target, stack := x.push :: p.stack }
      | .ret =>
        match p.stack with
        | [] => .error Code.grammarBroken
        | r :: rest => check { state := r, stack := rest }
      | .reserved => .error Code.grammarBroken

/-- Is a token of a vocabulary of `n` entries allowed in a state (R454)? -/
def gramAllows (g : Grammar) (n eos : Nat) (p : Gram) (t : Nat) : Bool :=
  if t = eos then g.accept p.state && p.stack.isEmpty
  else g.bitmapBit n p.state t ||
    (!p.stack.isEmpty && (g.trans p.state).any fun x => x.top = p.stack.head? && x.first ≤ t && t ≤ x.last)

/-- Bytes of a mask (R450). -/
def maskBytes (v : Vocab) : Nat := Grammar.bitmapBytes v.entries

/-- A mask as bytes, bit t mod 8 of byte t / 8. -/
def maskOf (v : Vocab) (g : Grammar) (p : Gram) : List Byte :=
  (List.range (maskBytes v)).map fun i => BitVec.ofNat 8 (sumNat ((List.range 8).map fun j =>
    bnat (8 * i + j < v.entries && gramAllows g v.entries v.eos p (8 * i + j)) * 2 ^ j))

/-- Advance by tokens while each has a transition: the states before and after each, and where it stopped. -/
def gramRun (g : Grammar) (eos : Nat) : Gram → List Nat → List Gram × Option (Nat × Nat)
  | p, [] => ([p], none)
  | p, t :: ts =>
    match gramStep g eos p t with
    | .error c => ([p], some (0, c))
    | .ok q =>
      let r := gramRun g eos q ts
      (p :: r.1, r.2.map fun x => (x.1 + 1, x.2))

/-- The grammar region of a header (R453): ACTIVE, ENTRY, state and the DEPTH entries of the stack, which stands bottom first. -/
def Header.gram (h : Header) : Option (Nat × Gram) :=
  let w := h.grammar.headD 0
  if bit w 63 then
    some (bits w 59 48, { state := bits w 47 32, stack := ((h.grammar.tail.take (bits w 10 0)).map (·.toNat)).reverse })
  else none

/-- Write the stack entries and the word at 0x200; entries at and above DEPTH keep what they hold. -/
def Header.setGram (h : Header) (entry : Nat) (p : Gram) : Header :=
  { h with grammar := (fld 63 63 1 ||| fld 59 48 entry ||| fld 47 32 p.state ||| fld 10 0 p.stack.length)
      :: (p.stack.reverse.map (BitVec.ofNat 64) ++ h.grammar.tail.drop p.stack.length) }

/-! ### Text carry (R430) -/

/-- Carried input bytes. -/
def Header.inBytes (h : Header) : List Byte :=
  let w := h.carry.headD 0
  (leBytes (bits w 23 0) 3).take (bits w 57 56)
/-- Held output bytes. -/
def Header.holdBytes (h : Header) : List Byte :=
  (((h.carry.drop 2).take 5).flatMap fun w => leBytes w.toNat 8).take (bits (h.carry.headD 0) 63 58)

def Header.setInBytes (h : Header) (bs : List Byte) : Header :=
  let w := setBits (setBits (h.carry.headD 0) 57 56 bs.length) 23 0 (leWord bs)
  { h with carry := h.carry.set 0 w }
def Header.setHold (h : Header) (bs : List Byte) : Header :=
  let w := setBits (h.carry.headD 0) 63 58 bs.length
  let ws := (List.range 5).map fun i => BitVec.ofNat 64 (leWord ((bs.drop (8 * i)).take 8))
  { h with carry := w :: h.carry.getD 1 0 :: ws ++ [h.carry.getD 7 0] }

/-! ### Items -/

/-- The text unit's reader code and its translation cache. -/
def textReader : Nat := 9
def textCache : Nat := 7

/-- The image of a vocabulary slot, read at its state address (R460); none while VALID is 0. -/
def State.vocab? (s : State) (v : Nat) : Option Vocab :=
  if bit (s.reg (Reg.txtVocab v)) 63 then
    let a := 65536 * s.field (Reg.txtVocab v) 35 0
    some { img := s.tabBytes a (bits (s.tabWord (a + 0x30)) 31 0) }
  else none

/-- A slot's image has a line that cannot be read (R694). -/
def State.vocabLost (s : State) (v : Nat) : Bool :=
  (s.vocab? v).any fun x => s.bodyLost (65536 * s.field (Reg.txtVocab v) 35 0) x.img.length

/-- An entry of the grammar directory (R449). -/
structure GramEntry where
  addr : Nat := 0
  refs : Nat := 0
  vocab : Nat := 0
  deriving DecidableEq, Repr, Inhabited

/-- State address of directory entry n (R462). -/
def State.gramAt (s : State) (n : Nat) : Nat := 65536 * s.field Reg.txtGrammar 35 0 + 16 * n
def State.gramEntry (s : State) (n : Nat) : GramEntry :=
  let w := s.tabWord (s.gramAt n + 8)
  { addr := (s.tabWord (s.gramAt n)).toNat, refs := bits w 63 48, vocab := bits w 47 44 }
def State.setGramEntry (s : State) (n : Nat) (e : GramEntry) : State :=
  (s.setTabWord (s.gramAt n) (BitVec.ofNat 64 e.addr)).setTabWord (s.gramAt n + 8) (fld 63 48 e.refs ||| fld 47 44 e.vocab)

/-- The automaton image at a state address. -/
def State.gramImage (s : State) (a : Nat) : Grammar := { img := s.tabBytes a (bits (s.tabWord (a + 0x20)) 63 32) }

/-- The session's automaton: its directory entry, image and state; the code when it has none. -/
def State.gramOf (s : State) (slot : Nat) : Option (Nat × Grammar × Gram) :=
  (s.hdr slot).gram.map fun x => (x.1, s.gramImage (s.gramEntry x.1).addr, x.2)

/-- The image of the session's automaton has a line that cannot be read (R694). -/
def State.gramLost (s : State) (slot : Nat) : Bool :=
  (s.gramOf slot).any fun x => s.bodyLost (s.gramEntry x.1).addr x.2.1.img.length

/-- A completion item of R427. -/
def textCompletion (i : Item) (status out used replaced index trail held err : Nat) : Item :=
  { w0 := i.w0, w1 := tagLast i.w1, w2 := fld 63 48 status ||| fld 31 0 out, w3 := fld 63 32 used ||| fld 31 0 replaced
    w4 := fld 63 32 index ||| fld 31 16 trail ||| fld 15 0 held, w5 := BitVec.ofNat 64 err }

def noIndex : Nat := 0xFFFFFFFF

/-- Post a text completion (R427). -/
def State.textDone (s : State) (i : Item) (c : Item) : State :=
  let t := TextItem.ofItem i
  (s.begin_ textReader i).post t.queue c t.tally

/-- A failed item: DST undefined, the code reported, nothing else changed (R428). -/
def State.textFail (s : State) (i : Item) (code index err : Nat) : State :=
  let t := TextItem.ofItem i
  let unit := if t.op = 0 then 4 else 1
  let s := if t.op ≤ 2 then s.undefState t.dst (unit * t.cap) else s
  let s := s.iff (code = Code.textControl) fun s => s.bump (Reg.txtCnt 6)
  let s := s.noteReport code i.w0 0
  s.textDone i (textCompletion i code 0 0 0 index 0 0 err)

/-- A hamper that holds a decode slot: its text state is cached by the unit (R429). -/
def State.cacheText (s : State) (slot : Nat) : State :=
  if (s.dir slot).state = .active && !s.txt.cached.contains slot then
    { s with txt.cached := s.txt.cached ++ [slot] } else s

/-- An item of one operation: refused for reserved values, its handle or addresses in the snapshot namespace (R54, log entry 93),
else run on its session's slot (R424, R425).  An item waits behind the items of its session that came before it (R424). -/
def textItem (op : Nat) (item : Item) (s : State) (run : TextItem → Nat → State → State) :
    Host.Outcome State Fault Refusal :=
  gate s fun s =>
    let t := TextItem.ofItem item
    let code := s.homeCode item.w0
    if (t.op ≠ op && !textReserved item) || (s.handBefore textReader item).any (fun x => x.w0 = item.w0) then s
    else if s.unitFailed 0 then s.textFail item Code.unitFailed noIndex 0
    else if textReserved item || !textOk item then s.textFail item Code.invalidField noIndex 0
    else if item.w0 = 0 then s.textFail item Code.badHandle noIndex 0
    else if code ≠ 0 then (s.noteStale code).textFail item code noIndex 0
    else if tagSnap item.w1 then s.textFail item Code.noncanon noIndex 0
    else if s.vocabLost t.vocab || (2 ≤ op && s.gramLost (hSlot item.w0)) then s.textFail item Code.poisoned noIndex 0
    else (s.cacheText (hSlot item.w0)).underCfg item fun s => s.byMap item.w1 fun s => run t (hSlot item.w0) s

/-- Write an item's output; a fault fails the item, and a page under a cut makes it wait (R64). -/
def State.textWrite (s : State) (i : Item) (bs : List Byte) (done : State → State) : State :=
  match s.putBytes textCache (TextItem.ofItem i).dst bs with
  | .done s => done s
  | .wait s => s
  | .fault c s => s.textFail i c noIndex 0

/-- Read an item's source; a fault fails the item. -/
def State.textRead (s : State) (i : Item) (n : Nat) (f : List Byte → State → State) : State :=
  match s.getBytes textCache (TextItem.ofItem i).src n with
  | (.error c, s) => s.textFail i c noIndex 0
  | (.ok bs, s) => f bs s

/-- TOKENIZE (R435 to R442). -/
def execTokenize (item : Item) (s : State) : Host.Outcome State Fault Refusal :=
  textItem 0 item s fun t slot s =>
    match s.vocab? t.vocab with
    | none => s.textFail item Code.textMode noIndex 0
    | some v =>
      s.textRead item t.len fun src s =>
        let refuse := t.escape = 1 || (tagClass item.w1 = 1 && bit (s.reg Reg.txtControl) 9)
        match tokenizeBytes v t refuse ((s.hdr slot).inBytes ++ src) with
        | .error (c, off) => s.textFail item c noIndex off
        | .ok r =>
          if t.cap < r.toks.length then s.textFail item Code.textOverflow noIndex 0
          else
            s.textWrite item (bytes32 (r.toks.map fun k => mkEntry k t.origin false false)) fun s =>
              let s := s.setHdr slot ((s.hdr slot).setInBytes r.carry)
              let s := ((s.bumpBy (Reg.txtCnt 0) r.toks.length).bumpBy (Reg.txtCnt 1) t.len).bumpBy (Reg.txtCnt 3) r.replaced
              (s.bumpBy (Reg.txtCnt 4) r.fallback).textDone item
                (textCompletion item 0 r.toks.length t.len r.replaced noIndex 0 0 0)

/-- Entry i of a stop set at a state address (R444). -/
def State.stopEntry (s : State) (at_ i : Nat) : StopEntry :=
  let w := s.tabWord (at_ + 16 + 40 * i)
  if bit w 45 then .token (bits w 63 46) else .str (s.tabBytes (at_ + 24 + 40 * i) (min 32 (bits w 5 0)))

/-- The stop set an item names (R444); 0xFFFF and numbers beyond SETS are none. -/
def State.stopSet (s : State) (n : Nat) : StopSet :=
  if n = 0xFFFF || s.field Reg.txtStop 48 36 ≤ n then {}
  else
    let a := s.field Reg.txtStop 35 0 * 65536 + 512 * n
    let w := s.tabWord a
    { include_ := bit w 4, entries := (List.range (min 8 (bits w 3 0))).map (s.stopEntry a) }

/-- DETOKENIZE (R443 to R448). -/
def execDetokenize (item : Item) (s : State) : Host.Outcome State Fault Refusal :=
  textItem 1 item s fun t slot s =>
    match s.vocab? t.vocab with
    | none => s.textFail item Code.textMode noIndex 0
    | some v =>
      s.textRead item (4 * t.len) fun src s =>
        match detokLoop v (s.stopSet t.stopSet) t.final 0 ((words32 src).map entryToken) (s.hdr slot).holdBytes [] with
        | none => s.textFail item Code.textToken noIndex 0
        | some r =>
          let o := sanitize r.sent
          if t.cap < o.1.length then s.textFail item Code.textOverflow noIndex 0
          else
            s.textWrite item o.1 fun s =>
              let s := s.setHdr slot ((s.hdr slot).setHold r.held)
              let s := (s.bumpBy (Reg.txtCnt 2) o.1.length).bumpBy (Reg.txtCnt 3) o.2
              let s := s.iff r.stop.isSome fun s => s.bump (Reg.txtCnt 5)
              let st := r.stop.getD (noIndex, 0)
              s.textDone item (textCompletion item 0 o.1.length r.used o.2 st.1 st.2 r.held.length 0)

/-- MASK (R454, R456): the header stays as it is. -/
def execMask (item : Item) (s : State) : Host.Outcome State Fault Refusal :=
  textItem 2 item s fun t slot s =>
    match s.vocab? t.vocab, s.gramOf slot with
    | none, _ => s.textFail item Code.textMode noIndex 0
    | _, none => s.textFail item Code.grammarState noIndex 0
    | some v, some (_, g, p) =>
      if t.cap < (t.len + 1) * maskBytes v then s.textFail item Code.textOverflow noIndex 0
      else
        s.textRead item (4 * t.len) fun src s =>
          let r := gramRun g v.eos p ((words32 src).map entryToken)
          let masks := r.1.map (maskOf v g)
          let all := masks ++ List.replicate (t.len + 1 - masks.length) (masks.getLastD [])
          s.textWrite item (all.flatMap id) fun s =>
            (s.bumpBy (Reg.txtCnt 7) (t.len + 1)).textDone item
              (textCompletion item 0 (t.len + 1) t.len 0 ((r.2.map (·.1)).getD noIndex) 0 0 0)

/-- ADVANCE (R457). -/
def execAdvance (item : Item) (s : State) : Host.Outcome State Fault Refusal :=
  textItem 3 item s fun t slot s =>
    match s.vocab? t.vocab, s.gramOf slot with
    | none, _ => s.textFail item Code.textMode noIndex 0
    | _, none => s.textFail item Code.grammarState noIndex 0
    | some v, some (n, g, p) =>
      s.textRead item (4 * t.len) fun src s =>
        let r := gramRun g v.eos p ((words32 src).map entryToken)
        match r.2 with
        | some (i, c) => s.textFail item c i 0
        | none =>
          let s := s.setHdr slot ((s.hdr slot).setGram n (r.1.getLastD p))
          s.textDone item (textCompletion item 0 0 t.len 0 noIndex 0 0 0)

/-- Bind an automaton to a session, or say why not (R458). -/
def State.openGrammar (s : State) (slot n vocab : Nat) : Except Nat State :=
  let e := s.gramEntry n
  if (s.hdr slot).gram.isSome then .error Code.grammarState
  else if s.field Reg.txtGrammar 48 36 ≤ n || e.addr = 0 then .error Code.grammarMissing
  else if e.vocab ≠ vocab then .error Code.textMode
  else if 65535 ≤ e.refs then .error Code.grammarBusy
  else
    let p : Gram := { state := (s.gramImage e.addr).start }
    let s := s.setGramEntry n { e with refs := e.refs + 1 }
    .ok (s.setHdr slot ((s.hdr slot).setGram n p))

/-- Unbind a session's automaton (R458). -/
def State.closeGrammar (s : State) (slot : Nat) : State :=
  match (s.hdr slot).gram with
  | none => s
  | some (n, _) =>
    let e := s.gramEntry n
    let s := s.setGramEntry n { e with refs := e.refs - 1 }
    let h := s.hdr slot
    s.setHdr slot { h with grammar := setBits (h.grammar.headD 0) 63 63 0 :: h.grammar.tail }

/-- GRAMMAR_OPEN (R458). -/
def execGrammarOpen (item : Item) (s : State) : Host.Outcome State Fault Refusal :=
  textItem 4 item s fun t slot s =>
    match s.openGrammar slot t.grammar t.vocab with
    | .error c => s.textFail item c noIndex 0
    | .ok s => s.textDone item (textCompletion item 0 0 0 0 noIndex 0 0 0)

/-- GRAMMAR_CLOSE (R458): without a bound automaton it succeeds and has no effect. -/
def execGrammarClose (item : Item) (s : State) : Host.Outcome State Fault Refusal :=
  textItem 5 item s fun _ slot s =>
    (s.closeGrammar slot).textDone item (textCompletion item 0 0 0 0 noIndex 0 0 0)

/-- Drop the unit's cached copy of a session's text state (R429). -/
def State.releaseText (s : State) (slot : Nat) : State :=
  { s with txt.cached := s.txt.cached.filter fun x => x ≠ slot }

/-- TEXT_RELEASE (R429). -/
def execTextRelease (item : Item) (s : State) : Host.Outcome State Fault Refusal :=
  textItem 6 item s fun _ slot s =>
    (s.releaseText slot).textDone item (textCompletion item 0 0 0 0 noIndex 0 0 0)

/-- GRAMMAR_LOAD (R449, R450, R668): the directory entry and its image, while no session is bound.  `image` is what the DMA read of the
image gave; a failed read is `none` (R664). -/
def execGrammarLoad (cmd : Nat) (image : Option (List Byte)) (s : State) : Host.Outcome State Fault Refusal :=
  gate s fun s =>
    match s.cmd? cmd 0x33 with
    | none => s
    | some c =>
      let n := bits (c.arg 0) 15 0
      let dest := (c.arg 3).toNat
      let bytes := (c.arg 2).toNat
      let vocab := bits (c.arg 4) 3 0
      if s.field Reg.txtGrammar 48 36 ≤ n then s.complete cmd Code.invalidField 0 0
      else if (s.gramEntry n).refs ≠ 0 then s.complete cmd Code.grammarBusy 0 0
      else if bytes = 0 then (s.setGramEntry n {}).complete cmd 0 0 0
      else if !s.pinnedRange dest bytes then s.complete cmd Code.invalidField 0 0
      else
        match image with
        | none => s.complete cmd Code.hostDma 0 0
        | some bs =>
          let g : Grammar := { img := bs.take bytes }
          if !g.ok (((s.vocab? vocab).map (·.entries)).getD 0) then s.complete cmd Code.grammarImage 0 0
          else ((s.setTabBytes dest g.img).setGramEntry n { addr := dest, vocab := vocab }).complete cmd 0 0 0

end Sys2Proof.Machine
end

