-- ==== Sys2Proof/Machine/Custody.lean ====
section
/-! DEFINITION. Custody records, the comparison of R133, and the checks and moves that hamper commands share (R101 to R108,
R119, R123 to R126, R133, R353). -/

namespace Sys2Proof.Machine

open Sys2Proof

/-! ### Checks of a hamper command (R353) -/

/-- The open request of a session. -/
def State.openReq? (s : State) (slot : Nat) : Option (Nat × ReqRec) := s.fw.reqs.find? fun x => x.2.slot = slot
def State.setReq (s : State) (i : Nat) (r : ReqRec) : State := { s with fw.reqs := SMap.put s.fw.reqs i r }

/-- The session's open request ends with a code at the next step boundary (R351). -/
def State.failReq (s : State) (slot code : Nat) : State :=
  match s.openReq? slot with
  | none => s
  | some (i, r) => s.setReq i { r with failed := if r.failed = 0 then code else r.failed }

/-- The checks before a command's own refusals: 0 or the first code that applies. -/
def State.changeCode (s : State) (h : Word) (from_ : List HState) : Nat :=
  let slot := hSlot h
  if s.homeCode h ≠ 0 then s.homeCode h
  else if s.busy slot then Code.hamperBusy
  else if !from_.contains (s.dir slot).state || (s.dir slot).kind ≠ .home then Code.hamperState
  else if (s.openReq? slot).isSome then Code.reqOpen
  else 0

/-- Any span of the hamper has sharers (R165). -/
def State.hasSharers (s : State) (slot : Nat) : Bool :=
  (List.range (s.hdr slot).spans).any fun n => (s.span slot n).sharers ≠ 0

/-- The hamper has pages a cut has marked (R513). -/
def State.marked (s : State) (slot : Nat) : Bool := (s.hamperPages slot).any fun p => (s.leaf p).wp

/-- A home hamper's FREE transition with everything bound to it (R107, R429, R458). -/
def State.freeHamper (s : State) (slot : Nat) : State :=
  let s := ((s.closeGrammar slot).releaseText slot).toFree slot
  { s with hmp.batch := s.hmp.batch.filter fun x => x ≠ slot, hmp.releases := SMap.erase s.hmp.releases slot }

/-- A home hamper goes to FREE with its shards (R106, R107): the command ends with the code and data once every shard is freed. -/
def State.freeAll (s : State) (slot : Nat) (cmd : Option Nat) (code : Nat) (data : Word) : State :=
  let h := (s.hdr slot).handle
  (s.freeHamper slot).follow slot h .free .free cmd code data

/-- The ticks of a slot (R121, R133): its last custody check, and its last likelihood decay. -/
def checkTick (slot : Nat) : Nat := 2 ^ 23 + slot
def decayTick (slot : Nat) : Nat := 2 ^ 24 + slot
/-- A period of a slot starts now. -/
def State.startTick (s : State) (k : Nat) : State := { s with ticks := SMap.set 0 s.ticks k s.now }

/-- Park now (R119): lengths, text state, decode slot, state and times; shards release their decode slots and follow. -/
def State.parkNow (s : State) (slot : Nat) (cmd : Option Nat) : State :=
  let h := s.hdr slot
  let e := s.dir slot
  let s := (s.setHdr slot { h with specLen := h.commitLen, parkedNs := s.now }).releaseText slot
  let s := s.setDir slot { e with state := .parked, decode := 0, lastNs := s.now }
  ((s.bump (Reg.hmpCnt 0)).startTick (decayTick slot)).follow slot h.handle .park .park cmd 0 0

/-- Between two steps: none runs, and no sub-batch of the next one has been sent (R119, R354). -/
def State.betweenSteps (s : State) : Bool := s.fw.cur.isNone && s.fw.sent.isNone

/-- Park at the step boundary (R119): now between steps, else at the end of the step in progress. -/
def State.parkSoon (s : State) (slot : Nat) (cmd : Option Nat) : State :=
  if s.hmp.parks.any fun x => x.1 = slot then s
  else if s.betweenSteps then s.parkNow slot cmd
  else { s with hmp.parks := s.hmp.parks ++ [(slot, cmd)] }

/-! ### Records (R123 to R126) -/

def State.dirPool (s : State) : Nat := s.field Reg.hmpCustody 39 32
def State.custodyTimeout (s : State) : Nat := msec (s.field Reg.hmpCustody 15 0)
def recKey (addr : Word) : Nat := bits addr 63 56 * 2 ^ 32 + (bits addr 55 0 - 65536) / 64
def recAddrOf (seg i : Nat) : Word := fld 63 56 seg ||| fld 55 0 (65536 + 64 * i)
/-- Where a record stands in the pool. -/
def recAt (k : Nat) : Nat := poolAddr (recAddrOf (k / 2 ^ 32) (k % 2 ^ 32)).toNat
def State.rec_ (s : State) (k : Nat) : PoolRec := poolRecOf (s.readItem (recAt k))
def State.setRec (s : State) (k : Nat) (r : PoolRec) : State := s.writeWords (recAt k) (poolRecWords r)

/-- A 64-byte access to a record fails with the code of R578 or R582, or 0. -/
def State.recCode (s : State) (addr : Word) : Nat := s.casCode (addr + 16)

/-- The directory of DIR_POOL can be used (R125): 0, or CUSTODY_DIR. -/
def State.dirCode (s : State) : Nat :=
  match s.hmp.dirLog with
  | none => Code.custodyDir
  | some l =>
    if s.dirPool = 0xFF || l < 10 || 32 < l || 65536 * (s.seg s.dirPool).pages < 65536 + 64 * 2 ^ l then Code.custodyDir
    else 0

/-- First record of an ORIGIN's probe. -/
def State.recHash (s : State) (origin : Word) : Nat := (crcWords [origin]).toNat % 2 ^ (s.hmp.dirLog.getD 10)

/-- How a probe ends (R126). -/
inductive ProbeEnd where
  | found (k : Nat)
  | empty (k : Nat)
  | full
  deriving DecidableEq, Repr

/-- Probe up to `fuel` records from record i. -/
def State.probe (s : State) (origin : Word) : Nat → Nat → ProbeEnd
  | 0, _ => .full
  | fuel + 1, i =>
    let k := s.dirPool * 2 ^ 32 + i
    if (s.rec_ k).origin = origin then .found k
    else if (s.rec_ k).origin = 0 then .empty k
    else s.probe origin fuel ((i + 1) % 2 ^ (s.hmp.dirLog.getD 10))

def State.findRec (s : State) (origin : Word) : ProbeEnd := s.probe origin 64 (s.recHash origin)

/-- What the pool holds for an ORIGIN, as read: at its record, or at the record that another module has created for it. -/
def State.seeOrigin (s : State) (origin : Word) (seen : Option PoolRec) : State :=
  match seen with
  | none => s
  | some r =>
    if s.dirCode ≠ 0 then s
    else
      match s.findRec origin with
      | .found k => s.setRec k { r with origin := origin }
      | .empty k => s.setRec k { r with origin := origin }
      | .full => s

/-- A read of a session's record: what the pool holds now, where it differs from what the module last saw; of an untracked session,
the record that its probe meets (R126). -/
def State.seeRec (s : State) (slot : Nat) (seen : Option PoolRec) : State :=
  match seen with
  | none => s
  | some r =>
    if (s.hdr slot).recAddr = 0 then s.seeOrigin (s.hdr slot).origin seen else s.setRec (recKey (s.hdr slot).recAddr) r

/-- A swap of the word at 0x10 (R124): it compares custody, state, holder and, in transit, target. -/
def sameWord (a b : PoolRec) : Bool :=
  a.custody = b.custody && a.state = b.state && a.holder = b.holder && (a.state ≠ .inTransit || a.target = b.target)

/-- Swap a record's word when it holds what is expected; the changer then writes the rest of the record.  A swap that the fabric ports
refuse (R581, R582) changes nothing. -/
def State.swapRec (s : State) (k : Nat) (old new : PoolRec) : Bool × State :=
  let hit := sameWord (s.rec_ k) old
  if s.recCode (recAddrOf (k / 2 ^ 32) (k % 2 ^ 32)) ≠ 0 then (false, s)
  else
  let s := s.countCas hit
  if hit then
    let o := s.rec_ k
    (true, s.setRec k
      { new with origin := o.origin, changeNs := s.now, tclass := o.tclass, customer := o.customer })
  else (false, s)

/-- The record as its holder n, HELD, this module expects it, keeping the other fields. -/
def State.mine (s : State) (slot : Nat) : PoolRec :=
  let h := s.hdr slot
  { s.rec_ (recKey h.recAddr) with custody := h.custody, state := .held, holder := .module s.self }

/-! ### The comparison of R133 -/

/-- Free a copy that a newer record overrides (R133). -/
def State.custodyLost (s : State) (slot : Nat) : State :=
  let s := s.failReq slot Code.custodyLost
  let cmd := (SMap.lookup s.hmp.changes slot).bind (·.cmd)
  (s.bump (Reg.hmpCnt 6)).freeAll slot cmd Code.custodyLost 0

/-- Report CUSTODY_CORRUPT or CUSTODY_EMPTY (R675, R700). -/
def State.reportCustody (s : State) (code : Nat) (session origin : Word) : State :=
  (s.event code 0 4 255 0 session origin).setAttn 4

/-- Compare a tracked hamper's record with its header: 0 confirmed, CUSTODY_LOST with the copy freed, or CUSTODY_CORRUPT
reported.  A holder module other than this one is probed (R135).  An untracked hamper is this module's own. -/
def State.custodyCheck (s : State) (slot : Nat) : Nat × State :=
  if !(s.dir slot).tracked then (0, s)
  else
    let h := s.hdr slot
    let r := s.rec_ (recKey h.recAddr)
    if s.recCode h.recAddr ≠ 0 then (s.recCode h.recAddr, s)
    else if r.custody = h.custody && r.holder = .module s.self && r.state = .held then (0, s)
    else if newer h.custody r.custody then (Code.custodyLost, s.custodyLost slot)
    else
      let s := s.reportCustody Code.custodyCorrupt h.handle h.origin
      match r.holder with
      | .module m =>
        if m = s.self then (Code.custodyCorrupt, s)
        else
          (Code.custodyCorrupt,
            { s with hmp.probes := s.hmp.probes ++ [Probe.mk h.origin m s.now] }.send m 7 (.probe h.origin))
      | .pool _ => (Code.custodyCorrupt, s)

/-- Create the record of an untracked session (R126): 0, CUSTODY_DIR, or CUSTODY_LOST with the copy freed when another module
has created it first. -/
def State.createRec (s : State) (slot : Nat) (cairn : Word) : Nat × State :=
  let h := s.hdr slot
  let e := s.dir slot
  if s.dirCode ≠ 0 then (s.dirCode, s)
  else if s.casCode (recAddrOf s.dirPool 0) ≠ 0 then (s.casCode (recAddrOf s.dirPool 0), s)
  else
    match s.findRec h.origin with
    | .full => (Code.custodyDir, s)
    | .found k =>
      let s := s.setHdr slot { h with recAddr := recAddrOf (k / 2 ^ 32) (k % 2 ^ 32), custody := 0 }
      (s.setDir slot { e with tracked := true }).custodyCheck slot
    | .empty k =>
      let s := (s.countCas true).setRec k
        { origin := h.origin, current := h.handle, custody := 1, state := .held, holder := .module s.self,
          changeNs := s.now, cairn := cairn, tclass := e.tclass, customer := e.customer }
      let s := s.setHdr slot
        { h with recAddr := recAddrOf (k / 2 ^ 32) (k % 2 ^ 32), custody := 1, custodyNs := s.now }
      (0, s.setDir slot { e with tracked := true })

/-! ### Empty claims (R134) -/

/-- The home hamper of an ORIGIN on this module. -/
def State.slotOfOrigin (s : State) (origin : Word) : Option Nat :=
  (s.hmp.dir.find? fun x => x.2.state ≠ .free && x.2.kind = .home && (s.hdr x.1).origin = origin).map (·.1)

/-- The records of the directory pool whose bytes are not all zero: the record area as a scan finds it. -/
def State.recKeys (s : State) : List Nat :=
  let base := poolAddr (recAddrOf s.dirPool 0).toNat
  let n := 64 * 2 ^ (s.hmp.dirLog.getD 10)
  ((s.mem.filter fun c => base ≤ c.1 && c.1 < base + n).map fun c => s.dirPool * 2 ^ 32 + (c.1 - base) / 64).eraseDups

/-- Note an empty claim: the record names this module as holder in HELD, and no copy is here. -/
def State.noteClaim (s : State) (k : Nat) : State :=
  let r := s.rec_ k
  if r.state = .held && r.holder = .module s.self && (s.slotOfOrigin r.origin).isNone && !(s.hmp.empties.any fun e => e.key = k)
  then { s with hmp.empties := s.hmp.empties ++ [EmptyClaim.mk k s.now] }
  else s

/-- The claims that a scan of the record area finds at a start. -/
def State.scanClaims (s : State) : State :=
  if s.dirCode ≠ 0 then s else s.recKeys.foldl State.noteClaim s

/-- The claims on the session that a request's handle named, when this module holds no such session: its record's CURRENT or
ORIGIN is that handle (log entry 95). -/
def State.askedClaims (s : State) (h : Word) : State :=
  if s.dirCode ≠ 0 || h = 0 then s
  else (s.recKeys.filter fun k => (s.rec_ k).current = h || (s.rec_ k).origin = h).foldl State.noteClaim s

/-- Retire a record at its close or empty claim (R126, R134): (n, HELD, self) to (n + 1, NONE, self), then the ORIGIN mark. -/
def State.retireRec (s : State) (k : Nat) (old : PoolRec) : Bool × State :=
  let r := s.swapRec k old { old with custody := old.custody + 1, state := .none }
  if r.1 then (true, r.2.setRec k { r.2.rec_ k with origin := BitVec.allOnes 64 }) else r

end Sys2Proof.Machine
end

