-- ==== Sys2Proof/Machine/Group.lean ====
section
/-! DEFINITION. Checkpoint groups: their entries, logical pages and extents (R503 to R506). -/

namespace Sys2Proof.Machine

open Sys2Proof

/-! ### Checkpoint groups (R503 to R506) -/

/-- A group table entry. -/
structure CkGroup where
  head : Word := 0
  layout : Nat := 0
  epoch : BitVec 16 := 0
  dataPages : Nat := 0
  segs : List Nat := []
  extentMap : Word := 0
  dataBase : Nat := 0
  deriving DecidableEq, Repr

/-- Fabric address of a group's entry (R503, R125). -/
def State.groupFab (s : State) (g : Nat) : Word := fld 63 56 s.dirPool ||| fld 55 0 (64 * g)

def State.ckGroup (s : State) (g : Nat) : CkGroup :=
  let it := s.readItem (poolAddr (s.groupFab g).toNat)
  { head := it.w0, layout := bits it.w1 63 62, epoch := BitVec.ofNat 16 (bits it.w1 47 32), dataPages := bits it.w1 31 0,
    segs := (List.range 8).map (fun k => bits it.w2 (8 * k + 7) (8 * k)) ++ [bits it.w3 7 0, bits it.w3 15 8],
    extentMap := it.w4, dataBase := bits it.w5 31 0 }

/-- The segments a group uses: two under MIRROR, ten under CODED. -/
def CkGroup.used (g : CkGroup) : List Nat := if g.layout = 0 then g.segs.take 2 else g.segs

/-- The entry is usable (R508). -/
def State.groupOk (s : State) (g : Nat) : Bool :=
  s.dirPool ≠ 0xFF && (s.seg s.dirPool).valid && (s.ckGroup g).layout ≤ 1 &&
    (s.ckGroup g).used.all fun k => (s.seg k).valid

/-- Segment and page of a logical page's home copy or copies (R504). -/
def CkGroup.homes (g : CkGroup) (p : Nat) : List (Nat × Nat) :=
  if g.layout = 0 then (g.segs.take 2).map fun k => (k, g.dataBase + p)
  else [(g.segs.getD ((p % 8 + p / 8) % 10) 0, g.dataBase + p / 8)]

/-- Parity and syndrome pages of the stripe of a logical page; none under MIRROR. -/
def CkGroup.checks (g : CkGroup) (p : Nat) : List (Nat × Nat) :=
  if g.layout = 0 then []
  else [(g.segs.getD ((8 + p / 8) % 10) 0, g.dataBase + p / 8), (g.segs.getD ((9 + p / 8) % 10) 0, g.dataBase + p / 8)]

def pageAddr (x : Nat × Nat) : Nat := poolAddr (x.1 * 2 ^ 56 + x.2 * 65536)

/-- Rebuild the parity and syndrome pages of a stripe from its eight members (R504). -/
def State.encodeStripe (s : State) (g : CkGroup) (p : Nat) : State :=
  match g.checks p with
  | [par, syn] =>
    let members := (List.range 8).map fun i => pageAddr ((g.homes (p / 8 * 8 + i)).headD (0, 0))
    let offs := members.flatMap fun a => (s.mem.filter fun c => a ≤ c.1 && c.1 < a + 65536).map fun c => c.1 - a
    let s := (s.zeroRange (pageAddr par) 65536).zeroRange (pageAddr syn) 65536
    offs.foldl (fun s k =>
      let ds := members.map fun a => s.byte (a + k)
      let q := ds.foldl (fun x d => x ^^^ d) 0
      let r := (List.range 8).foldl (fun x i => x ^^^ gfPow (ds.getD i 0) i) 0
      (s.setByte (pageAddr par + k) q).setByte (pageAddr syn + k) r) s
  | _ => s

/-- Start the fabric writes of a logical page: none when a segment has no port up (R582). -/
def issueAll (epoch : Nat) : List (Nat × Nat) → State → Option State
  | [], s => some s
  | x :: xs, s =>
    match s.fabIssue true x.1 x.2 (.snap epoch) 0 5 flagSnap with
    | none => none
    | some s => issueAll epoch xs s

/-- Write a logical page by a change of each of its home copies. -/
def State.writeLogical (s : State) (g : CkGroup) (epoch p : Nat) (f : State → Nat → State) : Option State :=
  let s := (g.homes p).foldl (fun s x => f s (pageAddr x)) s
  issueAll epoch (g.homes p ++ g.checks p) (s.encodeStripe g p)

/-- Write words over consecutive logical pages, the last one padded with zero. -/
def writeRun (g : CkGroup) (epoch : Nat) : List Nat → List Word → State → Option State
  | [], _, s => some s
  | p :: ps, ws, s =>
    match s.writeLogical g epoch p fun s a => (s.zeroRange a 65536).writeWords a (ws.take 8192) with
    | none => none
    | some s => writeRun g epoch ps (ws.drop 8192) s

/-! ### Extents (R506) -/

def CkGroup.extents (g : CkGroup) : Nat := (if g.layout = 0 then g.dataPages else 8 * g.dataPages) / 1024
def CkGroup.bitWord (g : CkGroup) (e : Nat) : Nat := poolAddr (g.extentMap.toNat + 8 * (e / 64))

/-- An extent is in use; extent 0 always is. -/
def State.extentUsed (s : State) (g : CkGroup) (e : Nat) : Bool := e = 0 || bit (s.readWord (g.bitWord e)) (e % 64)

/-- Take or free an extent by a swap on its bitmap word. -/
def State.setExtent (s : State) (g : CkGroup) (used : Bool) (e : Nat) : State :=
  (s.writeWord (g.bitWord e) (setBits (s.readWord (g.bitWord e)) (e % 64) (e % 64) (bnat used))).countCas true
def State.freeExtents (s : State) (g : CkGroup) (es : List Nat) : State :=
  es.foldl (fun s e => if e = 0 then s else s.setExtent g false e) s

/-- The lowest run of `k` free extents. -/
def State.findExtents (s : State) (g : CkGroup) (k : Nat) : Option Nat :=
  findFrom (fun e => e + k ≤ g.extents && (List.range k).all fun i => !s.extentUsed g (e + i)) 1 g.extents

/-- Place a run of `n` logical pages: in the extent being filled, else at the start of the lowest free range. -/
def State.placeRun (s : State) (g : CkGroup) (c : SnapCut) (n : Nat) : Option (Nat × SnapCut × State) :=
  if n = 0 then some (0, c, s)
  else if c.next + n ≤ c.limit then some (c.next, { c with next := c.next + n }, s)
  else
    let k := ceilDiv n 1024
    match s.findExtents g k with
    | none => none
    | some e =>
      let es := (List.range k).map (e + ·)
      some (1024 * e, { c with extents := c.extents ++ es, next := 1024 * e + n, limit := 1024 * (e + k)
                               gaps := if c.next < c.limit then c.gaps ++ [c.next] else c.gaps },
        es.foldl (fun s e => s.setExtent g true e) s)

/-- Zero pages from a logical page to the end of its stripe. -/
def padFrom (g : CkGroup) (epoch : Nat) : List Nat → State → Option State
  | [], s => some s
  | p :: ps, s =>
    match writeRun g epoch (pageRun p (ceilDiv p 8 * 8 - p)) [] s with
    | none => none
    | some s => padFrom g epoch ps s

/-- Only whole stripes are written: the last stripe, and every stripe left part full, is padded with zero pages (R506). -/
def State.padStripes (s : State) (g : CkGroup) (c : SnapCut) : Option (SnapCut × State) :=
  if g.layout = 0 then some (c, s)
  else
    match padFrom g c.epoch.toNat (c.gaps ++ [c.next]) s with
    | none => none
    | some s => some ({ c with gaps := [], next := ceilDiv c.next 8 * 8 }, s)

end Sys2Proof.Machine
end

