-- ==== Sys2Proof/Machine/Cairn.lean ====
section
/-! DEFINITION. Reading a cairn back from its group: record, shard manifests and runs, with the rebuilding of lost pages (R504, R516 to
R520, R525). -/

namespace Sys2Proof.Machine

open Sys2Proof

/-- The pool as the fabric returns it: the bytes that other modules have written. -/
def State.seePool (s : State) (v : PoolSeen) : State := v.cells.foldl (fun s c => s.setByte (poolAddr (c.1 % 2 ^ 64)) c.2) s

/-- The segments of a group that cannot be read: lost ones, and those no port reaches (R582). -/
def State.lostSegs (s : State) (v : PoolSeen) : List Nat := v.lost ++ (List.range 256).filter fun k => (s.segPorts k).isEmpty

/-! ### Logical pages (R504, R525) -/

/-- The inverse of a nonzero element. -/
def gfInv (a : Byte) : Byte := (((List.range 256).map (BitVec.ofNat 8)).find? fun x => gfMul a x = 1).getD 0

def xorBytes (a b : List Byte) : List Byte := a.zipWith (· ^^^ ·) b

/-- Page of stripe member i, or of parity (8) or syndrome (9), in the stripe of a logical page. -/
def CkGroup.stripePage (g : CkGroup) (p i : Nat) : Nat × Nat :=
  if i < 8 then (g.homes (p / 8 * 8 + i)).headD (0, 0) else (g.checks p).getD (i - 8) (0, 0)

def State.pageAt (s : State) (x : Nat × Nat) : List Byte := s.readBytes (pageAddr x) 65536

/-- The XOR of a stripe's members but those listed, each times 2^(its number · `m`), and of a check page. -/
def State.stripeSum (s : State) (g : CkGroup) (p check m : Nat) (without : List Nat) : List Byte :=
  ((List.range 8).filter fun k => !without.contains k).foldl (fun r k =>
    xorBytes r ((s.pageAt (g.stripePage p k)).map fun b => gfPow b (m * k))) (s.pageAt (g.stripePage p check))

/-- A coded page rebuilt from the other pages of its stripe: every way that eight readable pages give. -/
def State.rebuilt (s : State) (g : CkGroup) (lost : List Nat) (p : Nat) : List (List Byte) :=
  let i := p % 8
  let gone := fun (k : Nat) => lost.contains (g.stripePage p k).1
  let two := gfPow 1 i
  match (List.range 8).filter fun k => k ≠ i && gone k with
  | [] =>
    (if gone 8 then [] else [s.stripeSum g p 8 0 [i]]) ++
      (if gone 9 then [] else [(s.stripeSum g p 9 1 [i]).map fun b => gfMul b (gfInv two)])
  | [j] =>
    if gone 8 || gone 9 then []
    else
      let a := s.stripeSum g p 8 0 [i, j]
      let b := s.stripeSum g p 9 1 [i, j]
      let d := gfInv (two ^^^ gfPow 1 j)
      [(a.zip b).map fun x => gfMul (x.2 ^^^ gfPow x.1 j) d]
  | _ => []

/-- The readings of a logical page, in the order they are tried: its home or homes, then the rebuilt ones. -/
def State.readings (s : State) (g : CkGroup) (lost : List Nat) (p : Nat) : List (List Byte) :=
  ((g.homes p).filter fun x => !lost.contains x.1).map s.pageAt ++ (if g.layout = 0 then [] else s.rebuilt g lost p)

/-- A logical page that passes a check; none when no reading does. -/
def State.readLogical (s : State) (g : CkGroup) (lost : List Nat) (p : Nat) (ok : List Byte → Bool) : Option (List Byte) :=
  (s.readings g lost p).find? ok

/-- Bytes of consecutive logical pages that pass a check: every page by its first reading, or every page by its last. -/
def State.readRun (s : State) (g : CkGroup) (lost : List Nat) (p n : Nat) (ok : List Byte → Bool) : Option (List Byte) :=
  let pages := (pageRun p (ceilDiv n 65536)).map (s.readings g lost)
  if pages.any List.isEmpty then none
  else [pages.map fun l => l.headD [], pages.map fun l => l.getLastD []].map (fun l => l.flatten.take n) |>.find? ok

/-! ### The record (R520) -/

/-- KIND, VERSION and CRC of a cairn record (R524 step 3). -/
def cairnRecOk (bs : List Byte) : Bool :=
  bits (wordAt bs 0) 63 48 = 0xCA1E && bits (wordAt bs 0) 47 32 = 1 &&
    imageCrc bs 4096 0x28 = BitVec.ofNat 32 (bits (wordAt bs 0x28) 31 0)

/-- A shard entry of a record. -/
structure ShardEnt where
  module : Nat := 0
  ringPos : Nat := 0
  page : Nat := 0
  bytes : Nat := 0
  crc : BitVec 32 := 0
  deriving DecidableEq, Repr, Inhabited

def shardEnt (bs : List Byte) (k : Nat) : ShardEnt :=
  let a := wordAt bs (0x40 + 16 * k)
  let b := wordAt bs (0x48 + 16 * k)
  { module := bits a 63 54, ringPos := bits a 53 44, page := bits a 39 0, bytes := bits b 63 32, crc := BitVec.ofNat 32 (bits b 31 0) }

/-! ### Manifests (R517 to R519) -/

/-- A block of a COPIED span after R525: its bytes, and its pages that could not be rebuilt. -/
structure BlockView where
  data : List Byte := []
  lost : Nat := 0
  deriving DecidableEq, Repr, Inhabited

/-- A span entry of a shard (R519) with its blocks and their side records; `owner` is a session-entry index. -/
structure SpanView where
  status : Nat := 0
  pinned : Bool := false
  anchor : Nat := 0
  owner : Nat := 0
  blocks : List BlockView := []
  sides : List Side := []
  deriving DecidableEq, Repr, Inhabited

/-- A session entry of a shard manifest (R518) with what it names; `lost` says that a non-KV page or the header could not
be rebuilt.  `pages` are the logical pages of its runs but the KV pages, `kvPages` those. -/
structure SessView where
  origin : Word := 0
  home : Bool := false
  commitLen : Nat := 0
  model : Nat := 0
  hdr : Header := {}
  log : List (BitVec 32) := []
  spans : List SpanView := []
  lost : Bool := false
  pages : List Nat := []
  kvPages : List Nat := []
  deriving DecidableEq, Repr, Inhabited

/-- A shard of a cairn: its ring position, the modules of its node, KVS.GEOMETRY0 to 15 and its session entries (R517), with the
logical pages of its manifest. -/
structure ShardView where
  ringPos : Nat := 0
  modules : Nat := 1
  geometry : List Word := []
  sessions : List SessView := []
  pages : List Nat := []
  deriving DecidableEq, Repr, Inhabited

def bytesWords (bs : List Byte) : List Word := (List.range (bs.length / 8)).map fun i => wordAt bs (8 * i)
def bytesWords32 (bs : List Byte) : List (BitVec 32) :=
  (List.range (bs.length / 4)).map fun i => BitVec.ofNat 32 (leWord ((bs.drop (4 * i)).take 4))

/-- The blocks of a COPIED span: page k of the run at `first` has CRC `crcs[k]`. -/
def State.viewBlocks (s : State) (g : CkGroup) (lost : List Nat) (blocks perBlock first : Nat) (crcs : List (BitVec 32)) :
    List BlockView :=
  (List.range blocks).map fun b =>
    let ps := (List.range perBlock).map fun i =>
      let k := b * perBlock + i
      s.readLogical g lost (first + k) fun bs => crc32c bs = crcs.getD k 0
    { data := ps.flatMap fun x => x.getD [], lost := (ps.filter Option.isNone).length }

/-- Session entry k of a manifest. -/
def State.viewSess (s : State) (g : CkGroup) (lost : List Nat) (man : List Byte) (geometry : List Word) (k : Nat) : SessView :=
  let w := fun (i : Nat) => wordAt man (0x100 + 64 * k + 8 * i)
  let home := bits (w 3) 63 62 = 1
  let geo := geometry.getD (bits (w 3) 61 58) 0
  let blocks := bits geo 35 28 * bits geo 39 36
  let perBlock := if bits geo 47 46 = 2 then 2 else 1
  let pps := bits geo 15 0
  let n := bits (w 2) 63 32
  let nk := bits (w 5) 63 32
  let any := fun (_ : List Byte) => true
  let list := (s.readRun g lost (bits (w 6) 47 0 / 65536) (16 * n) any).getD []
  let ents := (List.range n).map fun i => (wordAt list (16 * i), wordAt list (16 * i + 8))
  let copied := (List.range n).filter fun i => bits (ents.getD i (0, 0)).1 63 62 = 1
  let total := bnat home + nk + copied.length * pps
  let crcs := bytesWords32 ((s.readRun g lost (bits (w 7) 47 0 / 65536) (4 * total) any).getD [])
  let hdr := if home then s.readLogical g lost (bits (w 3) 47 0 / 65536) fun bs => crc32c (bs.take 4096) = crcs.getD 0 0 else some []
  let table := (List.range nk).map fun i =>
    s.readLogical g lost (bits (w 4) 47 0 / 65536 + i) fun bs => crc32c bs = crcs.getD (bnat home + i) 0
  let image := table.flatMap fun x => x.getD (List.replicate 65536 0)
  let sideOff := 65536 * tablePages n
  let side := fun (i b : Nat) => sideOfWords (bytesWords ((image.drop (sideOff + 64 * (i * blocks + b))).take 64))
  let kv := fun (i : Nat) => bnat home + nk + (copied.filter (· < i)).length * pps
  { origin := w 0, home := home, commitLen := bits (w 2) 31 0, model := bits (w 3) 61 58
    hdr := Header.ofWords (bytesWords ((hdr.getD []).take 4096))
    log := if home then bytesWords32 (image.drop (sideOff + 65536 * sidePages n blocks)) else []
    spans := (List.range n).map fun i =>
      let e := ents.getD i (0, 0)
      { status := bits e.1 63 62, pinned := bit e.1 61, anchor := bits e.2 63 32, owner := bits e.2 31 0
        blocks := if bits e.1 63 62 = 1 then s.viewBlocks g lost blocks perBlock (bits e.1 39 0) (crcs.drop (kv i)) else []
        sides := (List.range blocks).map (side i) }
    lost := hdr.isNone || table.any Option.isNone
    pages := (if home then [bits (w 3) 47 0 / 65536] else []) ++ pageRun (bits (w 4) 47 0 / 65536) nk ++
      pageRun (bits (w 6) 47 0 / 65536) (ceilDiv (16 * n) 65536) ++ pageRun (bits (w 7) 47 0 / 65536) (ceilDiv (4 * total) 65536)
    kvPages := copied.flatMap fun i => pageRun (bits (ents.getD i (0, 0)).1 39 0) pps }

/-- A shard whose manifest passes its CRC, KIND and VERSION. -/
def State.viewShard (s : State) (g : CkGroup) (lost : List Nat) (e : ShardEnt) : Option ShardView :=
  match s.readRun g lost e.page e.bytes fun bs => crc32c bs = e.crc && bits (wordAt bs 0) 63 48 = 0x5AD0 && bits (wordAt bs 0) 47 32 = 1 with
  | none => none
  | some man =>
    let geometry := (List.range 16).map fun i => wordAt man (0x40 + 8 * i)
    some { ringPos := bits (wordAt man 8) 29 20, modules := bits (wordAt man 8) 19 10, geometry := geometry
           sessions := (List.range (bits (wordAt man 0) 31 0)).map (s.viewSess g lost man geometry)
           pages := pageRun e.page (ceilDiv e.bytes 65536) }

def viewAll (f : ShardEnt → Option ShardView) : List ShardEnt → Option (List ShardView)
  | [] => some []
  | e :: es =>
    match f e, viewAll f es with
    | some v, some vs => some (v :: vs)
    | _, _ => none

/-- The shards of the cairn that a reference names; none when the group entry, the record or a manifest is invalid (R524 step 3). -/
def State.readCairn (s : State) (ref : Word) (v : PoolSeen) : Option (List ShardView) :=
  let k := bits ref 47 40
  let g := s.ckGroup k
  let lost := s.lostSegs v
  if ref = 0 || !s.groupOk k then none
  else
    match s.readLogical g lost (bits ref 39 0) cairnRecOk with
    | none => none
    | some rec =>
      if bits (wordAt rec 0) 31 0 = 0 || 64 < bits (wordAt rec 0) 31 0 then none
      else viewAll (s.viewShard g lost) ((List.range (bits (wordAt rec 0) 31 0)).map (shardEnt rec))

/-- The extents of a cairn: of its record, its manifests and every run they name (R506). -/
def State.cairnExtents (s : State) (ref : Word) (v : PoolSeen) : Option (List Nat) :=
  (s.readCairn ref v).map fun vs =>
    ((bits ref 39 0 :: vs.flatMap fun x => x.pages ++ x.sessions.flatMap fun y => y.pages ++ y.kvPages).map fun p => p / 1024).eraseDups

end Sys2Proof.Machine
end

