-- ==== Sys2Proof/Machine/Governor.lean ====
section
/-! DEFINITION. The power governor and the sensors (R395, R603, R730, R731, R736, R737, R758). -/

namespace Sys2Proof.Machine

open Sys2Proof

/-- CAP_W as it acts: larger values act as 1,800 (R731). -/
def State.capW (s : State) : Nat := min 1800 (s.field Reg.pltGov 15 0)

def State.powerT (s : State) (die : Nat) : Nat := SMap.get 3 s.plat.powerTarget die
def State.thermT (s : State) (die : Nat) : Nat := SMap.get 3 s.plat.thermTarget die

/-- A governor acts while the module is live and not PARKED (R748). -/
def State.governs (s : State) : Bool := s.live && s.plat.parkedSince.isNone

/-- The order in which dies are stepped down for power (R395): PREFILL, BOTH, DECODE, highest number first. -/
def State.downOrder (s : State) : List Nat :=
  [2, 3, 1].flatMap fun role => [3, 2, 1, 0].filter fun d => s.dieRole d = role
/-- Dies are stepped up in the reverse order of roles, lowest number first. -/
def State.upOrder (s : State) : List Nat :=
  [1, 3, 2].flatMap fun role => [0, 1, 2, 3].filter fun d => s.dieRole d = role

/-- GOV_POWER_SAMPLE (R731, R737): a 100 µs mean at or above CAP_W steps one die down, at most once per 10 ms. -/
def execGovPowerSample (watts : Nat) (s : State) : Host.Outcome State Fault Refusal :=
  .next (if !s.governs then s
    else
      let s := s.setReg (Reg.pltSensor 2) (fld 31 0 watts)
      let late := s.plat.overCap + bnat (s.capW < watts)
      let low := watts + s.field Reg.pltGov 43 32 < s.capW
      let s := { s with
        plat.lastPower := watts, plat.overCap := late
        plat.belowSince := if low then some (s.plat.belowSince.getD s.now) else none }
      let s := s.setReg (Reg.pltCnt 4) (BitVec.ofNat 64 (late / 10))
      let due := match s.plat.lastPowerDown with
        | none => true
        | some t => t + msec 10 ≤ s.now
      if watts < s.capW || !due then s
      else
        match s.downOrder.find? fun d => 0 < s.dvfsTarget d && !s.dieService d with
        | none => s
        | some d =>
          let s := { s with
            plat.powerTarget := SMap.put s.plat.powerTarget d (s.dvfsTarget d - 1), plat.lastPowerDown := some s.now }
          (s.bump (Reg.pltCnt 0)).setAttn 5)

/-- GOV_CURRENT_SAMPLE (R731, R739): above 1.05 × CAP_W or 40 A the stretch grows by an eighth; at or below CAP_W it eases
by an eighth.  The stretch grows on every non-service die and eases on every die. -/
def execGovCurrentSample (watts milliamps : Nat) (s : State) : Host.Outcome State Fault Refusal :=
  .next (if !s.governs then s
    else
      let high := 105 * s.capW < 100 * watts || 40000 < milliamps
      let next := fun (d : Nat) =>
        if high then (if s.dieService d then s.stretchOf d else min 8 (s.stretchOf d + 1))
        else if watts ≤ s.capW then s.stretchOf d - 1 else s.stretchOf d
      let us := s.plat.stretchNs + 10 * bnat s.stretching
      let s := { s with plat.stretchNs := us }.setReg (Reg.pltCnt 3) (BitVec.ofNat 64 us)
      [0, 1, 2, 3].foldl (fun s d => s.setStretch d (next d)) s)

/-- Step one die down for temperature. -/
def State.thermDown (s : State) (d : Nat) : State :=
  if s.dvfsTarget d = 0 then s
  else
    (({ s with plat.thermTarget := SMap.put s.plat.thermTarget d (s.dvfsTarget d - 1) }).bump (Reg.pltCnt 1)).setAttn 5

/-- THERMAL_TRIP (R731, R758): tiles are gated, the module faults, the C-die and base-die rails go off. -/
def State.thermalTrip (s : State) : State :=
  let s := s.moduleFault Code.thermalTrip 0
  { s with plat.tilesGated := true, plat.tripped := true, plat.failCode := Code.thermalTrip }

/-- Register of a junction sensor: C0 to C3, X0, X1, L0 to L3 (R730). -/
def junctionReg (i : Nat) : Nat := Reg.pltSensor (3 + i)

/-- GOV_JUNCTION_SAMPLE (R731, R758): a C-die at or above THROTTLE_C steps down every 10 ms; any junction at 110 °C trips. -/
def execGovJunctionSample (sensor : Fin 10) (tenths : Int) (s : State) : Host.Outcome State Fault Refusal :=
  .next (if !s.governs then s
    else
      let i := sensor.val
      let s := s.setReg (junctionReg i) (fld 31 0 (BitVec.ofInt 32 tenths).toNat)
      if 1100 ≤ tenths then s.thermalTrip
      else if 4 ≤ i then s
      else if tenths < (10 * s.field Reg.pltGov 51 44 : Nat) then
        { s with plat.hotDies := s.plat.hotDies.filter fun d => d ≠ i }
      else
        let s := { s with plat.hotDies := if s.plat.hotDies.contains i then s.plat.hotDies else s.plat.hotDies ++ [i] }
        let due := match SMap.lookup s.plat.lastThermDown i with
          | none => true
          | some t => t + msec 10 ≤ s.now
        if due then { s with plat.lastThermDown := SMap.put s.plat.lastThermDown i s.now }.thermDown i else s)

/-- GOV_STEP_UP (R731): power below CAP_W − HYST_W for UP_MS and no thermal condition steps one die up. -/
def execGovStepUp (s : State) : Host.Outcome State Fault Refusal :=
  .next (match s.plat.belowSince with
    | none => s
    | some t =>
      if !s.governs || !s.plat.hotDies.isEmpty || s.plat.dramHot || s.now < t + msec (s.field Reg.pltGov 31 16) then s
      else
        match s.upOrder.find? fun d => s.dvfsTarget d < 3 with
        | none => s
        | some d =>
          let up := s.dvfsTarget d + 1
          let s := { s with
            plat.powerTarget := SMap.put s.plat.powerTarget d (max up (s.powerT d))
            plat.thermTarget := SMap.put s.plat.thermTarget d (max up (s.thermT d)), plat.belowSince := some s.now }
          s.bump (Reg.pltCnt 2))

/-- MR4_READ (R603, R731): above 85 °C refresh doubles; above 105 °C THERMAL is set and every non-service die steps down
every 100 ms. -/
def execMr4Read (die : Nat) (celsius : Int) (s : State) : Host.Outcome State Fault Refusal :=
  .next (if !s.governs then s
    else
      let temps := SMap.put s.plat.dramTemps die celsius
      let hottest := temps.foldl (fun (a : Int) x => max a x.2) celsius
      let s := { s with plat.dramTemps := temps, plat.dramHot := 105 < hottest }
      let s := s.setReg (Reg.pltSensor 13) (fld 31 0 (BitVec.ofInt 32 hottest).toNat)
      let s := s.setField Reg.dramStatus 2 2 (bnat (85 < hottest))
      let s := s.iff (85 < celsius) fun s => s.bump (Reg.dramCnt 7)
      if hottest ≤ 105 then s
      else
        let s := s.setAttn 5
        let due := match s.plat.lastDramDown with
          | none => true
          | some t => t + msec 100 ≤ s.now
        if due then
          ([0, 1, 2, 3].filter fun d => !s.dieService d).foldl State.thermDown { s with plat.lastDramDown := some s.now }
        else s)

/-- Is refresh of a DRAM die doubled (R603)? -/
def State.doubleRefresh (s : State) (die : Nat) : Bool := 85 < SMap.get (0 : Int) s.plat.dramTemps die

/-- SENSOR_SAMPLE (R730): the platform block samples a sensor.  An input at or above 44 V ends R743's inhibition. -/
def execSensorSample (sensor : Fin 23) (value : BitVec 32) (s : State) : Host.Outcome State Fault Refusal :=
  .next (if !s.plat.rails then s
    else
      let s := s.setReg (Reg.pltSensor sensor.val) (fld 31 0 value.toNat)
      if sensor.val = 0 && 44000 ≤ value.toNat then { s with plat.inhibit := false } else s)

end Sys2Proof.Machine
end

