-- ==== Sys2Proof/Machine/Mgmt.lean ====
section
/-! DEFINITION. The management endpoint: MCTP control, PLDM, fuses, JTAG and SPDM (R720 to R729).  A reply is one list of
words: its response code and then its values.  Response code 0 is success (the family's codes, log entry 18). -/

namespace Sys2Proof.Machine

open Sys2Proof

/-- The endpoint answers from stage 0x2 on, in FAILED too (R714, R715). -/
def State.answers (s : State) : Bool := 2 ≤ s.plat.stage

/-- A management command: answered only when the endpoint runs. -/
def mgmt (s : State) (f : State → State) : Host.Outcome State Fault Refusal := .next (if s.answers then f s else s)

/-- ADDR as the strap inputs read: an open one reads as 1 (R752). -/
def State.strapAddr (s : State) : Nat :=
  sumNat ((List.range 3).map fun i => 2 ^ i * bnat ((s.plat.straps.getD i none).getD true))

/-- The static address of the endpoint on I3C and SMBus (R727, R751). -/
def State.staticAddress (s : State) : Nat := 0x48 + s.strapAddr

/-- A reply of the endpoint, from its static address. -/
def State.respond (s : State) (code : Nat) (ws : List Word) : State :=
  s.emit (.mgmt s.staticAddress (BitVec.ofNat 64 code :: ws))
def nat64 (n : Nat) : Word := BitVec.ofNat 64 n

/-- MCTP_CONTROL (R727): 1 sets the EID and 2 reads it, 3 reads the module's identity, 4 the version, 5 the message types;
other commands are answered with 5, unsupported. -/
def execMctpControl (command arg : Nat) (s : State) : Host.Outcome State Fault Refusal :=
  mgmt s fun s =>
    match command with
    | 1 => { s with plat.eid := arg % 256 }.respond 0 [nat64 (arg % 256)]
    | 2 => s.respond 0 [nat64 s.plat.eid]
    | 3 => s.respond 0 [SMap.get 0 s.plat.fuses 10]
    | 4 => s.respond 0 [0x0103]
    | 5 => s.respond 0 [0, 1, 5, 6]
    | _ => s.respond 5 []

/-- GET_TID (R728). -/
def execGetTid (s : State) : Host.Outcome State Fault Refusal := mgmt s fun s => s.respond 0 [nat64 s.plat.tid]

/-- SET_TID (R728): 0x00 and 0xFF are reserved TIDs. -/
def execSetTid (tid : BitVec 8) (s : State) : Host.Outcome State Fault Refusal :=
  mgmt s fun s =>
    if tid = 0 || tid = 0xFF then s.respond 2 [] else { s with plat.tid := tid.toNat }.respond 0 []

/-- PLDM types and their commands (R728). -/
def pldmTypes : List Nat := [0, 2, 5, 63]
def pldmCommands : Nat → List Nat
  | 0 => [0x02, 0x01, 0x03, 0x04, 0x05]
  | 2 => [0x51, 0x11, 0x21, 0x31, 0x32]
  | 5 => [0x01, 0x02, 0x10, 0x13, 0x14, 0x15, 0x16, 0x17, 0x18, 0x1A, 0x1B, 0x1C, 0x1D]
  | 63 => [0x01, 0x02]
  | _ => []

/-- GET_PLDM_VERSION (R728). -/
def execGetPldmVersion (kind : Nat) (s : State) : Host.Outcome State Fault Refusal :=
  mgmt s fun s => if pldmTypes.contains kind then s.respond 0 [nat64 kind] else s.respond 0x83 []

/-- GET_PLDM_TYPES (R728). -/
def execGetPldmTypes (s : State) : Host.Outcome State Fault Refusal := mgmt s fun s => s.respond 0 (pldmTypes.map nat64)

/-- GET_PLDM_COMMANDS (R728). -/
def execGetPldmCommands (kind : Nat) (s : State) : Host.Outcome State Fault Refusal :=
  mgmt s fun s =>
    if pldmTypes.contains kind then s.respond 0 ((pldmCommands kind).map nat64) else s.respond 0x83 []

/-- A sensor's reading: sensor ID is the register index plus 1; stage, FATAL_CODE and steps are read live (R730). -/
def State.sensor (s : State) (i : Nat) : Word :=
  if 17 ≤ i && i ≤ 20 then nat64 (s.field (Reg.seqStatus (i - 17)) 7 4)
  else if i = 21 then nat64 s.plat.stage
  else if i = 22 then nat64 s.host.fatalCode
  else s.reg (Reg.pltSensor i)

/-- GET_PDR (R728, R730): record n describes sensor n for 1 to 23, and effecter 1 for 24. -/
def execGetPdr (record : Nat) (s : State) : Host.Outcome State Fault Refusal :=
  mgmt s fun s => if 1 ≤ record && record ≤ 24 then s.respond 0 [nat64 record] else s.respond 0x82 []

/-- GET_SENSOR_READING (R730). -/
def execGetSensorReading (sensor : Nat) (s : State) : Host.Outcome State Fault Refusal :=
  mgmt s fun s => if 1 ≤ sensor && sensor ≤ 23 then s.respond 0 [s.sensor (sensor - 1)] else s.respond 0x80 []

/-- GET_STATE_SENSOR_READINGS (R728): the enumerated readings, DVFS steps, boot stage and FATAL_CODE (R730). -/
def execGetStateSensorReadings (sensor : Nat) (s : State) : Host.Outcome State Fault Refusal :=
  mgmt s fun s => if 18 ≤ sensor && sensor ≤ 23 then s.respond 0 [s.sensor (sensor - 1)] else s.respond 0x80 []

/-- SET_NUMERIC_EFFECTER_VALUE (R730, R731, R735): effecter 1 is CAP_W; a value below 600 is out of range. -/
def execSetNumericEffecterValue (effecter : Nat) (value : BitVec 16) (s : State) : Host.Outcome State Fault Refusal :=
  mgmt s fun s =>
    if effecter ≠ 1 then s.respond 0x80 []
    else if value.toNat < 600 then s.respond 2 []
    else (s.setField Reg.pltGov 15 0 value.toNat).respond 0 []

/-- GET_NUMERIC_EFFECTER_VALUE (R728). -/
def execGetNumericEffecterValue (effecter : Nat) (s : State) : Host.Outcome State Fault Refusal :=
  mgmt s fun s => if effecter = 1 then s.respond 0 [nat64 (s.field Reg.pltGov 15 0)] else s.respond 0x80 []

/-- GET_CHARGE (R590, R728): charging record k, eight words. -/
def execGetCharge (k : Nat) (s : State) : Host.Outcome State Fault Refusal :=
  mgmt s fun s =>
    if k < 16 then s.respond 0 ((List.range 8).map fun i => s.reg (Reg.pltChargeRec (8 * k + i))) else s.respond 2 []

/-! ### Firmware update (R729) -/

/-- QUERY_DEVICE_IDENTIFIERS (R728): the serial number. -/
def execQueryDeviceIdentifiers (s : State) : Host.Outcome State Fault Refusal :=
  mgmt s fun s => s.respond 0 [SMap.get 0 s.plat.fuses 10]

/-- GET_FIRMWARE_PARAMETERS (R728): versions of the ACTIVE bank and of the TRY bank. -/
def execGetFirmwareParameters (s : State) : Host.Outcome State Fault Refusal :=
  mgmt s fun s =>
    let v := fun (b : Nat) => nat64 (fwVersion (s.bank b).control).toNat
    s.respond 0 [v s.plat.activeBank, match s.plat.tryBank with
      | some b => v b
      | none => 0]

/-- FW_UPDATE_EN of the fuses. -/
def State.updateAllowed (s : State) : Bool := s.fuse 933

/-- REQUEST_UPDATE (R729). -/
def execRequestUpdate (s : State) : Host.Outcome State Fault Refusal :=
  mgmt s fun s =>
    if !s.updateAllowed then s.respond Code.fwUpdateRefused []
    else if s.plat.upd ≠ .idle then s.respond 0x81 []
    else { s with plat.upd := .learn, plat.updBank := 1 - s.plat.activeBank, plat.updDone := [] }.respond 0 []

/-- PASS_COMPONENT_TABLE (R728). -/
def execPassComponentTable (s : State) : Host.Outcome State Fault Refusal :=
  mgmt s fun s => if s.plat.upd = .learn then { s with plat.upd := .ready }.respond 0 [] else s.respond 0x84 []

/-- The image of a component in a bank: 0 control firmware, 1 service library (R711). -/
def Bank.image (k : Bank) (c : Nat) : List Byte := if c = 0 then k.control else k.service
def Bank.setImage (k : Bank) (c : Nat) (bs : List Byte) : Bank := if c = 0 then { k with control := bs } else { k with service := bs }
def State.setBank (s : State) (b : Nat) (k : Bank) : State :=
  if b = 0 then { s with plat.bankA := k } else { s with plat.bankB := k }

/-- The image that an update writes: that of its component in the bank that is not ACTIVE (R729). -/
def State.updImage (s : State) : List Byte := (s.bank s.plat.updBank).image s.plat.updComp
def State.setUpdImage (s : State) (bs : List Byte) : State :=
  s.setBank s.plat.updBank ((s.bank s.plat.updBank).setImage s.plat.updComp bs)

/-- UPDATE_COMPONENT (R729): a transfer of up to 8 MiB starts into the bank that is not ACTIVE. -/
def execUpdateComponent (component : Fin 2) (size : Nat) (s : State) : Host.Outcome State Fault Refusal :=
  mgmt s fun s =>
    if s.plat.upd ≠ .ready then s.respond 0x84 []
    else if size = 0 || 8388608 < size then s.respond 2 []
    else
      let s := { s with plat.upd := .download, plat.updComp := component.val, plat.updOffset := 0, plat.updSize := size }
      (s.setUpdImage []).respond 0 []

/-- REQUEST_FIRMWARE_DATA (R729): the next chunk of the image goes to the bank that is not ACTIVE. -/
def execRequestFirmwareData (offset : Nat) (data : List Byte) (s : State) : Host.Outcome State Fault Refusal :=
  mgmt s fun s =>
    let n := data.length
    if s.plat.upd ≠ .download then s.respond 0x84 []
    else if offset ≠ s.plat.updOffset || n = 0 || s.plat.updSize < offset + n then s.respond 0x82 []
    else ({ s with plat.updOffset := offset + n }.setUpdImage (s.updImage ++ data)).respond 0 []

/-- TRANSFER_COMPLETE (R728). -/
def execTransferComplete (s : State) : Host.Outcome State Fault Refusal :=
  mgmt s fun s =>
    if s.plat.upd = .download && s.plat.updOffset = s.plat.updSize then { s with plat.upd := .verify }.respond 0 []
    else s.respond 0x84 []

/-- VERIFY_COMPLETE (R729): success only when the image passes every check of R712. -/
def execVerifyComplete (s : State) : Host.Outcome State Fault Refusal :=
  mgmt s fun s =>
    if s.plat.upd ≠ .verify then s.respond 0x84 []
    else if s.imageOk (s.plat.updComp + 1) s.updImage && s.svnFused ≤ fwSvn s.updImage then { s with plat.upd := .apply }.respond 0 []
    else { s with plat.upd := .ready }.respond Code.fwUpdateRefused []

/-- APPLY_COMPLETE (R728): the component stands in its bank, in all four copies. -/
def execApplyComplete (s : State) : Host.Outcome State Fault Refusal :=
  mgmt s fun s =>
    if s.plat.upd ≠ .apply then s.respond 0x84 []
    else
      let b := s.plat.updBank
      { s.setBank b { s.bank b with copies := [true, true, true, true] } with
        plat.upd := .ready, plat.updDone := s.plat.updDone ++ [s.plat.updComp] }.respond 0 []

/-- ACTIVATE_FIRMWARE (R729, R737): the updated bank is named TRY. -/
def execActivateFirmware (s : State) : Host.Outcome State Fault Refusal :=
  mgmt s fun s =>
    if s.plat.upd ≠ .ready || s.plat.updDone.isEmpty then s.respond 0x84 []
    else (({ s with plat.tryBank := some s.plat.updBank, plat.upd := .idle }).bump (Reg.pltCnt 7)).respond 0 []

def UpdState.code : UpdState → Nat
  | .idle => 0
  | .learn => 1
  | .ready => 2
  | .download => 3
  | .verify => 4
  | .apply => 5
  | .activate => 6

/-- GET_STATUS (R728). -/
def execGetStatus (s : State) : Host.Outcome State Fault Refusal :=
  mgmt s fun s => s.respond 0 [nat64 s.plat.upd.code]

/-- CANCEL_UPDATE_COMPONENT (R728). -/
def execCancelUpdateComponent (s : State) : Host.Outcome State Fault Refusal :=
  mgmt s fun s =>
    if s.plat.upd = .download || s.plat.upd = .verify || s.plat.upd = .apply then { s with plat.upd := .ready }.respond 0 []
    else s.respond 0x84 []

/-- CANCEL_UPDATE (R728): the bank record is unchanged. -/
def execCancelUpdate (s : State) : Host.Outcome State Fault Refusal :=
  mgmt s fun s =>
    if s.plat.upd = .idle then s.respond 0x80 [] else { s with plat.upd := .idle, plat.updDone := [] }.respond 0 []

/-! ### Fuses and JTAG (R721, R723) -/

/-- A session of the management transport that FINISH has completed. -/
def State.secured (s : State) (id : Option Nat) : Bool :=
  s.plat.sessions.any fun x => id = some x.id && x.finished && x.port = .mctp

def State.arrayBit (s : State) (i : Nat) : Bool := bit (SMap.get 0 s.plat.array (i / 64)) (i % 64)

/-- Bits FUSE_PROGRAM may still blow once PROVISIONED is set: unused repair entries, SVN bits and DEBUG_LOCK. -/
def State.lateBit (s : State) (i : Nat) : Bool :=
  (800 ≤ i && i < 864) || i = 931 ||
    (1024 ≤ i && i < 1408 && !s.arrayBit (1024 + (i - 1024) / 12 * 12 + 11))

/-- FUSE_PROGRAM (R721, R723, R724): blows permitted bits, is measured into register 6, and is refused with FUSE_DENIED
otherwise or when the measurement log is full.  The first one makes DEVICE_SECRET from the entropy source. -/
def execFuseProgram (session : Option Nat) (bits_ : List Nat) (signature : List Byte) (s : State) :
    Host.Outcome State Fault Refusal :=
  mgmt s fun s =>
    let body := bits_.flatMap fun i => leBytes i 2
    let free := bits_.all fun i => i < 4096 && !(384 ≤ i && i < 640) && !s.arrayBit i
    let ok := if s.arrayBit 932 then free && signature.length = 256 && s.signed (body ++ signature) body.length && bits_.all s.lateBit else free
    if !(s.secured session && ok) then s.respond Code.fuseDenied []
    else
      match s.extend 6 6 (Config.sha384 body) with
      | none => s.respond Code.fuseDenied []
      | some s =>
        let s := if s.plat.secretMade then s
          else
            let f := s.fresh
            let e := (Config.entropy f.1).toNat
            { f.2 with plat.secretMade := true
                       plat.array := blowBits f.2.plat.array
                         (((List.range 256).filter fun i => e / 2 ^ i % 2 = 1).map (384 + ·)) }
        { s with plat.array := blowBits s.plat.array bits_ }.respond 0 []

/-- JTAG_SESSION (R720, R723, R724): a debug session is measured into register 6; it is not opened when DEBUG_LOCK is
blown or the measurement log is full. -/
def execJtagSession (digest : BitVec 384) (s : State) : Host.Outcome State Fault Refusal :=
  .next (if !s.plat.rails || s.plat.stage = 0 || s.fuse 931 then s
    else match s.extend 6 7 digest with
      | none => s
      | some s => { s with plat.jtagOpen := true })

/-! ### SPDM (R725, R726): response codes 0x7F with an error code are the family's -/

def portIdx : SpdmPort → Nat
  | .mctp => 0
  | .doe f => 1 + f.val

def State.conn (s : State) (p : SpdmPort) : SpdmConn := SMap.get {} s.plat.spdm (portIdx p)
def State.setConn (s : State) (p : SpdmPort) (c : SpdmConn) : State :=
  { s with plat.spdm := s.plat.spdm.set {} (portIdx p) c }

/-- Sessions a transport supports: 4 over MCTP, 2 per function over DOE. -/
def portSessions : SpdmPort → Nat
  | .mctp => 4
  | .doe _ => 2

def State.spdmError (s : State) (code : Nat) : State := s.respond 0x7F [nat64 code]
/-- An UNEXPECTED_REQUEST error. -/
def State.spdmEarly (s : State) : State := s.spdmError 4

/-- A reply whose cryptographic bytes are free (R725, R726). -/
def State.spdmCrypto (s : State) (code : Nat) (ws : List Word) : State :=
  let f := s.fresh
  f.2.respond code (ws ++ [Config.crypto f.1])

/-- GET_VERSION (R726): 1.2 and 1.3; the connection starts again. -/
def execGetVersion (port : SpdmPort) (s : State) : Host.Outcome State Fault Refusal :=
  mgmt s fun s => (s.setConn port { version := 1 }).respond 0x04 [0x12, 0x13]

/-- GET_CAPABILITIES (R726). -/
def execGetCapabilities (port : SpdmPort) (s : State) : Host.Outcome State Fault Refusal :=
  mgmt s fun s =>
    if (s.conn port).version = 0 then s.spdmEarly else (s.setConn port { s.conn port with caps := true }).respond 0x61 []

/-- NEGOTIATE_ALGORITHMS (R726): ECDSA P-384, SHA-384, secp384r1, AES-256-GCM. -/
def execNegotiateAlgorithms (port : SpdmPort) (s : State) : Host.Outcome State Fault Refusal :=
  mgmt s fun s =>
    if !(s.conn port).caps then s.spdmEarly else (s.setConn port { s.conn port with algs := true }).respond 0x63 []

/-- A request that needs negotiated algorithms. -/
def State.negotiated (s : State) (port : SpdmPort) (f : State → State) : State :=
  if (s.conn port).algs then f s else s.spdmEarly

/-- GET_DIGESTS (R726): certificate slot 0. -/
def execGetDigests (port : SpdmPort) (s : State) : Host.Outcome State Fault Refusal :=
  mgmt s fun s => s.negotiated port fun s => s.spdmCrypto 0x01 [1]

/-- GET_CERTIFICATE (R725): slot 0 holds the chain. -/
def execGetCertificate (port : SpdmPort) (slot : Nat) (s : State) : Host.Outcome State Fault Refusal :=
  mgmt s fun s => s.negotiated port fun s => if slot = 0 then s.spdmCrypto 0x02 [0] else s.spdmError 1

/-- CHALLENGE (R726). -/
def execChallenge (port : SpdmPort) (slot : Nat) (s : State) : Host.Outcome State Fault Refusal :=
  mgmt s fun s => s.negotiated port fun s => if slot = 0 then s.spdmCrypto 0x03 [0] else s.spdmError 1

/-- The words of a register as measured: word i in the order of R734. -/
def measWords (m : BitVec 384) : List Word := (List.range 6).map fun i => nat64 (m.toNat / 2 ^ (64 * i))

/-- GET_MEASUREMENTS (R724, R726): index n + 1 reports register n, 0x10 the log, 0 the number of indices; signed. -/
def execGetMeasurements (port : SpdmPort) (index : Nat) (s : State) : Host.Outcome State Fault Refusal :=
  mgmt s fun s => s.negotiated port fun s =>
    if index = 0 then s.spdmCrypto 0x60 [9]
    else if index ≤ 8 then s.spdmCrypto 0x60 (measWords (SMap.get 0 s.plat.meas (index - 1)))
    else if index = 16 then
      s.spdmCrypto 0x60 (s.plat.measLog.flatMap fun e => nat64 e.reg :: nat64 e.kind :: measWords e.digest)
    else s.spdmError 1

/-- KEY_EXCHANGE (R726): a session handshake starts while the transport has a session free. -/
def execKeyExchange (port : SpdmPort) (s : State) : Host.Outcome State Fault Refusal :=
  mgmt s fun s => s.negotiated port fun s =>
    if portSessions port ≤ (s.plat.sessions.filter fun x => x.port = port).length then s.spdmError 0x0B
    else
      let id := s.plat.nextSession
      { s with plat.nextSession := id + 1
               plat.sessions := s.plat.sessions ++ [SpdmSession.mk port id false 0 s.now] }.spdmCrypto 0x64 [nat64 id]

/-- Change the session a request names; an unknown session is answered with an error. -/
def State.session (s : State) (port : SpdmPort) (id : Nat) (done : Bool) (f : SpdmSession → SpdmSession) (code : Nat) :
    State :=
  if s.plat.sessions.any fun x => x.port = port && x.id = id && x.finished = done then
    { s with plat.sessions := s.plat.sessions.map fun (x : SpdmSession) =>
        if x.port = port && x.id = id then f x else x }.respond code []
  else s.spdmError 2

/-- FINISH (R726, R737): the session is established. -/
def execFinish (port : SpdmPort) (session : Nat) (s : State) : Host.Outcome State Fault Refusal :=
  mgmt s fun s =>
    let new := s.plat.sessions.any fun x => x.port = port && x.id = session && !x.finished
    (s.iff new fun s => s.bump (Reg.pltCnt 6)).session port session false
      (fun x => { x with finished := true }) 0x65

/-- KEY_UPDATE (R726). -/
def execKeyUpdate (port : SpdmPort) (session : Nat) (s : State) : Host.Outcome State Fault Refusal :=
  mgmt s fun s => s.session port session true (fun x => { x with keyGen := x.keyGen + 1 }) 0x69

/-- HEARTBEAT (R726). -/
def execHeartbeat (port : SpdmPort) (session : Nat) (s : State) : Host.Outcome State Fault Refusal :=
  mgmt s fun s => s.session port session true (fun x => { x with beatNs := s.now }) 0x68

/-- END_SESSION (R726). -/
def execEndSession (port : SpdmPort) (session : Nat) (s : State) : Host.Outcome State Fault Refusal :=
  mgmt s fun s =>
    if s.plat.sessions.any fun x => x.port = port && x.id = session && x.finished then
      { s with plat.sessions := s.plat.sessions.filter fun (x : SpdmSession) => !(x.port = port && x.id = session) }.respond
        0x6C []
    else s.spdmError 2

end Sys2Proof.Machine
end

