-- ==== Sys2Proof/Machine/TileMap.lean ====
section
/-! DEFINITION. Remapping and fencing tiles (R253 to R255, R258). -/

namespace Sys2Proof.Machine

open Sys2Proof

/-- REMAP_DENIED of R255: a fenced physical tile, one already mapped, or one above 33; 0x3F unmaps. -/
def State.remapDenied (s : State) (die phys : Nat) : Bool :=
  phys ≠ 63 && (34 ≤ phys || s.tileFenced die phys || (List.range 32).any fun t => s.physTile die t = some phys)

/-- Ask for a new binding of a logical tile at the die's next segment boundary; a denied one changes nothing (R254, R255). -/
def State.remap (s : State) (die logical phys : Nat) : State :=
  if s.remapDenied die phys then s else { s with cmp.remaps := s.cmp.remaps ++ [(die, logical, phys)] }

/-- Fence a physical tile of a die (R253); no tile above 33 exists. -/
def State.fenceNamed (s : State) (die phys : Nat) : State := if 34 ≤ phys then s else s.fenceTile die phys

/-- TILE_REMAP (R254, R258): a write of TILE.REMAP with GO = 1 and FENCE = 0. -/
def execTileRemap (die : Fin 4) (logical : BitVec 5) (phys : BitVec 6) (s : State) :
    Host.Outcome State Fault Refusal :=
  gate s fun s => s.remap die.val logical.toNat phys.toNat

/-- TILE_FENCE (R253, R258): a write of TILE.REMAP with GO = 1 and FENCE = 1. -/
def execTileFence (die : Fin 4) (phys : BitVec 6) (s : State) : Host.Outcome State Fault Refusal :=
  gate s fun s => s.fenceNamed die.val phys.toNat

/-- A write of TILE.REMAP (R258). -/
def State.tileGo (s : State) (v : Word) : State :=
  if bit v 15 then s.fenceNamed (bits v 14 13) (bits v 5 0) else s.remap (bits v 14 13) (bits v 10 6) (bits v 5 0)

end Sys2Proof.Machine
end

