-- ==== Sys2Proof/Machine/Flags.lean ====
section
/-! DEFINITION. Registers as software reads and writes them: fields that report a unit's state, and the access codes
(R12, R14 to R18, R680). -/

namespace Sys2Proof.Machine

open Sys2Proof

/-! ### Fields that report state -/

def SeqState.code : SeqState → Nat
  | .idle => 0
  | .running => 1
  | .stalled => 2
  | .ending => 3
  | .saving => 4
  | .discarding => 5

/-- Count, levels, EMPTY and FULL of a queue (R342); UNDERRUN and ECC_LOST are stored. -/
def State.qstat (s : State) (q : Nat) : Word :=
  let l := (s.queue q).items
  let lv := sumNat ((List.range 8).map fun k => bnat (l.any fun e => e.prio = k) * 2 ^ k)
  setBits (setBits (setBits (setBits (s.reg (Reg.hqQstat q)) 45 45 (bnat l.isEmpty)) 44 44
    (bnat (l.length = s.qDepth q && !l.isEmpty))) 39 32 lv) 12 0 l.length

/-- SEQ.STATUSn (R312). -/
def State.seqStatusReg (s : State) (n : Nat) : Word :=
  let d := SMap.get {} s.cmp.dies n
  setBits (setBits (setBits (s.reg (Reg.seqStatus n)) 63 32 d.startNo.toNat) 3 3 (bnat d.save.isSome)) 2 0 d.state.code

/-- TILE.STATUSn (R259): SPARES and NO_SPARE follow from the map and the fences. -/
def State.tileStatusReg (s : State) (n : Nat) : Word :=
  setBits (setBits (s.reg (Reg.tileStatus n)) 37 36 (s.spares n)) 38 38
    (bnat (s.spares n = 0 && (List.range 32).any fun t => match s.physTile n t with
      | some p => s.tileFenced n p
      | none => true))

/-- FAB.COMP (R596). -/
def State.fabCompReg (s : State) : Word :=
  setBits (setBits (setBits (setBits (s.reg Reg.fabComp) 63 48 s.comp.map.epoch.toNat) 47 32
    ((s.comp.old.map (·.epoch.toNat)).getD 0)) 31 31 (bnat s.comp.old.isSome)) 11 9 s.comp.map.ringPos ||| fld 8 0
    s.comp.held.length

/-- A FULL image is in effect (R655, R680). -/
def State.loaded (s : State) : Bool := s.cfg.base.isSome

/-- The agreement group of a register's RWS fields (R648). -/
def groupOf (k : Nat) : Option Nat :=
  if k = Reg.tsmWatermark || k = Reg.tsmPolicy || k = Reg.tsmCostWeight then some 0
  else if k = Reg.tsmSettRation then some 1
  else if k = Reg.tsmSnap then some 2
  else if k = Reg.hmpCustody || k = Reg.hmpRevive then some 3
  else if k = Reg.kvsAttn then some 4
  else if k = Reg.tileFence then some 5
  else if k = Reg.ctlStep || k = Reg.ctlSpec || k = Reg.ctlDeadline || k = Reg.ctlRation then some 6
  else if k = Reg.ctlSched then some 7
  else if k = Reg.txtControl then some 8
  else if k = Reg.seuControl || k = Reg.seuHot then some 9
  else if k = Reg.netControl || k = Reg.netRoce || k = Reg.netDscp 0 || k = Reg.netDscp 1 then some 10
  else if k = Reg.trlControl then some 11
  else if k = Reg.fabControl || k = Reg.fabPrefetch then some 12
  else if k = Reg.dramScrub then some 13
  else if Reg.hqQcfg 0 ≤ k && k < Reg.hqQcfg 512 then some 14
  else none

/-- A register with its shadowed RWS fields in place (R17, R646). -/
def State.shadowReg (s : State) (k : Nat) : Word := (SMap.lookup s.shadow k).getD (s.reg k)

/-- Group g has a shadow or staged body that differs from its value in effect (R655). -/
def State.dirty (s : State) (g : Nat) : Bool :=
  if g = 15 then !s.cfg.vocabs.isEmpty
  else if g = 16 then !s.cfg.indexes.isEmpty
  else s.shadow.any fun x => groupOf x.1 = some g && x.2 ≠ s.reg x.1

/-- Bits of the groups that satisfy a test. -/
def groupBits (p : Nat → Bool) : Nat := sumNat ((List.range 17).map fun g => bnat (p g) * 2 ^ g)

def State.ctlCfgReg (s : State) : Word :=
  fld 63 63 (bnat s.loaded) ||| fld 48 32 (groupBits s.dirty) |||
    fld 16 0 (groupBits fun g => (SMap.lookup s.cfg.pending g).isSome)

/-- Power states of R744. -/
def State.pwrState (s : State) : Nat :=
  if s.plat.latched || !(s.plat.rails || s.ramping) then 0
  else if s.host.fatal then 4
  else if s.plat.parkedSince.isSome then 3
  else if s.plat.stage = 7 then 2
  else 1

/-- PLT.BOOT (R733). -/
def State.pltBootReg (s : State) : Word :=
  fld 63 60 s.plat.stage ||| fld 59 57 s.plat.cause ||| fld 56 56 s.plat.bootBank ||| fld 55 55 (bnat s.plat.tryFailed)
    ||| fld 54 48 s.svnFused ||| fld 47 32 s.plat.failCode ||| fld 31 0 s.plat.fwVersion.toNat

/-- PLT.GOV_STATUS (R736). -/
def State.govStatusReg (s : State) : Word :=
  let all := List.range 4
  fld 21 21 (bnat s.stretching) ||| fld 20 20 (bnat (all.any fun d => s.powerT d < 3))
    ||| fld 19 16 (sumNat (all.map fun d => bnat (s.thermT d < 3) * 2 ^ d))
    ||| fld 15 0 (sumNat (all.map fun d => s.dvfsTarget d * 16 ^ d))

/-- A fuse word as it reads: DEVICE_SECRET reads 0 (R720, R734). -/
def State.fuseReg (s : State) (w : Nat) : Word := if 6 ≤ w && w < 10 then 0 else SMap.get 0 s.plat.fuses w

def inFam (first count k : Nat) : Bool := first ≤ k && k < first + count

/-- The value a register reads: reported fields from the unit's state, WO and reserved bits zero. -/
def State.readReg (s : State) (k : Nat) : Word :=
  let raw :=
    if inFam (Reg.hqPush 0) 4 k then setBits (s.reg k) 62 62 (bnat (s.isBusy (busyPush (k - Reg.hqPush 0))))
    else if inFam (Reg.hqPop 0) 4 k then setBits (s.reg k) 62 62 (bnat (s.isBusy (busyPop (k - Reg.hqPop 0))))
    else if k = Reg.hqFlush then setBits (s.reg k) 62 62 (bnat (s.isBusy busyFlush))
    else if inFam (Reg.hqQstat 0) 512 k then s.qstat (k - Reg.hqQstat 0)
    else if inFam (Reg.seqStatus 0) 4 k then s.seqStatusReg (k - Reg.seqStatus 0)
    else if inFam (Reg.tileStatus 0) 4 k then s.tileStatusReg (k - Reg.tileStatus 0)
    else if inFam (Reg.tlyPool 0) 4 k then setBits (s.reg k) 12 0 (s.poolUsed (k - Reg.tlyPool 0))
    else if k = Reg.kvsReclaim then fld 16 0 s.kvs.deferred.length
    else if k = Reg.fabComp then s.fabCompReg
    else if k = Reg.ctlCfg then s.ctlCfgReg
    else if k = Reg.pltBoot then s.pltBootReg
    else if inFam (Reg.pltFuse 0) 64 k then s.fuseReg (k - Reg.pltFuse 0)
    else if inFam (Reg.pltMeas 0) 48 k then
      let i := k - Reg.pltMeas 0
      BitVec.ofNat 64 ((SMap.get 0 s.plat.meas (i / 6)).toNat / 2 ^ (64 * (i % 6)))
    else if inFam (Reg.pltSensor 0) 23 k then s.sensor (k - Reg.pltSensor 0)
    else if k = Reg.pltGovStatus then s.govStatusReg
    else if k = Reg.pltPwr then setBits (s.reg k) 63 61 s.pwrState
    else if inFam (Reg.netPort 0) 2 k then
      setBits (s.reg k) 47 0 (s.fuseBits (751 + 48 * (k - Reg.netPort 0)) (704 + 48 * (k - Reg.netPort 0)))
    else s.reg k
  raw &&& (regMask k .ro ||| regMask k .rw ||| regMask k .w1c ||| regMask k .rws)

/-! ### Writes (R12, R15 to R17) -/

/-- The value a write leaves in a register's RW and W1C fields. -/
def written (k : Nat) (old v : Word) : Word :=
  let rw := regMask k .rw
  let w1c := regMask k .w1c
  ((old &&& ~~~ rw) ||| (v &&& rw)) &&& ~~~ (v &&& w1c)

/-- PLT.GOV keeps fields whose new value lies outside the stated range (R735). -/
def govGuard (old v : Word) : Word :=
  let v := if bits v 51 44 < 80 || 105 < bits v 51 44 then setBits v 51 44 (bits old 51 44) else v
  let v := if bits v 31 16 = 0 then setBits v 31 16 (bits old 31 16) else v
  if bits v 15 0 < 600 then setBits v 15 0 (bits old 15 0) else v

/-- The busy key and the longest time of the operation that GO starts in a queue register (R332, R345). -/
def goKey (k : Nat) : Option (Nat × Nat) :=
  if inFam (Reg.hqPush 0) 4 k then some (busyPush (k - Reg.hqPush 0), 150)
  else if inFam (Reg.hqPop 0) 4 k then some (busyPop (k - Reg.hqPop 0), 150)
  else if k = Reg.hqFlush then some (busyFlush, 100)
  else none

/-- The action that a write of a WO field starts (R15). -/
def State.woAction (s : State) (k : Nat) (v : Word) : State :=
  if inFam (Reg.hqPush 0) 4 k then s.iff (bit v 63) fun s => s.corePush (k - Reg.hqPush 0) (bits v 8 0) (bits v 11 9)
  else if inFam (Reg.hqPop 0) 4 k then s.iff (bit v 63) fun s => s.corePop (k - Reg.hqPop 0) (bits v 8 0)
  else if k = Reg.hqFlush then s.iff (bit v 63) fun s => s.coreFlush (bits v 8 0)
  else if inFam (Reg.tlyOp 0) 4 k then s.iff (bit v 63) fun s => s.coreOp (Fin.ofNat 4 (k - Reg.tlyOp 0)) v
  else if inFam (Reg.tlyPool 0) 4 k then s.iff (bit v 63) fun s => s.clearPeak (k - Reg.tlyPool 0)
  else if k = Reg.tileRemap then s.iff (bit v 16) fun s => s.tileGo v
  else s

/-- A write to a register: RW at once, W1C clears, RWS into the shadow, RO ignored, WO starts its action (R15). -/
def State.writeReg (s : State) (k : Nat) (v : Word) : State :=
  let v := if k = Reg.pltGov then govGuard (s.reg k) v else v
  let s := s.setReg k (written k (s.reg k) v)
  let rws := regMask k .rws
  let s := s.iff (rws ≠ 0) fun s => { s with shadow := SMap.put s.shadow k ((s.reg k &&& ~~~ rws) ||| (v &&& rws)) }
  s.woAction k v

/-- A write in whose cycle the module sets the W1C bits `same`: those bits stay set (R16).  A write of GO while BUSY is 1 is ignored
(R332); else the operation it starts stays busy for `ns`. -/
def State.regWrite (s : State) (k : Nat) (v same : Word) (ns : Nat) : State :=
  let put := fun (s : State) =>
    let s := s.writeReg k v
    s.setReg k (s.reg k ||| (same &&& regMask k .w1c))
  match goKey k with
  | some (b, most) => if bit v 63 then s.go b (min ns most) put else put s
  | none => put s

/-! ### HOST registers (R680) -/

/-- HOST.STATUS of a function. -/
def State.hostStatus (s : State) (f : Nat) : Word :=
  fld 63 63 (bnat s.host.ready) ||| fld 62 62 (bnat s.loaded) ||| fld 61 61 (bnat s.host.fatal)
    ||| fld 60 60 (bnat (s.fn f).ideSecure) ||| fld 59 56 s.plat.stage ||| fld 15 0 s.host.fatalCode

/-- A pair has fetched commands that have not completed (R663). -/
def State.qpBusy (s : State) (f q : Nat) : Bool := s.host.cmds.any fun c => c.fn = f && c.qp = q

def State.qcfgReg (s : State) (f q : Nat) : Word :=
  let p := (s.fn f).qp q
  fld 63 63 (bnat p.en) ||| fld 62 62 (bnat (s.qpBusy f q)) ||| fld 61 61 (bnat p.error) ||| fld 28 16 p.cqSize
    ||| fld 12 0 p.sqSize

/-- A read of a function's BAR0; other offsets read as zero. -/
def State.readBar (s : State) (f off : Nat) : Word :=
  let x := s.fn f
  if off = 0x00 then fld 63 54 (if s.loaded then s.self else 0) ||| fld 31 0 s.plat.fwVersion.toNat
  else if off = 0x08 then fld 0 0 (bnat x.enable)
  else if off = 0x10 then s.hostStatus f
  else if off = 0x18 then BitVec.ofNat 64 (x.attn.toNat / 2 * 2)
  else if off = 0x20 then BitVec.ofNat 64 s.now
  else if 0x400 ≤ off && off < 0x600 then
    let p := x.qp ((off - 0x400) / 32)
    if off % 32 = 0 then p.sqBase else if off % 32 = 8 then p.cqBase
    else if off % 32 = 16 then s.qcfgReg f ((off - 0x400) / 32) else 0
  else if 0x1000 ≤ off && off < 0x1100 then
    let p := x.qp ((off - 0x1000) / 16)
    if off % 16 = 0 then BitVec.ofNat 64 p.tail else if off % 16 = 8 then BitVec.ofNat 64 p.headReg else 0
  else 0

/-- Change one queue pair of a function. -/
def State.setPair (s : State) (f q : Nat) (g : QPair → QPair) : State :=
  s.setFn f ((s.fn f).setQp q (g ((s.fn f).qp q)))

end Sys2Proof.Machine
end

