-- ==== Sys2Proof/Machine/HostIf.lean ====
section
/-! DEFINITION. The host port: rings, command fetch and its checks, attention, and the commands that belong to no unit
(R656 to R681). -/

namespace Sys2Proof.Machine

open Sys2Proof

/-! ### Ports, functions and rings -/

/-- The host port answers: the X-dies have left reset. -/
def State.portUp (s : State) : Bool := s.plat.rails && 1 ≤ s.plat.stage && !s.plat.latched

/-- A command that acts while the host port answers, whether or not the module has failed. -/
def portGate (s : State) (f : State → State) : Host.Outcome State Fault Refusal := .next (if s.portUp then f s else s)

/-- No completion record of the commands of some pairs is written any more (R659, R663). -/
def State.silence (s : State) (p : HostCmd → Bool) : State :=
  { s with host.cmds := s.host.cmds.map fun (c : HostCmd) => if p c then { c with silent := true } else c }

/-- The HOST registers of a function return to their reset values and its commands go on without records (R659). -/
def State.resetFn (s : State) (f : Nat) : State :=
  (s.setFn f { ideSecure := (s.fn f).ideSecure }).silence fun c => c.fn = f

/-- HOST_PORT_RESET (R708): both functions; the IDE streams end with the link (log entry 19). -/
def execHostPortReset (s : State) : Host.Outcome State Fault Refusal :=
  portGate s fun s =>
    let s := (s.resetFn 0).resetFn 1
    (s.setFn 0 {}).setFn 1 {}

/-- FUNCTION_LEVEL_RESET (R659). -/
def execFunctionLevelReset (fn : Fin 2) (s : State) : Host.Outcome State Fault Refusal :=
  portGate s fun s => s.resetFn fn.val

/-- Write the completions held for IDE, in order (R658). -/
def releaseHeld : List HeldDone → State → State
  | [], s => s
  | h :: hs, s => releaseHeld hs (s.writeRecord h.cmd h.code h.detail h.data h.doneNs)

/-- IDE_STATE_CHANGE (R658). -/
def execIdeStateChange (fn : Fin 2) (secure : Bool) (s : State) : Host.Outcome State Fault Refusal :=
  portGate s fun s =>
    let f := s.fn fn.val
    if secure then releaseHeld f.held (s.setFn fn.val { f with ideSecure := true, held := [] })
    else s.setFn fn.val { f with ideSecure := false }

/-- A ring size of R681. -/
def ringSizeOk (n : Nat) : Bool := 16 ≤ n && n ≤ 4096 && n % 16 = 0

/-- A write of HOST.QCFGq (R660, R663, R681). -/
def State.writeQcfg (s : State) (f q : Nat) (value : Word) : State :=
  let p := (s.fn f).qp q
  let sq := bits value 12 0
  let cq := bits value 28 16
  if bit value 63 then
    if p.en then s
    else if ringSizeOk sq && ringSizeOk cq then
      s.setPair f q fun p => { p with en := true, sqSize := sq, cqSize := cq, sqHead := 0, cqTail := 0, phase := true }
    else s.setPair f q fun p => { p with sqSize := sq, cqSize := cq, error := true }
  else if p.en then
    (s.setPair f q fun p => { p with en := false, error := false }).silence fun c => c.fn = f && c.qp = q
  else s.setPair f q fun p => { p with sqSize := sq, cqSize := cq, error := false }

/-- Writes of HOST.SQ_TAILq (R661) and HOST.CQ_HEADq (R662). -/
def State.writeTail (s : State) (f q : Nat) (value : Word) : State :=
  s.setPair f q fun p => { p with tail := bits value 11 0, error := p.error || (p.en && p.sqSize ≤ bits value 11 0) }
def State.writeHead (s : State) (f q : Nat) (value : Word) : State :=
  s.setPair f q fun p => { p with headReg := bits value 11 0, error := p.error || (p.en && p.cqSize ≤ bits value 11 0) }

/-- A write of HOST.ATTN (R676): a 1 clears a bit; the bits the module sets in the cycle of the write are set after it (R16). -/
def State.writeAttn (s : State) (f : Nat) (value same : Word) : State :=
  let x := s.fn f
  let s := s.setFn f { x with attn := x.attn &&& ~~~ BitVec.ofNat 8 (bits value 7 1 * 2) }
  ([1, 2, 3, 4, 5, 6, 7].filter fun k => bit same k).foldl State.setAttn s

/-- QCFG_WRITE (R660, R663, R681). -/
def execQcfgWrite (fn : Fin 2) (qp : Fin 16) (value : Word) (s : State) : Host.Outcome State Fault Refusal :=
  portGate s fun s => s.writeQcfg fn.val qp.val value

/-- SQ_TAIL_WRITE (R661). -/
def execSqTailWrite (fn : Fin 2) (qp : Fin 16) (value : Word) (s : State) : Host.Outcome State Fault Refusal :=
  portGate s fun s => s.writeTail fn.val qp.val value

/-- CQ_HEAD_WRITE (R662). -/
def execCqHeadWrite (fn : Fin 2) (qp : Fin 16) (value : Word) (s : State) : Host.Outcome State Fault Refusal :=
  portGate s fun s => s.writeHead fn.val qp.val value

/-- ATTN_CLEAR (R676). -/
def execAttnClear (fn : Fin 2) (value same : Word) (s : State) : Host.Outcome State Fault Refusal :=
  portGate s fun s => s.writeAttn fn.val value same

/-! ### Writes of BAR0 (R680) -/

/-- A write of a function's BAR0; the ring bases keep their values while EN is 1 (R660), and other offsets ignore it. -/
def State.writeBar (s : State) (f off : Nat) (v same : Word) : State :=
  if off = 0x08 then s.setFn f { s.fn f with enable := bit v 0 }
  else if off = 0x18 then s.writeAttn f v same
  else if 0x400 ≤ off && off < 0x600 then
    let q := (off - 0x400) / 32
    let a := v &&& ~~~ 0xFFF#64
    if off % 32 = 16 then s.writeQcfg f q v
    else if ((s.fn f).qp q).en then s
    else if off % 32 = 0 then s.setPair f q fun p => { p with sqBase := a }
    else if off % 32 = 8 then s.setPair f q fun p => { p with cqBase := a }
    else s
  else if 0x1000 ≤ off && off < 0x1100 then
    if off % 16 = 0 then s.writeTail f ((off - 0x1000) / 16) v
    else if off % 16 = 8 then s.writeHead f ((off - 0x1000) / 16) v
    else s
  else s

/-- REGISTER_WRITE (R15, R16, R680): a register of a block while firmware runs, or of BAR0 while the host port answers. -/
def execRegisterWrite (reg : RegRef) (value same : Word) (ns : Nat) (s : State) : Host.Outcome State Fault Refusal :=
  match reg with
  | .block k => gate s fun s => s.regWrite k value same ns
  | .bar f off => portGate s fun s => s.writeBar f.val off value same

/-! ### Attention (R675, R676) -/

/-- The conditions of R675 that can persist. -/
def State.attnConditions (s : State) : List Nat :=
  (if s.tsm.pressure then [2] else []) ++ (if s.fw.stalled then [3] else []) ++
    (if s.plat.dramHot || (List.range 4).any fun d => s.powerT d < 3 || s.thermT d < 3 then [5] else []) ++
    (if s.host.fatal then [7] else [])

/-- ATTENTION_REASSERT (R676). -/
def execAttentionReassert (fn : Fin 2) (s : State) : Host.Outcome State Fault Refusal :=
  portGate s fun s =>
    let f := s.fn fn.val
    let s := s.setFn fn.val
      { f with attn := s.attnConditions.foldl (fun a v => a ||| BitVec.ofNat 8 (2 ^ v)) f.attn }
    watchLoop fn.val s.host.cmds s

/-! ### Command fetch (R661 to R668) -/

/-- The bits the arguments of an opcode may use, argument by argument; those left out use none (R668). -/
def argMasks : Nat → Option (List Word)
  | 0x00 => some []
  | 0x01 => some [fldMask 63 32 ||| fldMask 7 1]
  | 0x02 => some [fldMask 63 40 ||| fldMask 15 0, fldMask 63 0]
  | 0x03 => some [fldMask 63 0, fldMask 63 0]
  | 0x04 => some [fldMask 31 0]
  | 0x05 => some [fldMask 63 0]
  | 0x10 => some [fldMask 63 0, fldMask 63 0]
  | 0x11 => some []
  | 0x12 => some []
  | 0x13 => some []
  | 0x14 => some [fldMask 63 63 ||| fldMask 57 48]
  | 0x15 => some [fldMask 63 0, fldMask 63 0, fldMask 63 52 ||| fldMask 21 0, fldMask 63 0,
      fldMask 63 48 ||| fldMask 40 32 ||| fldMask 11 0]
  | 0x16 => some [fldMask 63 0]
  | 0x17 => some [fldMask 63 63 ||| fldMask 17 0, fldMask 63 63 ||| fldMask 5 0]
  | 0x18 => some [fldMask 63 0, fldMask 63 32 ||| fldMask 7 0, fldMask 15 8 ||| fldMask 1 0, fldMask 40 32 ||| fldMask 11 0]
  | 0x19 => some [fldMask 63 0, fldMask 7 0, fldMask 63 0]
  | 0x20 => some [fldMask 63 0, fldMask 63 0, fldMask 63 0, fldMask 63 45 ||| fldMask 34 0, fldMask 63 0]
  | 0x21 => some [fldMask 31 0]
  | 0x22 => some [fldMask 63 0, fldMask 63 0]
  | 0x30 => some [fldMask 63 63 ||| fldMask 59 56 ||| fldMask 17 0, fldMask 63 0, fldMask 63 60 ||| fldMask 51 0]
  | 0x31 => some [fldMask 19 0, fldMask 63 0]
  | 0x32 => some [fldMask 19 0, fldMask 63 0]
  | 0x33 => some [fldMask 15 0, fldMask 63 0, fldMask 63 0, fldMask 63 0, fldMask 3 0]
  | 0x40 => some [fldMask 7 0, fldMask 63 62 ||| fldMask 47 0, fldMask 63 0, fldMask 15 0, fldMask 63 0, fldMask 31 0]
  | 0x41 => some [fldMask 63 32 ||| fldMask 7 0, fldMask 63 0, fldMask 63 0]
  | 0x42 => some [fldMask 63 0]
  | 0x43 => some [fldMask 7 0, fldMask 63 0, fldMask 63 0]
  | _ => none

/-- The arguments that are host addresses. -/
def hostAddrArgs : Nat → List Nat
  | 0x02 => [1]
  | 0x03 => [0]
  | 0x05 => [0]
  | 0x10 => [1]
  | 0x15 => [3]
  | 0x16 => [0]
  | 0x20 => [4]
  | 0x22 => [1]
  | 0x32 => [1]
  | 0x33 => [1]
  | 0x41 => [1]
  | 0x43 => [1]
  | _ => []

/-- The stated ranges of arguments (R668, R13). -/
def argRangeOk (op : Nat) (a : List Word) : Bool :=
  let g := fun i => a.getD i 0
  match op with
  | 0x01 => 1 ≤ bits (g 0) 63 32
  | 0x02 => bits (g 0) 15 0 ≤ 1023
  | 0x03 => (g 1).toNat ≤ 2 ^ 32
  | 0x10 => 1 ≤ bits (g 0) 63 32 && bits (g 0) 63 32 ≤ 16777216
  | 0x15 => bits (g 2) 59 56 ≤ 1
  | 0x18 => bits (g 0) 15 0 = 0 && 1 ≤ bits (g 1) 63 32 && bits (g 1) 63 32 ≤ 65536 && bits (g 1) 3 0 ≤ 1
      && (bits (g 1) 3 0 = 1 || bits (g 1) 7 4 ≤ 3)
  | 0x19 => 1 ≤ bits (g 0) 31 0 && bits (g 0) 31 0 ≤ 65536 && bits (g 1) 7 0 ≤ 11
  | 0x20 => bits (g 0) 63 32 ≤ 16777216 && bits (g 0) 31 28 ≤ 2 && bits (g 0) 27 26 ≤ 1 && bits (g 0) 23 20 ≤ 8
      && bits (g 1) 63 32 ≤ 262144
  | 0x22 => 1 ≤ bits (g 0) 31 0 && bits (g 0) 31 0 ≤ 262144
  | 0x40 => bits (g 1) 63 62 ≤ 1
  | _ => true

/-- Opcodes whose epoch is checked (R668). -/
def epochChecked (op : Nat) : Bool := [0x13, 0x14, 0x15, 0x18, 0x19, 0x20, 0x40, 0x41, 0x42, 0x43].contains op

/-- The command a record spells (R665). -/
def cmdOf (id fn qp now : Nat) (r : Item) : HostCmd :=
  { id := id, fn := fn, qp := qp, cid := bits r.w0 15 0, opcode := bits r.w0 63 56, reissue := bit r.w0 50,
    fence := bit r.w0 49, ctrlTokens := bit r.w0 48, epoch := BitVec.ofNat 16 (bits r.w0 47 32), session := r.w1,
    args := [r.w2, r.w3, r.w4, r.w5, r.w6, r.w7], sinceNs := now }

/-- The checks of R667 in order, with the permission of R657: 0, or the refusal. -/
def State.refusalCode (s : State) (c : HostCmd) (w0 : Word) : Nat :=
  match argMasks c.opcode with
  | none => Code.badOpcode
  | some ms =>
    if bits w0 55 51 ≠ 0 || bits w0 31 16 ≠ 0 || (c.ctrlTokens && c.opcode ≠ 0x20)
        || (List.range 6).any (fun i => (c.arg i) &&& ~~~ (ms.getD i 0) ≠ 0)
        || (hostAddrArgs c.opcode).any (fun i => (c.arg i).toNat % 8 ≠ 0)
        || !argRangeOk c.opcode c.args then Code.invalidField
    else if !s.loaded && !([0x00, 0x01, 0x02, 0x03].contains c.opcode) then Code.notReady
    else if epochChecked c.opcode && s.epochCode c.epoch ≠ 0 then s.epochCode c.epoch
    else if (c.opcode = 0x04 || c.opcode = 0x05) && !s.fuse (928 + c.fn) then Code.hostDenied
    else 0

/-- Free completion entries of a pair (R662). -/
def QPair.freeEntries (p : QPair) : Nat := p.cqSize - 1 - (p.cqTail + p.cqSize - p.headReg) % p.cqSize

/-- A fetch is allowed on a pair (R658, R661 to R663). -/
def State.mayFetch (s : State) (f q : Nat) : Bool :=
  let x := s.fn f
  let p := x.qp q
  let mine := (s.host.cmds.filter fun c => c.fn = f && c.qp = q).length + (x.held.filter fun h => h.cmd.qp = q).length
  s.host.ready && x.enable && p.en && !p.error && !s.ideBlocked f && p.sqHead ≠ p.tail && p.tail < p.sqSize
    && mine < p.freeEntries && (s.host.cmds.filter fun c => c.fn = f).length < 1024

/-- COMMAND_FETCH (R661, R662, R664, R667): the record at the head, or a DMA error, which stops the pair. -/
def execCommandFetch (fn : Fin 2) (qp : Fin 16) (record : Option Item) (s : State) : Host.Outcome State Fault Refusal :=
  gate s fun s =>
    if !s.mayFetch fn.val qp.val then s
    else
      match record with
      | none => s.setPair fn.val qp.val fun p => { p with error := true }
      | some r =>
        let s := s.wake
        let c := cmdOf s.host.nextId fn.val qp.val s.now r
        let s := s.setPair fn.val qp.val fun p => { p with sqHead := (p.sqHead + 1) % p.sqSize }
        let s := { s with host.cmds := s.host.cmds ++ [c], host.nextId := s.host.nextId + 1 }
        let code := s.refusalCode c r.w0
        if code = 0 then s else s.complete c.id code 0 0

/-! ### Commands (R668) -/

/-- Run a command of an opcode that may begin. -/
def hostCmd (cmd op : Nat) (s : State) (f : HostCmd → State → State) : Host.Outcome State Fault Refusal :=
  gate s fun s =>
    match s.cmd? cmd op with
    | none => s
    | some c => f c s

/-- NOP (R668). -/
def execHostNop (cmd : Nat) (s : State) : Host.Outcome State Fault Refusal :=
  hostCmd cmd 0x00 s fun c s => s.complete c.id 0 0 0

/-- WATCH (R677): completes at once when a masked bit is set, else goes on. -/
def execWatch (cmd : Nat) (s : State) : Host.Outcome State Fault Refusal :=
  hostCmd cmd 0x01 s fun c s =>
    let s := s.began c.id
    watchLoop c.fn ((s.begun? c.id 0x01).toList) s

/-- WATCH_TIMEOUT (R677). -/
def execWatchTimeout (cmd : Nat) (s : State) : Host.Outcome State Fault Refusal :=
  gate s fun s =>
    match s.begun? cmd 0x01 with
    | none => s
    | some c =>
      if c.sinceNs + msec (bits (c.arg 0) 63 32) ≤ s.now then
        s.complete c.id 0 (BitVec.ofNat 64 ((s.fn c.fn).attn.toNat / 2 * 2)) 0
      else s

/-- An output write of a command: it reaches the host, or sets ERROR on the pair and the effect stands (R664). -/
def State.output (s : State) (c : HostCmd) (ok : Bool) (addr : Word) (ws : List Word) : State :=
  if ok then s.emit (.hostWrite c.fn addr ws) else s.setPair c.fn c.qp fun p => { p with error := true }

/-- READ_REGS (R668): register values in the order of R637; a range past the block's end is refused. -/
def execReadRegs (cmd : Nat) (dmaOk : Bool) (s : State) : Host.Outcome State Fault Refusal :=
  hostCmd cmd 0x02 s fun c s =>
    let b := bits (c.arg 0) 63 56
    let r := bits (c.arg 0) 55 40
    let n := bits (c.arg 0) 15 0 + 1
    if blockSize b < r + n then s.complete c.id Code.invalidField 0 0
    else
      (s.output c dmaOk (c.arg 1) ((List.range n).map fun i => s.readReg (b * 65536 + r + i))).complete c.id 0 0 0

/-- FERRY (R668): a ferry request whose completion item the record reports. -/
def execFerry (cmd : Nat) (s : State) : Host.Outcome State Fault Refusal :=
  hostCmd cmd 0x18 s fun c s =>
    let it : Item := { w2 := c.arg 0, w3 := c.arg 1, w4 := c.arg 2 }
    (s.began c.id).startFerry (.host c.id) (ferryWant it) (pageRun (it.w2.toNat / 65536) (ferryCount it))

/-- Merge the shares of the other modules into a SPAN command (R165). -/
def mergeShares (cmd : Nat) : List SpanShare → State → State
  | [], s => s
  | x :: xs, s =>
    let o := fun (c : Nat) => if c = 0 then Outcome1.moved else if c = 1 then .abandoned else .failed c
    let r : SMap Outcome1 := x.spans.foldl (fun m y => SMap.put m y.1 (o y.2.1)) []
    let base := fun (n : Nat) => ((x.spans.find? fun y => y.1 = n).map fun y => y.2.2).getD 0
    mergeShares cmd xs (s.mergeSpan cmd x.ringPos r base)

/-- SPAN (R165, R668): firmware sends the request to every module of the node, to this one's span queue among them; `shares` are the
other modules' outcomes, and a module not listed moved every span. -/
def execSpan (cmd : Nat) (shares : List SpanShare) (s : State) : Host.Outcome State Fault Refusal :=
  hostCmd cmd 0x19 s fun c s =>
    let code := s.homeCode c.session
    if code ≠ 0 then (s.noteStale code).complete c.id code 0 0
    else
      let it : Item := { w0 := c.session, w1 := fld 44 44 (bnat c.reissue) ||| fld 35 32 4 ||| fld 15 0 c.epoch.toNat,
                         w2 := c.arg 0, w3 := c.arg 1, w4 := c.arg 2 }
      let s := (s.began c.id).sendAll 4 (.spanRequest it)
      let me := s.comp.map.ringPos
      let s := { s with host.cmds := s.host.cmds.map fun (x : HostCmd) =>
        if x.id = c.id then { x with waitMods := [me] } else x }
      let others := shares.filter fun x => x.ringPos ≠ me && x.ringPos < s.comp.map.modules
      (mergeShares c.id others s).askSpan it (.host c.id)

end Sys2Proof.Machine
end

