-- ==== Sys2Proof/Machine/Snap.lean ====
section
/-! DEFINITION. Checkpoint groups and cuts: marking, copying, shard manifests and the commit (R503 to R522, R526). -/

namespace Sys2Proof.Machine

open Sys2Proof

/-! ### Marking (R509 to R511) -/

/-- The words of the non-KV run, page by page (R518). -/
def State.tableImage (s : State) (slot : Nat) : List Word :=
  let h := s.hdr slot
  let b := s.blocks (s.dir slot).model
  let ns := List.range h.spans
  padTo (8192 * tablePages h.spans) (ns.flatMap fun n => spanWords (s.span slot n)) ++
    padTo (8192 * sidePages h.spans b) (ns.flatMap fun n => (List.range b).flatMap fun k => sideWords (s.side slot n k)) ++
    (if (s.dir slot).kind = .home then
      padTo (8192 * logPages h.maxTokens)
        (logWords ((List.range h.maxTokens).map (s.logCell slot)))
    else [])

/-- The header's page has lost its home (R510). -/
def State.headerLost (s : State) (slot : Nat) : Bool := (s.leaf ((s.dir slot).header / 65536)).poison

/-- A page whose home cannot be read becomes a lost one, and the loss is reported (R512, R694). -/
def State.losePage (s : State) (p : Nat) : State :=
  let l := s.leaf p
  if l.poison then s
  else
    ((s.setLeaf p { l with poison := true }).bump (Reg.fltCnt 6)).event
      (if l.tier = .sett then Code.settUe else Code.sourceRead) 0 4 4 0 0 (BitVec.ofNat 64 (p * 65536))

/-- Skip a session of LIST (R510): `before` are the handles already seen. -/
def State.snapSkips (s : State) (parkedOnly : Bool) (before : List Word) (h : Word) : Bool :=
  let slot := hSlot h
  let e := s.dir slot
  s.handleCode h ≠ 0 || before.contains h || !(e.state = .parked || (e.state = .active && !parkedOnly)) ||
    (e.kind = .home && ((s.custodyCheck slot).1 ≠ 0 || s.headerLost slot))

/-- Decide every handle in order: the slots taken, how many are skipped, and the state after the custody reads; an ACTIVE hamper whose
record is corrupt is parked (R133). -/
def decideLoop (parkedOnly : Bool) : List Word → List Word → State → List Nat × Nat × State
  | [], _, s => ([], 0, s)
  | h :: hs, before, s =>
    let skip := s.snapSkips parkedOnly before h
    let e := s.dir (hSlot h)
    let s := if s.handleCode h = 0 && !before.contains h && e.kind = .home &&
        (e.state = .parked || (e.state = .active && !parkedOnly)) then
        let r := s.custodyCheck (hSlot h)
        if r.1 = Code.custodyCorrupt && e.state = .active then (r.2.failReq (hSlot h) r.1).parkSoon (hSlot h) none else r.2
      else s
    let r := decideLoop parkedOnly hs (before ++ [h]) s
    if skip then (r.1, r.2.1 + 1, r.2.2) else (hSlot h :: r.1, r.2.1, r.2.2)

/-- How the cut records a span (R510). -/
def State.snapSpan (s : State) (taken : List Nat) (slot n : Nat) : SnapSpan :=
  let e := s.span slot n
  let base : SnapSpan := { n := n, pinned := e.pinned, anchor := e.anchor, base := e.base }
  let whole := (s.spanPages slot n).all fun p => (s.leaf p).v
  match e.res with
  | .empty => base
  | .dropped => { base with status := 2 }
  | _ =>
    match (if e.shared then s.ownerOf slot n else none) with
    | some o =>
      if taken.contains o then { base with status := 3, owner := o }
      else if whole then { base with status := 1, mark := (o, n) }
      else { base with status := 2 }
    | none => if whole then { base with status := 1, mark := (slot, n) } else { base with status := 2 }

/-- What the cut freezes of one session, before its runs are placed. -/
def State.snapSess (s : State) (taken : List Nat) (slot : Nat) : SnapSess :=
  let h := s.hdr slot
  { slot := slot, home := (s.dir slot).kind = .home, model := (s.dir slot).model, hdr := h
    table := (List.range h.spans).map fun n => s.snapSpan taken slot n
    image := s.tableImage slot, pages := tablePageList s slot
    cairnSeen := if (s.dir slot).tracked then (s.rec_ (recKey h.recAddr)).cairn else 0 }

def SnapSpan.pages (pps : Nat) (x : SnapSpan) : List Nat := if x.status = 1 then pageRun x.base pps else []

/-- Pages copied first (R512): the tail span's, and the token-log page that holds position COMMIT_LEN. -/
def State.snapFirst (s : State) (x : SnapSess) : List Nat :=
  let tail := (x.table.filter fun y => y.n = x.hdr.commitLen / 256).flatMap fun y => y.pages (s.pps x.model)
  tail ++ (if x.home then [(x.hdr.tokenLog + 4 * x.hdr.commitLen) / 65536] else [])

/-- Every page a session's cut marks: mapped, and not pinned. -/
def State.snapPages (s : State) (x : SnapSess) : List Nat :=
  (x.pages ++ x.table.flatMap fun y => y.pages (s.pps x.model)).filter fun p => (s.leaf p).v && !(s.leaf p).pin

/-- Write-protect a page in one update, abandoning a claim (R510). -/
def State.markPage (s : State) (p : Nat) : State :=
  if (s.leaf p).wp then s
  else
    let s := s.setLeaf p { s.leaf p with wp := true }
    let s := if (s.leaf p).ferry then s.dropClaim p .abandoned else s
    s.bump (Reg.tsmCnt 10)

/-- Insert in ascending order without repeats. -/
def insertNat (a : Nat) : List Nat → List Nat
  | [] => [a]
  | b :: l => if a = b then b :: l else if a < b then a :: b :: l else b :: insertNat a l
def ascending (l : List Nat) : List Nat := l.foldl (fun m a => insertNat a m) []

/-- Set or clear IN_SNAP of the span a record marks; an edit whose write would reach a lost page is not made (R160). -/
def State.setInSnap (s : State) (m : Nat × Nat) (b : Bool) : State :=
  if (s.span m.1 m.2).inSnap = b || s.entryLost m.1 m.2 then s else s.setSpan m.1 m.2 { s.span m.1 m.2 with inSnap := b }

/-- Place a session's runs: header copy, non-KV run, span list, CRC list, and each COPIED span (R506, R518). -/
def placeSpans (g : CkGroup) (pps : Nat) : List SnapSpan → SnapCut → State → Option (List SnapSpan × SnapCut × State)
  | [], c, s => some ([], c, s)
  | x :: xs, c, s =>
    match s.placeRun g c (if x.status = 1 then pps else 0) with
    | none => none
    | some (p, c, s) =>
      match placeSpans g pps xs c s with
      | none => none
      | some (l, c, s) => some ({ x with first := if x.status = 1 then p else 0 } :: l, c, s)

def State.placeSess (s : State) (g : CkGroup) (c : SnapCut) (x : SnapSess) : Option (SnapSess × SnapCut × State) :=
  let pps := s.pps x.model
  let copied := (x.table.filter fun y => y.status = 1).length * pps
  match s.placeRun g c (bnat x.home) with
  | none => none
  | some (hd, c, s) =>
    match s.placeRun g c x.pages.length with
    | none => none
    | some (nk, c, s) =>
      match s.placeRun g c (ceilDiv (16 * x.table.length) 65536) with
      | none => none
      | some (sl, c, s) =>
        match s.placeRun g c (ceilDiv (4 * (bnat x.home + x.pages.length + copied)) 65536) with
        | none => none
        | some (cl, c, s) =>
          match placeSpans g pps x.table c s with
          | none => none
          | some (t, c, s) =>
            some ({ x with header := hd, nonkv := nk, spanList := sl, crcList := cl, table := t }, c, s)

def placeAll (g : CkGroup) : List SnapSess → SnapCut → State → Option (SnapCut × State)
  | [], c, s => some (c, s)
  | x :: xs, c, s =>
    match s.placeSess g c x with
    | none => none
    | some (x, c, s) => placeAll g xs { c with sessions := c.sessions ++ [x] } s

/-! ### Ends of a module's part -/

def State.setCut (s : State) (c : SnapCut) : State := { s with snp.cur := some c }

/-- Clear WP on a page that is not copied, and let its writer go on. -/
def State.unmark (s : State) (p : Nat) : State :=
  let s := s.setLeaf p { s.leaf p with wp := false }
  { s with tsm.cow := s.tsm.cow.filter fun q => q ≠ p }

/-- Clear IN_SNAP on every span of the cut with no page left to copy (R512). -/
def State.sweepInSnap (s : State) (c : SnapCut) : State :=
  c.sessions.foldl (fun s x => x.table.foldl (fun s y =>
    if y.mark = (0, 0) || (pageRun y.base (s.pps x.model)).any (c.todo.contains ·) then s
    else s.setInSnap y.mark false) s) s

/-- The module's part of the cut is over: nothing stays marked, ACTIVE falls. -/
def State.endCut (s : State) (c : SnapCut) (keep : Bool) : State :=
  let s := c.todo.foldl (fun s p => s.unmark p) s
  let s := s.sweepInSnap { c with todo := [] }
  let s := if keep then s else s.freeExtents (s.ckGroup c.group) c.extents
  ({ s with snp.cur := none }.dropAccs fun a => a.use = FabUse.snap c.epoch.toNat).setField Reg.tsmSnap 9 9 0

/-- The command or release behind a failed cut ends with the code (R521, R130). -/
def State.leadReply (s : State) (l : SnapLead) (code : Nat) (data : Word) : State :=
  let s := s.reply l.cmd code 0 data
  match l.release with
  | none => s
  | some slot =>
    if code = 0 then s
    else
      let cmd := (SMap.lookup s.hmp.changes slot).bind (·.cmd)
      { s.endChange slot with hmp.releases := SMap.erase s.hmp.releases slot }.reply cmd code 0 0

/-- The lead fails the cut: HEAD stands, the modules are told, its extents return (R521). -/
def State.failCut (s : State) (code : Nat) : State :=
  match s.snp.lead with
  | none => s
  | some l =>
    let s := { s with snp.lead := none }.sendAll 5 (.words 4 [fld 63 48 l.epoch.toNat ||| fld 47 40 l.group, BitVec.ofNat 64 code])
    let s := match s.snp.cur with
      | some c => if c.epoch = l.epoch && c.group = l.group then s.endCut c false else s
      | none => s
    s.leadReply l code 0

/-- A shard-done report reaches the lead (R521). -/
def State.leadShard (s : State) (r : ShardRec) (code : Nat) : State :=
  match s.snp.lead with
  | none => s
  | some l =>
    if code ≠ 0 then s.failCut code
    else if !l.waiting.contains r.module then s
    else
      let l := { l with waiting := l.waiting.filter fun m => m ≠ r.module, shards := l.shards ++ [r] }
      { s with snp.lead := some l }

/-- Send a shard-done item to the lead, or hand it over when this module leads (R516); a cut item's queue gets the shard's completion
(R507, log entry 107). -/
def State.shardReport (s : State) (c : SnapCut) (r : ShardRec) (code : Nat) : State :=
  let s := s.iff (c.item ≠ {}) fun s =>
    s.post (bits c.item.w6 40 32) (completionItem c.item.w0 c.item.w1 (bnat (code = 0)) 0 (bnat (code ≠ 0)) code 0)
      (bits c.item.w6 11 0)
  if c.lead = s.self then s.leadShard r code
  else s.send c.lead 7 (.words 3 [fld 63 48 c.epoch.toNat ||| fld 47 40 c.group ||| fld 15 0 code, BitVec.ofNat 64 r.page,
    fld 63 32 r.bytes ||| fld 31 0 r.crc.toNat])

/-- Abort (R526): the shard fails with a code, nothing stays protected, extents return. -/
def State.abortCut (s : State) (code : Nat) : State :=
  match s.snp.cur with
  | none => s
  | some c =>
    if c.phase = .done then s
    else ((s.endCut c false).bump (Reg.tsmCnt 9)).shardReport c { module := s.self } code

/-! ### Commands and items (R507 to R511) -/

/-- Start a cut as lead (R508): the epoch is taken, HEAD read, and the cut item sent to every module. -/
def State.startCut (s : State) (group : Nat) (step : BitVec 32) (handles : List Word) (cmd release : Option Nat) :
    Except Nat State :=
  if s.snp.lead.isSome || s.snp.cur.isSome then .error Code.snapBusy
  else if !s.groupOk group then .error Code.snapRef
  else if s.casCode (s.groupFab group + 8) ≠ 0 then .error (s.casCode (s.groupFab group + 8))
  else
    let g := s.ckGroup group
    let e := if g.epoch + 1 = 0 then 1 else g.epoch + 1
    let a := poolAddr (s.groupFab group + 8).toNat
    let s := (s.writeWord a (setBits (s.readWord a) 47 32 e.toNat)).countCas true
    let mods := s.comp.map.peers.take s.comp.map.modules
    let item := [fld 63 48 e.toNat ||| fld 47 40 group ||| fld 39 30 s.self, fld 63 32 step.toNat ||| fld 31 0 handles.length,
      g.head]
    let s := s.sendAll 5 (.words 2 (item ++ handles))
    .ok { s with
      snp.lead := some (SnapLead.mk e group step handles.length g.head cmd release mods [] 0 none)
      snp.cur := some { epoch := e, group := group, lead := s.self, step := step, handles := handles, headSeen := g.head } }

/-- This module's TSM.SNAP shows the cut (R528). -/
def State.showCut (s : State) (e : BitVec 16) : State :=
  ((s.setField Reg.tsmSnap 63 48 e.toNat).setField Reg.tsmSnap 9 9 1).setReg Reg.tsmSnapProgress 0

/-- The sub-batch for step n + 1 has left this module (R509). -/
def State.sentPast (s : State) (n : BitVec 32) : Bool :=
  newer n s.fw.step || (match s.fw.sent with
    | some (m, _) => newer n m
    | none => false)

/-- CUT (R508, R668); the lead's own engine is late as any other's (R509). -/
def execCut (cmd : Nat) (handles : Option (List Word)) (s : State) : Host.Outcome State Fault Refusal :=
  hostCmd cmd 0x41 s fun c s =>
    let n := (c.arg 2).toNat
    if n = 0 || 65536 < n then s.complete c.id Code.invalidField 0 0
    else
      match handles with
      | none => s.complete c.id Code.hostDma 0 0
      | some hs =>
        match s.startCut (bits (c.arg 0) 7 0) (BitVec.ofNat 32 (bits (c.arg 0) 63 32)) (hs.take n) (some c.id) none with
        | .error code => s.complete c.id code 0 0
        | .ok s =>
          let s := (s.showCut (((s.snp.cur.map (·.epoch)).getD 0))).began c.id
          let late := s.snp.cur.any fun x => x.step ≠ 0xFFFFFFFF && s.sentPast x.step
          s.iff late fun s => s.abortCut Code.snapLate

/-- CUT_ITEM (R507 to R509): another module's cut reaches this module's snapshot engine. -/
def execCutItem (item : Item) (handles : List Word) (s : State) : Host.Outcome State Fault Refusal :=
  gate s fun s =>
    (s.begin_ 7 item).byMap item.w1 fun s =>
    let c : SnapCut := {
      epoch := BitVec.ofNat 16 (bits item.w2 63 48), group := bits item.w2 47 40, lead := bits item.w2 39 30
      step := BitVec.ofNat 32 (bits item.w3 63 32), handles := handles.take (bits item.w3 31 0), headSeen := item.w5
      item := item }
    if s.snp.cur.isSome then s.shardReport c { module := s.self } Code.snapBusy
    else if s.unitFailed 4 && s.unitFailed 5 then s.shardReport c { module := s.self } Code.unitFailed
    else if c.step ≠ 0xFFFFFFFF && s.sentPast c.step then s.shardReport c { module := s.self } Code.snapLate
    else (s.setCut c).showCut c.epoch

/-- The cut may mark now (R509): at once for parked sessions, else between step n's commit and the next sub-batch. -/
def State.mayMark (s : State) (c : SnapCut) : Bool :=
  c.phase = .waiting && (c.step = 0xFFFFFFFF || (s.fw.step = c.step && s.fw.cur.isNone && s.fw.sent.isNone))

def seeRecs : List (Nat × PoolRec) → State → State
  | [], s => s
  | x :: xs, s => seeRecs xs (s.seeRec x.1 (some x.2))

/-- Write a shard's header copies (R510 step 1). -/
def writeHeaders (g : CkGroup) (epoch : Nat) : List SnapSess → State → Option State
  | [], s => some s
  | x :: xs, s =>
    if !x.home then writeHeaders g epoch xs s
    else
      match writeRun g epoch [x.header] (headerWords x.hdr) s with
      | none => none
      | some s => writeHeaders g epoch xs s

/-- Pages of the staging region, and its page for copy k (R512, R529, log entry 106). -/
def State.stagePages (s : State) : Nat := s.field Reg.tsmSnapStage 51 36
def State.stageAddr (s : State) (k : Nat) : Nat := 65536 * (s.field Reg.tsmSnapStage 35 0 + k % max 1 s.stagePages)

/-- Put a copy into the staging region: words of a header or a decoded table, or a page's home. -/
def State.stageWords (s : State) (k : Nat) (ws : List Word) : State :=
  s.setHomes (s.stageAddr k) ((padTo 8192 ws).flatMap fun w => leBytes w.toNat 8)
def State.stageHome (s : State) (k src : Nat) : State := s.copyToState src (s.stageAddr k) 65536

def State.stageHeaders (s : State) (xs : List SnapSess) : State :=
  ((xs.filter (·.home)).zipIdx).foldl (fun s x => s.stageWords x.2 (headerWords x.1.hdr)) s

/-- Put a page's copy into the staging region (R512): the words of its first destination that has any, or its home. -/
def State.stagePage (s : State) (k src : Nat) (dests : List (Nat × Option (List Word))) : State :=
  match dests.findSome? (·.2) with
  | some ws => s.stageWords k ws
  | none => s.stageHome k src

/-- Copies in the staging region that have not drained to the group. -/
def State.staged (s : State) (c : SnapCut) : Nat :=
  let g := s.ckGroup c.group
  (s.fab.accs.filter fun a => a.use = FabUse.snap c.epoch.toNat).length / (if g.layout = 0 then 2 else 3)

/-- A page the engines may copy now: 64 staging pages are kept for pages that a writer waits for, which go first; of the others, each
engine that works takes the next in order (R512, R514, log entry 106). -/
def State.mayCopy (s : State) (c : SnapCut) (p : Nat) : Bool :=
  let engines := bnat (!s.unitFailed 4) + bnat (!s.unitFailed 5)
  if s.tsm.cow.contains p then s.staged c < s.stagePages
  else s.staged c + 64 < s.stagePages && ((c.todo.filter fun q => !s.tsm.cow.contains q).take engines).contains p

/-- CRC-32C of a logical page as written. -/
def State.logicalCrc (s : State) (g : CkGroup) (p : Nat) : BitVec 32 :=
  crc32c (s.readBytes (pageAddr ((g.homes p).headD (0, 0))) 65536)

/-- Span entry words of R519; `idx` gives a slot's session-entry index. -/
def snapSpanWords (idx : Nat → Nat) (x : SnapSpan) : List Word :=
  [fld 63 62 x.status ||| fld 61 61 (bnat x.pinned) ||| fld 39 0 x.first,
    fld 63 32 x.anchor ||| fld 31 0 (if x.status = 3 then idx x.owner else 0)]

def sessIndex (c : SnapCut) (slot : Nat) : Nat := (c.sessions.findIdx? fun x => x.slot = slot).getD 0

/-- The span lists and CRC lists, written when the last page has been copied. -/
def writeLists (g : CkGroup) (c : SnapCut) : List SnapSess → State → Option State
  | [], s => some s
  | x :: xs, s =>
    let pps := s.pps x.model
    let spanPages := pageRun x.spanList (ceilDiv (16 * x.table.length) 65536)
    match writeRun g c.epoch.toNat spanPages (x.table.flatMap (snapSpanWords (sessIndex c))) s with
    | none => none
    | some s =>
      let hdr := if x.home then [crcWords (headerWords x.hdr)] else []
      let nonkv := (pageRun x.nonkv x.pages.length).map fun p => s.logicalCrc g p
      let kv := (x.table.filter fun y => y.status = 1).flatMap fun y => (pageRun y.first pps).map fun p => s.logicalCrc g p
      let crcs := hdr ++ nonkv ++ kv
      match writeRun g c.epoch.toNat (pageRun x.crcList (ceilDiv (4 * crcs.length) 65536)) (logWords crcs) s with
      | none => none
      | some s => writeLists g c xs s

/-- After a copy: with nothing left to copy, the lists are written. -/
def State.copied (s : State) (c : SnapCut) : State :=
  if c.phase = .copying && c.todo.isEmpty then
    let g := s.ckGroup c.group
    match (writeLists g c c.sessions s).bind fun s => s.padStripes g c with
    | none => s.abortCut Code.snapPool
    | some (c, s) => s.setCut c
  else s

/-- SHARD_MARK (R509 to R511): every decision first, then the header copies and the marks, then the caches' write permission
falls in one operation.  `lost` are slots whose header meets an uncorrectable error as it is read (R510). -/
def execShardMark (seen : List (Nat × PoolRec)) (lost : List Nat) (s : State) : Host.Outcome State Fault Refusal :=
  gate s fun s =>
    match s.snp.cur with
    | none => s
    | some c =>
      if !s.mayMark c then s
      else
        let s := (lost.filter fun n => (s.dir n).kind = .home).foldl (fun s n => s.losePage ((s.dir n).header / 65536)) (seeRecs seen s)
        let d := decideLoop (c.step = 0xFFFFFFFF) c.handles [] s
        let s := d.2.2
        let sess := d.1.map (s.snapSess d.1)
        let g := s.ckGroup c.group
        let lead := s.snp.lead.map fun (l : SnapLead) => if c.lead = s.self then { l with cutNs := s.now } else l
        let s := { s with snp.lead := lead }
        match placeAll g sess { c with phase := .copying, skipped := d.2.1, sessions := [] } s with
        | none => s.abortCut Code.snapSpace
        | some (c, s) =>
          let pages := c.sessions.flatMap s.snapPages
          let first := (c.sessions.flatMap s.snapFirst).filter fun p => pages.contains p
          let s := pages.foldl (fun s p => s.markPage p) s
          let s := c.sessions.foldl (fun s x => x.table.foldl (fun s y =>
            if y.status = 1 then s.setInSnap y.mark true else s) s) s
          let s := { s with tsm.tlb := s.tsm.tlb.map fun (x : Nat × Leaf) =>
            if pages.contains (x.1 % 2 ^ 36) then (x.1, { x.2 with wp := true }) else x }
          let todo := first.foldl (fun l p => if l.contains p then l else l ++ [p]) []
          let c := { c with todo := todo ++ (ascending pages).filter fun p => !todo.contains p }
          let s := ((s.setField Reg.tsmSnapProgress 31 0 c.todo.length).stageHeaders c.sessions).setCut
            { c with staged := (c.sessions.filter (·.home)).length }
          match writeHeaders g c.epoch.toNat c.sessions s with
          | none => s.abortCut Code.snapPool
          | some s => s.copied { c with staged := (c.sessions.filter (·.home)).length }

/-! ### Copying (R512 to R515) -/

/-- The logical pages a page is copied to, each with the words to write when the page is one of a decoded table. -/
def State.snapDests (s : State) (c : SnapCut) (p : Nat) : List (Nat × Option (List Word)) :=
  c.sessions.flatMap fun x =>
    (match x.pages.findIdx? fun q => q = p with
      | some k => [(x.nonkv + k, some ((x.image.drop (8192 * k)).take 8192))]
      | none => []) ++
    (x.table.filter fun y => y.status = 1 && y.base ≤ p && p < y.base + s.pps x.model).map fun y =>
      (y.first + (p - y.base), none)

/-- Write a page's copies. -/
def writeDests (g : CkGroup) (epoch src : Nat) : List (Nat × Option (List Word)) → State → Option State
  | [], s => some s
  | (q, ws) :: ds, s =>
    let f := fun (s : State) (a : Nat) =>
      match ws with
      | some ws => (s.zeroRange a 65536).writeWords a ws
      | none => s.copyRange src a 65536
    match s.writeLogical g epoch q f with
    | none => none
    | some s => writeDests g epoch src ds s

/-- A marked page whose home cannot be read (R512, R694). -/
def State.snapLoss (s : State) (c : SnapCut) (p : Nat) : State :=
  let s := s.losePage p
  let hit := fun (x : SnapSess) (y : SnapSpan) => y.status = 1 && y.base ≤ p && p < y.base + s.pps x.model
  let gone := c.sessions.filter fun x => x.pages.contains p
  let kept := c.sessions.filter fun x => !x.pages.contains p
  let drop := kept.flatMap fun x => (x.table.filter (hit x)).flatMap fun y => y.pages (s.pps x.model)
  let left := kept.map fun (x : SnapSess) =>
    { x with table := x.table.map fun y => if hit x y then { y with status := 2, first := 0 } else y }
  let need := left.flatMap s.snapPages
  let out := c.todo.filter fun q => q = p || drop.contains q || !need.contains q
  let c' := { c with sessions := left, skipped := c.skipped + gone.length, todo := c.todo.filter fun q => !out.contains q }
  let s := out.foldl (fun s q => s.unmark q) s
  let s := s.sweepInSnap { c with todo := c'.todo }
  (s.setCut c').copied c'

/-- PAGE_COPY_COMPLETE (R512, R514): the copy is taken and WP falls with COW_EPOCH set, or the page cannot be read. -/
def execPageCopyComplete (page : Nat) (unreadable : Bool) (s : State) : Host.Outcome State Fault Refusal :=
  gate s fun s =>
    match s.snp.cur with
    | none => s
    | some c =>
      if !c.todo.contains page || !s.mayCopy c page then s
      else if unreadable || (s.leaf page).poison then s.snapLoss c page
      else
        let dests := s.snapDests c page
        let src := s.physOf (page * 65536)
        let s := s.stagePage c.staged src dests
        match writeDests (s.ckGroup c.group) c.epoch.toNat src dests s with
        | none => s.abortCut Code.snapPool
        | some s =>
          let c := { c with todo := c.todo.filter fun p => p ≠ page, staged := c.staged + 1 }
          let s := (s.setLeaf page { s.leaf page with cow := c.epoch }).unmark page
          let s := (s.bump (Reg.tsmCnt 11)).setField Reg.tsmSnapProgress 63 32 (s.field Reg.tsmSnapProgress 63 32 + 1)
          ((s.setCut c).sweepInSnap c).copied c

/-! ### Manifest, record and commit (R516 to R522) -/

/-- Every fabric write of the cut has completed. -/
def State.snapDurable (s : State) (c : SnapCut) : Bool := s.fab.accs.all fun a => a.use ≠ FabUse.snap c.epoch.toNat

/-- A session entry (R518). -/
def sessWords (x : SnapSess) : List Word :=
  [x.hdr.origin, x.hdr.handle, fld 63 32 x.table.length ||| fld 31 0 x.hdr.commitLen,
    fld 63 62 (if x.home then 1 else 2) ||| fld 61 58 x.model ||| fld 47 0 (65536 * x.header),
    fld 47 0 (65536 * x.nonkv), fld 63 32 x.pages.length, fld 47 0 (65536 * x.spanList), fld 47 0 (65536 * x.crcList)]

/-- The shard manifest (R517). -/
def State.manifestWords (s : State) (c : SnapCut) : List Word :=
  [fld 63 48 0x5AD0 ||| fld 47 32 1 ||| fld 31 0 c.sessions.length,
    fld 63 48 c.epoch.toNat ||| fld 47 40 c.group ||| fld 39 30 s.self ||| fld 29 20 s.comp.map.ringPos |||
      fld 19 10 s.comp.map.modules,
    fld 63 32 c.skipped, 0, 0, 0, 0, 0] ++ (List.range 16).map (fun n => s.reg (Reg.kvsGeometry n)) ++
    List.replicate 8 0 ++ c.sessions.flatMap sessWords

/-- SHARD_DURABLE (R516): with every copy durable, the manifest is written. -/
def execShardDurable (s : State) : Host.Outcome State Fault Refusal :=
  gate s fun s =>
    match s.snp.cur with
    | none => s
    | some c =>
      if c.phase ≠ .copying || !c.todo.isEmpty || !s.snapDurable c then s
      else
        let ws := s.manifestWords c
        let g := s.ckGroup c.group
        match s.placeRun g c (ceilDiv (8 * ws.length) 65536) with
        | none => s.abortCut Code.snapSpace
        | some (p, c, s) =>
          match (writeRun g c.epoch.toNat (pageRun p (ceilDiv (8 * ws.length) 65536)) ws s).bind fun s => s.padStripes g c with
          | none => s.abortCut Code.snapPool
          | some (c, s) => s.setCut { c with phase := .manifest, manifest := p }

/-- MANIFEST_DURABLE (R516): the shard is done and the lead is told. -/
def execManifestDurable (s : State) : Host.Outcome State Fault Refusal :=
  gate s fun s =>
    match s.snp.cur with
    | none => s
    | some c =>
      if c.phase ≠ .manifest || !s.snapDurable c then s
      else
        let ws := s.manifestWords c
        let s := (s.setCut { c with phase := .done, doneNs := s.now }).bump (Reg.tsmCnt 8)
        s.shardReport c { module := s.self, page := c.manifest, bytes := 8 * ws.length, crc := crcWords ws } 0

/-- The reference of a cut's cairn (R505). -/
def cairnRef (epoch : BitVec 16) (group page : Nat) : Word := fld 63 48 epoch.toNat ||| fld 47 40 group ||| fld 39 0 page

/-- The cairn record (R520), with its CRC. -/
def State.recordWords (s : State) (l : SnapLead) : List Word :=
  let pos := fun m => (s.comp.map.peers.findIdx? fun x => x = m).getD 0
  let w := fun (crc : Nat) => padTo 512
    ([fld 63 48 0xCA1E ||| fld 47 32 1 ||| fld 31 0 l.shards.length,
      fld 63 48 l.epoch.toNat ||| fld 47 40 l.group ||| fld 39 30 s.self,
      fld 63 32 l.step.toNat ||| fld 31 0 l.count, BitVec.ofNat 64 l.cutNs, l.headSeen, fld 31 0 crc, 0, 0] ++
      l.shards.flatMap fun r =>
        [fld 63 54 r.module ||| fld 53 44 (pos r.module) ||| fld 39 0 r.page, fld 63 32 r.bytes ||| fld 31 0 r.crc.toNat])
  w (crcWords (w 0)).toNat

/-- After the last shard, the lead writes the cairn record (R521). -/
def State.recordIfReady (s : State) : State :=
  match s.snp.lead, s.snp.cur with
  | some l, some c =>
    if l.waiting.isEmpty && l.record.isNone then
      let g := s.ckGroup l.group
      match s.placeRun g c 1 with
      | none => s.failCut Code.snapSpace
      | some (p, c, s) =>
        match (writeRun g l.epoch.toNat [p] (s.recordWords l) s).bind fun s => s.padStripes g c with
        | none => s.failCut Code.snapPool
        | some (c, s) => { s.setCut c with snp.lead := some { l with record := some p } }
    else s
  | _, _ => s

/-- SHARD_DONE (R521): a shard-done item reaches the lead. -/
def execShardDone (module page bytes : Nat) (crc : BitVec 32) (code : Nat) (s : State) :
    Host.Outcome State Fault Refusal :=
  gate s fun s =>
    if module = s.self then s.recordIfReady
    else (s.leadShard { module := module, page := page, bytes := bytes, crc := crc } code).recordIfReady

/-- CAIRN_RECORD_DURABLE (R521): the swap of HEAD commits the cairn, or the cut fails; `head` is the old value returned. -/
def execCairnRecordDurable (head : Word) (s : State) : Host.Outcome State Fault Refusal :=
  gate s fun s =>
    match s.snp.lead, s.snp.cur with
    | some l, some c =>
      match l.record with
      | none => s
      | some p =>
        if !s.snapDurable c then s
        else
          let a := poolAddr (s.groupFab l.group).toNat
          let ref := cairnRef l.epoch l.group p
          let hit := head = l.headSeen
          let s := ((s.writeWord a (if hit then ref else head)).countCas hit)
          if hit then
            let s := { s with snp.lead := none }.bump (Reg.tsmCnt 13)
            (s.sendAll 5 (.words 5 [ref])).leadReply l 0 ref
          else s.failCut Code.snapCommit
    | _, _ => s

/-- Release to a pool segment after its cut has committed (R130): steps 1, 2 and 4. -/
def State.finishRelease (s : State) (slot seg : Nat) : State :=
  let k := recKey (s.hdr slot).recAddr
  let m := s.mine slot
  let cmd := (SMap.lookup s.hmp.changes slot).bind (·.cmd)
  let s := { s.endChange slot with hmp.releases := SMap.erase s.hmp.releases slot }
  if !(s.dir slot).tracked then s.reply cmd Code.custodyDir 0 0
  else
    let transit := { m with state := .inTransit, target := .pool seg }
    let r1 := s.swapRec k m transit
    if !r1.1 then
      let r := r1.2.custodyCheck slot
      r.2.reply cmd (if r.1 = 0 then Code.custodyBusy else r.1) 0 0
    else
      let r2 := r1.2.swapRec k transit
        { transit with custody := m.custody + 1, state := .held, holder := .pool seg, current := 0 }
      if !r2.1 then r2.2.reply cmd Code.custodyBusy 0 0
      else ((r2.2.bump (Reg.hmpCnt 4)).bump (Reg.hmpCnt 3)).freeAll slot cmd 0 0

/-- What a commit does for one recorded home session (R522). -/
def State.commitSess (s : State) (c : SnapCut) (ref : Word) (x : SnapSess) : State :=
  if !x.home || s.handleCode x.hdr.handle ≠ 0 then s
  else
    let h := s.hdr x.slot
    let s := s.setHdr x.slot { h with snapEpoch := c.epoch }
    let s :=
      if (s.dir x.slot).tracked then
        let k := recKey h.recAddr
        let hit := (s.rec_ k).cairn = x.cairnSeen
        if s.casCode (recAddrOf (k / 2 ^ 32) (k % 2 ^ 32) + 32) ≠ 0 then s
        else (if hit then s.setRec k { s.rec_ k with cairn := ref } else s).countCas hit
      else if s.dirPool = 0xFF then s
      else (s.createRec x.slot ref).2
    match SMap.lookup s.hmp.releases x.slot with
    | some seg => if (s.dir x.slot).state = .free then s else s.finishRelease x.slot seg
    | none => s

/-- COMMIT_NOTICE (R522, R526): the lead's commit, or its failure of the cut, ends the module's part. -/
def execCommitNotice (ref : Word) (code : Nat) (seen : List (Nat × PoolRec)) (s : State) :
    Host.Outcome State Fault Refusal :=
  gate s fun s =>
    match s.snp.cur with
    | none => s
    | some c =>
      if bits ref 63 48 ≠ c.epoch.toNat || bits ref 47 40 ≠ c.group || s.snp.lead.isSome then s
      else if code ≠ 0 then s.endCut c false
      else if c.phase ≠ .done then s
      else
        let s := (seeRecs seen s).endCut c true
        c.sessions.foldl (fun s x => s.commitSess c ref x) s

/-- SNAP_TIMEOUT (R526): COMMIT_TIMEOUT_MS after its own shard was done, the lead fails the cut and another module returns
its extents. -/
def execSnapTimeout (s : State) : Host.Outcome State Fault Refusal :=
  gate s fun s =>
    match s.snp.cur with
    | none => s
    | some c =>
      if c.phase ≠ .done || s.now < c.doneNs + msec (s.field Reg.tsmSnap 47 32) then s
      else
        match s.snp.lead with
        | some l => if l.waiting.isEmpty then s else s.failCut Code.snapTimeout
        | none => if c.lead = s.self then s else s.endCut c false

/-! ### Group commands (R503, R506, R672) -/

/-- A cut into a group is in progress on this module. -/
def State.cutInto (s : State) (g : Nat) : Bool :=
  (match s.snp.cur with
    | some c => c.group = g
    | none => false) ||
  (match s.snp.lead with
    | some l => l.group = g
    | none => false)

/-- CHECKPOINT_GROUP (R503, R668, R672): writes the group's entry, with HEAD and EPOCH 0. -/
def execCheckpointGroup (cmd : Nat) (s : State) : Host.Outcome State Fault Refusal :=
  hostCmd cmd 0x40 s fun c s =>
    let g := bits (c.arg 0) 7 0
    let coded := bits (c.arg 1) 63 62 = 1
    let segs := (List.range 8).map (fun k => bits (c.arg 2) (8 * k + 7) (8 * k)) ++ [bits (c.arg 3) 7 0, bits (c.arg 3) 15 8]
    let named := if coded then segs else segs.take 2
    if s.dirPool = 0xFF || !(s.seg s.dirPool).valid then s.complete c.id Code.fabRange 0 0
    else if 1 < bits (c.arg 1) 63 62 || segs.headD 0 ≠ g then s.complete c.id Code.invalidField 0 0
    else if (s.ckGroup g).head ≠ 0 || s.cutInto g then s.complete c.id Code.segInUse 0 0
    else if named.any fun k => !(s.seg k).valid then s.complete c.id Code.fabRange 0 0
    else if (s.segPort s.dirPool 0).isNone then s.complete c.id Code.fabError 0 0
    else
      let a := poolAddr (s.groupFab g).toNat
      ((s.countPool .pool true 64).writeWords a [0, setBits (c.arg 1) 47 32 0, c.arg 2, c.arg 3, c.arg 4, c.arg 5, 0, 0]).complete c.id 0 0 0

/-- Extents that cuts in progress on this module hold. -/
def State.heldExtents (s : State) (g : Nat) : List Nat :=
  match s.snp.cur with
  | some c => if c.group = g then c.extents else []
  | none => []

/-- CAIRN_RETIRE (R506): frees the extents of one cairn, which the module reads from its record and manifests. -/
def execCairnRetire (cmd : Nat) (pool : PoolSeen) (s : State) : Host.Outcome State Fault Refusal :=
  hostCmd cmd 0x42 s fun c s =>
    let g := bits (c.arg 0) 47 40
    let s := s.seePool pool
    if !s.groupOk g then s.complete c.id Code.snapRef 0 0
    else
      match s.cairnExtents (c.arg 0) pool with
      | none => s.complete c.id Code.snapRef 0 0
      | some es =>
        (s.freeExtents (s.ckGroup g) (es.filter fun e => e < (s.ckGroup g).extents)).complete c.id 0 0 0

/-- The extents of every cairn a command keeps; none when one of them cannot be read. -/
def State.keptExtents (s : State) (pool : PoolSeen) : List Word → Option (List Nat)
  | [] => some []
  | r :: rs =>
    match s.cairnExtents r pool, s.keptExtents pool rs with
    | some a, some b => some (a ++ b)
    | _, _ => none

/-- GROUP_SCRUB (R506): frees every extent that no kept cairn and no cut on this module holds; `kept` is the list of references as the
DMA read gave it.  A kept cairn that cannot be read fails the command, so that none of its extents goes (log entry 104). -/
def execGroupScrub (cmd : Nat) (kept : Option (List Word)) (pool : PoolSeen) (s : State) : Host.Outcome State Fault Refusal :=
  hostCmd cmd 0x43 s fun c s =>
    let g := bits (c.arg 0) 7 0
    let s := s.seePool pool
    if !s.groupOk g then s.complete c.id Code.snapRef 0 0
    else
      match kept.map fun (rs : List Word) => s.keptExtents pool (rs.take (c.arg 2).toNat) with
      | none => s.complete c.id Code.hostDma 0 0
      | some none => s.complete c.id Code.snapRef 0 0
      | some (some ks) =>
        let k := s.ckGroup g
        let free := (List.range k.extents).filter fun e => s.extentUsed k e && !ks.contains e && !(s.heldExtents g).contains e
        (s.freeExtents k free).complete c.id 0 0 0

end Sys2Proof.Machine
end

