-- ==== Sys2Proof/Machine/Hampers.lean ====
section
/-! DEFINITION. Hamper commands: open, close, park, revive and handover, with the custody rows (R106, R119 to R122, R127 to
R135, R669). -/

namespace Sys2Proof.Machine

open Sys2Proof

/-! ### Open and close -/

/-- The sampler state of an OPEN without one: zero but for TOP_P and REP_PENALTY at 1.0 (R669). -/
def defaultSampler : List Word := [fld 31 0 0x3F800000, fld 31 0 0x3F800000, 0, 0, 0, 0, 0, 0]

/-- First state page after the pages handed out so far (log entry 12). -/
def vaPage (s : State) : Nat := s.tsm.nextVa

/-- Map a new hamper's header page, token log, span table and side array in DRAM (R109, R151); none when DRAM is full. -/
def State.buildPages (s : State) (slot model spans maxTokens tclass : Nat) (home : Bool) : Option (Nat × State) :=
  let b := vaPage s
  let n := tablePages spans + sidePages spans (s.blocks model)
  let kv := s.pps model * spans
  let log := if home then logPages maxTokens else 0
  let hp := s.hmp.headerBase / 65536 + slot / 16
  let pages := pageRun b n ++ pageRun (b + n + kv) log ++ (if s.hmp.headerBase = 0 || (s.leaf hp).v then [] else [hp])
  (mapRun .dram 0 false tclass pages s).map fun s => (b, { s with tsm.nextVa := b + n + kv + log })

/-- The handle that a session installed in a FREE slot of this module gets (R101). -/
def State.newHandle (s : State) (slot : Nat) : Word :=
  mkHandle s.self slot (if (s.dir slot).gen = 0 then 1 else (s.dir slot).gen)

/-- Install a new hamper in a slot under its handle: its pages, header and directory entry (R104, R106, R110); a shard's header
holds no vocabulary and no customer (R111). -/
def State.install (s : State) (slot model maxTokens tclass customer vocab : Nat) (kind : HKind) (st : HState)
    (h : Word) (origin : Word) : Option State :=
  let spans := maxTokens / 256
  let home := kind = .home
  let va := s.hmp.headerBase + 4096 * slot
  match s.buildPages slot model spans maxTokens tclass home with
  | none => none
  | some (b, s) =>
    let n := tablePages spans + sidePages spans (s.blocks model)
    let hdr : Header := {
      handle := h, origin := origin, maxTokens := maxTokens, vocab := if home then vocab else 0
      customer := if home then customer else 0
      tokenLog := if home then 65536 * (b + n + s.pps model * spans) else 0
      spanTable := 65536 * b, spans := spans }
    let e' : DirEnt := { gen := hGen h, state := st, kind := kind, tclass := tclass, model := model, header := va
                         customer := customer, lastNs := s.now }
    some ((s.setHdr slot hdr).setDir slot e')

/-- The draft slot can serve (R364): DRAFT_EN, and the slot runs under LOCAL. -/
def State.draftOk (s : State) : Bool := bit (s.reg Reg.ctlSpec) 4 && s.partLocal (s.field Reg.ctlSpec 3 0)

/-- Firmware opens the companion hamper of the draft model beside its target, in the lowest free slot, never tracked and holding no decode
slot (R364, log entry 101); without a usable draft slot, a free slot or room in DRAM there is none. -/
def State.openCompanion (s : State) (slot : Nat) : State :=
  match s.draftOk, s.freeSlot with
  | true, some k =>
    let h := s.hdr slot
    let hd := s.newHandle k
    match s.install k (s.field Reg.ctlSpec 3 0) h.maxTokens (s.dir slot).tclass h.customer h.vocab .home .parked hd hd with
    | none => s
    | some s => { s with fw.companions := SMap.put s.fw.companions slot k }
  | _, _ => s

/-- Change the companion's header, if there is one. -/
def State.onCompanion (s : State) (slot : Nat) (f : Header → Header) : State :=
  match SMap.lookup s.fw.companions slot with
  | none => s
  | some k => s.setHdr k (f (s.hdr k))

/-- The sampler state that an open sets, its generator seeded from the entropy source (R361, R362). -/
def State.seeded (s : State) (smp : List Word) : List Word :=
  let e := (Config.entropy s.free).toNat
  (smp.set 3 (BitVec.ofNat 64 e)).set 4 (BitVec.ofNat 64 (e / 2 ^ 64))

/-- OPEN (R99, R106, R669): the command ends once every other module of the node has built its shard. -/
def execOpenHamper (cmd : Nat) (sampler : Option (List Word)) (s : State) : Host.Outcome State Fault Refusal :=
  hostCmd cmd 0x10 s fun c s =>
    let a := c.arg 0
    let mt := bits a 63 32
    if c.arg 1 ≠ 0 && sampler.isNone then s.complete c.id Code.hostDma 0 0
    else if mt < 256 || mt % 256 ≠ 0 then s.complete c.id Code.invalidField 0 0
    else
      match s.freeSlot with
      | none => s.complete c.id Code.dirFull 0 0
      | some slot =>
        let hd := s.newHandle slot
        match s.install slot (bits a 31 28) mt (bits a 23 20) (bits a 19 0) (bits a 27 24) .home .parked hd hd with
        | none => s.complete c.id Code.destFull 0 0
        | some s =>
          let h := s.hdr slot
          let smp := if c.arg 1 = 0 then defaultSampler else samplerClean (sampler.getD [])
          let s := s.setHdr slot { h with sampler := s.seeded smp, likelihood := s.field Reg.hmpRevive 7 0, parkedNs := s.now }
          let s := s.fresh.2.openCompanion slot
          ((s.began c.id).startTick (decayTick slot)).follow slot hd .open_
            (.open_ (bits a 31 28) mt (bits a 23 20) (bits a 19 0)) (some c.id) 0 hd

/-- CLOSE (R106, R107, R126, R165, R353, R513). -/
def execCloseHamper (cmd : Nat) (seen : Option PoolRec) (s : State) : Host.Outcome State Fault Refusal :=
  hostCmd cmd 0x11 s fun c s =>
    let slot := hSlot c.session
    let code := s.changeCode c.session [.parked]
    if code ≠ 0 then (s.noteStale code).complete c.id code 0 0
    else if s.hasSharers slot then s.complete c.id Code.spanShared 0 0
    else if s.marked slot then s.complete c.id Code.hamperBusy 0 0
    else if s.deferFull && !(s.hamperPages slot).isEmpty then s.complete c.id Code.reclaimFull 0 0
    else
      let h := s.hdr slot
      let done := fun (s : State) => (s.began c.id).freeAll slot (some c.id) 0 0
      if !(s.dir slot).tracked then done s
      else
        let s := s.seeRec slot seen
        if s.recCode h.recAddr ≠ 0 then s.complete c.id (s.recCode h.recAddr) 0 0
        else
          let r := s.retireRec (recKey h.recAddr) (s.mine slot)
          if r.1 then done r.2
          else
            let q := r.2.custodyCheck slot
            q.2.complete c.id (if q.1 = Code.custodyLost then q.1 else Code.custodyCorrupt) 0 0

/-! ### Park and revive (R119 to R121) -/

/-- PARK (R119, R133, R353). -/
def execPark (cmd : Nat) (seen : Option PoolRec) (s : State) : Host.Outcome State Fault Refusal :=
  hostCmd cmd 0x12 s fun c s =>
    let slot := hSlot c.session
    let code := s.changeCode c.session [.active]
    if code ≠ 0 then (s.noteStale code).complete c.id code 0 0
    else
      let r := (s.seeRec slot seen).custodyCheck slot
      if r.1 ≠ 0 then
        if r.1 = Code.custodyCorrupt then (r.2.parkSoon slot none).complete c.id r.1 0 0 else r.2.complete c.id r.1 0 0
      else (r.2.began c.id).parkSoon slot (some c.id)

/-- Pages of a hamper on this module that a revive must bring to DRAM, in the order of R120 step 6. -/
def State.revivePages (s : State) (slot : Nat) : List Nat :=
  let h := s.hdr slot
  let m := (s.dir slot).model
  let log := if (s.dir slot).kind = .home then pageRun (h.tokenLog / 65536) (logPages h.maxTokens) else []
  let tab := pageRun (h.spanTable / 65536) (tablePages h.spans + sidePages h.spans (s.blocks m))
  let kv := (List.range h.spans).flatMap fun n =>
    if (s.span slot n).res = .resident || (s.span slot n).res = .parked then s.spanPages slot n else []
  (log ++ tab ++ kv).filter fun p =>
    (s.leaf p).v && !(s.leaf p).pin && (s.leaf p).tier ≠ .dram && (s.leaf p).tier ≠ .larder

/-- Dropped spans of a session, queued for recompute (R120, R174). -/
def State.wantDropped (s : State) (slot : Nat) : State :=
  ((List.range (s.hdr slot).spans).filter fun n => (s.span slot n).res = .dropped).foldl (fun s n => s.wantSpan false slot n) s

/-- A revive is refused or has failed: its command and the request that waits on it end with the code (R351). -/
def State.reviveFail (s : State) (slot : Nat) (cmd : Option Nat) (code : Nat) : State :=
  let s := { s.endChange slot with hmp.revives := SMap.erase s.hmp.revives slot }
  (s.failReq slot code).reply cmd code 0 0

/-- Steps 4 to 6 of R120. -/
def State.reviveGo (s : State) (slot : Nat) (cmd : Option Nat) : State :=
  match s.freeDecode with
  | none => s.reviveFail slot cmd Code.noDecodeSlot
  | some d =>
    let h := s.hdr slot
    let s := s.beginChange slot .revive cmd
    let s := s.setDir slot { s.dir slot with state := .reviving, decode := d, lastNs := s.now }
    let r : Revive := { waiting := s.self :: s.peers, cmd := cmd }
    let s := { s with hmp.revives := SMap.put s.hmp.revives slot r }
    let s := (s.sendAll 7 (.share h.handle (.revive d))).wantDropped slot
    s.startFerry (.revive slot) { dest := .dram } (s.revivePages slot)

/-- A revive of a PARKED home hamper, asked for by a command or by firmware for a request (R120).  A revive
refused with CUSTODY_CORRUPT is not counted in REVIVE_FAILED (R142: the model's choice, log entry 49). -/
def State.startRevive (s : State) (slot : Nat) (cmd : Option Nat) : State :=
  let r := s.custodyCheck slot
  if r.1 ≠ 0 then r.2.reviveFail slot cmd r.1
  else if r.2.tsm.pressure then
    let s := r.2.beginChange slot .revive cmd
    let v : Revive := { held := true, cmd := cmd }
    { s with hmp.revives := SMap.put s.hmp.revives slot v }
  else r.2.reviveGo slot cmd

/-- REVIVE (R120). -/
def execRevive (cmd : Nat) (seen : Option PoolRec) (s : State) : Host.Outcome State Fault Refusal :=
  hostCmd cmd 0x13 s fun c s =>
    let slot := hSlot c.session
    let code :=
      if s.homeCode c.session ≠ 0 then s.homeCode c.session
      else if s.busy slot then Code.hamperBusy
      else if (s.dir slot).state ≠ .parked then Code.hamperState
      else 0
    if code ≠ 0 then (s.noteStale code).complete c.id code 0 0
    else ((s.began c.id).seeRec slot seen).startRevive slot (some c.id)

/-- A shard tells its home that it has completed a transition. -/
def State.shareDone (s : State) (session : Word) (code : Nat) : State :=
  s.send (hModule session) 7 (.shareDone session code)

/-- A shard is built in a FREE slot, PARKED as its home is (R99, R106, R111). -/
def State.openShard (s : State) (session : Word) (model maxTokens tclass customer : Nat) : State :=
  let slot := hSlot session
  if (s.dir slot).state ≠ .free then s.shareDone session Code.hamperState
  else
    match s.install slot model maxTokens tclass customer 0 .shard .parked session session with
    | none => s.shareDone session Code.destFull
    | some s => s.shareDone session 0

/-- A shard is PARKED: it holds no decode slot, and no revive, taking or restore goes on (R106, R119). -/
def State.parkShard (s : State) (slot : Nat) : State :=
  let s := s.setDir slot { s.dir slot with state := .parked, decode := 0, lastNs := s.now }
  { s with hmp.takes := SMap.erase s.hmp.takes slot, net.ins := s.net.ins.filter fun x => x.2.slot ≠ slot }

/-- What a shard does for its home's item (R106, R107, R120, R546). -/
def State.shardFollows (s : State) (session : Word) : ShardShare → State
  | .open_ m mt tc cu => s.openShard session m mt tc cu
  | .revive d =>
    let slot := hSlot session
    if (s.dir slot).state ≠ .parked then s
    else
      let s := s.setDir slot { s.dir slot with state := .reviving, decode := d % 8192, lastNs := s.now }
      s.startFerry (.revive slot) { dest := .dram } (s.revivePages slot)
  | .park => (s.parkShard (hSlot session)).shareDone session 0
  | .free => (s.toFree (hSlot session)).shareDone session 0
  | .giving => s.setHState (hSlot session) .giving
  | .transfer peer target =>
    let slot := hSlot session
    (s.setHState slot .giving).startFerry (.transfer slot peer target) { dest := .dram } (s.settPages slot)

/-- REVIVE_ITEM (R99, R102, R106, R120): the home's XFER item reaches a shard module, which follows its home: for a revive it posts
ferry moves for its pages (log entry 94 for the other items).  An item for no shard of this module is answered at once when the home
waits for it to be gone. -/
def execReviveItem (session : Word) (share : ShardShare) (s : State) : Host.Outcome State Fault Refusal :=
  gate s fun s =>
    let here := s.handleCode session = 0 && (s.dir (hSlot session)).kind = .shard
    match share with
    | .open_ m mt tc cu => s.openShard session m mt tc cu
    | .free => if here then s.shardFollows session share else s.shareDone session 0
    | _ => if here then s.shardFollows session share else s

/-- REVIVE_HOLD_RELEASE (R120 step 3): a held revive goes on once free DRAM has reached HIGH. -/
def execReviveHoldRelease (slot : Nat) (s : State) : Host.Outcome State Fault Refusal :=
  gate s fun s =>
    match SMap.lookup s.hmp.revives slot with
    | none => s
    | some r => if r.held && s.evictHigh ≤ s.freeDram then s.reviveGo slot r.cmd else s

/-- LIKELIHOOD after a revive and after a decay (R121). -/
def likelihoodUp (l : Nat) : Nat := min 255 (l - l / 8 + 32)
def likelihoodDown (l : Nat) : Nat := l - l / 8

/-- The request that waits on a revive goes on as from QUEUED (R351). -/
def State.resumeReq (s : State) (slot : Nat) : State :=
  match s.openReq? slot with
  | none => s
  | some (i, r) => if r.state = .reviveWait then s.setReq i { r with state := .queued } else s

/-- The end of a revive with every module's code (R120 step 7): ACTIVE, or PARKED with the first failed page's code, shards too. -/
def State.endRevive (s : State) (slot : Nat) (r : Revive) (code : Nat) : State :=
  let h := s.hdr slot
  if code ≠ 0 then
    let s := s.setDir slot { s.dir slot with state := .parked, decode := 0, lastNs := s.now }
    let s := { (s.endChange slot).bump (Reg.hmpCnt 2) with hmp.revives := SMap.erase s.hmp.revives slot }
    (s.failReq slot code).follow slot h.handle .park .park r.cmd code 0
  else
    let s := s.setHdr slot
      { h with likelihood := likelihoodUp h.likelihood, revives := min (2 ^ 32 - 1) (h.revives + 1) }
    let s := ((s.setHState slot .active).bump (Reg.hmpCnt 1)).startTick (checkTick slot)
    let s := { s.endChange slot with hmp.revives := SMap.erase s.hmp.revives slot }
    (s.resumeReq slot).reply r.cmd 0 0 0

/-- Every shard has completed its home's transition (R106): the command ends; an open that a shard could not follow is undone. -/
def State.endFollow (s : State) (slot : Nat) (c : Change) (bad : Nat) : State :=
  let s := s.endChange slot
  if c.kind = .open_ && bad ≠ 0 then s.freeAll slot c.cmd bad 0 else s.reply c.cmd c.code 0 c.data

/-- REVIVE_COMPLETE (R106, R120 step 7): with every module's completion of a revive, or of another transition that shards follow, it
ends; `reports` are the other modules' codes. -/
def execReviveComplete (slot : Nat) (reports : List (Nat × Nat)) (s : State) : Host.Outcome State Fault Refusal :=
  gate s fun s =>
    match SMap.lookup s.hmp.revives slot, SMap.lookup s.hmp.changes slot with
    | some r, _ =>
      if r.held || r.waiting.contains s.self || !r.waiting.all (fun m => reports.any fun x => x.1 = m) then s
      else
        let codes := (reports.filter fun x => r.waiting.contains x.1).map (·.2)
        s.endRevive slot r (if r.failCode ≠ 0 then r.failCode else ((codes.find? fun c => c ≠ 0).getD 0))
    | none, some c =>
      if c.waiting.isEmpty || !c.waiting.all (fun m => reports.any fun x => x.1 = m) then s
      else s.endFollow slot c (((reports.filter fun x => c.waiting.contains x.1).map (·.2)).find? (fun k => k ≠ 0) |>.getD 0)
    | none, none => s

/-- LIKELIHOOD_DECAY (R121): once every DECAY_S seconds while a home hamper stays PARKED. -/
def execLikelihoodDecay (slot : Nat) (s : State) : Host.Outcome State Fault Refusal :=
  gate s fun s =>
    if (s.dir slot).state = .parked && (s.dir slot).kind = .home then s.periodic (decayTick slot) (s.field Reg.hmpRevive 39 8 * 10 ^ 9) fun s =>
      s.setHdr slot { s.hdr slot with likelihood := likelihoodDown (s.hdr slot).likelihood }
    else s

/-! ### Handover (R127 to R132) -/

/-- GIVE to a module (R127 step 1, R543): the mark, and the session data on its way to the taker as a transfer item. -/
def State.giveModule (s : State) (slot t : Nat) (cmd : Nat) : State :=
  let r := if (s.dir slot).tracked then (0, s) else s.createRec slot 0
  if r.1 ≠ 0 then r.2.complete cmd r.1 0 0
  else
    let s := r.2
    let h := s.hdr slot
    if s.recCode h.recAddr ≠ 0 then s.complete cmd (s.recCode h.recAddr) 0 0
    else
      let old := s.mine slot
      let w := s.swapRec (recKey h.recAddr) old { old with state := .inTransit, target := .module t }
      if !w.1 then w.2.complete cmd Code.custodyBusy 0 0
      else
        let s := ((w.2.began cmd).beginChange slot .give (some cmd)).setHState slot .giving
        let g := Give.mk (recKey h.recAddr) h.custody (.module t) s.now (some cmd)
        let s := { s with hmp.gives := SMap.put s.hmp.gives slot g }.sendAll 7 (.share h.handle .giving)
        s.startFerry (.transfer slot t 0) { dest := .dram } (s.settPages slot)

/-- GIVE to a pool segment: the cut of R130 starts. -/
def State.givePool (s : State) (slot seg : Nat) (cmd : Nat) : State :=
  if !(s.dir slot).tracked && s.dirCode ≠ 0 then s.complete cmd Code.custodyDir 0 0
  else
    match s.startCut seg 0xFFFFFFFF [(s.hdr slot).handle] none (some slot) with
    | .error code => s.complete cmd code 0 0
    | .ok s =>
      let s := (s.showCut ((s.snp.cur.map (·.epoch)).getD 0)).began cmd
      { s.beginChange slot .release (some cmd) with hmp.releases := SMap.put s.hmp.releases slot seg }

/-- GIVE (R126 to R130, R353, R513). -/
def execGive (cmd : Nat) (seen : Option PoolRec) (s : State) : Host.Outcome State Fault Refusal :=
  hostCmd cmd 0x14 s fun c s =>
    let slot := hSlot c.session
    let code := s.changeCode c.session [.parked]
    let t := bits (c.arg 0) 57 48
    if code ≠ 0 then (s.noteStale code).complete c.id code 0 0
    else if s.marked slot then s.complete c.id Code.hamperBusy 0 0
    else if (s.dir slot).tracked = false && s.dirPool = 0xFF then s.complete c.id Code.custodyDir 0 0
    else
      let s := s.seeRec slot seen
      if bit (c.arg 0) 63 then s.givePool slot t c.id else s.giveModule slot t c.id

/-- Step 4 of R127: the giver's copy is retired and the GIVE completes with CURRENT. -/
def State.retireGive (s : State) (slot : Nat) (g : Give) (current : Word) : State :=
  (s.bump (Reg.hmpCnt 3)).freeAll slot g.cmd 0 current

/-- HANDOVER_ACK (R129). -/
def execHandoverAck (origin : Word) (custody : BitVec 32) (current : Word) (s : State) :
    Host.Outcome State Fault Refusal :=
  gate s fun s =>
    match s.hmp.gives.find? fun x => (s.hdr x.1).origin = origin && x.2.n + 1 = custody with
    | none => s
    | some (slot, g) => s.retireGive slot g current

/-- The slot of a taking returns to FREE, at the home on every module (R106, R132, R545). -/
def State.dropTake (s : State) (slot : Nat) : State :=
  if (s.dir slot).kind = .home then s.freeAll slot none 0 0 else s.toFree slot

/-- HANDOVER_TAKE (R127 step 2, R128, R132, R546): every page and shard is installed and verified; `shardsDone` are the
modules that have reported their shards.  On a shard module it is what the home's step 2 does there. -/
def execHandoverTake (slot : Nat) (seen : Option PoolRec) (shardsDone : List Nat) (s : State) :
    Host.Outcome State Fault Refusal :=
  gate s fun s =>
    match SMap.lookup s.hmp.takes slot with
    | none => s
    | some t =>
      if !(t.waiting.all fun m => m ≠ s.self && shardsDone.contains m) || (s.dir slot).state ≠ .taking then s
      else if (s.dir slot).kind ≠ .home then
        { (s.setHState slot .parked).endChange slot with hmp.takes := SMap.erase s.hmp.takes slot }
      else
        let s := match seen with
          | some r => s.setRec t.key r
          | none => s
        let old : PoolRec :=
          { s.rec_ t.key with custody := t.n, state := .inTransit, holder := t.giver, target := .module s.self }
        let h := s.hdr slot
        let w := s.swapRec t.key old
          { old with custody := t.n + 1, state := .held, holder := .module s.self, current := h.handle }
        if w.1 then
          let s := w.2.setHdr slot
            { h with custody := t.n + 1, custodyNs := s.now, recAddr := recAddrOf (t.key / 2 ^ 32) (t.key % 2 ^ 32)
                     parkedNs := s.now }
          let s := s.setDir slot { s.dir slot with state := .parked, tracked := true, lastNs := s.now }
          let s := { s.endChange slot with hmp.takes := SMap.erase s.hmp.takes slot }.startTick (decayTick slot)
          ((s.bump (Reg.hmpCnt 4)).send t.peer 7 (.handoverAck h.origin (t.n + 1))).follow slot h.handle .park .park none 0 0
        else (w.2.dropTake slot).event Code.custodyBusy 0 4 255 0 h.handle h.origin

/-- A give whose time has run out (R131). -/
def State.giveTimeout (s : State) (slot : Nat) (g : Give) : State :=
  let h := s.hdr slot
  if s.recCode h.recAddr ≠ 0 then s
  else
    let old : PoolRec := { s.rec_ g.key with custody := g.n, state := .inTransit, holder := .module s.self, target := g.taker }
    let w := s.swapRec g.key old { old with custody := g.n + 1, state := .held }
    let park := fun (s : State) (n : BitVec 32) (code : Nat) (data : Word) =>
      let s := (s.setHdr slot { h with custody := n }).setHState slot .parked
      ({ s.endChange slot with hmp.gives := SMap.erase s.hmp.gives slot }.startTick (decayTick slot)).follow slot h.handle .park .park
        g.cmd code data
    if w.1 then
      let s := park (w.2.bump (Reg.hmpCnt 5)) (g.n + 1) Code.custodyBusy h.handle
      s.setHdr slot { s.hdr slot with custodyNs := s.now }
    else
      let r := w.2.rec_ g.key
      if newer g.n r.custody && r.holder ≠ .module s.self then w.2.retireGive slot g r.current
      else park (w.2.reportCustody Code.custodyCorrupt h.handle h.origin) g.n Code.custodyCorrupt 0

/-- CUSTODY_TIMEOUT (R131): TIMEOUT_MS after its step 1 a giver re-adopts or retires. -/
def execCustodyTimeout (slot : Nat) (seen : Option PoolRec) (s : State) : Host.Outcome State Fault Refusal :=
  gate s fun s =>
    match SMap.lookup s.hmp.gives slot with
    | some g =>
      if s.now < g.sinceNs + s.custodyTimeout then s
      else
        (match seen with
          | some r => s.setRec g.key r
          | none => s).giveTimeout slot g
    | none => s

/-! ### Checks and probes (R133, R135) -/

/-- CUSTODY_CHECK (R133, R140), every CHECK_MS while a hamper is ACTIVE: a hamper whose record disagrees is parked; one that is lost is freed. -/
def execCustodyCheck (slot : Nat) (seen : Option PoolRec) (s : State) : Host.Outcome State Fault Refusal :=
  gate s fun s =>
    if (s.dir slot).state ≠ .active || (s.dir slot).kind ≠ .home || !(s.dir slot).tracked then s
    else s.periodic (checkTick slot) (msec (s.field Reg.hmpCustody 31 16)) fun s =>
      let r := (s.seeRec slot seen).custodyCheck slot
      if r.1 = Code.custodyCorrupt then (r.2.failReq slot r.1).parkSoon slot none else r.2

/-- CUSTODY_PROBE (R134, R135). -/
def execCustodyProbe (origin : Word) (sender : Nat) (seen : Option PoolRec) (s : State) :
    Host.Outcome State Fault Refusal :=
  gate s fun s =>
    let s := s.seeOrigin origin seen
    match s.slotOfOrigin origin with
    | some slot => s.send sender 7 (.probeAnswer origin true (s.hdr slot).custody)
    | none =>
      let s := s.send sender 7 (.probeAnswer origin false 0)
      if s.dirCode ≠ 0 then s
      else
        match s.findRec origin with
        | .found k => s.noteClaim k
        | _ => s

/-- PROBE_TIMEOUT (R135): NOT_HELD, or no answer within 1 ms, is reported as CUSTODY_EMPTY. -/
def execProbeTimeout (origin : Word) (answer : Option Bool) (s : State) : Host.Outcome State Fault Refusal :=
  gate s fun s =>
    match s.hmp.probes.find? fun p => p.origin = origin with
    | none => s
    | some p =>
      let left := { s with hmp.probes := s.hmp.probes.erase p }
      match answer with
      | some true => left
      | some false => left.reportCustody Code.custodyEmpty 0 origin
      | none => if s.now < p.sinceNs + msec 1 then s else left.reportCustody Code.custodyEmpty 0 origin

end Sys2Proof.Machine
end

