-- ==== Sys2Proof/Machine/Restore.lean ====
section
/-! DEFINITION. Restoring a session from a cairn, with resharding, adoption and empty claims (R130, R134, R523 to R525). -/

namespace Sys2Proof.Machine

open Sys2Proof

/-! ### The restore item of R523 -/

def restSlot (it : Item) : Nat := bits it.w4 21 0
def restModel (it : Item) : Nat := bits it.w4 63 60
def restTier (it : Item) : Tier := if bits it.w4 59 56 = 0 then .larder else .dram
def restClass (it : Item) : Nat := bits it.w4 55 52

/-- 0, or the first refusal that applies (R353, R523). -/
def State.restoreCode (s : State) (it : Item) : Nat :=
  let slot := restSlot it
  let parked := (s.dir slot).state = .parked
  let inRange := s.field Reg.hmpDirRange 21 0 ≤ slot && slot ≤ s.field Reg.hmpDirRange 53 32
  if 1 < bits it.w4 59 56 then Code.invalidField
  else if (it.w0 ≠ 0 || parked) && s.homeCode it.w0 ≠ 0 then s.homeCode it.w0
  else if it.w0 ≠ 0 && hSlot it.w0 ≠ slot then Code.badHandle
  else if s.busy slot then Code.hamperBusy
  else if !inRange || !((s.dir slot).state = .free || (parked && (s.dir slot).kind = .home)) then Code.hamperState
  else if parked && (s.openReq? slot).isSome then Code.reqOpen
  else if parked && s.hasSharers slot then Code.spanShared
  else if parked && s.marked slot then Code.hamperBusy
  else 0

/-! ### This module's share (R524 steps 3 to 8) -/

/-- The shard of a ring position. -/
def shardAt (vs : List ShardView) (r : Nat) : Option ShardView := vs.find? fun v => v.ringPos = r

def sessOf (v : ShardView) (origin : Word) : Option SessView := v.sessions.find? fun x => x.origin = origin

/-- The home's session entry with its shard. -/
def homeView (vs : List ShardView) (origin : Word) : Option (ShardView × SessView) :=
  (vs.filterMap fun v => (sessOf v origin).map fun x => (v, x)).find? fun p => p.2.home

/-- Steps 3 and 4 of R524: 0, or the code that fails the restore. -/
def State.cairnCode (s : State) (shards : Option (List ShardView)) (origin : Word) (model : Nat) : Nat :=
  match shards with
  | none => Code.snapRef
  | some vs =>
    if vs.any fun v => (sessOf v origin).isNone then Code.snapLost
    else
      match homeView vs origin with
      | none => Code.snapLost
      | some (v, x) =>
        let g := v.geometry.getD x.model 0
        if (List.range v.modules).any fun r => (shardAt vs r).isNone then Code.snapRef
        else if bits g 35 28 ≠ s.layers model || 64 * 2 ^ bits g 47 46 ≠ s.headDim model
            || bits g 39 36 * v.modules ≠ s.heads model * s.comp.map.modules then Code.snapGeometry
        else if vs.any fun v => ((sessOf v origin).map (·.lost)).getD true then Code.snapLost
        else 0

/-- One source of a new span: its entry in the shard that holds the head, the head's index there, and the ORIGIN of its owner
for an OWNER span. -/
structure HeadSrc where
  span : SpanView := {}
  head : Nat := 0
  heads : Nat := 1
  owner : Word := 0
  /-- The owner's own span of the same number. -/
  own : SpanView := {}
  deriving DecidableEq, Repr

/-- The sources of span n's heads on this module (R524 step 5). -/
def headSources (vs : List ShardView) (origin : Word) (hl first count n : Nat) : List HeadSrc :=
  (List.range count).map fun j =>
    let h := first + j
    match (shardAt vs (h / hl)).bind fun v => (sessOf v origin).map fun x => (v, x) with
    | none => {}
    | some (v, x) =>
      let sp := x.spans.getD n {}
      let o := v.sessions.getD sp.owner {}
      { span := sp, head := h % hl, heads := hl, owner := if sp.status = 3 then o.origin else 0,
        own := if sp.status = 3 then o.spans.getD n {} else {} }

/-- Block (l, head) of a source, and its side record. -/
def HeadSrc.block (x : HeadSrc) (sp : SpanView) (l : Nat) : BlockView := sp.blocks.getD (l * x.heads + x.head) {}
def HeadSrc.side (x : HeadSrc) (sp : SpanView) (l : Nat) : Side := sp.sides.getD (l * x.heads + x.head) {}

/-- Install a span's side records and, when it is COPIED, its blocks; `none` when the tier is full.  A span that a restore installs as
DROPPED is not counted in SPANS_DROPPED (R186: the model's choice, log entry 98). -/
def State.putSpan (s : State) (slot n : Nat) (tier : Tier) (src : List (HeadSrc × SpanView)) (copied : Bool) :
    Option State :=
  let m := (s.dir slot).model
  let hl := s.heads m
  let blocks : List (Nat × BlockView × Side) := (List.range (s.layers m)).flatMap fun l =>
    (List.range hl).map fun j =>
      let x := src.getD j ({}, {})
      (l * hl + j, x.1.block x.2 l, if x.2.status ≠ 0 then { x.1.side x.2 l with stats := 0 } else {})
  let s := blocks.foldl (fun s b => s.setSide slot n b.1 b.2.2) s
  let lost := sumNat (blocks.map fun b => b.2.1.lost)
  let s := if copied then
      (s.bumpBy (Reg.tsmCnt 15) lost).countPool .pool false (65536 * s.pagesPerBlock m * blocks.length)
    else s
  let pin := src.any fun x => x.1.span.pinned
  let anchor := (minNat? (src.map fun x => x.1.span.anchor)).getD 0
  let e : SpanEnt := { s.span slot n with pinned := pin, anchor := anchor }
  if copied && lost = 0 then
    match mapRun tier 0 true (s.dir slot).tclass (s.spanPages slot n) s with
    | none => none
    | some s =>
      let base := (s.span slot n).base
      let s := blocks.foldl (fun s b => s.setHomes (65536 * (base + s.pagesPerBlock m * b.1)) b.2.1.data) s
      some (s.editSpan slot n { e with res := .resident })
  else some (s.editSpan slot n { e with res := .dropped })

/-- Restore one span (R524 steps 5 to 7). -/
def State.restoreSpan (s : State) (slot n : Nat) (tier : Tier) (owners : List (Word × Word)) (src : List HeadSrc) :
    Option State :=
  let st := src.map fun x => (x.span.status, x.owner)
  let one := fun (k : Nat) => st.all fun x => x.1 = k
  let sameOwner := one 3 && st.all fun x => x.2 = (st.headD (0, 0)).2
  if one 0 then some s
  else if sameOwner then
    let own := src.map fun x => (x, x.own)
    let copy := s.putSpan slot n tier own (src.all fun x => x.own.status = 1)
    match owners.find? fun o => o.1 = (st.headD (0, 0)).2 with
    | none => copy
    | some o =>
      match spanShareOne { w4 := o.2 } 0 slot n s with
      | .ended .moved s =>
        some (s.setSpan slot n { s.span slot n with
          pinned := src.any fun x => x.span.pinned
          anchor := (minNat? (src.map fun x => x.span.anchor)).getD 0 })
      | _ => copy
  else s.putSpan slot n tier (src.map fun x => (x, x.span)) (one 1)

def restoreSpans (slot : Nat) (tier : Tier) (owners : List (Word × Word)) (srcs : Nat → List HeadSrc) :
    List Nat → State → Option State
  | [], s => some s
  | n :: ns, s =>
    match s.restoreSpan slot n tier owners (srcs n) with
    | none => none
    | some s => restoreSpans slot tier owners srcs ns s

/-- Pages of a cairn that a module reads for one session, besides the KV pages: the record, the manifests, and the session's runs. -/
def cairnReads (vs : List ShardView) (origin : Word) : Nat :=
  1 + sumNat (vs.map fun v => v.pages.length + ((sessOf v origin).map (·.pages.length)).getD 0)

/-- Write a token log from position i upward. -/
def State.writeLog (s : State) (slot : Nat) : Nat → List (BitVec 32) → State
  | _, [] => s
  | i, e :: es => (s.setLog slot i e).writeLog slot (i + 1) es

/-- Build this module's share of a restored hamper in a FREE slot, which becomes RESTORING: the state, or the failure. -/
def State.buildShare (s : State) (it : Item) (owners : List (Word × Word)) (shards : Option (List ShardView))
    (kind : HKind) (handle : Word) : Except Nat State :=
  let slot := restSlot it
  let model := restModel it
  let code := s.cairnCode shards it.w3 model
  if code ≠ 0 then .error code
  else
    let vs := shards.getD []
    let s := s.countPool .pool false (65536 * cairnReads vs it.w3)
    match homeView vs it.w3 with
    | none => .error Code.snapLost
    | some (v, x) =>
      let n := x.spans.length
      match s.install slot model (256 * n) (restClass it) x.hdr.customer x.hdr.vocab kind .restoring handle it.w3 with
      | none => .error Code.destFull
      | some s =>
        let h := s.hdr slot
        let h := { h with commitLen := x.commitLen, specLen := x.commitLen }
        let h := if kind = .home then
            { h with likelihood := x.hdr.likelihood, revives := x.hdr.revives, adapter := x.hdr.adapter,
                     carry := x.hdr.carry, sampler := x.hdr.sampler, grammar := x.hdr.grammar }
          else h
        let s := s.setHdr slot h
        let s := if kind = .home then s.writeLog slot 0 (x.log.take (256 * n)) else s
        let hl := bits (v.geometry.getD x.model 0) 39 36
        let first := s.heads model * s.comp.map.ringPos
        match restoreSpans slot (restTier it) owners (headSources vs it.w3 hl first (s.heads model)) (List.range n) s with
        | none => .error Code.destFull
        | some s => .ok s

/-! ### The restore of a home module -/

/-- The generation of a slot advances (R101, R524 step 8). -/
def State.advanceGen (s : State) (slot : Nat) : State :=
  s.setDir slot { s.dir slot with gen := nextGen (s.dir slot).gen }

/-- The end of a restore reaches its command or its completion queue. -/
def State.restoreReply (s : State) (r : Restoring) (code : Nat) (handle : Word) : State :=
  match r.cmd, r.claim with
  | some c, _ => s.complete c code 0 handle
  | none, some _ => s
  | none, none =>
    s.post (bits r.item.w6 40 32)
      (completionItem r.item.w0 r.item.w1 (bnat (code = 0)) 0 (bnat (code ≠ 0)) code handle) (bits r.item.w6 11 0)

/-- A restore begins: the old hamper is freed, the item goes to every module with the session's new handle, and this module's share is
built (R524). -/
def State.startRestore (s : State) (it : Item) (owners : List (Word × Word)) (shards : Option (List ShardView))
    (cmd claim : Option Nat) : State :=
  let slot := restSlot it
  let s := if (s.dir slot).state = .parked then s.freeHamper slot else s.advanceGen slot
  let handle := s.newHandle slot
  let s := s.sendAll 5 (.words 6 { it with w0 := handle }.words)
  let r : Restoring := { slot := slot, cmd := cmd, item := it, built := true, claim := claim }
  match s.buildShare it owners shards .home handle with
  | .error code => (s.sendAll 7 (.share handle .free)).restoreReply r code 0
  | .ok s =>
    let s := s.beginChange slot .restore cmd
    { s with snp.restores := s.snp.restores ++ [r] }

/-- RESTORE (R523, R524, R668). -/
def execRestore (cmd : Nat) (owners : Option (List (Word × Word))) (pool : PoolSeen) (s : State) :
    Host.Outcome State Fault Refusal :=
  hostCmd cmd 0x15 s fun c s =>
    let it : Item := { w0 := c.session, w1 := fld 35 32 5 ||| fld 15 0 c.epoch.toNat, w2 := c.arg 0, w3 := c.arg 1,
                       w4 := c.arg 2, w5 := c.arg 3, w6 := c.arg 4 }
    let code := s.restoreCode it
    if c.arg 3 ≠ 0 && owners.isNone then s.complete c.id Code.hostDma 0 0
    else if code ≠ 0 then (s.noteStale code).complete c.id code 0 0
    else
      let s := s.seePool pool
      (s.began c.id).startRestore it ((owners.getD []).take (bits it.w6 63 48)) (s.readCairn it.w2 pool) (some c.id) none

/-- The OWNER_MAP of an item on its home module (R523): pairs of an owner's ORIGIN and a handle. -/
def State.ownerMap (s : State) (it : Item) : Except Nat (List (Word × Word)) :=
  let n := bits it.w6 63 48
  if it.w5 = 0 || n = 0 then .ok []
  else
    match (s.getBytes firmwareCache it.w5.toNat (16 * n)).1 with
    | .error c => .error c
    | .ok bs => .ok ((List.range n).map fun i => (wordAt bs (16 * i), wordAt bs (16 * i + 8)))

/-- RESTORE_ITEM (R523, R524): an item for a slot of this module's range starts a restore here; any other is a home's item and
this module builds its shard, RESTORING until its home goes to PARKED (R106). -/
def execRestoreItem (item : Item) (owners : List (Word × Word)) (pool : PoolSeen) (s : State) :
    Host.Outcome State Fault Refusal :=
  gate s fun s =>
    let slot := restSlot item
    let s := s.seePool pool
    let shards := s.readCairn item.w2 pool
    let own := owners.take (bits item.w6 63 48)
    if s.field Reg.hmpDirRange 21 0 ≤ slot && slot ≤ s.field Reg.hmpDirRange 53 32 then
      let code := s.restoreCode item
      if code ≠ 0 then (s.noteStale code).restoreReply { slot := slot, item := item } code 0
      else
        match s.ownerMap item with
        | .error c => s.restoreReply { slot := slot, item := item } c 0
        | .ok own => s.startRestore item own shards none none
    else
      let s := if (s.dir slot).state = .free then s else s.toFree slot
      match s.buildShare item own shards .shard item.w0 with
      | .error code => s.shareDone item.w0 code
      | .ok s => s.shareDone item.w0 0

/-- The module takes the record k of a restored hamper (R127 step 2, R130): (code, state). -/
def State.adoptRec (s : State) (slot k : Nat) (r : PoolRec) : Nat × State :=
  let h := s.hdr slot
  let pool := match r.holder with
    | .pool _ => true
    | .module _ => false
  let own := match r.holder with
    | .pool _ => true
    | .module m => m == s.self
  if s.recCode (recAddrOf (k / 2 ^ 32) (k % 2 ^ 32)) ≠ 0 then
    (s.recCode (recAddrOf (k / 2 ^ 32) (k % 2 ^ 32)), s.freeAll slot none 0 0)
  else if r.state ≠ .held || !own then (Code.custodyBusy, s.freeAll slot none 0 0)
  else
    let w := s.swapRec k r { r with custody := r.custody + 1, holder := .module s.self, current := h.handle }
    if !w.1 then (Code.custodyBusy, w.2.freeAll slot none 0 0)
    else
      let t := w.2.setHdr slot
        { h with custody := r.custody + 1, custodyNs := s.now, recAddr := recAddrOf (k / 2 ^ 32) (k % 2 ^ 32) }
      let t := t.setDir slot { t.dir slot with tracked := true }
      (0, t.bump (Reg.hmpCnt (if pool then 4 else 5)))

/-- The module takes custody of a restored hamper (R125, R126, R130, R134): (code, state).  A session without a record, or under no
directory pool, stays untracked; a directory that cannot be used or a probe without an end fails the restore. -/
def State.adopt (s : State) (slot : Nat) : Nat × State :=
  if s.dirPool = 0xFF then (0, s)
  else if s.dirCode ≠ 0 then (s.dirCode, s.freeAll slot none 0 0)
  else
    match s.findRec (s.hdr slot).origin with
    | .found k => s.adoptRec slot k (s.rec_ k)
    | .empty _ => (0, s)
    | .full => (Code.custodyDir, s.freeAll slot none 0 0)

/-- The restored hamper is PARKED, and its shards follow (R106). -/
def State.settleRestore (s : State) (r : Restoring) : State :=
  let h := (s.hdr r.slot).handle
  let s := s.startTick (decayTick r.slot)
  match r.cmd with
  | some c => s.follow r.slot h .park .park (some c) 0 h
  | none => (s.follow r.slot h .park .park none 0 0).restoreReply r 0 h

/-- RESTORE_COMPLETE (R524 step 9, R525): every module's share is built, or `code` is the first other module's failure. -/
def execRestoreComplete (slot code : Nat) (seen : Option PoolRec) (s : State) : Host.Outcome State Fault Refusal :=
  gate s fun s =>
    match s.snp.restores.find? fun r => r.slot = slot with
    | none => s
    | some r =>
      let s := { s.endChange slot with snp.restores := s.snp.restores.filter fun x => x.slot ≠ slot }
      if code ≠ 0 then (s.freeAll slot none 0 0).restoreReply r code 0
      else
        let h := s.hdr slot
        let s := ((s.setHdr slot { h with parkedNs := s.now }).setHState slot .parked).bump (Reg.tsmCnt 14)
        let a := (s.seeOrigin h.origin seen).adopt slot
        let s := { a.2 with hmp.empties := a.2.hmp.empties.filter fun e => some e.key ≠ r.claim }
        let s := s.iff (a.1 ≠ 0 && r.claim.isSome) fun s => s.event a.1 0 4 255 0 h.handle h.origin
        if a.1 = 0 then s.settleRestore r else s.restoreReply r a.1 0

/-! ### Empty claims (R134) -/

/-- The restore of an empty claim, or its end when no cairn exists. -/
def State.restoreClaim (s : State) (e : EmptyClaim) (pool : PoolSeen) : State :=
  let r := s.rec_ e.key
  let s := s.seePool pool
  let shards := s.readCairn r.cairn pool
  let drop := { s with hmp.empties := s.hmp.empties.filter fun x => x.key ≠ e.key }
  if s.recCode (recAddrOf (e.key / 2 ^ 32) (e.key % 2 ^ 32)) ≠ 0 then s
  else if r.state ≠ .held || r.holder ≠ .module s.self then drop
  else if r.cairn = 0 then
    let w := drop.retireRec e.key r
    if w.1 then w.2.reportCustody Code.custodyEmpty 0 r.origin else w.2
  else
    match s.freeSlot with
    | none =>
      let s := s.event Code.dirFull 0 4 255 0 0 r.origin
      { s with hmp.empties := s.hmp.empties.map fun (x : EmptyClaim) => if x.key = e.key then { x with sinceNs := s.now } else x }
    | some slot =>
      let model := ((homeView (shards.getD []) r.origin).map fun x => x.2.model).getD 0
      let it : Item := { w1 := fld 35 32 5, w2 := r.cairn, w3 := r.origin,
                         w4 := fld 63 60 model ||| fld 59 56 1 ||| fld 55 52 r.tclass ||| fld 21 0 slot }
      s.startRestore it [] shards none (some e.key)

/-- EMPTY_CLAIM_RESTORE (R134): TIMEOUT_MS after the claim was detected. -/
def execEmptyClaimRestore (origin : Word) (pool : PoolSeen) (seen : Option PoolRec) (s : State) :
    Host.Outcome State Fault Refusal :=
  gate s fun s =>
    match s.hmp.empties.find? fun e => (s.rec_ e.key).origin = origin with
    | none => s
    | some e =>
      if s.now < e.sinceNs + s.custodyTimeout || (s.snp.restores.any fun r => r.claim = some e.key) then s
      else (s.seeOrigin origin seen).restoreClaim e pool

end Sys2Proof.Machine
end

