-- ==== Sys2Proof/Machine/Requests.lean ====
section
/-! DEFINITION. Requests: items, records, their states, rations, adapter bindings and the host commands for them (R347 to R353,
R361, R368 to R380, R668 to R672). -/

namespace Sys2Proof

/-! ### Fields of a request item (R347) -/

def Item.maxNew (i : Item) : Nat := bits i.w2 63 32
def Item.kind (i : Item) : Nat := bits i.w2 31 28
def Item.pinAdapter (i : Item) : Bool := bit i.w2 25
def Item.specEn (i : Item) : Bool := bit i.w2 24
def Item.depth (i : Item) : Nat := bits i.w2 23 20
def Item.customer (i : Item) : Nat := bits i.w2 19 0
def Item.inputLen (i : Item) : Nat := bits i.w4 63 32
def Item.stopSet (i : Item) : Nat := bits i.w4 31 16
def Item.grammarNo (i : Item) : Nat := bits i.w4 15 0
def Item.deadline (i : Item) : Nat := i.w5.toNat
def Item.prio (i : Item) : Nat := bits i.w6 34 32
def Item.clientRef (i : Item) : Nat := bits i.w6 31 0

/-- Reserved values and ranges of a request item (R13, R347, R348). -/
def reqFieldsOk (i : Item) : Bool :=
  i.kind ≤ 2 && bits i.w2 27 26 ≤ 1 && (i.specEn == (i.depth != 0)) && i.depth ≤ 8 && i.maxNew ≤ 16777216 &&
    i.inputLen ≤ 16777216

end Sys2Proof

namespace Sys2Proof.Machine

open Sys2Proof

/-! ### Rations (R376 to R379) -/

def State.rationAddr (s : State) (customer : Nat) : Nat := 65536 * s.field Reg.ctlRationTable 35 0 + 32 * customer
/-- BALANCE, signed, in units of 1/256 token. -/
def State.balance (s : State) (customer : Nat) : Int := (s.tabWord (s.rationAddr customer)).toInt
/-- POLICY: 0 UNMETERED, 1 HOLD, 2 REFUSE. -/
def State.rationPolicy (s : State) (customer : Nat) : Nat := bits (s.tabWord (s.rationAddr customer + 24)) 1 0
/-- The customer's balance is spent under a policy that acts on it. -/
def State.rationOut (s : State) (customer policy : Nat) : Bool :=
  s.rationPolicy customer = policy && s.balance customer ≤ 0

/-- The meter changes a balance as one operation (R377, R379). -/
def State.rationOp (s : State) (customer : Nat) (f : Word → Word) (charged : Nat) : State :=
  let a := s.rationAddr customer
  let s := s.setTabWord a (f (s.tabWord a))
  let s := s.iff (charged ≠ 0) fun s => s.setTabWord (a + 16) (s.tabWord (a + 16) + BitVec.ofNat 64 charged)
  s.bump (Reg.mtrCnt 6)

/-- Charge a commit (R377). -/
def State.charge (s : State) (customer inputs outputs : Nat) : State :=
  let n := s.field Reg.ctlRation 15 0 * inputs + s.field Reg.ctlRation 31 16 * outputs
  s.rationOp customer (fun b => b - BitVec.ofNat 64 n) n

/-- One record's refill (R379). -/
def State.refillOne (s : State) (customer : Nat) : State :=
  let w := s.tabWord (s.rationAddr customer + 8)
  if bits w 63 32 = 0 then s
  else s.rationOp customer (fun b => BitVec.ofInt 64 (min (256 * (bits w 31 0 : Int)) (b.toInt + 256 * (bits w 63 32 : Int)))) 0

/-- Customers whose records hold anything: an all-zero record has REFILL 0. -/
def State.refillers (s : State) : List Nat :=
  (List.range 1048576).filter fun c => bits (s.tabWord (s.rationAddr c + 8)) 63 32 ≠ 0

/-- RATION_REFILL (R379). -/
def execRationRefill (s : State) : Host.Outcome State Fault Refusal :=
  gate s fun s =>
    if s.now < s.fw.refillNs + msec (s.field Reg.ctlRation 47 32) then s
    else s.refillers.foldl State.refillOne { s with fw.refillNs := s.now }

/-- RATION_ADD (R379). -/
def execRationAdd (cmd : Nat) (s : State) : Host.Outcome State Fault Refusal :=
  hostCmd cmd 0x31 s fun c s =>
    (s.rationOp (bits (c.arg 0) 19 0) (fun b => b + c.arg 1) 0).complete c.id 0 0 0

/-! ### Adapter bindings (R370 to R373) -/

/-- Address of a directory entry of a kind, and whether the slot's table reaches it. -/
def State.adapterAddr (s : State) (steer : Bool) (model entry : Nat) : Nat :=
  if steer then 65536 * s.field (Reg.ctlSteer model) 35 0 + 32 * entry
  else 65536 * s.field (Reg.ctlExpert model) 35 0 + 64 * entry
def State.adapterIn (s : State) (steer : Bool) (model entry : Nat) : Bool :=
  if steer then entry < s.field (Reg.ctlSteer model) 56 38 else bit (s.reg (Reg.ctlExpert model)) 36 && entry < 64

/-- Homes of a body's first page: the larder or DRAM (R373). -/
def State.bodyNear (s : State) (base : Word) : Bool :=
  let l := s.leaf (base.toNat / 65536)
  l.v && (l.tier = .larder || l.tier = .dram)

/-- Bind one adapter at a step start (R372, R373): the binding's word and body, or the code that ends the request. -/
def State.bindOne (s : State) (steer : Bool) (model customer : Nat) (w body : Word) : Except Nat (Word × Word) :=
  let n := if steer then bits w 17 0 else bits w 5 0
  let a := s.adapterAddr steer model n
  let w1 := s.tabWord (a + 8)
  if !bit w 31 then .ok (w, body)
  else if !s.adapterIn steer model n then .error (if steer then Code.invalidField else Code.adapterMissing)
  else if bits w1 31 30 ≠ 1 then .error Code.adapterMissing
  else if bits w1 19 0 ≠ customer then .error Code.reqDenied
  else
    let r := if bit w 30 then (w, body) else (setBits w 63 32 (bits w1 63 32), s.tabWord a)
    if s.bodyNear r.2 then .ok r else .error Code.notResident

/-- Bind both adapters of a session; `pin` sets the PIN bits (R372). -/
def State.bindAdapters (s : State) (slot : Nat) (pin : Bool) : Except Nat State :=
  let h := s.hdr slot
  let m := (s.dir slot).model
  let g := fun i => h.adapter.getD i 0
  let p := fun (w : Word) => if pin && bit w 31 then setBits w 30 30 1 else w
  match s.bindOne true m h.customer (g 0) (g 1), s.bindOne false m h.customer (g 2) (g 3) with
  | .error c, _ => .error c
  | _, .error c => .error c
  | .ok a, .ok b => .ok (s.setHdr slot { h with adapter := [p a.1, a.2, p b.1, b.2] })

/-- Clear the PIN bits at a request's end. -/
def Header.unpinAdapters (h : Header) : Header :=
  { h with adapter := [setBits (h.adapter.getD 0 0) 30 30 0, h.adapter.getD 1 0, setBits (h.adapter.getD 2 0) 30 30 0,
      h.adapter.getD 3 0] }

/-! ### Responses and ends (R348, R351, R540) -/

def ReqRec.response (r : ReqRec) (status : Nat) (final : Bool) : NetResp :=
  { net := r.net.getD {}, session := r.item.w0, clientRef := r.item.clientRef, customer := r.item.customer, status := status,
    late := r.late, final := final, unverified := r.unverified, out := r.outBytes, tokens := r.outToks }

def State.postResponse (s : State) (r : NetResp) : State := { s with fw.responses := s.fw.responses ++ [r] }

/-- A refused request item's final response (R348); a request for a session that this module does not hold may reveal an empty claim
(R134). -/
def State.refuseReq (s : State) (p : Posted) (code : Nat) : State :=
  let s := (s.noteStale code).iff (code = Code.badHandle || code = Code.staleHandle) fun s => s.askedClaims p.item.w0
  let s := s.reply p.cmd code 0 0
  match p.net with
  | none => s
  | some n => s.postResponse (ReqRec.response { item := p.item, net := some n } code true)

/-- The output of a step goes out without an end (R540). -/
def State.sendOutput (s : State) (i : Nat) (r : ReqRec) : State :=
  let s := if r.net.isSome && 0 < r.outToks then s.postResponse (r.response 0 false) else s
  s.setReq i { r with outBytes := [], outToks := 0, late := false, unverified := false }

/-- A request ends with a code (R349, R351): the final response, the record freed, its grammar closed and its pins gone. -/
def State.endReq (s : State) (i : Nat) (r : ReqRec) (code : Nat) : State :=
  let r := if code = Code.reqCancelled then { r with outBytes := [], outToks := 0 } else r
  let h := s.hdr r.slot
  let s := s.reply r.cmd code (fld 63 32 (reqId i r.use).toNat ||| fld 31 0 r.newDone)
    (fld 63 32 r.firstOut ||| fld 31 0 h.commitLen)
  let s := if r.net.isSome then s.postResponse (r.response code true) else s
  let s := s.bump (Reg.ctlCnt (if code = 0 then 1 else 2))
  let s := { s with fw.reqs := SMap.erase s.fw.reqs i, fw.uses := SMap.put s.fw.uses i (r.use + 1) }
  if (s.dir r.slot).state = .free || (s.dir r.slot).kind ≠ .home then s
  else
    let s := s.iff (r.item.grammarNo ≠ 0xFFFF) fun s => s.closeGrammar r.slot
    s.setHdr r.slot ((s.hdr r.slot).unpinAdapters.setHold [])

/-! ### States of an open request (R351, R378) -/

/-- The sampler's pending token (R361, R363). -/
def Header.next (h : Header) : Option Nat :=
  let w := h.sampler.getD 5 0
  if bit w 31 then some (bits w 17 0) else none
def Header.setNext (h : Header) (t : Option Nat) : Header :=
  { h with sampler := h.sampler.set 5 (match t with
      | some n => fld 31 31 1 ||| fld 17 0 n
      | none => 0) }

/-- The log entry of an input entry (R360, R670). -/
def inputEntry (first : Bool) (e : BitVec 32) : BitVec 32 :=
  mkEntry (entryToken e) (if entryOrigin e = 3 then 3 else if first then 0 else 2) false false

/-- The session is ACTIVE: PREFILL, DECODE or DONE (R351), with the pending token in front of the input (R363); a spent
balance under HOLD then holds the request (R378). -/
def State.startReq (s : State) (i : Nat) (r : ReqRec) : State :=
  let h := s.hdr r.slot
  let pend := !r.input.isEmpty && h.next.isSome
  let entries := r.input.map (inputEntry (h.commitLen = 0))
  let feed := (if pend then [mkEntry (h.next.getD 0) 1 (s.fw.lateNext.contains r.slot) false] else []) ++ entries
  let done := r.input.isEmpty && (r.item.kind = 1 || r.item.maxNew = 0)
  let st := if r.input.isEmpty then ReqState.decode else .prefill
  let r := { r with feed := feed, fed := 0, pend := pend, ended := done, state := st, held := st }
  if !done && s.rationOut r.item.customer 1 then (s.setReq i { r with state := .rationWait }).bump (Reg.ctlCnt 6)
  else s.setReq i r

/-- A QUEUED request looks at its session (R351). -/
def State.settleReq (s : State) (i : Nat) : State :=
  match SMap.lookup s.fw.reqs i with
  | none => s
  | some r =>
    if r.state ≠ .queued then s
    else
      match (s.dir r.slot).state with
      | .active => s.startReq i r
      | .parked => if s.busy r.slot then s else (s.setReq i { r with state := .reviveWait }).startRevive r.slot none
      | _ => s

/-- Balance and policy at a step boundary (R378). -/
def State.rationReq (s : State) (i : Nat) : State :=
  match SMap.lookup s.fw.reqs i with
  | none => s
  | some r =>
    let c := r.item.customer
    if r.state = .prefill || r.state = .decode then
      if s.rationOut c 1 then (s.setReq i { r with held := r.state, state := .rationWait, fallback := false }).bump (Reg.ctlCnt 6)
      else if s.rationOut c 2 then s.setReq i { r with failed := if r.failed = 0 then Code.rationExhausted else r.failed }
      else s
    else if r.state = .rationWait && !s.rationOut c 1 then s.setReq i { r with state := r.held }
    else s

/-- Units a request depends on (R690). -/
def State.unitReq (s : State) (i : Nat) : State :=
  match SMap.lookup s.fw.reqs i with
  | none => s
  | some r =>
    let text := s.unitFailed 0 && (r.net.isSome || r.item.stopSet ≠ 0xFFFF || r.item.grammarNo ≠ 0xFFFF)
    if (text || (s.unitFailed 1 && r.net.isSome)) && r.failed = 0 then s.setReq i { r with failed := Code.unitFailed } else s

/-- Ends that have come due at a step boundary (R351): a code first, then a CANCEL, then DONE. -/
def State.closeReq (s : State) (i : Nat) : State :=
  match SMap.lookup s.fw.reqs i with
  | none => s
  | some r =>
    if r.inStep then s
    else if r.failed ≠ 0 then s.endReq i r r.failed
    else if r.cancel then s.endReq i r Code.reqCancelled
    else if r.ended || (r.state = .decode && r.newDone = r.item.maxNew) then s.endReq i r 0
    else s

def State.eachReq (s : State) (f : State → Nat → State) : State := s.fw.reqs.keys.foldl f s

/-! ### Acceptance (R348) -/

/-- The lowest free request record. -/
def State.freeReq (s : State) : Option Nat :=
  match findFrom (fun i => (SMap.lookup s.fw.reqs i).isNone) 0 (s.fw.reqs.length + 1) with
  | some i => if i < s.field Reg.ctlReqCount 16 0 then some i else none
  | none => none

/-- The list of R348 for a GENERATE or APPEND, then the refusals of R364 and R378: 0 or the first code. -/
def State.reqCode (s : State) (i : Item) : Nat :=
  let slot := hSlot i.w0
  if s.homeCode i.w0 ≠ 0 then s.homeCode i.w0
  else if (s.dir slot).customer ≠ i.customer then Code.reqDenied
  else if !reqFieldsOk i then Code.invalidField
  else if i.kind ≠ 2 && (s.openReq? slot).isSome then Code.reqOpen
  else if i.kind = 0 && i.inputLen = 0 && (s.hdr slot).next.isNone then Code.reqState
  else if i.kind = 2 && (s.openReq? slot).isNone then Code.reqState
  else if i.kind ≠ 2 && s.freeReq.isNone then Code.reqFull
  else if i.kind ≠ 2 && i.specEn && !s.draftOk then Code.draftUnavailable
  else if i.kind ≠ 2 && s.rationOut i.customer 2 then Code.rationExhausted
  else 0

/-- The posted item firmware reads now: the oldest with these bytes, or an item from elsewhere. -/
def State.takePosted (s : State) (i : Item) : Posted × State :=
  match s.fw.posted.find? fun p => p.item = i with
  | some p => (p, { s with fw.posted := s.fw.posted.erase p })
  | none => ({ item := i }, s)

/-- Record a request (R349 to R351). -/
def State.acceptReq (s : State) (p : Posted) (k : Nat) : State :=
  let i := p.item
  let input := p.entries.getD (words32 (s.tabBytes i.w3.toNat (4 * i.inputLen)))
  let r : ReqRec := {
    item := i, use := s.reqUse k, openNs := s.now, slot := hSlot i.w0, input := input, cmd := p.cmd, net := p.net
    rate := if i.specEn then 65536 + 32768 * i.depth else 65536 }
  ((s.setReq k r).bump (Reg.ctlCnt 0)).settleReq k

/-- A GENERATE or APPEND item (R348), with its grammar opened (R458). -/
def State.requestItem (s : State) (item : Item) : State :=
  let q := s.takePosted item
  let s := q.2
  let code := s.reqCode item
  if code ≠ 0 then s.refuseReq q.1 code
  else
    match s.freeReq with
    | none => s.refuseReq q.1 Code.reqFull
    | some k =>
      if item.grammarNo = 0xFFFF then s.acceptReq q.1 k
      else
        match s.openGrammar (hSlot item.w0) item.grammarNo (s.hdr (hSlot item.w0)).vocab with
        | .error c => s.refuseReq q.1 c
        | .ok s => s.acceptReq q.1 k

/-- REQUEST_GENERATE (R347, R348); an item of a reserved KIND is refused here. -/
def execRequestGenerate (item : Item) (s : State) : Host.Outcome State Fault Refusal :=
  gate s fun s => if item.kind = 0 || 3 ≤ item.kind then s.requestItem item else s

/-- REQUEST_APPEND (R347, R348). -/
def execRequestAppend (item : Item) (s : State) : Host.Outcome State Fault Refusal :=
  gate s fun s => if item.kind = 1 then s.requestItem item else s

/-- Set CANCEL on a request (R352): it ends at once outside a step. -/
def State.cancelReq (s : State) (i : Nat) (r : ReqRec) : State := (s.setReq i { r with cancel := true }).closeReq i

/-- REQUEST_CANCEL (R348, R352). -/
def execRequestCancel (item : Item) (s : State) : Host.Outcome State Fault Refusal :=
  gate s fun s =>
    if item.kind ≠ 2 then s
    else
      let q := s.takePosted item
      let s := q.2
      let code := s.reqCode item
      if code ≠ 0 then s.refuseReq q.1 code
      else
        match s.openReq? (hSlot item.w0) with
        | none => s.refuseReq q.1 Code.reqState
        | some (i, r) => (s.cancelReq i r).reply q.1.cmd 0 0 0

/-! ### Host commands (R352, R374, R668 to R672) -/

/-- SET_SAMPLER (R361, R668): the host's reserved bits are ignored (R12). -/
def execSetSampler (cmd : Nat) (sampler : Option (List Word)) (s : State) : Host.Outcome State Fault Refusal :=
  hostCmd cmd 0x16 s fun c s =>
    let slot := hSlot c.session
    let code := s.homeCode c.session
    if code ≠ 0 then (s.noteStale code).complete c.id code 0 0
    else if (s.openReq? slot).isSome then s.complete c.id Code.reqOpen 0 0
    else
      match sampler with
      | none => s.complete c.id Code.hostDma 0 0
      | some ws => (s.setHdr slot { s.hdr slot with sampler := samplerClean ws }).complete c.id 0 0 0

/-- BIND_ADAPTER (R371, R672): the bodies and versions are bound from the next step start. -/
def execBindAdapter (cmd : Nat) (s : State) : Host.Outcome State Fault Refusal :=
  hostCmd cmd 0x17 s fun c s =>
    let slot := hSlot c.session
    let code := s.homeCode c.session
    let pinned := match s.openReq? slot with
      | some (_, r) => r.item.pinAdapter
      | none => false
    if code ≠ 0 then (s.noteStale code).complete c.id code 0 0
    else if pinned then s.complete c.id Code.reqOpen 0 0
    else
      let h := s.hdr slot
      let w := fun (a : Word) (hi : Nat) (old : Word) =>
        fld 63 32 (bits old 63 32) ||| fld 31 31 (bits a 63 63) ||| fld hi 0 (bits a hi 0)
      let ad := [w (c.arg 0) 17 (h.adapter.getD 0 0), h.adapter.getD 1 0, w (c.arg 1) 5 (h.adapter.getD 2 0), h.adapter.getD 3 0]
      (s.setHdr slot { h with adapter := ad }).complete c.id 0 0 0

/-- An entry R670 refuses, for a vocabulary. -/
def State.badInput (s : State) (vocab : Nat) (ctrl : Bool) (e : BitVec 32) : Bool :=
  let isCtl := match s.vocab? vocab with
    | none => false
    | some v => v.kind? (entryToken e) = some .control
  let o := entryOrigin e
  o = 1 || (o = 3 && (!ctrl || !isCtl)) || (o ≠ 3 && isCtl)

/-- SUBMIT_REQUEST (R668, R670): the entries are copied, checked, and the request item is built and posted. -/
def execSubmitRequest (cmd : Nat) (entries : Option (List (BitVec 32))) (s : State) : Host.Outcome State Fault Refusal :=
  hostCmd cmd 0x20 s fun c s =>
    let item : Item := {
      w0 := c.session, w1 := fld 44 44 (bnat c.reissue) ||| fld 35 32 1 ||| fld 15 0 c.epoch.toNat,
      w2 := c.arg 0, w4 := c.arg 1, w5 := c.arg 2, w6 := c.arg 3 }
    match entries with
    | none => s.complete c.id Code.hostDma 0 0
    | some es =>
      if es.length ≠ item.inputLen then s.complete c.id Code.hostDma 0 0
      else if es.any (s.badInput (s.hdr (hSlot c.session)).vocab c.ctrlTokens) then s.complete c.id Code.invalidField 0 0
      else
        let s := s.began c.id
        { s with fw.posted := s.fw.posted ++ [Posted.mk item (some es) (some c.id) none] }

/-- CANCEL (R349, R352). -/
def execCancel (cmd : Nat) (s : State) : Host.Outcome State Fault Refusal :=
  hostCmd cmd 0x21 s fun c s =>
    let i := bits (c.arg 0) 31 16
    match SMap.lookup s.fw.reqs i with
    | none => s.complete c.id Code.reqState 0 0
    | some r =>
      if r.use.toNat ≠ bits (c.arg 0) 15 0 then s.complete c.id Code.reqState 0 0
      else (s.cancelReq i r).complete c.id 0 0 0

/-- A token log entry as READ_OUTPUT returns it (R671). -/
def State.logEntry (s : State) (slot pos : Nat) : BitVec 32 :=
  let h := s.hdr slot
  if pos = h.commitLen then mkEntry (h.next.getD 0) 1 false false else SMap.get 0 s.hmp.log (slot * 2 ^ 24 + pos)

/-- Pairs of entries as words of the host write; an odd last entry fills half a word. -/
def packEntries : List (BitVec 32) → List Word
  | a :: b :: es => (b ++ a) :: packEntries es
  | [a] => [a.setWidth 64]
  | [] => []

/-- READ_OUTPUT (R671). -/
def execReadOutput (cmd : Nat) (dmaOk : Bool) (s : State) : Host.Outcome State Fault Refusal :=
  hostCmd cmd 0x22 s fun c s =>
    let slot := hSlot c.session
    let code := s.homeCode c.session
    let h := s.hdr slot
    let lo := bits (c.arg 0) 63 32
    let n := bits (c.arg 0) 31 0
    let top := h.commitLen + bnat h.next.isSome
    let first := (h.tokenLog + 4 * lo) / 65536
    let pages := pageRun first ((h.tokenLog + 4 * (lo + n) - 1) / 65536 + 1 - first)
    if code ≠ 0 then (s.noteStale code).complete c.id code 0 0
    else if top < lo + n then s.complete c.id Code.outputRange 0 0
    else if pages.any fun p => (s.leaf p).tier = .sett && (s.leaf p).v then s.complete c.id Code.notResident 0 0
    else if pages.any fun p => (s.leaf p).poison then
      (s.noteReport Code.poisoned c.session 0).complete c.id Code.poisoned 0 0
    else
      (s.output c dmaOk (c.arg 1) (packEntries ((List.range n).map fun i => s.logEntry slot (lo + i)))).complete c.id 0 0
        (BitVec.ofNat 64 h.commitLen)

/-- ADAPTER_SWAP (R374): one atomic update of the entry; the command completes at retirement, or at once for an EMPTY entry,
which has no version to retire. -/
def execAdapterSwap (cmd : Nat) (s : State) : Host.Outcome State Fault Refusal :=
  hostCmd cmd 0x30 s fun c s =>
    let steer := !bit (c.arg 0) 63
    let m := bits (c.arg 0) 59 56
    let e := bits (c.arg 0) 17 0
    let a := s.adapterAddr steer m e
    let w1 := s.tabWord (a + 8)
    let empty := bits w1 31 30 ≠ 1
    let ver := BitVec.ofNat 32 (bits (c.arg 2) 31 0)
    if !s.adapterIn steer m e || (!steer && (bits (c.arg 2) 63 60 = 0 || 8 < bits (c.arg 2) 63 60)) then
      s.complete c.id Code.invalidField 0 0
    else if !empty && !newer (BitVec.ofNat 32 (bits w1 63 32)) ver then s.complete c.id Code.adapterVersion 0 0
    else if s.tabWord (a + 16) ≠ 0 then s.complete c.id Code.adapterBusy 0 0
    else
      let old := s.tabWord a
      let s := s.setTabWord a (c.arg 1)
      let s := s.setTabWord (a + 8) (fld 63 32 ver.toNat ||| fld 31 30 1 ||| fld 19 0 (bits (c.arg 2) 51 32))
      let s := s.setTabWord (a + 16) (if empty then 0 else old)
      let s := s.setTabWord (a + 24) (fld 63 32 (if empty then 0 else bits w1 63 32) ||| fld 31 0 s.fw.step.toNat)
      let s := s.iff (!steer) fun s => s.setTabWord (a + 32) (fld 63 60 (bits (c.arg 2) 63 60))
      let s := s.bump (Reg.ctlCnt 7)
      if empty then s.complete c.id 0 0 0
      else
        let s := s.began c.id
        { s with fw.swaps := s.fw.swaps ++ [Swap.mk c.id e steer m] }

/-- An open request pins the version a swap replaced (R375). -/
def State.pinsPrev (s : State) (w : Swap) (ver : Nat) : Bool :=
  s.fw.reqs.any fun x =>
    let b := (s.hdr x.2.slot).adapter.getD (if w.isSteer then 0 else 2) 0
    (s.dir x.2.slot).model = w.model && bit b 31 && bit b 30 && bits b 63 32 = ver &&
      (if w.isSteer then bits b 17 0 else bits b 5 0) = w.entry

/-- ADAPTER_RETIRE (R375): once steps up to SWAP_STEP have ended everywhere (`othersDone` for the other modules) and no
request pins the version, PREV is cleared and the swap completes with the old BASE. -/
def execAdapterRetire (cmd : Nat) (othersDone : Bool) (s : State) : Host.Outcome State Fault Refusal :=
  gate s fun s =>
    match s.fw.swaps.find? fun w => w.cmd = cmd with
    | none => s
    | some w =>
      let a := s.adapterAddr w.isSteer w.model w.entry
      let v := s.tabWord (a + 24)
      let step := BitVec.ofNat 32 (bits v 31 0)
      let running := match s.fw.cur with
        | some r => r.n = step || newer r.n step
        | none => false
      if !othersDone || running || s.pinsPrev w (bits v 63 32) then s
      else
        let old := s.tabWord (a + 16)
        let s := (s.setTabWord (a + 16) 0).setTabWord (a + 24) (fld 31 0 (bits v 31 0))
        { s with fw.swaps := s.fw.swaps.erase w }.complete w.cmd 0 0 old

end Sys2Proof.Machine
end

