-- ==== Sys2Proof/Machine/Meter.lean ====
section
/-! DEFINITION. The meter: policing of requests, shaping credit and METER_SET (R547 to R553). -/

namespace Sys2Proof.Machine

open Sys2Proof

/-! ### Meter records (R547) -/

def State.meterAddr (s : State) (customer : Nat) : Nat := 65536 * s.field Reg.mtrTable 35 0 + 64 * customer

/-- The eight words of a customer's record. -/
def State.meterRec (s : State) (customer : Nat) : Item :=
  let a := s.meterAddr customer
  ⟨s.tabWord a, s.tabWord (a + 8), s.tabWord (a + 16), s.tabWord (a + 24),
    s.tabWord (a + 32), s.tabWord (a + 40), s.tabWord (a + 48), s.tabWord (a + 56)⟩

def State.setMeterWord (s : State) (customer i : Nat) (w : Word) : State := s.setTabWord (s.meterAddr customer + 8 * i) w

/-- Colours (R549). -/
inductive Colour where
  | green | yellow | red
  deriving DecidableEq, Repr

/-- What one decision uses: levels of the two buckets. -/
structure Buckets where
  tc : Nat := 0
  te : Nat := 0
  deriving DecidableEq, Repr

/-- Units that arrive in `e` nanoseconds at a rate in units per millisecond (R549). -/
def grown (e rate : Nat) : Nat := e * rate / 1000000

/-- Refill by algorithm (R549): 1 SRTCM, 2 TRTCM. -/
def refill (alg e cir pir cbs ebs : Nat) (b : Buckets) : Buckets :=
  let a := grown e cir
  if alg = 1 then { tc := min cbs (b.tc + a), te := min ebs (b.te + min a (b.tc + a - cbs)) }
  else if alg = 2 then { tc := min cbs (b.tc + a), te := min ebs (b.te + grown e pir) }
  else b

/-- Colour a request of B units (R549), pre-coloured P. -/
def colourOf (alg n : Nat) (p : Colour) (b : Buckets) : Colour × Buckets :=
  if alg = 1 then
    if p = .green && n ≤ b.tc then (.green, { b with tc := b.tc - n })
    else if p ≠ .red && n ≤ b.te then (.yellow, { b with te := b.te - n })
    else (.red, b)
  else if alg = 2 then
    if p = .red || b.te < n then (.red, b)
    else if p = .yellow || b.tc < n then (.yellow, { b with te := b.te - n })
    else (.green, { tc := b.tc - n, te := b.te - n })
  else (.green, b)

/-- The pre-colour of a DSCP value by a value of the NET.DSCP registers (R559). -/
def preColour (reg : Nat → Word) (dscp : Nat) : Colour :=
  match bits (reg (Reg.netDscp (dscp / 32 % 2))) (2 * (dscp % 32) + 1) (2 * (dscp % 32)) with
  | 0 => .green
  | 1 => .yellow
  | _ => .red

/-- Police B units of a customer (R549, R550): one operation on the record. -/
def State.police (s : State) (reg : Nat → Word) (customer dscp : Nat) (size : Int) : Colour × State :=
  let r := s.meterRec customer
  let n := max 1 size.toNat
  let alg := bits r.w0 63 62
  let e := s.now - r.w4.toNat
  let p := if bit r.w0 61 then preColour reg dscp else .green
  let b := refill alg e (bits r.w1 63 32) (bits r.w1 31 0) (bits r.w2 63 32) (bits r.w2 31 0)
    { tc := bits r.w3 63 32, te := bits r.w3 31 0 }
  let c := colourOf alg n p b
  let s := (s.setMeterWord customer 3 (fld 63 32 c.2.tc ||| fld 31 0 c.2.te)).setMeterWord customer 4 (BitVec.ofNat 64 s.now)
  (c.1, s.bump (Reg.mtrCnt (match c.1 with
    | .green => 0
    | .yellow => 1
    | .red => 2)))

/-- The policer's unit is the token (R547). -/
def State.polTokens (s : State) (customer : Nat) : Bool := bit (s.meterRec customer).w0 60
def State.polOverhead (s : State) (customer : Nat) : Int := sext 8 (bits (s.meterRec customer).w0 54 47)
def State.yellowPrio (s : State) (customer : Nat) : Nat := bits (s.meterRec customer).w0 57 55

/-! ### Shaping (R551) -/

def State.shRate (s : State) (customer : Nat) : Nat := bits (s.meterRec customer).w5 63 32
def State.credit (s : State) (customer : Nat) : Int := sext 32 (bits (s.meterRec customer).w7 63 32)

/-- Credit grows with time: up to SH_BURST, or no further than 0 for a customer without a response waiting and without
IDLE_CREDIT. -/
def State.growCredit (s : State) (customer : Nat) (waiting : Bool) : State :=
  let r := s.meterRec customer
  let c := s.credit customer
  let top : Int := if waiting || bit r.w0 58 then (bits r.w5 31 0 : Nat) else 0
  let c' := max c (min top (c + (grown (s.now - r.w6.toNat) (bits r.w5 63 32) : Nat)))
  (s.setMeterWord customer 7 (BitVec.ofInt 64 (c' * 2 ^ 32))).setMeterWord customer 6 (BitVec.ofNat 64 s.now)

def State.chargeShaper (s : State) (customer : Nat) (n : Int) : State :=
  s.setMeterWord customer 7 (BitVec.ofInt 64 ((s.credit customer - n) * 2 ^ 32))

/-! ### METER_SET (R553, R668) -/

/-- METER_SET: the configuration words are replaced, reserved bits as 0 (R12), levels and credit are clamped, times are kept. -/
def execMeterSet (cmd : Nat) (record : Option Item) (s : State) : Host.Outcome State Fault Refusal :=
  hostCmd cmd 0x32 s fun c s =>
    match record with
    | none => s.complete c.id Code.hostDma 0 0
    | some r =>
      let cu := bits (c.arg 0) 19 0
      let old := s.meterRec cu
      if bits r.w0 63 62 = 3 then s.complete c.id Code.invalidField 0 0
      else
        let s := ((s.setMeterWord cu 0 (setBits r.w0 38 0 0)).setMeterWord cu 1 r.w1).setMeterWord cu 2 r.w2
        let s := s.setMeterWord cu 3
          (fld 63 32 (min (bits old.w3 63 32) (bits r.w2 63 32)) ||| fld 31 0 (min (bits old.w3 31 0) (bits r.w2 31 0)))
        let s := s.setMeterWord cu 5 r.w5
        let k : Int := min (s.credit cu) ((bits r.w5 31 0 : Nat) : Int)
        let s := s.setMeterWord cu 7 (BitVec.ofInt 64 (k * 2 ^ 32))
        (s.bump (Reg.mtrCnt 7)).complete c.id 0 0 0

end Sys2Proof.Machine
end

