-- ==== Sys2Proof/Machine/Edge.lean ====
section
/-! DEFINITION. The network edge's message path: frames, reassembly, requests, responses and the shaper (R532 to R540, R551,
R552, R555). -/

namespace Sys2Proof.Machine

open Sys2Proof

/-- The edge stops while the network unit's bit of FLT.UNITS is set (R689). -/
def netGate (s : State) (f : State → State) : Host.Outcome State Fault Refusal :=
  gate s fun s => if s.unitFailed 1 then s else f s

/-- A frame or message is received: the module leaves PARKED for it (R746). -/
def netRx (s : State) (f : State → State) : Host.Outcome State Fault Refusal := netGate s fun s => f s.wake

/-! ### Link state (R555) -/

/-- ETH_LINK_STATE (R555). -/
def execEthLinkState (port : Fin 2) (up badCodewords : Bool) (s : State) : Host.Outcome State Fault Refusal :=
  gate s fun s =>
    let s := s.setField (Reg.netPort port.val) 63 63 (bnat up)
    s.iff badCodewords fun s => s.setField (Reg.netPort port.val) 62 62 1

/-- A port may send a frame of a priority now: its link is up and no pause holds (R534). -/
def State.maySend (s : State) (prio port : Nat) : Bool :=
  bit (s.reg (Reg.netPort port)) 63 && SMap.get 0 s.net.pauses (8 * port + prio) ≤ s.now

/-- The port the edge sends on: the lowest that may send priority 0 (log entry 20). -/
def State.sendPort (s : State) : Option Nat := [0, 1].find? (s.maySend 0)

/-- Send one frame; with no port that may send, nothing leaves. -/
def State.netSend (s : State) (m : NetOut) : State :=
  match s.sendPort with
  | none => s
  | some p => (s.emit (.net p m)).bump (Reg.netCnt 2)

/-- The four words of a module's entry in the peer table (R542). -/
def State.peerEntry (s : State) (peer : Nat) : List Word :=
  let a := 65536 * s.field Reg.netRoce 35 0 + 32 * peer
  [s.tabWord a, s.tabWord (a + 8), s.tabWord (a + 16), s.tabWord (a + 24)]

/-- Send a RoCEv2 message to a module at the address its entry gives (R533). -/
def State.roceTo (s : State) (peer : Nat) (m : RoceMsg) : State := s.netSend (.roce peer (s.peerEntry peer) m)

/-- PFC_RX (R534): a received pause holds its priority for the time it names; 0 ends the pause. -/
def execPfcRx (port : Fin 2) (prio : Fin 8) (pauseNs : Nat) (s : State) : Host.Outcome State Fault Refusal :=
  netRx s fun s => { s with net.pauses := SMap.put s.net.pauses (8 * port.val + prio.val) (s.now + pauseNs) }

/-! ### Reassembly (R535, R537) -/

def NetMsg.bodyLen (m : NetMsg) : Nat := bits m.w0 31 0
def NetMsg.customer (m : NetMsg) : Nat := bits m.w2 19 0
def NetMsg.clientRef (m : NetMsg) : Nat := bits m.w2 63 32
def NetMsg.sameKey (a b : NetMsg) : Bool := a.src.ip = b.src.ip && a.src.port = b.src.port && a.id = b.id
/-- The bytes 0 to BODY_LEN − 1 are all here. -/
def NetMsg.whole (m : NetMsg) : Bool := (m.bytes.filter fun b => b.1 < m.bodyLen).length = m.bodyLen
def NetMsg.take (m : NetMsg) (off n : Nat) : List Byte := (List.range n).map fun i => SMap.get 0 m.bytes (off + i)
def NetMsg.word (m : NetMsg) (off : Nat) : Word := bytesWord (m.take off 8)

/-- Add a fragment; none when a byte already here differs. -/
def addBytes : Nat → List Byte → SMap Byte → Option (SMap Byte)
  | _, [], m => some m
  | off, b :: bs, m =>
    match SMap.lookup m off with
    | none => addBytes (off + 1) bs (SMap.put m off b)
    | some c => if c = b then addBytes (off + 1) bs m else none

/-- A refusal's RESPONSE (R538). -/
def State.refuseMsg (s : State) (m : NetMsg) (code : Nat) : State :=
  (s.noteStale code).postResponse
    { net := m.src, session := m.w1, clientRef := m.clientRef, customer := m.customer, status := code, final := true }

/-- A message discarded under R537. -/
def State.dropMsg (s : State) (m : NetMsg) (code : Nat) : State :=
  ({ s with net.reasm := s.net.reasm.filter fun x => !x.sameKey m }.bump (Reg.netCnt 4)).refuseMsg m code

/-- A NET register as a message works under it (R649). -/
def NetMsg.netReg (m : NetMsg) (s : State) (k : Nat) : Word := (SMap.lookup m.old k).getD (s.reg k)

/-- Bytes in the reassembly buffer. -/
def State.reasmBytes (s : State) : Nat := sumNat (s.net.reasm.map fun m => m.bytes.length)

/-- A fragment of the message path enters reassembly. -/
def State.fragment (s : State) (f : EthFrame) : State :=
  let h := f.payload.take 32
  let w3 := bytesWord (h.drop 24)
  let body := f.payload.drop 32
  let fresh : NetMsg := {
    src := f.src, dscp := f.dscp, w0 := bytesWord h, w1 := bytesWord (h.drop 8), w2 := bytesWord (h.drop 16)
    id := bits w3 15 0, sinceNs := s.now }
  let m := (s.net.reasm.find? fun x => x.sameKey fresh).getD fresh
  let rest := s.net.reasm.filter fun x => !x.sameKey m
  if s.field Reg.netControl 31 24 * 2 ^ 20 < s.reasmBytes + body.length then s.dropMsg m Code.netReasm
  else
    match addBytes (bits w3 63 32) body m.bytes with
    | none => s.dropMsg m Code.netFormat
    | some bs =>
      let m := { m with bytes := bs, lens := m.lens ++ [f.ipLen] }
      if m.whole then { s with net.reasm := rest, net.ready := s.net.ready ++ [{ m with doneNs := s.now }] }
      else { s with net.reasm := rest ++ [m] }

/-- A frame the edge drops (R533, R534). -/
def State.dropsFrame (s : State) (port : Nat) (f : EthFrame) : Bool :=
  let msg := f.dstPort = s.field Reg.netControl 63 48 ||
    s.net.reasm.any fun m => m.old ≠ [] && m.src.ip = f.src.ip && m.src.port = f.src.port &&
      m.id = bits (bytesWord (f.payload.drop 24)) 15 0 && f.dstPort = bits (m.netReg s Reg.netControl) 63 48
  let paused := bit (s.reg Reg.netControl) 12 && f.prio = s.field Reg.netControl 15 13
  !f.fcsOk || !f.supported || !f.sumOk || !(msg || f.dstPort = 4791) || (msg && f.payload.length < 32) ||
    !(f.dstMac = BitVec.allOnes 48 || f.dstMac = BitVec.ofNat 48 (bits (s.readReg (Reg.netPort port)) 47 0)) ||
    (f.room = .full && !paused)

/-- ETH_FRAME_RX (R532 to R534, R537, R541): PFC pause goes out before the buffer of the paused priority overflows; an ECN-CE
mark on RoCEv2 sends a notification. -/
def execEthFrameRx (port : Fin 2) (frame : EthFrame) (s : State) : Host.Outcome State Fault Refusal :=
  netRx s fun s =>
    let paused := bit (s.reg Reg.netControl) 12 && frame.prio = s.field Reg.netControl 15 13
    let s := s.iff (paused && frame.room ≠ .room) fun s => s.emit (.net port.val (.pfc frame.prio))
    if s.dropsFrame port.val frame then s.bump (Reg.netCnt 1)
    else
      let s := s.bump (Reg.netCnt 0)
      if frame.dstPort = 4791 then s.iff frame.ecnCe fun s => s.roceTo frame.peer .cnp
      else s.fragment frame

/-- REASM_TIMEOUT (R537): the oldest message past REASM_MS of its first fragment is discarded. -/
def execReasmTimeout (s : State) : Host.Outcome State Fault Refusal :=
  netGate s fun s =>
    match s.net.reasm.find? fun m => m.sinceNs + msec (bits (m.netReg s Reg.netControl) 47 32) ≤ s.now with
    | none => s
    | some m => s.dropMsg m Code.netReasm

/-! ### Requests (R536, R538, R539) -/

def NetMsg.textLen (m : NetMsg) : Nat := bits (m.word 8) 63 32
def NetMsg.isCancel (m : NetMsg) : Bool := bits (m.word 0) 31 28 = 2

/-- R538 step 1: header and body; reserved bits are ignored, reserved values of fields are not (R12, R13). -/
def NetMsg.formatOk (m : NetMsg) : Bool :=
  bits m.w0 63 48 = 0x6D73 && bits m.w0 47 40 = 1 && bits m.w0 39 36 = 0 &&
    m.bodyLen = 0x28 + m.textLen && m.bytes.all (fun b => b.1 < m.bodyLen) && m.textLen ≤ 67108864 &&
    bits (m.word 0) 31 28 ≤ 2 && bits (m.word 0) 27 26 ≤ 1 && bits (m.word 0) 19 0 = m.customer &&
    bits (m.word 0x20) 3 2 ≤ 1 && bits (m.word 0x20) 1 0 ≤ 2

/-- The customers an address may name (R539), by exact address; the address stands in network byte order. -/
def State.sourceOk (s : State) (ip : BitVec 128) (customer : Nat) : Bool :=
  let base := 65536 * s.field Reg.netSrc 35 0
  match (List.range (s.field Reg.netSrc 51 36)).find? fun i =>
      bit (s.tabWord (base + 32 * i + 16)) 0 &&
        (s.tabBytes (base + 32 * i) 16).foldl (fun a b => 256 * a + b.toNat) 0 = ip.toNat with
  | none => false
  | some i =>
    let w := s.tabWord (base + 32 * i + 16)
    bits w 43 24 ≤ customer && customer ≤ bits w 63 44

/-- Post the request item of a message (R538 step 6) with its input entries. -/
def State.postMsg (s : State) (m : NetMsg) (entries : List (BitVec 32)) : State :=
  let dl := (m.word 0x10).toNat
  let pr := bits (m.word 0x18) 34 32
  let sel := setBits (setBits (m.word 0x18) 34 32 (if m.yellow then max pr (s.yellowPrio m.customer) else pr)) 31 0 m.clientRef
  let item : Item := {
    w0 := m.w1, w1 := fld 35 32 1 ||| fld 15 0 s.comp.map.epoch.toNat, w2 := m.word 0
    w4 := fld 63 32 entries.length ||| fld 31 0 (bits (m.word 8) 31 0)
    w5 := if dl = 0 then 0 else BitVec.ofNat 64 (m.doneNs + 1000 * dl), w6 := sel }
  { s with fw.posted := s.fw.posted ++ [Posted.mk item (some entries) none (some m.src)] }.bump (Reg.netCnt 3)

/-- REQUEST_MESSAGE (R538 steps 1 to 4): the oldest complete message. -/
def execRequestMessage (s : State) : Host.Outcome State Fault Refusal :=
  netGate s fun s =>
    match s.net.ready with
    | [] => s
    | m :: ms =>
      let s := { s with net.ready := ms }
      if !m.formatOk then s.refuseMsg m Code.netFormat
      else if !s.sourceOk m.src.ip m.customer then (s.bump (Reg.netCnt 5)).refuseMsg m Code.netDenied
      else if m.isCancel then s.postMsg m []
      else if s.polTokens m.customer then { s with net.toText := s.net.toText ++ [m] }
      else
        let b := m.lens.foldl (fun (a : Int) n => a + (n : Nat) + s.polOverhead m.customer) 0
        let r := s.police (m.netReg s) m.customer m.dscp b
        if r.1 = .red then r.2.refuseMsg m Code.meterRed
        else { r.2 with net.toText := r.2.net.toText ++ [{ m with yellow := r.1 = .yellow }] }

/-- The TOKENIZE of R538 step 4 on a message's text: the entries, or the code of its failure. -/
def State.tokenizeMsg (s : State) (m : NetMsg) : Except Nat (List (BitVec 32) × State) :=
  let slot := hSlot m.w1
  let h := s.hdr slot
  let first := h.commitLen = 0
  let t : TextItem := {
    escape := bits (m.word 0x20) 3 2, invalid := bits (m.word 0x20) 1 0, origin := if first then 0 else 2, first := first }
  if s.unitFailed 0 then .error Code.unitFailed
  else if s.homeCode m.w1 ≠ 0 then .error (s.homeCode m.w1)
  else
    if s.vocabLost h.vocab then .error Code.poisoned
    else match s.vocab? h.vocab with
    | none => .error Code.textMode
    | some v =>
      match tokenizeBytes v t (t.escape = 1 || bit (s.reg Reg.txtControl) 9) (h.inBytes ++ m.take 0x28 m.textLen) with
      | .error (c, _) => .error c
      | .ok r =>
        let s := (s.cacheText slot).setHdr slot (h.setInBytes r.carry)
        let s := ((s.bumpBy (Reg.txtCnt 0) r.toks.length).bumpBy (Reg.txtCnt 1) m.textLen).bumpBy (Reg.txtCnt 3) r.replaced
        .ok (r.toks.map fun k => mkEntry k t.origin false false, s.bumpBy (Reg.txtCnt 4) r.fallback)

/-- REQUEST_TOKENIZED (R538 steps 5 and 6): the oldest message at the text unit. -/
def execRequestTokenized (s : State) : Host.Outcome State Fault Refusal :=
  netGate s fun s =>
    match s.net.toText with
    | [] => s
    | m :: ms =>
      let s := { s with net.toText := ms }
      match s.tokenizeMsg m with
      | .error c => (s.iff (c = Code.textControl) fun s => s.bump (Reg.txtCnt 6)).refuseMsg m c
      | .ok (es, s) =>
        if !s.polTokens m.customer then s.postMsg m es
        else
          let b : Int := ((es.length + bits (m.word 0) 63 32 : Nat) : Int) + s.polOverhead m.customer
          let r := s.police (m.netReg s) m.customer m.dscp b
          if r.1 = .red then r.2.refuseMsg m Code.meterRed
          else r.2.postMsg { m with yellow := r.1 = .yellow } es

/-! ### Responses (R540, R551, R552) -/

/-- IP header bytes of a response to an address: IPv4 for a mapped address, else IPv6. -/
def ipHeader (ip : BitVec 128) : Nat := if ip.toNat / 2 ^ 32 = 0xFFFF then 20 else 40

/-- The body of a response (R540). -/
def responseBody (r : NetResp) : List Byte :=
  leBytes (fld 63 48 r.status ||| fld 37 37 (bnat r.late) ||| fld 31 31 (bnat r.final) ||| fld 30 30 (bnat r.unverified) |||
    fld 23 0 r.out.length).toNat 8 ++ r.out

/-- The fragments of a response, at most 9,088 body bytes to a frame. -/
def responseFrags (now id : Nat) (r : NetResp) : List ShapedFrag :=
  let body := responseBody r
  (List.range (ceilDiv body.length 9088)).map fun i =>
    let part := (body.drop (9088 * i)).take 9088
    let hdr := leBytes (fld 63 48 0x6D73 ||| fld 47 40 1 ||| fld 39 36 1 ||| fld 31 0 body.length).toNat 8 ++
      leBytes r.session.toNat 8 ++ leBytes (fld 63 32 r.clientRef ||| fld 19 0 r.customer).toNat 8 ++
      leBytes (fld 63 32 (9088 * i) ||| fld 15 0 id).toNat 8
    { customer := r.customer, dest := r.net, bytes := hdr ++ part, ipLen := ipHeader r.net.ip + 8 + 32 + part.length
      tokens := if i = 0 then r.tokens else 0, sinceNs := now }

/-- Bytes of responses in the egress buffer. -/
def State.egressBytes (s : State) : Nat := sumNat (s.net.shaper.map fun f => f.bytes.length)

def State.waitsFor (s : State) (customer : Nat) : Bool := s.net.shaper.any fun f => f.customer = customer

/-- RESPONSE_ITEM (R540, R552): the next response of the transmit queue enters the shaper unless the egress buffer is full. -/
def execResponseItem (s : State) : Host.Outcome State Fault Refusal :=
  netGate s fun s =>
    match s.fw.responses with
    | [] => s
    | r :: rs =>
      if s.field Reg.netControl 23 16 * 2 ^ 20 ≤ s.egressBytes then
        if s.net.stopped then s else { s with net.stopped := true }.bump (Reg.mtrCnt 5)
      else
        let s := s.growCredit r.customer (s.waitsFor r.customer)
        { s with
          fw.responses := rs
          net.shaper := s.net.shaper ++ responseFrags s.now s.net.nextMsg r
          net.nextMsg := (s.net.nextMsg + 1) % 65536
          net.stopped := false }

/-- Customers with a response waiting, in round-robin order after the customer last served. -/
def State.shaperOrder (s : State) : List Nat :=
  let l := ascending (s.net.shaper.map fun f => f.customer)
  (l.filter fun c => s.net.lastCust < c) ++ l.filter fun c => c ≤ s.net.lastCust

/-- The customer's first fragment may go now (R551). -/
def State.permits (s : State) (customer : Nat) : Bool :=
  s.shRate customer = 0 || 0 ≤ (s.growCredit customer true).credit customer

/-- SHAPER_RELEASE (R551): the next customer whose credit permits it sends one fragment. -/
def execShaperRelease (s : State) : Host.Outcome State Fault Refusal :=
  netGate s fun s =>
    match s.sendPort, s.shaperOrder.find? s.permits with
    | some _, some c =>
      match s.net.shaper.find? fun f => f.customer = c with
      | none => s
      | some f =>
        let r := s.meterRec c
        let extra : Int := sext 8 (bits r.w0 46 39)
        let size : Int := if !bit r.w0 59 then (f.ipLen : Nat) + extra
          else if bits (bytesWord (f.bytes.drop 24)) 63 32 = 0 then (f.tokens : Nat) + extra else 0
        let s := if s.shRate c = 0 then s else (s.growCredit c true).chargeShaper c size
        let s := if s.now ≤ f.sinceNs then s
          else (s.bump (Reg.mtrCnt 3)).bumpBy (Reg.mtrCnt 4) (s.now - f.sinceNs)
        { s with net.shaper := s.net.shaper.erase f, net.lastCust := c }.netSend (.response f.dest f.bytes)
    | _, _ => s

end Sys2Proof.Machine
end

