-- ==== Sys2Proof/Machine/Transfer.lean ====
section
/-! DEFINITION. Session transfer between nodes over RoCEv2: queue pairs, the giver's stream and the taker's installation (R541 to
R546). -/

namespace Sys2Proof.Machine

open Sys2Proof

/-! ### Queue pairs (R541) -/

/-- Line rate of a port in bytes per second. -/
def lineRate : Nat := 100000000000

def State.qpair (s : State) (peer : Nat) : QueuePair := SMap.get {} s.net.qps peer
def State.setQpair (s : State) (peer : Nat) (q : QueuePair) : State := { s with net.qps := SMap.put s.net.qps peer q }

/-- The peer table's entry has an address (R542). -/
def State.peerKnown (s : State) (peer : Nat) : Bool :=
  peer < 1024 && (s.peerEntry peer).take 2 ≠ [0, 0]

def sendMsgs (peer : Nat) (ms : List RoceMsg) (s : State) : State := ms.foldl (fun s m => s.roceTo peer m) s

/-- Send messages of a transfer; they stay unacknowledged. -/
def State.roceSend (s : State) (peer id : Nat) (ms : List RoceMsg) : State :=
  let q := s.qpair peer
  sendMsgs peer ms (s.setQpair peer { q with unacked := q.unacked ++ ms.map fun m => (id, m), sentNs := s.now })

/-- Go back to the oldest unacknowledged message. -/
def State.goBack (s : State) (peer : Nat) : State :=
  let q := s.qpair peer
  sendMsgs peer (q.unacked.map (·.2)) (s.setQpair peer { q with retries := q.retries + 1, sentNs := s.now })

/-- The pages of a page list that firmware built go back once its transfer has completed. -/
def State.freeList (s : State) (page : Nat) : State :=
  match s.net.lists.find? fun x => x.1 = page with
  | none => s
  | some x =>
    (pageRun x.1 x.2).foldl (fun s p =>
      let l := s.leaf p
      if l.v then (s.unmap p).shoot p (.freed l.tier l.loc) else s) { s with net.lists := s.net.lists.erase x }

/-- The completion of a transfer item (R468, R544): STATUS and the pages sent. -/
def State.xferDone (s : State) (it : Item) (code : Nat) : State :=
  (s.freeList (it.w4.toNat / 65536)).post (bits it.w6 40 32)
    { w0 := it.w0, w1 := tagLast it.w1, w2 := fld 63 48 code ||| fld 31 0 (if code = 0 then bits it.w3 63 32 else 0)
      w5 := fld 63 32 noIndex }
    (bits it.w6 11 0)

/-- Transfers none of whose messages is unacknowledged complete; those in `bad` fail. -/
def finishXfers (peer : Nat) (bad : Bool) : List XferOut → State → State
  | [], s => s
  | x :: xs, s =>
    let s :=
      if x.peer ≠ peer then s
      else if bad then { s with net.outs := s.net.outs.erase x }.xferDone x.item Code.xferPeer
      else if (s.qpair peer).unacked.any (fun u => u.1 = x.id) then s
      else { s with net.outs := s.net.outs.erase x }.xferDone x.item 0
    finishXfers peer bad xs s

/-- Every transfer to a peer fails with XFER_PEER (R544). -/
def State.failPeer (s : State) (peer : Nat) : State :=
  finishXfers peer true s.net.outs (s.setQpair peer { s.qpair peer with unacked := [], retries := 0 })

/-- ROCE_ACK_RX (R541, R544): the next `count` messages are acknowledged; a sequence NAK goes back, an access NAK fails. -/
def execRoceAckRx (peer count : Nat) (nak : RoceNak) (s : State) : Host.Outcome State Fault Refusal :=
  netRx s fun s =>
    let q := s.qpair peer
    let s := if count = 0 || q.unacked.isEmpty then s
      else s.setQpair peer { q with unacked := q.unacked.drop count, retries := 0, sentNs := s.now }
    let s := finishXfers peer false s.net.outs s
    match nak with
    | .ok => s
    | .sequence => if (s.qpair peer).unacked.isEmpty then s else s.goBack peer
    | .access => s.failPeer peer

/-- ROCE_ACK_TIMEOUT (R541, R544): go-back-N, and failure after seven retries. -/
def execRoceAckTimeout (peer : Nat) (s : State) : Host.Outcome State Fault Refusal :=
  netGate s fun s =>
    let q := s.qpair peer
    if q.unacked.isEmpty || s.now < q.sentNs + usec (s.field Reg.netRoce 63 48) then s
    else if 7 ≤ q.retries then s.failPeer peer
    else s.goBack peer

/-- CNP_RX (R541): the rate halves, at most once every 50 µs. -/
def execCnpRx (peer : Nat) (s : State) : Host.Outcome State Fault Refusal :=
  netRx s fun s =>
    let s := s.bump (Reg.netCnt 7)
    let q := s.qpair peer
    let may := match q.halvedNs with
      | none => true
      | some t => t + 50000 ≤ s.now
    s.setQpair peer (if may then { q with rate := q.rate / 2, halvedNs := some s.now, cnpNs := s.now } else { q with cnpNs := s.now })

/-- ROCE_RATE_RAISE (R541): 1 GB/s after every 55 µs without a notification, up to line rate. -/
def execRoceRateRaise (peer : Nat) (s : State) : Host.Outcome State Fault Refusal :=
  netGate s fun s =>
    let q := s.qpair peer
    if lineRate ≤ q.rate || s.now < max q.cnpNs q.raisedNs + 55000 then s
    else s.setQpair peer { q with rate := min lineRate (q.rate + 1000000000), raisedNs := s.now }

/-! ### The giver (R543, R544) -/

/-- The giver's translation cache: the engines of X0. -/
def netCache : Nat := 4

/-- The writes of a page list, in stream order from index i: stream page 0 is a header of 4,096 bytes (R544). -/
def streamPages : Nat → List Nat → State → Except Nat (List RoceMsg) × State
  | _, [], s => (.ok [], s)
  | i, a :: as, s =>
    match s.getBytes netCache a (if i = 0 then 4096 else 65536) with
    | (.error c, s) => (.error c, s)
    | (.ok bs, s) =>
      match streamPages (i + 1) as s with
      | (.ok ms, s) => (.ok (.page i (crc32c bs) bs :: ms), s)
      | r => r

/-- The SEND that begins a transfer (R544). -/
def State.helloOf (s : State) (slot : Nat) (it : Item) : XferHello :=
  let h := s.hdr slot
  let m := (s.dir slot).model
  { origin := h.origin, giver := h.handle, target := it.w5, custody := h.custody, pages := bits it.w3 63 32
    spans := h.spans, commitLen := h.commitLen, model := m, geometry := s.reg (Reg.kvsGeometry m)
    modules := s.comp.map.modules }

/-- TRANSFER_ITEM (R543, R544): stream page 0 is the session's own 4 KiB header, the others come from the page list. -/
def execTransferItem (item : Item) (s : State) : Host.Outcome State Fault Refusal :=
  gate s fun s =>
    (s.begin_ 8 item).byMap item.w1 fun s =>
    let slot := hSlot item.w0
    let peer := bits item.w2 63 54
    let n := bits item.w3 63 32
    let code := s.handleCode item.w0
    if s.unitFailed 1 then s.xferDone item Code.unitFailed
    else if code ≠ 0 then (s.noteStale code).xferDone item code
    else if !s.peerKnown peer then s.xferDone item Code.xferPeer
    else
      match s.getBytes netCache item.w4.toNat (8 * n) with
      | (.error c, s) => s.xferDone item c
      | (.ok bs, s) =>
        let list := (List.range n).map fun i => (bytesWord (bs.drop (8 * i))).toNat
        match streamPages 0 list s with
        | (.error c, s) => s.xferDone item c
        | (.ok ms, s) =>
          let id := s.net.nextXfer
          let s := { s with net.outs := s.net.outs ++ [XferOut.mk id peer item], net.nextXfer := id + 1 }
          (s.roceSend peer id (.hello (s.helloOf slot item) :: ms)).bumpBy (Reg.netCnt 6) n

/-- The shard transfers of step 4 (R546): the module at each ring position sends its shard to the taker's module of the same position,
whose number stands as far from the taker's home's as its position from this module's (log entry 96). -/
def State.startShards (s : State) (slot : Nat) (handle : Word) : State :=
  let h := (s.hdr slot).handle
  s.peers.foldl (fun s m =>
    let k := ((List.range s.comp.map.modules).find? fun k => s.comp.map.peers.getD k 0 = m).getD 0
    s.send m 7 (.share h (.transfer ((hModule handle + k - s.comp.map.ringPos) % 1024) handle))) s

/-- RESERVE_ANSWER (R546 step 4): the taker's handle is noted and every shard module of this node is told to send its shard. -/
def execReserveAnswer (peer : Nat) (origin handle : Word) (s : State) : Host.Outcome State Fault Refusal :=
  netGate s fun s =>
    match s.slotOfOrigin origin with
    | none => s
    | some slot =>
      if (s.dir slot).state ≠ .giving then s
      else
        let s := { s with net.answers := SMap.put s.net.answers slot handle }
        (s.roceTo peer (.ack 1)).startShards slot handle

/-! ### The taker (R545, R546) -/

/-- A taking fails: the slot returns to FREE and the failure is recorded (R545). -/
def State.failTake (s : State) (peer slot code : Nat) : State :=
  let h := s.hdr slot
  ({ s.dropTake slot with net.ins := SMap.erase s.net.ins peer }).event code 0 4 1 0 h.handle h.origin

/-- A transfer refused before it has a slot (R545). -/
def State.refuseXfer (s : State) (h : XferHello) (code : Nat) : State := s.event code 0 4 1 0 h.giver h.origin

/-- Pages of the installed hamper for a stream, in the taker's own places (R151, R545). -/
def State.installTake (s : State) (slot : Nat) (h : XferHello) (kind : HKind) (r : PoolRec) : Option State :=
  s.install slot h.model (256 * h.spans) r.tclass r.customer 0 kind .taking (if kind = .home then s.newHandle slot else h.target)
    h.origin

/-- The record of an ORIGIN in the pool directory, or CUSTODY_DIR where it cannot be found (R125, R126). -/
def State.recOf (s : State) (origin : Word) : Except Nat Nat :=
  if s.dirCode ≠ 0 then .error s.dirCode
  else
    match s.findRec origin with
    | .found k => .ok k
    | .empty k => .ok k
    | .full => .error Code.custodyDir

/-- Geometry and module count agree (R545). -/
def State.sameGeometry (s : State) (h : XferHello) : Bool :=
  h.geometry = s.reg (Reg.kvsGeometry h.model) && h.modules = s.comp.map.modules

/-- TRANSFER_SEND_RX (R545, R546): a home transfer reserves the lowest FREE slot on every module and is answered; a shard
transfer goes to the slot its TARGET names. -/
def execTransferSendRx (peer : Nat) (hello : XferHello) (seen : Option PoolRec) (s : State) :
    Host.Outcome State Fault Refusal :=
  netRx s fun s =>
    let s := (s.roceTo peer (.ack 1)).seeOrigin hello.origin seen
    match s.recOf hello.origin with
    | .error c => s.refuseXfer hello c
    | .ok k =>
    if !s.sameGeometry hello then s.refuseXfer hello Code.xferGeometry
    else if hello.target = 0 then
      match s.freeSlot with
      | none => s.refuseXfer hello Code.dirFull
      | some slot =>
        match s.installTake slot hello .home (s.rec_ k) with
        | none => s.refuseXfer hello Code.destFull
        | some s =>
          let h := (s.hdr slot).handle
          let t : Take := {
            key := k, n := hello.custody, giver := .module peer, current := hello.giver, sinceNs := s.now
            waiting := s.self :: s.peers, peer := peer }
          let s := { s with
            hmp.takes := SMap.put s.hmp.takes slot t
            net.ins := SMap.put s.net.ins peer (XferIn.mk slot hello 0) }
          (s.sendAll 7 (.words 11 [h, hello.origin])).roceTo peer (.answer hello.origin h)
    else
      let slot := hSlot hello.target
      let e := s.dir slot
      if !(e.state = .taking && e.kind = .shard && e.gen = hGen hello.target) then s.refuseXfer hello Code.xferGeometry
      else
        match s.installTake slot hello .shard (s.rec_ k) with
        | none => s.failTake peer slot Code.destFull
        | some s => { s with net.ins := SMap.put s.net.ins peer (XferIn.mk slot hello 0) }

/-- RESERVE_ITEM (R546 step 2): the slot is marked TAKING as a shard. -/
def execReserveItem (handle origin : Word) (s : State) : Host.Outcome State Fault Refusal :=
  gate s fun s =>
    let slot := hSlot handle
    if (s.dir slot).state ≠ .free then s
    else
      let s := s.setDir slot { gen := hGen handle, state := .taking, kind := .shard, lastNs := s.now }
      let s := s.setHdr slot { handle := handle, origin := origin }
      { s with hmp.takes := SMap.put s.hmp.takes slot { current := handle, sinceNs := s.now, waiting := [s.self] } }

/-! Stream pages at the taker -/

/-- Words of a page's bytes. -/
def pageWords (bs : List Byte) : List Word := (List.range (bs.length / 8)).map fun i => bytesWord (bs.drop (8 * i))

/-- RES of a span entry in the stream: a span present at the giver arrives in DRAM (R545). -/
def takeRes : Res → Res
  | .parked => .resident
  | r => r

/-- The header of stream page 0 in the taker's own slot: the fields that name the taker's places stay (R545). -/
def State.takeHeader (s : State) (slot : Nat) (w : List Word) : State :=
  let h := s.hdr slot
  let g := fun i => w.getD i 0
  let st := g 64
  let depth := bits st 10 0
  let stack := (List.range depth).map fun i => BitVec.ofNat 64 (bits (g (65 + i / 4)) (16 * (i % 4) + 15) (16 * (i % 4)))
  let h := { h with
    specLen := bits (g 2) 31 0, commitLen := bits (g 2) 31 0, vocab := bits (g 3) 23 20, customer := bits (g 3) 19 0
    spanGen := BitVec.ofNat 32 (bits (g 6) 31 0), revives := bits (g 10) 63 32, likelihood := bits (g 10) 7 0
    snapEpoch := BitVec.ofNat 16 (bits (g 12) 15 0), adapter := (w.drop 13).take 4, carry := (w.drop 17).take 8
    sampler := (w.drop 25).take 8, grammar := if st = 0 then [] else st :: stack }
  (s.setHdr slot h).setDir slot { s.dir slot with customer := h.customer }

/-- Span entries of a table page (R156): BASE is the taker's, SHARED and SHARERS are 0 (R545). -/
def takeSpans (slot : Nat) (n : Nat) : List Word → State → State
  | a :: b :: ws, s =>
    let s :=
      if (s.hdr slot).spans ≤ n then s
      else s.setSpan slot n
        { spanOfWords a b with
          base := s.kvPage slot + s.pps (s.dir slot).model * n, res := takeRes (spanOfWords a b).res, sharers := 0
          inSnap := false, recomp := false, shared := false }
    takeSpans slot (n + 1) ws s
  | _, s => s

/-- Side records of a side-array page from record k (R152); statistics pages do not travel. -/
def takeSides (slot blocks : Nat) (k : Nat) : List Word → State → State
  | a :: b :: c :: d :: e :: f :: _ :: _ :: ws, s =>
    let s :=
      if blocks = 0 || (s.hdr slot).spans ≤ k / blocks then s
      else s.setSide slot (k / blocks) (k % blocks) { sideOfWords [a, b, c, d, e, f] with stats := 0 }
    takeSides slot blocks (k + 1) ws s
  | _, s => s

/-- Spans that travel, in span order (R543). -/
def State.sentSpans (s : State) (slot : Nat) : List Nat :=
  (List.range (s.hdr slot).spans).filter fun n => (s.span slot n).res = .resident

/-- The page of the k-th KV page of the stream. -/
def State.kvStreamPage (s : State) (slot k : Nat) : Option Nat :=
  let pps := s.pps (s.dir slot).model
  if pps = 0 then none else (s.sentSpans slot)[k / pps]?.map fun n => (s.span slot n).base + k % pps

/-- Install stream page i: the state, or the code that fails the taking. -/
def State.takePage (s : State) (slot i : Nat) (bs : List Byte) : Except Nat State :=
  let h := s.hdr slot
  let b := s.blocks (s.dir slot).model
  let tp := tablePages h.spans
  let sp := sidePages h.spans b
  let lp := if (s.dir slot).kind = .home then logPages h.maxTokens else 0
  if i = 0 then .ok (s.takeHeader slot (pageWords bs))
  else if i ≤ tp then .ok (takeSpans slot (4096 * (i - 1)) (pageWords bs) s)
  else if i ≤ tp + sp then .ok (takeSides slot b (1024 * (i - 1 - tp)) (pageWords bs) s)
  else if i ≤ tp + sp + lp then
    let first := 16384 * (i - 1 - tp - sp)
    .ok (s.writeLog slot first ((words32 bs).take (h.maxTokens - first)))
  else
    match s.kvStreamPage slot (i - 1 - tp - sp - lp) with
    | none => .error Code.xferGeometry
    | some p =>
      match s.mapPage p .dram 0 true (s.dir slot).tclass with
      | none => .error Code.destFull
      | some s => .ok (s.writeBytes (s.physOf (65536 * p)) bs)

/-- A module's own stream has been installed: the home counts it, a shard tells the home. -/
def State.ownShare (s : State) (slot : Nat) : State :=
  match SMap.lookup s.hmp.takes slot with
  | none => s
  | some t =>
    let s := { s with hmp.takes := SMap.put s.hmp.takes slot { t with waiting := t.waiting.filter fun m => m ≠ s.self } }
    if (s.dir slot).kind = .home then s
    else s.send (hModule (s.hdr slot).handle) 7 (.words 13 [(s.hdr slot).handle])

/-- RDMA_WRITE_RX (R545): pages come in order; a page out of order is answered by a sequence NAK. -/
def execRdmaWriteRx (peer index : Nat) (data : List Byte) (imm : BitVec 32) (s : State) : Host.Outcome State Fault Refusal :=
  netRx s fun s =>
    match SMap.lookup s.net.ins peer with
    | none => s
    | some x =>
      if index ≠ x.next || data.length ≠ (if index = 0 then 4096 else 65536) then s.roceTo peer .nak
      else
        let s := s.roceTo peer (.ack 1)
        if crc32c data ≠ imm then s.failTake peer x.slot Code.xferCrc
        else
          match s.takePage x.slot index data with
          | .error c => s.failTake peer x.slot c
          | .ok s =>
            let s := s.bump (Reg.netCnt 6)
            if index + 1 < x.hello.pages then
              { s with net.ins := SMap.put s.net.ins peer { x with next := index + 1 } }
            else { s with net.ins := SMap.erase s.net.ins peer }.ownShare x.slot

/-- RESERVATION_TIMEOUT (R546): TIMEOUT_MS after the reservation the slot returns to FREE unless every transfer has arrived;
a shard module whose own transfer has arrived goes by its home's word. -/
def execReservationTimeout (slot : Nat) (homeDropped : Bool) (s : State) : Host.Outcome State Fault Refusal :=
  gate s fun s =>
    match SMap.lookup s.hmp.takes slot with
    | none => s
    | some t =>
      if s.now < t.sinceNs + s.custodyTimeout || (s.dir slot).state ≠ .taking then s
      else if t.waiting.isEmpty && !((s.dir slot).kind = .shard && homeDropped) then s
      else { s.dropTake slot with net.ins := s.net.ins.filter fun x => x.2.slot ≠ slot }

end Sys2Proof.Machine
end

