-- ==== Sys2Proof/Machine/Search.lean ====
section
/-! DEFINITION. The search and embedding unit: items, indexes, searches, publishes and span ranking (R465 to R486). -/

namespace Sys2Proof.Machine

open Sys2Proof

/-! ### Items (R466 to R468) -/

/-- The unit's reader code, translation cache and bit of FLT.UNITS. -/
def seuReader : Nat := 10
def seuCache : Nat := 6

def seuGate (s : State) (f : State → State) : Host.Outcome State Fault Refusal :=
  gate s fun s => if s.unitFailed 6 then s else f s

def seuOp (i : Item) : Nat := bits i.w2 63 60
def seuReserved (i : Item) : Bool := 6 ≤ seuOp i

/-- Post a completion item (R468). -/
def State.seuDone (s : State) (i : Item) (code out short widened : Nat) (oldBase : Word) (err : Nat) : State :=
  let s := s.noteReport code i.w0 (BitVec.ofNat 64 err)
  ({ s with seu.bound := s.seu.bound.filter fun x => x.1 ≠ i }.begin_ seuReader i).post (bits i.w6 40 32)
    { w0 := i.w0, w1 := tagLast i.w1, w2 := fld 63 48 code ||| fld 31 0 out, w3 := fld 63 32 short ||| fld 31 0 widened
      w4 := oldBase, w5 := fld 63 32 err }
    (bits i.w6 11 0)

def State.seuFail (s : State) (i : Item) (code err : Nat) : State := s.seuDone i code 0 0 0 0 err

/-- An item of one operation: answered UNIT_FAILED while the unit is failed (R690), refused for reserved values or its handle, or for
addresses in the snapshot namespace, which the unit's walker never translates (R54, log entry 93); else run. -/
def seuItem (op : Nat) (i : Item) (s : State) (run : State → State) : Host.Outcome State Fault Refusal :=
  gate s fun s =>
    let code := if i.w0 = 0 then 0 else s.handleCode i.w0
    if s.unitFailed 6 then (if seuOp i = op || seuReserved i then s.seuFail i Code.unitFailed noIndex else s)
    else if seuReserved i then s.seuFail i Code.invalidField noIndex
    else if seuOp i ≠ op then s
    else if code ≠ 0 then (s.noteStale code).seuFail i code noIndex
    else if tagSnap i.w1 then s.seuFail i Code.noncanon noIndex
    else s.underCfg i fun s => s.byMap i.w1 run

/-! ### Reading and writing state memory

An item's reads are listed first and made through the unit's walker, which counts them and finds the first fault; the values
then come from the homes. -/

/-- Make the reads of a list of ranges in order: the first fault, with the index it belongs to. -/
def readAll : List (Nat × Nat × Nat) → State → Option (Nat × Nat) × State
  | [], s => (none, s)
  | (addr, n, err) :: rs, s =>
    match s.getBytes seuCache addr n with
    | (.error c, s) => (some (c, err), s)
    | (.ok _, s) => readAll rs s

/-- Take write permission of every page of a list of writes: a page that waits for its snapshot copy or has a fault ends it
before anything is written. -/
def claimWrites : List (Nat × Nat × Nat) → State → Moved
  | [], s => .done s
  | (a, _, _) :: ps, s =>
    match s.translate seuCache a true true with
    | (.fault c, s) => .fault c s
    | (.stall, s) => .wait s
    | (.home _ _, s) => claimWrites ps s

/-- Write every range, or none. -/
def State.seuWrite (s : State) (ws : List (Nat × List Byte)) : Moved :=
  match claimWrites (ws.flatMap fun w => if w.2.isEmpty then [] else pagePieces w.1 w.2.length) s with
  | .done s => .done (ws.foldl (fun s w => match s.putBytes seuCache w.1 w.2 with
      | .done s => s
      | .wait s => s
      | .fault _ s => s) s)
  | r => r

def State.peek32 (s : State) (addr : Nat) : F32 := BitVec.ofNat 32 (leWord (s.tabBytes addr 4))
def State.peekRow (s : State) (addr n : Nat) : List F32 := words32 (s.tabBytes addr (4 * n))
/-- Round up to a multiple of 128. -/
def up128 (n : Nat) : Nat := ceilDiv n 128 * 128

/-! ### Indexes (R469 to R473) -/

/-- A directory entry. -/
structure Index where
  dim : Nat
  lists : Nat
  l2 : Bool
  valid : Bool
  maxDeg : Nat
  listDir : Nat
  graph : Nat
  params : Nat
  centroids : Nat
  entry : Nat
  deriving DecidableEq, Repr

def State.index (s : State) (slot : Nat) : Index :=
  let a := 65536 * s.field Reg.seuIndexDir 35 0 + 64 * slot
  let w := s.tabWord a
  { dim := bits w 63 51, lists := bits w 50 34, l2 := bits w 33 32 = 1, valid := bit w 31, maxDeg := bits w 30 25
    listDir := (s.tabWord (a + 8)).toNat, graph := (s.tabWord (a + 16)).toNat, params := (s.tabWord (a + 24)).toNat
    centroids := (s.tabWord (a + 32)).toNat, entry := bits (s.tabWord (a + 40)) 63 32 }

/-- min_j and step_j. -/
def State.minAt (s : State) (x : Index) (j : Nat) : F32 := s.peek32 (x.params + 4 * j)
def State.stepAt (s : State) (x : Index) (j : Nat) : F32 := s.peek32 (x.params + 4 * (x.dim + j))
/-- A code as FP32 (R470), and the integer it stands on as FP32. -/
def codeF32 (c : Nat) : F32 := f32Of (.fin false (c * 2 ^ 300))
def State.decodeAt (s : State) (x : Index) (j c : Nat) : F32 := f32Fma (s.stepAt x j) (codeF32 c) (s.minAt x j)

/-- List directory entry (R472): BASE, COUNT, VERSION. -/
def State.listBase (s : State) (x : Index) (l : Nat) : Nat := (s.tabWord (x.listDir + 16 * l)).toNat
def State.listCount (s : State) (x : Index) (l : Nat) : Nat := bits (s.tabWord (x.listDir + 16 * l + 8)) 63 32
def State.listVersion (s : State) (x : Index) (l : Nat) : BitVec 32 :=
  BitVec.ofNat 32 (bits (s.tabWord (x.listDir + 16 * l + 8)) 31 0)

/-- Starts of the four arrays of a body of n vectors. -/
def arrayA (dim n : Nat) : Nat := up128 (n * dim / 8)
def arrayB (n : Nat) : Nat := up128 (8 * n)
/-- Bytes of a body a search reads: codes only to gather them. -/
def bodyBytes (dim n : Nat) (codes : Bool) : Nat := arrayA dim n + 2 * arrayB n + (if codes then n * dim else 0)
def State.attrOf (s : State) (x : Index) (base n i : Nat) : Word := s.tabWord (base + arrayA x.dim n + 8 * i)
def State.idOf (s : State) (x : Index) (base n i : Nat) : Word := s.tabWord (base + arrayA x.dim n + arrayB n + 8 * i)
def State.codesOf (s : State) (x : Index) (base n i : Nat) : List Byte :=
  s.tabBytes (base + arrayA x.dim n + 2 * arrayB n + i * x.dim) x.dim
def deletedId : Word := BitVec.allOnes 64

/-- Node of the graph (R473). -/
def State.tomb (s : State) (x : Index) (l : Nat) : Bool := bit (s.tabWord (x.graph + 256 * l)) 63
def State.nbrs (s : State) (x : Index) (l : Nat) : List Nat :=
  (List.range (bits (s.tabWord (x.graph + 256 * l)) 37 32)).map fun i => (s.peek32 (x.graph + 256 * l + 8 + 4 * i)).toNat

/-! ### Queries (R471, R476) -/

/-- A query's sketch. -/
def State.querySketchOf (s : State) (x : Index) (q : List F32) : List Bool :=
  (List.range x.dim).map fun j =>
    let z := if x.l2 then f32Fma (s.stepAt x j) (codeF32 128) (s.minAt x j) else 0
    let v := q.getD j 0
    v.val ≠ .nan && z.val ≠ .nan && !(v.val.lt z.val)

/-- dist(q, L). -/
def State.listDist (s : State) (x : Index) (q : List F32) (l : Nat) : F32 :=
  let terms := (List.range x.dim).map fun j =>
    let c := s.decodeAt x j (s.tabBytes (x.centroids + l * x.dim + j) 1 |>.headD 0).toNat
    if x.l2 then
      let d := f32Sub (q.getD j 0) c
      f32Mul d d
    else f32Mul (q.getD j 0) c
  let sum := match terms with
    | [] => 0
    | t :: ts => ts.foldl f32Add t
  if x.l2 then sum else f32Neg sum

/-- A list and its distance. -/
abbrev Near := Nat × F32

/-- Strictly less, and the order of two nodes, by which every comparison of the walk goes: at equal distance the lower-numbered is
nearer (R476, log entry 103). -/
def distLt (a b : F32) : Bool := if a.val = .nan || b.val = .nan then Config.nanNearer a b else a.val.lt b.val
def nearer (a b : Near) : Bool := distLt a.2 b.2 || (!distLt b.2 a.2 && a.1 < b.1)
def insertNear (a : Near) : List Near → List Near
  | [] => [a]
  | b :: l => if nearer a b then a :: b :: l else b :: insertNear a l

/-- State of a walk: visited lists, W and F in order of distance. -/
structure WalkSt where
  v : List Nat := []
  w : List Near := []
  f : List Near := []

/-- Offer the neighbours of a node in stored order. -/
def State.offerNbrs (s : State) (x : Index) (q : List F32) (ef : Nat) : List Nat → WalkSt → WalkSt
  | [], k => k
  | n :: ns, k =>
    let k' :=
      if k.v.contains n then k
      else
        let d := s.listDist x q n
        let k := { k with v := k.v ++ [n] }
        if k.w.length < ef || k.w.getLast?.any (nearer (n, d)) then
          let w := insertNear (n, d) k.w
          { k with w := if ef < w.length then w.dropLast else w, f := insertNear (n, d) k.f }
        else k
    s.offerNbrs x q ef ns k'

def State.walkLoop (s : State) (x : Index) (q : List F32) (ef : Nat) : Nat → WalkSt → WalkSt
  | 0, k => k
  | fuel + 1, k =>
    match k.f with
    | [] => k
    | u :: f =>
      if k.w.length = ef && k.w.getLast?.any (fun x => nearer x u) then k
      else s.walkLoop x q ef fuel (s.offerNbrs x q ef (s.nbrs x u.1) { k with f := f })

/-- walk(q, n, ef): the lists returned and the lists visited. -/
def State.graphWalk (s : State) (x : Index) (q : List F32) (n ef : Nat) : List Nat × List Nat :=
  let e : Near := (x.entry, s.listDist x q x.entry)
  let k := s.walkLoop x q ef (x.lists + 1) { v := [x.entry], w := [e], f := [e] }
  (((k.w.filter fun u => !s.tomb x u.1).take n).map (·.1), k.v)

/-! ### Filters (R478) -/

/-- A term as its two words; reserved values refuse the item. -/
def termOk (t : Word × Word) : Bool :=
  bits t.1 63 58 + bits t.1 57 52 + 1 ≤ 64 && bits t.1 51 49 ≠ 7

def termTrue (t : Word × Word) (attr : Word) : Bool :=
  let m := 2 ^ (bits t.1 57 52 + 1)
  let f := attr.toNat / 2 ^ bits t.1 63 58 % m
  let v := t.2.toNat % m
  match bits t.1 51 49 with
  | 0 => f = v
  | 1 => f ≠ v
  | 2 => f < v
  | 3 => v ≤ f
  | 4 => (f &&& v) ≠ 0
  | 5 => (f &&& v) = v
  | 6 => (f &&& v) = 0
  | _ => false

/-- Every group of terms joined by OR_NEXT holds a true term; `any` says that the present group already does. -/
def passes (attr : Word) : Bool → List (Word × Word) → Bool
  | _, [] => true
  | any, t :: ts =>
    let now := any || termTrue t attr
    if bit t.1 48 then passes attr now ts else now && passes attr false ts

/-! ### Scans (R477, R479) -/

/-- A candidate: Hamming distance, list, slot. -/
abbrev SeuCand := Nat × Nat × Nat
def candBefore (a b : SeuCand) : Bool :=
  a.1 < b.1 || (a.1 = b.1 && (a.2.1 < b.2.1 || (a.2.1 = b.2.1 && a.2.2 < b.2.2)))
def insertSeu (a : SeuCand) : List SeuCand → List SeuCand
  | [] => [a]
  | b :: l => if candBefore a b then a :: b :: l else b :: insertSeu a l

/-- A query as a search goes on. -/
structure Query where
  row : List F32 := []
  sketch : List Bool := []
  lists : List Nat := []
  cands : List SeuCand := []
  scanned : Nat := 0
  passed : Nat := 0
  widened : Bool := false
  active : Bool := true
  /-- Lists its walks have visited. -/
  seen : List Nat := []

/-- Hamming distance of a query sketch and a stored one. -/
def sketchDist (q : List Bool) (bs : List Byte) : Nat :=
  sumNat ((List.range q.length).map fun j =>
    bnat (q.getD j false != ((bs.getD (j / 8) 0).toNat / 2 ^ (j % 8) % 2 = 1)))

/-- Scan one list for one query, keeping the e least candidates. -/
def State.scanList (s : State) (x : Index) (terms : List (Word × Word)) (e l : Nat) (q : Query) : Query :=
  let base := s.listBase x l
  let n := s.listCount x l
  (List.range n).foldl (fun (q : Query) i =>
    if s.idOf x base n i = deletedId then q
    else
      let q := { q with scanned := q.scanned + 1 }
      if !passes (s.attrOf x base n i) false terms then q
      else
        let h := sketchDist q.sketch (s.tabBytes (base + i * x.dim / 8) (x.dim / 8))
        { q with passed := q.passed + 1, cands := (insertSeu (h, l, i) q.cands).take e })
    { q with lists := q.lists ++ [l] }

/-- What scans count: list scans, and reads saved. -/
structure ScanCount where
  scans : Nat := 0
  saved : Nat := 0

/-- Scan the union of the new lists of each query, in ascending list number. -/
def State.scanUnion (s : State) (x : Index) (terms : List (Word × Word)) (e : Nat) (news : List (List Nat)) :
    List Nat → List Query × ScanCount → List Query × ScanCount
  | [], r => r
  | l :: ls, r =>
    let k := (news.filter fun p => p.contains l).length
    let qs := (r.1.zip news).map fun y => if y.2.contains l then s.scanList x terms e l y.1 else y.1
    s.scanUnion x terms e news ls (qs, { scans := r.2.scans + 1, saved := r.2.saved + (k - ceilDiv k 64) })

def State.scanNew (s : State) (x : Index) (terms : List (Word × Word)) (e : Nat) (r : List Query × ScanCount)
    (news : List (List Nat)) : List Query × ScanCount :=
  s.scanUnion x terms e news (ascending news.flatten) r

/-- Widen every query that is still short, round by round (R479): the probe doubles up to its bound. -/
def State.widenLoop (s : State) (x : Index) (terms : List (Word × Word)) (e ef top : Nat) :
    Nat → Nat → List Query × ScanCount → List Query × ScanCount
  | 0, _, r => r
  | fuel + 1, n, r =>
    let go := fun (q : Query) => q.active && q.passed < e
    if top ≤ n || !r.1.any go then r
    else
      let n := min (2 * n) top
      let walks := r.1.map fun q => if go q then s.graphWalk x q.row n (max ef n) else ([], [])
      let news := (r.1.zip walks).map fun y => y.2.1.filter fun l => !y.1.lists.contains l
      let qs := (r.1.zip (walks.zip news)).map fun y =>
        if go y.1 then { y.1 with widened := true, active := !y.2.2.isEmpty, seen := y.1.seen ++ y.2.1.2 }
        else { y.1 with active := false }
      s.widenLoop x terms e ef top fuel n (s.scanNew x terms e (qs, r.2) news)

/-! ### SEARCH (R474, R475, R480, R481) -/

/-- The fields of a SEARCH item. -/
structure SearchItem where
  slot : Nat
  qn : Nat
  k : Nat
  nprobe : Nat
  ef : Nat
  rerank : Bool
  noWiden : Bool
  terms : Nat
  e : Nat
  src : Nat
  dst : Nat
  filter : Nat

def SearchItem.ofItem (i : Item) : SearchItem :=
  let k := bits i.w2 45 36 + 1
  let np := bits i.w2 35 26 + 1
  { slot := bits i.w2 59 54, qn := bits i.w2 53 46 + 1, k := k, nprobe := np, ef := max np (bits i.w2 25 16 + 1)
    rerank := bit i.w2 15, noWiden := bit i.w2 14, terms := bits i.w2 13 10
    e := if bit i.w2 15 then max k (bits i.w2 9 0 + 1) else k
    src := i.w3.toNat, dst := i.w4.toNat, filter := i.w5.toNat }

/-- A query's record (R480). -/
def State.queryRecord (s : State) (x : Index) (e : Nat) (q : Query) : List Byte :=
  let head := [fld 47 32 q.cands.length ||| fld 31 31 (bnat (q.passed < e)) ||| fld 30 30 (bnat q.widened) |||
      fld 16 0 q.lists.length,
    fld 63 32 (min q.scanned 0xFFFFFFFF) ||| fld 31 0 (min q.passed 0xFFFFFFFF)]
  let ent := q.cands.flatMap fun c =>
    [s.idOf x (s.listBase x c.2.1) (s.listCount x c.2.1) c.2.2, fld 63 32 c.1 ||| fld 31 16 c.2.1]
  let none_ := (List.range (e - q.cands.length)).flatMap fun _ => [deletedId, fld 63 32 0xFFFFFFFF ||| fld 31 16 0xFFFF]
  (head ++ ent ++ none_).flatMap fun w => leBytes w.toNat 8

/-- The gather rows of a query: codes less 128 (R481). -/
def State.gatherRows (s : State) (x : Index) (e : Nat) (q : Query) : List Byte :=
  (q.cands.flatMap fun c =>
    (s.codesOf x (s.listBase x c.2.1) (s.listCount x c.2.1) c.2.2).map fun b => b - 128#8) ++
  List.replicate ((e - q.cands.length) * x.dim) 0

/-- Bytes of a search's output regions. -/
def searchBytes (t : SearchItem) (dim : Nat) : Nat :=
  let r := t.qn * (16 + 16 * t.e)
  if t.rerank then up128 r + t.qn * t.e * dim else r

/-- A failed search: its output is undefined. -/
def State.searchFail (s : State) (i : Item) (code err : Nat) : State :=
  let t := SearchItem.ofItem i
  (s.undefState t.dst (searchBytes t (s.index t.slot).dim)).seuFail i code err

/-- What a search reads of the graph and of the lists it scanned. -/
def State.searchReads (s : State) (x : Index) (t : SearchItem) (qs : List Query) : List (Nat × Nat × Nat) :=
  let walked := ascending (qs.flatMap fun q => q.seen)
  let scanned := ascending (qs.flatMap fun q => q.lists)
  (walked.flatMap fun l => [(x.graph + 256 * l, 256, noIndex), (x.centroids + l * x.dim, x.dim, noIndex)]) ++
    scanned.flatMap fun l =>
      [(x.listDir + 16 * l, 16, noIndex)] ++
        (if s.listCount x l = 0 then [] else [(s.listBase x l, bodyBytes x.dim (s.listCount x l) t.rerank, noIndex)])

/-- The whole search on queries whose rows are read. -/
def State.searchRun (s : State) (x : Index) (t : SearchItem) (terms : List (Word × Word)) : List Query × ScanCount :=
  let qs := (List.range t.qn).map fun q =>
    let row := s.peekRow (t.src + 4 * q * x.dim) x.dim
    let w := s.graphWalk x row t.nprobe t.ef
    (w.1, ({ row := row, sketch := s.querySketchOf x row, seen := w.2 } : Query))
  let r := s.scanNew x terms t.e (qs.map (·.2), {}) (qs.map (·.1))
  if t.noWiden then r
  else s.widenLoop x terms t.e t.ef (t.nprobe * s.field Reg.seuControl 63 56) 7 t.nprobe r

/-- The search's output and counters, and its completion. -/
def State.searchOut (s : State) (i : Item) (t : SearchItem) (x : Index) (r : List Query × ScanCount) : State :=
  let recs := r.1.flatMap (s.queryRecord x t.e)
  let gather := if t.rerank then [(t.dst + up128 (t.qn * (16 + 16 * t.e)), r.1.flatMap (s.gatherRows x t.e))] else []
  let short := (r.1.filter fun q => q.passed < t.e).length
  let wide := (r.1.filter fun q => q.widened).length
  match s.seuWrite ((t.dst, recs) :: gather) with
  | .wait s => s
  | .fault c s => s.searchFail i c noIndex
  | .done s =>
    let s := ((s.bumpBy (Reg.seuCnt 0) t.qn).bumpBy (Reg.seuCnt 1) r.2.scans).bumpBy (Reg.seuCnt 2) r.2.saved
    ((s.bumpBy (Reg.seuCnt 3) wide).bumpBy (Reg.seuCnt 4) short).seuDone i 0 t.qn short wide 0 noIndex

/-- SEARCH (R474 to R481). -/
def execSearch (item : Item) (s : State) : Host.Outcome State Fault Refusal :=
  seuItem 0 item s fun s =>
    let t := SearchItem.ofItem item
    let x := s.index t.slot
    if 8 < t.terms then s.searchFail item Code.invalidField noIndex
    else if !x.valid then s.searchFail item Code.seuIndex noIndex
    else
      let q := (List.range t.qn).map fun q => (t.src + 4 * q * x.dim, 4 * x.dim, q)
      match readAll ((t.filter, 16 * t.terms, noIndex) :: (x.params, 8 * x.dim, noIndex) :: q) s with
      | (some (c, e), s) => s.searchFail item c e
      | (none, s) =>
        let terms := (List.range t.terms).map fun i => (s.tabWord (t.filter + 16 * i), s.tabWord (t.filter + 16 * i + 8))
        if !terms.all termOk || (terms.getLast?.any fun w => bit w.1 48) then s.searchFail item Code.invalidField noIndex
        else
          let r := s.searchRun x t terms
          match readAll (s.searchReads x t r.1) s with
          | (some (c, e), s) => s.searchFail item c e
          | (none, s) => s.searchOut item t x r

/-! ### Edits (R482 to R485) -/

def pubObject (i : Item) : Nat := bits i.w2 59 52
def pubNumber (i : Item) : Nat := bits i.w2 31 0
def pubVersion (i : Item) : BitVec 32 := BitVec.ofNat 32 (bits i.w4 31 0)

/-- A publish to the same index came before (R483). -/
def State.publishWaits (s : State) (item : Item) : Bool :=
  (s.handBefore seuReader item).any fun j => seuOp j = 1 && pubObject j = pubObject item

/-- LIST_PUBLISH (R483): publishes to one index apply in arrival order; the entry is written as one update, and the completion waits for
scans of the old body. -/
def execListPublish (item : Item) (s : State) : Host.Outcome State Fault Refusal :=
  seuItem 1 item s fun s =>
    let x := s.index (pubObject item)
    let l := pubNumber item
    if s.publishWaits item then s
    else if 64 ≤ pubObject item then s.seuFail item Code.invalidField noIndex
    else if !x.valid then s.seuFail item Code.seuIndex noIndex
    else if x.lists ≤ l then s.seuFail item Code.seuRange noIndex
    else
      match readAll [(x.listDir + 16 * l, 16, noIndex)] s with
      | (some (c, e), s) => s.seuFail item c e
      | (none, s) =>
        if !newer (s.listVersion x l) (pubVersion item) then s.seuFail item Code.seuVersion noIndex
        else
          let old := BitVec.ofNat 64 (s.listBase x l)
          match s.seuWrite [(x.listDir + 16 * l, leBytes item.w3.toNat 8 ++ leBytes item.w4.toNat 8)] with
          | .wait s => s
          | .fault c s => s.seuFail item c noIndex
          | .done s => { s.begin_ seuReader item with seu.lists := s.seu.lists ++ [(item, old)] }

/-- LIST_PUBLISH_COMPLETE (R483): no scan of the old body is left, since a SEARCH runs as one command. -/
def execListPublishComplete (s : State) : Host.Outcome State Fault Refusal :=
  seuGate s fun s =>
    match s.seu.lists with
    | [] => s
    | (i, old) :: l => ({ s with seu.lists := l }.bump (Reg.seuCnt 11)).seuDone i 0 0 0 0 old noIndex

/-- GRAPH_EDIT (R485): the image is checked, then the node is written as one whole image. -/
def execGraphEdit (item : Item) (s : State) : Host.Outcome State Fault Refusal :=
  seuItem 2 item s fun s =>
    let x := s.index (pubObject item)
    let src := item.w5.toNat
    if 64 ≤ pubObject item then s.seuFail item Code.invalidField noIndex
    else if !x.valid then s.seuFail item Code.seuIndex noIndex
    else
      match readAll [(src, 256, noIndex)] s with
      | (some (c, e), s) => s.seuFail item c e
      | (none, s) =>
        let bs := s.tabBytes src 256
        let w := bytesWord bs
        let deg := bits w 37 32
        let bad := (List.range deg).any fun i => x.lists ≤ leWord ((bs.drop (8 + 4 * i)).take 4)
        if x.maxDeg < deg || bad then s.seuFail item Code.invalidField noIndex
        else if x.lists ≤ pubNumber item then s.seuFail item Code.seuRange noIndex
        else
          match s.seuWrite [(x.graph + 256 * pubNumber item, bs)] with
          | .wait s => s
          | .fault c s => s.seuFail item c noIndex
          | .done s => s.seuDone item 0 0 0 0 0 noIndex

/-! ### Span ranking (R486) -/

/-- Return the next page of a held ranking. -/
def State.servePage (s : State) (r : Ranking) (n : Nat) : State :=
  let page := (r.order.drop r.given).take n
  { s with seu.rankings := (s.seu.rankings.filter fun (x : Ranking) => !(x.die = r.die && x.id = r.id)) ++
      [{ r with given := r.given + page.length, page := page }] }.bump (Reg.seuCnt 5)

/-- RANK_REQUEST (R486): the request is ranked and its first page returned; with 64 rankings held it waits. -/
def execRankRequest (die : Fin 4) (id slot layer head first tail newest commit : Nat) (sketch : List Word) (topK : Nat)
    (s : State) : Host.Outcome State Fault Refusal :=
  seuGate s fun s =>
    let r : Ranking := { die := die.val, id := id, order := s.rankOrder slot layer head first tail newest commit sketch }
    if 64 ≤ s.seu.rankings.length then { s with seu.rankWait := s.seu.rankWait ++ [{ r with given := s.rankPage topK }] }
    else s.servePage r (s.rankPage topK)

/-- RANK_CONTINUATION (R486): the next ranks of the same ranking. -/
def execRankContinuation (die : Fin 4) (id topK : Nat) (s : State) : Host.Outcome State Fault Refusal :=
  seuGate s fun s =>
    match s.seu.rankings.find? fun r => r.die = die.val && r.id = id with
    | none => s
    | some r => s.servePage r (s.rankPage topK)

/-- RANK_RELEASE (R486): the ranking goes, and the oldest waiting request takes its place (its page size waits in `given`). -/
def execRankRelease (die : Fin 4) (id : Nat) (s : State) : Host.Outcome State Fault Refusal :=
  seuGate s fun s =>
    let s := { s with seu.rankings := s.seu.rankings.filter fun r => !(r.die = die.val && r.id = id) }
    match s.seu.rankWait with
    | [] => s
    | r :: rs =>
      if 64 ≤ s.seu.rankings.length then s
      else { s with seu.rankWait := rs }.servePage { r with given := 0 } r.given

end Sys2Proof.Machine
end

