-- ==== Sys2Proof/Machine/Embed.lean ====
section
/-! DEFINITION. Embedding tables and the row store (R487 to R497). -/

namespace Sys2Proof.Machine

open Sys2Proof

/-! ### Tables (R487, R488) -/

/-- A table directory entry. -/
structure Table where
  addr : Nat
  base : Nat
  version : BitVec 32
  valid : Bool
  fmt : Nat
  sharded : Bool
  hot : Bool
  width : Nat
  rows : Nat
  prevBase : Word
  /-- The item is bound to the BASE of a version that has been replaced (R495). -/
  old : Bool := false
  deriving DecidableEq, Repr

def State.table (s : State) (n : Nat) : Table :=
  let a := 65536 * s.field Reg.seuTableDir 35 0 + 64 * n
  let w := s.tabWord (a + 8)
  { addr := a, base := (s.tabWord a).toNat, version := BitVec.ofNat 32 (bits w 63 32), valid := bit w 31, fmt := bits w 30 29
    sharded := bit w 28, hot := bit w 27, width := bits w 26 17 + 1, rows := bits (s.tabWord (a + 16)) 39 0
    prevBase := s.tabWord (a + 24) }

/-- The table as an item sees it: with the BASE it bound at its arrival (R495). -/
def State.tableFor (s : State) (item : Item) (n : Nat) : Table :=
  match s.seu.bound.find? fun x => x.1 = item with
  | none => s.table n
  | some x => { s.table n with base := x.2.toNat, old := true }

def State.tableCount (s : State) : Nat := s.field Reg.seuTableDir 44 36

/-- Bytes of a row as stored, and its stride S. -/
def Table.rowBytes (t : Table) : Nat := if t.fmt = 0 then 4 * t.width else if t.fmt = 1 then 2 * t.width else 4 + t.width
def Table.stride (t : Table) : Nat := ceilDiv t.rowBytes 64 * 64

/-- This module holds a row, and the row's address. -/
def State.ownsRow (s : State) (t : Table) (r : Nat) : Bool :=
  !t.sharded || r % s.comp.map.modules = s.comp.map.ringPos
def State.rowAddr (s : State) (t : Table) (r : Nat) : Nat :=
  t.base + t.stride * (if t.sharded then r / s.comp.map.modules else r)

/-- A row's bytes widened to FP32. -/
def Table.widen (t : Table) (bs : List Byte) : List F32 :=
  if t.fmt = 0 then words32 (bs.take (4 * t.width))
  else if t.fmt = 1 then (List.range t.width).map fun j => f32Of (fpBF16.decode (leWord ((bs.drop (2 * j)).take 2)))
  else
    let sc : F32 := BitVec.ofNat 32 (leWord (bs.take 4))
    (List.range t.width).map fun j => f32Of ((fpE4M3.decode (bs.getD (4 + j) 0).toNat).mul sc.val)

/-- The exponent x of the row scale 2^x = 2^ceil(log2(a / 448)) (R493), for a magnitude a in units of 2^-300. -/
def scaleExp (a : Nat) : Int :=
  let l := Nat.log2 a
  (if 4 * a ≤ 7 * 2 ^ l then (l : Int) - 2 else (l : Int) - 1) - 306

/-- 2^x as FP32, where one holds it. -/
def pow2At (x : Int) : Option F32 :=
  if -149 ≤ x && x ≤ 127 then some (f32Of (.fin false (2 ^ (x + 300).toNat))) else none

/-- A row converted to FMT with SAT = 1 (R242, R493); `free` stands for a scale no FP32 value holds. -/
def Table.narrow (t : Table) (free : F32) (row : List F32) : List Byte :=
  if t.fmt = 0 then bytes32 row
  else if t.fmt = 1 then row.flatMap fun v => leBytes (fpBF16.encode true v.val).1 2
  else
    let a := maxMag (row.map F32.val)
    let x := if a = 0 then 0 else scaleExp a
    leBytes ((pow2At x).getD free).toNat 4 ++
      row.map fun v => BitVec.ofNat 8 (fpE4M3.encode true (v.val.shift (-x))).1

/-! ### Row store (R496, R497) -/

def rowKey (table row : Nat) : Nat := table * 2 ^ 40 + row
def storeBytes : Nat := 33554432
def State.storeRow? (s : State) (k : Nat) : Option StoreRow := SMap.lookup s.seu.store k
def State.putStore (s : State) (k : Nat) (x : StoreRow) : State := { s with seu.store := SMap.put s.seu.store k x }
def State.dropStore (s : State) (k : Nat) : State := { s with seu.store := SMap.erase s.seu.store k }
def State.storeUsed (s : State) : Nat := sumNat (s.seu.store.map fun x => x.2.size)

/-- The entry evicted next: prefetched and not read first, then the least recently read. -/
def State.victimRow (s : State) : Option Nat :=
  let l := s.seu.store.filter fun x => !x.2.filling
  let l := if l.any fun x => x.2.ahead then l.filter fun x => x.2.ahead else l
  (l.foldl (fun (b : Option (Nat × StoreRow)) x => match b with
    | none => some x
    | some y => if x.2.lastNs < y.2.lastNs then some x else b) none).map (·.1)

/-- Evict until `n` more bytes fit. -/
def State.makeRoom (s : State) (n : Nat) : Nat → State
  | 0 => s
  | fuel + 1 =>
    if s.storeUsed + n ≤ storeBytes then s
    else match s.victimRow with
      | none => s
      | some k => (s.dropStore k).makeRoom n fuel

/-- Claim an entry as FILLING. -/
def State.claimRow (s : State) (k size : Nat) (ahead : Bool) : State :=
  if (s.storeRow? k).isSome then s
  else
    let s := s.makeRoom size s.seu.store.length
    if storeBytes < s.storeUsed + size then s
    else s.putStore k { size := size, ahead := ahead, lastNs := s.now }

/-- ROW_FILL_COMPLETE (R497): the row read from its home becomes VALID if the claim still stands. -/
def execRowFillComplete (table row : Nat) (s : State) : Host.Outcome State Fault Refusal :=
  seuGate s fun s =>
    let k := rowKey table row
    let t := s.table table
    match s.storeRow? k with
    | none => s
    | some x =>
      if !x.filling then s
      else
        match s.getBytes seuCache (s.rowAddr t row) t.rowBytes with
        | (.error _, s) => s.dropStore k
        | (.ok bs, s) =>
          (s.iff (!x.ahead) fun s => s.bump (Reg.seuCnt 8)).putStore k { x with filling := false, data := bs, lastNs := s.now }

/-- Begin a new counting period when WINDOW_MS has passed (R496). -/
def State.countPeriod (s : State) : State :=
  if s.now < s.seu.windowNs + msec (s.field Reg.seuHot 63 48) then s else { s with seu.reads := [], seu.windowNs := s.now }

/-- PROMOTION_WINDOW (R496): a period of WINDOW_MS has ended. -/
def execPromotionWindow (s : State) : Host.Outcome State Fault Refusal :=
  seuGate s State.countPeriod

/-- The VALID entry of a row, for an item of the table's current version. -/
def State.stored? (s : State) (t : Table) (k : Nat) : Option StoreRow :=
  if t.old then none else (s.storeRow? k).filter fun x => !x.filling

/-- Read a row for a lookup: from a VALID entry, else from its home; count it, and promote it at its PROMOTE-th read. -/
def State.readRow (s : State) (n : Nat) (t : Table) (bad : List Nat) (r : Nat) : List F32 × State :=
  let k := rowKey n r
  let s := s.countPeriod
  let c := SMap.get 0 s.seu.reads k + 1
  let s := { s with seu.reads := SMap.put s.seu.reads k c }.bump (Reg.seuCnt 6)
  let s := s.iff (bad.contains r && (s.stored? t k).isSome) fun s => s.dropStore k
  match s.stored? t k with
  | some x => (t.widen x.data, (s.putStore k { x with ahead := false, lastNs := s.now }).bump (Reg.seuCnt 7))
  | none =>
    let row := t.widen (s.tabBytes (s.rowAddr t r) t.rowBytes)
    (row, s.iff (t.hot && !t.old && s.field Reg.seuHot 47 32 ≤ c) fun s => s.claimRow k t.stride false)

/-! ### Bag lists (R489) -/

/-- Offsets and row numbers of a bag list of `bags` bags. -/
def State.bagOffsets (s : State) (at_ bags : Nat) : List Nat :=
  (words32 (s.tabBytes at_ (4 * (bags + 1)))).map BitVec.toNat
def rowsAt (at_ bags : Nat) : Nat := at_ + ceilDiv (4 * (bags + 1)) 8 * 8
def State.bagRows (s : State) (at_ bags n : Nat) : List Nat :=
  (List.range n).map fun i => (s.tabWord (rowsAt at_ bags + 8 * i)).toNat

def nondecreasing : List Nat → Bool
  | a :: b :: l => a ≤ b && nondecreasing (b :: l)
  | _ => true

/-- Prefetch the rows of the next batch that this module owns (R496); a list that cannot be read prefetches nothing. -/
def State.prefetch (s : State) (n : Nat) (t : Table) (at_ bags : Nat) : State :=
  if at_ = 0 || t.old || s.field Reg.seuHot 31 16 = 0 then s
  else
    match readAll [(at_, 4 * (bags + 1), 0)] s with
    | (some _, s) => s
    | (none, s) =>
      let k := min 1048576 ((s.bagOffsets at_ bags).getLastD 0)
      match readAll [(rowsAt at_ bags, 8 * k, 0)] s with
      | (some _, s) => s
      | (none, s) =>
        let rs := ((s.bagRows at_ bags k).filter fun r => r < t.rows && s.ownsRow t r).take (s.field Reg.seuHot 31 16)
        rs.foldl (fun s r => s.claimRow (rowKey n r) t.stride true) s

/-! ### Pooling (R490, R491) -/

/-- A SUM of rows' elements: any FP32 value within (n − 1) × 2^-24 × Σ|x| of the exact sum. -/
def poolSum (cand : F32) (xs : List F32) : F32 :=
  match exactSum xs with
  | .fin a m =>
    match cand.val with
    | .fin b c =>
      if (toInt b c - toInt a m).natAbs * 2 ^ 24 ≤ (xs.length - 1) * magSum xs then cand else f32Of (.fin a m)
    | _ => f32Of (.fin a m)
  | v => f32Of v

/-- A sum divided by a count, correctly rounded. -/
def f32DivNat (x : F32) (n : Nat) : F32 :=
  match x.val with
  | .fin a m => f32Of (.fin a (stickyDiv m n))
  | v => f32Of v

/-- One output row from the rows of a bag: POOL 0 SUM, 1 MEAN, 2 MAX, 3 NONE; without `final`, a partial of R491. -/
def poolRow (pool width : Nat) (final : Bool) (free : Nat) (rows : List (List F32)) : List F32 :=
  (List.range width).map fun j =>
    let xs := rows.map fun r => r.getD j 0
    if xs.isEmpty then (if pool = 2 && !final then f32NegInf else 0)
    else if pool = 2 then xs.foldl f32Max f32NegInf
    else
      let v := match xs with
        | [x] => x
        | _ => poolSum (Config.poolSum (free + j)) xs
      if pool = 1 && final then f32DivNat v xs.length else v

/-- Output rows in order: the entries of each. -/
def outRowsOf (pool : Nat) (offs rows : List Nat) : List (List Nat) :=
  if pool = 3 then rows.map fun r => [r]
  else (offs.zip (offs.drop 1)).map fun o => (rows.drop o.1).take (o.2 - o.1)

/-- Read the rows of each output row that this module owns. -/
def readBags (n : Nat) (t : Table) (bad : List Nat) : List (List Nat) → State → List (List (List F32)) × State
  | [], s => ([], s)
  | b :: bs, s =>
    let r := (b.filter (s.ownsRow t)).foldl (fun (a : List (List F32) × State) x =>
      let v := a.2.readRow n t bad x
      (a.1 ++ [v.1], v.2)) ([], s)
    let q := readBags n t bad bs r.2
    (r.1 :: q.1, q.2)

/-- A failed LOOKUP: its output of `n` rows is undefined (R468). -/
def State.lookupFail (s : State) (i : Item) (width n code err : Nat) : State :=
  (s.undefState i.w4.toNat (4 * width * n)).seuFail i code err

/-- Write a LOOKUP's output and complete it. -/
def State.lookupOut (s : State) (i : Item) (width : Nat) (outs : List (List F32)) : State :=
  match s.seuWrite [(i.w4.toNat, outs.flatMap bytes32)] with
  | .wait s => s
  | .fault c s => s.lookupFail i width outs.length c noIndex
  | .done s => s.seuDone i 0 outs.length 0 0 0 noIndex

/-- Rows of a block of `width` elements. -/
def blockRows (width : Nat) (n : Nat) (b : List F32) : List (List F32) :=
  (List.range n).map fun i => (b.drop (width * i)).take width

/-- Finish an owner-pooled lookup (R491 step 3): MEAN divides, an empty bag gives zeros.  An output page that waits for its
snapshot copy leaves the last stage to come again (R64). -/
def State.poolEnd (s : State) (p : Pooling) : State :=
  let pool := bits p.item.w2 51 50
  let rows := (p.rows.zip (blockRows p.width p.rows.length p.block)).map fun x =>
    if x.1 = 0 then x.2.map fun _ => 0
    else if pool = 1 then x.2.map fun v => f32DivNat v x.1 else x.2
  let gone := fun (s : State) => { s with seu.pools := s.seu.pools.filter fun (x : Pooling) => x.batch ≠ p.batch }
  match s.seuWrite [(p.item.w4.toNat, rows.flatMap bytes32)] with
  | .wait s => s
  | .fault c s => (gone s).lookupFail p.item p.width rows.length c noIndex
  | .done s => (gone s).seuDone p.item 0 rows.length 0 0 0 noIndex

/-- The rows a LOOKUP or an UPDATE names. -/
def State.itemRows (s : State) (i : Item) : List Nat :=
  let n := bits i.w2 47 32 + 1
  if seuOp i = 3 then s.bagRows i.w3.toNat n (min 1048576 ((s.bagOffsets i.w3.toNat n).getLastD 0))
  else (List.range n).map fun k => bits (s.tabWord (i.w3.toNat + 16 * k)) 39 0

/-- An earlier LOOKUP or UPDATE of the same table that shares a row, one of the two an UPDATE, is still to come (R494). -/
def State.rowsWait (s : State) (item : Item) : Bool :=
  (s.handBefore seuReader item).any fun j =>
    (seuOp j = 3 || seuOp j = 4) && (seuOp j = 4 || seuOp item = 4) && bits j.w2 59 52 = bits item.w2 59 52 &&
      (s.itemRows j).any fun r => (s.itemRows item).contains r

/-- LOOKUP (R489 to R491, R494); `storeErrs` are rows whose row store entry meets an uncorrectable error. -/
def execLookup (item : Item) (storeErrs : List Nat) (s : State) : Host.Outcome State Fault Refusal :=
  seuItem 3 item s fun s =>
    let n := bits item.w2 59 52
    let t := s.tableFor item n
    let pool := bits item.w2 51 50
    let bags := bits item.w2 47 32 + 1
    let ids := item.w3.toNat
    let outN := if pool = 3 then 0 else bags
    let fail := fun (s : State) (c e : Nat) => s.lookupFail item t.width outN c e
    if s.rowsWait item then s
    else if s.tableCount ≤ n || !t.valid then s.seuFail item Code.seuTable noIndex
    else if bit item.w2 49 ≠ t.sharded || t.fmt = 3 then fail s Code.invalidField noIndex
    else
      match readAll [(ids, 4 * (bags + 1), noIndex)] s with
      | (some (c, e), s) => fail s c e
      | (none, s) =>
        let offs := s.bagOffsets ids bags
        let total := offs.getLastD 0
        let fail := fun (s : State) (c e : Nat) => s.lookupFail item t.width (if pool = 3 then total else bags) c e
        if offs.headD 0 ≠ 0 || !nondecreasing offs || 1048576 < total then s.seuFail item Code.invalidField noIndex
        else
          match readAll [(rowsAt ids bags, 8 * total, noIndex)] s with
          | (some (c, e), s) => fail s c e
          | (none, s) =>
            let rows := s.bagRows ids bags total
            match rows.findIdx? fun r => t.rows ≤ r with
            | some e => fail s Code.seuRange e
            | none =>
              let own := (List.range total).filter fun k => s.ownsRow t (rows.getD k 0) &&
                (s.stored? t (rowKey n (rows.getD k 0))).isNone
              match readAll (own.map fun k => (s.rowAddr t (rows.getD k 0), t.rowBytes, k)) s with
              | (some (c, e), s) => fail s c e
              | (none, s) =>
                let outs := outRowsOf pool offs rows
                let r := readBags n t storeErrs outs s
                let s := r.2.prefetch n t item.w5.toNat bags
                let m := s.comp.map.modules
                let final := !t.sharded || m < 2
                let vals := (List.range outs.length).map fun k =>
                  poolRow pool t.width final (s.free + k * t.width) (r.1.getD k [])
                let s := { s with free := s.free + outs.length * t.width }
                if final then s.lookupOut item t.width vals
                else
                  let flat := vals.flatten
                  let block := flat ++ List.replicate (ceilDiv flat.length m * m - flat.length) 0
                  let p : Pooling := {
                    batch := bits item.w2 31 0, item := item, table := n, base := BitVec.ofNat 64 t.base
                    pos := s.comp.map.ringPos, count := m, block := block, rows := outs.map (·.length), width := t.width
                    sinceNs := s.now, timeoutNs := usec (s.field Reg.seuControl 55 40) }
                  let s := { s.begin_ seuReader item with
                    seu.pools := (s.seu.pools.filter fun (x : Pooling) => x.batch ≠ p.batch) ++ [p] }
                  s.sendChunk true 8 p.batch (chunkOf block m (chunkOut p.pos m 0))

/-- POOL_STAGE (R491, R208): the chunk received is combined or replaces the own one, and the next is sent. -/
def execPoolStage (batch : Nat) (chunk : List (BitVec 32)) (s : State) : Host.Outcome State Fault Refusal :=
  seuGate s fun s =>
    match s.seu.pools.find? fun p => p.batch = batch with
    | none => s
    | some p =>
      let c := recvChunk p.pos p.count p.stage
      let mine := chunkOf p.block p.count c
      let mx := bits p.item.w2 51 50 = 2
      let v := (List.range mine.length).map fun i =>
        let a := mine.getD i 0
        let b := chunk.getD i 0
        if p.stage < p.count - 1 then (if mx then f32Max a b else f32Add a b) else b
      let p' := { p with block := setChunk p.block p.count c v, stage := p.stage + 1, sinceNs := s.now }
      if p'.stage = 2 * (p.count - 1) then s.poolEnd p'
      else
        let s := { s with seu.pools := s.seu.pools.map fun (x : Pooling) => if x.batch = batch then p' else x }
        s.sendChunk true 8 batch (chunkOf p'.block p.count (chunkOut p.pos p.count p'.stage))

/-- POOL_TIMEOUT (R491). -/
def execPoolTimeout (batch : Nat) (s : State) : Host.Outcome State Fault Refusal :=
  seuGate s fun s =>
    match s.seu.pools.find? fun p => p.batch = batch with
    | none => s
    | some p =>
      if s.now < p.sinceNs + p.timeoutNs then s
      else
        let s := { s with seu.pools := s.seu.pools.filter fun (x : Pooling) => x.batch ≠ batch }
        (s.undefState p.item.w4.toNat (4 * p.width * p.rows.length)).seuFail p.item Code.poolTimeout noIndex

/-! ### UPDATE (R492, R493) -/

/-- An update entry: ASSIGN or ADD, row, source address. -/
structure UpdEntry where
  add : Bool
  row : Nat
  src : Nat
  deriving DecidableEq, Repr

def State.updEntry (s : State) (at_ i : Nat) : UpdEntry :=
  let w := s.tabWord (at_ + 16 * i)
  ⟨bits w 63 62 = 1, bits w 39 0, (s.tabWord (at_ + 16 * i + 8)).toNat⟩

/-- The new value of a row after its entries in order. -/
def State.applyEntries (s : State) (t : Table) (row : Nat) (es : List UpdEntry) (v : List F32) : List F32 :=
  es.foldl (fun v e =>
    if e.row ≠ row then v
    else
      let x := s.peekRow e.src t.width
      if e.add then (List.range t.width).map fun j => f32Add (v.getD j 0) (x.getD j 0) else x) v

/-- Rows of a list, each once, in order. -/
def firsts (l : List Nat) : List Nat := l.foldl (fun a x => if a.contains x then a else a ++ [x]) []

/-- The row store follows an update in the same step: a VALID entry is rewritten, a FILLING claim is cancelled. -/
def State.storeUpdate (s : State) (k : Nat) (bs : List Byte) : State :=
  match s.storeRow? k with
  | none => s
  | some x => if x.filling then (s.dropStore k).bump (Reg.seuCnt 9) else s.putStore k { x with data := bs }

/-- UPDATE (R492 to R494, R497). -/
def execUpdate (item : Item) (s : State) : Host.Outcome State Fault Refusal :=
  seuItem 4 item s fun s =>
    let n := bits item.w2 59 52
    let t := s.tableFor item n
    let cnt := bits item.w2 47 32 + 1
    let at_ := item.w3.toNat
    if s.rowsWait item then s
    else if s.tableCount ≤ n || !t.valid then s.seuFail item Code.seuTable noIndex
    else if t.fmt = 3 then s.seuFail item Code.invalidField noIndex
    else
      match readAll [(at_, 16 * cnt, noIndex)] s with
      | (some (c, e), s) => s.seuFail item c e
      | (none, s) =>
        let ws := (List.range cnt).map fun i => s.tabWord (at_ + 16 * i)
        let es := (List.range cnt).map (s.updEntry at_)
        match ws.findIdx? (fun w => 2 ≤ bits w 63 62), es.findIdx? (fun e => t.rows ≤ e.row) with
        | some e, _ => s.seuFail item Code.invalidField e
        | none, some e => s.seuFail item Code.seuRange e
        | none, none =>
          let mine := (List.range cnt).filter fun i => s.ownsRow t (es.getD i ⟨false, 0, 0⟩).row
          let own := es.filter fun e => s.ownsRow t e.row
          let rows := firsts (own.map fun e => e.row)
          let reads := mine.map (fun i => ((es.getD i ⟨false, 0, 0⟩).src, 4 * t.width, i)) ++
            rows.map fun r => (s.rowAddr t r, t.rowBytes, (es.findIdx? fun e => e.row = r).getD noIndex)
          match readAll reads s with
          | (some (c, e), s) => s.seuFail item c e
          | (none, s) =>
            let news := (List.range rows.length).map fun i =>
              let r := rows.getD i 0
              (r, t.narrow (Config.rowScale (s.free + i))
                (s.applyEntries t r own (t.widen (s.tabBytes (s.rowAddr t r) t.rowBytes))))
            match s.seuWrite (news.map fun x => (s.rowAddr t x.1, x.2)) with
            | .wait s => s
            | .fault c s => s.seuFail item c noIndex
            | .done s =>
              let s := news.foldl (fun s x => s.iff (!t.old) fun s => s.storeUpdate (rowKey n x.1) x.2) { s with free := s.free + rows.length }
              (s.bumpBy (Reg.seuCnt 10) rows.length).seuDone item 0 own.length 0 0 0 noIndex

/-! ### TABLE_PUBLISH (R495) -/

/-- TABLE_PUBLISH (R495 steps 1 to 3): the items that arrived before keep the old BASE. -/
def execTablePublish (item : Item) (s : State) : Host.Outcome State Fault Refusal :=
  seuItem 5 item s fun s =>
    let n := pubObject item
    let t := s.table n
    if s.tableCount ≤ n then s.seuFail item Code.seuTable noIndex
    else if t.prevBase ≠ 0 then s.seuFail item Code.seuBusy noIndex
    else if !newer t.version (pubVersion item) then s.seuFail item Code.seuVersion noIndex
    else
      let w := s.tabWord (t.addr + 8)
      let old := BitVec.ofNat 64 t.base
      let s := (s.setTabWord (t.addr + 24) old).setTabWord (t.addr + 32) (fld 63 32 t.version.toNat)
      let s := (s.setTabWord t.addr item.w3).setTabWord (t.addr + 8) (setBits (setBits w 63 32 (pubVersion item).toNat) 31 31 1)
      let mine := (s.arrived seuReader).filter fun i =>
        (seuOp i = 3 || seuOp i = 4) && bits i.w2 59 52 = n && !s.seu.bound.any fun x => x.1 = i
      { s.begin_ seuReader item with
        seu.bound := s.seu.bound ++ mine.map fun i => (i, old)
        seu.store := s.seu.store.filter fun x => x.1 / 2 ^ 40 ≠ n
        seu.reads := s.seu.reads.filter fun x => x.1 / 2 ^ 40 ≠ n
        seu.tables := s.seu.tables ++ [(item, old)] }

/-- TABLE_RETIRE (R495 step 4): the oldest publish whose old body no item is bound to. -/
def execTableRetire (s : State) : Host.Outcome State Fault Refusal :=
  seuGate s fun s =>
    let used := fun (x : Item × Word) =>
      (s.seu.pools.any fun p => p.table = pubObject x.1 && p.base = x.2) ||
        s.seu.bound.any fun b => bits b.1.w2 59 52 = pubObject x.1 && b.2 = x.2
    match s.seu.tables.find? fun x => !used x with
    | none => s
    | some (i, old) =>
      let a := (s.table (pubObject i)).addr
      let s := (s.setTabWord (a + 24) 0).setTabWord (a + 32) 0
      ({ s with seu.tables := s.seu.tables.erase (i, old) }.bump (Reg.seuCnt 11)).seuDone i 0 0 0 0 old noIndex

end Sys2Proof.Machine
end

