-- ==== Sys2Proof/Machine/Trail.lean ====
section
/-! DEFINITION. Trail ports and the frames they deliver (R563 to R576). -/

namespace Sys2Proof.Machine

open Sys2Proof

/-! ### Port states (R571, R572, R593) -/

def State.trlEnabled (s : State) (p : Nat) : Bool := bit (s.reg Reg.trlControl) (16 + p)
def State.miswired (s : State) (p : Nat) : Bool := bit (s.reg (Reg.trlPort p)) 61

/-- X0 carries ports 0 to 3, X1 ports 4 to 7 (R29): their numbers in event records. -/
def trailDie (p : Nat) : Nat := 4 + p / 4

/-- Distinct streams of a list of frames. -/
def streamsOf (fs : List FrameHead) : List FrameHead :=
  fs.foldl (fun l f => if l.any f.sameStream then l else l ++ [f]) []

/-- A port goes DOWN: one LINK fault, and its frames move to the ports that are up, in their order (R566, R571, R693). -/
def State.portDown (s : State) (p code : Nat) : State :=
  if s.trlState p = 0 then s
  else
    let x := s.trailPort p
    let s := (s.setField (Reg.trlPort p) 63 62 0).setTrl p { fec := x.fec, downNs := s.now }
    let s := ((s.bump (Reg.trlCnt 3)).bump (Reg.fltCnt 5)).event code 3 (trailDie p) (16 + p) 0 0 (BitVec.ofNat 64 p)
    let moved := x.frames.filter fun f => !(s.portsTo f.dest).isEmpty
    (x.frames.foldl (fun s f => s.sendFrame f) s).bumpBy (Reg.trlCnt 7) (streamsOf moved).length

/-- Bring-up starts on a port that is in use and not locked (R571, R572). -/
def State.bringUp (s : State) (p : Nat) : State :=
  if s.trlState p = 0 && s.trlEnabled p && !s.miswired p && 2 ≤ s.comp.map.modules then
    (s.setField (Reg.trlPort p) 63 62 1).setTrl p { s.trailPort p with sentDone := false, gotDone := false }
  else s

/-- Both sides have sent and received INIT_DONE: the port is UP with sequences and credits at their start (R572). -/
def State.portUpIf (s : State) (p : Nat) : State :=
  let x := s.trailPort p
  if x.sentDone && x.gotDone then
    (s.setField (Reg.trlPort p) 63 62 2).setTrl p
      { fec := x.fec, sentDone := true, gotDone := true, grants := x.grants, waiting := x.waiting }
  else s

/-- FEC_LOCK (R572): lane alignment and FEC lock are achieved; bring-up goes on. -/
def execFecLock (port : Fin 8) (s : State) : Host.Outcome State Fault Refusal :=
  gate s fun s => (s.setTrl port.val { s.trailPort port.val with fec := true }).bringUp port.val

/-- FEC_LOCK_LOSS (R571). -/
def execFecLockLoss (port : Fin 8) (s : State) : Host.Outcome State Fault Refusal :=
  gate s fun s => (s.setTrl port.val { s.trailPort port.val with fec := false }).portDown port.val Code.trailDown

/-- RETRAIN (R571): RETRAIN_MS after going DOWN, an unlocked port restarts bring-up. -/
def execRetrain (port : Fin 8) (s : State) : Host.Outcome State Fault Refusal :=
  gate s fun s =>
    if (s.trailPort port.val).downNs + msec (s.field Reg.trlControl 39 24) ≤ s.now then s.bringUp port.val else s

/-- Send a flit that carries no frame: 30 words of payload, the rest of them 0, and the CRC over 248 bytes as its last word (R568). -/
def State.ctlFlit (s : State) (p ftype : Nat) (payload : List Word) : State :=
  let ws := payload ++ List.replicate (30 - payload.length) 0
  let crc := crcWords (ws ++ [(s.trailPort p).ctl ftype 0 0])
  s.sendFlit p ftype {} (ws ++ [fld 31 0 crc.toNat])

/-- The payload of this module's INIT flits (R572). -/
def State.initPayload (s : State) (p : Nat) : List Word :=
  [fld 63 48 0x7A11 ||| fld 47 32 1 ||| fld 31 16 s.comp.map.epoch.toNat,
    fld 63 54 s.self ||| fld 53 51 p ||| fld 50 48 s.comp.map.ringPos ||| fld 47 44 s.comp.map.modules,
    fld 63 52 (s.field Reg.trlCredit 11 0) ||| fld 51 40 (s.field Reg.trlCredit 23 12) |||
      fld 39 28 (s.field Reg.trlCredit 35 24)]

/-- INIT_SEND (R572): every 1 µs during bring-up. -/
def execInitSend (port : Fin 8) (s : State) : Host.Outcome State Fault Refusal :=
  gate s fun s =>
    if s.trlState port.val = 1 && (s.trailPort port.val).fec then s.ctlFlit port.val 3 (s.initPayload port.val) else s

/-- Is a port on the NEXT bundle; and the partner of R564. -/
def isNext (p : Nat) : Bool := p % 4 < 2
def partner (p : Nat) : Nat := if isNext p then p + 2 else p - 2

/-- INIT_RX (R572): a mismatch locks the port; with every check passed the side sends INIT_DONE. -/
def execInitRx (port : Fin 8) (init : InitFlit) (s : State) : Host.Outcome State Fault Refusal :=
  gate s fun s =>
    let p := port.val
    if s.trlState p ≠ 1 || !(s.trailPort p).fec || init.kind ≠ 0x7A11 || init.version ≠ 1 then s
    else
      let s := (s.setField (Reg.trlPort p) 60 51 init.module).setField (Reg.trlPort p) 50 48 init.port
      if init.module ≠ s.neighbour (isNext p) || init.port ≠ partner p || init.modules ≠ s.comp.map.modules then
        ((s.setField (Reg.trlPort p) 61 61 1).bump (Reg.trlCnt 4)).portDown p Code.trailMiswire
      else if init.epoch ≠ s.comp.map.epoch then s
      else
        let s := s.setTrl p { s.trailPort p with sentDone := true, grants := init.grants }
        (s.ctlFlit p 4 []).portUpIf p

/-- INIT_DONE_RX (R572). -/
def execInitDoneRx (port : Fin 8) (s : State) : Host.Outcome State Fault Refusal :=
  gate s fun s =>
    if s.trlState port.val = 1 && (s.trailPort port.val).fec then
      (s.setTrl port.val { s.trailPort port.val with gotDone := true }).portUpIf port.val
    else s

/-! ### Flits (R568 to R571) -/

/-- Resend from the oldest unacknowledged flit, or give up after RETRY_LIMIT replays without progress. -/
def State.replay (s : State) (p : Nat) : State :=
  let x := s.trailPort p
  if x.unacked.isEmpty then s
  else if s.field Reg.trlControl 47 40 ≤ x.retries then s.portDown p Code.trailDown
  else
    let s := s.setTrl p { x with retries := x.retries + 1, ackNs := s.now }
    (x.unacked.foldl (fun s u => s.sendFlit p 1 u []) s).bumpBy (Reg.trlCnt 1) x.unacked.length

/-- REPLAY_TIMEOUT (R570, R571). -/
def execReplayTimeout (port : Fin 8) (s : State) : Host.Outcome State Fault Refusal :=
  gate s fun s =>
    let x := s.trailPort port.val
    if s.trlUp port.val && !x.unacked.isEmpty && x.ackNs + usec (s.field Reg.trlControl 63 48) ≤ s.now then
      s.replay port.val
    else s

/-- Take ACK and the credit total of a flit with a good CRC (R570). -/
def TrailPort.takeControl (x : TrailPort) (f : Flit) (now : Nat) : TrailPort :=
  let x := { x with back := x.back.set f.cvc f.total }
  match x.unacked.findIdx? fun u => u.seq = f.ack with
  | none => x
  | some i => { x with unacked := x.unacked.drop (i + 1), ackNs := now, retries := 0 }

/-- Ask for a replay, once until a flit is accepted (R570). -/
def State.nak (s : State) (p : Nat) : State :=
  let x := s.trailPort p
  if x.naked then s else (s.setTrl p { x with naked := true }).ctlFlit p 2 []

/-- FLIT_RX (R568 to R570).  A reserved FTYPE counts as a bad CRC; INIT flits have rows of their own. -/
def execFlitRx (port : Fin 8) (flit : Flit) (s : State) : Host.Outcome State Fault Refusal :=
  gate s fun s =>
    let p := port.val
    if !s.trlUp p then s
    else if !flit.good || 5 ≤ flit.ftype then (s.bump (Reg.trlCnt 2)).nak p
    else
      let s := s.setTrl p ((s.trailPort p).takeControl flit s.now)
      let x := s.trailPort p
      let s :=
        if flit.ftype = 1 then
          if flit.fseq = x.expect then s.setTrl p { x with expect := x.expect + 1, naked := false }
          else if newer x.expect flit.fseq then s.nak p
          else s
        else if flit.ftype = 2 then s.replay p
        else s
      if s.trlUp p then s.pump p else s

/-! ### Frames (R565, R575, R576) -/

def State.frameDropped (s : State) : State := s.bump (Reg.trlCnt 6)

/-- The 64-byte item of an ITEM frame: its tag and 48 body bytes (R575). -/
def itemOf (f : Frame) : Item :=
  let w := fun i => wordAt f.body (8 * i)
  ⟨f.head.tag0, f.head.tag1, w 0, w 1, w 2, w 3, w 4, w 5⟩

/-- Report a refused tag to the source module's ERR_QUEUE (R576, R585). -/
def State.reportTag (s : State) (f : FrameHead) (code : Nat) : State :=
  s.send f.src 0 (.refused (s.field Reg.trlControl 8 0) [f.tag0, f.tag1, fld 47 40 f.stream ||| fld 15 0 code])

/-- Who sent a frame, among the senders of R39: a stream of another module. -/
def frameSender (f : FrameHead) : Nat := 1 + f.src * 256 + f.stream

/-- Give the frame's credits back. -/
def State.frameGone (s : State) (p : Nat) (f : FrameHead) : State := s.giveCredits p f.vc f.credits

/-- Forward a frame for another module, unchanged, or drop one whose destination the map does not have (R565). -/
def State.forward (s : State) (p : Nat) (f : FrameHead) : State :=
  let s := s.frameGone p f
  (s.iff (s.ringDist f.dest).isSome fun s => s.bump (Reg.trlCnt 5)).sendFrame f

/-- ITEM_FRAME (R565, R575, R576, R585). -/
def execItemFrame (port : Fin 8) (frame : Frame) (s : State) : Host.Outcome State Fault Refusal :=
  gate s fun s =>
    let s := s.wake
    let p := port.val
    let h := frame.head
    if h.dest ≠ s.self then s.forward p h
    else if h.mtype ≠ 0 || h.bodyLen ≠ 48 then (s.frameGone p h).frameDropped
    else if tagBad h.tag1 then ((s.frameGone p h).frameDropped).reportTag h Code.invalidField
    else
      let r := s.arriveItem h.queue h.prio (frameSender h) (itemOf frame) false (some p)
      if r.1 = 0 then r.2
      else if r.1 = Code.queueDisabled then r.2.frameDropped
      else r.2.reportTag h r.1

/-- LARDER_DATA_FRAME (R565, R575, R576, R585): the bytes are written, and the LAST frame raises the tally. -/
def execLarderDataFrame (port : Fin 8) (frame : Frame) (s : State) : Host.Outcome State Fault Refusal :=
  gate s fun s =>
    let s := s.wake
    let p := port.val
    let h := frame.head
    let n := h.bodyLen
    let key := seqKey (frameSender h) 15 h.cls
    if h.dest ≠ s.self then s.forward p h
    else
      let s := s.frameGone p h
      let e := s.epochCode (tagEpoch h.tag1)
      if h.mtype ≠ 1 || n < 128 || 65536 < n || n % 128 ≠ 0 || larderBytes < 128 * h.la + n then s.frameDropped
      else if tagBad h.tag1 then s.frameDropped.reportTag h Code.invalidField
      else if e = Code.staleMap then s.bump (Reg.fabCnt 4)
      else if e ≠ 0 then s.reportTag h e
      else if s.duplicate key h.tag1 then s
      else
        let s := (s.noteSeq key h.tag1).writeBytes (larderAddr h.die (128 * h.la)) (frame.body.take n)
        s.iff (bit h.tag1 40) fun s => s.raise h.tally

end Sys2Proof.Machine
end

