-- ==== Sys2Proof/Machine/Fabric.lean ====
section
/-! DEFINITION. Fabric ports, composition maps and charging (R578 to R590). -/

namespace Sys2Proof.Machine

open Sys2Proof

/-! ### Accesses (R579 to R582) -/

/-- A failed access (R582): the page move it serves meets a transfer fault, a cut is aborted. -/
def State.accessFailed (s : State) (a : FabAcc) : State :=
  match a.use with
  | .ferry page => s.ferryFault page (if a.write then .destWrite else .sourceRead)
  | .snap _ => s.abortCut Code.snapPool
  | .ahead .. => s
  | .dropped => s

/-- FABRIC_COMPLETION (R579, R580, R582): the access leaves the tracker and its page is counted; poison or an error fails it. -/
def execFabricCompletion (id : Nat) (ok : Bool) (s : State) : Host.Outcome State Fault Refusal :=
  gate s fun s =>
    match s.fab.accs.find? fun a => a.id = id && a.issued with
    | none => s
    | some a =>
      let s := s.dropAccs fun x => x.id = id
      if ok then (s.countPool .pool a.write 65536).fillAhead a else s.accessFailed a

/-- FABRIC_TIMEOUT (R582). -/
def execFabricTimeout (id : Nat) (s : State) : Host.Outcome State Fault Refusal :=
  gate s fun s =>
    match s.fab.accs.find? fun a => a.id = id && a.issued with
    | none => s
    | some a =>
      if s.now < a.sinceNs + usec (s.field Reg.fabControl 63 48) then s
      else (s.dropAccs fun x => x.id = id).accessFailed a

/-- FABRIC_CAS_COMPLETE (R581): the swap returns the old value, and has written when that was the expected one. -/
def execFabricCasComplete (addr expected value old : Word) (s : State) : Host.Outcome State Fault Refusal :=
  gate s fun s =>
    if s.casCode addr ≠ 0 then s
    else
      let hit := old = expected
      (s.writeWord (poolAddr addr.toNat) (if hit then value else old)).countCas hit

/-! ### Links (R579, R597, R693) -/

/-- FABRIC_LINK_DOWN (R693): a port losing its link is one LINK fault. -/
def execFabricLinkDown (port : Fin 4) (s : State) : Host.Outcome State Fault Refusal :=
  gate s fun s =>
    let k := Reg.fabPort port.val
    if bit (s.reg k) 63 then
      ((s.setField k 63 63 0).bump (Reg.fltCnt 5)).event Code.fabError 3 (4 + port.val / 2) (24 + port.val) 0 0
        (BitVec.ofNat 64 port.val)
    else s

/-- FABRIC_LINK_UP (R579, R597): the port rejoins the choice of each segment once that segment's outstanding accesses are
complete. -/
def execFabricLinkUp (port : Fin 4) (width : Fin 3) (slow : Bool) (s : State) : Host.Outcome State Fault Refusal :=
  gate s fun s =>
    let k := Reg.fabPort port.val
    s.setReg k (setBits (setBits (setBits (s.reg k) 63 63 1) 62 61 width.val) 60 60 (bnat slow))

/-- The DEPTH of R588 for a mean page-read latency in nanoseconds. -/
def State.prefetchDepth (s : State) (meanNs : Nat) : Nat :=
  let k := Reg.fabPrefetch
  if s.field k 63 63 = 1 then s.field k 39 32
  else min (s.field k 23 16) (max (s.field k 31 24) (ceilDiv (meanNs * 120) 65536 + s.field k 15 8))

/-- PREFETCH_INTERVAL (R588): every 100 µs; the change of one port may let waiting reads go. -/
def execPrefetchInterval (port : Fin 4) (meanNs : Nat) (s : State) : Host.Outcome State Fault Refusal :=
  gate s fun s => s.periodic (tickPrefetch + port.val) 100000 fun s =>
    let k := Reg.fabPort port.val
    let d := s.prefetchDepth meanNs
    if s.field k 7 0 = d then s else ((s.setField k 7 0 d).bump (Reg.fabCnt 7)).pumpFab

/-! ### Charging (R590, R599) -/

/-- The word i of the record HEAD names. -/
def State.chargeKey (s : State) (i : Nat) : Nat := Reg.pltChargeRec (8 * s.field Reg.pltCharge 3 0 + i)

/-- Open the record HEAD names for the map in effect. -/
def State.openCharge (s : State) : State :=
  let m := s.comp.map
  [fld 63 48 m.epoch.toNat ||| fld 35 32 m.modules ||| fld 31 0 m.chargeId.toNat, BitVec.ofNat 64 s.now, 0, 0, 0, 0, 0, 0].zipIdx.foldl
    (fun s x => s.setReg (s.chargeKey x.2) x.1) s

/-- Close the open record and open the next. -/
def State.turnCharge (s : State) : State :=
  let s := s.setReg (s.chargeKey 2) (BitVec.ofNat 64 s.now)
  (s.setField Reg.pltCharge 3 0 (s.field Reg.pltCharge 3 0 + 1)).openCharge

/-- CHARGE_TICK (R590): every 1 ms, once a map is in effect. -/
def execChargeTick (s : State) : Host.Outcome State Fault Refusal :=
  gate s fun s =>
    if !s.loaded then s
    else s.periodic tickCharge 1000000 fun s =>
      let pages := sumNat ((s.comp.map.segs.filter fun x => x.2.valid).map fun x => x.2.pages)
      ((s.bump (s.chargeKey 3)).bumpBy (s.chargeKey 4) pages).bumpBy (s.chargeKey 5) (s.comp.map.modules - 1)

/-! ### Composition (R583 to R587) -/

/-- Segment entry g of a map (R583). -/
def segOf (bs : List Byte) (g : Nat) : PoolSeg :=
  let a := wordAt bs (0x40 + 32 * g)
  { valid := bit a 63, atomic := bit a 62, ports := bits a 59 56, dpid := bits a 55 44, pages := bits a 31 0
    devBase := wordAt bs (0x48 + 32 * g), atomicBase := wordAt bs (0x50 + 32 * g) }

/-- The map that the bytes of R583 spell; segments that are not valid are left out. -/
def CompMap.ofBytes (bs : List Byte) : CompMap :=
  let w := wordAt bs 0
  { kindOk := bits w 63 48 = 0xC3A9 && bits w 47 32 = 1
    epoch := BitVec.ofNat 16 (bits w 31 16), modules := bits w 15 12, ringPos := bits w 11 9
    chargeId := BitVec.ofNat 32 (bits (wordAt bs 8) 31 0)
    peers := ((List.range 6).map fun k => bits (wordAt bs 0x10) (10 * k + 9) (10 * k)) ++
      [bits (wordAt bs 0x18) 9 0, bits (wordAt bs 0x18) 19 10]
    segs := (List.range 256).filterMap fun g => if (segOf bs g).valid then some (g, segOf bs g) else none }

/-- The peers a map names. -/
def ringOf (m : CompMap) : List Nat := m.peers.take m.modules

/-- A map by itself and against this module: the MAP_INVALID checks of R584. -/
def State.mapInvalid (s : State) (m : CompMap) : Bool :=
  let p := SMap.get {} m.segs s.dirPool
  !m.kindOk || m.modules = 0 || 8 < m.modules || m.modules ≤ m.ringPos || m.peers.length < m.modules ||
    m.peers.getD m.ringPos 0 ≠ s.self || !newer s.comp.map.epoch m.epoch ||
    (s.dirPool ≠ 0xFF && !(p.valid && p.atomic))

/-- A segment homes pages. -/
def State.segHomes (s : State) (g : Nat) : Bool :=
  s.tsm.leaf.any fun x => x.2.v && x.2.tier = .pool && x.2.loc / 2 ^ 32 = g

/-- A segment belongs to a group with a cut in progress. -/
def State.segInCut (s : State) (g : Nat) : Bool :=
  (List.range 256).any fun k => s.cutInto k && (s.ckGroup k).used.contains g

/-- The segments whose entries two maps give differently. -/
def changedSegs (a b : CompMap) : List Nat :=
  (List.range 256).filter fun g => SMap.get {} a.segs g ≠ SMap.get {} b.segs g

/-- 0, or the refusal of R584. -/
def State.mapCode (s : State) (m : CompMap) : Nat :=
  if s.mapInvalid m then Code.mapInvalid
  else if (changedSegs s.comp.map m).any fun g => s.segHomes g || g = s.dirPool || s.segInCut g then Code.segInUse
  else if ringOf m ≠ ringOf s.comp.map && (s.hmp.dir.any fun x => x.2.state ≠ .free) then Code.mapRingBusy
  else 0

/-- RECOMPOSE (R584, R668): an accepted map waits for the step boundary. -/
def execRecompose (cmd : Nat) (map : Option (List Byte)) (s : State) : Host.Outcome State Fault Refusal :=
  hostCmd cmd 0x05 s fun c s =>
    if s.comp.next.isSome then s
    else
      match map with
      | none => s.complete c.id Code.hostDma 0 0
      | some bs =>
        let m := CompMap.ofBytes bs
        let code := s.mapCode m
        if code ≠ 0 then s.complete c.id code 0 0
        else { s.began c.id with comp.next := some m, comp.nextBytes := bs.take 65536, comp.nextCmd := some c.id }

/-- RECORD_LOG2 of a directory header word, when KIND and VERSION are right (R125). -/
def dirLogOf (w : Word) : Option Nat := if bits w 63 48 = 0xD1C0 && bits w 47 32 = 1 then some (bits w 5 0) else none

/-- Read the directory header at an install whose DIR_POOL segment is valid (R125). -/
def State.readDir (s : State) (w : Word) : State :=
  { s with hmp.dirLog := if s.dirPool ≠ 0xFF && (s.seg s.dirPool).valid then dirLogOf w else none }

/-- Held items whose epoch has come enter again in order of arrival (R585). -/
def rearrive : List HeldItem → State → State
  | [], s => s
  | h :: hs, s => rearrive hs (s.arriveItem h.queue h.prio h.sender h.item h.bad h.port).2

/-- Every trail port goes DOWN and restarts bring-up (R587). -/
def State.restartPorts (s : State) : State :=
  let s := (List.range 8).foldl (fun s p => s.portDown p Code.trailDown) s
  (List.range 8).foldl (fun s p => s.bringUp p) s

/-- MAP_INSTALL (R572, R585, R587, R590): between steps, the waiting map takes effect, ports that MISWIRE locked are unlocked, and
the former map drains; `dirHeader` is the directory header word as read. -/
def execMapInstall (dirHeader : Word) (s : State) : Host.Outcome State Fault Refusal :=
  gate s fun s =>
    match s.comp.next with
    | none => s
    | some m =>
      if s.fw.cur.isSome then s
      else
        let near := (s.neighbour true, s.neighbour false)
        let cmd := s.comp.nextCmd
        let held := s.comp.held
        let s := s.setTabBytes (65536 * s.field Reg.fabControl 35 0) s.comp.nextBytes
        let s := { s with
          comp.map := m
          comp.nextBytes := []
          comp.old := some s.comp.map
          comp.drainSince := s.now
          comp.drainNs := msec (s.field Reg.fabControl 47 42)
          comp.next := none
          comp.nextCmd := none
          comp.held := [] }
        let s := (List.range 8).foldl (fun s p => s.setField (Reg.trlPort p) 61 61 0) (s.readDir dirHeader)
        let s := if (s.neighbour true, s.neighbour false) ≠ near then s.restartPorts else s
        ((rearrive held s).turnCharge).reply cmd 0 (BitVec.ofNat 64 m.epoch.toNat) 0

/-- DRAIN_END (R585). -/
def execDrainEnd (s : State) : Host.Outcome State Fault Refusal :=
  gate s fun s => if s.comp.drainSince + s.comp.drainNs ≤ s.now then { s with comp.old := none } else s

/-- A held item is refused with EPOCH_AHEAD: its frame's credits return, and its sender hears of it (R576, R585). -/
def State.refuseHeld (s : State) (h : HeldItem) : State :=
  match h.port with
  | none => s
  | some p =>
    (s.giveCredits p 0 2).reportTag
      { itemHead s.self ((h.sender - 1) / 256) ((h.sender - 1) % 256) h.prio h.queue with tag0 := h.item.w0, tag1 := h.item.w1 }
      Code.epochAhead

/-- HELD_ITEM_TIMEOUT (R585). -/
def execHeldItemTimeout (s : State) : Host.Outcome State Fault Refusal :=
  gate s fun s =>
    let out := s.comp.held.filter fun h => h.untilNs ≤ s.now
    let s := { s with comp.held := s.comp.held.filter fun h => s.now < h.untilNs }
    out.foldl (fun s h => s.refuseHeld h) s

end Sys2Proof.Machine
end

