-- ==== Sys2Proof/Machine/Steps.lean ====
section
/-! DEFINITION. Steps: the batch, sampling, speculative decoding, commit, deadlines (R354 to R367, R394, R410 to R413, R763 to
R765). -/

namespace Sys2Proof.Machine

open Sys2Proof

/-! ### The batch (R354 to R356) -/

/-- The modules of the node in ring order. -/
def State.parts (s : State) : List Nat := s.comp.map.peers.take s.comp.map.modules

/-- The modules that take part in a session's steps (R187). -/
def State.partsOf (s : State) (slot : Nat) : List Nat := if s.partLocal (s.dir slot).model then [s.self] else s.parts

/-- FOLD_KEY: ORIGIN of the owner of the session's shared spans (R355). -/
def State.foldKey (s : State) (slot : Nat) : Word :=
  match (List.range (s.hdr slot).spans).find? fun n => (s.span slot n).shared with
  | none => 0
  | some n => ((s.ownerOf slot n).map fun o => (s.hdr o).origin).getD 0

/-- Draft tokens of the next step (R365, R412). -/
def State.draftCount (s : State) (r : ReqRec) : Nat :=
  let left := r.item.maxNew - r.newDone
  if r.state ≠ .decode then 0
  else if r.fallback then min (s.field Reg.ctlDeadline 47 44) (left - 1)
  else if r.item.specEn then min r.item.depth (left - 1)
  else 0

/-- Positions a ring prefill takes of a request's input (R358); 0 when it does not apply. -/
def State.ringCount (s : State) (r : ReqRec) : Nat :=
  let left := r.feed.length - r.fed
  let lim := s.field Reg.ctlStep 18 0
  let u := 512 * s.comp.map.modules
  if r.state = .prefill && 0 < lim && lim ≤ left && (s.hdr r.slot).commitLen % 256 = 0 && !s.partLocal (s.dir r.slot).model
  then left / u * u else 0

/-- The entry a request offers (R355). -/
def State.entryOf (s : State) (r : ReqRec) : BatchEntry :=
  let k := s.draftCount r
  let e : BatchEntry := { session := (s.hdr r.slot).handle, pos := (s.hdr r.slot).commitLen, attn := bits r.item.w2 27 26,
                          fold := s.foldKey r.slot }
  if 0 < s.ringCount r then { e with qn := s.ringCount r, kind := .ring }
  else if r.state = .prefill then
    { e with qn := min (r.feed.length - r.fed) (s.field Reg.ctlStep 31 19), kind := .prefill }
  else if 0 < k then { e with qn := k + 1, kind := .verify }
  else { e with qn := 1, kind := .decode }

/-- The session's request waits on the recompute of a span (R194, R199, R200); the recompute of a span that recall items have met
absent holds nothing up (R198). -/
def State.rebuilding (s : State) (slot : Nat) : Bool := s.kvs.needed.any fun x => x.1 = slot

/-- Spans of a session below COMMIT_LEN that are DROPPED on this module, or on another by what it has told (R200). -/
def State.droppedBelow (s : State) (away : List (Nat × Nat)) (slot : Nat) : List Nat :=
  (List.range (ceilDiv (s.hdr slot).commitLen 256)).filter fun n => (s.span slot n).res = .dropped || away.contains (slot, n)

/-- A candidate of R355. -/
def State.isCand (s : State) (r : ReqRec) : Bool :=
  (r.state = .prefill || r.state = .decode) && !r.cancel && r.failed = 0 && !r.ended && (s.dir r.slot).state = .active
    && !s.busy r.slot && !s.rebuilding r.slot

/-- Candidates in order of PRIO, then of the session's LAST_NS. -/
def State.candBefore (s : State) (a b : ReqRec) : Bool :=
  a.item.prio < b.item.prio || (a.item.prio = b.item.prio && (s.dir a.slot).lastNs ≤ (s.dir b.slot).lastNs)
def State.insertReq (s : State) (x : Nat × ReqRec) : List (Nat × ReqRec) → List (Nat × ReqRec)
  | [] => [x]
  | y :: ys => if s.candBefore x.2 y.2 then x :: y :: ys else y :: s.insertReq x ys
def State.cands (s : State) : List (Nat × ReqRec) := (s.fw.reqs.filter fun x => s.isCand x.2).foldr s.insertReq []

/-- The procedure of R355 over the sorted candidates. -/
def State.assembleLoop (s : State) : List (Nat × ReqRec) → Nat → List (Nat × BatchEntry)
  | [], _ => []
  | x :: xs, budget =>
    let e := s.entryOf x.2
    if budget < e.qn then s.assembleLoop xs budget else (x.1, e) :: s.assembleLoop xs (budget - e.qn)

/-- A sub-batch: a ring prefill forms a step of its own (R358). -/
def State.assemble (s : State) : List (Nat × BatchEntry) :=
  match s.cands with
  | [] => []
  | x :: xs =>
    if 0 < s.ringCount x.2 then [(x.1, s.entryOf x.2)]
    else s.assembleLoop ((x :: xs).filter fun y => s.ringCount y.2 = 0) (s.field Reg.ctlStep 47 32)

/-- The order of R356: FOLD_KEY ascending with 0 last, then SESSION. -/
def entryBefore (a b : BatchEntry) : Bool :=
  let k := fun (e : BatchEntry) => if e.fold = 0 then 2 ^ 64 else e.fold.toNat
  k a < k b || (k a = k b && a.session.toNat ≤ b.session.toNat)
def insertEntry (x : BatchEntry) : List BatchEntry → List BatchEntry
  | [] => [x]
  | y :: ys => if entryBefore x y then x :: y :: ys else y :: insertEntry x ys
def mergeBatch (es : List BatchEntry) : List BatchEntry := es.foldr insertEntry []

/-- An entry as its 24 bytes (R355). -/
def kindCode : BatchKind → Nat
  | .decode => 0
  | .verify => 1
  | .prefill => 2
  | .ring => 3
def entryWords (e : BatchEntry) : List Word :=
  [e.session, fld 63 32 e.pos ||| fld 31 19 e.qn ||| fld 18 17 (kindCode e.kind) ||| fld 16 15 e.attn, e.fold]

/-- A sub-batch as XFER items of two entries each, the last with LAST = 1; an empty one is one item (R355). -/
def subItems (n : BitVec 32) : List BatchEntry → List Msg
  | a :: b :: c :: es => .subItem false n (entryWords a ++ entryWords b) :: subItems n (c :: es)
  | es => [.subItem true n (es.flatMap entryWords)]

/-- The session-parameter item of an entry homed here (R763). -/
def State.paramsOf (s : State) (n : BitVec 32) (i : Nat) : Msg :=
  match SMap.lookup s.fw.reqs i with
  | none => .params 0 n []
  | some r =>
    let ad := (s.hdr r.slot).adapter
    .params (s.hdr r.slot).handle n [ad.getD 1 0, ad.getD 3 0,
      fld 63 45 (bits r.item.w6 63 45) ||| fld 44 44 (bits (ad.getD 0 0) 31 31) ||| fld 43 43 (bits (ad.getD 2 0) 31 31), 0, 0, 0]

/-! ### Deadlines (R410, R411) -/

def State.stepEst (s : State) (m : Nat) : Nat := s.field (Reg.ctlStepEst m) 31 0
/-- Fallback is usable (R411). -/
def State.fallbackOk (s : State) : Bool := s.field Reg.ctlDeadline 47 44 ≠ 0 && s.draftOk

/-- The deadline monitor on one request (R410). -/
def State.monitor (s : State) (i : Nat) : State :=
  match SMap.lookup s.fw.reqs i with
  | none => s
  | some r =>
    let d := r.item.deadline
    let t := s.stepEst (s.dir r.slot).model
    let g := 1000 * s.field Reg.ctlDeadline 63 48
    let f := s.now + ceilDiv (65536 * (r.item.maxNew - r.newDone)) r.rate * t
    if r.state ≠ .decode || d = 0 then s
    else if r.fallback then
      if f + 2 * g ≤ d || (d ≤ s.now && !bit (s.reg Reg.ctlDeadline) 43) then s.setReq i { r with fallback := false } else s
    else if t = 0 || !(d < f + g && s.now < d) then s
    else if s.fallbackOk then (s.setReq i { r with fallback := true }).bump (Reg.ctlCnt 12)
    else s.bump (Reg.ctlCnt 15)

/-! ### The step boundary (R354, R372, R373, R763) -/

/-- Bind a candidate's adapters and check its length (R118, R372, R373); a request with ATTN = EXACT waits until every span of its
session that is DROPPED below COMMIT_LEN is rebuilt (R200). -/
def State.prepReq (away : List (Nat × Nat)) (s : State) (i : Nat) : State :=
  match SMap.lookup s.fw.reqs i with
  | none => s
  | some r =>
    if !s.isCand r then s
    else if bits r.item.w2 27 26 = 1 && !(s.droppedBelow away r.slot).isEmpty then
      (s.droppedBelow away r.slot).foldl (fun s n => s.wantSpan true r.slot n) s
    else
      match s.bindAdapters r.slot r.item.pinAdapter with
      | .error c => s.setReq i { r with failed := c }
      | .ok s =>
        let e := s.entryOf r
        if (s.hdr r.slot).maxTokens < e.pos + e.qn then s.setReq i { r with failed := Code.lengthLimit } else s

/-- Everything firmware does with open requests at a step boundary before it assembles a batch. -/
def State.boundaryWork (s : State) (away : List (Nat × Nat)) : State :=
  (((((s.eachReq State.unitReq).eachReq State.settleReq).eachReq State.rationReq).eachReq State.closeReq).eachReq
    State.monitor).eachReq (State.prepReq away) |>.eachReq State.closeReq

/-- A cut waits for the mark of the step just committed (R509). -/
def State.cutWaits (s : State) : Bool :=
  match s.snp.cur with
  | some c => c.phase = .waiting && c.step = s.fw.step
  | none => false

/-- The next step may be prepared. -/
def State.atBoundary (s : State) : Bool :=
  s.fw.cur.isNone && s.fw.sent.isNone && s.plat.parkedSince.isNone && s.loaded && !s.cutWaits

/-- The span request that opens the range of a ring prefill (R211). -/
def State.openItem (s : State) (slot pos n : Nat) : Item :=
  { s.spanItem slot (pos / 256) 0 with w2 := fld 63 32 (pos / 256) ||| fld 31 0 (n / 256), w4 := fld 7 4 Tier.dram.code }

/-- Mark a request as included in the step being sent; before a ring prefill every span of its range is opened on every module, and
SPEC_LEN is raised (R211). -/
def State.include_ (s : State) (x : Nat × BatchEntry) : State :=
  match SMap.lookup s.fw.reqs x.1 with
  | none => s
  | some r =>
    let s := s.setReq x.1 { r with inStep := true }
    s.iff (x.2.kind = .ring) fun s =>
      let it := s.openItem r.slot x.2.pos x.2.qn
      let s := (s.sendAll 4 (.spanRequest it)).askSpan it .none
      s.setHdr r.slot { s.hdr r.slot with specLen := x.2.pos + x.2.qn }

/-- Records as read for the revives that requests wait for (R120 step 2, R133). -/
def State.seeOrigins (s : State) (seen : List (Word × PoolRec)) : State := seen.foldl (fun s x => s.seeOrigin x.1 (some x.2)) s

/-- STEP_BOUNDARY (R354 to R355, R372, R373, R410, R763): ends, rations, deadlines and adapters are settled; the sub-batch and
its parameters go to the other modules.  `seen` are the pool directory records, by ORIGIN, of the sessions that a request revives;
`away` are the spans, by slot and number, that other modules of the node hold DROPPED. -/
def execStepBoundary (seen : List (Word × PoolRec)) (away : List (Nat × Nat)) (s : State) : Host.Outcome State Fault Refusal :=
  gate s fun s =>
    if !s.atBoundary then s
    else
      let s := (s.seeOrigins seen).boundaryWork away
      let l := s.assemble
      let n := s.fw.step + 1
      let s := l.foldl State.include_ s
      let out := l.filter fun x => !s.partLocal (s.dir (hSlot x.2.session)).model
      let s := (subItems n (out.map (·.2))).foldl (fun s m => s.sendAll 7 m) s
      let s := out.foldl (fun s x => s.sendAll 7 (s.paramsOf n x.1)) s
      { s with
        fw.sent := some (n, s.now)
        fw.subs := s.fw.subs ++ [SubBatch.mk n s.self (l.map (·.2)) true] }

/-- SUB_BATCH (R354, R355): entries of another module's sub-batch, the last with LAST = 1. -/
def execSubBatch (step : BitVec 32) (module : Nat) (entries : List BatchEntry) (last : Bool) (s : State) :
    Host.Outcome State Fault Refusal :=
  gate s fun s =>
    if !newer s.fw.step step || module = s.self || !s.parts.contains module then s
    else
      match s.fw.subs.find? fun b => b.step = step && b.module = module with
      | none => { s with fw.subs := s.fw.subs ++ [SubBatch.mk step module entries last] }
      | some b =>
        if b.whole then s
        else { s with fw.subs := s.fw.subs.map fun (x : SubBatch) =>
          if x.step = step && x.module = module then { x with entries := x.entries ++ entries, whole := last } else x }

/-- SESSION_PARAMETERS (R763). -/
def execSessionParameters (step : BitVec 32) (params : StepParams) (s : State) : Host.Outcome State Fault Refusal :=
  gate s fun s =>
    if !newer s.fw.step step || s.fw.params.contains (step, params) then s
    else { s with fw.params := s.fw.params ++ [(step, params)] }

/-! ### Beginning a step (R360, R364, R365, R764) -/

/-- The drafts of an entry; those not given are free values. -/
def padDrafts (k : Nat) (given : List Nat) (s : State) : List Nat × State :=
  let g := given.take k
  let n := k - g.length
  let base := s.free
  (g ++ (List.range n).map fun i => Config.draw (base + i) % 2 ^ 18, { s with free := base + n })

/-- Write token log entries (R112, R360). -/
def putEntries (slot : Nat) : Nat → List (BitVec 32) → State → State
  | _, [], s => s
  | p, e :: es, s => putEntries slot (p + 1) es { s with hmp.log := SMap.put s.hmp.log (slot * 2 ^ 24 + p) e }

/-- The draft passes before a verify step (R364, R365): a session without a companion, a taken or restored one, first gets one that a draft
prefill of the committed log fills; the passes then write the positions from COMMIT_LEN on. -/
def State.draftPasses (s : State) (slot pos k : Nat) : State :=
  let s := if (SMap.lookup s.fw.companions slot).isSome then s
    else (s.openCompanion slot).onCompanion slot fun h => { h with commitLen := pos, specLen := pos }
  s.onCompanion slot fun h => { h with specLen := pos + k }

/-- The companion's lengths after its target's step (R367): COMMIT_LEN is the smaller of the target's and what the companion has
written. -/
def State.endPasses (s : State) (slot written : Nat) : State :=
  let c := (s.hdr slot).commitLen
  s.onCompanion slot fun h => { h with commitLen := min c written, specLen := min c written }

/-- Begin an entry on this module: SPEC_LEN, and at the home the token log, the drafts and LAST_STEP. -/
def State.beginEntry (s : State) (n : BitVec 32) (drafts : List (Word × List Nat)) (e : BatchEntry) : State :=
  let slot := hSlot e.session
  if s.handleCode e.session ≠ 0 then s
  else
    let s := s.setHdr slot { s.hdr slot with specLen := e.pos + e.qn }
    match s.openReq? slot with
    | none => s
    | some (i, r) =>
      if hModule e.session ≠ s.self then s
      else
        let given := ((drafts.find? fun x => x.1 = e.session).map (·.2)).getD []
        let q := padDrafts (if e.kind = .verify then e.qn - 1 else 0) given s
        let s := q.2
        let next := mkEntry ((s.hdr slot).next.getD 0) 1 (s.fw.lateNext.contains slot) false
        let es := match e.kind with
          | .prefill => (r.feed.drop r.fed).take e.qn
          | .ring => (r.feed.drop r.fed).take e.qn
          | .decode => [next]
          | .verify => next :: q.1.map fun t => mkEntry t 1 false r.fallback
        let s := s.iff (e.kind = .verify) fun s => s.draftPasses slot e.pos q.1.length
        let s := (putEntries slot e.pos es s).bumpBy (Reg.ctlCnt 4) (if r.lastStep = n then 0 else q.1.length)
        s.setReq i { r with drafts := q.1, inStep := true, lastStep := n }

/-- Every sub-batch and parameter item of step n is here (R354, R763), and no OPEN of a ring prefill's range awaits the span engine
(R211). -/
def State.batchReady (s : State) (n : BitVec 32) : Bool :=
  !(s.kvs.asks.any fun a => spanOp a.item = 0) && (s.parts.all fun m => s.fw.subs.any fun b => b.step = n && b.module = m && b.whole) &&
    (s.fw.subs.filter fun b => b.step = n && b.module ≠ s.self).all fun b => b.entries.all fun e =>
      s.fw.params.any fun p => p.1 = n && p.2.session = e.session

/-- How this module builds an entry's attention items (R226, R763): the request's own TOP_K and NEWEST when it overrides, else the
defaults of KVS.ATTN, and the bodies it names. -/
def State.planOf (s : State) (n : BitVec 32) (e : BatchEntry) : AttnPlan :=
  let p : Option StepParams :=
    if hModule e.session = s.self then
      (s.openReq? (hSlot e.session)).map fun x =>
        let ad := (s.hdr (hSlot e.session)).adapter
        let w := x.2.item.w6
        { session := e.session, steerBody := ad.getD 1 0, expBody := ad.getD 3 0, topK := bits w 63 54, newest := bits w 53 46
          override := bit w 45, steerEn := bit (ad.getD 0 0) 31, expEn := bit (ad.getD 2 0) 31 }
    else (s.fw.params.find? fun p => p.1 = n && p.2.session = e.session).map (·.2)
  let own := p.getD {}
  { session := e.session, attn := e.attn
    topK := if own.override then own.topK else s.field Reg.kvsAttn 21 12
    newest := if own.override then own.newest else s.field Reg.kvsAttn 11 4
    steer := if own.steerEn then some own.steerBody else none
    exp := if own.expEn then some own.expBody else none }

/-- Run a step over a batch: its first time, or again after an abort (R685). -/
def State.runStep (s : State) (r : StepRun) (drafts : List (Word × List Nat)) : State :=
  let s := r.batch.foldl (fun s e => s.beginEntry r.n drafts e) s
  let mine := (r.batch.filter fun e => hModule e.session = s.self).map (·.session)
  let other := (r.batch.filter fun e => hModule e.session ≠ s.self && s.handleCode e.session = 0).map (·.session)
  { s with
    fw.step := r.n
    hmp.batch := r.batch.map fun e => hSlot e.session
    fw.cur := some { r with plans := r.batch.map (s.planOf r.n), open_ := mine, shards := other, reports := [], logits := [], acks := [], aborted := false } }

/-! ### Sampling (R362, R366, R412) -/

/-- What sampling reads (R361): automaton state, EOS, temperature, penalty and the tokens it covers, and the limits of the nucleus. -/
structure Sampler where
  gram : Option (Grammar × Gram) := none
  entries : Nat := 0
  eos : Nat := 0
  temp : F32 := 0
  penalty : F32 := 0
  recent : List Nat := []
  topK : Nat := 0
  topP : F32 := 0
  minP : F32 := 0
  deriving DecidableEq, Repr

def Sampler.allows (p : Sampler) (t : Nat) : Bool :=
  match p.gram with
  | none => true
  | some (g, q) => gramAllows g p.entries p.eos q t

def Sampler.advance (p : Sampler) (t : Nat) : Except Nat Sampler :=
  match p.gram with
  | none => .ok p
  | some (g, q) =>
    match gramStep g p.eos q t with
    | .error c => .error c
    | .ok q => .ok { p with gram := some (g, q) }

/-- TEMP = 0: the choice is greedy. -/
def Sampler.isGreedy (p : Sampler) : Bool := F32.val p.temp = .fin false 0 || F32.val p.temp = .fin true 0

/-- Step 2 of R362 on a logit: a positive one is divided by REP_PENALTY, a negative one multiplied by it, each rounded to a
neighbour (log entry 55). -/
def penalise (x pen : F32) : F32 :=
  if (F32.val 0).lt x.val then f32Near (x.val.div pen.val) (Config.penalized x pen)
  else if x.val.lt (F32.val 0) then f32Near (x.val.mul pen.val) (Config.penalized x pen)
  else x

/-- Steps 1 and 2 of R362: the tokens a mask allows with their logits, none standing for −infinity. -/
def Sampler.scores (p : Sampler) (logits : List F32) : List (Nat × Option FVal) :=
  (logits.zipIdx.filter fun x => p.allows x.2).map fun x =>
    let v := F32.val (if p.recent.contains x.2 && p.penalty ≠ f32One then penalise x.1 p.penalty else x.1)
    (x.2, match v with
      | .nan => none
      | .inf true => none
      | w => some w)

/-- The largest logit, the lowest token among equals (R362 step 3). -/
def greedy : List (Nat × Option FVal) → Option (Nat × FVal)
  | [] => none
  | (t, v) :: xs =>
    match v, greedy xs with
    | none, r => r
    | some a, none => some (t, a)
    | some a, some b => if a.lt b.2 then some b else some (t, a)

/-- Insert a token in the order of step 5: by decreasing probability, so by decreasing logit, then by token number. -/
def insertToken (x : Nat × FVal) : List (Nat × FVal) → List (Nat × FVal)
  | [] => [x]
  | y :: ys => if x.2.lt y.2 then y :: insertToken x ys else x :: y :: ys

/-- Weights of step 4 in the order of step 5, up to a common factor: equal for the tokens at +infinity and 0 for the others if there are
any, else e^(logit / TEMP − largest), each by the exponential of R248. -/
def Sampler.weights (p : Sampler) (l : List (Nat × Option FVal)) (free : Nat) : List (Nat × Nat) :=
  let r : List (Nat × FVal) := (l.filterMap fun x => x.2.map fun v => (x.1, v)).foldr insertToken []
  let top : FVal := (r.headD (0, FVal.nan)).2.div p.temp.val
  r.map fun x =>
    let w :=
      if top = .inf false then bnat (x.2 = .inf false)
      else match F32.val (f32Exp (f32Of ((x.2.div p.temp.val).add top.neg)) (Config.expValue (free + x.1))) with
        | .fin false m => m
        | _ => 0
    (x.1, w)

/-- A non-negative parameter as a count of 2^-300; no value counts as 0. -/
def magOf (x : F32) : Nat :=
  match x.val with
  | .fin false m => m
  | _ => 0

/-- The shortest prefix whose mass reaches TOP_P of the whole, or all of it (R362 step 5). -/
def nucleus (topP total : Nat) : Nat → List (Nat × Nat) → List (Nat × Nat)
  | _, [] => []
  | acc, x :: xs => if topP * total ≤ acc * 2 ^ 300 then [] else x :: nucleus topP total (acc + x.2) xs

/-- Tokens a draw may take (R362 steps 4 to 6): those that TOP_K, TOP_P and MIN_P keep, of a probability above 0. -/
def Sampler.kept (p : Sampler) (l : List (Nat × Option FVal)) (free : Nat) : List Nat :=
  let ws := p.weights l free
  let k := if p.topK = 0 then ws else ws.take p.topK
  let n := nucleus (magOf p.topP) (sumNat (ws.map (·.2))) 0 k
  let big := (ws.headD (0, 0)).2
  (n.filter fun x => 0 < x.2 && magOf p.minP * big ≤ x.2 * 2 ^ 300).map (·.1)

/-- One token from the logits of a position, and the tokens it was drawn from (R362), or the code.  A draw is free among the tokens it
may take. -/
def State.sample (s : State) (p : Sampler) (logits : List F32) : Except Nat (Nat × List Nat) × State :=
  let l := p.scores logits
  if l.isEmpty && p.gram.isSome then (.error Code.grammarDead, s)
  else
    match greedy l with
    | none => (.error Code.noCandidate, s)
    | some best =>
      if p.isGreedy then (.ok (best.1, [best.1]), s)
      else
        let k := p.kept l s.free
        let s := { s with free := s.free + 2 ^ 18 }
        let r := s.fresh
        (.ok (k.getD (Config.draw r.1 % k.length) best.1, k), r.2)

/-- Does the step take a draft at a position whose own token is `t`, drawn from `kept` (R366, R412)?  Above TEMP 0 a token that the
target cannot draw is refused, the only one that it can draw is taken, and else the probability decides, a free choice. -/
def takeDraft (force greedyStep : Bool) (t d : Nat) (kept : List Nat) (ch : Bool) : Bool :=
  force || (if greedyStep then t == d else kept.contains d && (kept.length = 1 || ch))

/-- R366 over the positions of a step: the accepted drafts and NEXT_TOKEN.  `force` is fallback (R412). -/
def acceptLoop (force : Bool) : List (List F32) → List Nat → Sampler → State → Except Nat (List Nat × Nat) × State
  | ls, [], p, s =>
    match s.sample p (ls.headD []) with
    | (.ok t, s) => (.ok ([], t.1), s)
    | (.error c, s) => (.error c, s)
  | ls, d :: ds, p, s =>
    match s.sample p (ls.headD []) with
    | (.error c, s) => (.error c, s)
    | (.ok t, s) =>
      let ch := s.fresh
      let take := takeDraft force p.isGreedy t.1 d t.2 (Config.choice ch.1)
      let s := if force || p.isGreedy then s else ch.2
      if take then
        match p.advance d with
        | .error c => (.error c, s)
        | .ok p =>
          match acceptLoop force (ls.drop 1) ds p s with
          | (.ok (a, n), s) => (.ok (d :: a, n), s)
          | r => r
      else (.ok ([], t.1), s)

/-- The sampler of a session (R361, R362). -/
def State.samplerOf (s : State) (slot : Nat) : Sampler :=
  let h := s.hdr slot
  let w := bits (h.sampler.getD 2 0) 15 0
  let lo := h.commitLen - w
  { gram := (s.gramOf slot).map fun x => (x.2.1, x.2.2)
    entries := ((s.vocab? h.vocab).map (·.entries)).getD 0
    eos := ((s.vocab? h.vocab).map (·.eos)).getD 0
    temp := BitVec.ofNat 32 (bits (h.sampler.getD 0 0) 63 32)
    penalty := BitVec.ofNat 32 (bits (h.sampler.getD 1 0) 31 0)
    topP := BitVec.ofNat 32 (bits (h.sampler.getD 0 0) 31 0)
    minP := BitVec.ofNat 32 (bits (h.sampler.getD 1 0) 63 32)
    topK := bits (h.sampler.getD 2 0) 45 28
    recent := (List.range (h.commitLen - lo)).map fun i => entryToken (SMap.get 0 s.hmp.log (slot * 2 ^ 24 + lo + i)) }

/-! ### Commit (R116, R117, R359, R363, R366, R367, R377, R413, R447, R765) -/

/-- Firmware detokenizes output for a message or a stop set (R445, R540): the tokens kept, the bytes sent, and whether a stop
string completed. -/
def State.detokOut (s : State) (r : ReqRec) (toks : List Nat) (final : Bool) : Nat × List Byte × Bool × State :=
  let h := s.hdr r.slot
  match s.vocab? h.vocab with
  | none => (toks.length, [], false, s)
  | some v =>
    if r.net.isNone && r.item.stopSet = 0xFFFF then (toks.length, [], false, s)
    else
      match detokLoop v (s.stopSet r.item.stopSet) final 0 toks h.holdBytes [] with
      | none => (toks.length, [], false, s)
      | some d =>
        let o := sanitize d.sent
        let s := s.setHdr r.slot (h.setHold d.held)
        let s := (s.bumpBy (Reg.txtCnt 2) o.1.length).bumpBy (Reg.txtCnt 3) o.2
        let s := s.iff d.stop.isSome fun s => s.bump (Reg.txtCnt 5)
        (d.used, o.1, d.stop.isSome, s)

/-- Firmware's ADVANCE with the tokens a session keeps (R457). -/
def State.advanceGram (s : State) (slot : Nat) (toks : List Nat) : Except Nat State :=
  match s.gramOf slot with
  | none => .ok s
  | some (n, g, p) =>
    let r := gramRun g (s.samplerOf slot).eos p toks
    match r.2 with
    | some (_, c) => .error c
    | none => .ok (s.setHdr slot ((s.hdr slot).setGram n (r.1.getLastD p)))

/-- The draws have used bits of the generator, whose sequence the module does not promise (R251, R362). -/
def State.stirRng (s : State) (slot : Nat) (p : Sampler) : State :=
  if p.isGreedy then s
  else
    let a := s.fresh
    let b := a.2.fresh
    let h := b.2.hdr slot
    b.2.setHdr slot { h with sampler := (h.sampler.set 3 (Config.undefWord a.1)).set 4 (Config.undefWord b.1) }

/-- Mark LATE on the kept tokens that the commit finishes in the log (R413). -/
def State.markLate (s : State) (slot lo n : Nat) : State :=
  (List.range n).foldl (fun s i =>
    let k := slot * 2 ^ 24 + lo + i
    { s with hmp.log := SMap.put s.hmp.log k (SMap.get 0 s.hmp.log k ||| BitVec.ofNat 32 (2 ^ 24)) }) s

/-- Commit the output of a step: `base` positions are committed before the accepted drafts, `drafts` are the accepted ones,
`next` the sampled token (R363, R366, R447, R765). -/
def State.commitOutput (s : State) (i : Nat) (r : ReqRec) (base : Nat) (acc : List Nat) (next : Nat) (inputs : Nat) : State :=
  let slot := r.slot
  let toks := acc ++ [next]
  let eos := (s.samplerOf slot).eos
  let e := (toks.findIdx? fun t => t = eos).map (· + 1)
  let toks1 := toks.take (e.getD toks.length)
  let full := r.item.maxNew ≤ r.newDone + toks1.length
  let d := s.detokOut r toks1 (e.isSome || full)
  let s := d.2.2.2
  let kept := toks1.take d.1
  let cut := e.isSome || d.2.2.1
  let inLog := min kept.length acc.length
  let pend := kept.length = toks.length
  let late := r.item.deadline ≠ 0 && r.item.deadline < s.now
  match s.advanceGram slot kept with
  | .error c =>
    let h := s.hdr slot
    (s.setHdr slot { h with specLen := h.commitLen }).setReq i { r with failed := c }
  | .ok s =>
    let h := s.hdr slot
    let c := base + inLog
    let s := s.setHdr slot ({ h with commitLen := c, specLen := c }.setNext (if pend then some next else none))
    let s := s.setDir slot { s.dir slot with lastNs := s.now }
    let s := s.iff late fun s => (s.markLate slot base inLog).bumpBy (Reg.ctlCnt 14) kept.length
    let ln := s.fw.lateNext.filter fun x => x ≠ slot
    let s := { s with fw.lateNext := if late && pend then ln ++ [slot] else ln }
    let s := s.iff r.fallback fun s => s.bumpBy (Reg.ctlCnt 13) inLog
    let s := s.charge r.item.customer inputs kept.length
    let rate := if r.fallback || r.state ≠ .decode then r.rate else (7 * r.rate + 65536 * kept.length) / 8
    let done := r.newDone + kept.length
    s.setReq i { r with
      state := if r.state = .prefill then .decode else r.state
      newDone := done
      firstNs := if r.firstNs = 0 then s.now else r.firstNs
      firstOut := if r.newDone = 0 then base else r.firstOut
      outBytes := d.2.1, outToks := kept.length, late := late, unverified := r.fallback && 0 < inLog, rate := rate
      ended := cut || r.item.maxNew ≤ done }

/-- The rounds of a session's ring prefill are over. -/
def State.endRing (s : State) (slot : Nat) : State := { s with cmp.rings := s.cmp.rings.filter fun x => x.slot ≠ slot }

/-- The session's step is discarded (R117), its ring prefill among it (R217). -/
def State.discardLen (s : State) (slot : Nat) : State :=
  let h := s.hdr slot
  ((s.setHdr slot { h with specLen := h.commitLen }).endRing slot).onCompanion slot fun h => { h with specLen := h.commitLen }

/-- Commit the input tokens of a prefill step (R359, R360). -/
def State.commitPrefill (s : State) (i : Nat) (r : ReqRec) (e : BatchEntry) (logits : List (List (BitVec 32))) : State :=
  let fed := r.fed + e.qn
  let inputs := e.qn - bnat (r.pend && r.fed = 0)
  let r := { r with fed := fed, inputDone := r.inputDone + inputs }
  let slot := r.slot
  let len := e.pos + e.qn
  let plain := fun (s : State) (r : ReqRec) =>
    let h := s.hdr slot
    let s := s.setHdr slot ({ h with commitLen := len, specLen := len }.setNext none)
    let s := (s.setDir slot { s.dir slot with lastNs := s.now }).charge r.item.customer inputs 0
    s.setReq i r
  if fed < r.feed.length then plain s r
  else if r.item.kind ≠ 0 || r.item.maxNew = 0 then plain s { r with ended := true }
  else
    let p := s.samplerOf slot
    match s.sample p (logits.getLastD []) with
    | (.error c, s) => (s.discardLen slot).setReq i { r with failed := c }
    | (.ok t, s) => (s.stirRng slot p).commitOutput i r len [] t.1 inputs

/-- Commit a decode or verify step (R359, R366, R367, R412). -/
def State.commitDecode (s : State) (i : Nat) (r : ReqRec) (e : BatchEntry) (logits : List (List (BitVec 32))) : State :=
  let slot := r.slot
  let p := s.samplerOf slot
  match acceptLoop r.fallback logits r.drafts p s with
  | (.error c, s) => (s.discardLen slot).setReq i { r with failed := c }
  | (.ok (acc, t), s) =>
    let s := (s.stirRng slot p).bumpBy (Reg.ctlCnt 5) acc.length
    let s := s.commitOutput i r (e.pos + 1) acc t 0
    if r.drafts.isEmpty then s else s.endPasses slot (e.pos + r.drafts.length)

/-- Firmware drops a poisoned span on a module that holds a poisoned page of it, and queues its recompute (R694, R174). -/
def State.dropPoisoned (s : State) (slot m n : Nat) : State :=
  let it := s.spanItem slot n 3
  (if m = s.self then s.askSpan it .none else s.send m 4 (.spanRequest it)).wantSpan true slot n

/-- A code by which an item's failure keeps the request open while a span is rebuilt (R194): an absent span, or a lost KV page. -/
def lostCode (code : Nat) : Bool := code = Code.poisoned || code = Code.sourceRead

/-- What the reports of other modules say of absent and poisoned spans (R194, R198, R694): recomputes are queued, and a poisoned span is
dropped where it is. -/
def State.reportedSpans (s : State) (slot code : Nat) (rs : List Report) : State :=
  rs.foldl (fun s r => r.spans.foldl (fun s n =>
    if lostCode r.status then s.dropPoisoned slot r.module n else s.wantSpan (code = Code.attnAbsent) slot n) s) s

/-- A session's step failed with a code (R194): the request stays open for an absent or lost span, else it ends FAILED. -/
def State.failSession (s : State) (slot code : Nat) : State :=
  let s := s.discardLen slot
  if code = Code.attnAbsent then s
  else if lostCode code && !s.tablePoisoned slot then
    (s.lostSpans slot).foldl (fun s n => s.dropPoisoned slot s.self n) s
  else s.failReq slot code

/-- The companion of a session whose request has a deadline is kept current, by draft passes over the committed positions that it lacks
(R411). -/
def State.keepCurrent (s : State) (slot : Nat) (r : ReqRec) : State :=
  if r.item.deadline = 0 || !s.fallbackOk then s
  else
    let c := (s.hdr slot).commitLen
    (s.draftPasses slot c 0).endPasses slot c

/-- The home module decides a session once every module has reported (R359): commit, or discard with the first nonzero
status; the length word then goes to every shard (R764). -/
def State.decideSession (s : State) (e : BatchEntry) (r : StepRun) : State :=
  let slot := hSlot e.session
  let own := (s.cmp.fails.find? fun x => x.1 = e.session).map (·.2)
  let rep := ((r.reports.find? fun x => x.session = e.session && x.status ≠ 0).map (·.status)).getD 0
  let code := own.getD rep
  let s := { s with cmp.fails := s.cmp.fails.filter fun x => x.1 ≠ e.session }
  let s := s.reportedSpans slot code (r.reports.filter fun x => x.session = e.session && x.module ≠ s.self)
  let lg := ((r.logits.find? fun x => x.1 = e.session).map (·.2)).getD []
  let s :=
    match s.openReq? slot with
    | none => s.discardLen slot
    | some (i, q) =>
      if code ≠ 0 then s.failSession slot code
      else
        (match e.kind with
          | .prefill => s.commitPrefill i q e lg
          | .ring => s.commitPrefill i q e lg
          | _ => s.commitDecode i q e lg).keepCurrent slot q
  let s := s.endRing slot
  let h := s.hdr slot
  s.sendAll 7 (.words 10 [e.session, fld 63 32 h.specLen ||| fld 31 0 h.commitLen])

/-- A request leaves the step: it ends if it is due, else its output goes out (R351, R540). -/
def State.leaveStep (s : State) (i : Nat) : State :=
  match SMap.lookup s.fw.reqs i with
  | none => s
  | some r =>
    if !r.inStep then s
    else
      let r := { r with inStep := false, drafts := [] }
      let s := s.setReq i r
      if r.failed ≠ 0 || r.cancel || r.ended then s.closeReq i else s.sendOutput i r

/-- Parks that waited for the step boundary (R119). -/
def State.doParks (s : State) : State :=
  let ps := s.hmp.parks
  ps.foldl (fun s x =>
    if (s.dir x.1).state = .active then s.parkNow x.1 x.2 else s.reply x.2 0 0 0) { s with hmp.parks := [] }

/-- Model slots with a session in a batch. -/
def State.batchModels (s : State) (es : List BatchEntry) : List Nat :=
  (es.map fun e => (s.dir (hSlot e.session)).model).eraseDups

/-- Smooth the estimate of step time (R410). -/
def State.smoothEst (s : State) (ns m : Nat) : State :=
  s.setField (Reg.ctlStepEst m) 31 0 (min (2 ^ 32 - 1) ((7 * s.stepEst m + ns) / 8))

/-- The step has ended on this module (R351, R359, R388, R410). -/
def State.stepEnd (s : State) (r : StepRun) : State :=
  let s := (s.batchModels r.batch).foldl (fun s m => s.smoothEst (s.now - r.sentNs) m) s
  let s := s.iff (!r.batch.isEmpty) fun s => s.bump (Reg.ctlCnt 3)
  let s := { s with fw.cur := none, hmp.batch := [], fw.params := s.fw.params.filter fun p => p.1 ≠ r.n }
  (s.eachReq State.leaveStep).doParks

/-- Put the step's record back, or end the step when nothing of it is left. -/
def State.stepProgress (s : State) (r : StepRun) : State :=
  if r.open_.isEmpty && r.shards.isEmpty then s.stepEnd r else { s with fw.cur := some r }

/-- STEP_BEGIN (R354, R357, R364, R365, R763, R764): with everything of step n here, the batch is formed and begun; `drafts` are
the draft model's proposals for the verify entries homed here. -/
def execStepBegin (drafts : List (Word × List Nat)) (s : State) : Host.Outcome State Fault Refusal :=
  gate s fun s =>
    match s.fw.sent with
    | none => s
    | some (n, t) =>
      if s.fw.cur.isSome || !s.batchReady n then s
      else
        let es := (s.fw.subs.filter fun b => b.step = n).flatMap (·.entries)
        let s := { s with fw.sent := none, fw.subs := s.fw.subs.filter fun b => b.step ≠ n, fw.stalled := false }
        let s := s.runStep { n := n, batch := mergeBatch es, sentNs := t } drafts
        match s.fw.cur with
        | none => s
        | some r => s.stepProgress r

/-- LIST_TIMEOUT (R357): the step does not begin, and STEP_STALL is raised. -/
def execListTimeout (s : State) : Host.Outcome State Fault Refusal :=
  gate s fun s =>
    match s.fw.sent with
    | none => s
    | some (n, t) =>
      if s.now < t + usec (s.field Reg.ctlStep 63 48) || s.batchReady n then s
      else
        let first := !s.fw.stalled
        let s := { s with fw.stalled := true, flt.stallSince := some (s.flt.stallSince.getD s.now) }
        s.iff first fun s => s.setAttn 3

/-- Scatters of a session that this module's movers have not completed (R116). -/
def State.scattering (s : State) (session : Word) : Bool :=
  s.cmp.dies.any fun d => d.2.xfers.any fun x => x.kind = .scatter && (List.range x.rl).any fun i =>
    (Desc.ofItem (s.readItem (larderAddr d.1 (128 * x.la + 64 * i)))).session = session

/-- This module's part of a session's step is not over: a scatter is under way (R116), or a layer of a ring prefill is not deposited
(R217). -/
def State.stepBusy (s : State) (r : StepRun) (session : Word) : Bool :=
  s.scattering session ||
    ((r.batch.any fun e => e.session = session && e.kind = .ring) && !s.ringDone (hSlot session) && !(s.cmp.fails.any fun x => x.1 = session))

/-- A shard module's step-done item goes to the session's home: its first status, and the spans its items have met absent or lost (R359,
log entry 100). -/
def State.sendDone (s : State) (session : Word) (status : Nat) : State :=
  let own := ((s.cmp.fails.find? fun x => x.1 = session).map (·.2)).getD status
  let spans := (s.cmp.absent.filter fun x => x.1 = session).map fun x => BitVec.ofNat 64 x.2
  { s with
    cmp.fails := s.cmp.fails.filter fun x => x.1 ≠ session
    cmp.absent := s.cmp.absent.filter fun x => x.1 ≠ session }.send (hModule session) 7 (.words 16 (session :: BitVec.ofNat 64 own :: spans))

/-- STEP_DONE (R359): a module's report on a session homed here, with the spans its items have met absent or lost; this module's own
carries the target's logits.  With the last report the session commits or is discarded.  On a shard module it is the end of the
module's own part, which its home is told. -/
def execStepDone (module : Nat) (session : Word) (status : Nat) (spans : List Nat) (logits : List (List (BitVec 32))) (s : State) :
    Host.Outcome State Fault Refusal :=
  gate s fun s =>
    match s.fw.cur with
    | none => s
    | some r =>
      let slot := hSlot session
      if module = s.self && s.stepBusy r session then s
      else if module = s.self && r.shards.contains session then if r.aborted then s else s.sendDone session status
      else if r.aborted || !r.open_.contains session || !(s.partsOf slot).contains module ||
          (r.reports.any fun x => x.session = session && x.module = module) then s
      else
        let r := { r with
          reports := r.reports ++ [Report.mk session module status spans]
          logits := if module = s.self then r.logits ++ [(session, logits)] else r.logits }
        let all := (s.partsOf slot).all fun m => r.reports.any fun x => x.session = session && x.module = m
        match r.batch.find? fun e => e.session = session with
        | none => s
        | some e =>
          if all then (s.decideSession e r).stepProgress { r with open_ := r.open_.erase session }
          else { s with fw.cur := some r }

/-- LENGTH_WORD (R359 step 3, R764): a shard writes the home's length word. -/
def execLengthWord (session : Word) (commit spec : Nat) (s : State) : Host.Outcome State Fault Refusal :=
  gate s fun s =>
    let slot := hSlot session
    if s.handleCode session ≠ 0 || (s.dir slot).kind ≠ .shard then s
    else
      let s := (s.setHdr slot { s.hdr slot with commitLen := commit, specLen := spec }).endRing slot
      match s.fw.cur with
      | none => s
      | some r => if r.shards.contains session then s.stepProgress { r with shards := r.shards.erase session } else s

end Sys2Proof.Machine
end

