-- ==== Sys2Proof/Machine/Jobs.lean ====
section
/-! DEFINITION. Jobs: feeding the segment queues, preemption, job switches, accounting and service mode (R389 to R409). -/

namespace Sys2Proof.Machine

open Sys2Proof

/-! ### The job table (R389, R391) -/

def State.jobAddr (s : State) (j : Nat) : Nat := 65536 * s.field Reg.ctlJobTable 35 0 + 32 * j
def State.jobWord (s : State) (j i : Nat) : Word := s.tabWord (s.jobAddr j + 8 * i)
def State.jobCount (s : State) : Nat := s.field Reg.ctlJobTable 42 36
def State.jobRole (s : State) (j : Nat) : Nat := bits (s.jobWord j 1) 31 28
def State.jobLevel (s : State) (j : Nat) : Nat := bits (s.jobWord j 1) 27 25
def State.jobPreemptible (s : State) (j : Nat) : Bool := bit (s.jobWord j 1) 24
def State.jobSlot (s : State) (j : Nat) : Nat := bits (s.jobWord j 1) 23 22
/-- The job has a weight window. -/
def State.jobWindow (s : State) (j : Nat) : Bool := s.jobWord j 0 ≠ 0

/-- Resident job of a die's window slot; 0xFF for none (R391, R419). -/
def State.resident (s : State) (die slot : Nat) : Nat := s.field (Reg.ctlDieJob die) (8 * slot + 7) (8 * slot)

/-- A die serves segments of a role (R392, R393). -/
def State.serves (s : State) (die role : Nat) : Bool :=
  !s.roleBad die role && (role ≠ 1 || s.dieRole die = 1 || s.dieRole die = 3) && (role ≠ 2 || s.dieRole die = 2 || s.dieRole die = 3)

/-! ### Feeding a segment queue (R396) -/

def State.segQ (s : State) (die : Nat) : Nat := s.field (Reg.seqControl die) 8 0
def State.dieJobs (s : State) (die : Nat) : DieJobs := SMap.get {} s.fw.jobs die
def State.setDieJobs (s : State) (die : Nat) (x : DieJobs) : State := { s with fw.jobs := SMap.put s.fw.jobs die x }

/-- Push a start item at a level while the queue has room, under a SEQ and EPOCH of this push. -/
def State.pushStart (s : State) (die level : Nat) (it : Item) : State :=
  s.iff ((s.queue (s.segQ die)).items.length < s.qDepth (s.segQ die)) fun s =>
    let r := s.stamp (readerUnit (die + 1)) it
    r.2.enter (s.segQ die) ⟨level, r.1, false⟩

/-- Push a job's segment and remember whose it is. -/
def State.pushJob (s : State) (die j : Nat) (it : Item) (readyNs : Nat) : State :=
  let x := s.dieJobs die
  (s.setDieJobs die { x with pushed := x.pushed ++ [(plainStart it, j, readyNs)] }).pushStart die (s.jobLevel j) it

/-- The oldest ready segment of a job on a die. -/
def State.oldest (s : State) (die j : Nat) : Option ReadySeg := s.fw.ready.find? fun r => r.die = die && r.job = j

/-- score() of R396. -/
def State.score (s : State) (die j : Nat) : Int :=
  let waited := ((s.oldest die j).map fun r => s.now - r.readyNs).getD 0
  let grade := waited + s.field Reg.ctlSched 47 32 * 1000 * SMap.get 0 s.fw.preempted j
  let begun := SMap.get 0 s.fw.started (4 * j + die)
  if s.field Reg.ctlSched 63 62 = 0 then (grade : Int) else -(begun : Int)

/-- Jobs with a segment ready for the die, in ascending order; while the die holds a save, only more urgent ones. -/
def State.readyJobs (s : State) (die : Nat) : List Nat :=
  (List.range s.jobCount).filter fun j =>
    (s.oldest die j).isSome && s.serves die (s.jobRole j) &&
      match (s.die die).save, (s.dieJobs die).victim with
      | some _, some v => s.jobLevel j < s.jobLevel v
      | some _, none => false
      | none, _ => true

/-- The first job of a list with the highest score. -/
def State.bestJob (s : State) (die : Nat) : List Nat → Option Nat
  | [] => none
  | j :: js =>
    match s.bestJob die js with
    | none => some j
    | some k => if s.score die k ≤ s.score die j then some j else some k

/-- pick() of R396. -/
def State.pickJob (s : State) (die : Nat) : Option Nat :=
  let r := s.readyJobs die
  match minNat? (r.map s.jobLevel) with
  | none => none
  | some lv => s.bestJob die (r.filter fun j => s.jobLevel j = lv)

/-- The die holds a save of a job in the same slot (R405). -/
def State.slotSaved (s : State) (die j : Nat) : Bool :=
  match (s.die die).save, (s.dieJobs die).victim with
  | some _, some v => s.jobSlot v = s.jobSlot j
  | _, _ => false

/-- Push a job's load segment (R405): `load` is the start item firmware builds, its SEG the job's LOAD_SEG. -/
def State.pushLoad (s : State) (die j : Nat) (load : Item) : State :=
  let it := { load with w2 := s.jobWord j 0 }
  (s.setDieJobs die { s.dieJobs die with loading := some (j, it) }).pushJob die j it s.now

/-- A discard of the running step (R685): not of a load segment or a segment under service mode. -/
def State.stepDiscard (s : State) (x : Discard) : Bool :=
  s.fw.cur.isSome && !s.dieService x.die &&
    ((s.dieJobs x.die).loading.map fun y => plainStart y.2) ≠ some (plainStart x.item)

/-- Key of a segment's re-issue count. -/
def retryKey (it : Item) : Nat := 1000 + it.w2.toNat

/-- The start item of a segment pushed again after a discard: REISSUE = 1 (R38). -/
def reissued (it : Item) : Item := let p := plainStart it; { p with w1 := tagReissue p.w1 }

/-- Firmware re-issues a discarded segment that belongs to no step, up to three times (R686). -/
def State.reissue (s : State) (x : Discard) : State :=
  let s := { s with flt.discards := s.flt.discards.erase x }
  let n := SMap.get 0 s.flt.segRetries (retryKey x.item) + 1
  match x.job with
  | none => s
  | some j =>
    if 3 ≤ n then { s with flt.segRetries := SMap.erase s.flt.segRetries (retryKey x.item) }
    else { s with
      flt.segRetries := SMap.put s.flt.segRetries (retryKey x.item) n
      fw.ready := s.fw.ready ++ [ReadySeg.mk j x.die (reissued x.item) s.now] }

/-- The die's discards outside any step; a load segment's own retry is LOAD_SEGMENT_DONE's. -/
def State.reissueAll (s : State) (d : Nat) : State :=
  let l := s.flt.discards.filter fun x => x.die = d && !s.stepDiscard x &&
    ((s.dieJobs d).loading.map fun y => plainStart y.2) ≠ some (plainStart x.item)
  l.foldl State.reissue s

/-- Firmware may ask for a preemption in favour of a ready job (R398): the die's running segment belongs to a preemptible job of a
less urgent level, nothing is saved, the die is not in service mode, and the ready job is resident or has no window. -/
def State.preempts (s : State) (die j : Nat) : Bool :=
  ((s.die die).state = .running || (s.die die).state = .stalled) && (s.die die).save.isNone && !s.dieService die &&
    (!s.jobWindow j || s.resident die (s.jobSlot j) = j) &&
    match s.pushedJob die (s.die die).item with
    | some (v, _) => s.jobLevel j < s.jobLevel v && s.jobPreemptible v
    | none => false

/-- Firmware sets REQ for the most urgent ready job whenever R398 lets it (log entry 81). -/
def State.asksPreempt (s : State) (die : Nat) : Bool :=
  match s.pickJob die with
  | some j => !(s.dieJobs die).entering && s.preempts die j
  | none => false

/-- The die's queue is fed with the picked job's oldest ready segment while it holds less than QUEUE_AHEAD (R396, R405). -/
def State.feed (s : State) (d : Nat) (load : Item) : State :=
  if (s.dieJobs d).entering || s.field Reg.ctlSched 7 4 ≤ (s.queue (s.segQ d)).items.length then s
  else
    match s.pickJob d with
    | none => s
    | some j =>
      match s.oldest d j with
      | none => s
      | some r =>
        let need := s.jobWindow j && s.resident d (s.jobSlot j) ≠ j
        if need && s.slotSaved d j then s
        else
          let s := s.iff (need && ((s.dieJobs d).loading.map (·.1)) ≠ some j) fun s => s.pushLoad d j load
          ({ s with fw.ready := s.fw.ready.erase r }).pushJob d j r.item r.readyNs

/-- SEGMENT_PICK (R396 to R398, R405, R686): `news` are the segments that have become ready for the die, as job and start item;
`load` is the start item of a load segment. -/
def execSegmentPick (die : Fin 4) (news : List (Nat × Item)) (load : Item) (s : State) : Host.Outcome State Fault Refusal :=
  gate s fun s =>
    let d := die.val
    let s := s.reissueAll d
    let s := { s with fw.ready := s.fw.ready ++ news.map fun (x : Nat × Item) => ReadySeg.mk x.1 d x.2 s.now }
    (s.feed d load).iff (s.asksPreempt d) fun s => s.setField (Reg.seqPreempt d) 0 0 1

/-! ### Preemption and job switches (R402, R405, R686) -/

/-- The resume item of a die's save. -/
def resumeOf (v : Save) : Item := { v.item with w7 := setBits v.item.w7 48 48 1 }

/-- PREEMPTED_COMPLETION (R402): the victim is counted and its resume item pushed at its level; on the way into service mode the
resume waits for the exit (R407). -/
def execPreemptedCompletion (die : Fin 4) (s : State) : Host.Outcome State Fault Refusal :=
  gate s fun s =>
    let d := die.val
    match (s.die d).save, (s.dieJobs d).victim with
    | some v, none =>
      match s.pushedJob d v.item with
      | none => s
      | some (j, _) =>
        let s := ((s.acctHalf j d true).bump (Reg.ctlCnt 8)).setDieJobs d { s.dieJobs d with victim := some j }
        let s := { s with fw.preempted := SMap.set 0 s.fw.preempted j (SMap.get 0 s.fw.preempted j + 1) }
        if (s.dieJobs d).entering then s else s.pushStart d (s.jobLevel j) (resumeOf v)
    | _, _ => s

/-- LOAD_SEGMENT_DONE (R405, R686): status 0 makes the job resident; a failure leaves the slot empty, and the load segment runs
again, up to three times. -/
def execLoadSegmentDone (die : Fin 4) (status : BitVec 16) (s : State) : Host.Outcome State Fault Refusal :=
  gate s fun s =>
    let d := die.val
    let x := s.dieJobs d
    match x.loading with
    | none => s
    | some (j, it) =>
      let k := s.jobSlot j
      let key := 64 * d + j
      let s := { s with flt.discards := s.flt.discards.filter fun y => !(y.die = d && plainStart y.item = plainStart it) }
      let put := fun (s : State) (v : Nat) => s.setField (Reg.ctlDieJob d) (8 * k + 7) (8 * k) v
      let done := fun (s : State) =>
        { s.setDieJobs d { s.dieJobs d with loading := none } with flt.segRetries := SMap.erase s.flt.segRetries key }
      if status = 0 then done (((put s j).bump (Reg.ctlCnt 10)).acctHalf j d false)
      else
        let n := SMap.get 0 s.flt.segRetries key + 1
        let s := put s 0xFF
        if 3 ≤ n then done s
        else { s with flt.segRetries := SMap.put s.flt.segRetries key n }.pushJob d j (reissued it) s.now

/-- ACCT_WINDOW (R396): a period of WINDOW_MS ends and the counts of COUNT start again. -/
def execAcctWindow (s : State) : Host.Outcome State Fault Refusal :=
  gate s fun s =>
    if s.now < s.fw.windowNs + msec (s.field Reg.ctlSched 31 16) then s
    else { s with fw.windowNs := s.now, fw.started := [] }

/-! ### Service mode (R407) -/

/-- The running segment's job may be preempted. -/
def State.runningPreemptible (s : State) (die : Nat) : Bool :=
  match s.pushedJob die (s.die die).item with
  | some (j, _) => s.jobPreemptible j && (s.die die).save.isNone
  | none => false

/-- Step 1 of R407: serving items stop, and the die's queue is flushed. -/
def State.flushDie (s : State) (die : Nat) : State :=
  let q := s.segQ die
  let x := s.queue q
  let s := (s.setQueue q { x with items := [] }).bumpBy (Reg.hqCnt 2) x.items.length
  s.setDieJobs die { s.dieJobs die with entering := true, flushed := x.items.map fun e => (e.item, e.prio) }

/-- SERVICE_ENTRY (R404, R407): the queue is flushed; a running segment is preempted or runs to its end; then SERVICE is set and
the service segments are pushed at level 0. -/
def execServiceEntry (die : Fin 4) (segments : List Item) (s : State) : Host.Outcome State Fault Refusal :=
  gate s fun s =>
    let d := die.val
    if s.dieService d then s
    else
      let s := s.iff (!(s.dieJobs d).entering) fun s => s.flushDie d
      if (s.die d).state = .idle then
        let s := (s.setField Reg.ctlDieRole (16 + d) (16 + d) 1).bump (Reg.ctlCnt 11)
        let s := s.setDieJobs d { s.dieJobs d with entering := false }
        segments.foldl (fun s it => s.pushStart d 0 it) s
      else s.iff (s.runningPreemptible d) fun s => s.setField (Reg.seqPreempt d) 0 0 1

/-- SERVICE_EXIT (R407): after the last service segment SERVICE is cleared, a held save's resume item is pushed, and the
flushed items are pushed again. -/
def execServiceExit (die : Fin 4) (s : State) : Host.Outcome State Fault Refusal :=
  gate s fun s =>
    let d := die.val
    if !s.dieService d || (s.die d).state ≠ .idle || !(s.queue (s.segQ d)).items.isEmpty then s
    else
      let s := s.setField Reg.ctlDieRole (16 + d) (16 + d) 0
      let s := match (s.die d).save, (s.dieJobs d).victim with
        | some v, some j => s.pushStart d (s.jobLevel j) (resumeOf v)
        | _, _ => s
      let back := (s.dieJobs d).flushed
      let s := s.setDieJobs d { s.dieJobs d with flushed := [] }
      back.foldl (fun s x => s.pushStart d x.2 x.1) s

end Sys2Proof.Machine
end

