-- ==== Sys2Proof/Machine/Memory.lean ====
section
/-! DEFINITION. Patrol scrub, the translation layer of the sett, and parking (R612 to R631, R744 to R748). -/

namespace Sys2Proof.Machine

open Sys2Proof

/-! ### Patrol scrub (R612, R613) -/

/-- SCRUB_READ (R605 to R607, R612 to R614, R629): the next line of a channel is read, its bytes differing by `errs` from what
was written to it, and decoded; a corrected line is written back unless a write came since, and an uncorrectable one loses its
page's home.  What the decoder leaves of a difference stays in the line.  Scrub pauses in self-refresh. -/
def execScrubRead (channel : Fin 128) (errs : List (Nat × Byte)) (wrote : Bool) (s : State) :
    Host.Outcome State Fault Refusal :=
  gate s fun s =>
    if s.plat.parkedSince.isSome then s
    else
      let c := channel.val
      let l := SMap.get 0 s.dram.scrubPos c
      let r := { s with dram.scrubPos := SMap.put s.dram.scrubPos c ((l + 1) % 2 ^ 26) }.bump (Reg.dramCnt 3)
        |>.lineRead (lineOf c l) errs !wrote
      r.2.iff (r.1 = .corrected && !wrote) fun s => s.bump (Reg.dramCnt 4)

/-- OSCILLATOR_CHECK (R617): a channel that has drifted is retrained. -/
def execOscillatorCheck (channel : Fin 128) (drifted : Bool) (s : State) : Host.Outcome State Fault Refusal :=
  gate s fun s => s.iff (drifted && s.plat.parkedSince.isNone && channel.val < s.field Reg.dramStatus 15 8)
    fun s => s.bump (Reg.dramCnt 6)

/-! ### The four operations of the translation layer (R621, R622) -/

/-- The sett answers: mounted, and its controller not failed. -/
def State.settUp (s : State) : Bool := bit (s.reg Reg.settStatus) 63 && !s.unitFailed 7

/-- Bytes of a logical page that are not zero, by offset. -/
def State.settData (s : State) (p : Nat) : List (Nat × Byte) :=
  (s.mem.filter fun c => settAddr p 0 ≤ c.1 && c.1 < settAddr p 0 + 65536).map fun c => (c.1 - settAddr p 0, c.2)

/-- Give a logical page new contents. -/
def State.setSettData (s : State) (p : Nat) (data : List (Nat × Byte)) : State :=
  let s := s.zeroRange (settAddr p 0) 65536
  { s with mem := data.foldl (fun m x => if x.1 < 65536 then SMap.set 0 m (settAddr p x.1) x.2 else m) s.mem }

/-- A logical page becomes unmapped: it reads as zero (R621). -/
def State.trim (s : State) (p : Nat) : State :=
  ({ s with sett.place := SMap.erase s.sett.place p, sett.lost := s.sett.lost.filter fun q => q ≠ p }).zeroRange
    (settAddr p 0) 65536

/-- Set the last code of the sett (R626, R630). -/
def State.settCode (s : State) (c : Nat) : State := s.setField Reg.settStatus 47 32 c

def State.block (s : State) (b : Nat) : SettBlock := SMap.get {} s.sett.blocks b
def State.setBlock (s : State) (b : Nat) (x : SettBlock) : State := { s with sett.blocks := s.sett.blocks.set {} b x }

/-- SETT_READ (R621, R622): the read takes the contents from before every PROGRAM still in progress. -/
def execSettRead (page : Nat) (s : State) : Host.Outcome State Fault Refusal :=
  gate s fun s =>
    if !s.settUp || 805306368 ≤ page then s
    else
      let d := if s.sett.lost.contains page then none else some (s.settData page)
      let m := (SMap.lookup s.sett.place page).isSome
      { s with sett.reads := s.sett.reads ++ [SettRead.mk page m d] }

/-- A ferry move under way writes the page: the TSM counted its bytes at the claim (R87). -/
def State.settClaimed (s : State) (page : Nat) : Bool :=
  s.tsm.ops.any fun x => !x.2.isDrop && x.2.dst = .sett && x.2.dstLoc = page

/-- SETT_PROGRAM (R87, R621, R625, R743): a program starts and, where no ferry claim counted them, its bytes count; none starts below
44 V, and a worn sett refuses it. -/
def execSettProgram (page : Nat) (data : List (Nat × Byte)) (s : State) : Host.Outcome State Fault Refusal :=
  gate s fun s =>
    if !s.settUp || 805306368 ≤ page || s.plat.inhibit then s
    else if bit (s.reg Reg.settStatus) 60 then s.settCode Code.settWorn
    else
      let s := s.iff (!s.settClaimed page) fun s => s.countSett 65536
      { s with sett.progs := s.sett.progs ++ [SettProg.mk page data false] }

/-- Mark the newest program of a page for a TRIM. -/
def markTrim (p : Nat) : List SettProg → List SettProg
  | [] => []
  | x :: xs => if x.page = p && !(xs.any fun y => y.page = p) then { x with trim := true } :: xs else x :: markTrim p xs

/-- One TRIM (R621, R622): at once, or once a PROGRAM in progress completes. -/
def State.settTrimOne (s : State) (p : Nat) : State :=
  if s.sett.progs.any fun x => x.page = p then { s with sett.progs := markTrim p s.sett.progs } else s.trim p

/-- SETT_TRIM (R621, R622). -/
def execSettTrim (page : Nat) (s : State) : Host.Outcome State Fault Refusal :=
  gate s fun s => if s.settUp && page < 805306368 then s.settTrimOne page else s

/-- Every logical page is unmapped; programs in progress end unmapped. -/
def State.trimAll (s : State) : State :=
  let s := { s with
    sett.place := [], sett.lost := []
    sett.progs := s.sett.progs.map fun (x : SettProg) => { x with trim := true } }
  s.zeroRange (settAddr 0 0) (805306368 * 65536)

/-- TRIM_ALL (R621, R623). -/
def execTrimAll (s : State) : Host.Outcome State Fault Refusal := gate s fun s => if s.settUp then s.trimAll else s

/-- Count a read on every block of a page; codewords that needed read-retry mark them (R624). -/
def countReads (retry : Bool) : List Nat → State → State
  | [], s => s
  | b :: bs, s =>
    let x := s.block b
    countReads retry bs (s.setBlock b { x with reads := x.reads + 1, retry := x.retry || retry })

/-- The state page whose home is a logical page of the sett. -/
def State.pageAtSett (s : State) (n : Nat) : Option Nat :=
  (s.tsm.leaf.find? fun x => x.2.v && x.2.tier = .sett && x.2.loc = n).map (·.1)

/-- A mapped page read as uncorrectable (R621, R626, R69): reported, trimmed, and a move from it ends with SOURCE_READ. -/
def State.settUe (s : State) (page : Nat) : State :=
  let s := s.iff (!s.sett.lost.contains page) fun s => s.bump (Reg.settCnt 7)
  let home := s.pageAtSett page
  let addr := match home with
    | some p => BitVec.ofNat 64 (65536 * p)
    | none => BitVec.ofNat 64 page
  let s := ((s.settCode Code.settUe).event Code.settUe 0 5 7 0 0 addr).trim page
  match home with
  | none => s
  | some p => s.ferryFault p .sourceRead

/-- SETT_READ_DONE (R619 to R622): the oldest read of the page puts its contents into the DRAM staging buffer, or finds the
page unreadable; an unmapped page reads as zero without error. -/
def execSettReadDone (page : Nat) (lost : Bool) (retries rebuilt : Nat) (s : State) : Host.Outcome State Fault Refusal :=
  gate s fun s =>
    match s.sett.reads.find? fun r => r.page = page with
    | none => s
    | some r =>
      let s := { s with sett.reads := s.sett.reads.erase r }.bump (Reg.settCnt 0)
      let s := (s.bumpBy (Reg.settCnt 3) retries).bumpBy (Reg.settCnt 4) rebuilt
      let s := countReads (0 < retries) (SMap.get [] s.sett.place page) s
      match r.data with
      | none => s.settUe page
      | some d => if lost && r.mapped then s.settUe page
        else { s with sett.staged := SMap.put s.sett.staged page d }

/-- Note new data on blocks. -/
def dateBlocks : List Nat → State → State
  | [], s => s
  | b :: bs, s =>
    let x := s.block b
    dateBlocks bs (s.setBlock b { x with writtenNs := x.writtenNs.or (some (s.now : Int)) })

/-- The translation layer's program status reaches the move that writes the page (R68). -/
def State.noteProgram (s : State) (page : Nat) (ok : Bool) : State :=
  { s with tsm.ops := s.tsm.ops.map fun (x : Nat × PageOp) =>
      (x.1, if !x.2.isDrop && x.2.dst = .sett && x.2.dstLoc = page && (x.2.stage = .write || x.2.stage = .verify) then { x.2 with prog := some ok } else x.2) }

/-- SETT_PROGRAM_DONE (R68, R621, R622): with every codeword and its parity programmed the page maps to its new locations; a TRIM
that came meanwhile then unmaps it.  A program that does not succeed leaves the earlier contents. -/
def execSettProgramDone (page : Nat) (ok : Bool) (blocks : List Nat) (bytes : Nat) (s : State) :
    Host.Outcome State Fault Refusal :=
  gate s fun s =>
    match s.sett.progs.find? fun p => p.page = page with
    | none => s
    | some p =>
      let s := (s.noteProgram page ok).bumpBy (Reg.settCnt 2) bytes
      let s := { s with sett.progs := s.sett.progs.erase p }
      if !ok then (if p.trim then s.trim page else s)
      else
        let s := (s.bump (Reg.settCnt 1)).setSettData page p.data
        let s := { s with
          sett.place := SMap.put s.sett.place page blocks, sett.lost := s.sett.lost.filter fun q => q ≠ page }
        let s := dateBlocks blocks s
        if p.trim then s.trim page else s

/-! ### Background upkeep (R624, R625) -/

/-- Upkeep runs while the sett answers and its staging buffers are awake (R747). -/
def State.upkeeps (s : State) : Bool := s.settUp && s.plat.parkedSince.isNone

/-- Pages with valid data in a block. -/
def State.blockPages (s : State) (b : Nat) : List Nat := (s.sett.place.filter fun x => x.2.contains b).map (·.1)
/-- A block that may take data. -/
def State.blockOpen (s : State) (b : Nat) : Bool := !(s.block b).retired
def State.blockFree (s : State) (b : Nat) : Bool := s.blockOpen b && (s.blockPages b).isEmpty

/-- Move the valid pages of a block to another one (R624): counted as relocated, with the bytes programmed. -/
def State.relocate (s : State) (b dest bytes : Nat) : State :=
  let n := (s.blockPages b).length
  let s := { s with sett.place := s.sett.place.map fun (x : Nat × List Nat) =>
    (x.1, x.2.map fun y => if y = b then dest else y) }
  let s := s.setBlock dest { s.block dest with writtenNs := some (s.now : Int) }
  ((s.setBlock b { s.block b with retry := false }).bumpBy (Reg.settCnt 5) n).bumpBy (Reg.settCnt 2) bytes

/-- SETT.LIFE: mean erase count as a percentage of 3,000 cycles (R625). -/
def State.noteLife (s : State) : State :=
  let e := sumNat (s.sett.blocks.vals.map (·.erases))
  s.setReg Reg.settLife (fld 15 0 (min 65535 (e * 100 / (3000 * s.sett.count))))

/-- SPARE_PCT, and WORN below 2 % (R625, R630). -/
def State.noteSpares (s : State) : State :=
  let pct := s.sett.spares * 100 / s.sett.count
  (s.setField Reg.settStatus 23 16 (min 255 pct)).setField Reg.settStatus 60 60 (bnat (pct < 2))

/-- Erase a block. -/
def State.eraseBlock (s : State) (b : Nat) : State :=
  (s.setBlock b { s.block b with erases := (s.block b).erases + 1, reads := 0, writtenNs := none, retry := false }).noteLife

/-- The coldest valid data: no block with valid data is older. -/
def State.coldest (s : State) (b : Nat) : Bool :=
  !(s.blockPages b).isEmpty && s.sett.place.all fun x => x.2.all fun y => (s.block b).written ≤ (s.block y).written

/-- WEAR_LEVELLING (R624): a spread of erase counts above 200 between the most and the least worn free blocks moves the
coldest valid data to the most worn. -/
def execWearLevelling (least most cold bytes : Nat) (s : State) : Host.Outcome State Fault Refusal :=
  gate s fun s =>
    let near := fun (b : Nat) => s.blockFree b && (s.block least).erases ≤ (s.block b).erases &&
      (s.block b).erases ≤ (s.block most).erases
    if s.upkeeps && near least && near most && (s.block least).erases + 200 < (s.block most).erases && s.coldest cold then
      s.relocate cold most bytes
    else s

/-- READ_DISTURB (R624): at 200,000 reads a block's valid pages are relocated and it is erased. -/
def execReadDisturb (block dest bytes : Nat) (s : State) : Host.Outcome State Fault Refusal :=
  gate s fun s =>
    if s.upkeeps && 200000 ≤ (s.block block).reads && s.blockOpen dest && dest ≠ block then
      (s.relocate block dest bytes).eraseBlock block
    else s

/-- RETENTION (R624): data 30 days old, or with a codeword that needed read-retry, is relocated. -/
def execRetention (block dest bytes : Nat) (s : State) : Host.Outcome State Fault Refusal :=
  gate s fun s =>
    let x := s.block block
    if s.upkeeps && (x.retry || x.written + 30 * 24 * 3600 * 10 ^ 9 ≤ (s.now : Int)) && s.blockOpen dest && dest ≠ block then
      s.relocate block dest bytes
    else s

/-- GROWN_DEFECT (R624, R625): the block is retired and its valid pages are rebuilt elsewhere. -/
def execGrownDefect (block dest bytes : Nat) (s : State) : Host.Outcome State Fault Refusal :=
  gate s fun s =>
    if s.upkeeps && s.blockOpen block && s.blockOpen dest && dest ≠ block then
      let s := s.relocate block dest bytes
      let s := (s.setBlock block { s.block block with retired := true }).bump (Reg.settCnt 6)
      { s with sett.spares := s.sett.spares - 1 }.noteSpares
    else s

/-- Pages mapped to a die. -/
def State.diePages (s : State) (d : Nat) : List Nat :=
  (s.sett.place.filter fun x => x.2.any fun b => b / 65536 = d).map (·.1)

/-- DIE_FAILURE (R624, R625): its stripes are rebuilt; a second failure in the parity set before that ends makes the mapped
pages that hold the lost members unreadable. -/
def execDieFailure (die : Fin 1024) (s : State) : Host.Outcome State Fault Refusal :=
  gate s fun s =>
    let d := die.val
    if !s.settUp || s.sett.rebuilding.contains d then s
    else
      let other := s.sett.rebuilding.filter fun e => e / 16 = d / 16
      let s := { s with sett.rebuilding := s.sett.rebuilding ++ [d], sett.failedDies := s.sett.failedDies + 1 }
      let s := (s.setField Reg.settStatus 62 62 1).setField Reg.settStatus 9 0 s.sett.failedDies
      if other.isEmpty then s
      else
        let gone := ((d :: other).flatMap s.diePages).eraseDups.filter fun p => !s.sett.lost.contains p
        ({ s with sett.lost := s.sett.lost ++ gone }.bumpBy (Reg.settCnt 7) gone.length).setField Reg.settStatus 61 61 1

/-- REBUILD_COMPLETE (R624): every stripe of the die stands on spare blocks; REBUILDING clears with the last rebuild. -/
def execRebuildComplete (die : Fin 1024) (moves : List (Nat × Nat)) (codewords bytes : Nat) (s : State) :
    Host.Outcome State Fault Refusal :=
  gate s fun s =>
    if !s.upkeeps || !s.sett.rebuilding.contains die.val then s
    else
      let s := moves.foldl (fun s m => s.iff (m.1 / 65536 = die.val && s.blockOpen m.2) fun s => s.relocate m.1 m.2 0) s
      let s := { s with
        sett.rebuilding := s.sett.rebuilding.filter fun d => d ≠ die.val
        sett.spares := s.sett.spares - moves.length }.noteSpares
      let s := (s.bumpBy (Reg.settCnt 4) codewords).bumpBy (Reg.settCnt 2) bytes
      s.setField Reg.settStatus 62 62 (bnat (!s.sett.rebuilding.isEmpty))

/-! ### Mounting (R623, R626, R702, R713, R714) -/

/-- The sett is mounted: TRIM_ALL has run, and the geometry, the spare blocks and the life are reported. -/
def State.mount (s : State) (blocks spares : Nat) : State :=
  let s := { s with sett.count := blocks, sett.spares := spares, sett.progs := [], sett.reads := [] }.trimAll
  let s := (s.setField Reg.settStatus 63 63 1).setField Reg.settStatus 9 0 s.sett.failedDies
  ((s.setField Reg.settStatus 62 62 (bnat (!s.sett.rebuilding.isEmpty))).noteSpares).noteLife

/-- The module reaches AWAIT_IMAGE (R714). -/
def State.awaitImage (s : State) : State := { s with plat.stage := 6, host.ready := true }

/-- SETT_MOUNT_DONE (R623, R713, R714): the sett is mounted and trimmed, READY is set and a TRY bank is proven; unreadable
translation state fails the NAND controller, and the sett is absent until it mounts (R702). -/
def execSettMountDone (ok : Bool) (blocks spares : Nat) (s : State) : Host.Outcome State Fault Refusal :=
  .next (if s.plat.stage < 5 || 8 ≤ s.plat.stage || bit (s.reg Reg.settStatus) 63 then s
    else if ok then
      let s := (s.mount blocks spares).setField Reg.fltUnits 7 7 0
      if s.plat.stage = 5 then s.awaitImage.proveTry else s
    else
      let s := (s.settCode Code.settMount).setField Reg.fltUnits 7 7 1
      let s := ((s.bump (Reg.fltCnt 3)).event Code.settMount 2 5 7 0 0 0).setAttn 6
      if s.plat.stage = 5 then s.awaitImage else s)

/-! ### Parking (R744 to R748) -/

/-- The conditions of R745. -/
def State.idleNow (s : State) : Bool :=
  s.fw.reqs.isEmpty && s.fw.cur.isNone &&
  ([0, 1, 2, 3].all fun d => (s.die d).state = .idle && (s.die d).save.isNone) &&
  (s.hq.queues.all fun x => s.qReader x.1 = 0 || x.2.items.isEmpty && x.2.waiting.isEmpty) && s.hq.hand.all (fun x => x.2.isEmpty) &&
  s.tsm.reqs.isEmpty && s.tsm.ops.isEmpty && s.kvs.reqs.isEmpty && s.snp.cur.isNone && s.snp.lead.isNone &&
  s.snp.restores.isEmpty && s.hmp.takes.isEmpty && s.hmp.gives.isEmpty && s.comp.old.isNone && s.comp.next.isNone && s.cfg.pending.isEmpty

/-- PARK_ENTRY (R745): after PARK_IDLE_MS of idleness every DRAM channel enters self-refresh and the C-dies are gated. -/
def execParkEntry (idleMs : Nat) (s : State) : Host.Outcome State Fault Refusal :=
  gate s fun s =>
    let due := match s.plat.upkeepSince with
      | none => true
      | some t => t + 2 * 10 ^ 9 ≤ s.now
    if s.plat.stage = 7 && s.plat.parkedSince.isNone && bit (s.reg Reg.pltPwr) 32 &&
        s.field Reg.pltPwr 31 16 ≤ idleMs && s.idleNow && due then
      let s := { s with plat.parkedSince := some s.now, plat.upkeepSince := none }
      let s := s.setField Reg.pltPwr 15 0 (s.field Reg.pltPwr 15 0 + 1)
      s.setField Reg.dramStatus 1 1 1
    else s

/-- PARK_EXIT (R746): the C-dies are ungated and DRAM leaves self-refresh. -/
def execParkExit (s : State) : Host.Outcome State Fault Refusal :=
  gate s fun s => if s.plat.parkedSince.isSome then s.unpark else s

/-- PARK_UPKEEP_EXIT (R747): after at most 60 minutes the module leaves PARKED, for at least 2 s. -/
def execParkUpkeepExit (s : State) : Host.Outcome State Fault Refusal :=
  gate s fun s => if s.plat.parkedSince.isSome then { s.unpark with plat.upkeepSince := some s.now } else s

end Sys2Proof.Machine
end

