-- ==== Sys2Proof/Machine/Recompute.lean ====
section
/-! DEFINITION. Recompute of dropped spans by home firmware (R174, R175, R84). -/

namespace Sys2Proof.Machine

open Sys2Proof

/-- A module of the node that this one can send to (R691). -/
def State.reaches (s : State) (m : Nat) : Bool := m = s.self || !(s.portsTo m).isEmpty

def State.setRecompute (s : State) (r : Recompute) : State :=
  { s with kvs.recomputes := (s.kvs.recomputes.filter fun x => x.slot ≠ r.slot) ++ [r] }

/-- The recompute of a session is over; the span is no longer wanted, nor is `span`. -/
def State.endRecompute (s : State) (slot span : Nat) : State :=
  { s with
    kvs.recomputes := s.kvs.recomputes.filter fun (x : Recompute) => x.slot ≠ slot
    kvs.wanted := s.kvs.wanted.filter fun x => x ≠ (slot, span)
    kvs.needed := s.kvs.needed.filter fun x => x ≠ (slot, span) }

/-- A recompute ends with a code, and so does the request that waits on the span, or on a later one that needs it first (R175). -/
def State.failRecompute (s : State) (slot span code : Nat) : State :=
  let waits := s.kvs.needed.any fun x => x.1 = slot && span ≤ x.2
  let s := s.endRecompute slot span
  if !waits then s
  else
    let s := { s with kvs.needed := s.kvs.needed.filter fun x => x.1 ≠ slot }.failReq slot code
    match s.openReq? slot with
    | none => s
    | some (i, _) => s.closeReq i

/-- A module's RECOMP_BEGIN has completed with a code: RECLAIM_PENDING is posted again after 10 µs, any other code ends the
recompute (R174, R175). -/
def State.beganBy (s : State) (r : Recompute) (m code : Nat) : State :=
  let r := { r with waiting := r.waiting.filter fun x => x ≠ m }
  if code = 0 then s.setRecompute r
  else if code = Code.reclaimPending then
    s.setRecompute { r with again := r.again ++ [m], retryNs := s.now + usec 10 }
  else s.failRecompute r.slot r.span code

/-- Post a span request of a recompute to a module, this module's own to its span queue. -/
def State.postSpan (s : State) (slot span op m : Nat) : State :=
  if m ≠ s.self then s.send m 4 (.spanRequest (s.spanItem slot span op))
  else s.askSpan (s.spanItem slot span op) (.recompute slot span)

/-- The 256 entries of the token log that the prefill of a span reads (R174). -/
def State.spanTokens (s : State) (slot span : Nat) : List (BitVec 32) :=
  (List.range 256).map fun i => s.logAt slot (256 * span + i)

/-- Begin an attempt: RECOMP_BEGIN goes to every module that dropped the span, and the prefill starts at layer 0 (R174). -/
def State.beginAttempt (s : State) (r : Recompute) : State :=
  r.began.foldl (fun s m => s.postSpan r.slot r.span 4 m) (s.setRecompute { r with
    waiting := r.began, again := [], tokens := s.spanTokens r.slot r.span, layer := 0, ending := false, own := none, failed := none })

/-- A span is DROPPED on this module, or on another by what it has told (R175). -/
def State.droppedAt (s : State) (slot t : Nat) (away : List (Nat × Nat)) : Bool :=
  (s.span slot t).res = .dropped || away.any fun x => x.2 = t && s.peers.contains x.1

/-- The span whose recompute comes first: while a span from ANCHOR to below is DROPPED on any module, the lowest such one stands
for it, and its own ANCHOR is looked at in turn; `away` are the other modules' dropped spans (R175). -/
def State.firstDropped (s : State) (slot : Nat) (away : List (Nat × Nat)) : Nat → Nat → Nat
  | 0, span => span
  | fuel + 1, span =>
    match (List.range span).find? fun t => (s.span slot span).anchor ≤ t && s.droppedAt slot t away with
    | some t => s.firstDropped slot away fuel t
    | none => span

/-- Start the recompute of a wanted span, or of a lower one first (R174, R175). -/
def State.startRecompute (s : State) (slot span : Nat) (away : List (Nat × Nat)) : State :=
  let t := s.firstDropped slot away span span
  if !s.droppedAt slot t away then s.endRecompute slot span
  else
    let far := s.peers.filter fun m => away.contains (m, t)
    let began := (if (s.span slot t).res = .dropped then [s.self] else []) ++ far
    if !s.peers.all s.reaches then s.failRecompute slot span Code.trailDown
    else s.beginAttempt { slot := slot, span := t, began := began }

/-- The prefill is done: RECOMP_END goes to every module that began (R174). -/
def State.postEnds (s : State) (r : Recompute) : State :=
  r.began.foldl (fun s m => s.postSpan r.slot r.span 5 m)
    (s.setRecompute { r with waiting := r.began, ending := true, own := none })

/-- A module's RECOMP_END has completed; with the last the recompute is over. -/
def State.endedBy (s : State) (r : Recompute) (m code : Nat) : State :=
  let r := { r with waiting := r.waiting.filter fun x => x ≠ m }
  if code ≠ 0 then s.failRecompute r.slot r.span code
  else if r.waiting.isEmpty then s.endRecompute r.slot r.span
  else s.setRecompute r

/-- Completions of a recompute's span requests, by module number: this module's own as its record holds it, then the others'. -/
def State.takeAnswers (s : State) (slot : Nat) (answers : List (Nat × Nat)) : State :=
  let own := ((s.kvs.recomputes.find? fun r => r.slot = slot).bind (·.own)).map fun c => (s.self, c)
  (own.toList ++ answers.filter fun x => x.1 ≠ s.self).foldl (fun s x =>
    match s.kvs.recomputes.find? fun r => r.slot = slot with
    | some r =>
      let r := if x.1 = s.self then { r with own := none } else r
      if !r.waiting.contains x.1 then s.setRecompute r
      else if r.ending then s.endedBy r x.1 x.2 else s.beganBy r x.1 x.2
    | none => s) s

/-- Layer `l` of the span is prefilled on this module: its blocks hold 256 rows, or this module keeps its resident blocks (R174). -/
def State.layerDone (s : State) (r : Recompute) : Bool :=
  let m := (s.dir r.slot).model
  !r.began.contains s.self || (List.range (s.heads m)).all fun h => (s.side r.slot r.span (r.layer * s.heads m + h)).rows = 256

/-- The prefill goes on (R174): a layer that is done makes way for the next, and after the last RECOMP_END is posted. -/
def State.nextLayer (s : State) (r : Recompute) : State :=
  if s.layers (s.dir r.slot).model ≤ r.layer then s.postEnds r
  else if s.layerDone r then
    let r := { r with layer := r.layer + 1 }
    if s.layers (s.dir r.slot).model ≤ r.layer then s.postEnds r else s.setRecompute r
  else s

/-- RECOMPUTE_PREFILL (R174, R175): home firmware's stages of a recompute.  A wanted span begins; `answers` complete the requests of
other modules; with every RECOMP_BEGIN complete the prefill goes layer by layer, each layer a segment of its own whose scatters fill
the span's blocks, and ends with RECOMP_END; discarded with a code, by a scatter of this module or by `discarded`, it starts again, up
to three attempts. -/
def execRecomputePrefill (slot span : Nat) (away answers : List (Nat × Nat)) (discarded : Option Nat)
    (s : State) : Host.Outcome State Fault Refusal :=
  gate s fun s =>
    match s.kvs.recomputes.find? fun r => r.slot = slot with
    | none =>
      if s.kvs.wanted.contains (slot, span) && !(s.kvs.asks.any fun a => a.item.w0 = (s.hdr slot).handle && spanFirst a.item = span) then
        s.startRecompute slot span away
      else s
    | some r =>
      if r.span ≠ span then s
      else if !s.peers.all s.reaches then s.failRecompute slot span Code.trailDown
      else if !r.waiting.isEmpty || !r.again.isEmpty then s.takeAnswers slot answers
      else
        match r.failed.orElse fun _ => discarded with
        | none => s.nextLayer r
        | some c =>
          if 3 ≤ r.attempts then s.failRecompute slot span c else s.beginAttempt { r with attempts := r.attempts + 1 }

/-- RECOMP_BEGIN_RETRY (R175): 10 µs after a refusal with RECLAIM_PENDING the requests are posted again. -/
def execRecompBeginRetry (slot span : Nat) (s : State) : Host.Outcome State Fault Refusal :=
  gate s fun s =>
    match s.kvs.recomputes.find? fun r => r.slot = slot with
    | none => s
    | some r =>
      if r.span ≠ span || r.again.isEmpty || s.now < r.retryNs then s
      else
        r.again.foldl (fun s m => s.postSpan slot span 4 m)
          (s.setRecompute { r with waiting := r.waiting ++ r.again, again := [] })

end Sys2Proof.Machine
end

