-- ==== Sys2Proof/Machine/Faults.lean ====
section
/-! DEFINITION. Unit failure, step aborts, stalls, module faults and lost items (R682 to R699). -/

namespace Sys2Proof.Machine

open Sys2Proof

/-! ### Units (R683, R689, R690) -/

/-- Answer the items a unit has in hand. -/
def State.answerHand (s : State) (reader : Nat) : State :=
  let l := SMap.get [] s.hq.hand reader
  l.foldl (fun s it => s.unitAnswer reader it) { s with hq.hand := SMap.set [] s.hq.hand reader [] }

/-- The edge and the meter stop: messages, fragments and transfers in progress are gone, and transfer items are answered. -/
def State.failNet (s : State) : State :=
  let outs := s.net.outs
  let s := s.net.ins.foldl (fun s x => s.failTake x.1 x.2.slot Code.unitFailed) s
  let s := { s with
    fw.responses := [], net.reasm := [], net.ready := [], net.toText := [], net.shaper := [], net.outs := [], net.ins := []
    net.qps := s.net.qps.map fun (x : Nat × QueuePair) => (x.1, { x.2 with unacked := [], retries := 0 }) }
  outs.foldl (fun s x => s.xferDone x.item Code.unitFailed) s

/-- The host command that a page move serves (R71, R163). -/
def State.opHost (s : State) (op : PageOp) : Option Nat :=
  let host := fun (o : Origin) => match o with
    | .host c => some c
    | _ => none
  (s.tsm.reqs.find? fun r => r.id = op.req).bind fun r => match r.origin with
    | .span id => (s.kvs.reqs.find? fun x => x.id = id).bind fun x => host x.origin
    | o => host o

/-- Host commands whose effect a discard removes (R687). -/
def State.discardCmds (s : State) (ids : List Nat) : State :=
  { s with host.cmds := s.host.cmds.map fun (c : HostCmd) => if ids.contains c.id then { c with discarded := true } else c }

/-- Page moves for which `p` holds end with an outcome; the source remains home (R69). -/
def State.dropOps (s : State) (p : Nat → PageOp → Bool) (o : Outcome1) : State :=
  let l := (s.tsm.ops.filter fun x => p x.1 x.2).map (·.1)
  let s := s.dropAccs fun a => match a.use with
    | .ferry page => l.contains page
    | _ => false
  l.foldl (fun s k => s.dropClaim k o) s

/-- A ferry engine stops: its claims end as R69 has it, and a host command that they served is discarded (R687, R690). -/
def State.failFerry (s : State) (e : Nat) : State :=
  let ids := (s.tsm.ops.filter fun x => x.2.engine = e).filterMap fun x => s.opHost x.2
  (s.discardCmds ids).dropOps (fun _ op => op.engine = e) .abandoned

/-- A snapshot engine stops: the cut in progress aborts; with both engines failed the restores in progress end too. -/
def State.failSnap (s : State) : State :=
  let s := s.abortCut Code.snapEngine
  if !s.readerFailed 7 then s
  else
    let l := s.snp.restores
    let s := s.discardCmds (l.filterMap (·.cmd))
    l.foldl (fun s r => ((s.endChange r.slot).freeAll r.slot none 0 0).restoreReply r Code.unitFailed 0) { s with snp.restores := [] }

/-- The search and embedding unit stops: rankings and the row store are lost, items in progress are answered. -/
def State.failSeu (s : State) : State :=
  let l := s.seu.pools.map (·.item) ++ s.seu.lists.map (·.1) ++ s.seu.tables.map (·.1)
  l.foldl (fun s it => s.seuFail it Code.unitFailed noIndex) { s with seu := { windowNs := s.seu.windowNs } }

/-- The NAND controller stops: its operations are gone, and page moves from or to the sett fail without POISON. -/
def State.failNand (s : State) : State :=
  let s := { s with sett.progs := [], sett.reads := [] }
  s.dropOps (fun p op => !op.isDrop && (op.dst = .sett || (s.leaf p).tier = .sett)) (.failed Code.unitFailed)

/-- What a unit has in progress (R684, R689 step 2). -/
def State.stopUnit (s : State) : Nat → State
  | 0 => { s with txt.cached := [] }
  | 1 => s.failNet
  | 2 => s.failFerry 0
  | 3 => s.failFerry 1
  | 4 => s.failSnap
  | 5 => s.failSnap
  | 6 => s.failSeu
  | _ => s.failNand

/-- Readers whose items the fault of a unit leaves to firmware. -/
def State.readersOf (s : State) (u : Nat) : List Nat := [5, 7, 8, 9, 10].filter fun r => (unitsOf r).contains u && s.readerFailed r

/-- Times of a unit's faults in the last hour, with one now. -/
def State.faultTimes (s : State) (u : Nat) : List Nat :=
  ((SMap.get [] s.flt.unitTimes u).filter fun t => s.now < t + 3600 * 10 ^ 9) ++ [s.now]

/-- A unit's fault (R684, R687, R689, R690): its bit is set, its work is discarded and answered; the third within an hour fences
the unit. -/
def State.failUnit (s : State) (u : Nat) : State :=
  if s.unitFailed u then s
  else
    let ts := s.faultTimes u
    let s := { (s.setField Reg.fltUnits u u 1).bump (Reg.fltCnt 3) with flt.unitTimes := SMap.put s.flt.unitTimes u ts }
    let s := s.iff (3 ≤ ts.length) fun s => s.setField Reg.fltUnits (8 + u) (8 + u) 1
    let s := (s.readersOf u).foldl State.answerHand s
    (s.stopUnit u).setAttn 6

/-- UNIT_FAULT (R683, R689): a hardware error inside a unit, with its event record. -/
def execUnitFault (unit : Fin 8) (s : State) : Host.Outcome State Fault Refusal :=
  gate s fun s =>
    if s.unitFailed unit.val then s else (s.event Code.unitFailed 2 (unitDie unit.val) unit.val 0 0 0).failUnit unit.val

/-- HW_POP (R326, R328, R689, R698): the queue's hardware reader takes the next item into its hand, or firmware answers it while the
unit is failed; an empty queue makes the reader wait.  An item lost on the way is a fault of the unit. -/
def execHwPop (queue : BitVec 9) (s : State) : Host.Outcome State Fault Refusal :=
  gate s fun s =>
    let q := queue.toNat
    let u := s.qReader q
    if !s.readsQueue u q then s
    else
      let lost := lostItems (s.queue q).items.length (s.queue q).items
      let hit := if lost.isEmpty then none else s.workingUnit u
      let r := s.popQueue q
      let s := match r.1 with
        | none => r.2
        | some e =>
          if s.readerFailed u then r.2.unitAnswer u e.item
          else { r.2 with hq.hand := SMap.set [] r.2.hq.hand u (SMap.get [] r.2.hq.hand u ++ [e.item]) }
      match hit with
      | some k => s.failUnit k
      | none => s

/-- UNIT_SELFTEST_DONE (R689 step 4): a passing self-test of a unit that is not fenced restores it. -/
def execUnitSelftestDone (unit : Fin 8) (pass : Bool) (s : State) : Host.Outcome State Fault Refusal :=
  gate s fun s =>
    let u := unit.val
    if s.unitFailed u && pass && !bit (s.reg Reg.fltUnits) (8 + u) then
      (s.setField Reg.fltUnits u u 0).bump (Reg.fltCnt 4)
    else s

/-! ### Step aborts (R685, R691) -/

/-- The step must be discarded by this module: a segment of it was, or a participant cannot be reached. -/
def State.ownAbort (s : State) : Bool := (s.flt.discards.any s.stepDiscard) || !s.peers.all s.reaches

/-- Discard the running step here (R117, R685 step 1): every session not yet decided keeps its committed length.
A discard for which no segment's fault stands in the event log has a record of its own (R700). -/
def State.abortStep (s : State) (r : StepRun) : State :=
  let l := r.open_ ++ r.shards
  let own := s.flt.discards.any s.stepDiscard
  let s := s.iff (!own) fun s =>
    s.event (if s.peers.all s.reaches then Code.stepAborted else Code.trailDown) 0 4 255 r.n.toNat 0 0
  let s := l.foldl (fun s h => s.discardLen (hSlot h)) s
  { s with
    cmp.fails := s.cmp.fails.filter fun x => !l.contains x.1
    flt.discards := s.flt.discards.filter fun x => !s.stepDiscard x
    fw.cur := some { r with aborted := true, reports := [], logits := [], acks := [], tries := r.tries + 1 } }

/-- STEP_ABORT (R685): a discard here (`origin` this module) sends the step-abort to every participant; one received is
acknowledged; a step that this module has committed or that is not running is left as it is. -/
def execStepAbort (step : BitVec 32) (origin : Nat) (s : State) : Host.Outcome State Fault Refusal :=
  gate s fun s =>
    let own := origin = s.self
    let w := BitVec.ofNat 64 step.toNat
    let ack := fun (s : State) => if own then s else s.send origin 7 (.words 15 [w])
    if !own && !s.peers.contains origin then s
    else
      match s.fw.cur with
      | none => ack s
      | some r =>
        if r.n ≠ step then ack s
        else if r.aborted then ack s
        else if own then if s.ownAbort then (s.abortStep r).sendAll 7 (.words 14 [w]) else s
        else ack (s.abortStep r)

/-- Every die has retired its segments of the step. -/
def State.diesQuiet (s : State) : Bool :=
  (List.range 4).all fun d => (s.die d).state = .idle || s.dieService d

/-- The step is given up: every request of its batch homed here ends FAILED with STEP_ABORTED, the sessions stay ACTIVE. -/
def State.giveUpStep (s : State) (r : StepRun) : State :=
  let mine := (r.batch.filter fun e => hModule e.session = s.self && r.open_.contains e.session).map fun e => hSlot e.session
  let s := mine.foldl (fun s k => s.failReq k Code.stepAborted) (s.bump (Reg.fltCnt 2))
  (s.event Code.stepAborted 1 4 255 r.n.toNat 0 0).stepEnd r

/-- The sessions of a step still to be decided, with the drafts their requests hold. -/
def State.rerunDrafts (s : State) (r : StepRun) : List (Word × List Nat) :=
  r.open_.map fun h => (h, ((s.openReq? (hSlot h)).map fun x => x.2.drafts).getD [])

/-- STEP_RERUN (R685 steps 3 and 4): with the abort acknowledged by every participant that can be reached and every segment
retired, the step runs again with the same batch, or after the third discard in succession ends. -/
def execStepRerun (acks : List Nat) (s : State) : Host.Outcome State Fault Refusal :=
  gate s fun s =>
    match s.fw.cur with
    | none => s
    | some r =>
      if !r.aborted || !s.diesQuiet || !(s.peers.all fun m => acks.contains m || !s.reaches m) then s
      else if 3 ≤ r.tries then s.giveUpStep r
      else
        let left := r.batch.filter fun e => r.open_.contains e.session || r.shards.contains e.session
        (s.bump (Reg.fltCnt 1)).runStep { r with batch := left } (s.rerunDrafts r)

/-! ### Stalls (R691, R692) -/

/-- STALL_PROBE (R692): while STEP_STALL stands, firmware probes every participating module once every LIST_TIMEOUT_US; when every
one has answered, step assembly resumes. -/
def execStallProbe (answers : List Nat) (s : State) : Host.Outcome State Fault Refusal :=
  gate s fun s =>
    if !s.fw.stalled then s
    else
      let got := s.peers.filter fun m => s.flt.answered.contains m || (s.flt.probed.contains m && answers.contains m)
      let due := s.flt.probed.isEmpty || s.flt.probeNs + usec (s.field Reg.ctlStep 63 48) ≤ s.now
      if s.peers.all fun m => got.contains m then
        { s with fw.stalled := false, flt.stallSince := none, flt.probed := [], flt.answered := [] }
      else
        let s := { s with flt.answered := got }
        if due then { s.sendAll 7 (.probe 0) with flt.probed := s.peers, flt.probeNs := s.now } else s

/-- Requests homed here fail, and their sessions are parked (R692). -/
def State.loseModule (s : State) : State :=
  let s := s.fw.reqs.foldl (fun s x => s.failReq x.2.slot Code.trailDown) s
  let s := { s with fw.sent := none, fw.stalled := false, flt.stallSince := none, flt.probed := [], flt.answered := [] }
  let s := s.eachReq State.closeReq
  let slots := (s.hmp.dir.filter fun x => x.2.state = .active && x.2.kind = .home && !s.busy x.1).map (·.1)
  slots.foldl (fun s k => s.parkSoon k none) s

/-- MODULE_ABSENT (R692): a probed module silent for 1 s since the stall is taken as absent. -/
def execModuleAbsent (module : Nat) (s : State) : Host.Outcome State Fault Refusal :=
  gate s fun s =>
    let late := match s.flt.stallSince with
      | some t => t + 10 ^ 9 ≤ s.now
      | none => false
    if s.fw.stalled && late && s.flt.probed.contains module && !s.flt.answered.contains module then
      let s := { s with flt.absent := s.flt.absent ++ [module] }
      (s.event Code.trailDown 0 4 255 (s.stepNo) 0 (BitVec.ofNat 64 module)).loseModule
    else s

/-! ### Module faults and lost items (R696, R698) -/

/-- MODULE_FAULT (R696): the data plane stops with FATAL; without a code of its own the cause is MODULE_FAULT. -/
def execModuleFault (code : BitVec 16) (detail : Word) (s : State) : Host.Outcome State Fault Refusal :=
  gate s fun s => s.moduleFault (if code = 0 then Code.moduleFault else code.toNat) detail

/-- The work a lost item carried ends with ITEM_ECC: a ferry or span request completes, an open request fails. -/
def State.endLost (s : State) (x : LostItem) : State :=
  let r := s.qReader x.queue
  if r = 5 || r = 6 then
    s.post (bits x.item.w5 40 32) (completionItem x.item.w0 x.item.w1 0 0 0 Code.itemEcc 0) (bits x.item.w5 11 0)
  else if r = 0 && s.homeCode x.item.w0 = 0 then
    let s := s.failReq (hSlot x.item.w0) Code.itemEcc
    match s.openReq? (hSlot x.item.w0) with
    | none => s
    | some (i, _) => s.closeReq i
  else s

/-- LOST_ITEM_TIMEOUT (R698): 10 s after the loss. -/
def execLostItemTimeout (s : State) : Host.Outcome State Fault Refusal :=
  gate s fun s =>
    match s.flt.lost with
    | [] => s
    | x :: xs => if s.now < x.sinceNs + 10 * 10 ^ 9 then s else { s with flt.lost := xs }.endLost x

end Sys2Proof.Machine
end

