-- ==== Sys2Proof/Machine/Image.lean ====
section
/-! DEFINITION. Configuration images, shadows and commits (R632 to R655). -/

namespace Sys2Proof.Machine

open Sys2Proof

/-! ### Agreement rules (R648), over prospective register values -/

/-- Field hi:lo of a register as a view gives it. -/
def vf (v : Nat → Word) (k hi lo : Nat) : Nat := bits (v k) hi lo

/-- The ranges of an index directory entry (R469). -/
def indexEntryOk (it : Item) : Bool :=
  let dim := bits it.w0 63 51
  let lists := bits it.w0 50 34
  64 ≤ dim && dim ≤ 4096 && dim % 64 = 0 && 1 ≤ lists && lists ≤ 65536 && bits it.w0 33 32 ≤ 1 &&
    1 ≤ bits it.w0 30 25 && bits it.w0 30 25 ≤ 32

/-- The agreement of one group under a view of the registers; `seg` are the segments of the map, `staged` the staged index
entries. -/
def groupAgree (v : Nat → Word) (seg : Nat → PoolSeg) (staged : List Item) (g : Nat) : Bool :=
  let f := vf v
  match g with
  | 0 => f Reg.tsmWatermark 15 0 < f Reg.tsmWatermark 31 16 && 1 ≤ f Reg.tsmWatermark 47 32 &&
      (List.range 16).all fun c => f Reg.tsmPolicy (2 * c + 33) (2 * c + 32) ≠ 3
  | 1 => f Reg.tsmSettRation 39 32 < f Reg.tsmSettRation 47 40 && 1 ≤ f Reg.tsmSettRation 31 0 &&
      f Reg.tsmSettRation 31 0 ≤ 86400
  | 2 => 1 ≤ f Reg.tsmSnap 47 32
  | 3 =>
    let p := f Reg.hmpCustody 39 32
    1 ≤ f Reg.hmpCustody 31 16 && 1 ≤ f Reg.hmpCustody 15 0 && 1 ≤ f Reg.hmpRevive 39 8 &&
      (p = 0xFF || ((seg p).valid && (seg p).atomic))
  | 4 => 1 ≤ f Reg.kvsAttn 47 32
  | 5 => 1 ≤ f Reg.tileFence 7 0
  | 6 => 1 ≤ f Reg.ctlStep 63 48 && 1 ≤ f Reg.ctlStep 47 32 && 1 ≤ f Reg.ctlStep 31 19 && f Reg.ctlStep 31 19 ≤ 4096 &&
      f Reg.ctlStep 18 0 % 4096 = 0 && 1 ≤ f Reg.ctlRation 47 32 && 1 ≤ f Reg.ctlDeadline 63 48 &&
      f Reg.ctlDeadline 47 44 ≤ 8 && (f Reg.ctlSpec 4 4 = 0 || bit (v Reg.kvsAttn) (48 + f Reg.ctlSpec 3 0))
  | 7 => f Reg.ctlSched 63 62 ≤ 1 && 1 ≤ f Reg.ctlSched 7 4 && 1 ≤ f Reg.ctlSched 31 16
  | 9 => 1 ≤ f Reg.seuControl 63 56 && f Reg.seuControl 63 56 ≤ 64 && 1 ≤ f Reg.seuControl 55 40 &&
      1 ≤ f Reg.seuHot 63 48 && 1 ≤ f Reg.seuHot 47 32
  | 10 => f Reg.netControl 63 48 ≠ 4791 && 1 ≤ f Reg.netControl 47 32 && 1 ≤ f Reg.netRoce 63 48 &&
      (List.range 32).all fun k => f (Reg.netDscp 0) (2 * k + 1) (2 * k) ≠ 3 && f (Reg.netDscp 1) (2 * k + 1) (2 * k) ≠ 3
  | 11 => 1 ≤ f Reg.trlControl 63 48 && 1 ≤ f Reg.trlControl 47 40 && 1 ≤ f Reg.trlControl 39 24
  | 12 => 1 ≤ f Reg.fabControl 63 48 && 1 ≤ f Reg.fabControl 47 42 && f Reg.fabControl 47 42 ≤ 50 &&
      1 ≤ f Reg.fabPrefetch 31 24 && f Reg.fabPrefetch 31 24 ≤ f Reg.fabPrefetch 23 16 && 1 ≤ f Reg.fabPrefetch 39 32
  | 13 => 1 ≤ f Reg.dramScrub 7 0
  | 14 => (List.range 512).all fun q => !isReclaim (f (Reg.hqQcfg q) 11 0)
  | 16 => staged.all indexEntryOk
  | _ => true

/-! ### Records (R637 to R639) -/

/-- Bits a record may carry (R638). -/
def recordMask (k : Nat) : Word := regImageMask k ||| regMask k .rws

/-- Every register number of R637. -/
def regRowsAll : List RegRow := (List.range 19).flatMap regRowsOf

/-- The registers that need a record in a FULL image. -/
def imageRegs : List Nat :=
  (regRowsAll.filter fun r => r.fields.any fun f => f.reset = .image).flatMap fun r => pageRun r.first r.count

/-- A record: block, REG and value. -/
abbrev RegRec := Nat × Nat × Word
def recReg (r : RegRec) : Nat := r.1 * 65536 + r.2.1

/-- A refusal of a load: its code, section, block and REG, all ones where a field does not apply (R645). -/
structure LoadErr where
  code : Nat := 0
  section_ : Nat := 0xFFFF
  block : Nat := 0xFF
  reg : Nat := 0xFFFF
  deriving DecidableEq, Repr

def LoadErr.detail (e : LoadErr) : Word := fld 63 48 e.section_ ||| fld 31 24 e.block ||| fld 15 0 e.reg

/-! ### The image as bytes (R632 to R637, R640) -/

/-- A section of an image (R634): REGS records (block, REG, value), PINNED and LARDER descriptors, TABLE bytes, a VOCAB image, an INDEX
directory entry with its body, or the COMPOSITION map's bytes. -/
inductive CfgSection where
  | regs (recs : List RegRec)
  | pinned (ds : List PinDesc)
  | larder (ds : List LarderDesc)
  | table (dest : Word) (data : List Byte)
  | vocab (slot : Nat) (dest : Word) (data : List Byte)
  | index (slot : Nat) (dest : Word) (entry : Item) (body : List Byte)
  | composition (dest : Word) (data : List Byte)
  deriving DecidableEq, Repr, Inhabited

/-- A section table entry (R633). -/
structure SecEnt where
  stype : Nat := 0
  index : Nat := 0
  off : Nat := 0
  bytes : Nat := 0
  dest : Word := 0
  deriving DecidableEq, Repr, Inhabited

/-- Fields of the image header (R632). -/
def imgType (bs : List Byte) : Nat := bits (wordAt bs 0) 31 28
def imgSections (bs : List Byte) : Nat := bits (wordAt bs 0) 15 0
def imgSigOff (bs : List Byte) : Nat := bits (wordAt bs 8) 31 0
def imgBase (bs : List Byte) : BitVec 384 := BitVec.ofNat 384 (leWord ((bs.drop 0x18).take 48))

/-- Section table entry k, at 0x80 + 32·k. -/
def secEnt (bs : List Byte) (k : Nat) : SecEnt :=
  let a := wordAt bs (0x80 + 32 * k)
  let b := wordAt bs (0x88 + 32 * k)
  { stype := bits a 63 48, index := bits a 47 32, off := bits b 63 32, bytes := bits b 31 0, dest := wordAt bs (0x90 + 32 * k) }

/-- Pairs of words, 16 bytes each. -/
def pairs16 (bs : List Byte) : List (Word × Word) :=
  (List.range (bs.length / 16)).map fun i => (wordAt bs (16 * i), wordAt bs (16 * i + 8))

/-- A register record (R637). -/
def regRecOf (w : Word × Word) : RegRec := (bits w.1 63 56, bits w.1 55 40, w.2)
/-- A pinned-region descriptor (R635). -/
def pinOf (w : Word × Word) : PinDesc :=
  { base := w.1, pages := bits w.2 63 32, kind := bits w.2 31 28, tier := bits w.2 27 24, die := bits w.2 23 22 }
/-- A larder region descriptor (R636). -/
def larderOf (w : Word × Word) : LarderDesc :=
  { la := bits w.1 21 0, die := bits w.1 23 22, kind := bits w.1 27 24, granules := bits w.2 31 0 }

/-- The body of a section by its type (R634). -/
def sectionOf (bs : List Byte) (e : SecEnt) : CfgSection :=
  let body := (bs.drop e.off).take e.bytes
  match e.stype with
  | 1 => .regs ((pairs16 body).map regRecOf)
  | 2 => .pinned ((pairs16 body).map pinOf)
  | 3 => .larder ((pairs16 body).map larderOf)
  | 5 => .vocab e.index e.dest body
  | 6 => .index e.index e.dest ⟨wordAt body 0, wordAt body 8, wordAt body 16, wordAt body 24, wordAt body 32, wordAt body 40,
      wordAt body 48, wordAt body 56⟩ (body.drop 64)
  | 7 => .composition e.dest body
  | _ => .table e.dest body

/-- A configuration image: its bytes and sections. -/
structure CfgImage where
  bytes : List Byte := []
  sections : List CfgSection := []
  deriving DecidableEq, Repr, Inhabited

def CfgImage.ofBytes (bs : List Byte) : CfgImage :=
  { bytes := bs, sections := (List.range (imgSections bs)).map fun k => sectionOf bs (secEnt bs k) }
def CfgImage.full (i : CfgImage) : Bool := imgType i.bytes = 0
def CfgImage.digest (i : CfgImage) : BitVec 384 := Config.sha384 i.bytes
def CfgImage.baseDigest (i : CfgImage) : BitVec 384 := imgBase i.bytes

/-- Half-open ranges that do not overlap. -/
def disjoint : List (Nat × Nat) → Bool
  | [] => true
  | a :: l => l.all (fun b => a.2 ≤ b.1 || b.2 ≤ a.1) && disjoint l

/-- The header of R632. -/
def headerOk (bs : List Byte) : Bool :=
  let w := wordAt bs 0
  128 ≤ bs.length && bits w 63 48 = 0x5C0F && bits w 47 32 = 1 && imgType bs ≤ 1 && 1 ≤ imgSections bs && imgSections bs ≤ 1024 &&
    bits (wordAt bs 8) 63 32 = bs.length && imgSigOff bs % 64 = 0 && imgSigOff bs + 256 = bs.length &&
    0x80 + 32 * imgSections bs ≤ imgSigOff bs && (imgType bs = 1 || imgBase bs = 0)

/-- A section table entry of R633 with the size of its body, and the reserved values of its descriptors (R635, R636). -/
def secOk (bs : List Byte) (e : SecEnt) : Bool :=
  1 ≤ e.stype && e.stype ≤ 7 &&
    (if e.stype = 5 then e.index < 16 else if e.stype = 6 then e.index < 64 else e.index = 0) &&
    e.off % 64 = 0 && 0x80 + 32 * imgSections bs ≤ e.off && e.off + e.bytes ≤ imgSigOff bs &&
    (match sectionOf bs e with
      | .regs _ => e.bytes % 16 = 0
      | .pinned ds => e.bytes % 16 = 0 && ds.all fun d => d.kind ≤ 5 && d.tier ≤ 1
      | .larder ds => e.bytes % 16 = 0 && ds.all fun d => d.kind ≤ 8
      | .index .. => 64 ≤ e.bytes
      | .composition .. => 0x2040 ≤ e.bytes && e.bytes ≤ 65536
      | _ => true)

/-- Step 2 of R643: the header, the section table and reserved values. -/
def formatErr (bs : List Byte) : Option LoadErr :=
  let es := (List.range (imgSections bs)).map (secEnt bs)
  if !headerOk bs then some { code := Code.cfgFormat }
  else
    match es.findIdx? fun e => !secOk bs e with
    | some k => some { code := Code.cfgFormat, section_ := k }
    | none =>
      if disjoint ((es.filter fun e => e.bytes ≠ 0).map fun e => (e.off, e.off + e.bytes)) then none
      else some { code := Code.cfgFormat }

/-! ### Section counts and records (R634, R638, R639) -/

def isRegs : CfgSection → Bool
  | .regs _ => true
  | _ => false
def isPinned : CfgSection → Bool
  | .pinned _ => true
  | _ => false
def isLarder : CfgSection → Bool
  | .larder _ => true
  | _ => false
def isMap : CfgSection → Bool
  | .composition .. => true
  | _ => false
def vocabSlot : CfgSection → Option Nat
  | .vocab slot .. => some slot
  | _ => none
def indexSlot : CfgSection → Option Nat
  | .index slot .. => some slot
  | _ => none

/-- The register records of an image. -/
def imgRecords (i : CfgImage) : List RegRec := i.sections.flatMap fun x => match x with
  | .regs rs => rs
  | _ => []

/-- The section index of the REGS section. -/
def regsIndex (i : CfgImage) : Nat := (i.sections.findIdx? isRegs).getD 0xFFFF

/-- First value that stands in a list twice. -/
def firstDup : List Nat → Option Nat
  | [] => none
  | a :: l => if l.contains a then some a else firstDup l

/-- A count rule of R634 that must hold exactly. -/
def countErr (i : CfgImage) (p : CfgSection → Bool) : Option LoadErr :=
  match (i.sections.zipIdx.filter fun x => p x.1).map (·.2) with
  | [] => some { code := Code.cfgMissing }
  | [_] => none
  | _ :: k :: _ => some { code := Code.cfgFormat, section_ := k }

/-- At most one section per slot (R634). -/
def slotErr (i : CfgImage) : Option LoadErr :=
  if (firstDup (i.sections.filterMap vocabSlot)).isSome || (firstDup (i.sections.filterMap indexSlot)).isSome then
    some { code := Code.cfgFormat }
  else none

def regErr (i : CfgImage) (code k : Nat) : LoadErr :=
  { code := code, section_ := regsIndex i, block := k / 65536, reg := k % 65536 }

/-- The records of an image: named twice, for a register that may have none, or with a bit that must be zero (R638, R639). -/
def recordErr (i : CfgImage) : Option LoadErr :=
  match firstDup ((imgRecords i).map recReg) with
  | some k => some (regErr i Code.cfgFormat k)
  | none =>
    let mask := fun (k : Nat) => if i.full then recordMask k else regMask k .rws
    match (imgRecords i).find? fun r => mask (recReg r) = 0 || (i.full && r.2.2 &&& ~~~ recordMask (recReg r) ≠ 0) with
    | some r => some (regErr i Code.cfgFormat (recReg r))
    | none => none

/-- A register with an I field that has no record. -/
def missingReg (i : CfgImage) : Option LoadErr :=
  let have_ := (imgRecords i).map recReg
  (imageRegs.find? fun k => !have_.contains k).map fun k => regErr i Code.cfgMissing k

/-- Step 5 of R643. -/
def fullCounts (i : CfgImage) : Option LoadErr :=
  (countErr i isRegs).or ((countErr i isPinned).or ((countErr i isLarder).or ((countErr i isMap).or ((slotErr i).or
    ((recordErr i).or (missingReg i))))))

/-! ### Load checks of a FULL image (R643 step 6) -/

def imgPins (i : CfgImage) : List PinDesc := i.sections.flatMap fun x => match x with
  | .pinned ds => ds
  | _ => []
def imgLarders (i : CfgImage) : List LarderDesc := i.sections.flatMap fun x => match x with
  | .larder ds => ds
  | _ => []
def imgMap (i : CfgImage) : CompMap := (i.sections.findSome? fun x => match x with
  | .composition _ bs => some (CompMap.ofBytes bs)
  | _ => none).getD {}

/-- The value a register takes from a record. -/
def State.imageVal (s : State) (i : CfgImage) (k : Nat) : Word :=
  match (imgRecords i).find? fun r => recReg r = k with
  | none => s.reg k
  | some r => (s.reg k &&& ~~~ recordMask k) ||| (r.2.2 &&& recordMask k)

/-- State bytes [a, a + n) lie in one pinned region. -/
def inPins (ps : List PinDesc) (a n : Nat) : Bool :=
  ps.any fun p => p.base.toNat ≤ a && a + n ≤ p.base.toNat + 65536 * p.pages

/-- Pages of the PAGE_TABLE regions. -/
def tablePagesOf (ds : List PinDesc) : List Nat :=
  (ds.filter fun d => d.kind = 0).flatMap fun d => pageRun (d.base.toNat / 65536) d.pages

/-- The pinned regions of R635 (R76, R400); the page table is homed in DRAM (R56). -/
def pinsOk (ps : List PinDesc) : Bool :=
  1 ≤ ps.length && ps.length ≤ 64 &&
    ps.all (fun p => p.base.toNat % 65536 = 0 && p.base.toNat + 65536 * p.pages ≤ 2 ^ 52 &&
      (p.kind ≠ 0 || p.tier = 1)) &&
    disjoint (ps.map fun p => (p.base.toNat, p.base.toNat + 65536 * p.pages)) &&
    ((List.range 4).all fun d => (ps.any fun p => p.kind = 1 && p.die = d && p.pages = 1280) &&
      ps.any fun p => p.kind = 2 && p.die = d && 1 ≤ p.pages) &&
    (ps.any fun p => p.kind = 0) && (ps.any fun p => p.kind = 3) && ps.any fun p => p.kind = 4

/-- The larder regions of R636. -/
def lardersOk (ls : List LarderDesc) : Bool :=
  ls.all (fun r => r.la + r.granules ≤ 3145728) &&
    (List.range 4).all fun d => disjoint ((ls.filter fun r => r.die = d).map fun r => (r.la, r.la + r.granules))

/-- The byte a TABLE section places at a state address. -/
def imgByte (i : CfgImage) (a : Nat) : Byte :=
  (i.sections.findSome? fun x => match x with
    | .table d bs => if d.toNat ≤ a then bs[a - d.toNat]? else none
    | _ => none).getD 0

def imgWord (i : CfgImage) (a : Nat) : Word :=
  BitVec.ofNat 64 ((List.range 8).foldl (fun n k => n + (imgByte i (a + k)).toNat * 256 ^ k) 0)

def imgBytes (i : CfgImage) (a n : Nat) : List Byte := (List.range n).map fun k => imgByte i (a + k)

/-- Every automaton that the grammar directory names passes the checks of R450. -/
def grammarsOk (i : CfgImage) (v : Nat → Word) : Bool :=
  (List.range (vf v Reg.txtGrammar 48 36)).all fun n =>
    let a := 65536 * vf v Reg.txtGrammar 35 0 + 16 * n
    let at_ := (imgWord i a).toNat
    let entries := ((i.sections.findSome? fun x => match x with
      | .vocab k _ bs => if k = bits (imgWord i (a + 8)) 47 44 then some (Vocab.mk bs).entries else none
      | _ => none)).getD 0
    at_ = 0 || (Grammar.mk (imgBytes i at_ (bits (imgWord i (at_ + 0x20)) 63 32))).ok entries

/-- Every job's role, and its window against the LARDER section (R389, R390, R392, R636). -/
def jobsOk (i : CfgImage) (v : Nat → Word) : Bool :=
  (List.range (vf v Reg.ctlJobTable 42 36)).all fun j =>
    let a := 65536 * vf v Reg.ctlJobTable 35 0 + 32 * j
    let w := imgWord i (a + 8)
    let win := imgWord i (a + 16)
    let role := bits w 31 28
    role ≤ 4 && role ≠ 3 && (imgWord i a = 0 || (List.range 4).all fun d =>
      (imgLarders i).any fun r => r.kind = bits w 23 22 && r.die = d && r.la = bits win 21 0 && r.granules = bits win 63 32)

/-- One model slot's geometry (R144, R145), and its projection table: aligned, and in a pinned region (R183). -/
def geometryOk (ps : List PinDesc) (v : Nat → Word) (n : Nat) : Bool :=
  let f := vf v (Reg.kvsGeometry n)
  let e := f 63 56
  f 47 46 ≠ 3 && 1 ≤ f 45 40 && f 45 40 ≤ 32 && 1 ≤ f 39 36 && 1 ≤ f 35 28 && e ≠ 0x80 && e ≠ 0x81 &&
    f 15 0 = f 35 28 * f 39 36 * (if f 47 46 = 2 then 2 else 1) && vf v (Reg.kvsProj n) 11 0 = 0 &&
    inPins ps (v (Reg.kvsProj n)).toNat (32 * (64 * 2 ^ f 47 46))

/-- The queues' stores (R340). -/
def queuesOk (v : Nat → Word) : Bool :=
  let on := (List.range 512).filter fun q => vf v (Reg.hqQcfg q) 41 29 ≠ 0
  on.all (fun q =>
    let f := vf v (Reg.hqQcfg q)
    f 41 29 % 16 = 0 && f 41 29 ≤ 4096 && f 57 42 % 16 = 0 && f 57 42 + f 41 29 ≤ 65536 && f 28 25 ≤ 12) &&
    disjoint (on.map fun q => (vf v (Reg.hqQcfg q) 57 42, vf v (Reg.hqQcfg q) 57 42 + vf v (Reg.hqQcfg q) 41 29))

/-- Ranges of fields that no commit changes. -/
def fixedOk (i : CfgImage) (v : Nat → Word) : Bool :=
  let f := vf v
  (List.range 16).all (fun n => geometryOk (imgPins i) v n && f (Reg.ctlSteer n) 63 57 ≤ 64 && f (Reg.ctlSteer n) 56 38 ≤ 262144) &&
    f Reg.tsmRoot 24 0 + (tablePagesOf (imgPins i)).length ≤ 33554432 && queuesOk v && 16 ≤ f Reg.ctlReqCount 16 0 && f Reg.ctlReqCount 16 0 ≤ 65536 &&
    ((List.range 4).all fun d => 1 ≤ f Reg.ctlDieRole (4 * d + 3) (4 * d) && f Reg.ctlDieRole (4 * d + 3) (4 * d) ≤ 3) &&
    1 ≤ f Reg.ctlJobTable 42 36 && f Reg.ctlJobTable 42 36 ≤ 64 && f Reg.txtStop 48 36 ≤ 4096 &&
    f Reg.txtGrammar 48 36 ≤ 4096 && f Reg.seuTableDir 44 36 ≤ 256 && 128 ≤ f Reg.tsmSnapStage 51 36 &&
    f Reg.trlCredit 35 24 + f Reg.trlCredit 23 12 + f Reg.trlCredit 11 0 ≤ 4032 &&
    inPins (imgPins i) (65536 * f Reg.tsmSnapStage 35 0) (65536 * f Reg.tsmSnapStage 51 36) &&
    inPins (imgPins i) (65536 * f Reg.ctlJobTable 35 0) (32 * f Reg.ctlJobTable 42 36) &&
    inPins (imgPins i) (65536 * f Reg.fabControl 35 0) 65536 && inPins (imgPins i) (65536 * f Reg.seuIndexDir 35 0) 4096 &&
    inPins (imgPins i) (65536 * f Reg.seuTableDir 35 0) (64 * f Reg.seuTableDir 44 36) &&
    inPins (imgPins i) (65536 * f Reg.seuScratch 35 0) 33554432

/-- The initial composition (R583). -/
def mapOk (m : CompMap) (v : Nat → Word) : Bool :=
  m.kindOk && 1 ≤ m.modules && m.modules ≤ 8 && m.ringPos < m.modules && m.modules ≤ m.peers.length &&
    vf v Reg.fabComp 63 48 = m.epoch.toNat && vf v Reg.fabComp 11 9 = m.ringPos

/-- A section's body lies in a pinned region and passes the checks of its chapter (R434, R469). -/
def sectionOk (ps : List PinDesc) : CfgSection → Bool
  | .table d bs => inPins ps d.toNat bs.length
  | .vocab _ d bs => inPins ps d.toNat bs.length && (Vocab.mk bs).ok d.toNat
  | .index _ d e bs => inPins ps d.toNat bs.length && indexEntryOk e
  | _ => true

/-- Step 6 of R643: the section that fails, if its checks can name one. -/
def State.fullAgree (s : State) (i : CfgImage) : Option LoadErr :=
  let v := s.imageVal i
  let seg := fun (k : Nat) => SMap.get {} (imgMap i).segs k
  match i.sections.zipIdx.find? fun x => !sectionOk (imgPins i) x.1 with
  | some x => some { code := Code.cfgAgree, section_ := x.2 }
  | none =>
    if pinsOk (imgPins i) && lardersOk (imgLarders i) && jobsOk i v && grammarsOk i v && fixedOk i v && mapOk (imgMap i) v
        && (List.range 15).all fun g => groupAgree v seg [] g then none
    else some { code := Code.cfgAgree }

/-! ### Placement of a FULL image (R643 step 7) -/

/-- Map one pinned page (R76): a zeroed home in the region's tier, with PIN = 1.  A page for which its tier, or the PAGE_TABLE
region, has no room is left unmapped, and the load goes on: the manual names no refusal for it (log entry 92). -/
def State.pinPage (s : State) (d : PinDesc) (p : Nat) : State :=
  let t := (Tier.ofCode d.tier).getD .dram
  match s.mapPage p t (if t = .larder then d.die else 0) false 0 with
  | none => s
  | some s => s.setLeaf p { s.leaf p with pin := true }

/-- Map a page of the PAGE_TABLE region at a given DRAM page. -/
def State.pinTable (s : State) (p loc : Nat) : State :=
  let s := s.mapAt p .dram loc false 0
  s.setLeaf p { s.leaf p with pin := true }

/-- Map every pinned region: the PAGE_TABLE region's pages from ROOT_PAGE upward (R56, log entry 11), then the others. -/
def State.placePins (s : State) (ds : List PinDesc) : State :=
  let s := { s with cfg.pins := ds, tsm.boot := false }
  let s := (tablePagesOf ds).zipIdx.foldl (fun s x => s.pinTable x.1 (s.rootPage + x.2)) s
  (ds.filter fun d => d.kind ≠ 0).foldl (fun s d =>
    (pageRun (d.base.toNat / 65536) d.pages).foldl (fun s p => s.pinPage d p) s) s

/-- Place a section's body. -/
def State.placeSection (s : State) : CfgSection → State
  | .table d bs => { s.setTabBytes d.toNat bs with cfg.tables := s.cfg.tables ++ [(d.toNat, bs.length)] }
  | .vocab k d bs => { s.setTabBytes d.toNat bs with cfg.places := SMap.put s.cfg.places k (d.toNat, bs.length) }
  | .index k d e bs =>
    let s := (s.setTabBytes d.toNat bs).setTabBytes (65536 * s.field Reg.seuIndexDir 35 0 + 64 * k)
      (e.words.flatMap fun w => leBytes w.toNat 8)
    { s with cfg.places := SMap.put s.cfg.places (16 + k) (d.toNat, bs.length) }
  | .composition _ bs => { s.setTabBytes (65536 * s.field Reg.fabControl 35 0) bs with comp.map := CompMap.ofBytes bs }
  | .larder ds => { s with cfg.larder := ds }
  | .pinned ds => { s with cfg.pins := ds }
  | _ => s

def State.placeRegs (s : State) (i : CfgImage) : State :=
  (imgRecords i).foldl (fun s r => s.setReg (recReg r) (s.imageVal i (recReg r))) s

/-- A FULL image takes effect (R643 step 7, R644, R714).  `dirBase` and `headerBase` are where the image places the session directory
and the header region, which no register names (log entry 38); `dirHeader` is the directory header word of DIR_POOL as read (R125). -/
def State.placeFull (s : State) (i : CfgImage) (dirHeader dirBase headerBase : Word) : State :=
  let s := { s with hmp.dirBase := dirBase.toNat, hmp.headerBase := headerBase.toNat }
  let s := (s.placeRegs i).placePins (imgPins i)
  let s := i.sections.foldl (fun s x => s.placeSection x) s
  let s := { s with shadow := [], cfg.base := some i.digest, plat.stage := 7 }
  let s := { s with comp.drainNs := msec (s.field Reg.fabControl 47 42) }
  let s := ((s.setField Reg.ctlDieRole 19 16 0).readDir dirHeader).scanClaims
  ((List.range 8).foldl (fun s p => s.bringUp p) s).openCharge

/-! ### DELTA images (R646) -/

def deltaAllowed : CfgSection → Bool
  | .regs _ => true
  | .vocab .. => true
  | .index .. => true
  | _ => false

/-- The group a section of a DELTA writes. -/
def sectionGroups : CfgSection → List Nat
  | .regs rs => rs.filterMap fun r => groupOf (recReg r)
  | .vocab .. => [15]
  | .index .. => [16]
  | _ => []

/-- The rows of the valid tables (R487), and the bodies of TABLE sections. -/
def State.tablesAt (s : State) : List (Nat × Nat) :=
  s.cfg.tables ++ ((List.range s.tableCount).map s.table |>.filter fun t => t.valid).map fun t =>
    (t.base, t.stride * (if t.sharded then ceilDiv t.rows s.comp.map.modules else t.rows))

/-- A staged body's place (R646): pinned, and clear of every vocabulary, index and table in effect. -/
def State.placeFree (s : State) (a n : Nat) : Bool :=
  s.pinnedRange a n && (s.cfg.places.map (·.2) ++ s.tablesAt).all fun x => x.1 + x.2 ≤ a || a + n ≤ x.1

/-- The checks of a staged section. -/
def State.stageOk (s : State) : CfgSection → Bool
  | .vocab _ d bs => s.placeFree d.toNat bs.length && (Vocab.mk bs).ok d.toNat
  | .index _ d e bs => s.placeFree d.toNat bs.length && indexEntryOk e
  | _ => true

def State.deltaErr (s : State) (i : CfgImage) : Option LoadErr :=
  match s.cfg.base with
  | none => some { code := Code.cfgBase }
  | some b =>
    if b ≠ i.baseDigest then some { code := Code.cfgBase }
    else
      match i.sections.zipIdx.find? fun x => !deltaAllowed x.1 with
      | some x => some { code := Code.cfgSection, section_ := x.2 }
      | none =>
        match i.sections.zipIdx.find? fun x => (sectionGroups x.1).any fun g => (SMap.lookup s.cfg.pending g).isSome with
        | some x => some { code := Code.cfgBusy, section_ := x.2 }
        | none =>
          let two := match (i.sections.zipIdx.filter fun x => isRegs x.1).map (·.2) with
            | _ :: k :: _ => some { code := Code.cfgFormat, section_ := k : LoadErr }
            | _ => none
          two.or ((slotErr i).or ((recordErr i).or
            ((i.sections.zipIdx.find? fun x => !s.stageOk x.1).map fun x => { code := Code.cfgAgree, section_ := x.2 })))

/-- Stage a section of an accepted DELTA. -/
def State.stageSection (s : State) : CfgSection → State
  | .regs rs => rs.foldl (fun s r =>
      let k := recReg r
      let m := regMask k .rws
      { s with shadow := SMap.put s.shadow k ((s.reg k &&& ~~~ m) ||| (r.2.2 &&& m)) }) s
  | .vocab k d bs => { s.setTabBytes d.toNat bs with cfg.vocabs := SMap.put s.cfg.vocabs k { dest := d, size := bs.length } }
  | .index k d e bs =>
    let s := s.setTabBytes d.toNat bs
    { s with cfg.indexes := SMap.put s.cfg.indexes k { dest := d, size := bs.length, entry := e } }
  | _ => s

/-- Steps 5 on, after the measurement. -/
def State.loadMeasured (s : State) (i : CfgImage) (dirHeader dirBase headerBase : Word) : Except LoadErr State :=
  if i.full then
    match (fullCounts i).or (s.fullAgree i) with
    | some e => .error e
    | none => .ok (s.placeFull i dirHeader dirBase headerBase)
  else
    match s.deltaErr i with
    | some e => .error e
    | none => .ok (i.sections.foldl (fun s x => s.stageSection x) s)

/-- The image's signature block verifies (R640). -/
def State.imageSigned (s : State) (bs : List Byte) : Bool := s.signed bs (imgSigOff bs)

/-- LOAD_IMAGE (R641 to R646).  `image` is what the DMA read of ARG2 bytes gave (R664). -/
def execLoadImage (cmd : Nat) (image : Option (List Byte)) (dirHeader dirBase headerBase : Word) (s : State) :
    Host.Outcome State Fault Refusal :=
  hostCmd cmd 0x03 s fun c s =>
    let refuse := fun (s : State) (e : LoadErr) => s.complete c.id e.code e.detail 0
    match image with
    | none => s.complete c.id Code.hostDma 0 0
    | some bs =>
      let i := CfgImage.ofBytes bs
      if !s.fuse (928 + c.fn) then refuse s { code := Code.cfgDenied }
      else if i.full && s.loaded then refuse s { code := Code.cfgBase }
      else
        match formatErr bs with
        | some e => refuse s e
        | none =>
          if !s.imageSigned bs then refuse s { code := Code.cfgSignature }
          else
            match s.extend 4 (if i.full then 4 else 5) i.digest with
            | none => refuse s { code := Code.cfgLogFull }
            | some s =>
              match s.loadMeasured i dirHeader dirBase headerBase with
              | .error e => refuse s e
              | .ok s => s.complete c.id 0 0 0

/-! ### Commits (R648 to R652) -/

/-- A group changes something that is in use (R650).  A vocabulary in use is one that a session homed here or a grammar names: a
shard's header holds no vocabulary (R111). -/
def State.groupInUse (s : State) (g : Nat) : Bool :=
  match g with
  | 3 => bits (s.shadowReg Reg.hmpCustody) 39 32 ≠ s.dirPool && s.hmp.dir.any fun x => x.2.tracked
  | 6 =>
    let new := s.shadowReg Reg.ctlSpec
    let old := s.reg Reg.ctlSpec
    (bits new 3 0 ≠ bits old 3 0 || (bit old 4 && !bit new 4)) &&
      s.fw.reqs.any fun x => bit x.2.item.w2 24 || x.2.fallback
  | 15 => s.cfg.vocabs.any fun x =>
      bit (s.reg (Reg.txtVocab x.1)) 63 &&
        ((s.hmp.dir.any fun e => e.2.state ≠ .free && e.2.kind = .home && (s.hdr e.1).vocab = x.1) ||
          (List.range (s.field Reg.txtGrammar 48 36)).any fun n => (s.gramEntry n).addr ≠ 0 && (s.gramEntry n).vocab = x.1)
  | _ => false

/-- 0, or the refusal of a group at COMMIT. -/
def State.groupCode (s : State) (g : Nat) : Nat :=
  if !groupAgree s.shadowReg s.seg (s.cfg.indexes.map fun x => x.2.entry) g then Code.cfgAgree
  else if s.groupInUse g then Code.cfgInUse
  else 0

/-- Check the named groups in ascending order: the groups that pass, and the first refusal. -/
def State.checkGroups (s : State) (gs : List Nat) : List Nat × Nat :=
  gs.foldl (fun r g => if s.groupCode g = 0 then (r.1 ++ [g], r.2) else (r.1, if r.2 = 0 then s.groupCode g else r.2)) ([], 0)

/-- The completion of a COMMIT with nothing left pending (R652). -/
def State.commitDone (s : State) (id : Nat) : State :=
  match s.begun? id 0x04 with
  | none => s
  | some c =>
    if c.groupsLeft.isEmpty then s.complete id c.firstCode (fld 31 0 (sumNat (c.groupsDone.map fun g => 2 ^ g))) 0 else s

/-- COMMIT (R651, R652, R668). -/
def execCommit (cmd : Nat) (s : State) : Host.Outcome State Fault Refusal :=
  hostCmd cmd 0x04 s fun c s =>
    let mask := bits (c.arg 0) 31 0
    let gs := (List.range 17).filter fun g => mask / 2 ^ g % 2 = 1
    if 2 ^ 17 ≤ mask then s.complete c.id Code.invalidField 0 0
    else if gs.any fun g => (SMap.lookup s.cfg.pending g).isSome then s.complete c.id Code.cfgBusy 0 0
    else
      let r := s.checkGroups gs
      let s := s.began c.id
      let s := { s with
        host.cmds := s.host.cmds.map fun (x : HostCmd) =>
          if x.id = c.id then { x with groupsLeft := r.1, firstCode := r.2 } else x
        cfg.pending := r.1.foldl (fun m g => SMap.put m g c.id) s.cfg.pending }
      s.commitDone c.id

/-- The safe point of a group (R648). -/
def State.safePoint (s : State) (g : Nat) : Bool :=
  match g with
  | 2 => !bit (s.reg Reg.tsmSnap) 9
  | 3 => s.fw.cur.isNone
  | 4 => s.fw.cur.isNone
  | 6 => s.fw.cur.isNone
  | 12 => (List.range 4).all fun k => SMap.get 0 s.ticks (tickPrefetch + k) + 100000 ≤ s.now
  | 16 => !s.seu.lists.any fun x => (SMap.lookup s.cfg.indexes (bits x.1.w2 59 52)).isSome
  | _ => true

/-- What has begun or arrived before a group applies keeps the old values (R648, R649). -/
def State.keepOld (s : State) (g : Nat) : State :=
  match g with
  | 8 => s.keepCfg 9 [Reg.txtControl]
  | 9 => s.keepCfg 10 [Reg.seuControl, Reg.seuHot]
  | 10 =>
    let keep := fun (m : NetMsg) =>
      if m.old.isEmpty then { m with old := [Reg.netControl, Reg.netDscp 0, Reg.netDscp 1].map fun k => (k, s.reg k) } else m
    { s with net.reasm := s.net.reasm.map keep, net.ready := s.net.ready.map keep, net.toText := s.net.toText.map keep }
  | 15 => s.keepCfg 9 ((List.range 16).map Reg.txtVocab)
  | _ => s

/-- Apply the shadows of a group in one step. -/
def State.applyShadows (s : State) (g : Nat) : State :=
  let mine := s.shadow.filter fun x => groupOf x.1 = some g
  let s := mine.foldl (fun s x => s.setReg x.1 ((s.reg x.1 &&& ~~~ regMask x.1 .rws) ||| (x.2 &&& regMask x.1 .rws))) s
  { s with shadow := s.shadow.filter fun x => groupOf x.1 ≠ some g }

/-- TRAIL: a cleared bit of ENABLE takes its port DOWN, a set one starts bring-up (R649). -/
def State.applyTrail (s : State) (old : Word) : State :=
  (List.range 8).foldl (fun s p =>
    if bit old (16 + p) && !s.trlEnabled p then s.portDown p Code.trailDown
    else if !bit old (16 + p) && s.trlEnabled p then s.bringUp p
    else s) s

/-- VOCAB: staged images take effect (R652). -/
def State.applyVocabs (s : State) : State :=
  let s := s.cfg.vocabs.foldl (fun s x =>
    let s := s.setReg (Reg.txtVocab x.1) (fld 63 63 1 ||| fld 35 0 (x.2.dest.toNat / 65536))
    { s with cfg.places := SMap.put s.cfg.places x.1 (x.2.dest.toNat, x.2.size) }) s
  { s with cfg.vocabs := [] }

/-- INDEX: staged directory entries take effect (R652). -/
def State.applyIndexes (s : State) : State :=
  let s := s.cfg.indexes.foldl (fun s x =>
    let s := s.setTabBytes (65536 * s.field Reg.seuIndexDir 35 0 + 64 * x.1)
      (x.2.entry.words.flatMap fun w => leBytes w.toNat 8)
    { s with cfg.places := SMap.put s.cfg.places (16 + x.1) (x.2.dest.toNat, x.2.size) }) s
  { s with cfg.indexes := [] }

/-- GROUP_APPLY (R651): a pending group at its safe point. -/
def execGroupApply (group : Fin 17) (s : State) : Host.Outcome State Fault Refusal :=
  gate s fun s =>
    let g := group.val
    match SMap.lookup s.cfg.pending g with
    | none => s
    | some cmd =>
      if !s.safePoint g then s
      else
        let old := s.reg Reg.trlControl
        let s := (s.keepOld g).applyShadows g
        let s := if g = 11 then s.applyTrail old else if g = 15 then s.applyVocabs else if g = 16 then s.applyIndexes else s
        let s := { s with
          cfg.pending := SMap.erase s.cfg.pending g
          host.cmds := s.host.cmds.map fun (x : HostCmd) =>
            if x.id = cmd then { x with groupsLeft := x.groupsLeft.erase g, groupsDone := x.groupsDone ++ [g] } else x }
        s.commitDone cmd

end Sys2Proof.Machine
end

