-- ==== Sys2Proof/Machine/Slots.lean ====
section
/-! DEFINITION. The rows of the slot opcodes: tile, mover, larder-port, scalar, tally and branch slots (R277 to R299). -/

namespace Sys2Proof.Machine

open Sys2Proof

/-- TNOP (R277): occupies the slot. -/
def execTnop (die : Fin 4) (tile : Fin 32) (dur : BitVec 12) (s : State) : Host.Outcome State Fault Refusal :=
  gate s fun s => s.issueOne die.val tile.val (.ok (.tile .nop)) (cyclesOf dur)

/-- LOADB (R235, R237): a stationary operand goes into the shadow register. -/
def execLoadb (die : Fin 4) (tile : Fin 32) (dur : BitVec 12) (fmt : Fmt) (src : BitVec 14) (s : State) :
    Host.Outcome State Fault Refusal :=
  gate s fun s => s.issueOne die.val tile.val (.ok (.tile (.loadb fmt src))) (cyclesOf dur)

/-- MMA (R236, R238, R280): rows of A times the active stationary operand into a set, with an optional swap and load. -/
def execMma (die : Fin 4) (tile : Fin 32) (dur : BitVec 12) (fmtA : Fmt) (srcA : BitVec 14) (acc : BitVec 3)
    (accum swap ld : Bool) (fmtB : Fmt) (srcB : BitVec 14) (s : State) :
    Host.Outcome State Fault Refusal :=
  gate s fun s => s.issueOne die.val tile.val (.ok (.tile (.mma fmtA srcA acc accum swap ld fmtB srcB))) (cyclesOf dur)

/-- VADD (R277, R248): dst := src1 + src2. -/
def execVadd (die : Fin 4) (tile : Fin 32) (dur : BitVec 12) (dst src1 src2 : BitVec 14) (s : State) :
    Host.Outcome State Fault Refusal :=
  gate s fun s => s.issueOne die.val tile.val (.ok (.tile (.vec .add dst src1 src2 0))) (cyclesOf dur)

/-- VSUB (R277, R248): dst := src1 − src2. -/
def execVsub (die : Fin 4) (tile : Fin 32) (dur : BitVec 12) (dst src1 src2 : BitVec 14) (s : State) :
    Host.Outcome State Fault Refusal :=
  gate s fun s => s.issueOne die.val tile.val (.ok (.tile (.vec .sub dst src1 src2 0))) (cyclesOf dur)

/-- VMUL (R277, R248): dst := src1 × src2. -/
def execVmul (die : Fin 4) (tile : Fin 32) (dur : BitVec 12) (dst src1 src2 : BitVec 14) (s : State) :
    Host.Outcome State Fault Refusal :=
  gate s fun s => s.issueOne die.val tile.val (.ok (.tile (.vec .mul dst src1 src2 0))) (cyclesOf dur)

/-- VFMA (R277, R248): dst := src1 × src2 + dst with one rounding. -/
def execVfma (die : Fin 4) (tile : Fin 32) (dur : BitVec 12) (dst src1 src2 : BitVec 14) (s : State) :
    Host.Outcome State Fault Refusal :=
  gate s fun s => s.issueOne die.val tile.val (.ok (.tile (.vec .fma dst src1 src2 0))) (cyclesOf dur)

/-- VMAX (R277, R248): dst := max(src1, src2). -/
def execVmax (die : Fin 4) (tile : Fin 32) (dur : BitVec 12) (dst src1 src2 : BitVec 14) (s : State) :
    Host.Outcome State Fault Refusal :=
  gate s fun s => s.issueOne die.val tile.val (.ok (.tile (.vec .max dst src1 src2 0))) (cyclesOf dur)

/-- VMIN (R277, R248): dst := min(src1, src2). -/
def execVmin (die : Fin 4) (tile : Fin 32) (dur : BitVec 12) (dst src1 src2 : BitVec 14) (s : State) :
    Host.Outcome State Fault Refusal :=
  gate s fun s => s.issueOne die.val tile.val (.ok (.tile (.vec .min dst src1 src2 0))) (cyclesOf dur)

/-- VCMPLT (R277, R248): dst := 1.0 where src1 < src2, else 0.0. -/
def execVcmplt (die : Fin 4) (tile : Fin 32) (dur : BitVec 12) (dst src1 src2 : BitVec 14) (s : State) :
    Host.Outcome State Fault Refusal :=
  gate s fun s => s.issueOne die.val tile.val (.ok (.tile (.vec .cmplt dst src1 src2 0))) (cyclesOf dur)

/-- VCMPEQ (R277, R248): dst := 1.0 where src1 = src2, else 0.0. -/
def execVcmpeq (die : Fin 4) (tile : Fin 32) (dur : BitVec 12) (dst src1 src2 : BitVec 14) (s : State) :
    Host.Outcome State Fault Refusal :=
  gate s fun s => s.issueOne die.val tile.val (.ok (.tile (.vec .cmpeq dst src1 src2 0))) (cyclesOf dur)

/-- VSEL (R277, R248): dst := src1 where dst ≠ 0, else src2. -/
def execVsel (die : Fin 4) (tile : Fin 32) (dur : BitVec 12) (dst src1 src2 : BitVec 14) (s : State) :
    Host.Outcome State Fault Refusal :=
  gate s fun s => s.issueOne die.val tile.val (.ok (.tile (.vec .sel dst src1 src2 0))) (cyclesOf dur)

/-- VADDS (R277, R248): row i of dst := row i of src1 + element i of src2. -/
def execVadds (die : Fin 4) (tile : Fin 32) (dur : BitVec 12) (dst src1 src2 : BitVec 14) (s : State) :
    Host.Outcome State Fault Refusal :=
  gate s fun s => s.issueOne die.val tile.val (.ok (.tile (.vec .adds dst src1 src2 0))) (cyclesOf dur)

/-- VSUBS (R277, R248): row i of dst := row i of src1 − element i of src2. -/
def execVsubs (die : Fin 4) (tile : Fin 32) (dur : BitVec 12) (dst src1 src2 : BitVec 14) (s : State) :
    Host.Outcome State Fault Refusal :=
  gate s fun s => s.issueOne die.val tile.val (.ok (.tile (.vec .subs dst src1 src2 0))) (cyclesOf dur)

/-- VMULS (R277, R248): row i of dst := row i of src1 × element i of src2. -/
def execVmuls (die : Fin 4) (tile : Fin 32) (dur : BitVec 12) (dst src1 src2 : BitVec 14) (s : State) :
    Host.Outcome State Fault Refusal :=
  gate s fun s => s.issueOne die.val tile.val (.ok (.tile (.vec .muls dst src1 src2 0))) (cyclesOf dur)

/-- VABS (R277, R248): dst := abs(src). -/
def execVabs (die : Fin 4) (tile : Fin 32) (dur : BitVec 12) (dst src : BitVec 14) (s : State) :
    Host.Outcome State Fault Refusal :=
  gate s fun s => s.issueOne die.val tile.val (.ok (.tile (.vec .abs dst src 0 0))) (cyclesOf dur)

/-- VNEG (R277, R248): dst := −src. -/
def execVneg (die : Fin 4) (tile : Fin 32) (dur : BitVec 12) (dst src : BitVec 14) (s : State) :
    Host.Outcome State Fault Refusal :=
  gate s fun s => s.issueOne die.val tile.val (.ok (.tile (.vec .neg dst src 0 0))) (cyclesOf dur)

/-- VEXP (R277, R248): dst := e^src. -/
def execVexp (die : Fin 4) (tile : Fin 32) (dur : BitVec 12) (dst src : BitVec 14) (s : State) :
    Host.Outcome State Fault Refusal :=
  gate s fun s => s.issueOne die.val tile.val (.ok (.tile (.vec .exp dst src 0 0))) (cyclesOf dur)

/-- VLOG (R277, R248): dst := ln src. -/
def execVlog (die : Fin 4) (tile : Fin 32) (dur : BitVec 12) (dst src : BitVec 14) (s : State) :
    Host.Outcome State Fault Refusal :=
  gate s fun s => s.issueOne die.val tile.val (.ok (.tile (.vec .log dst src 0 0))) (cyclesOf dur)

/-- VRCP (R277, R248): dst := 1 / src. -/
def execVrcp (die : Fin 4) (tile : Fin 32) (dur : BitVec 12) (dst src : BitVec 14) (s : State) :
    Host.Outcome State Fault Refusal :=
  gate s fun s => s.issueOne die.val tile.val (.ok (.tile (.vec .rcp dst src 0 0))) (cyclesOf dur)

/-- VRSQRT (R277, R248): dst := 1 / √src. -/
def execVrsqrt (die : Fin 4) (tile : Fin 32) (dur : BitVec 12) (dst src : BitVec 14) (s : State) :
    Host.Outcome State Fault Refusal :=
  gate s fun s => s.issueOne die.val tile.val (.ok (.tile (.vec .rsqrt dst src 0 0))) (cyclesOf dur)

/-- VMAXR (R277, R248): element i of dst := MAXR of source row i. -/
def execVmaxr (die : Fin 4) (tile : Fin 32) (dur : BitVec 12) (dst src : BitVec 14) (s : State) :
    Host.Outcome State Fault Refusal :=
  gate s fun s => s.issueOne die.val tile.val (.ok (.tile (.vec .maxr dst src 0 0))) (cyclesOf dur)

/-- VSUMR (R277, R248): element i of dst := SUMR of source row i. -/
def execVsumr (die : Fin 4) (tile : Fin 32) (dur : BitVec 12) (dst src : BitVec 14) (s : State) :
    Host.Outcome State Fault Refusal :=
  gate s fun s => s.issueOne die.val tile.val (.ok (.tile (.vec .sumr dst src 0 0))) (cyclesOf dur)

/-- VSCALE2 (R277, R248): dst := src × 2^n; n = −256 is no value of the field. -/
def execVscale2 (die : Fin 4) (tile : Fin 32) (dur : BitVec 12) (dst src : BitVec 14) (n : BitVec 9) (s : State) :
    Host.Outcome State Fault Refusal :=
  gate s fun s => s.issueOne die.val tile.val
    (if n = 256 then .error Code.invalidField else .ok (.tile (.vec .scale2 dst src 0 n))) (cyclesOf dur)

/-- CVT (R242): conversion between formats; equal formats copy. -/
def execCvt (die : Fin 4) (tile : Fin 32) (dur : BitVec 12) (fmtS fmtD : Fmt) (src dst : BitVec 14) (sat : Bool) (s : State) :
    Host.Outcome State Fault Refusal :=
  gate s fun s => s.issueOne die.val tile.val (.ok (.tile (.cvt fmtS fmtD src dst sat))) (cyclesOf dur)

/-- MXQ (R243, R244): FP32 rows into MX blocks. -/
def execMxq (die : Fin 4) (tile : Fin 32) (dur : BitVec 12) (fmtD : Fmt) (src dst : BitVec 14) (s : State) :
    Host.Outcome State Fault Refusal :=
  gate s fun s => s.issueOne die.val tile.val (.ok (.tile (.mxq fmtD src dst))) (cyclesOf dur)

/-- MNOP (R282): occupies the slot. -/
def execMnop (die : Fin 4) (mover : Fin 8) (dur : BitVec 12) (s : State) : Host.Outcome State Fault Refusal :=
  gate s fun s => s.issueOne die.val (32 + mover.val) (.ok (.mover .nop 0 0 0 0)) (cyclesOf dur)

/-- MGET (R282 to R284): a transfer from the state address space into the larder is issued. -/
def execMget (die : Fin 4) (mover : Fin 8) (dur : BitVec 12) (ra rl : BitVec 5)
    (tally : BitVec 12) (la : BitVec 22) (s : State) :
    Host.Outcome State Fault Refusal :=
  gate s fun s => s.issueOne die.val (32 + mover.val) (.ok (.mover .get ra rl tally la)) (cyclesOf dur)

/-- MPUT (R282 to R284): a transfer from the larder into the state address space is issued. -/
def execMput (die : Fin 4) (mover : Fin 8) (dur : BitVec 12) (ra rl : BitVec 5)
    (tally : BitVec 12) (la : BitVec 22) (s : State) :
    Host.Outcome State Fault Refusal :=
  gate s fun s => s.issueOne die.val (32 + mover.val) (.ok (.mover .put ra rl tally la)) (cyclesOf dur)

/-- MXL (R282 to R284): a copy from another die's larder is issued. -/
def execMxl (die : Fin 4) (mover : Fin 8) (dur : BitVec 12) (ra rl : BitVec 5)
    (tally : BitVec 12) (la : BitVec 22) (s : State) :
    Host.Outcome State Fault Refusal :=
  gate s fun s => s.issueOne die.val (32 + mover.val) (.ok (.mover .xl ra rl tally la)) (cyclesOf dur)

/-- MRING (R282 to R284): a send to the neighbour module's larder is issued. -/
def execMring (die : Fin 4) (mover : Fin 8) (dur : BitVec 12) (ra rl : BitVec 5)
    (tally : BitVec 12) (la : BitVec 22) (s : State) :
    Host.Outcome State Fault Refusal :=
  gate s fun s => s.issueOne die.val (32 + mover.val) (.ok (.mover .ring ra rl tally la)) (cyclesOf dur)

/-- SCATTER (R282 to R284): scatter descriptors are handed to the mover; RA must be s0. -/
def execScatter (die : Fin 4) (mover : Fin 8) (dur : BitVec 12) (ra rl : BitVec 5)
    (tally : BitVec 12) (la : BitVec 22) (s : State) :
    Host.Outcome State Fault Refusal :=
  gate s fun s => s.issueOne die.val (32 + mover.val)
    (if ra ≠ 0 then .error Code.invalidField else .ok (.mover .scatter ra rl tally la)) (cyclesOf dur)

/-- MZERO (R282 to R284): a clear of larder bytes is issued; RA must be s0. -/
def execMzero (die : Fin 4) (mover : Fin 8) (dur : BitVec 12) (ra rl : BitVec 5)
    (tally : BitVec 12) (la : BitVec 22) (s : State) :
    Host.Outcome State Fault Refusal :=
  gate s fun s => s.issueOne die.val (32 + mover.val)
    (if ra ≠ 0 then .error Code.invalidField else .ok (.mover .zero ra rl tally la)) (cyclesOf dur)

/-- PNOP (R286): occupies the slot. -/
def execPnop (die : Fin 4) (dur : BitVec 12) (s : State) : Host.Outcome State Fault Refusal :=
  gate s fun s => s.issueOne die.val slotP (.ok (.port .nop)) (cyclesOf dur)

/-- PREAD (R286 to R288): larder bytes go to the named tiles' stores. -/
def execPread (die : Fin 4) (dur : BitVec 12) (rm : BitVec 5) (bcast : Bool) (dst : BitVec 14) (la : BitVec 22) (s : State) :
    Host.Outcome State Fault Refusal :=
  gate s fun s => s.issueOne die.val slotP (.ok (.port (.read rm bcast dst la))) (cyclesOf dur)

/-- PWRITE (R286 to R288): the named tiles' bytes go to the larder. -/
def execPwrite (die : Fin 4) (dur : BitVec 12) (rm : BitVec 5) (src : BitVec 14) (la : BitVec 22) (s : State) :
    Host.Outcome State Fault Refusal :=
  gate s fun s => s.issueOne die.val slotP (.ok (.port (.write rm src la))) (cyclesOf dur)

/-- ATTEND (R286, R289): an attention list is passed to the attention engine, which holds the named tiles. -/
def execAttend (die : Fin 4) (dur : BitVec 12) (rm : BitVec 5) (count : BitVec 12) (la : BitVec 22) (s : State) :
    Host.Outcome State Fault Refusal :=
  gate s fun s => s.issueOne die.val slotP (.ok (.port (.attend rm count la))) (cyclesOf dur)

/-- SNOP (R290): occupies the slot. -/
def execSnop (die : Fin 4) (slot : Fin 4) (dur : BitVec 12) (s : State) : Host.Outcome State Fault Refusal :=
  gate s fun s => s.issueOne die.val (40 + slot.val) (.ok (.scalar .nop)) (cyclesOf dur)

/-- ADD (R290): RD := RA + RB. -/
def execScalarAdd (die : Fin 4) (slot : Fin 4) (dur : BitVec 12) (rd ra rb : BitVec 5) (s : State) :
    Host.Outcome State Fault Refusal :=
  gate s fun s => s.issueOne die.val (40 + slot.val) (.ok (.scalar (.alu .add rd ra rb))) (cyclesOf dur)

/-- SUB (R290): RD := RA − RB. -/
def execScalarSub (die : Fin 4) (slot : Fin 4) (dur : BitVec 12) (rd ra rb : BitVec 5) (s : State) :
    Host.Outcome State Fault Refusal :=
  gate s fun s => s.issueOne die.val (40 + slot.val) (.ok (.scalar (.alu .sub rd ra rb))) (cyclesOf dur)

/-- AND (R290): RD := RA and RB. -/
def execScalarAnd (die : Fin 4) (slot : Fin 4) (dur : BitVec 12) (rd ra rb : BitVec 5) (s : State) :
    Host.Outcome State Fault Refusal :=
  gate s fun s => s.issueOne die.val (40 + slot.val) (.ok (.scalar (.alu .and rd ra rb))) (cyclesOf dur)

/-- OR (R290): RD := RA or RB. -/
def execScalarOr (die : Fin 4) (slot : Fin 4) (dur : BitVec 12) (rd ra rb : BitVec 5) (s : State) :
    Host.Outcome State Fault Refusal :=
  gate s fun s => s.issueOne die.val (40 + slot.val) (.ok (.scalar (.alu .or rd ra rb))) (cyclesOf dur)

/-- XOR (R290): RD := RA xor RB. -/
def execScalarXor (die : Fin 4) (slot : Fin 4) (dur : BitVec 12) (rd ra rb : BitVec 5) (s : State) :
    Host.Outcome State Fault Refusal :=
  gate s fun s => s.issueOne die.val (40 + slot.val) (.ok (.scalar (.alu .xor rd ra rb))) (cyclesOf dur)

/-- SHL (R290): RD := RA shifted left by RB bits 5:0. -/
def execScalarShl (die : Fin 4) (slot : Fin 4) (dur : BitVec 12) (rd ra rb : BitVec 5) (s : State) :
    Host.Outcome State Fault Refusal :=
  gate s fun s => s.issueOne die.val (40 + slot.val) (.ok (.scalar (.alu .shl rd ra rb))) (cyclesOf dur)

/-- SHR (R290): RD := RA shifted right by RB bits 5:0. -/
def execScalarShr (die : Fin 4) (slot : Fin 4) (dur : BitVec 12) (rd ra rb : BitVec 5) (s : State) :
    Host.Outcome State Fault Refusal :=
  gate s fun s => s.issueOne die.val (40 + slot.val) (.ok (.scalar (.alu .shr rd ra rb))) (cyclesOf dur)

/-- SRA (R290): RD := RA shifted right arithmetically by RB bits 5:0. -/
def execScalarSra (die : Fin 4) (slot : Fin 4) (dur : BitVec 12) (rd ra rb : BitVec 5) (s : State) :
    Host.Outcome State Fault Refusal :=
  gate s fun s => s.issueOne die.val (40 + slot.val) (.ok (.scalar (.alu .sra rd ra rb))) (cyclesOf dur)

/-- SLT (R290): RD := 1 if RA < RB signed, else 0. -/
def execScalarSlt (die : Fin 4) (slot : Fin 4) (dur : BitVec 12) (rd ra rb : BitVec 5) (s : State) :
    Host.Outcome State Fault Refusal :=
  gate s fun s => s.issueOne die.val (40 + slot.val) (.ok (.scalar (.alu .slt rd ra rb))) (cyclesOf dur)

/-- SLTU (R290): RD := 1 if RA < RB unsigned, else 0. -/
def execScalarSltu (die : Fin 4) (slot : Fin 4) (dur : BitVec 12) (rd ra rb : BitVec 5) (s : State) :
    Host.Outcome State Fault Refusal :=
  gate s fun s => s.issueOne die.val (40 + slot.val) (.ok (.scalar (.alu .sltu rd ra rb))) (cyclesOf dur)

/-- MUL (R290): RD := low 64 bits of RA × RB. -/
def execScalarMul (die : Fin 4) (slot : Fin 4) (dur : BitVec 12) (rd ra rb : BitVec 5) (s : State) :
    Host.Outcome State Fault Refusal :=
  gate s fun s => s.issueOne die.val (40 + slot.val) (.ok (.scalar (.alu .mul rd ra rb))) (cyclesOf dur)

/-- ADDI (R290): RD := RA + IMM. -/
def execScalarAddi (die : Fin 4) (slot : Fin 4) (dur : BitVec 12) (rd ra : BitVec 5) (imm : BitVec 29) (s : State) :
    Host.Outcome State Fault Refusal :=
  gate s fun s => s.issueOne die.val (40 + slot.val) (.ok (.scalar (.addi rd ra imm))) (cyclesOf dur)

/-- LI (R290): RD := IMM, sign-extended. -/
def execScalarLi (die : Fin 4) (slot : Fin 4) (dur : BitVec 12) (rd : BitVec 5) (imm : BitVec 39) (s : State) :
    Host.Outcome State Fault Refusal :=
  gate s fun s => s.issueOne die.val (40 + slot.val) (.ok (.scalar (.li rd imm))) (cyclesOf dur)

/-- LIH (R290): RD bits 63:32 := IMM. -/
def execScalarLih (die : Fin 4) (slot : Fin 4) (dur : BitVec 12) (rd : BitVec 5) (imm : BitVec 32) (s : State) :
    Host.Outcome State Fault Refusal :=
  gate s fun s => s.issueOne die.val (40 + slot.val) (.ok (.scalar (.lih rd imm))) (cyclesOf dur)

/-- LDS (R290, R291): RD := a larder word when the slot expires. -/
def execLds (die : Fin 4) (slot : Fin 4) (dur : BitVec 12) (rd ra : BitVec 5) (word : BitVec 4)
    (la : BitVec 22) (s : State) :
    Host.Outcome State Fault Refusal :=
  gate s fun s => s.issueOne die.val (40 + slot.val) (.ok (.scalar (.lds rd ra word la))) (cyclesOf dur)

/-- STS (R290, R291): a larder word := RS when the slot expires. -/
def execSts (die : Fin 4) (slot : Fin 4) (dur : BitVec 12) (rs ra : BitVec 5) (word : BitVec 4)
    (la : BitVec 22) (s : State) :
    Host.Outcome State Fault Refusal :=
  gate s fun s => s.issueOne die.val (40 + slot.val) (.ok (.scalar (.sts rs ra word la))) (cyclesOf dur)

/-- YNOP (R292): occupies the slot. -/
def execYnop (die : Fin 4) (slot : Fin 2) (dur : BitVec 12) (s : State) : Host.Outcome State Fault Refusal :=
  gate s fun s => s.issueOne die.val (44 + slot.val) (.ok (.tally .nop)) (cyclesOf dur)

/-- YADD (R292, R294, R295): an ADD of N + 1 leaves for the tally's home. -/
def execYadd (die : Fin 4) (slot : Fin 2) (dur : BitVec 12) (tally : BitVec 12) (n : BitVec 16) (s : State) :
    Host.Outcome State Fault Refusal :=
  gate s fun s => s.issueOne die.val (44 + slot.val) (.ok (.tally (.add tally n))) (cyclesOf dur)

/-- YSET (R292, R294, R295): a SET of RS bits 31:0 leaves for the tally's home. -/
def execYset (die : Fin 4) (slot : Fin 2) (dur : BitVec 12) (tally : BitVec 12) (rs : BitVec 5) (s : State) :
    Host.Outcome State Fault Refusal :=
  gate s fun s => s.issueOne die.val (44 + slot.val) (.ok (.tally (.set tally rs))) (cyclesOf dur)

/-- YWAIT (R292, R293): a stall point until the tally is at or beyond RS + IMM. -/
def execYwait (die : Fin 4) (slot : Fin 2) (dur : BitVec 12) (tally : BitVec 12) (rs : BitVec 5) (imm : BitVec 16) (s : State) :
    Host.Outcome State Fault Refusal :=
  gate s fun s => s.issueOne die.val (44 + slot.val) (.ok (.tally (.wait tally rs imm))) (cyclesOf dur)

/-- YREAD (R292): a stall point until RD holds the tally's value. -/
def execYread (die : Fin 4) (slot : Fin 2) (dur : BitVec 12) (tally : BitVec 12) (rd : BitVec 5) (s : State) :
    Host.Outcome State Fault Refusal :=
  gate s fun s => s.issueOne die.val (44 + slot.val) (.ok (.tally (.read tally rd))) (cyclesOf dur)

/-- QPUSH (R292, R327): a stall point until the item at LA has entered the queue. -/
def execQpush (die : Fin 4) (slot : Fin 2) (dur : BitVec 12) (queue : BitVec 9) (prio : BitVec 3) (la : BitVec 22) (s : State) :
    Host.Outcome State Fault Refusal :=
  gate s fun s => s.issueOne die.val (44 + slot.val) (.ok (.tally (.qpush queue prio la))) (cyclesOf dur)

/-- BNOP (R296): occupies the slot. -/
def execBnop (die : Fin 4) (dur : BitVec 12) (s : State) : Host.Outcome State Fault Refusal :=
  gate s fun s => s.issueBranch die.val .nop (cyclesOf dur)

/-- JMP (R296, R297): the next bundle is at TARGET. -/
def execJmp (die : Fin 4) (dur : BitVec 12) (target : BitVec 28) (s : State) : Host.Outcome State Fault Refusal :=
  gate s fun s => s.issueBranch die.val (.jmp target) (cyclesOf dur)

/-- BZ (R296, R297): the next bundle is at TARGET if RS = 0. -/
def execBz (die : Fin 4) (dur : BitVec 12) (rs : BitVec 5) (target : BitVec 28) (s : State) :
    Host.Outcome State Fault Refusal :=
  gate s fun s => s.issueBranch die.val (.bz rs target) (cyclesOf dur)

/-- BNZ (R296, R297): the next bundle is at TARGET if RS ≠ 0. -/
def execBnz (die : Fin 4) (dur : BitVec 12) (rs : BitVec 5) (target : BitVec 28) (s : State) :
    Host.Outcome State Fault Refusal :=
  gate s fun s => s.issueBranch die.val (.bnz rs target) (cyclesOf dur)

/-- LOOP (R296, R297): RS := RS − 1; the next bundle is at TARGET if the result is nonzero. -/
def execLoop (die : Fin 4) (dur : BitVec 12) (rs : BitVec 5) (target : BitVec 28) (s : State) :
    Host.Outcome State Fault Refusal :=
  gate s fun s => s.issueBranch die.val (.loop rs target) (cyclesOf dur)

/-- END (R296, R298): the segment ends with STATUS; it retires by SEGMENT_RETIRE. -/
def execEndSegment (die : Fin 4) (dur : BitVec 12) (status : BitVec 16) (s : State) :
    Host.Outcome State Fault Refusal :=
  gate s fun s => s.issueBranch die.val (.endSeg status) (cyclesOf dur)

/-- PPT (R303, R304): a preemption point; a requested one stops issue until the save. -/
def execPpt (die : Fin 4) (dur : BitVec 12) (index : BitVec 16) (s : State) : Host.Outcome State Fault Refusal :=
  gate s fun s => s.issueBranch die.val (.ppt index) (cyclesOf dur)

/-- RDV (R299): the bundle issues when everything the rendezvous names has ended. -/
def execRdv (die : Fin 4) (dur : BitVec 12) (all : Bool) (rm : BitVec 5) (s : State) : Host.Outcome State Fault Refusal :=
  gate s fun s =>
    let d := s.die die.val
    if d.state ≠ .running then s
    else
      let mask := (SMap.get 0 d.regs rm.toNat).toNat
      (s.runRdv die.val (d.rdvTime all mask) all mask).issueBranch die.val (.rdv all rm) (cyclesOf dur)

end Sys2Proof.Machine
end

