-- ==== Sys2Proof/Machine/Dispatch.lean ====
section
/-! DEFINITION. One arm per command: a direct call of its meaning. -/

namespace Sys2Proof.Machine

def exec (i : Instr) (s : State) : Host.Outcome State Fault Refusal :=
  match i with
  | .registerWrite reg value same ns => Sys2Proof.Machine.execRegisterWrite reg value same ns s
  | .powerOn => Sys2Proof.Machine.execPowerOn s
  | .moduleReset => Sys2Proof.Machine.execModuleReset s
  | .resetNRelease => Sys2Proof.Machine.execResetNRelease s
  | .hostPortReset => Sys2Proof.Machine.execHostPortReset s
  | .functionLevelReset fn => Sys2Proof.Machine.execFunctionLevelReset fn s
  | .undervoltage => Sys2Proof.Machine.execUndervoltage s
  | .lowSustained => Sys2Proof.Machine.execLowSustained s
  | .overvoltage => Sys2Proof.Machine.execOvervoltage s
  | .programInhibit => Sys2Proof.Machine.execProgramInhibit s
  | .vinEnMake => Sys2Proof.Machine.execVinEnMake s
  | .vinEnBreak => Sys2Proof.Machine.execVinEnBreak s
  | .railWindowTimeout => Sys2Proof.Machine.execRailWindowTimeout s
  | .railRetry => Sys2Proof.Machine.execRailRetry s
  | .clocksLocked agree rom => Sys2Proof.Machine.execClocksLocked agree rom s
  | .dramTrainingDone ok channel failStep => Sys2Proof.Machine.execDramTrainingDone ok channel failStep s
  | .selftestDone tiles larderOk knownOk units => Sys2Proof.Machine.execSelftestDone tiles larderOk knownOk units s
  | .settMountDone ok blocks spares => Sys2Proof.Machine.execSettMountDone ok blocks spares s
  | .bootWatchdog => Sys2Proof.Machine.execBootWatchdog s
  | .govPowerSample watts => Sys2Proof.Machine.execGovPowerSample watts s
  | .govCurrentSample watts milliamps => Sys2Proof.Machine.execGovCurrentSample watts milliamps s
  | .govJunctionSample sensor tenths => Sys2Proof.Machine.execGovJunctionSample sensor tenths s
  | .govStepUp => Sys2Proof.Machine.execGovStepUp s
  | .mr4Read die celsius => Sys2Proof.Machine.execMr4Read die celsius s
  | .sensorSample sensor value => Sys2Proof.Machine.execSensorSample sensor value s
  | .parkEntry idleMs => Sys2Proof.Machine.execParkEntry idleMs s
  | .parkExit => Sys2Proof.Machine.execParkExit s
  | .parkUpkeepExit => Sys2Proof.Machine.execParkUpkeepExit s
  | .segmentStart die ecc tableUe => Sys2Proof.Machine.execSegmentStart die ecc tableUe s
  | .segmentResume die ecc => Sys2Proof.Machine.execSegmentResume die ecc s
  | .bundleIssue die => Sys2Proof.Machine.execBundleIssue die s
  | .slotExpire die slot ecc => Sys2Proof.Machine.execSlotExpire die slot ecc s
  | .mmaDrainComplete die tile ecc => Sys2Proof.Machine.execMmaDrainComplete die tile ecc s
  | .rendezvousComplete die => Sys2Proof.Machine.execRendezvousComplete die s
  | .fetchDelivery die ecc tableUe => Sys2Proof.Machine.execFetchDelivery die ecc tableUe s
  | .moverTransferComplete die mover ecc tableUe part lines => Sys2Proof.Machine.execMoverTransferComplete die mover ecc tableUe part lines s
  | .segmentRetire die => Sys2Proof.Machine.execSegmentRetire die s
  | .preemptSave die ecc => Sys2Proof.Machine.execPreemptSave die ecc s
  | .preemptDiscard die => Sys2Proof.Machine.execPreemptDiscard die s
  | .tnop die tile dur => Sys2Proof.Machine.execTnop die tile dur s
  | .loadb die tile dur fmt src => Sys2Proof.Machine.execLoadb die tile dur fmt src s
  | .mma die tile dur fmtA srcA acc accum swap ld fmtB srcB => Sys2Proof.Machine.execMma die tile dur fmtA srcA acc accum swap ld fmtB srcB s
  | .vadd die tile dur dst src1 src2 => Sys2Proof.Machine.execVadd die tile dur dst src1 src2 s
  | .vsub die tile dur dst src1 src2 => Sys2Proof.Machine.execVsub die tile dur dst src1 src2 s
  | .vmul die tile dur dst src1 src2 => Sys2Proof.Machine.execVmul die tile dur dst src1 src2 s
  | .vfma die tile dur dst src1 src2 => Sys2Proof.Machine.execVfma die tile dur dst src1 src2 s
  | .vmax die tile dur dst src1 src2 => Sys2Proof.Machine.execVmax die tile dur dst src1 src2 s
  | .vmin die tile dur dst src1 src2 => Sys2Proof.Machine.execVmin die tile dur dst src1 src2 s
  | .vcmplt die tile dur dst src1 src2 => Sys2Proof.Machine.execVcmplt die tile dur dst src1 src2 s
  | .vcmpeq die tile dur dst src1 src2 => Sys2Proof.Machine.execVcmpeq die tile dur dst src1 src2 s
  | .vsel die tile dur dst src1 src2 => Sys2Proof.Machine.execVsel die tile dur dst src1 src2 s
  | .vabs die tile dur dst src => Sys2Proof.Machine.execVabs die tile dur dst src s
  | .vneg die tile dur dst src => Sys2Proof.Machine.execVneg die tile dur dst src s
  | .vscale2 die tile dur dst src n => Sys2Proof.Machine.execVscale2 die tile dur dst src n s
  | .vexp die tile dur dst src => Sys2Proof.Machine.execVexp die tile dur dst src s
  | .vlog die tile dur dst src => Sys2Proof.Machine.execVlog die tile dur dst src s
  | .vrcp die tile dur dst src => Sys2Proof.Machine.execVrcp die tile dur dst src s
  | .vrsqrt die tile dur dst src => Sys2Proof.Machine.execVrsqrt die tile dur dst src s
  | .vmaxr die tile dur dst src => Sys2Proof.Machine.execVmaxr die tile dur dst src s
  | .vsumr die tile dur dst src => Sys2Proof.Machine.execVsumr die tile dur dst src s
  | .vadds die tile dur dst src1 src2 => Sys2Proof.Machine.execVadds die tile dur dst src1 src2 s
  | .vsubs die tile dur dst src1 src2 => Sys2Proof.Machine.execVsubs die tile dur dst src1 src2 s
  | .vmuls die tile dur dst src1 src2 => Sys2Proof.Machine.execVmuls die tile dur dst src1 src2 s
  | .cvt die tile dur fmtS fmtD src dst sat => Sys2Proof.Machine.execCvt die tile dur fmtS fmtD src dst sat s
  | .mxq die tile dur fmtD src dst => Sys2Proof.Machine.execMxq die tile dur fmtD src dst s
  | .mnop die mover dur => Sys2Proof.Machine.execMnop die mover dur s
  | .mget die mover dur ra rl tally la => Sys2Proof.Machine.execMget die mover dur ra rl tally la s
  | .mput die mover dur ra rl tally la => Sys2Proof.Machine.execMput die mover dur ra rl tally la s
  | .mxl die mover dur ra rl tally la => Sys2Proof.Machine.execMxl die mover dur ra rl tally la s
  | .scatter die mover dur ra rl tally la => Sys2Proof.Machine.execScatter die mover dur ra rl tally la s
  | .mring die mover dur ra rl tally la => Sys2Proof.Machine.execMring die mover dur ra rl tally la s
  | .mzero die mover dur ra rl tally la => Sys2Proof.Machine.execMzero die mover dur ra rl tally la s
  | .pnop die dur => Sys2Proof.Machine.execPnop die dur s
  | .pread die dur rm bcast dst la => Sys2Proof.Machine.execPread die dur rm bcast dst la s
  | .pwrite die dur rm src la => Sys2Proof.Machine.execPwrite die dur rm src la s
  | .attend die dur rm count la => Sys2Proof.Machine.execAttend die dur rm count la s
  | .snop die slot dur => Sys2Proof.Machine.execSnop die slot dur s
  | .scalarAdd die slot dur rd ra rb => Sys2Proof.Machine.execScalarAdd die slot dur rd ra rb s
  | .scalarSub die slot dur rd ra rb => Sys2Proof.Machine.execScalarSub die slot dur rd ra rb s
  | .scalarAnd die slot dur rd ra rb => Sys2Proof.Machine.execScalarAnd die slot dur rd ra rb s
  | .scalarOr die slot dur rd ra rb => Sys2Proof.Machine.execScalarOr die slot dur rd ra rb s
  | .scalarXor die slot dur rd ra rb => Sys2Proof.Machine.execScalarXor die slot dur rd ra rb s
  | .scalarShl die slot dur rd ra rb => Sys2Proof.Machine.execScalarShl die slot dur rd ra rb s
  | .scalarShr die slot dur rd ra rb => Sys2Proof.Machine.execScalarShr die slot dur rd ra rb s
  | .scalarSra die slot dur rd ra rb => Sys2Proof.Machine.execScalarSra die slot dur rd ra rb s
  | .scalarSlt die slot dur rd ra rb => Sys2Proof.Machine.execScalarSlt die slot dur rd ra rb s
  | .scalarSltu die slot dur rd ra rb => Sys2Proof.Machine.execScalarSltu die slot dur rd ra rb s
  | .scalarMul die slot dur rd ra rb => Sys2Proof.Machine.execScalarMul die slot dur rd ra rb s
  | .scalarAddi die slot dur rd ra imm => Sys2Proof.Machine.execScalarAddi die slot dur rd ra imm s
  | .scalarLi die slot dur rd imm => Sys2Proof.Machine.execScalarLi die slot dur rd imm s
  | .scalarLih die slot dur rd imm => Sys2Proof.Machine.execScalarLih die slot dur rd imm s
  | .lds die slot dur rd ra word la => Sys2Proof.Machine.execLds die slot dur rd ra word la s
  | .sts die slot dur rs ra word la => Sys2Proof.Machine.execSts die slot dur rs ra word la s
  | .ynop die slot dur => Sys2Proof.Machine.execYnop die slot dur s
  | .yadd die slot dur tally n => Sys2Proof.Machine.execYadd die slot dur tally n s
  | .yset die slot dur tally rs => Sys2Proof.Machine.execYset die slot dur tally rs s
  | .ywait die slot dur tally rs imm => Sys2Proof.Machine.execYwait die slot dur tally rs imm s
  | .yread die slot dur tally rd => Sys2Proof.Machine.execYread die slot dur tally rd s
  | .qpush die slot dur queue prio la => Sys2Proof.Machine.execQpush die slot dur queue prio la s
  | .bnop die dur => Sys2Proof.Machine.execBnop die dur s
  | .jmp die dur target => Sys2Proof.Machine.execJmp die dur target s
  | .bz die dur rs target => Sys2Proof.Machine.execBz die dur rs target s
  | .bnz die dur rs target => Sys2Proof.Machine.execBnz die dur rs target s
  | .loop die dur rs target => Sys2Proof.Machine.execLoop die dur rs target s
  | .endSegment die dur status => Sys2Proof.Machine.execEndSegment die dur status s
  | .ppt die dur index => Sys2Proof.Machine.execPpt die dur index s
  | .rdv die dur all rm => Sys2Proof.Machine.execRdv die dur all rm s
  | .tileRemap die logical phys => Sys2Proof.Machine.execTileRemap die logical phys s
  | .tileFence die phys => Sys2Proof.Machine.execTileFence die phys s
  | .tallyAdd issuer tally n => Sys2Proof.Machine.execTallyAdd issuer tally n s
  | .tallySet issuer tally value => Sys2Proof.Machine.execTallySet issuer tally value s
  | .tallyRead issuer tally => Sys2Proof.Machine.execTallyRead issuer tally s
  | .tallyWait issuer tally target => Sys2Proof.Machine.execTallyWait issuer tally target s
  | .tallyCancel issuer tally => Sys2Proof.Machine.execTallyCancel issuer tally s
  | .tallyWake issuer tally => Sys2Proof.Machine.execTallyWake issuer tally s
  | .waitPoll issuer tally => Sys2Proof.Machine.execWaitPoll issuer tally s
  | .clearPeak die => Sys2Proof.Machine.execClearPeak die s
  | .queueItemArrival queue prio sender item bad => Sys2Proof.Machine.execQueueItemArrival queue prio sender item bad s
  | .hwPop queue => Sys2Proof.Machine.execHwPop queue s
  | .hqPush core queue prio ns => Sys2Proof.Machine.execHqPush core queue prio ns s
  | .hqPop core queue ns => Sys2Proof.Machine.execHqPop core queue ns s
  | .hqFlush queue ns => Sys2Proof.Machine.execHqFlush queue ns s
  | .ferryMove item => Sys2Proof.Machine.execFerryMove item s
  | .ferryDrop item => Sys2Proof.Machine.execFerryDrop item s
  | .ferryWriteDone page fault => Sys2Proof.Machine.execFerryWriteDone page fault s
  | .ferryVerifyDone page result => Sys2Proof.Machine.execFerryVerifyDone page result s
  | .shootdownAck cache page => Sys2Proof.Machine.execShootdownAck cache page s
  | .writeIntent cache page => Sys2Proof.Machine.execWriteIntent cache page s
  | .ageTick => Sys2Proof.Machine.execAgeTick s
  | .evictionPass => Sys2Proof.Machine.execEvictionPass s
  | .bwEstUpdate poolBytes poolNs readBytes readNs writeBytes writeNs => Sys2Proof.Machine.execBwEstUpdate poolBytes poolNs readBytes readNs writeBytes writeNs s
  | .rationBinAdvance => Sys2Proof.Machine.execRationBinAdvance s
  | .retireRetry dramPage => Sys2Proof.Machine.execRetireRetry dramPage s
  | .openHamper cmd sampler => Sys2Proof.Machine.execOpenHamper cmd sampler s
  | .closeHamper cmd seen => Sys2Proof.Machine.execCloseHamper cmd seen s
  | .park cmd seen => Sys2Proof.Machine.execPark cmd seen s
  | .revive cmd seen => Sys2Proof.Machine.execRevive cmd seen s
  | .reviveItem session share => Sys2Proof.Machine.execReviveItem session share s
  | .reviveHoldRelease slot => Sys2Proof.Machine.execReviveHoldRelease slot s
  | .reviveComplete slot reports => Sys2Proof.Machine.execReviveComplete slot reports s
  | .likelihoodDecay slot => Sys2Proof.Machine.execLikelihoodDecay slot s
  | .give cmd seen => Sys2Proof.Machine.execGive cmd seen s
  | .handoverTake slot seen shardsDone => Sys2Proof.Machine.execHandoverTake slot seen shardsDone s
  | .handoverAck origin custody current => Sys2Proof.Machine.execHandoverAck origin custody current s
  | .custodyTimeout slot seen => Sys2Proof.Machine.execCustodyTimeout slot seen s
  | .custodyCheck slot seen => Sys2Proof.Machine.execCustodyCheck slot seen s
  | .custodyProbe origin sender seen => Sys2Proof.Machine.execCustodyProbe origin sender seen s
  | .probeTimeout origin answer => Sys2Proof.Machine.execProbeTimeout origin answer s
  | .emptyClaimRestore origin pool seen => Sys2Proof.Machine.execEmptyClaimRestore origin pool seen s
  | .spanOpen item => Sys2Proof.Machine.execSpanOpen item s
  | .spanPark item => Sys2Proof.Machine.execSpanPark item s
  | .spanFetch item => Sys2Proof.Machine.execSpanFetch item s
  | .spanDrop item => Sys2Proof.Machine.execSpanDrop item s
  | .recompBegin item => Sys2Proof.Machine.execRecompBegin item s
  | .recompEnd item tileNs => Sys2Proof.Machine.execRecompEnd item tileNs s
  | .spanPin item => Sys2Proof.Machine.execSpanPin item s
  | .spanUnpin item => Sys2Proof.Machine.execSpanUnpin item s
  | .spanShare item => Sys2Proof.Machine.execSpanShare item s
  | .spanRelease item => Sys2Proof.Machine.execSpanRelease item s
  | .statsMap item => Sys2Proof.Machine.execStatsMap item s
  | .statsFree item => Sys2Proof.Machine.execStatsFree item s
  | .deferredRelease id => Sys2Proof.Machine.execDeferredRelease id s
  | .dropRetry id page => Sys2Proof.Machine.execDropRetry id page s
  | .recomputePrefill slot spanNo away answers discarded => Sys2Proof.Machine.execRecomputePrefill slot spanNo away answers discarded s
  | .recompBeginRetry slot spanNo => Sys2Proof.Machine.execRecompBeginRetry slot spanNo s
  | .attentionItemResult die list => Sys2Proof.Machine.execAttentionItemResult die list s
  | .rankRequest die id slot layer head first tail newest commit sketch topK => Sys2Proof.Machine.execRankRequest die id slot layer head first tail newest commit sketch topK s
  | .rankContinuation die id topK => Sys2Proof.Machine.execRankContinuation die id topK s
  | .rankRelease die id => Sys2Proof.Machine.execRankRelease die id s
  | .reduceStage id die input => Sys2Proof.Machine.execReduceStage id die input s
  | .reduceTimeout id => Sys2Proof.Machine.execReduceTimeout id s
  | .ringPrefillRound die slot layer round first tally set offs la => Sys2Proof.Machine.execRingPrefillRound die slot layer round first tally set offs la s
  | .requestGenerate item => Sys2Proof.Machine.execRequestGenerate item s
  | .requestAppend item => Sys2Proof.Machine.execRequestAppend item s
  | .requestCancel item => Sys2Proof.Machine.execRequestCancel item s
  | .stepBoundary seen away => Sys2Proof.Machine.execStepBoundary seen away s
  | .subBatch step module entries last => Sys2Proof.Machine.execSubBatch step module entries last s
  | .sessionParameters step params => Sys2Proof.Machine.execSessionParameters step params s
  | .stepBegin drafts => Sys2Proof.Machine.execStepBegin drafts s
  | .listTimeout => Sys2Proof.Machine.execListTimeout s
  | .stepDone module session status spans logits => Sys2Proof.Machine.execStepDone module session status spans logits s
  | .lengthWord session commit spec => Sys2Proof.Machine.execLengthWord session commit spec s
  | .rationRefill => Sys2Proof.Machine.execRationRefill s
  | .adapterRetire cmd othersDone => Sys2Proof.Machine.execAdapterRetire cmd othersDone s
  | .segmentPick die news load => Sys2Proof.Machine.execSegmentPick die news load s
  | .preemptedCompletion die => Sys2Proof.Machine.execPreemptedCompletion die s
  | .loadSegmentDone die status => Sys2Proof.Machine.execLoadSegmentDone die status s
  | .acctWindow => Sys2Proof.Machine.execAcctWindow s
  | .serviceEntry die segments => Sys2Proof.Machine.execServiceEntry die segments s
  | .serviceExit die => Sys2Proof.Machine.execServiceExit die s
  | .tokenize item => Sys2Proof.Machine.execTokenize item s
  | .detokenize item => Sys2Proof.Machine.execDetokenize item s
  | .mask item => Sys2Proof.Machine.execMask item s
  | .advance item => Sys2Proof.Machine.execAdvance item s
  | .grammarOpen item => Sys2Proof.Machine.execGrammarOpen item s
  | .grammarClose item => Sys2Proof.Machine.execGrammarClose item s
  | .textRelease item => Sys2Proof.Machine.execTextRelease item s
  | .search item => Sys2Proof.Machine.execSearch item s
  | .listPublish item => Sys2Proof.Machine.execListPublish item s
  | .listPublishComplete => Sys2Proof.Machine.execListPublishComplete s
  | .graphEdit item => Sys2Proof.Machine.execGraphEdit item s
  | .lookup item storeErrs => Sys2Proof.Machine.execLookup item storeErrs s
  | .poolStage batch chunk => Sys2Proof.Machine.execPoolStage batch chunk s
  | .poolTimeout batch => Sys2Proof.Machine.execPoolTimeout batch s
  | .update item => Sys2Proof.Machine.execUpdate item s
  | .tablePublish item => Sys2Proof.Machine.execTablePublish item s
  | .tableRetire => Sys2Proof.Machine.execTableRetire s
  | .rowFillComplete table row => Sys2Proof.Machine.execRowFillComplete table row s
  | .cut cmd handles => Sys2Proof.Machine.execCut cmd handles s
  | .cutItem item handles => Sys2Proof.Machine.execCutItem item handles s
  | .shardMark seen lost => Sys2Proof.Machine.execShardMark seen lost s
  | .pageCopyComplete page unreadable => Sys2Proof.Machine.execPageCopyComplete page unreadable s
  | .shardDurable => Sys2Proof.Machine.execShardDurable s
  | .manifestDurable => Sys2Proof.Machine.execManifestDurable s
  | .shardDone module page bytes crc code => Sys2Proof.Machine.execShardDone module page bytes crc code s
  | .cairnRecordDurable head => Sys2Proof.Machine.execCairnRecordDurable head s
  | .commitNotice ref code seen => Sys2Proof.Machine.execCommitNotice ref code seen s
  | .snapTimeout => Sys2Proof.Machine.execSnapTimeout s
  | .restore cmd owners pool => Sys2Proof.Machine.execRestore cmd owners pool s
  | .restoreItem item owners pool => Sys2Proof.Machine.execRestoreItem item owners pool s
  | .restoreComplete slot code seen => Sys2Proof.Machine.execRestoreComplete slot code seen s
  | .checkpointGroup cmd => Sys2Proof.Machine.execCheckpointGroup cmd s
  | .cairnRetire cmd pool => Sys2Proof.Machine.execCairnRetire cmd pool s
  | .groupScrub cmd kept pool => Sys2Proof.Machine.execGroupScrub cmd kept pool s
  | .ethFrameRx port frame => Sys2Proof.Machine.execEthFrameRx port frame s
  | .pfcRx port prio pauseNs => Sys2Proof.Machine.execPfcRx port prio pauseNs s
  | .requestMessage => Sys2Proof.Machine.execRequestMessage s
  | .requestTokenized => Sys2Proof.Machine.execRequestTokenized s
  | .reasmTimeout => Sys2Proof.Machine.execReasmTimeout s
  | .responseItem => Sys2Proof.Machine.execResponseItem s
  | .shaperRelease => Sys2Proof.Machine.execShaperRelease s
  | .transferItem item => Sys2Proof.Machine.execTransferItem item s
  | .transferSendRx peer hello seen => Sys2Proof.Machine.execTransferSendRx peer hello seen s
  | .reserveItem handle origin => Sys2Proof.Machine.execReserveItem handle origin s
  | .reserveAnswer peer origin handle => Sys2Proof.Machine.execReserveAnswer peer origin handle s
  | .rdmaWriteRx peer index data imm => Sys2Proof.Machine.execRdmaWriteRx peer index data imm s
  | .roceAckRx peer count nak => Sys2Proof.Machine.execRoceAckRx peer count nak s
  | .roceAckTimeout peer => Sys2Proof.Machine.execRoceAckTimeout peer s
  | .cnpRx peer => Sys2Proof.Machine.execCnpRx peer s
  | .roceRateRaise peer => Sys2Proof.Machine.execRoceRateRaise peer s
  | .reservationTimeout slot homeDropped => Sys2Proof.Machine.execReservationTimeout slot homeDropped s
  | .meterSet cmd record => Sys2Proof.Machine.execMeterSet cmd record s
  | .flitRx port flit => Sys2Proof.Machine.execFlitRx port flit s
  | .replayTimeout port => Sys2Proof.Machine.execReplayTimeout port s
  | .fecLockLoss port => Sys2Proof.Machine.execFecLockLoss port s
  | .retrain port => Sys2Proof.Machine.execRetrain port s
  | .initSend port => Sys2Proof.Machine.execInitSend port s
  | .initRx port init => Sys2Proof.Machine.execInitRx port init s
  | .initDoneRx port => Sys2Proof.Machine.execInitDoneRx port s
  | .itemFrame port frame => Sys2Proof.Machine.execItemFrame port frame s
  | .larderDataFrame port frame => Sys2Proof.Machine.execLarderDataFrame port frame s
  | .fabricCompletion id ok => Sys2Proof.Machine.execFabricCompletion id ok s
  | .fabricTimeout id => Sys2Proof.Machine.execFabricTimeout id s
  | .fabricCasComplete addr expected value old => Sys2Proof.Machine.execFabricCasComplete addr expected value old s
  | .fabricLinkDown port => Sys2Proof.Machine.execFabricLinkDown port s
  | .fabricLinkUp port width slow => Sys2Proof.Machine.execFabricLinkUp port width slow s
  | .prefetchInterval port meanNs => Sys2Proof.Machine.execPrefetchInterval port meanNs s
  | .recompose cmd map => Sys2Proof.Machine.execRecompose cmd map s
  | .mapInstall dirHeader => Sys2Proof.Machine.execMapInstall dirHeader s
  | .drainEnd => Sys2Proof.Machine.execDrainEnd s
  | .heldItemTimeout => Sys2Proof.Machine.execHeldItemTimeout s
  | .chargeTick => Sys2Proof.Machine.execChargeTick s
  | .scrubRead channel errs wrote => Sys2Proof.Machine.execScrubRead channel errs wrote s
  | .oscillatorCheck channel drifted => Sys2Proof.Machine.execOscillatorCheck channel drifted s
  | .settRead page => Sys2Proof.Machine.execSettRead page s
  | .settProgram page data => Sys2Proof.Machine.execSettProgram page data s
  | .settTrim page => Sys2Proof.Machine.execSettTrim page s
  | .trimAll => Sys2Proof.Machine.execTrimAll s
  | .settReadDone page lost retries rebuilt => Sys2Proof.Machine.execSettReadDone page lost retries rebuilt s
  | .settProgramDone page ok blocks bytes => Sys2Proof.Machine.execSettProgramDone page ok blocks bytes s
  | .wearLevelling least most cold bytes => Sys2Proof.Machine.execWearLevelling least most cold bytes s
  | .readDisturb block dest bytes => Sys2Proof.Machine.execReadDisturb block dest bytes s
  | .retention block dest bytes => Sys2Proof.Machine.execRetention block dest bytes s
  | .grownDefect block dest bytes => Sys2Proof.Machine.execGrownDefect block dest bytes s
  | .dieFailure die => Sys2Proof.Machine.execDieFailure die s
  | .loadImage cmd image dirHeader dirBase headerBase => Sys2Proof.Machine.execLoadImage cmd image dirHeader dirBase headerBase s
  | .commit cmd => Sys2Proof.Machine.execCommit cmd s
  | .groupApply group => Sys2Proof.Machine.execGroupApply group s
  | .sqTailWrite fn qp value => Sys2Proof.Machine.execSqTailWrite fn qp value s
  | .cqHeadWrite fn qp value => Sys2Proof.Machine.execCqHeadWrite fn qp value s
  | .qcfgWrite fn qp value => Sys2Proof.Machine.execQcfgWrite fn qp value s
  | .attnClear fn value same => Sys2Proof.Machine.execAttnClear fn value same s
  | .attentionReassert fn => Sys2Proof.Machine.execAttentionReassert fn s
  | .commandFetch fn qp record => Sys2Proof.Machine.execCommandFetch fn qp record s
  | .ideStateChange fn secure => Sys2Proof.Machine.execIdeStateChange fn secure s
  | .hostNop cmd => Sys2Proof.Machine.execHostNop cmd s
  | .watch cmd => Sys2Proof.Machine.execWatch cmd s
  | .watchTimeout cmd => Sys2Proof.Machine.execWatchTimeout cmd s
  | .readRegs cmd dmaOk => Sys2Proof.Machine.execReadRegs cmd dmaOk s
  | .setSampler cmd sampler => Sys2Proof.Machine.execSetSampler cmd sampler s
  | .bindAdapter cmd => Sys2Proof.Machine.execBindAdapter cmd s
  | .ferry cmd => Sys2Proof.Machine.execFerry cmd s
  | .span cmd shares => Sys2Proof.Machine.execSpan cmd shares s
  | .submitRequest cmd entries => Sys2Proof.Machine.execSubmitRequest cmd entries s
  | .cancel cmd => Sys2Proof.Machine.execCancel cmd s
  | .readOutput cmd dmaOk => Sys2Proof.Machine.execReadOutput cmd dmaOk s
  | .adapterSwap cmd => Sys2Proof.Machine.execAdapterSwap cmd s
  | .rationAdd cmd => Sys2Proof.Machine.execRationAdd cmd s
  | .grammarLoad cmd image => Sys2Proof.Machine.execGrammarLoad cmd image s
  | .unitFault unit => Sys2Proof.Machine.execUnitFault unit s
  | .unitSelftestDone unit pass => Sys2Proof.Machine.execUnitSelftestDone unit pass s
  | .stepAbort step origin => Sys2Proof.Machine.execStepAbort step origin s
  | .stepRerun acks => Sys2Proof.Machine.execStepRerun acks s
  | .stallProbe answers => Sys2Proof.Machine.execStallProbe answers s
  | .moduleAbsent module => Sys2Proof.Machine.execModuleAbsent module s
  | .moduleFault code detail => Sys2Proof.Machine.execModuleFault code detail s
  | .lostItemTimeout => Sys2Proof.Machine.execLostItemTimeout s
  | .fuseProgram session bits signature => Sys2Proof.Machine.execFuseProgram session bits signature s
  | .getCharge k => Sys2Proof.Machine.execGetCharge k s
  | .jtagSession digest => Sys2Proof.Machine.execJtagSession digest s
  | .mctpControl command arg => Sys2Proof.Machine.execMctpControl command arg s
  | .getTid => Sys2Proof.Machine.execGetTid s
  | .setTid tid => Sys2Proof.Machine.execSetTid tid s
  | .getPldmVersion kind => Sys2Proof.Machine.execGetPldmVersion kind s
  | .getPldmTypes => Sys2Proof.Machine.execGetPldmTypes s
  | .getPldmCommands kind => Sys2Proof.Machine.execGetPldmCommands kind s
  | .getPdr record => Sys2Proof.Machine.execGetPdr record s
  | .getSensorReading sensor => Sys2Proof.Machine.execGetSensorReading sensor s
  | .getStateSensorReadings sensor => Sys2Proof.Machine.execGetStateSensorReadings sensor s
  | .setNumericEffecterValue effecter value => Sys2Proof.Machine.execSetNumericEffecterValue effecter value s
  | .getNumericEffecterValue effecter => Sys2Proof.Machine.execGetNumericEffecterValue effecter s
  | .queryDeviceIdentifiers => Sys2Proof.Machine.execQueryDeviceIdentifiers s
  | .getFirmwareParameters => Sys2Proof.Machine.execGetFirmwareParameters s
  | .requestUpdate => Sys2Proof.Machine.execRequestUpdate s
  | .passComponentTable => Sys2Proof.Machine.execPassComponentTable s
  | .updateComponent component size => Sys2Proof.Machine.execUpdateComponent component size s
  | .requestFirmwareData offset data => Sys2Proof.Machine.execRequestFirmwareData offset data s
  | .transferComplete => Sys2Proof.Machine.execTransferComplete s
  | .verifyComplete => Sys2Proof.Machine.execVerifyComplete s
  | .applyComplete => Sys2Proof.Machine.execApplyComplete s
  | .activateFirmware => Sys2Proof.Machine.execActivateFirmware s
  | .getStatus => Sys2Proof.Machine.execGetStatus s
  | .cancelUpdateComponent => Sys2Proof.Machine.execCancelUpdateComponent s
  | .cancelUpdate => Sys2Proof.Machine.execCancelUpdate s
  | .getVersion port => Sys2Proof.Machine.execGetVersion port s
  | .getCapabilities port => Sys2Proof.Machine.execGetCapabilities port s
  | .negotiateAlgorithms port => Sys2Proof.Machine.execNegotiateAlgorithms port s
  | .getDigests port => Sys2Proof.Machine.execGetDigests port s
  | .getCertificate port slot => Sys2Proof.Machine.execGetCertificate port slot s
  | .challenge port slot => Sys2Proof.Machine.execChallenge port slot s
  | .getMeasurements port index => Sys2Proof.Machine.execGetMeasurements port index s
  | .keyExchange port => Sys2Proof.Machine.execKeyExchange port s
  | .finish port session => Sys2Proof.Machine.execFinish port session s
  | .keyUpdate port session => Sys2Proof.Machine.execKeyUpdate port session s
  | .heartbeat port session => Sys2Proof.Machine.execHeartbeat port session s
  | .endSession port session => Sys2Proof.Machine.execEndSession port session s
  | .fecLock port => Sys2Proof.Machine.execFecLock port s
  | .ethLinkState port up badCodewords => Sys2Proof.Machine.execEthLinkState port up badCodewords s
  | .rebuildComplete die moves codewords bytes => Sys2Proof.Machine.execRebuildComplete die moves codewords bytes s
  | .promotionWindow => Sys2Proof.Machine.execPromotionWindow s

end Sys2Proof.Machine
end

