-- ==== Sys2Proof/Safety.lean ====
section
/-! DEFINITION. What counts as a safe run: no command stops the block, and a block that is not live stays as it is until a power,
reset or management event wakes it. -/

namespace Sys2Proof.Machine

open Sys2Proof

/-- A step answers a next state. -/
def State.steps (s : State) : Prop := ∃ t, step s = .next t

/-- A run of k steps from a state never stops. -/
def State.safeFor (s : State) (k : Nat) : Prop := ∃ t, Host.Core.run core k s = .next t

end Sys2Proof.Machine
end

