-- ==== Sys2Proof/WellFormed.lean ====
section
/-! DEFINITION. Which commands are well formed: operands that the spec gives a width or a range and that their Lean type does not
bound.  A sender sends well-formed commands only; the meanings are total on all. -/

namespace Sys2Proof

/-- A page number of the 52-bit state address space (R53). -/
def pageOk (p : Nat) : Bool := p < 2 ^ 36
/-- A session directory slot, bits 53:32 of a handle (R34). -/
def slotOk (n : Nat) : Bool := n < 2 ^ 22
/-- A module number, bits 63:54 of a handle (R34). -/
def moduleOk (m : Nat) : Bool := m < 1024
/-- A logical page of the sett (R621). -/
def settPageOk (p : Nat) : Bool := p < 805306368
/-- A span number of a span table (R161). -/
def spanOk (n : Nat) : Bool := n < 65536
/-- A layer of an attention item (R190). -/
def layerOk (l : Nat) : Bool := l < 256
/-- A NAND block: die and index in the die (R620, R624). -/
def blockOk (b : Nat) : Bool := b < 1024 * 65536
/-- A page of DRAM user capacity (R59). -/
def dramPageOk (p : Nat) : Bool := p < 33554432
/-- A row number of an embedding table (ROWS, R487). -/
def rowOk (r : Nat) : Bool := r < 2 ^ 40
/-- A byte of a stored DRAM line: 256 data bytes and 32 check bytes (R605). -/
def lineByteOk (b : Nat) : Bool := b < 288
/-- A 16-bit code or status (R673). -/
def codeOk (c : Nat) : Bool := c < 65536

def Instr.wellFormed : Instr → Bool
  | .registerWrite _ _ _ ns => ns ≤ 150
  | .powerOn => true
  | .moduleReset => true
  | .resetNRelease => true
  | .hostPortReset => true
  | .functionLevelReset _ => true
  | .undervoltage => true
  | .lowSustained => true
  | .overvoltage => true
  | .programInhibit => true
  | .vinEnMake => true
  | .vinEnBreak => true
  | .railWindowTimeout => true
  | .railRetry => true
  | .clocksLocked _ _ => true
  | .dramTrainingDone _ _ _ => true
  | .selftestDone _ _ _ _ => true
  | .settMountDone _ _ _ => true
  | .bootWatchdog => true
  | .govPowerSample _ => true
  | .govCurrentSample _ _ => true
  | .govJunctionSample _ _ => true
  | .govStepUp => true
  | .mr4Read _ _ => true
  | .sensorSample _ _ => true
  | .parkEntry _ => true
  | .parkExit => true
  | .parkUpkeepExit => true
  | .segmentStart _ _ _ => true
  | .segmentResume _ _ => true
  | .bundleIssue _ => true
  | .slotExpire _ _ _ => true
  | .mmaDrainComplete _ _ _ => true
  | .rendezvousComplete _ => true
  | .fetchDelivery _ _ _ => true
  | .moverTransferComplete _ _ _ _ _ lines => lines.all fun l => l.2.all fun e => lineByteOk e.1
  | .segmentRetire _ => true
  | .preemptSave _ _ => true
  | .preemptDiscard _ => true
  | .tnop _ _ _ => true
  | .loadb _ _ _ _ _ => true
  | .mma _ _ _ _ _ _ _ _ _ _ _ => true
  | .vadd _ _ _ _ _ _ => true
  | .vsub _ _ _ _ _ _ => true
  | .vmul _ _ _ _ _ _ => true
  | .vfma _ _ _ _ _ _ => true
  | .vmax _ _ _ _ _ _ => true
  | .vmin _ _ _ _ _ _ => true
  | .vcmplt _ _ _ _ _ _ => true
  | .vcmpeq _ _ _ _ _ _ => true
  | .vsel _ _ _ _ _ _ => true
  | .vabs _ _ _ _ _ => true
  | .vneg _ _ _ _ _ => true
  | .vscale2 _ _ _ _ _ _ => true
  | .vexp _ _ _ _ _ => true
  | .vlog _ _ _ _ _ => true
  | .vrcp _ _ _ _ _ => true
  | .vrsqrt _ _ _ _ _ => true
  | .vmaxr _ _ _ _ _ => true
  | .vsumr _ _ _ _ _ => true
  | .vadds _ _ _ _ _ _ => true
  | .vsubs _ _ _ _ _ _ => true
  | .vmuls _ _ _ _ _ _ => true
  | .cvt _ _ _ _ _ _ _ _ => true
  | .mxq _ _ _ _ _ _ => true
  | .mnop _ _ _ => true
  | .mget _ _ _ _ _ _ _ => true
  | .mput _ _ _ _ _ _ _ => true
  | .mxl _ _ _ _ _ _ _ => true
  | .scatter _ _ _ _ _ _ _ => true
  | .mring _ _ _ _ _ _ _ => true
  | .mzero _ _ _ _ _ _ _ => true
  | .pnop _ _ => true
  | .pread _ _ _ _ _ _ => true
  | .pwrite _ _ _ _ _ => true
  | .attend _ _ _ _ _ => true
  | .snop _ _ _ => true
  | .scalarAdd _ _ _ _ _ _ => true
  | .scalarSub _ _ _ _ _ _ => true
  | .scalarAnd _ _ _ _ _ _ => true
  | .scalarOr _ _ _ _ _ _ => true
  | .scalarXor _ _ _ _ _ _ => true
  | .scalarShl _ _ _ _ _ _ => true
  | .scalarShr _ _ _ _ _ _ => true
  | .scalarSra _ _ _ _ _ _ => true
  | .scalarSlt _ _ _ _ _ _ => true
  | .scalarSltu _ _ _ _ _ _ => true
  | .scalarMul _ _ _ _ _ _ => true
  | .scalarAddi _ _ _ _ _ _ => true
  | .scalarLi _ _ _ _ _ => true
  | .scalarLih _ _ _ _ _ => true
  | .lds _ _ _ _ _ _ _ => true
  | .sts _ _ _ _ _ _ _ => true
  | .ynop _ _ _ => true
  | .yadd _ _ _ _ _ => true
  | .yset _ _ _ _ _ => true
  | .ywait _ _ _ _ _ _ => true
  | .yread _ _ _ _ _ => true
  | .qpush _ _ _ _ _ _ => true
  | .bnop _ _ => true
  | .jmp _ _ _ => true
  | .bz _ _ _ _ => true
  | .bnz _ _ _ _ => true
  | .loop _ _ _ _ => true
  | .endSegment _ _ _ => true
  | .ppt _ _ _ => true
  | .rdv _ _ _ _ => true
  | .tileRemap _ _ _ => true
  | .tileFence _ _ => true
  | .tallyAdd _ _ _ => true
  | .tallySet _ _ _ => true
  | .tallyRead _ _ => true
  | .tallyWait _ _ _ => true
  | .tallyCancel _ _ => true
  | .tallyWake _ _ => true
  | .waitPoll _ _ => true
  | .clearPeak _ => true
  | .queueItemArrival _ _ _ _ _ => true
  | .hwPop _ => true
  | .hqPush _ _ _ ns => ns ≤ 150
  | .hqPop _ _ ns => ns ≤ 150
  | .hqFlush _ ns => ns ≤ 100
  | .ferryMove _ => true
  | .ferryDrop _ => true
  | .ferryWriteDone page _ => pageOk page
  | .ferryVerifyDone page _ => pageOk page
  | .shootdownAck _ page => pageOk page
  | .writeIntent _ page => pageOk page
  | .ageTick => true
  | .evictionPass => true
  | .bwEstUpdate _ _ _ _ _ _ => true
  | .rationBinAdvance => true
  | .retireRetry dramPage => dramPageOk dramPage
  | .openHamper _ _ => true
  | .closeHamper _ _ => true
  | .park _ _ => true
  | .revive _ _ => true
  | .reviveItem _ _ => true
  | .reviveHoldRelease slot => slotOk slot
  | .reviveComplete slot _ => slotOk slot
  | .likelihoodDecay slot => slotOk slot
  | .give _ _ => true
  | .handoverTake slot _ _ => slotOk slot
  | .handoverAck _ _ _ => true
  | .custodyTimeout slot _ => slotOk slot
  | .custodyCheck slot _ => slotOk slot
  | .custodyProbe _ _ _ => true
  | .probeTimeout _ _ => true
  | .emptyClaimRestore _ _ _ => true
  | .spanOpen _ => true
  | .spanPark _ => true
  | .spanFetch _ => true
  | .spanDrop _ => true
  | .recompBegin _ => true
  | .recompEnd _ _ => true
  | .spanPin _ => true
  | .spanUnpin _ => true
  | .spanShare _ => true
  | .spanRelease _ => true
  | .statsMap _ => true
  | .statsFree _ => true
  | .deferredRelease _ => true
  | .dropRetry _ page => pageOk page
  | .recomputePrefill slot spanNo _ _ _ => slotOk slot && spanOk spanNo
  | .recompBeginRetry slot spanNo => slotOk slot && spanOk spanNo
  | .attentionItemResult _ _ => true
  | .rankRequest _ _ slot layer _ _ _ _ _ _ _ => slotOk slot && layerOk layer
  | .rankContinuation _ _ _ => true
  | .rankRelease _ _ => true
  | .reduceStage _ _ _ => true
  | .reduceTimeout _ => true
  | .ringPrefillRound _ slot layer _ _ _ _ _ _ => slotOk slot && layerOk layer
  | .requestGenerate _ => true
  | .requestAppend _ => true
  | .requestCancel _ => true
  | .stepBoundary _ _ => true
  | .subBatch _ module _ _ => moduleOk module
  | .sessionParameters _ _ => true
  | .stepBegin _ => true
  | .listTimeout => true
  | .stepDone module _ status _ _ => moduleOk module && codeOk status
  | .lengthWord _ _ _ => true
  | .rationRefill => true
  | .adapterRetire _ _ => true
  | .segmentPick _ _ _ => true
  | .preemptedCompletion _ => true
  | .loadSegmentDone _ _ => true
  | .acctWindow => true
  | .serviceEntry _ _ => true
  | .serviceExit _ => true
  | .tokenize _ => true
  | .detokenize _ => true
  | .mask _ => true
  | .advance _ => true
  | .grammarOpen _ => true
  | .grammarClose _ => true
  | .textRelease _ => true
  | .search _ => true
  | .listPublish _ => true
  | .listPublishComplete => true
  | .graphEdit _ => true
  | .lookup _ _ => true
  | .poolStage _ _ => true
  | .poolTimeout _ => true
  | .update _ => true
  | .tablePublish _ => true
  | .tableRetire => true
  | .rowFillComplete _ row => rowOk row
  | .cut _ _ => true
  | .cutItem _ _ => true
  | .shardMark _ _ => true
  | .pageCopyComplete page _ => pageOk page
  | .shardDurable => true
  | .manifestDurable => true
  | .shardDone module _ _ _ code => moduleOk module && codeOk code
  | .cairnRecordDurable _ => true
  | .commitNotice _ code _ => codeOk code
  | .snapTimeout => true
  | .restore _ _ _ => true
  | .restoreItem _ _ _ => true
  | .restoreComplete slot code _ => slotOk slot && codeOk code
  | .checkpointGroup _ => true
  | .cairnRetire _ _ => true
  | .groupScrub _ _ _ => true
  | .ethFrameRx _ _ => true
  | .pfcRx _ _ _ => true
  | .requestMessage => true
  | .requestTokenized => true
  | .reasmTimeout => true
  | .responseItem => true
  | .shaperRelease => true
  | .transferItem _ => true
  | .transferSendRx peer _ _ => moduleOk peer
  | .reserveItem _ _ => true
  | .reserveAnswer peer _ _ => moduleOk peer
  | .rdmaWriteRx peer _ _ _ => moduleOk peer
  | .roceAckRx peer _ _ => moduleOk peer
  | .roceAckTimeout peer => moduleOk peer
  | .cnpRx peer => moduleOk peer
  | .roceRateRaise peer => moduleOk peer
  | .reservationTimeout slot _ => slotOk slot
  | .meterSet _ _ => true
  | .flitRx _ _ => true
  | .replayTimeout _ => true
  | .fecLockLoss _ => true
  | .retrain _ => true
  | .initSend _ => true
  | .initRx _ _ => true
  | .initDoneRx _ => true
  | .itemFrame _ _ => true
  | .larderDataFrame _ _ => true
  | .fabricCompletion _ _ => true
  | .fabricTimeout _ => true
  | .fabricCasComplete _ _ _ _ => true
  | .fabricLinkDown _ => true
  | .fabricLinkUp _ _ _ => true
  | .prefetchInterval _ _ => true
  | .recompose _ _ => true
  | .mapInstall _ => true
  | .drainEnd => true
  | .heldItemTimeout => true
  | .chargeTick => true
  | .scrubRead _ errs _ => errs.all fun e => lineByteOk e.1
  | .oscillatorCheck _ _ => true
  | .settRead page => settPageOk page
  | .settProgram page _ => settPageOk page
  | .settTrim page => settPageOk page
  | .trimAll => true
  | .settReadDone page _ _ _ => settPageOk page
  | .settProgramDone page _ _ _ => settPageOk page
  | .wearLevelling _ _ _ _ => true
  | .readDisturb block _ _ => blockOk block
  | .retention block _ _ => blockOk block
  | .grownDefect block _ _ => blockOk block
  | .dieFailure _ => true
  | .loadImage _ _ _ _ _ => true
  | .commit _ => true
  | .groupApply _ => true
  | .sqTailWrite _ _ _ => true
  | .cqHeadWrite _ _ _ => true
  | .qcfgWrite _ _ _ => true
  | .attnClear _ _ _ => true
  | .attentionReassert _ => true
  | .commandFetch _ _ _ => true
  | .ideStateChange _ _ => true
  | .hostNop _ => true
  | .watch _ => true
  | .watchTimeout _ => true
  | .readRegs _ _ => true
  | .setSampler _ _ => true
  | .bindAdapter _ => true
  | .ferry _ => true
  | .span _ _ => true
  | .submitRequest _ _ => true
  | .cancel _ => true
  | .readOutput _ _ => true
  | .adapterSwap _ => true
  | .rationAdd _ => true
  | .grammarLoad _ _ => true
  | .unitFault _ => true
  | .unitSelftestDone _ _ => true
  | .stepAbort _ origin => moduleOk origin
  | .stepRerun _ => true
  | .stallProbe _ => true
  | .moduleAbsent module => moduleOk module
  | .moduleFault _ _ => true
  | .lostItemTimeout => true
  | .fuseProgram _ _ _ => true
  | .getCharge _ => true
  | .jtagSession _ => true
  | .mctpControl _ _ => true
  | .getTid => true
  | .setTid _ => true
  | .getPldmVersion _ => true
  | .getPldmTypes => true
  | .getPldmCommands _ => true
  | .getPdr _ => true
  | .getSensorReading _ => true
  | .getStateSensorReadings _ => true
  | .setNumericEffecterValue _ _ => true
  | .getNumericEffecterValue _ => true
  | .queryDeviceIdentifiers => true
  | .getFirmwareParameters => true
  | .requestUpdate => true
  | .passComponentTable => true
  | .updateComponent _ _ => true
  | .requestFirmwareData _ _ => true
  | .transferComplete => true
  | .verifyComplete => true
  | .applyComplete => true
  | .activateFirmware => true
  | .getStatus => true
  | .cancelUpdateComponent => true
  | .cancelUpdate => true
  | .getVersion _ => true
  | .getCapabilities _ => true
  | .negotiateAlgorithms _ => true
  | .getDigests _ => true
  | .getCertificate _ _ => true
  | .challenge _ _ => true
  | .getMeasurements _ _ => true
  | .keyExchange _ => true
  | .finish _ _ => true
  | .keyUpdate _ _ => true
  | .heartbeat _ _ => true
  | .endSession _ _ => true
  | .fecLock _ => true
  | .ethLinkState _ _ _ => true
  | .rebuildComplete _ _ _ _ => true
  | .promotionWindow => true

end Sys2Proof
end

