-- ==== Sys2Proof/Certificates/Slice0/Obligations.lean ====
section
/-! DEFINITION. The statements for the provers.  `Does c s P` says that command c answers a next state at s, and what holds of it. -/

open Sys2Proof Sys2Proof.Machine

namespace Sys2Proof.Machine

/-- Command c answers a next state t at s, and P t. -/
def Does (c : Instr) (s : State) (P : State → Prop) : Prop := ∃ t, exec c s = .next t ∧ P t

/-- Command c has no effect at s. -/
def Ignored (c : Instr) (s : State) : Prop := exec c s = .next s

end Sys2Proof.Machine

/-! ### The block as a whole -/

/-- Of every command c: a step of a state with c at the front of its queue is exec of c on the state with the queue's rest; on an
empty queue one nanosecond passes (the model's choice, log entry 1). -/
def Obligations.StepRunsFront : Prop :=
  (∀ (c : Instr) (rest : List Instr) (s : State), step { s with pending := c :: rest } = exec c { s with pending := rest }) ∧
    ∀ s : State, s.pending = [] → step s = .next { s with now := s.now + 1 }

/-- No command stops the block: every step of every state answers a next state. Where it rests on the model's own choices: log
entry 6. -/
def Obligations.EveryStepAnswers : Prop :=
  ∀ s : State, s.steps

/-- Commands that act while the module is off, in boot, or stopped: power events, boot events, sensors, the host port's own registers,
written by their rows or through BAR0, and the management endpoint. -/
def Sys2Proof.Instr.wakes : Instr → Bool
  | .registerWrite (.bar ..) .. | .powerOn | .moduleReset | .resetNRelease | .undervoltage | .lowSustained | .overvoltage | .programInhibit | .vinEnMake
  | .vinEnBreak | .railWindowTimeout | .railRetry | .clocksLocked .. | .dramTrainingDone .. | .selftestDone .. | .settMountDone ..
  | .bootWatchdog | .sensorSample .. | .hostPortReset | .functionLevelReset _ | .ideStateChange .. | .qcfgWrite .. | .sqTailWrite ..
  | .cqHeadWrite .. | .attnClear .. | .attentionReassert _ | .jtagSession _ | .mctpControl .. | .getTid | .setTid _
  | .getPldmVersion _ | .getPldmTypes | .getPldmCommands _ | .getPdr _ | .getSensorReading _ | .getStateSensorReadings _
  | .setNumericEffecterValue .. | .getNumericEffecterValue _ | .getCharge _ | .queryDeviceIdentifiers | .getFirmwareParameters
  | .requestUpdate | .passComponentTable | .updateComponent .. | .requestFirmwareData .. | .transferComplete | .verifyComplete
  | .applyComplete | .activateFirmware | .getStatus | .cancelUpdateComponent | .cancelUpdate | .fuseProgram .. | .getVersion _
  | .getCapabilities _ | .negotiateAlgorithms _ | .getDigests _ | .getCertificate .. | .challenge .. | .getMeasurements ..
  | .keyExchange _ | .finish .. | .keyUpdate .. | .heartbeat .. | .endSession .. => true
  | _ => false

/-- A module that is not live (rails off, X-dies in reset, latched off, or stopped by a MODULE fault) with no waking command in
its queue. -/
def Sys2Proof.Machine.State.asleep (s : State) : Prop := s.live = false ∧ ∀ c ∈ s.pending, c.wakes = false

/-- "The module serves nothing until a reset" (R696), for every state without power or stopped by a fault: each step takes the
front command off the queue, or lets one nanosecond pass, and changes nothing else, so the module stays asleep. Where it
rests on the model's own choices: log entry 1. -/
def Obligations.AsleepStaysAsleep : Prop :=
  ∀ s t : State, s.asleep → step s = .next t →
    t.asleep ∧ t = { s with pending := s.pending.tail, now := if s.pending = [] then s.now + 1 else s.now }

/-- What reset leaves: every register at the Reset column's value, every tally 0, every byte of memory 0, every queue empty,
every directory slot FREE, every die idle, boot stage 0, no command waiting (R709, R714; bytes of memory: the model's
choice, log entry 2). The state after reset is asleep: the rails are off at the start of the POWER_ON sequence (R708, R714).
Where it rests on the model's own choices: log entries 2, 3, 4. -/
def Obligations.ResetValues : Prop :=
  ((∀ k, State.reset.reg k = regReset k) ∧ (∀ t, State.reset.tally t = 0) ∧ (∀ a, State.reset.byte a = 0) ∧
     (∀ q, (State.reset.queue q).items = []) ∧ (∀ n, (State.reset.dir n).state = .free) ∧
     (∀ d, (State.reset.die d).state = .idle) ∧ State.reset.plat.stage = 0 ∧ State.reset.pending = []) ∧
  (State.reset.asleep)

/-- Registers with a WO field whose write starts an action (R15): the queue registers of the cores, TLY.OP, TLY.POOL and TILE.REMAP. -/
def Sys2Proof.Machine.startsAction (k : Nat) : Bool :=
  (goKey k).isSome || inFam (Reg.tlyOp 0) 4 k || inFam (Reg.tlyPool 0) 4 k || k = Reg.tileRemap

/-- R15 and R16: a write to a register that starts no action changes its RW bits at once to the value written, clears the W1C
bits written as 1 but for those that the module sets in the cycle of the write (`same`), leaves its RO bits and every other
register, and puts its RWS bits into the shadow. A write of a WO field starts its action: GO of TILE.REMAP asks for a new
binding (R254), and CLEAR_PEAK of TLY.POOL sets PEAK to USED (R338). A write of a function's ENABLE acts while the host port
answers (R680). The bits of a register that the spec gives no readable field read 0 (R12, R16), whatever the state. Where it
rests on the model's own choices: log entry 37. -/
def Obligations.RegisterAccess : Prop :=
  (∀ (s : State) (k ns : Nat) (v same : Word),
     (s.live = true → k ≠ Reg.pltGov → startsAction k = false →
       Does (.registerWrite (.block k) v same ns) s fun t =>
         t.reg k = ((((s.reg k &&& ~~~regMask k .rw) ||| (v &&& regMask k .rw)) &&& ~~~(v &&& regMask k .w1c)) |||
           (same &&& regMask k .w1c)) ∧
         (∀ j, j ≠ k → t.reg j = s.reg j) ∧
         (regMask k .rws = 0 → t.shadow = s.shadow) ∧
         (regMask k .rws ≠ 0 → same &&& regMask k .w1c = 0 →
           SMap.lookup t.shadow k = some ((t.reg k &&& ~~~regMask k .rws) ||| (v &&& regMask k .rws)))) ∧
     (s.live = true → bit v 16 = true → bit v 15 = false → s.remapDenied (bits v 14 13) (bits v 5 0) = false →
       Does (.registerWrite (.block Reg.tileRemap) v same ns) s fun t =>
         t.cmp.remaps = s.cmp.remaps ++ [(bits v 14 13, bits v 10 6, bits v 5 0)]) ∧
     (∀ d : Fin 4, s.live = true → bit v 63 = true →
       Does (.registerWrite (.block (Reg.tlyPool d.val)) v same ns) s fun t =>
         t.field (Reg.tlyPool d.val) 28 16 = s.poolUsed d.val % 8192) ∧
     ∀ f : Fin 2, s.portUp = true →
       Does (.registerWrite (.bar f 0x08) v same ns) s fun t => (t.fn f.val).enable = bit v 0) ∧
  (∀ (s : State) (k : Nat), s.readReg k &&& ~~~(regMask k .ro ||| regMask k .rw ||| regMask k .w1c ||| regMask k .rws) = 0)

/-! ### Power, boot, governor (ch. 20, 21) -/

/-- What a POWER_ON or MODULE reset leaves (R709): every register at its reset value, every tally 0, every byte outside the pool and
the sett 0, the time base 0; the pool's and the sett's bytes, the fuses, the banks of the sett boot area and the sett's mapping
stay. -/
def Sys2Proof.Machine.Cleared (s t : State) : Prop :=
  (∀ k, t.reg k = regReset k) ∧ (∀ n, t.tally n = 0) ∧
    (∀ a, t.byte a = if a / 2 ^ 64 = 2 ∨ a / 2 ^ 64 = 3 then s.byte a else 0) ∧
    t.plat.fuses = s.plat.array ∧ t.plat.array = s.plat.array ∧ t.plat.bankA = s.plat.bankA ∧ t.plat.bankB = s.plat.bankB ∧
    t.sett.place = s.sett.place ∧ t.now = 0

/-- R709, with R708: a POWER_ON or MODULE reset clears every register and tally and every state in DRAM, the larder and the
tiles, DRAM is to be trained and the sett mounted again (stage 0x0, SETT.STATUS at reset), the fuses, the sett and its boot
area keep their contents, and RESET_CAUSE records the kind. Where it rests on the model's own choices: log entries 3, 21. -/
def Obligations.ResetClears : Prop :=
  ∀ s : State,
    (s.plat.low = true → Does .powerOn s fun t => Cleared s t ∧ t.plat.stage = 0 ∧ t.plat.cause = 0 ∧ t.plat.low = false) ∧
    (s.plat.rails = true → Does .moduleReset s fun t =>
      Cleared s t ∧ t.plat.stage = 0 ∧ t.plat.cause = 1 ∧ t.plat.rails = true ∧ t.plat.resetHeld = true)

/-- Power events (R51, R708, R715, R738, R740, R741, R743, R753, R754): what turns the rails off, what latches a shutdown, what
starts the power stage, and the retries of a rail group that missed its window. The boot sequence (R712, R713, R714, R716,
R719, R623): clocks lock, fuses are compared and read, a bank that verifies is chosen, DRAM training, self-test and the sett
mount each move the stage on; a failure sets FATAL with its code at stage FAILED. Where it rests on the model's own choices:
log entries 4, 21, 32, 33, 39, 78. -/
def Obligations.PowerAndBoot : Prop :=
  (∀ s : State,
     (s.plat.low = true → s.plat.vinEn = true → Does .powerOn s fun t => t.plat.stage = 0 ∧ t.plat.cause = 0 ∧
       t.plat.low = false ∧ t.plat.latched = false ∧ t.ramping = true ∧ Cleared s t) ∧
     (s.plat.rails = true → Does .moduleReset s fun t =>
       t.plat.stage = 0 ∧ t.plat.cause = 1 ∧ t.plat.rails = true ∧ t.plat.resetHeld = true ∧ Cleared s t) ∧
     (s.plat.rails = false → Does .moduleReset s fun t => t = { s with plat.resetHeld := true }) ∧
     Does .undervoltage s (fun t => t.plat.rails = false ∧ t.plat.low = true ∧ Cleared s t) ∧
     Does .lowSustained s (fun t => t.plat.rails = false ∧ t.plat.latched = true ∧ Cleared s t) ∧
     Does .overvoltage s (fun t => t.plat.rails = false ∧ t.plat.latched = true ∧ Cleared s t) ∧
     Does .programInhibit s (fun t => t = { s with plat.inhibit := true }) ∧
     Does .resetNRelease s (fun t => t = { s with plat.resetHeld := false }) ∧
     Does .vinEnBreak s (fun t => t.plat.rails = false ∧ t.plat.vinEn = false ∧ Cleared s t) ∧
     (s.plat.vinEn = false → s.plat.low = false → s.plat.latched = false →
       Does .vinEnMake s fun t => t.plat.vinEn = true ∧ t.plat.stage = 0 ∧ t.ramping = true) ∧
     (s.ramping = true → s.plat.railFails < 2 →
       Does .railWindowTimeout s fun t => t.plat.rails = false ∧ t.plat.railRetryAt = some (t.now + 10 ^ 9) ∧
         t.plat.railFails = s.plat.railFails + 1) ∧
     (s.ramping = true → s.plat.railFails = 2 →
       Does .railWindowTimeout s fun t => t.plat.rails = false ∧ t.plat.stage = 15 ∧ t.plat.failCode = Code.railFault ∧
         t.ramping = false) ∧
     ∀ n, s.plat.railRetryAt = some n → n ≤ s.now → Does .railRetry s fun t => t = { s with plat.railRetryAt := none }) ∧
  (∀ s : State,
     (∀ rom b, s.plat.stage = 0 → s.plat.resetHeld = false → (s.plat.rails || s.ramping) = true → s.plat.tryBank = none →
       s.plat.activeBank = b → { s with plat.fuses := s.plat.array }.bankOk b = true → s.plat.measLog = [] → s.plat.meas = [] →
       Does (.clocksLocked true rom) s fun t => t.plat.stage = 3 ∧ t.plat.rails = true ∧ t.plat.bootBank = b ∧
         t.plat.fuses = s.plat.array ∧ t.plat.fwVersion = fwVersion (s.bank b).control ∧ t.plat.measLog.length = 4) ∧
     (∀ rom, s.plat.stage = 0 → s.plat.resetHeld = false → s.plat.rails = true →
       Does (.clocksLocked false rom) s fun t => t.plat.stage = 15 ∧ t.host.fatal = true ∧ t.host.fatalCode = Code.fuseMismatch ∧
         t.plat.rails = true) ∧
     (∀ ok ch f, s.plat.stage = 3 → Does (.dramTrainingDone ok ch f) s fun t =>
       if ok then t.plat.stage = 4 ∧ t.field Reg.dramStatus 15 8 = 128
       else t.plat.stage = 15 ∧ t.host.fatal = true ∧ t.host.fatalCode = Code.dramTrain ∧ t.reg Reg.dramErrlog =
         (fld 63 63 1 ||| fld 62 60 f.val ||| fld 59 53 ch.val)) ∧
     (∀ k, s.plat.stage = 4 → Does (.selftestDone [] true k []) s fun t =>
       if k then t = { s with plat.stage := 5 } else t.plat.stage = 15 ∧ t.host.fatalCode = Code.selftestFailed) ∧
     (∀ b n, s.plat.stage = 5 → bit (s.reg Reg.settStatus) 63 = false → s.plat.tryBank = none →
       Does (.settMountDone true b n) s fun t => t.plat.stage = 6 ∧ t.host.ready = true ∧ t.unitFailed 7 = false ∧
         t.sett.count = b) ∧
     (s.plat.tryBank = some s.plat.bootBank → 1 ≤ s.plat.stage → s.plat.stage < 6 → s.plat.romNs + 10 ^ 10 ≤ s.now →
       Does .bootWatchdog s fun t => t.plat.stage = 0 ∧ t.plat.cause = 1 ∧ t.plat.tryBank = none ∧ t.plat.tryFailed = true ∧
         t.plat.failCode = Code.bootTimeout))

/-- The governor and the sensors (R395, R603, R730, R731, R737, R743). Parking (R745 to R748): entry after PARK_IDLE_MS of
idleness from SERVING, with a count of PLT.PWR.PARKS and DRAM in self-refresh; exit and the exit for sett upkeep end both.
Where it rests on the model's own choices: log entries 33, 51, 90. -/
def Obligations.GovernorAndParking : Prop :=
  (∀ s : State, s.governs = true →
     (∀ w d, s.plat.lastPowerDown = none → s.capW ≤ w →
       (s.downOrder.find? fun d => 0 < s.dvfsTarget d && !s.dieService d) = some d →
       Does (.govPowerSample w) s fun t => t.dvfsTarget d = s.dvfsTarget d - 1 ∧ t.plat.lastPowerDown = some s.now) ∧
     (∀ w, w < s.capW → Does (.govPowerSample w) s fun t => t.plat.powerTarget = s.plat.powerTarget) ∧
     (∀ w m, (105 * s.capW < 100 * w ∨ 40000 < m) → Does (.govCurrentSample w m) s fun t => ∀ d < 4,
       t.stretchOf d = if s.dieService d then s.stretchOf d else min 8 (s.stretchOf d + 1)) ∧
     (∀ w m, w ≤ s.capW → m ≤ 40000 → Does (.govCurrentSample w m) s fun t => ∀ d < 4, t.stretchOf d = s.stretchOf d - 1) ∧
     (∀ i v, (1100 : Int) ≤ v → Does (.govJunctionSample i v) s fun t =>
       t.host.fatal = true ∧ t.host.fatalCode = Code.thermalTrip ∧ t.plat.tripped = true) ∧
     (∀ i : Fin 10, i.val < 4 → ∀ v : Int, v < 1100 → ((10 * s.field Reg.pltGov 51 44 : Nat) : Int) ≤ v →
       SMap.lookup s.plat.lastThermDown i.val = none → 0 < s.dvfsTarget i.val →
       Does (.govJunctionSample i v) s fun t => t.dvfsTarget i.val = s.dvfsTarget i.val - 1) ∧
     (∀ n d, s.plat.belowSince = some n → s.plat.hotDies = [] → s.plat.dramHot = false →
       n + msec (s.field Reg.pltGov 31 16) ≤ s.now → (s.upOrder.find? fun d => s.dvfsTarget d < 3) = some d →
       Does .govStepUp s fun t => t.dvfsTarget d = s.dvfsTarget d + 1) ∧
     (∀ d c, (∀ x ∈ s.plat.dramTemps, x.2 ≤ 85) → c ≤ 105 → Does (.mr4Read d c) s fun t =>
       t.field Reg.dramStatus 2 2 = (if 85 < c then 1 else 0) ∧ t.plat.thermTarget = s.plat.thermTarget) ∧
     (∀ (i : Fin 23) (v : BitVec 32), Does (.sensorSample i v) s fun t =>
       t.reg (Reg.pltSensor i.val) = fld 31 0 v.toNat ∧
         t.plat.inhibit = if i.val = 0 ∧ 44000 ≤ v.toNat then false else s.plat.inhibit)) ∧
  (∀ s : State, s.live = true →
     (∀ ms, s.plat.stage = 7 → s.plat.parkedSince = none → s.plat.upkeepSince = none → bit (s.reg Reg.pltPwr) 32 = true →
       s.field Reg.pltPwr 31 16 ≤ ms → s.idleNow = true →
       Does (.parkEntry ms) s fun t => t.plat.parkedSince = some s.now ∧ t.field Reg.dramStatus 1 1 = 1 ∧
         t.field Reg.pltPwr 15 0 = (s.field Reg.pltPwr 15 0 + 1) % 65536) ∧
     (s.plat.parkedSince.isSome → Does .parkExit s fun t => t.plat.parkedSince = none ∧ t.field Reg.dramStatus 1 1 = 0) ∧
     (s.plat.parkedSince.isSome → Does .parkUpkeepExit s fun t => t.plat.parkedSince = none ∧ t.plat.upkeepSince = some s.now ∧
       t.field Reg.dramStatus 1 1 = 0))

/-! ### Bundle sequencers and slot actions (ch. 8) -/

/-- The action may start: a running die, a free slot, operands in order (R270, R277 to R297), no overlap cause (R301). -/
def Sys2Proof.Machine.State.Fits (s : State) (n slot : Nat) (op : SlotOp) (dur : Nat) : Prop :=
  s.live = true ∧ (s.die n).state = .running ∧
    SMap.lookup ((s.laid n).die n).slots slot = none ∧
    (s.laid n).operandCode n slot op dur ((s.laid n).die n) = 0 ∧
    (s.laid n).overlapCause n slot ((s.laid n).action n slot op dur) ((s.laid n).die n) = 0

/-- The slot holds the action in t; no byte, register, tally, queue or other die differs from the state it was laid in. -/
def Sys2Proof.Machine.Occupies (s t : State) (n slot : Nat) (op : SlotOp) (dur : Nat) : Prop :=
  SMap.lookup (t.die n).slots slot = some ((s.laid n).action n slot op dur) ∧
    t.mem = (s.laid n).mem ∧ t.regs = (s.laid n).regs ∧ t.tly.vals = (s.laid n).tly.vals ∧
    t.hq.queues = (s.laid n).hq.queues ∧
    ∀ m, m ≠ n → t.die m = (s.laid n).die m

/-- Tile slots (R273, R277): every tile opcode that passes its checks occupies its tile's slot for DUR + 1 cycles; its result is
written when the slot expires. Mover and larder-port slots (R282 to R284, R286, R289): a mover's transfer is issued with the
values of its registers, an ATTEND's list holds the named tiles, reads and writes take the mask with them. Where it rests on
the model's own choices: log entry 16. -/
def Obligations.ActionsIssue : Prop :=
  (∀ (s : State) (die : Fin 4) (tile : Fin 32) (dur : BitVec 12) (dst x y : BitVec 14) (fa fb : Fmt) (acc : BitVec 3)
     (accum swap ld sat : Bool) (k : BitVec 9),
     (∀ p ∈ ([(.tnop die tile dur, .nop), (.loadb die tile dur fa x, .loadb fa x),
         (.vadd die tile dur dst x y, .vec .add dst x y 0), (.vsub die tile dur dst x y, .vec .sub dst x y 0),
         (.vmul die tile dur dst x y, .vec .mul dst x y 0), (.vfma die tile dur dst x y, .vec .fma dst x y 0),
         (.vmax die tile dur dst x y, .vec .max dst x y 0), (.vmin die tile dur dst x y, .vec .min dst x y 0),
         (.vcmplt die tile dur dst x y, .vec .cmplt dst x y 0), (.vcmpeq die tile dur dst x y, .vec .cmpeq dst x y 0),
         (.vsel die tile dur dst x y, .vec .sel dst x y 0), (.vadds die tile dur dst x y, .vec .adds dst x y 0),
         (.vsubs die tile dur dst x y, .vec .subs dst x y 0), (.vmuls die tile dur dst x y, .vec .muls dst x y 0),
         (.vabs die tile dur dst x, .vec .abs dst x 0 0), (.vneg die tile dur dst x, .vec .neg dst x 0 0),
         (.vexp die tile dur dst x, .vec .exp dst x 0 0), (.vlog die tile dur dst x, .vec .log dst x 0 0),
         (.vrcp die tile dur dst x, .vec .rcp dst x 0 0), (.vrsqrt die tile dur dst x, .vec .rsqrt dst x 0 0),
         (.vmaxr die tile dur dst x, .vec .maxr dst x 0 0), (.vsumr die tile dur dst x, .vec .sumr dst x 0 0),
         (.cvt die tile dur fa fb x dst sat, .cvt fa fb x dst sat), (.mxq die tile dur fb x dst, .mxq fb x dst)] :
         List (Instr × TileOp)),
       s.Fits die.val tile.val (.tile p.2) (dur.toNat + 1) →
       Does p.1 s fun t => Occupies s t die.val tile.val (.tile p.2) (dur.toNat + 1)) ∧
     (k ≠ 256 → s.Fits die.val tile.val (.tile (.vec .scale2 dst x 0 k)) (dur.toNat + 1) →
       Does (.vscale2 die tile dur dst x k) s fun t =>
         Occupies s t die.val tile.val (.tile (.vec .scale2 dst x 0 k)) (dur.toNat + 1)) ∧
     (s.Fits die.val tile.val (.tile (.mma fa x acc accum swap ld fb y)) (dur.toNat + 1) →
       Does (.mma die tile dur fa x acc accum swap ld fb y) s fun t =>
         Occupies s t die.val tile.val (.tile (.mma fa x acc accum swap ld fb y)) (dur.toNat + 1) ∧
         ∀ p, (s.laid die.val).physTile die.val tile.val = some p →
           (t.tileSt die.val p).active =
             (if swap then 1 - ((s.laid die.val).tileSt die.val p).active else ((s.laid die.val).tileSt die.val p).active))) ∧
  (∀ (s : State) (die : Fin 4) (mover : Fin 8) (dur : BitVec 12) (ra rl rm : BitVec 5) (tally count : BitVec 12) (la : BitVec 22)
     (b : Bool) (op14 : BitVec 14),
     (∀ p ∈ ([(.mget die mover dur ra rl tally la, .get, ra), (.mput die mover dur ra rl tally la, .put, ra),
         (.mxl die mover dur ra rl tally la, .xl, ra), (.mring die mover dur ra rl tally la, .ring, ra),
         (.scatter die mover dur 0 rl tally la, .scatter, 0), (.mzero die mover dur 0 rl tally la, .zero, 0)] :
         List (Instr × MoverKind × BitVec 5)),
       s.Fits die.val (32 + mover.val) (.mover p.2.1 p.2.2 rl tally la) (dur.toNat + 1) →
       Does p.1 s fun t =>
         Occupies s t die.val (32 + mover.val) (.mover p.2.1 p.2.2 rl tally la) (dur.toNat + 1) ∧
         ∃ tag, (t.die die.val).xfers = ((s.laid die.val).die die.val).xfers ++
           [{ mover := mover.val, kind := p.2.1, ra := ((s.laid die.val).die die.val).val p.2.2,
              rl := (((s.laid die.val).die die.val).val rl).toNat, tally := tally.toNat, la := la.toNat, tag := tag }]) ∧
     (s.Fits die.val (32 + mover.val) (.mover .nop 0 0 0 0) (dur.toNat + 1) →
       Does (.mnop die mover dur) s fun t => Occupies s t die.val (32 + mover.val) (.mover .nop 0 0 0 0) (dur.toNat + 1) ∧
         (t.die die.val).xfers = ((s.laid die.val).die die.val).xfers) ∧
     (∀ p ∈ ([(.pnop die dur, .nop), (.pread die dur rm b op14 la, .read rm b op14 la),
         (.pwrite die dur rm op14 la, .write rm op14 la)] : List (Instr × PortOp)),
       s.Fits die.val slotP (.port p.2) (dur.toNat + 1) →
       Does p.1 s fun t => Occupies s t die.val slotP (.port p.2) (dur.toNat + 1)) ∧
     (s.Fits die.val slotP (.port (.attend rm count la)) (dur.toNat + 1) →
       Does (.attend die dur rm count la) s fun t =>
         Occupies s t die.val slotP (.port (.attend rm count la)) (dur.toNat + 1) ∧
         (t.die die.val).held = ((s.laid die.val).die die.val).held ++ maskTiles (((s.laid die.val).die die.val).val rm)))

/-- R290: results of scalar operations, s0 taking nothing; the other scalar registers stay. Where it rests on the model's own
choices: log entry 16. -/
def Obligations.ScalarResults : Prop :=
  ∀ (s : State) (die : Fin 4) (slot : Fin 4) (dur : BitVec 12) (rd ra rb : BitVec 5) (i29 : BitVec 29) (i39 : BitVec 39)
    (i32 : BitVec 32),
    let d := (s.laid die.val).die die.val
    let a := d.val ra
    let b := d.val rb
    ∀ p ∈ ([(.scalarAdd die slot dur rd ra rb, .alu .add rd ra rb, a + b),
        (.scalarSub die slot dur rd ra rb, .alu .sub rd ra rb, a - b),
        (.scalarAnd die slot dur rd ra rb, .alu .and rd ra rb, a &&& b),
        (.scalarOr die slot dur rd ra rb, .alu .or rd ra rb, a ||| b),
        (.scalarXor die slot dur rd ra rb, .alu .xor rd ra rb, a ^^^ b),
        (.scalarShl die slot dur rd ra rb, .alu .shl rd ra rb, BitVec.ofNat 64 (a.toNat * 2 ^ (b.toNat % 64))),
        (.scalarShr die slot dur rd ra rb, .alu .shr rd ra rb, BitVec.ofNat 64 (a.toNat / 2 ^ (b.toNat % 64))),
        (.scalarSra die slot dur rd ra rb, .alu .sra rd ra rb, BitVec.ofInt 64 (a.toInt / 2 ^ (b.toNat % 64))),
        (.scalarSlt die slot dur rd ra rb, .alu .slt rd ra rb, if a.toInt < b.toInt then 1 else 0),
        (.scalarSltu die slot dur rd ra rb, .alu .sltu rd ra rb, if a.toNat < b.toNat then 1 else 0),
        (.scalarMul die slot dur rd ra rb, .alu .mul rd ra rb, BitVec.ofNat 64 (a.toNat * b.toNat)),
        (.scalarAddi die slot dur rd ra i29, .addi rd ra i29, a + i29.signExtend 64),
        (.scalarLi die slot dur rd i39, .li rd i39, i39.signExtend 64),
        (.scalarLih die slot dur rd i32, .lih rd i32, BitVec.ofNat 64 (2 ^ 32 * i32.toNat + (d.val rd).toNat % 2 ^ 32))] :
        List (Instr × ScalarOp × Word)),
      s.Fits die.val (40 + slot.val) (.scalar p.2.1) (dur.toNat + 1) →
      Does p.1 s fun t => Occupies s t die.val (40 + slot.val) (.scalar p.2.1) (dur.toNat + 1) ∧
        ∀ r, SMap.get 0 (t.die die.val).regs r = if rd ≠ 0 ∧ r = rd.toNat then p.2.2 else SMap.get 0 d.regs r

/-- SNOP, LDS and STS (R290, R291) and the stall points and notices of tally slots (R292 to R295, R327). Where it rests on the
model's own choices: log entries 16, 76. -/
def Obligations.LoadStoreAndTallyActions : Prop :=
  ∀ (s : State) (die : Fin 4) (slot : Fin 4) (y : Fin 2) (dur tally : BitVec 12) (rd ra rs : BitVec 5) (w : BitVec 4)
    (la : BitVec 22) (n16 : BitVec 16) (queue : BitVec 9) (prio : BitVec 3),
    let u := s.laid die.val
    let d := u.die die.val
    (∀ p ∈ ([(.snop die slot dur, .nop), (.lds die slot dur rd ra w la, .lds rd ra w la),
        (.sts die slot dur rs ra w la, .sts rs ra w la)] : List (Instr × ScalarOp)),
      s.Fits die.val (40 + slot.val) (.scalar p.2) (dur.toNat + 1) →
      Does p.1 s fun t => Occupies s t die.val (40 + slot.val) (.scalar p.2) (dur.toNat + 1)) ∧
    (s.Fits die.val (44 + y.val) (.tally .nop) (dur.toNat + 1) → Does (.ynop die y dur) s fun t =>
      Occupies s t die.val (44 + y.val) (.tally .nop) (dur.toNat + 1) ∧ t.tly = u.tly) ∧
    (s.Fits die.val (44 + y.val) (.tally (.add tally n16)) (dur.toNat + 1) → Does (.yadd die y dur tally n16) s fun t =>
      Occupies s t die.val (44 + y.val) (.tally (.add tally n16)) (dur.toNat + 1) ∧
      t.tly.sent = u.tly.sent ++ [⟨die.val, tally.toNat, false, BitVec.ofNat 32 (n16.toNat + 1)⟩]) ∧
    (s.Fits die.val (44 + y.val) (.tally (.set tally rs)) (dur.toNat + 1) → Does (.yset die y dur tally rs) s fun t =>
      Occupies s t die.val (44 + y.val) (.tally (.set tally rs)) (dur.toNat + 1) ∧
      t.tly.sent = u.tly.sent ++ [⟨die.val, tally.toNat, true, (d.val rs).setWidth 32⟩]) ∧
    (s.Fits die.val (44 + y.val) (.tally (.wait tally rs n16)) (dur.toNat + 1) → Does (.ywait die y dur tally rs n16) s fun t =>
      Occupies s t die.val (44 + y.val) (.tally (.wait tally rs n16)) (dur.toNat + 1) ∧ (t.die die.val).state = .stalled ∧
      (t.die die.val).stalls = d.stalls ++ [.wait tally.toNat ((d.val rs).setWidth 32 + BitVec.ofNat 32 n16.toNat)]) ∧
    (s.Fits die.val (44 + y.val) (.tally (.read tally rd)) (dur.toNat + 1) → Does (.yread die y dur tally rd) s fun t =>
      Occupies s t die.val (44 + y.val) (.tally (.read tally rd)) (dur.toNat + 1) ∧ (t.die die.val).state = .stalled ∧
      (t.die die.val).stalls = d.stalls ++ [.read tally.toNat rd.toNat]) ∧
    (let it := u.pushItem die.val la.toNat
     s.Fits die.val (44 + y.val) (.tally (.qpush queue prio la)) (dur.toNat + 1) → u.refusalOf queue.toNat it = 0 →
      u.duplicate (seqKey (dieSender die.val) (u.qReader queue.toNat) (tagClass it.w1)) it.w1 = false →
      (u.queue queue.toNat).items.length < u.qDepth queue.toNat →
      Does (.qpush die y dur queue prio la) s fun t =>
        (t.queue queue.toNat).items = (u.queue queue.toNat).items ++ [⟨prio.toNat, it, false⟩] ∧
        (∀ q, q ≠ queue.toNat → t.queue q = u.queue q) ∧ t.mem = u.mem)

/-- The action in a slot is the next thing due on its die. -/
def Sys2Proof.Machine.Die.DueNext (d : Die) (c : Nat) : Prop :=
  (∀ x ∈ d.slots, c ≤ x.2.expiry) ∧ ∀ x ∈ d.drains, c ≤ x.done

/-- Branch slots (R296 to R299, R304): where the next bundle is, what LOOP leaves in its register, and what END and a preemption
point start. SLOT_EXPIRE (R273, R288, R291, R234): the slot is freed; an LDS's register holds the larder word, an STS's word
stands in the larder and no other byte changes, an MMA's sums are on their way, and opcodes without a result change no byte.
Where it rests on the model's own choices: log entry 30. -/
def Obligations.BranchesAndExpiry : Prop :=
  (∀ (s : State) (die : Fin 4) (dur : BitVec 12) (rs rm : BitVec 5) (target : BitVec 28) (st : BitVec 16) (all : Bool),
     let u := s.laid die.val
     let d := u.die die.val
     (s.Fits die.val slotB (.branch .nop) (dur.toNat + 1) →
       Does (.bnop die dur) s fun t => Occupies s t die.val slotB (.branch .nop) (dur.toNat + 1) ∧
         (t.die die.val).offset = d.offset) ∧
     (s.targetOk (s.die die.val) target.toNat = true →
       (s.Fits die.val slotB (.branch (.jmp target)) (dur.toNat + 1) → Does (.jmp die dur target) s fun t =>
         Occupies s t die.val slotB (.branch (.jmp target)) (dur.toNat + 1) ∧ (t.die die.val).offset = target.toNat) ∧
       (s.Fits die.val slotB (.branch (.bz rs target)) (dur.toNat + 1) → Does (.bz die dur rs target) s fun t =>
         Occupies s t die.val slotB (.branch (.bz rs target)) (dur.toNat + 1) ∧
         (t.die die.val).offset = if d.val rs = 0 then target.toNat else d.offset) ∧
       (s.Fits die.val slotB (.branch (.bnz rs target)) (dur.toNat + 1) → Does (.bnz die dur rs target) s fun t =>
         Occupies s t die.val slotB (.branch (.bnz rs target)) (dur.toNat + 1) ∧
         (t.die die.val).offset = if d.val rs = 0 then d.offset else target.toNat) ∧
       (s.Fits die.val slotB (.branch (.loop rs target)) (dur.toNat + 1) → Does (.loop die dur rs target) s fun t =>
         Occupies s t die.val slotB (.branch (.loop rs target)) (dur.toNat + 1) ∧
         (t.die die.val).offset = (if d.val rs = 1 then d.offset else target.toNat) ∧
         ∀ r, SMap.get 0 (t.die die.val).regs r = if rs ≠ 0 ∧ r = rs.toNat then d.val rs - 1 else SMap.get 0 d.regs r)) ∧
     (s.Fits die.val slotB (.branch (.endSeg st)) (dur.toNat + 1) → Does (.endSegment die dur st) s fun t =>
       Occupies s t die.val slotB (.branch (.endSeg st)) (dur.toNat + 1) ∧ (t.die die.val).state = .ending ∧
         (t.die die.val).endStatus = st.toNat) ∧
     (s.Fits die.val slotB (.branch (.ppt st)) (dur.toNat + 1) → Does (.ppt die dur st) s fun t =>
       Occupies s t die.val slotB (.branch (.ppt st)) (dur.toNat + 1) ∧ (t.die die.val).state =
         if u.field (Reg.seqPreempt die.val) 0 0 = 1 ∧ d.save = none then .saving else d.state) ∧
     (s.live = true → (s.die die.val).state = .running →
       let mask := (SMap.get 0 (s.die die.val).regs rm.toNat).toNat
       let v := s.runRdv die.val ((s.die die.val).rdvTime all mask) all mask
       v.Fits die.val slotB (.branch (.rdv all rm)) (dur.toNat + 1) → Does (.rdv die dur all rm) s fun t =>
         Occupies v t die.val slotB (.branch (.rdv all rm)) (dur.toNat + 1))) ∧
  (∀ (s : State) (die : Fin 4) (slot : Fin 48) (a : SlotAct), s.live = true →
     SMap.lookup (s.die die.val).slots slot.val = some a → (s.die die.val).DueNext a.expiry →
     (∀ x ∈ (s.die die.val).slots, s.crosses die.val a x.2 = false) →
     (∀ rd ra w la, (s.die die.val).writesLarder = false → a.op = .scalar (.lds rd ra w la) → Does (.slotExpire die slot .clean) s fun t =>
       SMap.lookup (t.die die.val).slots slot.val = none ∧ t.mem = s.mem ∧
       ∀ r, SMap.get 0 (t.die die.val).regs r = if rd ≠ 0 ∧ r = rd.toNat then s.readWord (larderAddr die.val a.vb.toNat)
         else SMap.get 0 (s.die die.val).regs r) ∧
     (∀ rs ra w la, a.op = .scalar (.sts rs ra w la) → Does (.slotExpire die slot .clean) s fun t =>
       SMap.lookup (t.die die.val).slots slot.val = none ∧ t.readWord (larderAddr die.val a.vb.toNat) = a.va ∧
       ∀ b, (b < larderAddr die.val a.vb.toNat ∨ larderAddr die.val a.vb.toNat + 8 ≤ b) → t.byte b = s.byte b) ∧
     (∀ fa sa acc accum sw fb sb, a.op = .tile (.mma fa sa acc accum sw false fb sb) →
       Does (.slotExpire die slot .clean) s fun t =>
         SMap.lookup (t.die die.val).slots slot.val = none ∧ t.mem = s.mem ∧
         t.reg (Reg.tileCnt 0) = s.reg (Reg.tileCnt 0) + BitVec.ofNat 64 (a.expiry - a.start) ∧
         ∃ x, (t.die die.val).drains = (s.die die.val).drains ++ [x] ∧ x.phys = a.phys ∧ x.set = acc.toNat ∧ x.accum = accum ∧
           x.done = a.expiry + 136 ∧ x.rows = (a.expiry - a.start) / rowRate fa) ∧
     ((∃ k, a.op = .branch k) ∨ (∃ k, a.op = .tally k) ∨ (∃ k x y u v, a.op = .mover k x y u v) ∨ a.op = .tile .nop ∨
         a.op = .port .nop → Does (.slotExpire die slot .clean) s fun t =>
       SMap.lookup (t.die die.val).slots slot.val = none ∧ t.mem = s.mem ∧ t.regs = s.regs))

/-- Vector results (R248, R249, R279): when the slot of an elementwise operation expires, each element of each destination row
is the operation's result on the same row of each source, provided no destination row lies on another row of a source; no
byte outside the destination rows changes. Transcendental results are a free value within the bounds of R249. INT8
accumulation (R234, R247): the oldest drain of a tile adds its exact sums to the set's elements, saturating, in place of
them when ACC = 0; the elements are 32-bit, the first at the set's start. Where it rests on the model's own choices: log
entries 22, 23, 25. -/
def Obligations.VectorAndDrainResults : Prop :=
  (∀ (s : State) (die : Fin 4) (tile : Fin 32) (a : SlotAct) (op : VecOp) (dst x y : BitVec 14) (k : BitVec 9), s.live = true →
     SMap.lookup (s.die die.val).slots tile.val = some a → (s.die die.val).DueNext a.expiry →
     (∀ z ∈ (s.die die.val).slots, s.crosses die.val a z.2 = false) →
     a.op = .tile (.vec op dst x y k) → op.reduces = false → op.perRow = false →
     let n := (a.expiry - a.start - 12) / op.rowCycles
     let row := fun (o : BitVec 14) (i : Nat) => (vOperand o).rowAddr die.val a.phys 512 i
     (∀ i j, i < n → j < n → i ≠ j → (row dst i + 512 ≤ row x j ∨ row x j + 512 ≤ row dst i) ∧
       (op.twoSources = true → row dst i + 512 ≤ row y j ∨ row y j + 512 ≤ row dst i)) →
     Does (.slotExpire die ⟨tile.val, by omega⟩ .clean) s fun t =>
       (∀ i, i < n → t.readBytes (row dst i) 512 = row32Bytes ((List.range 128).map fun j =>
         vecElem op (sext 9 k.toNat) ((s.row32 (row x i)).getD j 0) ((s.row32 (row y i)).getD j 0) ((s.row32 (row dst i)).getD j 0)
           (vecFree op (s.free + 128 * i + j)))) ∧
       ∀ b, (∀ i, i < n → b < row dst i ∨ row dst i + 512 ≤ b) → t.byte b = s.byte b) ∧
  (∀ (s : State) (die : Fin 4) (tile : Fin 32) (x : Drain), s.live = true →
     ((s.die die.val).drains.find? fun y => y.tile = tile.val) = some x → (s.die die.val).DueNext x.done → x.int = true →
     let base := accAddr die.val x.phys (x.set * 65536)
     Does (.mmaDrainComplete die tile .clean) s fun t =>
       (∀ i, i < x.sums.length → t.read32 (base + 4 * i) =
         (intAccumulate (if x.accum then s.read32 (base + 4 * i) else 0) (x.sums.getD i {})).1) ∧
       (∀ b, (b < base ∨ base + 4 * x.sums.length ≤ b) → t.byte b = s.byte b) ∧
       (t.die die.val).drains = (s.die die.val).drains.erase x)

/-- The state in which a start item's header is checked (R262, R264, R266). -/
def Sys2Proof.Machine.State.taking (s : State) (n : Nat) (it : Item) : State :=
  let u := (s.begin_ (n + 1) it).boundary n
  let d := u.die n
  let u := (u.setDie n { d.stopped with
    state := .running, item := it, startNo := d.nextStart, nextStart := d.nextStart + 1, regs := startRegs it,
    segId := 0, entry := 0, codeBytes := 0, tileMask := 0, pptCount := 0, offset := 0, first := true,
    cycle := 0, bundleAt := 0, stallCycles := 0, startNs := u.now }).putReclaim n
  u.setField (Reg.seqStatus n) 63 32 d.nextStart.toNat

/-- Segments begin (R262, R264, R266, R302, R306): an idle die with a start item in its hand runs it from ENTRY with s1 to s4
from the item when its header passes, and discards it otherwise; a resume of the save the die holds runs on from where it
stopped. Bundles, stalls and transfers of a running segment (R272, R274, R284, R299, R307). Segments end (R298, R304, R181,
R401): after END and once nothing runs the die is idle; at a preemption point the segment's registers and tiles are saved
and REQ clears; a save left 2^30 starts behind is discarded. Where it rests on the model's own choices: log entry 30. -/
def Obligations.Segments : Prop :=
  (∀ (s : State) (die : Fin 4) (ecc : Ecc) (it : Item) (rest : List Item), s.live = true → (s.die die.val).state = .idle →
     SMap.get [] s.hq.hand (die.val + 1) = it :: rest →
     let n := die.val
     let u := s.taking n it
     (segResume it = false → u.headerCode n it.w2.toNat ecc = 0 →
       Does (.segmentStart die ecc false) s fun t =>
         (t.die n).state = .running ∧ (t.die n).item = it ∧ (t.die n).startNo = (s.die n).nextStart ∧
         (t.die n).nextStart = (s.die n).nextStart + 1 ∧ (t.die n).offset = bits (u.codeWord (it.w2.toNat + 8)) 31 0 / 8 ∧
         SMap.get 0 (t.die n).regs 1 = it.w3 ∧ SMap.get 0 (t.die n).regs 2 = it.w4 ∧ SMap.get 0 (t.die n).regs 3 = it.w5 ∧
         SMap.get 0 (t.die n).regs 4 = it.w6 ∧ (∀ r, (r = 0 ∨ 4 < r) → SMap.get 0 (t.die n).regs r = 0) ∧
         t.field (Reg.seqStatus n) 63 32 = (s.die n).nextStart.toNat ∧ t.tally (1024 * n + 1023) = (t.die n).oldest) ∧
     (segResume it = false → u.headerCode n it.w2.toNat ecc ≠ 0 → (∀ v, (s.die n).save = some v → v.startNo ≠ (s.die n).nextStart) →
       Does (.segmentStart die ecc false) s fun t =>
         (t.die n).state = .idle ∧ ∃ l, t.flt.discards = s.flt.discards ++ l ∧ l.length = 1 ∧
           ∀ x ∈ l, x.die = n ∧ x.item = it ∧ x.code = u.headerCode n it.w2.toNat ecc) ∧
     ∀ v, segResume it = true → (s.die n).save = some v →
       let b := (s.begin_ (n + 1) it).boundary n
       b.fetchCode it.w2.toNat 64 = 0 → v.item.w2 = it.w2 → bits (b.codeWord it.w2.toNat) 31 0 = v.segId →
       b.roleBad n (bits (b.codeWord (it.w2.toNat + 32)) 35 32) = false →
       b.saveLost n v.tileMask = false →
       Does (.segmentResume die .clean) s fun t =>
         (t.die n).state = .running ∧ (t.die n).item = it ∧ (t.die n).startNo = v.startNo ∧ (t.die n).regs = t.savedRegs n ∧
         (t.die n).offset = v.offset ∧ (t.die n).save = some v) ∧
  (∀ (s : State) (die : Fin 4) (mover : Fin 8), s.live = true →
     let n := die.val
     let d := s.die n
     let c := s.laidCycle d
     (d.state = .running → d.buffered = true → d.inCode d.offset = true → s.bundleRdv d = none →
       Does (.bundleIssue die) s fun t => t = (s.runTo n c).issueAt n c) ∧
     (d.state = .running → d.buffered = false → Does (.bundleIssue die) s fun t =>
       (t.die n).state = .stalled ∧ (t.die n).stalls = d.stalls ++ [.fetch] ∧ t.mem = s.mem ∧
         t.reg (Reg.seqCnt 4) = s.reg (Reg.seqCnt 4) + 1) ∧
     (d.state = .stalled → d.stalls = [.fetch] → Does (.fetchDelivery die .clean false) s fun t =>
       (t.die n).state = .running ∧ (t.die n).stalls = [] ∧ (t.die n).bufLo = d.offset ∧ t.mem = s.mem) ∧
     (∀ all mask, d.stalls = [.rdv all mask] → d.slots = [] → d.drains = [] → d.late = [] → Does (.rendezvousComplete die) s fun t =>
       ∃ u : State, (u.die n).stalls = [] ∧ (u.die n).state = .running ∧ u.mem = s.mem ∧ c ≤ (u.die n).cycle ∧
         t = u.issueAt n (u.die n).cycle) ∧
     (∀ x : Xfer, (d.xfers.find? fun x => x.mover = mover.val) = some x → x.kind = .zero →
       Does (.moverTransferComplete die mover .clean false 0 []) s fun t =>
         (∀ b, t.byte b = if larderAddr n (128 * x.la) ≤ b ∧ b < larderAddr n (128 * x.la) + x.rl then 0 else s.byte b) ∧
         (t.die n).xfers = d.xfers.erase x ∧ (isReclaim x.tally = false → t.tally x.tally = s.tally x.tally + 1)) ∧
     (∀ x : Xfer, (d.xfers.find? fun x => x.mover = mover.val) = some x → x.kind = .xl →
       (s.die (bits x.ra 23 22)).writesLarder = false →
       Does (.moverTransferComplete die mover .clean false 0 []) s fun t =>
         (∀ i, i < x.rl → t.byte (larderAddr n (128 * x.la) + i) =
           s.byte (larderAddr (bits x.ra 23 22) (128 * bits x.ra 21 0) + i)) ∧
         (∀ b, (b < larderAddr n (128 * x.la) ∨ larderAddr n (128 * x.la) + x.rl ≤ b) → t.byte b = s.byte b) ∧
         (t.die n).xfers = d.xfers.erase x)) ∧
  (∀ (s : State) (die : Fin 4), s.live = true →
     let n := die.val
     let d := s.die n
     (d.state = .ending → d.quiet = true → Does (.segmentRetire die) s fun t =>
       (t.die n).state = .idle ∧ (t.die n).slots = [] ∧ (t.die n).drains = [] ∧ (t.die n).nextStart = d.nextStart ∧
         (t.die n).save = d.save) ∧
     (d.state = .saving → d.quiet = true → d.slots = [] → d.drains = [] → Does (.preemptSave die .clean) s fun t =>
       (t.die n).state = .idle ∧ ∃ v, (t.die n).save = some v ∧ v.item = d.item ∧ v.startNo = d.startNo ∧ v.offset = d.offset ∧
         v.index = d.endStatus ∧ v.tileMask = d.tileMask ∧
         (d.late = [] → s.pushedJob n d.item = none → t.mem = (s.writeSave n v d.regs).mem)) ∧
     (∀ v, d.save = some v → 2 ^ 30 ≤ (d.nextStart - v.startNo).toNat → Does (.preemptDiscard die) s fun t =>
       (t.die n).save = none ∧ (t.die n).state = d.state ∧
         ∃ l, t.flt.discards = s.flt.discards ++ l ∧ l.length = 1 ∧ ∀ x ∈ l, x.item = v.item ∧ x.code = Code.preemptDiscard))

/-- Remaps and fences (R253 to R255): a binding asked for and not denied waits for the die's next segment boundary, and a fence
takes effect at once on its own tile alone. Operands out of order end the segment with their code before END, and the action
does not start (R270, R278, R282, R295, R297, R302): a nonzero RA of SCATTER or MZERO, VSCALE2 by -256, a branch to no
bundle, and every check of the units. Where it rests on the model's own choices: log entries 16, 29. -/
def Obligations.TileRemapAndRefusals : Prop :=
  (∀ (s : State) (die : Fin 4) (l : BitVec 5) (p : BitVec 6), s.live = true →
     (s.remapDenied die.val p.toNat = false →
       Does (.tileRemap die l p) s fun t => t = { s with cmp.remaps := s.cmp.remaps ++ [(die.val, l.toNat, p.toNat)] }) ∧
     (s.remapDenied die.val p.toNat = true → Ignored (.tileRemap die l p) s) ∧
     (p.toNat < 34 → Does (.tileFence die p) s fun t =>
       (∀ q, q < 64 → t.tileFenced die.val q = (s.tileFenced die.val q || q == p.toNat)) ∧
       (∀ k, k ≠ Reg.tileStatus die.val → t.reg k = s.reg k) ∧ t.mem = s.mem)) ∧
  (∀ (s : State) (die : Fin 4) (tile : Fin 32) (mover : Fin 8) (y : Fin 2) (dur tally : BitVec 12) (ra rl rs : BitVec 5)
     (la : BitVec 22) (x dst : BitVec 14) (n16 : BitVec 16) (target : BitVec 28), s.live = true →
     (s.die die.val).state = .running →
     let u := s.laid die.val
     let d := u.die die.val
     let Ends := fun (c : Instr) (code : Nat) => Does c s fun t => (t.die die.val).state = .idle ∧ (t.die die.val).slots = [] ∧
       ∃ e, t.flt.discards = u.flt.discards ++ [e] ∧ e.die = die.val ∧ e.item = d.item ∧ e.code = code
     (ra ≠ 0 → Ends (.scatter die mover dur ra rl tally la) Code.invalidField ∧
       Ends (.mzero die mover dur ra rl tally la) Code.invalidField) ∧
     Ends (.vscale2 die tile dur dst x 256) Code.invalidField ∧
     (s.targetOk (s.die die.val) target.toNat = false → Ends (.jmp die dur target) Code.branchRange ∧
       Ends (.bz die dur rs target) Code.branchRange ∧ Ends (.bnz die dur rs target) Code.branchRange ∧
       Ends (.loop die dur rs target) Code.branchRange) ∧
     (SMap.lookup d.slots (44 + y.val) = none → tally.toNat % 1024 = 1023 →
       Ends (.yadd die y dur tally n16) Code.invalidField ∧ Ends (.yset die y dur tally rs) Code.invalidField) ∧
     (SMap.lookup d.slots (32 + mover.val) = none →
       moverCode .get (d.val ra) (d.val rl) la.toNat ≠ 0 →
       Ends (.mget die mover dur ra rl tally la) (moverCode .get (d.val ra) (d.val rl) la.toNat)) ∧
     ((SMap.lookup d.slots tile.val).isSome → Ends (.tnop die tile dur) Code.overlap))

/-! ### Tallies and hardware queues (ch. 9, 10) -/

/-- No wait is listed or polled. -/
def Sys2Proof.Machine.State.NoWaits (s : State) : Prop := s.tly.waits = [] ∧ s.tly.polled = []

/-- R317, R319: what an operation leaves in its tally, modulo 2^32, what it returns to a control core, and that no other tally
and no byte changes; a reclamation tally refuses ADD and SET (R322). R318, R320, R321: a wait is answered at once when
(value − target) mod 2^32 is at most 2^31 − 1, and else is listed while its die's pool has room and polled when it has none;
the operation that satisfies a listed wait takes it off the list and wakes it; a wake ends the core's wait with the value; a
cancelled wait is gone. -/
def Obligations.TalliesAndWaits : Prop :=
  (∀ (s : State) (c : Fin 4) (tally : BitVec 12) (n : BitVec 32), s.live = true →
     let k := tally.toNat
     let done := fun (status : Nat) (v : BitVec 32) => fld 63 63 1 ||| fld 47 32 status ||| fld 31 0 v.toNat
     (k % 1024 ≠ 1023 → Does (.tallyAdd (.core c) tally n) s fun t =>
       t.tally k = s.tally k + n ∧ (∀ j, j ≠ k → t.tally j = s.tally j) ∧ t.mem = s.mem ∧
         t.reg (Reg.tlyResult c.val) = done 0 (s.tally k)) ∧
     (k % 1024 ≠ 1023 → Does (.tallySet (.core c) tally n) s fun t =>
       t.tally k = n ∧ (∀ j, j ≠ k → t.tally j = s.tally j) ∧ t.mem = s.mem ∧ t.reg (Reg.tlyResult c.val) = done 0 (s.tally k)) ∧
     (k % 1024 = 1023 → Does (.tallyAdd (.core c) tally n) s fun t =>
       (∀ j, t.tally j = s.tally j) ∧ t.reg (Reg.tlyResult c.val) = done Code.invalidField 0 ∧
         t.reg (Reg.tlyCnt 7) = s.reg (Reg.tlyCnt 7) + 1) ∧
     (Does (.tallyRead (.core c) tally) s fun t =>
       t.tly = s.tly ∧ t.mem = s.mem ∧ t.reg (Reg.tlyResult c.val) = done 0 (s.tally k)) ∧
     (Does (.clearPeak c) s fun t => t.field (Reg.tlyPool c.val) 28 16 = s.poolUsed c.val % 2 ^ 13 ∧ t.tly = s.tly)) ∧
  (∀ (s : State) (c : Fin 4) (tally : BitVec 12) (target n : BitVec 32), s.live = true →
     let k := tally.toNat
     let w := WaitEntry.mk k (.core c) target
     let done := fun (v : BitVec 32) => fld 63 63 1 ||| fld 47 32 0 ||| fld 31 0 v.toNat
     (s.NoWaits → (s.tally k - target).toNat ≤ 2 ^ 31 - 1 → Does (.tallyWait (.core c) tally target) s fun t =>
       t.NoWaits ∧ t.reg (Reg.tlyResult c.val) = done (s.tally k)) ∧
     (s.NoWaits → 2 ^ 31 ≤ (s.tally k - target).toNat → Does (.tallyWait (.core c) tally target) s fun t =>
       t.tly.waits = [w] ∧ t.tly.polled = [] ∧ t.reg (Reg.tlyResult c.val) = fld 62 62 1 ∧ t.tly.vals = s.tly.vals) ∧
     (2 ^ 31 ≤ (s.tally k - target).toNat → (∀ x ∈ s.tly.waits ++ s.tly.polled, x.issuer ≠ .core c) →
       4096 ≤ s.poolUsed (k / 1024) → Does (.tallyWait (.core c) tally target) s fun t =>
         t.tly.waits = s.tly.waits ∧ t.tly.polled = s.tly.polled ++ [w]) ∧
     (s.tly.waits = [w] → k % 1024 ≠ 1023 → (n - target).toNat ≤ 2 ^ 31 - 1 → Does (.tallySet .unit tally n) s fun t =>
       t.tally k = n ∧ t.tly.waits = [] ∧ t.tly.wakes = s.tly.wakes ++ [⟨k, .core c, n⟩]) ∧
     (s.tly.wakes = [⟨k, .core c, n⟩] → bit (s.reg (Reg.tlyResult c.val)) 62 = true → Does (.tallyWake (.core c) tally) s fun t =>
       t.tly.wakes = [] ∧ t.reg (Reg.tlyResult c.val) = done n) ∧
     (s.tly.waits = [w] → s.tly.polled = [] → Does (.tallyCancel (.core c) tally) s fun t =>
       t.NoWaits ∧ t.reg (Reg.tlyResult c.val) = done 0 ∧ t.tly.vals = s.tly.vals) ∧
     (s.tly.polled = [w] → (s.tally k - target).toNat ≤ 2 ^ 31 - 1 → Does (.waitPoll (.core c) tally) s fun t =>
       t.tly.polled = [] ∧ t.reg (Reg.tlyResult c.val) = done (s.tally k)))

/-- R325 to R328, R330 to R333: items enter while there is room and wait in order while there is none, the lowest level goes
first and within a level the oldest, a core's push and pop report a refusal, EMPTY and QUEUE_FULL in place, a flush empties a
queue, and a GO written while BUSY is 1 is ignored and counted. -/
def Obligations.QueueOrder : Prop :=
  ∀ (s : State) (q : BitVec 9) (p : BitVec 3) (sender ns : Nat) (it : Item) (c : Fin 4) (e : QEntry) (rest : List QEntry),
    s.live = true →
    let x := s.queue q.toNat
    (s.plat.parkedSince = none → tagBad it.w1 = false → s.epochCode (tagEpoch it.w1) = 0 →
      s.duplicate (seqKey sender (s.qReader q.toNat) (tagClass it.w1)) it.w1 = false →
      (x.items.length < s.qDepth q.toNat → Does (.queueItemArrival q p sender it false) s fun t =>
        (t.queue q.toNat).items = x.items ++ [⟨p.toNat, it, false⟩] ∧ (∀ r, r ≠ q.toNat → t.queue r = s.queue r) ∧ t.mem = s.mem) ∧
      (0 < s.qDepth q.toNat → s.qDepth q.toNat ≤ x.items.length → Does (.queueItemArrival q p sender it false) s fun t =>
        (t.queue q.toNat).items = x.items ∧ (t.queue q.toNat).waiting = x.waiting ++ [{ prio := p.toNat, item := it }] ∧
          t.reg (Reg.hqCnt 4) = s.reg (Reg.hqCnt 4) + 1)) ∧
    (takeLevel e.prio x.items = some (e, rest) → (∀ y ∈ x.items, e.prio ≤ y.prio) → e.bad = false → x.waiting = [] →
      (s.qReader q.toNat = 0 → s.isBusy (busyPop c.val) = false → Does (.hqPop c q ns) s fun t =>
        (t.queue q.toNat).items = rest ∧ t.reg (Reg.hqPop c.val) = (fld 11 9 e.prio ||| fld 8 0 q.toNat) ∧
        t.reg (Reg.hqLatch (8 * c.val)) = e.item.w0 ∧ t.reg (Reg.hqLatch (8 * c.val + 7)) = e.item.w7) ∧
      (s.readsQueue (s.qReader q.toNat) q.toNat = true → s.readerFailed (s.qReader q.toNat) = false → Does (.hwPop q) s fun t =>
        (t.queue q.toNat).items = rest ∧ SMap.get [] t.hq.hand (s.qReader q.toNat) =
          SMap.get [] s.hq.hand (s.qReader q.toNat) ++ [e.item])) ∧
    (s.qReader q.toNat = 0 → x.items = [] → x.waiting = [] → s.isBusy (busyPop c.val) = false → Does (.hqPop c q ns) s fun t =>
      t.field (Reg.hqPop c.val) 61 61 = 1 ∧ t.field (Reg.hqQstat q.toNat) 47 47 = 1 ∧
        ∀ i, t.reg (Reg.hqLatch (8 * c.val + i % 8)) = s.reg (Reg.hqLatch (8 * c.val + i % 8))) ∧
    (let b := s.pushBuffer c.val
     let put := fun (st : Nat) => fld 47 32 st ||| fld 11 9 p.toNat ||| fld 8 0 q.toNat
     s.isBusy (busyPush c.val) = false →
      (s.refusalOf q.toNat b ≠ 0 → Does (.hqPush c q p ns) s fun t =>
        t.queue q.toNat = x ∧ t.reg (Reg.hqPush c.val) = put (s.refusalOf q.toNat b)) ∧
      (s.refusalOf q.toNat b = 0 → s.duplicate (seqKey 0 (s.qReader q.toNat) (tagClass b.w1)) b.w1 = false →
        (s.noRoom q.toNat = false → Does (.hqPush c q p ns) s fun t =>
          (t.queue q.toNat).items = x.items ++ [⟨p.toNat, b, false⟩] ∧ t.reg (Reg.hqPush c.val) = put 0) ∧
        (s.noRoom q.toNat = true → Does (.hqPush c q p ns) s fun t =>
          t.queue q.toNat = x ∧ t.reg (Reg.hqPush c.val) = put Code.queueFull ∧
            t.reg (Reg.hqCnt 5) = s.reg (Reg.hqCnt 5) + 1))) ∧
    (s.isBusy busyFlush = false → x.waiting = [] → Does (.hqFlush q ns) s fun t =>
      (t.queue q.toNat).items = [] ∧ (∀ r, r ≠ q.toNat → t.queue r = s.queue r) ∧ t.tly = s.tly ∧
        t.reg (Reg.hqCnt 2) = s.reg (Reg.hqCnt 2) + BitVec.ofNat 64 x.items.length) ∧
    ∀ y ∈ ([(.hqPush c q p ns, busyPush c.val), (.hqPop c q ns, busyPop c.val), (.hqFlush q ns, busyFlush)] : List (Instr × Nat)),
      s.isBusy y.2 = true → Does y.1 s fun t => t = s.bump (Reg.hqCnt 7)

/-! ### State address space (ch. 3, 4) -/

/-- Claims (R67, R68, R70): a request for one page that passes the checks claims it: FERRY and FERRY_ID are set in its leaf,
whose home stays, a destination is taken, the shootdown of every cache starts, and no byte changes. A drop claims likewise.
R54, R70: the checks in their order: an address of the snapshot namespace, an unmapped page, a pinned one, a page already
there, one under another claim. Where it rests on the model's own choices: log entries 11, 93. -/
def Obligations.FerryClaims : Prop :=
  (∀ (s : State) (it : Item) (p : Nat) (dst : Tier) (loc : Nat), s.live = true → ferryOk it = true → ferryCount it = 1 →
     tagEpoch it.w1 = s.comp.map.epoch → p = it.w2.toNat / 65536 → s.claimCheck p (ferryWant it) = .claim dst loc →
     let P := fun (drop : Bool) (t : State) =>
       t.leaf p = { s.leaf p with ferry := true, ferryId := s.tsm.nextFerryId } ∧ (∀ q, q ≠ p → t.leaf q = s.leaf q) ∧
         t.tsm.shoots = s.tsm.shoots ++ [⟨p, [0, 1, 2, 3, 4, 5, 6, 7], .claimed s.tsm.nextFerryId⟩] ∧
         (∃ op, SMap.lookup t.tsm.ops p = some op ∧ op.stage = .claim ∧ op.ferryId = s.tsm.nextFerryId ∧ op.isDrop = drop ∧
           op.dst = dst ∧ op.dstLoc = loc) ∧
         (drop = false → SMap.lookup t.tsm.alloc (homeKey dst loc) = some ()) ∧ t.tsm.nextFerryId ≠ 0 ∧ t.mem = s.mem
     (ferryOp it = 0 → Does (.ferryMove it) s (P false)) ∧ (ferryOp it = 1 → Does (.ferryDrop it) s (P true))) ∧
  (∀ (s : State) (p : Nat) (w : Want),
     (w.snap = true → s.claimCheck p w = .ended (.failed Code.noncanon)) ∧ (p < 2 ^ 36 → w.snap = false →
     (s.walkLeaf p = none → s.claimCheck p w = .ended (.failed Code.unmapped)) ∧
     ((s.walkLeaf p).isSome → (s.leaf p).pin = true → s.claimCheck p w = .ended (.failed Code.pinViolation)) ∧
     ((s.walkLeaf p).isSome → (s.leaf p).pin = false → s.isHeaderPage p = false →
       (w.isDrop = true → (s.leaf p).kv = false → s.claimCheck p w = .ended (.failed Code.notDroppable)) ∧
       (w.isDrop = false → w.already (s.leaf p) = true → s.claimCheck p w = .ended .moved) ∧
       (w.isDrop = false → w.already (s.leaf p) = false → (s.leaf p).ferry = true ∨ (s.leaf p).wp = true →
         s.claimCheck p w = .ended (.failed Code.ferryBusy)) ∧
       (w.isDrop = false → w.already (s.leaf p) = false → (s.leaf p).ferry = false → (s.leaf p).wp = false →
         s.tierPermit (s.leaf p).tclass w.dest = false → s.claimCheck p w = .ended (.failed Code.tierDenied)))))

/-- Every request of the page moves in hand came as a request item. -/
def Sys2Proof.Machine.State.ItemRequest (s : State) (id : Nat) : Prop :=
  ∀ r ∈ s.tsm.reqs, r.id = id → ∃ q k a b, r.origin = .item q k a b

/-- R66, R68, R69: after the last acknowledgement the page is copied, then verified, then its home is switched in one update; a copy
that differs leaves the source home and returns the destination. -/
def Obligations.FerryStages : Prop :=
  ∀ (s : State) (p : Nat) (op : PageOp), s.live = true → SMap.lookup s.tsm.ops p = some op →
    let l := s.leaf p
    (∀ c : Fin 8, ∀ rest : List Shoot, s.tsm.shoots = ⟨p, [c.val], .claimed op.ferryId⟩ :: rest → op.stage = .claim →
      op.isDrop = false → l.tier ≠ .pool → op.dst ≠ .pool → (∀ x ∈ s.tsm.ops, x.1 ≠ p → x.2.stage ≠ .ready) →
      s.movesTo op.dst < seqWindow →
      Does (.shootdownAck c p) s fun t =>
        (∃ tag, SMap.lookup t.tsm.ops p = some { op with stage := .write, tag := tag }) ∧ t.tsm.shoots = rest ∧
        SMap.lookup t.tsm.tlb (tlbKey c.val p) = none ∧ t.reg (Reg.tsmCnt 7) = s.reg (Reg.tsmCnt 7) + 1 ∧ t.mem = s.mem) ∧
    (∀ c : Fin 8, ∀ d : Nat, ∀ k, ∀ rest : List Shoot, d ≠ c.val → s.tsm.shoots = ⟨p, [c.val, d], k⟩ :: rest →
      Does (.shootdownAck c p) s fun t =>
        t.tsm.shoots = ⟨p, [d], k⟩ :: rest ∧ t.tsm.ops = s.tsm.ops ∧ SMap.lookup t.tsm.tlb (tlbKey c.val p) = none) ∧
    (op.stage = .write → (∀ a ∈ s.fab.accs, a.use ≠ FabUse.ferry p) → s.settPending l.tier l.loc op.dst op.dstLoc = false →
      (∀ x ∈ s.tsm.ops, x.2.stage ≠ .ready) →
      Does (.ferryWriteDone p none) s fun t =>
        SMap.lookup t.tsm.ops p = some { op with stage := .verify } ∧ t.leaf p = l ∧
        ∀ b, t.byte b = if homeAddr op.dst op.dstLoc 0 ≤ b ∧ b < homeAddr op.dst op.dstLoc 0 + 65536
          then s.byte (b - homeAddr op.dst op.dstLoc 0 + homeAddr l.tier l.loc 0) else s.byte b) ∧
    (op.stage = .verify → op.verified .same = true → l.ferry = true → l.ferryId = op.ferryId → Does (.ferryVerifyDone p .same) s fun t =>
      t.leaf p = { l with tier := op.dst, loc := op.dstLoc, ferry := false, ferryId := 0 } ∧
        SMap.lookup t.tsm.ops p = none ∧ t.reg (Reg.tsmCnt 6) = s.reg (Reg.tsmCnt 6) + 1 ∧ t.mem = s.mem ∧
        t.tsm.shoots = s.tsm.shoots ++ [⟨p, [0, 1, 2, 3, 4, 5, 6, 7], .switched op.req l.tier l.loc⟩]) ∧
    (op.stage = .verify → op.isDrop = false → op.dst ≠ .dram → s.ItemRequest op.req → Does (.ferryVerifyDone p .different) s fun t =>
      t.leaf p = { l with ferry := false, ferryId := 0 } ∧ SMap.lookup t.tsm.ops p = none ∧
        SMap.lookup t.tsm.alloc (homeKey op.dst op.dstLoc) = none ∧ t.mem = s.mem)

/-- The period of a periodic event has passed. -/
def Sys2Proof.Machine.State.due (s : State) (event period : Nat) : Prop := SMap.get 0 s.ticks event + period ≤ s.now

/-- Eviction (R80 to R86): below LOW with nothing to evict and nothing on its way the pressure condition holds and MEM_PRESSURE
is set; at HIGH it ends; a candidate that eviction would move or drop is counted under its way out. Write intents, ages,
retirements and the sett window (R58, R64, R84, R87, R614). Where it rests on the model's own choices: log entries 13, 90,
91. -/
def Obligations.EvictionAndUpkeep : Prop :=
  (∀ s : State, s.live = true → (s.unitFailed 2 && s.unitFailed 3) = false →
     (s.freeDram < s.evictLow → s.freeDram < s.evictHigh → s.candidates = [] → s.freeDram + s.comingFree < s.evictLow → Does .evictionPass s fun t =>
       t.tsm.pressure = true ∧ (t.fn 0).attn.getLsbD 2 = true ∧ (t.fn 1).attn.getLsbD 2 = true ∧ t.mem = s.mem) ∧
     (s.evictHigh ≤ s.freeDram → Does .evictionPass s fun t =>
       t = { s with tsm.pressure := false, tsm.evicting := false }) ∧
     (s.evictLow ≤ s.freeDram → s.freeDram < s.evictHigh → s.tsm.evicting = false → Ignored .evictionPass s) ∧
     (∀ c, s.freeDram < s.evictLow ∨ s.tsm.evicting = true → s.candidates = [c] → s.freeDram + s.comingFree < s.evictHigh →
       (s.judge c = .sett → Does .evictionPass s fun t => t.reg (Reg.tsmCnt 2) = s.reg (Reg.tsmCnt 2) + 1) ∧
       (s.judge c = .pool → Does .evictionPass s fun t => t.reg (Reg.tsmCnt 1) = s.reg (Reg.tsmCnt 1) + 1) ∧
       (s.judge c = .drop → Does .evictionPass s fun t => t.reg (Reg.tsmCnt 0) = s.reg (Reg.tsmCnt 0) + 1) ∧
       (s.judge c = .blocked → Does .evictionPass s fun t => t.reg (Reg.tsmCnt 3) = s.reg (Reg.tsmCnt 3) + 1 ∧ t.tsm.leaf = s.tsm.leaf))) ∧
  (∀ (s : State) (cache : Fin 8) (p : Nat), s.live = true →
     ((s.leaf p).v = true → (s.leaf p).pin = false → (s.leaf p).ferry = false → (s.leaf p).wp = false →
       Does (.writeIntent cache p) s fun t => t = { s with tsm.tlb := SMap.put s.tsm.tlb (tlbKey cache.val p) (s.leaf p) }) ∧
     ((s.leaf p).v = true → (s.leaf p).pin = false → (s.leaf p).ferry = false → (s.leaf p).wp = true → p ∉ s.tsm.cow →
       Does (.writeIntent cache p) s fun t => t.tsm.cow = s.tsm.cow ++ [p] ∧ t.tsm.tlb = s.tsm.tlb ∧
         t.reg (Reg.tsmCnt 12) = s.reg (Reg.tsmCnt 12) + 1) ∧
     (∀ op, (s.leaf p).v = true → (s.leaf p).pin = false → (s.leaf p).ferry = true → (s.leaf p).wp = false →
       SMap.lookup s.tsm.ops p = some op → s.ItemRequest op.req → Does (.writeIntent cache p) s fun t =>
         t.leaf p = { s.leaf p with ferry := false, ferryId := 0 } ∧ SMap.lookup t.tsm.ops p = none) ∧
     (s.tsm.boot = false → s.due tickAge (msec (s.field Reg.tsmWatermark 47 32)) → Does .ageTick s fun t => ∀ q, t.leaf q = if (s.leaf q).v then { s.leaf q with age := min 255 ((s.leaf q).age + 1) } else s.leaf q) ∧
     (∀ pb pn rb rn wb wn, 0 < pn → 0 < rn → 0 < wn → s.due tickBw (msec 100) → Does (.bwEstUpdate pb pn rb rn wb wn) s fun t =>
       t.field Reg.tsmBwEst 47 32 = min 65535 (pb * 10 / pn) ∧ t.field Reg.tsmBwEst 31 16 = min 65535 (rb * 10 / rn) ∧
         t.field Reg.tsmBwEst 15 0 = min 65535 (wb * 10 / wn) ∧ ∀ k, k ≠ Reg.tsmBwEst → t.reg k = s.reg k) ∧
     (s.due tickBin (900 * 10 ^ 9) → Does .rationBinAdvance s fun t => t.tsm.bin = (s.tsm.bin + 1) % 96 ∧ SMap.get 0 t.tsm.bins t.tsm.bin = 0 ∧
       t.reg Reg.tsmSettUsed = BitVec.ofNat 64 ((s.reg Reg.tsmSettUsed).toNat - SMap.get 0 s.tsm.bins ((s.tsm.bin + 1) % 96))) ∧
     (∀ d, d ∈ s.tsm.retiring → s.pageAtDram d = none → Does (.retireRetry d) s fun t =>
       d ∉ t.tsm.retiring ∧ t.field Reg.dramStatus 35 23 = (s.field Reg.dramStatus 35 23 + 1) % 2 ^ 13 ∧ t.mem = s.mem))

/-! ### Hampers and custody (ch. 5) -/

/-- The fetched host command `id` with this opcode waits and may begin (R665, R666), and its completion is written (R658, R663). -/
def Sys2Proof.Machine.Waits (s : State) (id op : Nat) (c : HostCmd) : Prop :=
  s.live = true ∧ s.host.cmds.find? (fun x => x.id = id) = some c ∧ c.opcode = op ∧ c.began = false ∧ s.mayBegin c = true ∧
    c.silent = false ∧ c.discarded = false ∧ s.ideBlocked c.fn = false

/-- The command is no longer in progress and its completion record (R673) has been written with this code, DETAIL and DATA. -/
def Sys2Proof.Machine.Answers (s t : State) (c : HostCmd) (code : Nat) (detail data : Word) : Prop :=
  (∀ x ∈ t.host.cmds, x.id ≠ c.id) ∧
    ∃ l x, t.out = s.out ++ l ∧ Out.completion x ∈ l ∧ x.fn = c.fn ∧ x.qp = c.qp ∧ bits x.r0 60 48 = code ∧
      bits x.r0 39 32 = c.opcode % 256 ∧ bits x.r0 15 0 = c.cid % 65536 ∧ x.r1 = detail ∧ x.r2 = data

/-- Every slot but one keeps its directory entry. -/
def Sys2Proof.Machine.OtherDirs (s t : State) (slot : Nat) : Prop := ∀ n, n ≠ slot → t.dir n = s.dir n

/-- A transition of a home hamper ends its command at once on a node of one module; else the shards follow first (R99, R106). -/
def Sys2Proof.Machine.Follows (s t : State) (slot : Nat) (k : ChangeKind) (c : HostCmd) (data : Word) : Prop :=
  (s.peers = [] → Answers s t c 0 0 data) ∧
    (s.peers ≠ [] → SMap.lookup t.hmp.changes slot =
      some { kind := k, cmd := some c.id, sinceNs := s.now, waiting := s.peers, code := 0, data := data })

/-- No companion hamper of the draft model stands beside the slot's (R364), and the directory entry of its grammar, if it holds one,
lies beside the tables of the hampers. -/
def Sys2Proof.Machine.State.Alone (s : State) (slot : Nat) : Prop :=
  SMap.lookup s.fw.companions slot = none ∧ ∀ n p, (s.hdr slot).gram = some (n, p) → s.tabled (s.gramAt n / 65536) = false

/-- OPEN, CLOSE and PARK (R99, R106, R107, R119, R669): a new hamper is PARKED with its handle as the data of the completion; a
closed one's slot is FREE under the next generation; a parked one has no decode slot, and COMMIT_LEN as its speculative
length; the command ends once every shard of the node has followed. Refusals by handle (R102, R142, R353): a stale handle is
STALE_HANDLE and counted, a slot out of range or never in use is BAD_HANDLE, a hamper in change is HAMPER_BUSY, one in
another state HAMPER_STATE; no slot changes. Where it rests on the model's own choices: log entries 12, 38, 80, 94, 101. -/
def Obligations.HamperCommands : Prop :=
  (∀ (s : State) (id : Nat) (c : HostCmd),
     (∀ slot u, Waits s id 0x10 c → c.arg 1 = 0 → 256 ≤ bits (c.arg 0) 63 32 → bits (c.arg 0) 63 32 % 256 = 0 →
       s.freeSlot = some slot → s.draftOk = false →
       s.install slot (bits (c.arg 0) 31 28) (bits (c.arg 0) 63 32) (bits (c.arg 0) 23 20) (bits (c.arg 0) 19 0)
         (bits (c.arg 0) 27 24) .home .parked (s.newHandle slot) (s.newHandle slot) = some u →
       Does (.openHamper id none) s fun t =>
         (t.dir slot).state = .parked ∧ (t.dir slot).kind = .home ∧ (t.hdr slot).maxTokens = bits (c.arg 0) 63 32 ∧
         (t.hdr slot).spans = bits (c.arg 0) 63 32 / 256 ∧ (t.hdr slot).commitLen = 0 ∧
         (t.hdr slot).origin = (t.hdr slot).handle ∧ (t.hdr slot).handle = mkHandle s.self slot (t.dir slot).gen ∧
         (t.dir slot).gen ≠ 0 ∧ OtherDirs s t slot ∧ Follows s t slot .open_ c (t.hdr slot).handle) ∧
     (let slot := hSlot c.session
      Waits s id 0x11 c → s.changeCode c.session [.parked] = 0 → s.hasSharers slot = false → s.marked slot = false →
       (s.dir slot).tracked = false → s.Alone slot → s.deferFull = false →
       Does (.closeHamper id none) s fun t =>
         (t.dir slot).state = .free ∧ (t.dir slot).gen = nextGen (s.dir slot).gen ∧ OtherDirs s t slot ∧ Follows s t slot .free c 0) ∧
     (let slot := hSlot c.session
      Waits s id 0x12 c → s.changeCode c.session [.active] = 0 → (s.dir slot).tracked = false → s.betweenSteps = true →
       Does (.park id none) s fun t =>
         (t.dir slot).state = .parked ∧ (t.dir slot).decode = 0 ∧ (t.dir slot).gen = (s.dir slot).gen ∧ OtherDirs s t slot ∧
         (t.hdr slot).specLen = (s.hdr slot).commitLen ∧ (t.hdr slot).parkedNs = s.now ∧
         t.reg (Reg.hmpCnt 0) = s.reg (Reg.hmpCnt 0) + 1 ∧ t.mem = s.mem ∧ Follows s t slot .park c 0)) ∧
  (∀ (s : State) (id : Nat) (c : HostCmd),
     let h := c.session
     let slot := hSlot h
     let inside := hModule h = s.self ∧ s.field Reg.hmpDirRange 21 0 ≤ slot ∧ slot ≤ s.field Reg.hmpDirRange 53 32
     Waits s id 0x12 c →
       (hModule h ≠ s.self → Does (.park id none) s fun t => t.hmp.dir = s.hmp.dir ∧ Answers s t c Code.badHandle 0 0) ∧
       (inside → newer (hGen h) (s.dir slot).gen = true → Does (.park id none) s fun t => t.hmp.dir = s.hmp.dir ∧
         Answers s t c Code.staleHandle 0 0 ∧ t.reg (Reg.hmpCnt 7) = s.reg (Reg.hmpCnt 7) + 1) ∧
       (inside → hGen h = (s.dir slot).gen → (s.dir slot).state ≠ .free → s.busy slot = true →
         Does (.park id none) s fun t => t.hmp.dir = s.hmp.dir ∧ Answers s t c Code.hamperBusy 0 0) ∧
       (inside → hGen h = (s.dir slot).gen → (s.dir slot).state = .parked → s.busy slot = false →
         Does (.park id none) s fun t => t.hmp.dir = s.hmp.dir ∧ Answers s t c Code.hamperState 0 0))

/-- Reviving (R106, R120, R121): a PARKED hamper becomes REVIVING with a decode slot at its home and on its shards, or is held
while memory is short; with every module's completion it is ACTIVE and its LIKELIHOOD rises, or PARKED again after a
failure. A shard parks and goes to FREE with its home, and a command ends with the last shard's answer. Where it rests on
the model's own choices: log entries 49, 94. -/
def Obligations.Reviving : Prop :=
  ∀ (s : State) (id slot : Nat) (c : HostCmd) (r : Revive) (reports : List (Nat × Nat)),
    (Waits s id 0x13 c → slot = hSlot c.session → s.homeCode c.session = 0 → s.busy slot = false →
      (s.dir slot).state = .parked → (s.dir slot).kind = .home → (s.dir slot).tracked = false →
      (∀ d, s.tsm.pressure = false → s.freeDecode = some d → Does (.revive id none) s fun t =>
        (t.dir slot).state = .reviving ∧ (t.dir slot).decode = d ∧ t.busy slot = true ∧ OtherDirs s t slot) ∧
      (s.tsm.pressure = true → Does (.revive id none) s fun t =>
        SMap.lookup t.hmp.revives slot = some { held := true, cmd := some c.id } ∧ t.dir slot = s.dir slot)) ∧
    (s.live = true →
      (∀ h k, slot = hSlot h → s.handleCode h = 0 → (s.dir slot).kind = .shard → (s.dir slot).state = .parked →
        s.revivePages slot = [] → Does (.reviveItem h (.revive k)) s fun t =>
          (t.dir slot).state = .active ∧ (t.dir slot).decode = k % 8192 ∧ OtherDirs s t slot) ∧
      (∀ h, slot = hSlot h → s.handleCode h = 0 → (s.dir slot).kind = .shard → s.Alone slot →
        (Does (.reviveItem h .park) s fun t => (t.dir slot).state = .parked ∧ (t.dir slot).decode = 0 ∧ OtherDirs s t slot) ∧
        (Does (.reviveItem h .free) s fun t =>
          (t.dir slot).state = .free ∧ (t.dir slot).gen = nextGen (s.dir slot).gen ∧ OtherDirs s t slot)) ∧
      (∀ v : Change, SMap.lookup s.hmp.revives slot = none → SMap.lookup s.hmp.changes slot = some v → v.waiting ≠ [] →
        (∀ m ∈ v.waiting, (m, 0) ∈ reports) → (∀ x ∈ reports, x.2 = 0) → Does (.reviveComplete slot reports) s fun t =>
          t = (s.endChange slot).reply v.cmd v.code 0 v.data) ∧
      (∀ d, SMap.lookup s.hmp.revives slot = some r → r.held = true → s.evictHigh ≤ s.freeDram → s.freeDecode = some d →
        (s.dir slot).kind = .home → Does (.reviveHoldRelease slot) s fun t =>
          (t.dir slot).state = .reviving ∧ (t.dir slot).decode = d ∧ OtherDirs s t slot) ∧
      (SMap.lookup s.hmp.revives slot = some r → r.held = false → s.self ∉ r.waiting → r.failCode = 0 →
        (∀ m ∈ r.waiting, ∃ x ∈ reports, x.1 = m) → (∀ x ∈ reports, x.2 = 0) →
        Does (.reviveComplete slot reports) s fun t =>
          (t.dir slot).state = .active ∧ (t.dir slot).decode = (s.dir slot).decode ∧ SMap.lookup t.hmp.revives slot = none ∧
          (t.hdr slot).likelihood = likelihoodUp (s.hdr slot).likelihood ∧
          t.reg (Reg.hmpCnt 1) = s.reg (Reg.hmpCnt 1) + 1 ∧ OtherDirs s t slot) ∧
      (SMap.lookup s.hmp.revives slot = some r → r.held = false → s.self ∉ r.waiting → r.failCode ≠ 0 →
        (∀ m ∈ r.waiting, ∃ x ∈ reports, x.1 = m) → Does (.reviveComplete slot reports) s fun t =>
          (t.dir slot).state = .parked ∧ (t.dir slot).decode = 0 ∧ SMap.lookup t.hmp.revives slot = none ∧
          t.reg (Reg.hmpCnt 2) = s.reg (Reg.hmpCnt 2) + 1) ∧
      ((s.dir slot).state = .parked → (s.dir slot).kind = .home →
        s.due (decayTick slot) (s.field Reg.hmpRevive 39 8 * 10 ^ 9) → Does (.likelihoodDecay slot) s fun t =>
          t.hdr slot = { s.hdr slot with likelihood := (s.hdr slot).likelihood - (s.hdr slot).likelihood / 8 } ∧
          t.hmp.dir = s.hmp.dir ∧ t.mem = s.mem ∧ ¬ t.due (decayTick slot) 1))

/-- Custody (R124, R127 to R135): a give moves the record to IN_TRANSIT and the hamper to GIVING; the taker's swap makes it its
own under the next custody number; the acknowledgement frees the giver's copy; a give that times out with its record
unchanged is PARKED again under the next number; a copy whose record is newer is freed; probes are answered. Where it rests
on the model's own choices: log entries 49, 75, 95. -/
def Obligations.Custody : Prop :=
  ∀ (s : State) (id slot : Nat) (c : HostCmd),
    let h := s.hdr slot
    let k := recKey h.recAddr
    let At := fun (j : Nat) => j < 2 ^ 40 ∧ s.recCode (recAddrOf (j / 2 ^ 32) (j % 2 ^ 32)) = 0
    (Waits s id 0x14 c → slot = hSlot c.session → s.changeCode c.session [.parked] = 0 → s.marked slot = false →
      bit (c.arg 0) 63 = false → (s.dir slot).tracked = true → s.recCode h.recAddr = 0 → At k →
      sameWord (s.rec_ k) (s.mine slot) = true →
      Does (.give id none) s fun t =>
        (t.dir slot).state = .giving ∧ (t.rec_ k).state = .inTransit ∧ (t.rec_ k).custody = h.custody ∧
        (t.rec_ k).target = .module (bits (c.arg 0) 57 48) ∧ (∀ j, j < 2 ^ 40 → j ≠ k → t.rec_ j = s.rec_ j) ∧
        (∃ g, SMap.lookup t.hmp.gives slot = some g ∧ g.n = h.custody ∧ g.sinceNs = s.now) ∧ OtherDirs s t slot) ∧
    (s.live = true →
      (∀ (g : Give) (cur : Word), s.hmp.gives = [(slot, g)] → g.cmd = none → s.Alone slot →
        Does (.handoverAck h.origin (g.n + 1) cur) s fun t =>
          (t.dir slot).state = .free ∧ (t.dir slot).gen = nextGen (s.dir slot).gen ∧ SMap.lookup t.hmp.gives slot = none ∧
          t.reg (Reg.hmpCnt 3) = s.reg (Reg.hmpCnt 3) + 1 ∧ OtherDirs s t slot) ∧
      (∀ (x : Take), SMap.lookup s.hmp.takes slot = some x → x.waiting = [] → (s.dir slot).state = .taking →
        ((s.dir slot).kind = .home → At x.key → (s.rec_ x.key).custody = x.n → (s.rec_ x.key).state = .inTransit →
          (s.rec_ x.key).holder = x.giver → (s.rec_ x.key).target = .module s.self →
          Does (.handoverTake slot none []) s fun t =>
            (t.dir slot).state = .parked ∧ (t.dir slot).tracked = true ∧ (t.rec_ x.key).custody = x.n + 1 ∧
            (t.rec_ x.key).holder = .module s.self ∧ (t.rec_ x.key).state = .held ∧ (t.hdr slot).custody = x.n + 1 ∧
            SMap.lookup t.hmp.takes slot = none ∧ t.reg (Reg.hmpCnt 4) = s.reg (Reg.hmpCnt 4) + 1) ∧
        ((s.dir slot).kind ≠ .home → Does (.handoverTake slot none []) s fun t =>
          (t.dir slot).state = .parked ∧ SMap.lookup t.hmp.takes slot = none)) ∧
      (∀ g : Give, SMap.lookup s.hmp.gives slot = some g → g.cmd = none → g.sinceNs + s.custodyTimeout ≤ s.now →
        s.recCode h.recAddr = 0 → At g.key → (s.rec_ g.key).custody = g.n → (s.rec_ g.key).state = .inTransit →
        (s.rec_ g.key).holder = .module s.self → (s.rec_ g.key).target = g.taker →
        Does (.custodyTimeout slot none) s fun t =>
          (t.dir slot).state = .parked ∧ (t.rec_ g.key).custody = g.n + 1 ∧ (t.rec_ g.key).state = .held ∧
          (t.hdr slot).custody = g.n + 1 ∧ SMap.lookup t.hmp.gives slot = none) ∧
      ((s.dir slot).state = .active → (s.dir slot).kind = .home → (s.dir slot).tracked = true → s.recCode h.recAddr = 0 →
        s.due (checkTick slot) (msec (s.field Reg.hmpCustody 31 16)) →
        ((s.rec_ k).custody = h.custody → (s.rec_ k).holder = .module s.self → (s.rec_ k).state = .held →
          Does (.custodyCheck slot none) s fun t => t = s.startTick (checkTick slot)) ∧
        (newer h.custody (s.rec_ k).custody = true → s.busy slot = false → s.Alone slot → Does (.custodyCheck slot none) s fun t =>
          (t.dir slot).state = .free ∧ t.reg (Reg.hmpCnt 6) = s.reg (Reg.hmpCnt 6) + 1 ∧ OtherDirs s t slot)) ∧
      (∀ o m, s.slotOfOrigin o = some slot → Does (.custodyProbe o m none) s fun t =>
        t = s.send m 7 (.probeAnswer o true h.custody)) ∧
      (∀ p : Probe, s.hmp.probes = [p] →
        (Does (.probeTimeout p.origin (some true)) s fun t => t = { s with hmp.probes := [] }) ∧
        (Does (.probeTimeout p.origin (some false)) s fun t => t.hmp.probes = [] ∧ (t.fn 0).attn.getLsbD 4 = true ∧
          (t.fn 1).attn.getLsbD 4 = true)))

/-! ### Spans (ch. 6) -/

/-- A span request item for the one span n of a slot, of the epoch in force, that passes the checks of the whole request (R161), asks
for no page of the boot region, and whose edits reach no lost page (R160). -/
def Sys2Proof.Machine.OneSpan (s : State) (it : Item) (op slot n : Nat) : Prop :=
  s.live = true ∧ spanOp it = op ∧ s.spanCode it = 0 ∧ spanCount it = 1 ∧ slot = hSlot it.w0 ∧ n = spanFirst it ∧
    tagEpoch it.w1 = s.comp.map.epoch ∧ (∀ a ∈ s.kvs.asks, a.item ≠ it) ∧ s.tsm.boot = false ∧
    s.entryLost slot n = false ∧ s.sidesLost slot n = false

/-- Firmware's own request for a recompute of span n stands for this module's span queue (R161, R174, R184). -/
def Sys2Proof.Machine.Asked (s t : State) (slot n op : Nat) : Prop :=
  ∃ a ∈ t.kvs.asks, a.origin = .recompute slot n ∧ a.item.w0 = (s.hdr slot).handle ∧ spanOp a.item = op ∧
    spanFirst a.item = n ∧ spanCount a.item = 1

/-- The pages of a span are mapped with a home in the tier, unpinned and with KV set. -/
def Sys2Proof.Machine.MappedIn (s t : State) (slot n : Nat) (tier : Tier) : Prop :=
  ∀ p ∈ s.spanPages slot n, (t.leaf p).v = true ∧ (t.leaf p).kv = true ∧ (t.leaf p).tier = tier ∧ (t.leaf p).pin = false

/-- Edits of a span's RES (R158, R159, R162, R171): OPEN maps the span's pages zeroed and makes it RESIDENT with its ANCHOR,
RELEASE makes it EMPTY, DROP makes it DROPPED and defers its pages; each advances the header's SPAN_GEN and gives it to the
entry. PIN, UNPIN, SHARE and statistics pages (R162, R164). Where it rests on the model's own choices: log entries 42, 80,
97, 98. -/
def Obligations.SpanEdits : Prop :=
  (∀ (s : State) (it : Item) (slot n : Nat),
     let e := s.span slot n
     let edited := fun (t : State) => (t.hdr slot).spanGen = (s.hdr slot).spanGen + 1 ∧
       (t.span slot n).gen = (s.hdr slot).spanGen + 1 ∧ t.dir slot = s.dir slot
     (∀ tier, OneSpan s it 0 slot n → argTier it = some tier → tier = .dram ∨ tier = .larder → e.res = .empty →
       s.spanPending slot n = false →
       (mapRun tier (if tier = .larder then argSub it else 0) true (s.dir slot).tclass (s.spanPages slot n) s).isSome →
       Does (.spanOpen it) s fun t => (t.span slot n).res = .resident ∧ (t.span slot n).anchor = argAnchor it ∧
         (t.span slot n).base = e.base ∧ edited t ∧ MappedIn s t slot n tier) ∧
     (OneSpan s it 9 slot n → e.sharers = 0 → e.shared = false → e.res ≠ .empty → s.deferFull = false →
       Does (.spanRelease it) s fun t => (t.span slot n).res = .empty ∧ (t.span slot n).pinned = false ∧
         (t.span slot n).recomp = false ∧ edited t ∧ t.tsm.leaf = s.tsm.leaf ∧
         ∀ p ∈ s.spanPages slot n, (s.leaf p).v = true → ∃ d ∈ t.kvs.deferred, p ∈ d.pages ∧ d.stamps = s.stamps) ∧
     (OneSpan s it 3 slot n → s.dropAllowed slot n = true → s.kvs.deferred.length + 2 ≤ 65536 →
       Does (.spanDrop it) s fun t => (t.span slot n).res = .dropped ∧ edited t ∧ t.tsm.leaf = s.tsm.leaf ∧
         (∃ d ∈ t.kvs.deferred, d.pages = s.spanPages slot n ∧ d.stamps = s.stamps) ∧
         t.reg (Reg.kvsCnt 3) = s.reg (Reg.kvsCnt 3) + 1) ∧
     (OneSpan s it 3 slot n → s.dropAllowed slot n = false → Does (.spanDrop it) s fun t =>
       t.span slot n = e ∧ (t.hdr slot).spanGen = (s.hdr slot).spanGen ∧ t.tsm.leaf = s.tsm.leaf)) ∧
  (∀ (s : State) (it : Item) (slot n : Nat),
     let e := s.span slot n
     (OneSpan s it 6 slot n → e.res ≠ .empty → Does (.spanPin it) s fun t =>
       t.span slot n = { e with pinned := true } ∧ t.hmp = s.hmp ∧ t.mem = s.mem) ∧
     (OneSpan s it 7 slot n → Does (.spanUnpin it) s fun t =>
       t.span slot n = { e with pinned := false } ∧ t.hmp = s.hmp ∧ t.mem = s.mem) ∧
     (let own := hSlot it.w4
      let o := s.span own n
      OneSpan s it 8 slot n → s.handleCode it.w4 = 0 → e.res = .empty → n < (s.hdr own).spans →
       o.res = .resident ∨ o.res = .parked → o.shared = false → o.recomp = false → 256 * (n + 1) ≤ (s.hdr own).commitLen →
       (s.dir own).model = (s.dir slot).model → s.entryLost own n = false → ((s.dir slot).kind = .home → s.sameTokens slot own n = true) → o.sharers < 255 →
       Does (.spanShare it) s fun t => (t.span slot n).shared = true ∧ (t.span slot n).base = o.base ∧
         (t.span slot n).res = o.res ∧ (t.span own n).sharers = o.sharers + 1 ∧ (t.span own n).res = o.res ∧
         t.tsm.leaf = s.tsm.leaf ∧ t.reg (Reg.kvsCnt 7) = s.reg (Reg.kvsCnt 7) + 1) ∧
     (OneSpan s it 10 slot n → e.res = .resident ∨ e.res = .parked → it.w4.toNat % 65536 = 0 →
       it.w4.toNat / 65536 + s.blocks (s.dir slot).model < 2 ^ 36 →
       (∀ p ∈ pageRun (it.w4.toNat / 65536) (s.blocks (s.dir slot).model), (s.leaf p).v = false) →
       s.blocks (s.dir slot).model < 4096 →
       (statsLoop slot n (it.w4.toNat / 65536) (List.range (s.blocks (s.dir slot).model)) s).isSome →
       Does (.statsMap it) s fun t => t.span slot n = e ∧ ∀ b, b < s.blocks (s.dir slot).model →
         (t.side slot n b).stats = it.w4.toNat + 65536 * b ∧ (t.leaf (it.w4.toNat / 65536 + b)).v = true ∧
           (t.leaf (it.w4.toNat / 65536 + b)).kv = false) ∧
     (OneSpan s it 11 slot n → s.deferFull = false → s.blocks (s.dir slot).model < 4096 → Does (.statsFree it) s fun t =>
       t.span slot n = e ∧ t.tsm.leaf = s.tsm.leaf ∧ ∀ b, b < s.blocks (s.dir slot).model → (t.side slot n b).stats = 0))

/-- Recompute (R162, R174, R175, R84): RECOMP_BEGIN maps a DROPPED span's pages and sets RECOMP, RECOMP_END makes it RESIDENT
when every block has its 256 rows. Home firmware of a node of one module posts RECOMP_BEGIN to its span queue, waits for its
completion, and again after a refusal, prefills layer by layer, posts RECOMP_END after the last, and is done when that
completes; a discarded prefill starts again. Where it rests on the model's own choices: log entries 71, 80. -/
def Obligations.Recompute : Prop :=
  ∀ (s : State) (it : Item) (slot n ns : Nat),
    let e := s.span slot n
    let m := (s.dir slot).model
    let unmapped := (s.spanPages slot n).filter fun p => !(s.leaf p).v
    let fits := (mapRun .dram 0 true (s.dir slot).tclass unmapped s).isSome
    let full := ∀ b, b < s.blocks m → (s.side slot n b).rows = 256
    let cost := fun (t : State) => t.field (Reg.tsmRecompCost m) 31 0 =
      min (2 ^ 32 - 1) ((7 * s.field (Reg.tsmRecompCost m) 31 0 + ns) / 8)
    (OneSpan s it 4 slot n → e.res = .dropped → e.recomp = false → s.spanPending slot n = false → fits →
      Does (.recompBegin it) s fun t => (t.span slot n).recomp = true ∧ (t.span slot n).res = .dropped ∧
        (t.span slot n).gen = (s.hdr slot).spanGen + 1 ∧ ∀ p ∈ s.spanPages slot n, (t.leaf p).v = true) ∧
    (OneSpan s it 5 slot n → e.res = .dropped → e.recomp = true → full →
      Does (.recompEnd it [ns]) s fun t => (t.span slot n).recomp = false ∧ (t.span slot n).res = .resident ∧
        (t.span slot n).gen = (s.hdr slot).spanGen + 1 ∧ t.reg (Reg.kvsCnt 4) = s.reg (Reg.kvsCnt 4) + 1 ∧ cost t) ∧
    (s.live = true → s.peers = [] → n < 2 ^ 32 → s.qDepth (s.field Reg.kvsControl 8 0) ≠ 0 →
      ((∀ r ∈ s.kvs.recomputes, r.slot ≠ slot) → (slot, n) ∈ s.kvs.wanted → s.kvs.asks = [] → e.res = .dropped →
        s.firstDropped slot [] n n = n →
        Does (.recomputePrefill slot n [] [] none) s fun t => Asked s t slot n 4 ∧
          ∃ r ∈ t.kvs.recomputes, r.slot = slot ∧ r.span = n ∧ r.began = [s.self] ∧ r.waiting = [s.self] ∧ r.layer = 0 ∧
            r.tokens = s.spanTokens slot n) ∧
      (∀ r, s.kvs.recomputes = [r] → r.slot = slot → r.span = n → r.began = [s.self] →
        (r.waiting = [s.self] → r.again = [] → r.ending = false → r.own = some 0 →
          Does (.recomputePrefill slot n [] [] none) s fun t =>
            t = { s with kvs.recomputes := [{ r with waiting := [], own := none }] }) ∧
        (r.waiting = [] → r.again = [] → r.failed = none → s.layerDone r = true → r.layer + 1 < s.layers m →
          Does (.recomputePrefill slot n [] [] none) s fun t =>
            t = { s with kvs.recomputes := [{ r with layer := r.layer + 1 }] }) ∧
        (r.waiting = [] → r.again = [] → r.failed = none → s.layers m ≤ r.layer →
          Does (.recomputePrefill slot n [] [] none) s fun t => Asked s t slot n 5 ∧
            t.kvs.recomputes = [{ r with waiting := [s.self], ending := true, own := none }]) ∧
        (r.waiting = [s.self] → r.again = [] → r.ending = true → r.own = some 0 →
          Does (.recomputePrefill slot n [] [] none) s fun t => t.kvs.recomputes = [] ∧ (slot, n) ∉ t.kvs.wanted ∧
            (slot, n) ∉ t.kvs.needed) ∧
        (∀ code, r.waiting = [] → r.again = [] → r.failed = none → r.attempts < 3 →
          Does (.recomputePrefill slot n [] [] (some code)) s fun t => Asked s t slot n 4 ∧
            ∃ x, t.kvs.recomputes = [x] ∧ x.attempts = r.attempts + 1 ∧ x.layer = 0 ∧ x.waiting = [s.self]) ∧
        (r.waiting = [] → r.again = [s.self] → r.retryNs ≤ s.now → Does (.recompBeginRetry slot n) s fun t =>
          Asked s t slot n 4 ∧ t.kvs.recomputes = [{ r with waiting := [s.self], again := [] }])))

/-- PARK and FETCH of a span of one page (R162, R163): the page is claimed for a move to the tier asked for. R180, R171: a
deferred item whose stamps the reclamation tallies have passed gives its home back, or unmaps its pages and shoots them
down; before that it waits; a page whose drop was refused is tried again. -/
def Obligations.SpanFerries : Prop :=
  (∀ (s : State) (it : Item) (slot n p : Nat) (tier dst : Tier) (loc : Nat),
     let w : Want := { dest := tier, seg := bits it.w4 15 8, die := argSub it }
     let P := fun (t : State) => (t.leaf p).ferry = true ∧ (t.leaf p).tier = (s.leaf p).tier ∧ t.span slot n = s.span slot n ∧
       (∃ op, SMap.lookup t.tsm.ops p = some op ∧ op.dst = dst ∧ op.dstLoc = loc ∧ op.stage = .claim) ∧ t.mem = s.mem
     argTier it = some tier → s.ferryable slot n = true → s.spanPages slot n = [p] → s.claimCheck p w = .claim dst loc →
       (OneSpan s it 1 slot n → tier = .pool ∨ tier = .sett → Does (.spanPark it) s P) ∧
       (OneSpan s it 2 slot n → tier = .dram ∨ tier = .larder → Does (.spanFetch it) s P)) ∧
  (∀ (s : State) (d : DeferItem), s.live = true → s.kvs.deferred = [d] → s.kvs.held = [] → s.tsm.boot = false →
     (d.released = false → s.stampsPassed d.stamps = false → Ignored (.deferredRelease d.id) s) ∧
     (d.released = false → s.stampsPassed d.stamps = true →
       (∀ t loc, d.kind = .home t loc → t ≠ .dram → d.busy = [] → d.shooting = 0 → Does (.deferredRelease d.id) s fun u =>
         SMap.lookup u.tsm.alloc (homeKey t loc) = none ∧ u.kvs.deferred = [] ∧
           u.reg (Reg.kvsCnt 6) = s.reg (Reg.kvsCnt 6) + 1) ∧
       (∀ p, d.kind = .pages → d.pages = [p] → (s.leaf p).v = true → (s.leaf p).ferry = false → (s.leaf p).wp = false →
         Does (.deferredRelease d.id) s fun u => (u.leaf p).v = false ∧
           u.tsm.shoots = s.tsm.shoots ++ [⟨p, [0, 1, 2, 3, 4, 5, 6, 7], .released d.id (s.leaf p).tier (s.leaf p).loc⟩])) ∧
     (∀ p, d.busy = [p] → (s.leaf p).v = true → (s.leaf p).ferry = false → (s.leaf p).wp = false →
       Does (.dropRetry d.id p) s fun u => (u.leaf p).v = false ∧ (∃ x ∈ u.kvs.deferred, x.id = d.id ∧ x.busy = []) ∧
         u.tsm.shoots = s.tsm.shoots ++ [⟨p, [0, 1, 2, 3, 4, 5, 6, 7], .released d.id (s.leaf p).tier (s.leaf p).loc⟩]))

/-! ### Attention, ranking and reductions (ch. 7) -/

/-- Attention items (R190 to R199, R203, R289, R694): an item completes with its result record at RESULT, KVS.CNT8 counts it,
its tally rises, and its list goes on to the next item or, after the last, is gone and its tiles are free; an item that
fails its checks reads no span, an exact item whose spans are all present reads every one, and one with an absent span
fails. Row state that no spill area is needed for leaves all but the tiles' accumulators as they were; a spill area that
cannot be read ends the segment. Span ranking (R486): a request's ranking is returned by pages in its order, and goes when
it is released. Where it rests on the model's own choices: log entries 24, 85, 99, 100. -/
def Obligations.AttentionAndRanking : Prop :=
  (∀ (s : State) (die : Fin 4) (i : Nat) (l : AttnList), s.live = true → s.unitFailed 6 = false →
     let n := die.val
     let a := s.listItem n l 0
     let slot := hSlot a.session
     let spills := rowsSpill l.tiles (s.listRows n l) (s.headDim (s.dir slot).model)
     let lost := s.bodyLost (s.spillRange n).1 (s.spillRange n).2
     (s.die n).lists[i]? = some l →
     let P := fun (code read : Nat) (t : State) =>
       t.readWord (larderAddr n a.result) = (fld 63 48 code ||| fld 47 30 read ||| fld 29 12 0) ∧
       t.reg (Reg.kvsCnt 8) = s.reg (Reg.kvsCnt 8) + 1 ∧ t.reg (Reg.kvsCnt 9) = s.reg (Reg.kvsCnt 9) + BitVec.ofNat 64 read ∧
       (a.tally % 1024 ≠ 1023 → t.tally a.tally = s.tally a.tally + 1) ∧
       (1 < l.left → ∃ l' : AttnList, (t.die n).lists[i]? = some l' ∧ l'.at_ = l.at_ + 64 ∧ l'.left = l.left - 1 ∧ l'.tiles = l.tiles) ∧
       (l.left ≤ 1 → (t.die n).lists = (s.die n).lists.eraseIdx i)
     (spills = false ∨ lost = false →
       (s.attnCode a ≠ 0 → Does (.attentionItemResult die i) s fun t => P (s.attnCode a) 0 t ∧
         t.reg (Reg.kvsCnt 13) = s.reg (Reg.kvsCnt 13) + 1 ∧
         (spills = false → ∀ b, (b < larderAddr n a.result ∨ larderAddr n a.result + 64 ≤ b) →
           (∀ k ∈ l.tiles, ∀ p, s.physTile n k = some p → b < accAddr n p 0 ∨ accAddr n p 0 + accBytes ≤ b) → t.byte b = s.byte b)) ∧
       (s.attnCode a = 0 → a.cls = 1 → a.stats = false → a.back = false →
         (∀ spans u ks f v, s.chooseExact n slot a = (spans, [], u) →
           readBlocks n slot a.layer a.head a.fold spans l.folded [] u = (.ok ks, f, v) →
           Does (.attentionItemResult die i) s fun t => P 0 (srcSpans ks) t ∨ P Code.attnEmpty (srcSpans ks) t) ∧
         (∀ spans m ms u, s.chooseExact n slot a = (spans, m :: ms, u) →
           Does (.attentionItemResult die i) s fun t => P Code.attnAbsent 0 t))) ∧
     (spills = true → lost = true → (s.die n).first = false → Does (.attentionItemResult die i) s fun t =>
       (t.die n).state = .idle ∧ ∃ e, t.flt.discards = s.flt.discards ++ [e] ∧ e.die = n ∧ e.item = (s.die n).item ∧
         e.code = Code.poisoned)) ∧
  (∀ (s : State) (die : Fin 4) (id slot layer head first tail newest commit k : Nat) (sketch : List Word), s.live = true →
     s.unitFailed 6 = false →
     let order := s.rankOrder slot layer head first tail newest commit sketch
     let key := fun (x : Ranking) => x.die = die.val && x.id = id
     (s.seu.rankings.length < 64 → Does (.rankRequest die id slot layer head first tail newest commit sketch k) s fun t =>
       ∃ r, t.seu.rankings.find? key = some r ∧ r.order = order ∧ r.page = order.take (s.rankPage k) ∧ r.given = r.page.length ∧
         t.reg (Reg.seuCnt 5) = s.reg (Reg.seuCnt 5) + 1 ∧ t.mem = s.mem) ∧
     (64 ≤ s.seu.rankings.length → Does (.rankRequest die id slot layer head first tail newest commit sketch k) s fun t =>
       t.seu.rankings = s.seu.rankings ∧ t.seu.rankWait.length = s.seu.rankWait.length + 1) ∧
     (∀ r, s.seu.rankings.find? key = some r → Does (.rankContinuation die id k) s fun t =>
       ∃ x, t.seu.rankings.find? key = some x ∧ x.order = r.order ∧ x.page = (r.order.drop r.given).take (s.rankPage k) ∧
         x.given = r.given + x.page.length) ∧
     (s.seu.rankWait = [] → Does (.rankRelease die id) s fun t =>
       t = { s with seu.rankings := s.seu.rankings.filter fun x => !key x }))

/-- Ring reductions and ring prefill (R207 to R215): a reduction starts over the module's own partial vectors, half of the query
positions going each way; a chunk that comes before is held; a stage of the first half of a direction's stages adds the
chunk received to the own one in FP32, a stage of the second half replaces it, and the last of both directions counts; a
chunk overdue ends the die's segment; a visiting set goes on round the ring until every module has seen it. Where it rests
on the model's own choices: log entry 17. -/
def Obligations.RingReductions : Prop :=
  ∀ (s : State) (id : Nat) (die : Fin 4), s.live = true →
    let m := s.comp.map.modules
    let mine := fun (x : Reduction) => x.id = id
    (∀ positions width model rows proj dest, 2 ≤ m → model % m = 0 → 0 < positions → (∀ x ∈ s.cmp.reductions, x.id ≠ id) →
      let y := s.partials die.val positions width model rows proj
      let k := positions - positions / 2
      Does (.reduceStage id die (.start positions width model rows proj dest)) s fun t =>
        ∃ r, t.cmp.reductions.find? mine = some r ∧ r.die = die.val ∧ r.pos = s.comp.map.ringPos ∧ r.count = m ∧ r.started = true ∧
          r.dest = dest ∧ r.cw = { y := y.take k, sinceNs := s.now } ∧ r.ccw = { y := y.drop k, sinceNs := s.now }) ∧
    (∀ cw vals, s.cmp.reductions = [] → Does (.reduceStage id die (.chunk cw vals)) s fun t =>
      ∃ r, t.cmp.reductions = [r] ∧ r.id = id ∧ r.started = false ∧ r.inbox = [(cw, vals)]) ∧
    (∀ (r : Reduction) (cw : Bool) (vals : List (BitVec 32)), s.cmp.reductions = [r] → r.id = id → r.started = true →
      (r.half cw).done r.count = false →
      let h := r.half cw
      let c := recvChunk (ringPos r.pos r.count cw) r.count h.stage
      Does (.reduceStage id die (.chunk cw vals)) s fun t =>
        ∃ x, t.cmp.reductions = [x] ∧ (x.half cw).stage = h.stage + 1 ∧ (x.half cw).sinceNs = s.now ∧
          x.half (!cw) = r.half (!cw) ∧
          (∀ (k : Nat) (y : List (BitVec 32)), h.y[k]? = some y →
            let own := chunkOf y r.count c
            (x.half cw).y[k]? = some (setChunk y r.count c ((List.range own.length).map fun i =>
              if h.stage + 1 < r.count then f32Add (own.getD i 0) (vals.getD (k * own.length + i) 0)
              else vals.getD (k * own.length + i) 0))) ∧
          t.reg (Reg.kvsCnt 14) = s.reg (Reg.kvsCnt 14) + (if x.done then 1 else 0)) ∧
    (∀ r : Reduction, s.cmp.reductions = [r] → r.id = id → r.started = true →
      (r.cw.late r.count (usec (s.field Reg.kvsAttn 47 32)) s.now || r.ccw.late r.count (usec (s.field Reg.kvsAttn 47 32)) s.now) →
      Does (.reduceTimeout id) s fun t =>
        t.cmp.reductions = [] ∧ (t.die r.die).state = .idle ∧
          ((s.die r.die).state ≠ .idle → (s.die r.die).first = false →
            ∃ e ∈ t.flt.discards, e.die = r.die ∧ e.code = Code.reduceTimeout)) ∧
    (∀ slot layer round first tally set offs la r e got u, s.fw.cur = some r →
      r.batch.find? (fun x => x.kind = .ring && hSlot x.session = slot) = some e → s.partLocal (s.dir slot).model = false →
      layer < s.layers (s.dir slot).model → round < m →
      ((s.cmp.rings.find? fun x => x.slot = slot && x.layer = layer).map (·.round)).getD 0 = round →
      s.ringSet die.val slot layer round first e set offs = (.ok got, u) →
      Does (.ringPrefillRound die slot layer round first tally set offs la) s fun t =>
        (⟨slot, layer, round + 1, got⟩ : RingRound) ∈ t.cmp.rings ∧
        (round + 1 < m → Out.toModule s.nextModule 3
          (.words 18 (e.session :: BitVec.ofNat 64 (layer * 256 + round + 1) :: got)) ∈ t.out))

/-! ### Requests, rations and adapters (ch. 9) -/

/-- A host command in progress whose completion is written (R658, R663). -/
def Sys2Proof.Machine.Open (s : State) (c : HostCmd) : Prop :=
  s.live = true ∧ s.host.cmds.find? (fun x => x.id = c.id) = some c ∧ c.silent = false ∧ c.discarded = false ∧ s.ideBlocked c.fn = false

/-- Request items (R347 to R352): an item the list of R348 accepts is recorded under its handle and counted, in PREFILL or
DECODE when its session is ACTIVE; one it refuses gets its code as the answer; a CANCEL ends the request at once outside a
step, and is kept for the step's end inside one. Where it rests on the model's own choices: log entries 59, 95. -/
def Obligations.RequestsOpen : Prop :=
  ∀ (s : State) (item : Item), s.live = true →
    let slot := hSlot item.w0
    let run := fun (P : State → Prop) => if item.kind = 0 then Does (.requestGenerate item) s P
      else if item.kind = 1 then Does (.requestAppend item) s P else Does (.requestCancel item) s P
    (∀ k, s.fw.posted = [] → s.reqCode item = 0 → item.kind ≤ 1 → item.grammarNo = 0xFFFF → s.freeReq = some k →
      (s.dir slot).state = .active → s.rationOut item.customer 1 = false →
      run fun t => ∃ r, SMap.lookup t.fw.reqs k = some r ∧ r.item = item ∧ r.slot = slot ∧ r.use = s.reqUse k ∧
        r.openNs = s.now ∧ r.newDone = 0 ∧ r.cancel = false ∧ r.failed = 0 ∧
        r.input = words32 (s.tabBytes item.w3.toNat (4 * item.inputLen)) ∧
        (r.state = if r.input.isEmpty then .decode else .prefill) ∧
        (∀ j, j ≠ k → SMap.lookup t.fw.reqs j = SMap.lookup s.fw.reqs j) ∧
        t.reg (Reg.ctlCnt 0) = s.reg (Reg.ctlCnt 0) + 1 ∧ t.hmp = s.hmp ∧ t.mem = s.mem) ∧
    (∀ c es, s.fw.posted = [Posted.mk item es (some c.id) none] → item.kind ≤ 2 → s.reqCode item ≠ 0 → Open s c →
      run fun t => t.fw.reqs = s.fw.reqs ∧ t.fw.posted = [] ∧ t.hmp.dir = s.hmp.dir ∧ t.hmp.hdr = s.hmp.hdr ∧ Answers s t c (s.reqCode item) 0 0) ∧
    (∀ i r, s.fw.posted = [] → item.kind = 2 → s.reqCode item = 0 → s.openReq? slot = some (i, r) →
      (r.inStep = true → Does (.requestCancel item) s fun t =>
        SMap.lookup t.fw.reqs i = some { r with cancel := true } ∧ t.hmp = s.hmp) ∧
      (r.inStep = false → r.failed = 0 → Does (.requestCancel item) s fun t =>
        SMap.lookup t.fw.reqs i = none ∧ t.reqUse i = r.use + 1 ∧ t.reg (Reg.ctlCnt 2) = s.reg (Reg.ctlCnt 2) + 1 ∧
        t.hmp.dir = s.hmp.dir ∧ ∀ j, j ≠ i → SMap.lookup t.fw.reqs j = SMap.lookup s.fw.reqs j))

/-- The host's commands on sessions and requests (R352, R361, R371, R668 to R671): the sampler and the adapter bindings of a
session are written, a request's item is built and posted, a request is cancelled by its identifier, committed output is
read. Where it rests on the model's own choices: log entries 59, 102. -/
def Obligations.RequestCommands : Prop :=
  ∀ (s : State) (id : Nat) (c : HostCmd),
    let slot := hSlot c.session
    let h := s.hdr slot
    (∀ ws, Waits s id 0x16 c → s.homeCode c.session = 0 → s.openReq? slot = none →
      Does (.setSampler id (some ws)) s fun t =>
        t.hdr slot = { h with sampler := samplerClean ws } ∧ (∀ n, n ≠ slot → t.hdr n = s.hdr n) ∧ t.hmp.dir = s.hmp.dir ∧
        Answers s t c 0 0 0) ∧
    (Waits s id 0x17 c → s.homeCode c.session = 0 → (∀ x, s.openReq? slot = some x → x.2.item.pinAdapter = false) →
      Does (.bindAdapter id) s fun t =>
        let a := (t.hdr slot).adapter.getD 0 0
        let b := (t.hdr slot).adapter.getD 2 0
        bit a 31 = bit (c.arg 0) 63 ∧ bits a 17 0 = bits (c.arg 0) 17 0 ∧ bit a 30 = false ∧
        bits a 63 32 = bits (h.adapter.getD 0 0) 63 32 ∧ bit b 31 = bit (c.arg 1) 63 ∧ bits b 5 0 = bits (c.arg 1) 5 0 ∧
        bit b 30 = false ∧ bits b 63 32 = bits (h.adapter.getD 2 0) 63 32 ∧ (∀ n, n ≠ slot → t.hdr n = s.hdr n) ∧
        Answers s t c 0 0 0) ∧
    (∀ es, Waits s id 0x20 c → es.length = bits (c.arg 1) 63 32 →
      (es.any (s.badInput h.vocab c.ctrlTokens) = false → Does (.submitRequest id (some es)) s fun t =>
        (∃ p, t.fw.posted = s.fw.posted ++ [p] ∧ p.entries = some es ∧ p.cmd = some id ∧ p.item.w0 = c.session ∧
          p.item.w2 = c.arg 0 ∧ p.item.w4 = c.arg 1 ∧ p.item.w5 = c.arg 2 ∧ p.item.w6 = c.arg 3) ∧
        (∃ d ∈ t.host.cmds, d.id = id ∧ d.began = true) ∧ t.fw.reqs = s.fw.reqs ∧ t.hmp = s.hmp) ∧
      (es.any (s.badInput h.vocab c.ctrlTokens) = true → Does (.submitRequest id (some es)) s fun t =>
        t.fw = s.fw ∧ t.hmp = s.hmp ∧ Answers s t c Code.invalidField 0 0)) ∧
    (let i := bits (c.arg 0) 31 16
     Waits s id 0x21 c →
      (∀ r, SMap.lookup s.fw.reqs i = some r → r.use.toNat = bits (c.arg 0) 15 0 → r.failed = 0 → r.cmd = none →
        Does (.cancel id) s fun t => Answers s t c 0 0 0 ∧
          (r.inStep = true → SMap.lookup t.fw.reqs i = some { r with cancel := true }) ∧
          (r.inStep = false → SMap.lookup t.fw.reqs i = none)) ∧
      ((∀ r, SMap.lookup s.fw.reqs i = some r → r.use.toNat ≠ bits (c.arg 0) 15 0) →
        Does (.cancel id) s fun t => t.fw = s.fw ∧ Answers s t c Code.reqState 0 0)) ∧
    (let lo := bits (c.arg 0) 63 32
     let n := bits (c.arg 0) 31 0
     Waits s id 0x22 c → s.homeCode c.session = 0 →
      (h.commitLen + bnat h.next.isSome < lo + n → Does (.readOutput id true) s fun t => Answers s t c Code.outputRange 0 0) ∧
      (lo + n ≤ h.commitLen + bnat h.next.isSome →
        (∀ p, (h.tokenLog + 4 * lo) / 65536 ≤ p → p ≤ (h.tokenLog + 4 * (lo + n) - 1) / 65536 →
          (s.leaf p).tier ≠ .sett ∧ (s.leaf p).poison = false) →
        Does (.readOutput id true) s fun t =>
          Out.hostWrite c.fn (c.arg 1) (packEntries ((List.range n).map fun i => s.logEntry slot (lo + i))) ∈ t.out ∧
          t.hmp = s.hmp ∧ t.mem = s.mem ∧ Answers s t c 0 0 (BitVec.ofNat 64 h.commitLen)))

/-- Rations and adapters (R374, R375, R379): RATION_ADD adds to the balance, a refill stops at the cap; a swap keeps the old
body as PREV until it retires, and answers with its base. Where it rests on the model's own choices: log entries 59, 90. -/
def Obligations.RationsAndAdapters : Prop :=
  ∀ (s : State) (id : Nat) (c : HostCmd),
    (let a := s.rationAddr (bits (c.arg 0) 19 0)
     Waits s id 0x31 c → (s.leaf (a / 65536)).v = true → s.tabled (a / 65536) = false → Does (.rationAdd id) s fun t =>
      t.tabWord a = s.tabWord a + c.arg 1 ∧ t.tabWord (a + 8) = s.tabWord (a + 8) ∧ t.tabWord (a + 16) = s.tabWord (a + 16) ∧
      t.reg (Reg.mtrCnt 6) = s.reg (Reg.mtrCnt 6) + 1 ∧ Answers s t c 0 0 0) ∧
    (s.live = true → s.fw.refillNs + msec (s.field Reg.ctlRation 47 32) ≤ s.now →
      (s.refillers = [] → Does .rationRefill s fun t => t = { s with fw.refillNs := s.now }) ∧
      (∀ k, s.refillers = [k] → (s.leaf (s.rationAddr k / 65536)).v = true → s.tabled (s.rationAddr k / 65536) = false → Does .rationRefill s fun t =>
        let w := s.tabWord (s.rationAddr k + 8)
        t.fw.refillNs = s.now ∧
        t.balance k = min (256 * (bits w 31 0 : Int)) (s.balance k + 256 * (bits w 63 32 : Int)))) ∧
    (let steer := !bit (c.arg 0) 63
     let m := bits (c.arg 0) 59 56
     let e := bits (c.arg 0) 17 0
     let a := s.adapterAddr steer m e
     Waits s id 0x30 c → s.adapterIn steer m e = true → steer = true → (s.leaf (a / 65536)).v = true → s.tabled (a / 65536) = false →
      bits (s.tabWord (a + 8)) 31 30 = 1 →
      (s.tabWord (a + 16) = 0 → newer (BitVec.ofNat 32 (bits (s.tabWord (a + 8)) 63 32)) (BitVec.ofNat 32 (bits (c.arg 2) 31 0)) = true →
        Does (.adapterSwap id) s fun t =>
          t.tabWord a = c.arg 1 ∧ t.tabWord (a + 16) = s.tabWord a ∧
          bits (t.tabWord (a + 8)) 63 32 = bits (c.arg 2) 31 0 ∧ bits (t.tabWord (a + 8)) 31 30 = 1 ∧
          bits (t.tabWord (a + 8)) 19 0 = bits (c.arg 2) 51 32 ∧ t.fw.swaps = s.fw.swaps ++ [Swap.mk id e true m] ∧
          t.reg (Reg.ctlCnt 7) = s.reg (Reg.ctlCnt 7) + 1) ∧
      (newer (BitVec.ofNat 32 (bits (s.tabWord (a + 8)) 63 32)) (BitVec.ofNat 32 (bits (c.arg 2) 31 0)) = false →
        Does (.adapterSwap id) s fun t => t.mem = s.mem ∧ Answers s t c Code.adapterVersion 0 0)) ∧
    (∀ w, s.fw.swaps = [w] → w.cmd = c.id → Open s c → s.fw.cur = none → s.fw.reqs = [] →
      Does (.adapterRetire c.id true) s fun t =>
        t.fw.swaps = [] ∧ Answers s t c 0 0 (s.tabWord (s.adapterAddr w.isSteer w.model w.entry + 16)))

/-! ### Steps (ch. 9, 10) -/

/-- Preparing a step (R354 to R357, R763): at a boundary the module sends its sub-batch for the next step, whose positions stay
within the budget unless a ring prefill stands alone; sub-batches and parameters of other modules are kept; the step begins
with all of them, its batch holding just their entries in the order of R356; a list that does not come in time raises
STEP_STALL. Where it rests on the model's own choices: log entry 58. -/
def Obligations.StepsBegin : Prop :=
  ∀ s : State, s.live = true →
    (s.atBoundary = true → Does (.stepBoundary [] []) s fun t =>
      t.fw.sent = some (s.fw.step + 1, s.now) ∧ t.fw.step = s.fw.step ∧ t.fw.cur = none ∧
      ∃ b ∈ t.fw.subs, b.step = s.fw.step + 1 ∧ b.module = s.self ∧ b.whole = true ∧
        (b.entries.length = 1 ∨ sumNat (b.entries.map (·.qn)) ≤ s.field Reg.ctlStep 47 32)) ∧
    (∀ n m es last, newer s.fw.step n = true → m ≠ s.self → m ∈ s.parts →
      (∀ b ∈ s.fw.subs, b.step ≠ n ∨ b.module ≠ m) →
      Does (.subBatch n m es last) s fun t => t = { s with fw.subs := s.fw.subs ++ [SubBatch.mk n m es last] }) ∧
    (∀ n p, newer s.fw.step n = true → (n, p) ∉ s.fw.params →
      Does (.sessionParameters n p) s fun t => t = { s with fw.params := s.fw.params ++ [(n, p)] }) ∧
    (∀ n t0 drafts, s.fw.sent = some (n, t0) → s.fw.cur = none → s.batchReady n = true →
      Does (.stepBegin drafts) s fun t =>
        t.fw.step = n ∧ t.fw.sent = none ∧ (∀ b ∈ t.fw.subs, b.step ≠ n) ∧
        ((∃ b ∈ s.fw.subs, b.step = n ∧ ∃ e ∈ b.entries, hModule e.session = s.self) →
          ∃ r, t.fw.cur = some r ∧ r.n = n ∧ r.reports = [] ∧ r.aborted = false ∧
            (∀ e, e ∈ r.batch ↔ ∃ b ∈ s.fw.subs, b.step = n ∧ e ∈ b.entries) ∧
            r.batch.Pairwise (fun a b => entryBefore a b = true) ∧
            (∀ h, h ∈ r.open_ ↔ hModule h = s.self ∧ ∃ e ∈ r.batch, e.session = h))) ∧
    (∀ n t0, s.fw.sent = some (n, t0) → t0 + usec (s.field Reg.ctlStep 63 48) ≤ s.now → s.batchReady n = false →
      s.fw.stalled = false → Does .listTimeout s fun t =>
        t.fw.stalled = true ∧ t.fw.sent = s.fw.sent ∧ t.fw.cur = s.fw.cur ∧ (t.fn 0).attn.getLsbD 3 = true ∧
        (t.fn 1).attn.getLsbD 3 = true)

/-- Ending a step (R116, R117, R359, R362, R366, R764): a report is kept until every module has reported; a failed session keeps
its committed length; a greedy decode commits its one position and the token with the largest logit becomes NEXT_TOKEN; a
shard takes the home's lengths. Where it rests on the model's own choices: log entries 54, 55, 60, 100. -/
def Obligations.StepsCommit : Prop :=
  ∀ s : State, s.live = true →
    (∀ (r : StepRun) (h : Word) (m status : Nat) (spans : List Nat) (lg : List (List (BitVec 32))) (e : BatchEntry),
      let slot := hSlot h
      s.fw.cur = some r → r.aborted = false → h ∈ r.open_ → m ∈ s.partsOf slot →
      (∀ x ∈ r.reports, x.session = h → x.module ≠ m) → r.batch.find? (fun e => e.session = h) = some e →
      (m = s.self → s.stepBusy r h = false ∧ h ∉ r.shards) →
      ((∃ o ∈ s.partsOf slot, o ≠ m ∧ ∀ x ∈ r.reports, x.session = h → x.module ≠ o) →
        Does (.stepDone m h status spans lg) s fun t => t.hmp = s.hmp ∧ ∃ q, t.fw.cur = some q ∧
          q.reports = r.reports ++ [Report.mk h m status spans] ∧ q.open_ = r.open_) ∧
      (m = s.self → s.partsOf slot = [m] → s.cmp.fails = [] → r.reports = [] → status ≠ 0 → status ≠ Code.attnAbsent →
        status ≠ Code.poisoned → status ≠ Code.sourceRead → Does (.stepDone m h status spans lg) s fun t =>
          (t.hdr slot).commitLen = (s.hdr slot).commitLen ∧ (t.hdr slot).specLen = (s.hdr slot).commitLen) ∧
      (∀ i q best v, m = s.self → s.partsOf slot = [m] → s.cmp.fails = [] → r.reports = [] → r.logits = [] → status = 0 →
        s.openReq? slot = some (i, q) → (s.dir slot).state = .active →
        s.tabled (s.rationAddr q.item.customer / 65536) = false → e.kind = .decode → q.drafts = [] → q.fallback = false → q.net = none →
        q.item.stopSet = 0xFFFF → q.newDone + 1 < q.item.maxNew → s.gramOf slot = none →
        (s.samplerOf slot).temp = 0 → greedy ((s.samplerOf slot).scores (lg.headD [])) = some (best, v) → best < 2 ^ 18 →
        best ≠ (s.samplerOf slot).eos → 5 < (s.hdr slot).sampler.length → Does (.stepDone m h status spans lg) s fun t =>
          (t.hdr slot).commitLen = e.pos + 1 ∧ (t.hdr slot).specLen = e.pos + 1 ∧ (t.hdr slot).next = some best)) ∧
    (∀ h commit spec, let slot := hSlot h
      s.handleCode h = 0 → (s.dir slot).kind = .shard → s.hmp.parks = [] → Does (.lengthWord h commit spec) s fun t =>
        (t.hdr slot).commitLen = commit ∧ (t.hdr slot).specLen = spec ∧
        (∀ r, s.fw.cur = some r → r.shards = [h] → r.open_ = [] → t.fw.cur = none))

/-! ### Jobs and service mode (ch. 10) -/

/-- An item as a sender issues it: under a SEQ and EPOCH of the issue (R34, R39). -/
def Sys2Proof.Machine.Issued (a b : Item) : Prop := ∃ v, b = { a with w1 := setBits a.w1 31 0 v }

/-- A queue holds `items` and behind them start items issued from a list, each at its level. -/
def Sys2Proof.Machine.Queued (items : List QEntry) (new : List (Nat × Item)) (q : List QEntry) : Prop :=
  ∃ l, q = items ++ l ∧ l.length = new.length ∧ ∀ x ∈ new.zip l, x.2.prio = x.1.1 ∧ x.2.bad = false ∧ Issued x.1.2 x.2.item

/-- Jobs (R396, R398, R402, R405 to R407): firmware pushes the oldest ready segment of a job of the most urgent level, behind the
job's load segment when its weights are not in the window, and asks for a preemption in its favour where R398 lets it; a preempted victim's resume item is pushed at its level; a loaded job is
resident, one whose load failed is not; service mode flushes the die's queue, runs its segments at level 0, and puts the
flushed items back at its exit. -/
def Obligations.JobsAndService : Prop :=
  ∀ (s : State) (die : Fin 4), s.live = true →
    let d := die.val
    let q := s.segQ d
    let items := (s.queue q).items
    let x := s.dieJobs d
    (∀ news load j r, s.flt.discards = [] → x.entering = false → items.length < s.field Reg.ctlSched 7 4 →
      let u := { s with fw.ready := s.fw.ready ++ news.map fun (y : Nat × Item) => ReadySeg.mk y.1 d y.2 s.now }
      u.pickJob d = some j → u.oldest d j = some r →
      (∀ k ∈ u.readyJobs d, s.jobLevel j ≤ s.jobLevel k) ∧ r.die = d ∧ r.job = j ∧ r ∈ u.fw.ready ∧
      ((s.jobWindow j = false ∨ s.resident d (s.jobSlot j) = j) → items.length < s.qDepth q →
        Does (.segmentPick die news load) s fun t =>
          Queued items [(s.jobLevel j, r.item)] (t.queue q).items ∧ t.fw.ready = u.fw.ready.erase r ∧
          bit (t.reg (Reg.seqPreempt d)) 0 = ((u.feed d load).asksPreempt d || bit (s.reg (Reg.seqPreempt d)) 0) ∧
          (t.dieJobs d).pushed = x.pushed ++ [(plainStart r.item, j, r.readyNs)]) ∧
      (s.jobWindow j = true → s.resident d (s.jobSlot j) ≠ j → s.slotSaved d j = false → x.loading.map (·.1) ≠ some j →
        items.length + 1 < s.qDepth q → Does (.segmentPick die news load) s fun t =>
          Queued items [(s.jobLevel j, { load with w2 := s.jobWord j 0 }), (s.jobLevel j, r.item)] (t.queue q).items ∧
          (t.dieJobs d).loading = some (j, { load with w2 := s.jobWord j 0 }))) ∧
    (∀ k : State, k.asksPreempt d = true → ∃ j v ns, k.pickJob d = some j ∧
      k.pushedJob d (k.die d).item = some (v, ns) ∧ k.jobLevel j < k.jobLevel v ∧ k.jobPreemptible v = true ∧
      (k.die d).save = none ∧ k.dieService d = false) ∧
    (∀ v j ns, s.tabled (s.jobAddr 0 / 65536) = false → (s.die d).save = some v → x.victim = none → s.pushedJob d v.item = some (j, ns) → j < 64 →
      Does (.preemptedCompletion die) s fun t =>
        (t.dieJobs d).victim = some j ∧ SMap.get 0 t.fw.preempted j = SMap.get 0 s.fw.preempted j + 1 ∧
        t.reg (Reg.ctlCnt 8) = s.reg (Reg.ctlCnt 8) + 1 ∧
        (x.entering = true → (t.queue q).items = items) ∧
        (x.entering = false → items.length < s.qDepth q →
          Queued items [(s.jobLevel j, resumeOf v)] (t.queue q).items)) ∧
    (∀ j it, x.loading = some (j, it) → j < 64 →
      (Does (.loadSegmentDone die 0) s fun t =>
        t.resident d (s.jobSlot j) = j ∧ (t.dieJobs d).loading = none ∧ t.reg (Reg.ctlCnt 10) = s.reg (Reg.ctlCnt 10) + 1) ∧
      (∀ status, status ≠ 0 → Does (.loadSegmentDone die status) s fun t =>
        t.resident d (s.jobSlot j) = 0xFF ∧ t.reg (Reg.ctlCnt 10) = s.reg (Reg.ctlCnt 10))) ∧
    (s.fw.windowNs + msec (s.field Reg.ctlSched 31 16) ≤ s.now →
      Does .acctWindow s fun t => t = { s with fw.windowNs := s.now, fw.started := [] }) ∧
    (∀ segments, s.dieService d = false → x.entering = false →
      ((s.die d).state = .idle → segments.length ≤ s.qDepth q → Does (.serviceEntry die segments) s fun t =>
        t.dieService d = true ∧ Queued [] (segments.map fun it => (0, it)) (t.queue q).items ∧
        (t.dieJobs d).flushed = items.map (fun e => (e.item, e.prio)) ∧ (t.dieJobs d).entering = false ∧
        t.reg (Reg.ctlCnt 11) = s.reg (Reg.ctlCnt 11) + 1) ∧
      ((s.die d).state ≠ .idle → s.runningPreemptible d = true → Does (.serviceEntry die segments) s fun t =>
        t.dieService d = false ∧ bit (t.reg (Reg.seqPreempt d)) 0 = true ∧ (t.queue q).items = [] ∧
        (t.dieJobs d).entering = true)) ∧
    (s.dieService d = true → (s.die d).state = .idle → items = [] → (s.die d).save = none → x.flushed.length ≤ s.qDepth q →
      Does (.serviceExit die) s fun t =>
        t.dieService d = false ∧ Queued [] (x.flushed.map fun y => (y.2, y.1)) (t.queue q).items ∧ (t.dieJobs d).flushed = [])

/-! ### The text unit (ch. 11) -/

/-- A completion item c goes to queue q at level 0 when it has room, and tally a rises by 1 with it (R329, R427). -/
def Sys2Proof.Machine.Posts (s t : State) (q : Nat) (c : Item) (a : Nat) : Prop :=
  ((s.queue q).items.length < s.qDepth q → (t.queue q).items = (s.queue q).items ++ [⟨0, c, false⟩]) ∧
    ((s.queue q).items.length < s.qDepth q → isReclaim a = false → bit (s.reg (Reg.hqQcfg q)) 12 = false →
      t.tally a = s.tally a + 1)

/-- The items of the text unit by operation (R424). -/
def Sys2Proof.Machine.textItems (i : Item) : List (Instr × Nat) :=
  [(.tokenize i, 0), (.detokenize i, 1), (.mask i, 2), (.advance i, 3), (.grammarOpen i, 4), (.grammarClose i, 5), (.textRelease i, 6)]

/-- An item that the text unit begins at once: no item of its session waits before it, its fields are in range, its handle is this
home's, its address is a state address, and the images it names can be read (R54, R424, R425, R689, R694). -/
def Sys2Proof.Machine.State.TextReady (s : State) (item : Item) : Prop :=
  s.unitFailed 0 = false ∧ (∀ x ∈ s.handBefore textReader item, x.w0 ≠ item.w0) ∧ textReserved item = false ∧ textOk item = true ∧
    item.w0 ≠ 0 ∧ s.homeCode item.w0 = 0 ∧ tagSnap item.w1 = false ∧ s.vocabLost (TextItem.ofItem item).vocab = false ∧
    (2 ≤ (TextItem.ofItem item).op → s.gramLost (hSlot item.w0) = false) ∧ (∀ o ∈ s.hq.old, o.item ≠ item) ∧
    tagEpoch item.w1 = s.comp.map.epoch

/-- Text items and tokens (R13, R424 to R428, R435 to R448, R689, R694): an item of a failed unit, with a reserved value,
without a session, or whose images cannot be read fails with its code and no other effect on the session; TOKENIZE writes
its tokens and carries the rest of the input; DETOKENIZE writes its bytes and holds the rest; more output than DST_CAP is
TEXT_OVERFLOW. Where it rests on the model's own choices: log entries 35, 36, 84, 115. -/
def Obligations.TextTokens : Prop :=
  ∀ (s : State) (item : Item), s.live = true →
    let t := TextItem.ofItem item
    let slot := hSlot item.w0
    let fails := fun (u : State) (code : Nat) (c : Instr) => Does c s fun z =>
      Posts u z t.queue (textCompletion item code 0 0 0 noIndex 0 0 0) t.tally ∧ z.hmp = u.hmp
    (∀ x ∈ textItems item, t.op = x.2 ∨ textReserved item = true → (∀ y ∈ s.handBefore textReader item, y.w0 ≠ item.w0) →
      (s.unitFailed 0 = true → fails s Code.unitFailed x.1) ∧
      (s.unitFailed 0 = false → textReserved item = true ∨ textOk item = false → fails s Code.invalidField x.1) ∧
      (s.unitFailed 0 = false → textReserved item = false → textOk item = true → item.w0 = 0 → fails s Code.badHandle x.1) ∧
      (s.unitFailed 0 = false → textReserved item = false → textOk item = true → item.w0 ≠ 0 → s.homeCode item.w0 ≠ 0 →
        fails s (s.homeCode item.w0) x.1) ∧
      (s.unitFailed 0 = false → textReserved item = false → textOk item = true → item.w0 ≠ 0 → s.homeCode item.w0 = 0 →
        tagSnap item.w1 = false → s.vocabLost t.vocab = true → fails s Code.poisoned x.1)) ∧
    (s.TextReady item → ∀ v u src, s.vocab? t.vocab = some v →
      (t.op = 0 → (s.cacheText slot).getBytes textCache t.src t.len = (.ok src, u) →
        ∀ r, tokenizeBytes v t (t.escape = 1 || (tagClass item.w1 = 1 && bit (s.reg Reg.txtControl) 9))
            ((u.hdr slot).inBytes ++ src) = .ok r →
        (t.cap < r.toks.length → fails u Code.textOverflow (.tokenize item)) ∧
        (r.toks.length ≤ t.cap → ∀ y,
          u.putBytes textCache t.dst (bytes32 (r.toks.map fun k => mkEntry k t.origin false false)) = .done y →
          Does (.tokenize item) s fun z =>
            z.hdr slot = (y.hdr slot).setInBytes r.carry ∧ (∀ n, n ≠ slot → z.hdr n = y.hdr n) ∧ z.mem = y.mem ∧
            z.reg (Reg.txtCnt 0) = y.reg (Reg.txtCnt 0) + BitVec.ofNat 64 r.toks.length ∧
            z.reg (Reg.txtCnt 1) = y.reg (Reg.txtCnt 1) + BitVec.ofNat 64 t.len ∧
            z.reg (Reg.txtCnt 3) = y.reg (Reg.txtCnt 3) + BitVec.ofNat 64 r.replaced ∧
            z.reg (Reg.txtCnt 4) = y.reg (Reg.txtCnt 4) + BitVec.ofNat 64 r.fallback ∧
            Posts y z t.queue (textCompletion item 0 r.toks.length t.len r.replaced noIndex 0 0 0) t.tally)) ∧
      (t.op = 1 → (s.cacheText slot).getBytes textCache t.src (4 * t.len) = (.ok src, u) →
        ∀ r, detokLoop v (u.stopSet t.stopSet) t.final 0 ((words32 src).map entryToken) (u.hdr slot).holdBytes [] = some r →
        (t.cap < (sanitize r.sent).1.length → fails u Code.textOverflow (.detokenize item)) ∧
        ((sanitize r.sent).1.length ≤ t.cap → ∀ y, u.putBytes textCache t.dst (sanitize r.sent).1 = .done y →
          Does (.detokenize item) s fun z =>
            z.hdr slot = (y.hdr slot).setHold r.held ∧ (∀ n, n ≠ slot → z.hdr n = y.hdr n) ∧ z.mem = y.mem ∧
            z.reg (Reg.txtCnt 2) = y.reg (Reg.txtCnt 2) + BitVec.ofNat 64 (sanitize r.sent).1.length ∧
            z.reg (Reg.txtCnt 3) = y.reg (Reg.txtCnt 3) + BitVec.ofNat 64 (sanitize r.sent).2 ∧
            z.reg (Reg.txtCnt 5) = y.reg (Reg.txtCnt 5) + BitVec.ofNat 64 (bnat r.stop.isSome) ∧
            Posts y z t.queue (textCompletion item 0 (sanitize r.sent).1.length r.used (sanitize r.sent).2
              (r.stop.getD (noIndex, 0)).1 (r.stop.getD (noIndex, 0)).2 r.held.length 0) t.tally)))

/-- Grammars (R429, R449 to R458): a loaded image stands at its address and gets its directory entry, empty of sessions; opening binds
it at its start state and counts the session, closing unbinds it; a mask leaves the session as it is; an advance moves it along its
transitions, or not at all; a release drops the unit's cached text state. -/
def Obligations.TextGrammars : Prop :=
  ∀ (s : State) (item : Item), s.live = true →
    let t := TextItem.ofItem item
    let slot := hSlot item.w0
    let plain := fun (n : Nat) => (s.leaf (s.gramAt n / 65536)).v = true ∧ s.tabled (s.gramAt n / 65536) = false
    (∀ id c g, Waits s id 0x33 c → bits (c.arg 0) 15 0 < s.field Reg.txtGrammar 48 36 →
      let n := bits (c.arg 0) 15 0
      let vocab := bits (c.arg 4) 3 0
      let dest := (c.arg 3).toNat
      ((s.gramEntry n).refs ≠ 0 → Does (.grammarLoad id g) s fun z =>
        z.txt = s.txt ∧ z.mem = s.mem ∧ z.hmp = s.hmp ∧ Answers s z c Code.grammarBusy 0 0) ∧
      ((s.gramEntry n).refs = 0 → c.arg 2 = 0 → plain n → Does (.grammarLoad id g) s fun z =>
        z.gramEntry n = {} ∧ Answers s z c 0 0 0) ∧
      ((s.gramEntry n).refs = 0 → c.arg 2 ≠ 0 → s.pinnedRange dest (c.arg 2).toNat = false →
        Does (.grammarLoad id g) s fun z => z.mem = s.mem ∧ z.hmp = s.hmp ∧ Answers s z c Code.invalidField 0 0) ∧
      (∀ bs, g = some bs → (s.gramEntry n).refs = 0 → c.arg 2 ≠ 0 → s.pinnedRange dest (c.arg 2).toNat = true →
        let im : Grammar := { img := bs.take (c.arg 2).toNat }
        let entries := ((s.vocab? vocab).map (·.entries)).getD 0
        (im.ok entries = true → plain n →
          (∀ p, dest / 65536 ≤ p → p ≤ (dest + (c.arg 2).toNat - 1) / 65536 → s.tabled p = false) →
          Does (.grammarLoad id g) s fun z =>
          z.gramEntry n = { addr := dest, refs := 0, vocab := vocab } ∧ Answers s z c 0 0 0 ∧ z.hmp = s.hmp ∧
          ∀ a, (∀ i, i < im.img.length → a ≠ s.physOf (dest + i)) → (a < s.physOf (s.gramAt n) ∨ s.physOf (s.gramAt n) + 16 ≤ a) →
            z.byte a = s.byte a) ∧
        (im.ok entries = false → Does (.grammarLoad id g) s fun z =>
          z.mem = s.mem ∧ z.hmp = s.hmp ∧ Answers s z c Code.grammarImage 0 0))) ∧
    (s.TextReady item →
      (t.op = 4 → plain t.grammar →
        (∀ u, s.openGrammar slot t.grammar t.vocab = .ok u → t.grammar < 4096 →
          Does (.grammarOpen item) s fun z =>
          (z.hdr slot).gram = some (t.grammar, { state := (s.gramImage (s.gramEntry t.grammar).addr).start }) ∧
          (z.gramEntry t.grammar).refs = (s.gramEntry t.grammar).refs + 1 ∧ (∀ n, n ≠ slot → z.hdr n = s.hdr n) ∧
          Posts s z t.queue (textCompletion item 0 0 0 0 noIndex 0 0 0) t.tally) ∧
        (∀ code, s.openGrammar slot t.grammar t.vocab = .error code → Does (.grammarOpen item) s fun z =>
          z.hmp = s.hmp ∧ Posts s z t.queue (textCompletion item code 0 0 0 noIndex 0 0 0) t.tally)) ∧
      (t.op = 5 → (∀ n p, (s.hdr slot).gram = some (n, p) → plain n) → Does (.grammarClose item) s fun z =>
        (z.hdr slot).gram = none ∧ (∀ n, n ≠ slot → z.hdr n = s.hdr n) ∧
        (∀ n p, (s.hdr slot).gram = some (n, p) → (z.gramEntry n).refs = (s.gramEntry n).refs - 1) ∧
        Posts s z t.queue (textCompletion item 0 0 0 0 noIndex 0 0 0) t.tally) ∧
      (t.op = 6 → Does (.textRelease item) s fun z =>
        slot ∉ z.txt.cached ∧ z.hmp = s.hmp ∧ Posts s z t.queue (textCompletion item 0 0 0 0 noIndex 0 0 0) t.tally) ∧
      (∀ v n g p src u, s.vocab? t.vocab = some v → s.gramOf slot = some (n, g, p) →
        (s.cacheText slot).getBytes textCache t.src (4 * t.len) = (.ok src, u) →
        let r := gramRun g v.eos p ((words32 src).map entryToken)
        (t.op = 2 → (t.len + 1) * maskBytes v ≤ t.cap →
          let masks := r.1.map (maskOf v g)
          ∀ y, u.putBytes textCache t.dst ((masks ++ List.replicate (t.len + 1 - masks.length) (masks.getLastD [])).flatMap id) = .done y →
          Does (.mask item) s fun z =>
            z.hmp = y.hmp ∧ z.mem = y.mem ∧ z.reg (Reg.txtCnt 7) = y.reg (Reg.txtCnt 7) + BitVec.ofNat 64 (t.len + 1) ∧
            Posts y z t.queue (textCompletion item 0 (t.len + 1) t.len 0 ((r.2.map (·.1)).getD noIndex) 0 0 0) t.tally) ∧
        (t.op = 3 →
          (r.2 = none → Does (.advance item) s fun z =>
            z.hdr slot = (u.hdr slot).setGram n (r.1.getLastD p) ∧ (∀ m, m ≠ slot → z.hdr m = u.hdr m) ∧
            Posts u z t.queue (textCompletion item 0 0 t.len 0 noIndex 0 0 0) t.tally) ∧
          (∀ i code, r.2 = some (i, code) → Does (.advance item) s fun z => z.hmp = u.hmp ∧
            Posts u z t.queue (textCompletion item code 0 0 0 i 0 0 0) t.tally))))

/-! ### Search and embeddings (ch. 12) -/

/-- The completion item of R468. -/
def Sys2Proof.Machine.seuAnswer (i : Item) (code out short widened : Nat) (old : Word) (err : Nat) : Item :=
  { w0 := i.w0, w1 := tagLast i.w1, w2 := fld 63 48 code ||| fld 31 0 out, w3 := fld 63 32 short ||| fld 31 0 widened, w4 := old
    w5 := fld 63 32 err }

/-- The unit answers its item with a code and no output, from a state u on. -/
def Sys2Proof.Machine.SeuFails (s u : State) (c : Instr) (i : Item) (code err : Nat) : Prop :=
  Does c s fun z => Posts u z (bits i.w6 40 32) (seuAnswer i code 0 0 0 0 err) (bits i.w6 11 0) ∧ z.hmp = u.hmp

/-- Its items by operation (R466). -/
def Sys2Proof.Machine.seuItems (i : Item) : List (Instr × Nat) :=
  [(.search i, 0), (.listPublish i, 1), (.graphEdit i, 2), (.lookup i [], 3), (.update i, 4), (.tablePublish i, 5)]

/-- What the checks before an operation let through (R54, R467, R690), for an item under the current registers and map. -/
def Sys2Proof.Machine.SeuRuns (s : State) (i : Item) (op : Nat) : Prop :=
  s.live = true ∧ s.unitFailed 6 = false ∧ seuOp i = op ∧ seuReserved i = false ∧ (i.w0 = 0 ∨ s.handleCode i.w0 = 0) ∧
    tagSnap i.w1 = false ∧ (∀ o ∈ s.hq.old, o.item ≠ i) ∧ tagEpoch i.w1 = s.comp.map.epoch

/-- Searches and index edits (R467 to R485, R690): items of a failed unit, with a reserved operation or a handle that does not
check, are answered with the code; a search's candidates are the least by distance, list and slot, at most its E for each
query, and are written with its records; a newer list directory entry or a node image is written whole, and the published
list's answer gives its old base. Where it rests on the model's own choices: log entries 68, 69, 103. -/
def Obligations.SearchesAndEdits : Prop :=
  ∀ (s : State) (i : Item), s.live = true →
    (∀ x ∈ seuItems i, seuOp i = x.2 ∨ seuReserved i = true →
      (s.unitFailed 6 = true → SeuFails s s x.1 i Code.unitFailed noIndex) ∧
      (s.unitFailed 6 = false → seuReserved i = true → SeuFails s s x.1 i Code.invalidField noIndex) ∧
      (s.unitFailed 6 = false → seuReserved i = false → i.w0 ≠ 0 → s.handleCode i.w0 ≠ 0 →
        SeuFails s s x.1 i (s.handleCode i.w0) noIndex)) ∧
    (SeuRuns s i 0 →
      let t := SearchItem.ofItem i
      let x := s.index t.slot
      (t.terms ≤ 8 → x.valid = false → SeuFails s s (.search i) i Code.seuIndex noIndex) ∧
      (∀ u w y, t.terms ≤ 8 → x.valid = true →
        readAll ((t.filter, 16 * t.terms, noIndex) :: (x.params, 8 * x.dim, noIndex) ::
          (List.range t.qn).map fun q => (t.src + 4 * q * x.dim, 4 * x.dim, q)) s = (none, u) →
        let terms := (List.range t.terms).map fun j => (u.tabWord (t.filter + 16 * j), u.tabWord (t.filter + 16 * j + 8))
        let r := u.searchRun x t terms
        terms.all termOk = true → terms.getLast?.any (fun v => bit v.1 48) = false →
        readAll (u.searchReads x t r.1) u = (none, w) →
        w.seuWrite ((t.dst, r.1.flatMap (w.queryRecord x t.e)) ::
          if t.rerank then [(t.dst + up128 (t.qn * (16 + 16 * t.e)), r.1.flatMap (w.gatherRows x t.e))] else []) = .done y →
        r.1.length = t.qn ∧
        (∀ q ∈ r.1, q.cands.length ≤ t.e ∧ q.cands.Pairwise fun a b => candBefore b a = false) ∧
        Does (.search i) s fun z =>
          z.mem = y.mem ∧ z.hmp = y.hmp ∧ z.reg (Reg.seuCnt 0) = y.reg (Reg.seuCnt 0) + BitVec.ofNat 64 t.qn ∧
          z.reg (Reg.seuCnt 1) = y.reg (Reg.seuCnt 1) + BitVec.ofNat 64 r.2.scans ∧
          Posts y z (bits i.w6 40 32) (seuAnswer i 0 t.qn (r.1.filter fun q => q.passed < t.e).length
            (r.1.filter fun q => q.widened).length 0 noIndex) (bits i.w6 11 0))) ∧
    (let x := s.index (pubObject i)
     pubObject i < 64 → x.valid = true →
      (SeuRuns s i 1 → s.publishWaits i = true → Ignored (.listPublish i) s) ∧
      (SeuRuns s i 1 → s.publishWaits i = false →
        (x.lists ≤ pubNumber i → SeuFails s s (.listPublish i) i Code.seuRange noIndex) ∧
        (∀ u, pubNumber i < x.lists → readAll [(x.listDir + 16 * pubNumber i, 16, noIndex)] s = (none, u) →
          (newer (u.listVersion x (pubNumber i)) (pubVersion i) = false → SeuFails s u (.listPublish i) i Code.seuVersion noIndex) ∧
          (∀ y, newer (u.listVersion x (pubNumber i)) (pubVersion i) = true →
            u.seuWrite [(x.listDir + 16 * pubNumber i, leBytes i.w3.toNat 8 ++ leBytes i.w4.toNat 8)] = .done y →
            Does (.listPublish i) s fun z => z.mem = y.mem ∧ z.hq.queues = y.hq.queues ∧
              z.seu.lists = s.seu.lists ++ [(i, BitVec.ofNat 64 (u.listBase x (pubNumber i)))]))) ∧
      (SeuRuns s i 2 → ∀ u, readAll [(i.w5.toNat, 256, noIndex)] s = (none, u) →
        let bs := u.tabBytes i.w5.toNat 256
        let deg := bits (bytesWord bs) 37 32
        let good := deg ≤ x.maxDeg ∧ ∀ k < deg, leWord ((bs.drop (8 + 4 * k)).take 4) < x.lists
        (¬good → SeuFails s u (.graphEdit i) i Code.invalidField noIndex) ∧
        (good → x.lists ≤ pubNumber i → SeuFails s u (.graphEdit i) i Code.seuRange noIndex) ∧
        (∀ y, good → pubNumber i < x.lists → u.seuWrite [(x.graph + 256 * pubNumber i, bs)] = .done y →
          Does (.graphEdit i) s fun z => z.mem = y.mem ∧ z.seu.lists = y.seu.lists ∧ z.seu.tables = y.seu.tables ∧
            z.seu.store = y.seu.store ∧
            Posts y z (bits i.w6 40 32) (seuAnswer i 0 0 0 0 0 noIndex) (bits i.w6 11 0)))) ∧
    (∀ old l, s.unitFailed 6 = false → s.seu.lists = (i, old) :: l → Does .listPublishComplete s fun z =>
      z.seu.lists = l ∧ z.reg (Reg.seuCnt 11) = s.reg (Reg.seuCnt 11) + 1 ∧ z.mem = s.mem ∧
      Posts s z (bits i.w6 40 32) (seuAnswer i 0 0 0 0 old noIndex) (bits i.w6 11 0))

/-- Lookups of rows (R489 to R491): a lookup of a table this module holds whole writes one row for each bag; an owner-pooled one
goes through its stages around the ring and ends, or times out. Tables and the row store (R492 to R497): an update writes
each of its rows once and the store follows; a published table is valid under its new base and version, with the old base
kept until it retires; a fill makes its claim valid; a promotion window starts the counts again. Where it rests on the
model's own choices: log entries 69, 70. -/
def Obligations.LookupsAndTables : Prop :=
  (∀ (s : State) (i : Item), s.live = true → s.unitFailed 6 = false →
     let n := bits i.w2 59 52
     let t := s.table n
     let pool := bits i.w2 51 50
     let bags := bits i.w2 47 32 + 1
     let ids := i.w3.toNat
     (SeuRuns s i 3 → s.rowsWait i = true → ∀ errs, Ignored (.lookup i errs) s) ∧
     (SeuRuns s i 3 → s.rowsWait i = false → (∀ x ∈ s.seu.bound, x.1 ≠ i) → ∀ errs,
       ((s.tableCount ≤ n ∨ t.valid = false) → SeuFails s s (.lookup i errs) i Code.seuTable noIndex) ∧
       (∀ u, n < s.tableCount → t.valid = true → t.sharded = false → bit i.w2 49 = false → t.fmt ≠ 3 →
         readAll [(ids, 4 * (bags + 1), noIndex)] s = (none, u) →
         let offs := u.bagOffsets ids bags
         let total := offs.getLastD 0
         ∀ v, offs.headD 0 = 0 → nondecreasing offs = true → total ≤ 1048576 →
         readAll [(rowsAt ids bags, 8 * total, noIndex)] u = (none, v) →
         let rows := v.bagRows ids bags total
         (∀ e, rows.findIdx? (fun r => t.rows ≤ r) = some e → SeuFails s v (.lookup i errs) i Code.seuRange e) ∧
         (∀ w y, (∀ r ∈ rows, r < t.rows) →
           readAll (((List.range total).filter fun k => v.ownsRow t (rows.getD k 0) &&
             ((v.storeRow? (rowKey n (rows.getD k 0))).filter fun x => !x.filling).isNone).map
               fun k => (v.rowAddr t (rows.getD k 0), t.rowBytes, k)) v = (none, w) →
           let outs := outRowsOf pool offs rows
           let r := readBags n t errs outs w
           let a := r.2.prefetch n t i.w5.toNat bags
           let vals := (List.range outs.length).map fun k => poolRow pool t.width true (a.free + k * t.width) (r.1.getD k [])
           { a with free := a.free + outs.length * t.width }.seuWrite [(i.w4.toNat, vals.flatMap bytes32)] = .done y →
           Does (.lookup i errs) s fun z => z.mem = y.mem ∧ z.hmp = y.hmp ∧ z.seu.pools = s.seu.pools ∧
             Posts y z (bits i.w6 40 32) (seuAnswer i 0 outs.length 0 0 0 noIndex) (bits i.w6 11 0)))) ∧
     (∀ p : Pooling, s.seu.pools = [p] →
       (∀ chunk, p.stage + 1 < 2 * (p.count - 1) → Does (.poolStage p.batch chunk) s fun z =>
         ∃ q, z.seu.pools = [q] ∧ q.stage = p.stage + 1 ∧ q.item = p.item ∧ q.sinceNs = s.now ∧ q.rows = p.rows ∧ z.mem = s.mem ∧
           Out.chunk true p.batch (chunkOf q.block p.count (chunkOut p.pos p.count q.stage)) ∈ z.out) ∧
       (∀ chunk y, p.count = 2 → p.stage = 1 → p.block.length = 2 * chunk.length → 0 < chunk.length →
         (p.rows = [1] → p.width = 2 * chunk.length → bits p.item.w2 51 50 = 2 →
           let block := if recvChunk p.pos 2 1 = 0 then chunk ++ p.block.drop chunk.length else p.block.take chunk.length ++ chunk
           s.seuWrite [(p.item.w4.toNat, bytes32 block)] = .done y → Does (.poolStage p.batch chunk) s fun z =>
             z.seu.pools = [] ∧ z.mem = y.mem ∧
             Posts y z (bits p.item.w6 40 32) (seuAnswer p.item 0 1 0 0 0 noIndex) (bits p.item.w6 11 0))) ∧
       (p.sinceNs + p.timeoutNs ≤ s.now → Does (.poolTimeout p.batch) s fun z =>
         z.seu.pools = [] ∧ Posts s z (bits p.item.w6 40 32) (seuAnswer p.item Code.poolTimeout 0 0 0 0 noIndex)
           (bits p.item.w6 11 0)))) ∧
  (∀ (s : State) (i : Item), s.live = true → s.unitFailed 6 = false →
     let n := bits i.w2 59 52
     let t := s.table n
     (SeuRuns s i 4 → s.rowsWait i = true → Ignored (.update i) s) ∧
     (SeuRuns s i 4 → s.rowsWait i = false → (∀ x ∈ s.seu.bound, x.1 ≠ i) →
       let cnt := bits i.w2 47 32 + 1
       let a := i.w3.toNat
       ((s.tableCount ≤ n ∨ t.valid = false) → SeuFails s s (.update i) i Code.seuTable noIndex) ∧
       (∀ u v y, n < s.tableCount → t.valid = true → t.fmt ≠ 3 → readAll [(a, 16 * cnt, noIndex)] s = (none, u) →
         (∀ k < cnt, bits (u.tabWord (a + 16 * k)) 63 62 < 2) →
         let es := (List.range cnt).map (u.updEntry a)
         (∀ e ∈ es, e.row < t.rows ∧ u.ownsRow t e.row = true) →
         let rows := firsts (es.map fun e => e.row)
         readAll (((List.range cnt).map fun k => ((es.getD k ⟨false, 0, 0⟩).src, 4 * t.width, k)) ++
           rows.map fun r => (u.rowAddr t r, t.rowBytes, (es.findIdx? fun e => e.row = r).getD noIndex)) u = (none, v) →
         let news := (List.range rows.length).map fun k => (rows.getD k 0, t.narrow (Config.rowScale (v.free + k))
           (v.applyEntries t (rows.getD k 0) es (t.widen (v.tabBytes (v.rowAddr t (rows.getD k 0)) t.rowBytes))))
         v.seuWrite (news.map fun x => (v.rowAddr t x.1, x.2)) = .done y →
         rows.Nodup ∧ (∀ r, r ∈ rows ↔ ∃ e ∈ es, e.row = r) ∧ Does (.update i) s fun z =>
           z.mem = y.mem ∧ z.hmp = y.hmp ∧ z.reg (Reg.seuCnt 10) = y.reg (Reg.seuCnt 10) + BitVec.ofNat 64 rows.length ∧
           (∀ x ∈ news, ∀ q, s.storeRow? (rowKey n x.1) = some q → q.filling = false →
             z.storeRow? (rowKey n x.1) = some { q with data := x.2 }) ∧
           (∀ x ∈ news, ∀ q, s.storeRow? (rowKey n x.1) = some q → q.filling = true → z.storeRow? (rowKey n x.1) = none) ∧
           Posts y z (bits i.w6 40 32) (seuAnswer i 0 cnt 0 0 0 noIndex) (bits i.w6 11 0))) ∧
     (SeuRuns s i 5 → n < s.tableCount →
       (t.prevBase ≠ 0 → SeuFails s s (.tablePublish i) i Code.seuBusy noIndex) ∧
       (t.prevBase = 0 → newer t.version (pubVersion i) = false → SeuFails s s (.tablePublish i) i Code.seuVersion noIndex) ∧
       (t.prevBase = 0 → newer t.version (pubVersion i) = true → (s.leaf (t.addr / 65536)).v = true → s.tabled (t.addr / 65536) = false →
         Does (.tablePublish i) s fun z =>
           (z.table n).base = i.w3.toNat ∧ (z.table n).version = pubVersion i ∧ (z.table n).valid = true ∧
           (z.table n).prevBase = BitVec.ofNat 64 t.base ∧ (z.table n).width = t.width ∧ (z.table n).rows = t.rows ∧
           z.seu.tables = s.seu.tables ++ [(i, BitVec.ofNat 64 t.base)] ∧
           (∀ r < 2 ^ 40, z.storeRow? (rowKey n r) = none) ∧ z.hq.queues = s.hq.queues)) ∧
     (∀ old, s.seu.tables = [(i, old)] → s.seu.pools = [] → s.seu.bound = [] →
       (s.leaf ((s.table (pubObject i)).addr / 65536)).v = true → s.tabled ((s.table (pubObject i)).addr / 65536) = false → Does .tableRetire s fun z =>
         z.seu.tables = [] ∧ (z.table (pubObject i)).prevBase = 0 ∧ (z.table (pubObject i)).base = (s.table (pubObject i)).base ∧
         z.reg (Reg.seuCnt 11) = s.reg (Reg.seuCnt 11) + 1 ∧
         Posts s z (bits i.w6 40 32) (seuAnswer i 0 0 0 0 old noIndex) (bits i.w6 11 0)) ∧
     (∀ k row x bs u, s.storeRow? (rowKey k row) = some x → x.filling = true →
       s.getBytes seuCache (s.rowAddr (s.table k) row) (s.table k).rowBytes = (.ok bs, u) →
       Does (.rowFillComplete k row) s fun z =>
         z.storeRow? (rowKey k row) = some { x with filling := false, data := bs, lastNs := s.now } ∧
         z.reg (Reg.seuCnt 8) = s.reg (Reg.seuCnt 8) + BitVec.ofNat 64 (bnat (!x.ahead)) ∧ z.mem = s.mem ∧
         ∀ j, j ≠ rowKey k row → z.storeRow? j = s.storeRow? j) ∧
     (s.seu.windowNs + msec (s.field Reg.seuHot 63 48) ≤ s.now → Does .promotionWindow s fun z =>
       z = { s with seu.reads := [], seu.windowNs := s.now }))

/-! ### Snapshots and restores (ch. 13) -/

/-- Cuts (R507 to R514, R528): a lead takes the group's next epoch and becomes busy; another module's cut item is taken, or
answered SNAP_BUSY; marking write-protects every page still to copy, in the caches too; a page copied is writable again
under the cut's epoch, and counted. Where it rests on the model's own choices: log entries 46, 47, 106. -/
def Obligations.SnapshotCuts : Prop :=
  ∀ (s : State) (id : Nat) (c : HostCmd) (k : SnapCut),
    (∀ hs, Waits s id 0x41 c → c.arg 2 ≠ 0 → (c.arg 2).toNat ≤ 65536 →
      let g := bits (c.arg 0) 7 0
      let e := if (s.ckGroup g).epoch + 1 = 0 then 1 else (s.ckGroup g).epoch + 1
      ((s.snp.lead.isSome ∨ s.snp.cur.isSome) → Does (.cut id (some hs)) s fun t =>
        t.snp = s.snp ∧ t.mem = s.mem ∧ Answers s t c Code.snapBusy 0 0) ∧
      (s.snp.lead = none → s.snp.cur = none → s.groupOk g = true → s.casCode (s.groupFab g + 8) = 0 →
        (bits (c.arg 0) 63 32 = 0xFFFFFFFF ∨ s.sentPast (BitVec.ofNat 32 (bits (c.arg 0) 63 32)) = false) →
        Does (.cut id (some hs)) s fun t =>
          (∃ l, t.snp.lead = some l ∧ l.epoch = e ∧ l.group = g ∧ l.cmd = some id ∧ l.waiting = s.parts ∧
            l.headSeen = (s.ckGroup g).head ∧ l.record = none) ∧
          (∃ x, t.snp.cur = some x ∧ x.epoch = e ∧ x.group = g ∧ x.lead = s.self ∧ x.phase = .waiting ∧
            x.handles = hs.take (c.arg 2).toNat ∧ x.step = BitVec.ofNat 32 (bits (c.arg 0) 63 32)) ∧
          (t.ckGroup g).epoch = e ∧ (t.ckGroup g).head = (s.ckGroup g).head ∧
          t.field Reg.tsmSnap 63 48 = e.toNat ∧ t.field Reg.tsmSnap 9 9 = 1)) ∧
    (s.live = true →
      (∀ (i : Item) hs, bits i.w2 39 30 ≠ s.self → tagEpoch i.w1 = s.comp.map.epoch →
        (s.snp.cur = none → (s.unitFailed 4 = false ∨ s.unitFailed 5 = false) →
          (bits i.w3 63 32 = 0xFFFFFFFF ∨ s.sentPast (BitVec.ofNat 32 (bits i.w3 63 32)) = false) →
          Does (.cutItem i hs) s fun t => (∃ x, t.snp.cur = some x ∧ x.phase = .waiting ∧ x.epoch.toNat = bits i.w2 63 48 ∧
            x.group = bits i.w2 47 40 ∧ x.lead = bits i.w2 39 30 ∧ x.handles = hs.take (bits i.w3 31 0)) ∧
            t.snp.lead = s.snp.lead ∧ t.mem = s.mem) ∧
        (s.snp.cur = some k → Does (.cutItem i hs) s fun t => t.snp = s.snp ∧
          ∃ w1 w2, Out.toModule (bits i.w2 39 30) 7 (.words 3 [fld 63 48 (bits i.w2 63 48) ||| fld 47 40 (bits i.w2 47 40) |||
            fld 15 0 Code.snapBusy, w1, w2]) ∈ t.out)) ∧
      (s.snp.cur = some k → s.mayMark k = true →
        (k.handles = [] → k.next = 0 → k.gaps = [] → Does (.shardMark [] []) s fun t =>
          t.snp.cur = some { k with phase := .copying, skipped := 0, sessions := [], todo := [], staged := 0 } ∧ t.tsm.leaf = s.tsm.leaf) ∧
        (∀ seen lost, Does (.shardMark seen lost) s fun t => t.snp.cur = none ∨ ∃ x, t.snp.cur = some x ∧ x.phase = .copying ∧
          x.epoch = k.epoch ∧ (∀ p ∈ x.todo, (t.leaf p).wp = true ∧ (t.leaf p).v = true ∧ (t.leaf p).pin = false) ∧
          x.todo.Nodup ∧ ∀ y ∈ t.tsm.tlb, y.1 % 2 ^ 36 ∈ x.todo → y.2.wp = true)) ∧
      (∀ p q u, s.snp.cur = some k → p ∈ k.todo → q ∈ k.todo → q ≠ p → (s.leaf p).poison = false → s.mayCopy k p = true →
        let v := s.stagePage k.staged (s.physOf (p * 65536)) (s.snapDests k p)
        writeDests (v.ckGroup k.group) k.epoch.toNat (s.physOf (p * 65536)) (s.snapDests k p) v = some u →
        Does (.pageCopyComplete p false) s fun t =>
          t.snp.cur = some { k with todo := k.todo.filter fun x => x ≠ p, staged := k.staged + 1 } ∧ (t.leaf p).wp = false ∧ (t.leaf p).cow = k.epoch ∧
          (∀ x, x ≠ p → t.leaf x = s.leaf x) ∧ t.mem = u.mem ∧ p ∉ t.tsm.cow ∧
          t.reg (Reg.tsmCnt 11) = s.reg (Reg.tsmCnt 11) + 1))

/-- Commits (R516, R520 to R522, R526): a durable shard writes its manifest and then reports; the lead gathers the reports, and
its swap of HEAD commits the cairn or fails the cut with SNAP_COMMIT; the lead's notice ends every module's part, and gives
each session its snapshot epoch and record; time-outs end a cut. Where it rests on the model's own choices: log entries 47,
107. -/
def Obligations.SnapshotCommits : Prop :=
  ∀ (s : State) (k : SnapCut), s.live = true →
    (∀ p u v x y w, s.snp.cur = some k → k.phase = .copying → k.todo = [] → s.snapDurable k = true →
      let ws := s.manifestWords k
      s.placeRun (s.ckGroup k.group) k (ceilDiv (8 * ws.length) 65536) = some (p, x, u) →
      writeRun (s.ckGroup k.group) x.epoch.toNat (pageRun p (ceilDiv (8 * ws.length) 65536)) ws u = some v →
      v.padStripes (s.ckGroup k.group) x = some (y, w) →
      Does .shardDurable s fun t => t = w.setCut { y with phase := .manifest, manifest := p }) ∧
    (s.snp.cur = some k → k.phase = .manifest → s.snapDurable k = true →
      (k.lead ≠ s.self → Does .manifestDurable s fun t =>
        t.snp.cur = some { k with phase := .done, doneNs := s.now } ∧ t.reg (Reg.tsmCnt 8) = s.reg (Reg.tsmCnt 8) + 1 ∧
        t.mem = s.mem) ∧
      (∀ l, k.lead = s.self → s.snp.lead = some l → s.self ∈ l.waiting → Does .manifestDurable s fun t =>
        ∃ m, t.snp.lead = some m ∧ s.self ∉ m.waiting ∧ m.shards.length = l.shards.length + 1 ∧ m.epoch = l.epoch)) ∧
    (∀ l m page bytes crc, s.snp.lead = some l → m ≠ s.self → m ∈ l.waiting →
      ((∃ o ∈ l.waiting, o ≠ m) → Does (.shardDone m page bytes crc 0) s fun t =>
        t = { s with snp.lead := some { l with waiting := l.waiting.filter fun x => x ≠ m,
                                               shards := l.shards ++ [ShardRec.mk m page bytes crc] } }) ∧
      (∀ code, code ≠ 0 → l.cmd = none → l.release = none → s.snp.cur = none →
        Does (.shardDone m page bytes crc code) s fun t => t.snp.lead = none ∧ t.mem = s.mem)) ∧
    (∀ l p hc, s.snp.lead = some l → s.snp.cur = some k → l.record = some p → s.snapDurable k = true →
      l.cmd = some hc.id → l.release = none → Open s hc →
      (Does (.cairnRecordDurable l.headSeen) s fun t =>
        t.snp.lead = none ∧ (t.ckGroup l.group).head = cairnRef l.epoch l.group p ∧
        t.reg (Reg.tsmCnt 13) = s.reg (Reg.tsmCnt 13) + 1 ∧ Answers s t hc 0 0 (cairnRef l.epoch l.group p)) ∧
      (∀ w, w ≠ l.headSeen → Does (.cairnRecordDurable w) s fun t =>
        t.snp.lead = none ∧ t.reg (Reg.tsmCnt 13) = s.reg (Reg.tsmCnt 13) ∧ Answers s t hc Code.snapCommit 0 0)) ∧
    (∀ ref seen, s.snp.cur = some k → s.snp.lead = none → bits ref 63 48 = k.epoch.toNat → bits ref 47 40 = k.group →
      (∀ code, code ≠ 0 → Does (.commitNotice ref code seen) s fun t =>
        t.snp.cur = none ∧ t.field Reg.tsmSnap 9 9 = 0 ∧ (∀ p ∈ k.todo, (t.leaf p).wp = false ∧ p ∉ t.tsm.cow)) ∧
      (∀ x, k.phase = .done → k.sessions = [x] → x.home = true → s.handleCode x.hdr.handle = 0 →
        (s.dir x.slot).tracked = true → SMap.lookup s.hmp.releases x.slot = none →
        (let r := recKey (s.hdr x.slot).recAddr
         s.casCode (recAddrOf (r / 2 ^ 32) (r % 2 ^ 32) + 32) = 0) →
        Does (.commitNotice ref 0 []) s fun t =>
          let r := recKey (s.hdr x.slot).recAddr
          t.snp.cur = none ∧ (t.hdr x.slot).snapEpoch = k.epoch ∧ (∀ n, n ≠ x.slot → t.hdr n = s.hdr n) ∧
          t.hmp.dir = s.hmp.dir ∧
          (t.rec_ r).cairn = if (s.rec_ r).cairn = x.cairnSeen then ref else (s.rec_ r).cairn)) ∧
    (s.snp.cur = some k → k.phase = .done → k.doneNs + msec (s.field Reg.tsmSnap 47 32) ≤ s.now →
      (s.snp.lead = none → k.lead ≠ s.self → Does .snapTimeout s fun t => t.snp.cur = none ∧ t.field Reg.tsmSnap 9 9 = 0) ∧
      (∀ l, s.snp.lead = some l → l.waiting ≠ [] → l.epoch = k.epoch → l.group = k.group →
        Does .snapTimeout s fun t => t.snp.lead = none ∧ t.snp.cur = none))

/-- Checkpoint groups (R503, R506, R668, R672): a group's entry is written whole; retiring a cairn frees its extents, a scrub every
extent that nothing kept holds; extent 0 always stays in use. -/
def Obligations.CheckpointGroups : Prop :=
  ∀ (s : State) (id : Nat) (c : HostCmd),
    (let g := bits (c.arg 0) 7 0
     Waits s id 0x40 c → s.dirPool ≠ 0xFF → (s.seg s.dirPool).valid = true → bits (c.arg 1) 63 62 ≤ 1 → bits (c.arg 2) 7 0 = g →
      s.cutInto g = false →
      ((s.ckGroup g).head ≠ 0 → Does (.checkpointGroup id) s fun t => t.mem = s.mem ∧ Answers s t c Code.segInUse 0 0) ∧
      ((s.ckGroup g).head = 0 → (∀ j < 256, (s.seg j).valid = true) → (s.segPort s.dirPool 0).isSome = true → Does (.checkpointGroup id) s fun t =>
        let k := t.ckGroup g
        k.head = 0 ∧ k.epoch = 0 ∧ k.layout = bits (c.arg 1) 63 62 ∧ k.dataPages = bits (c.arg 1) 31 0 ∧
        k.segs = (List.range 8).map (fun j => bits (c.arg 2) (8 * j + 7) (8 * j)) ++ [bits (c.arg 3) 7 0, bits (c.arg 3) 15 8] ∧
        k.extentMap = c.arg 4 ∧ k.dataBase = bits (c.arg 5) 31 0 ∧
        (∀ a, (a < poolAddr (s.groupFab g).toNat ∨ poolAddr (s.groupFab g).toNat + 64 ≤ a) → t.byte a = s.byte a) ∧
        Answers s t c 0 0 0)) ∧
    (∀ pool : PoolSeen,
     let g := bits (c.arg 0) 47 40
     let u := s.seePool pool
     let k := u.ckGroup g
     Waits s id 0x42 c →
      (u.groupOk g = false ∨ u.cairnExtents (c.arg 0) pool = none → Does (.cairnRetire id pool) s fun t =>
        t.mem = u.mem ∧ Answers s t c Code.snapRef 0 0) ∧
      (∀ es, u.groupOk g = true → u.cairnExtents (c.arg 0) pool = some es → Does (.cairnRetire id pool) s fun t =>
        (∀ e, e ≠ 0 → t.extentUsed k e = (u.extentUsed k e && !(es.contains e && e < k.extents))) ∧ Answers s t c 0 0 0)) ∧
    (∀ pool : PoolSeen,
     let g := bits (c.arg 0) 7 0
     let u := s.seePool pool
     let k := u.ckGroup g
     Waits s id 0x43 c → u.groupOk g = true →
      (Does (.groupScrub id none pool) s fun t => t.mem = u.mem ∧ Answers s t c Code.hostDma 0 0) ∧
      (∀ rs, u.keptExtents pool (rs.take (c.arg 2).toNat) = none → Does (.groupScrub id (some rs) pool) s fun t =>
        t.mem = u.mem ∧ Answers s t c Code.snapRef 0 0) ∧
      (∀ rs ks, u.keptExtents pool (rs.take (c.arg 2).toNat) = some ks → Does (.groupScrub id (some rs) pool) s fun t =>
        (∀ e, e ≠ 0 → e < k.extents → t.extentUsed k e = (u.extentUsed k e && (ks.contains e || (s.heldExtents g).contains e))) ∧
        Answers s t c 0 0 0))

/-- Restores (R106, R126, R130, R134, R523 to R525): a restore takes its slot under the next generation and builds the share,
which is RESTORING; a shard builds its own and tells its home; a completed one is PARKED, its record taken over from the
pool, and its shards follow; a failed one frees the slot. Where it rests on the model's own choices: log entries 48, 98. -/
def Obligations.Restores : Prop :=
  ∀ (s : State) (id : Nat) (c : HostCmd),
    (∀ pool : PoolSeen,
     let it : Item := { w0 := c.session, w1 := fld 35 32 5 ||| fld 15 0 c.epoch.toNat, w2 := c.arg 0, w3 := c.arg 1,
                        w4 := c.arg 2, w5 := c.arg 3, w6 := c.arg 4 }
     let slot := restSlot it
     Waits s id 0x15 c → ∀ owners : List (Word × Word),
      (s.restoreCode it ≠ 0 → Does (.restore id (some owners) pool) s fun t =>
        t.hmp = s.hmp ∧ t.snp = s.snp ∧ t.mem = s.mem ∧ Answers s t c (s.restoreCode it) 0 0) ∧
      (s.restoreCode it = 0 → (s.dir slot).state = .free →
        let p := s.seePool pool
        let w := (p.began id).advanceGen slot
        let v := w.sendAll 5 (.words 6 { it with w0 := w.newHandle slot }.words)
        let own := owners.take (bits it.w6 63 48)
        let shards := p.readCairn it.w2 pool
        (∀ code, v.buildShare it own shards .home (w.newHandle slot) = .error code → Does (.restore id (some owners) pool) s fun t =>
          (t.dir slot).state = .free ∧ (t.dir slot).gen = nextGen (s.dir slot).gen ∧ t.snp = s.snp ∧ Answers s t c code 0 0) ∧
        (∀ u, v.buildShare it own shards .home (w.newHandle slot) = .ok u → Does (.restore id (some owners) pool) s fun t =>
          (t.dir slot).state = .restoring ∧ (t.dir slot).kind = .home ∧ (t.dir slot).gen = nextGen (s.dir slot).gen ∧
          t.busy slot = true ∧ (t.hdr slot).origin = it.w3 ∧ t.mem = u.mem ∧
          t.snp.restores = s.snp.restores ++ [{ slot := slot, cmd := some id, item := it, built := true, claim := none }]))) ∧
    (s.live = true →
      (∀ (i : Item) owners pool, (restSlot i < s.field Reg.hmpDirRange 21 0 ∨ s.field Reg.hmpDirRange 53 32 < restSlot i) →
        (s.dir (restSlot i)).state = .free →
        let p := s.seePool pool
        (∀ u, p.buildShare i (owners.take (bits i.w6 63 48)) (p.readCairn i.w2 pool) .shard i.w0 = .ok u →
          Does (.restoreItem i owners pool) s fun t =>
            (t.dir (restSlot i)).state = .restoring ∧ (t.dir (restSlot i)).kind = .shard ∧
            (t.dir (restSlot i)).gen = hGen i.w0 ∧ t.snp = s.snp ∧ t.mem = u.mem ∧
            Out.toModule (hModule i.w0) 7 (.shareDone i.w0 0) ∈ t.out) ∧
        (∀ code, p.buildShare i (owners.take (bits i.w6 63 48)) (p.readCairn i.w2 pool) .shard i.w0 = .error code →
          Does (.restoreItem i owners pool) s fun t =>
            t.hmp = s.hmp ∧ t.snp = s.snp ∧ Out.toModule (hModule i.w0) 7 (.shareDone i.w0 code) ∈ t.out)) ∧
      (∀ r : Restoring, s.snp.restores = [r] → r.cmd = some c.id → r.claim = none → Open s c →
        (∀ code seen, code ≠ 0 → code < 8192 → s.Alone r.slot → Does (.restoreComplete r.slot code seen) s fun t =>
          (t.dir r.slot).state = .free ∧ (t.dir r.slot).gen = nextGen (s.dir r.slot).gen ∧ t.snp.restores = [] ∧
          Answers s t c code 0 0) ∧
        (s.dirPool = 0xFF → Does (.restoreComplete r.slot 0 none) s fun t =>
          (t.dir r.slot).state = .parked ∧ (t.hdr r.slot).parkedNs = s.now ∧ t.snp.restores = [] ∧
          t.reg (Reg.tsmCnt 14) = s.reg (Reg.tsmCnt 14) + 1 ∧ OtherDirs s t r.slot ∧
          Follows s t r.slot .park c (s.hdr r.slot).handle) ∧
        (s.dirPool ≠ 0xFF → s.dirCode ≠ 0 → s.Alone r.slot → Does (.restoreComplete r.slot 0 none) s fun t =>
          (t.dir r.slot).state = .free ∧ t.snp.restores = [] ∧ Answers s t c s.dirCode 0 0) ∧
        (∀ k p, s.dirPool ≠ 0xFF → s.dirCode = 0 → s.self < 1024 → s.findRec (s.hdr r.slot).origin = .found k →
          s.recCode (recAddrOf (k / 2 ^ 32) (k % 2 ^ 32)) = 0 →
          (s.rec_ k).state = .held → (s.rec_ k).holder = .pool p → Does (.restoreComplete r.slot 0 none) s fun t =>
            (t.dir r.slot).state = .parked ∧ (t.dir r.slot).tracked = true ∧ (t.rec_ k).holder = .module s.self ∧
            (t.rec_ k).custody = (s.rec_ k).custody + 1 ∧ (t.hdr r.slot).custody = (s.rec_ k).custody + 1 ∧
            (t.rec_ k).current = (s.hdr r.slot).handle ∧ Follows s t r.slot .park c (s.hdr r.slot).handle)) ∧
      (∀ (e : EmptyClaim) pool, s.hmp.empties = [e] → e.sinceNs + s.custodyTimeout ≤ s.now → s.snp.restores = [] →
        s.recCode (recAddrOf (e.key / 2 ^ 32) (e.key % 2 ^ 32)) = 0 →
        let p := s.seePool pool
        let r := s.rec_ e.key
        (r.holder ≠ .module s.self → Does (.emptyClaimRestore r.origin pool none) s fun t =>
          t = { p with hmp.empties := [] }) ∧
        (∀ slot u, r.state = .held → r.holder = .module s.self → r.cairn ≠ 0 → p.freeSlot = some slot → slot < 4194304 →
          (s.dir slot).state = .free →
          let shards := p.readCairn r.cairn pool
          let model := ((homeView (shards.getD []) r.origin).map fun x => x.2.model).getD 0
          let it : Item := { w1 := fld 35 32 5, w2 := r.cairn, w3 := r.origin,
                             w4 := fld 63 60 model ||| fld 59 56 1 ||| fld 55 52 r.tclass ||| fld 21 0 slot }
          let w := p.advanceGen slot
          (w.sendAll 5 (.words 6 { it with w0 := w.newHandle slot }.words)).buildShare it [] shards .home (w.newHandle slot) = .ok u →
          Does (.emptyClaimRestore r.origin pool none) s fun t =>
            (t.dir slot).state = .restoring ∧ ∃ x ∈ t.snp.restores, x.slot = slot ∧ x.claim = some e.key)))

/-! ### The host port (ch. 18) -/

/-- One queue pair changes, nothing else of either function. -/
def Sys2Proof.Machine.OnePair (s t : State) (f q : Nat) (p : QPair) : Prop :=
  (t.fn f).qp q = p ∧ (∀ j, j ≠ q → (t.fn f).qp j = (s.fn f).qp j) ∧ (∀ g, g ≠ f → t.fn g = s.fn g) ∧
    (t.fn f).attn = (s.fn f).attn ∧ (t.fn f).enable = (s.fn f).enable ∧ t.regs = s.regs ∧ t.mem = s.mem ∧ t.out = s.out

/-- The host port (R658 to R664, R667, R676, R681): resets return a function's registers and silence its commands; rings are
enabled with a size of R681, and an index outside its ring sets ERROR; attention bits are cleared by writing 1, but for
those set in the cycle of the write, and set again while their condition lasts; a fetched command waits, or is answered with
the first refusal of R667; a port that does not answer changes nothing. Where it rests on the model's own choices: log
entries 19, 40. -/
def Obligations.HostPort : Prop :=
  ∀ (s : State) (f : Fin 2) (q : Fin 16) (v : Word),
    let p := (s.fn f.val).qp q.val
    (s.portUp = false → Ignored .hostPortReset s ∧ Ignored (.functionLevelReset f) s ∧ Ignored (.qcfgWrite f q v) s ∧
      Ignored (.sqTailWrite f q v) s ∧ Ignored (.cqHeadWrite f q v) s ∧ ∀ m, Ignored (.attnClear f v m) s) ∧
    (s.portUp = true →
      (Does .hostPortReset s fun t => t.fn 0 = {} ∧ t.fn 1 = {} ∧ t.regs = s.regs ∧
        t.host.cmds.length = s.host.cmds.length ∧ ∀ c ∈ t.host.cmds, c.fn < 2 → c.silent = true) ∧
      (Does (.functionLevelReset f) s fun t => t.fn f.val = { ideSecure := (s.fn f.val).ideSecure } ∧
        (∀ g, g ≠ f.val → t.fn g = s.fn g) ∧ t.regs = s.regs ∧
        t.host.cmds = s.host.cmds.map fun c => if c.fn = f.val then { c with silent := true } else c) ∧
      (Does (.ideStateChange f false) s fun t => (t.fn f.val).ideSecure = false ∧ (t.fn f.val).held = (s.fn f.val).held ∧
        t.out = s.out) ∧
      (∀ h, (s.fn f.val).held = [h] → h.code < 8192 → Does (.ideStateChange f true) s fun t => (t.fn f.val).ideSecure = true ∧
        (t.fn f.val).held = [] ∧ ∃ x, t.out = s.out ++ [.completion x] ∧ bits x.r0 60 48 = h.code ∧ x.r1 = h.detail ∧
          x.r2 = h.data ∧ x.r3 = BitVec.ofNat 64 h.doneNs) ∧
      (let sq := bits v 12 0
       let cq := bits v 28 16
       (p.en = true → bit v 63 = true → Ignored (.qcfgWrite f q v) s) ∧
       (p.en = false → bit v 63 = true → ringSizeOk sq = true → ringSizeOk cq = true → Does (.qcfgWrite f q v) s fun t =>
         OnePair s t f.val q.val { p with en := true, sqSize := sq, cqSize := cq, sqHead := 0, cqTail := 0, phase := true }) ∧
       (p.en = false → bit v 63 = true → (ringSizeOk sq = false ∨ ringSizeOk cq = false) → Does (.qcfgWrite f q v) s fun t =>
         OnePair s t f.val q.val { p with sqSize := sq, cqSize := cq, error := true }) ∧
       (p.en = true → bit v 63 = false → Does (.qcfgWrite f q v) s fun t =>
         OnePair s t f.val q.val { p with en := false, error := false } ∧
         ∀ c ∈ t.host.cmds, c.fn = f.val → c.qp = q.val → c.silent = true)) ∧
      (Does (.sqTailWrite f q v) s fun t => t.host.cmds = s.host.cmds ∧
        OnePair s t f.val q.val { p with tail := bits v 11 0, error := p.error || (p.en && p.sqSize ≤ bits v 11 0) }) ∧
      (Does (.cqHeadWrite f q v) s fun t => t.host.cmds = s.host.cmds ∧
        OnePair s t f.val q.val { p with headReg := bits v 11 0, error := p.error || (p.en && p.cqSize ≤ bits v 11 0) }) ∧
      (∀ m : Word, Does (.attnClear f v m) s fun t => (m = 0 → ∀ g, g ≠ f.val → t.fn g = s.fn g) ∧
        ∀ i < 8, (t.fn f.val).attn.getLsbD i =
          ((s.fn f.val).attn.getLsbD i && !(1 ≤ i && v.getLsbD i) || (1 ≤ i && m.getLsbD i))) ∧
      (Does (.attentionReassert f) s fun t => ∀ i < 8,
        (t.fn f.val).attn.getLsbD i = ((s.fn f.val).attn.getLsbD i || i ∈ s.attnConditions))) ∧
    (s.live = true → s.mayFetch f.val q.val = true → (∀ x ∈ s.host.cmds, x.id ≠ s.host.nextId) →
      (Does (.commandFetch f q none) s fun t => t.host.cmds = s.host.cmds ∧ OnePair s t f.val q.val { p with error := true }) ∧
      (∀ r : Item,
        let c := cmdOf s.host.nextId f.val q.val s.now r
        let code := s.refusalCode c r.w0
        (code = 0 → Does (.commandFetch f q (some r)) s fun t => t.host.cmds = s.host.cmds ++ [c] ∧
          t.host.nextId = s.host.nextId + 1 ∧ OnePair s t f.val q.val { p with sqHead := (p.sqHead + 1) % p.sqSize }) ∧
        (code ≠ 0 → Does (.commandFetch f q (some r)) s fun t => t.host.cmds = s.host.cmds ∧
          ((t.fn f.val).qp q.val).sqHead = (p.sqHead + 1) % p.sqSize ∧
          ∃ x, t.out = s.out ++ [.completion x] ∧ bits x.r0 60 48 = code ∧ bits x.r0 15 0 = bits r.w0 15 0 ∧
            bits x.r0 39 32 = bits r.w0 63 56))) ∧
    (s.live = true → s.mayFetch f.val q.val = false → ∀ r, Ignored (.commandFetch f q r) s)

/-- Host commands that belong to no unit, FERRY and SPAN (R165, R664, R668, R677): NOP answers; WATCH answers at once when a
masked bit is set, else waits for it or for its time; READ_REGS writes the registers' values to the host; FERRY claims its
pages as a ferry request, or answers with their outcome; SPAN goes to every module and to this module's span queue, and what
the span engine does with it ends the command. Where it rests on the model's own choices: log entry 42. -/
def Obligations.HostCommands : Prop :=
  ∀ (s : State) (id : Nat) (c : HostCmd),
    (Waits s id 0x00 c → Does (.hostNop id) s fun t => t.regs = s.regs ∧ t.mem = s.mem ∧ Answers s t c 0 0 0) ∧
    (Waits s id 0x01 c →
      let a := (s.fn c.fn).attn.toNat / 2 * 2
      ((a &&& (bits (c.arg 0) 7 1 * 2)) ≠ 0 → Does (.watch id) s fun t => Answers s t c 0 (BitVec.ofNat 64 a) 0) ∧
      ((a &&& (bits (c.arg 0) 7 1 * 2)) = 0 → Does (.watch id) s fun t => t.out = s.out ∧
        ∃ d ∈ t.host.cmds, d.id = id ∧ d.began = true ∧ d.sinceNs = s.now)) ∧
    (Open s c → c.opcode = 0x01 → c.began = true →
      (c.sinceNs + msec (bits (c.arg 0) 63 32) ≤ s.now → Does (.watchTimeout c.id) s fun t =>
        Answers s t c 0 (BitVec.ofNat 64 ((s.fn c.fn).attn.toNat / 2 * 2)) 0) ∧
      (s.now < c.sinceNs + msec (bits (c.arg 0) 63 32) → Ignored (.watchTimeout c.id) s)) ∧
    (let b := bits (c.arg 0) 63 56
     let r := bits (c.arg 0) 55 40
     let n := bits (c.arg 0) 15 0 + 1
     Waits s id 0x02 c →
      (r + n ≤ blockSize b → Does (.readRegs id true) s fun t =>
        Out.hostWrite c.fn (c.arg 1) ((List.range n).map fun i => s.readReg (b * 65536 + r + i)) ∈ t.out ∧
        t.regs = s.regs ∧ Answers s t c 0 0 0) ∧
      (blockSize b < r + n → ∀ ok, Does (.readRegs id ok) s fun t => Answers s t c Code.invalidField 0 0) ∧
      (r + n ≤ blockSize b → Does (.readRegs id false) s fun t => ((t.fn c.fn).qp c.qp).error = true ∧ t.regs = s.regs)) ∧
    (let it : Item := { w2 := c.arg 0, w3 := c.arg 1, w4 := c.arg 2 }
     let w := ferryWant it
     let p := it.w2.toNat / 65536
     Waits s id 0x18 c →
      (ferryCount it = 1 → ∀ dst loc, s.claimCheck p w = .claim dst loc → Does (.ferry id) s fun t =>
        t.leaf p = { s.leaf p with ferry := true, ferryId := s.tsm.nextFerryId } ∧ (∀ q, q ≠ p → t.leaf q = s.leaf q) ∧
        (∃ op, SMap.lookup t.tsm.ops p = some op ∧ op.stage = .claim ∧ op.ferryId = s.tsm.nextFerryId ∧ op.isDrop = w.isDrop ∧
          op.dst = dst ∧ op.dstLoc = loc) ∧
        (∃ r ∈ t.tsm.reqs, r.origin = .host id ∧ r.waiting = 1) ∧ t.mem = s.mem ∧ t.out = s.out ∧
        ∃ d ∈ t.host.cmds, d.id = id ∧ d.began = true) ∧
      (ferryCount it = 1 → ∀ o, s.claimCheck p w = .ended o → Does (.ferry id) s fun t =>
        let x := resultItem 0 0 [(p, o)] fun q => BitVec.ofNat 64 (q * 65536)
        t.tsm.leaf = s.tsm.leaf ∧ t.tsm.ops = s.tsm.ops ∧ t.mem = s.mem ∧ Answers s t c (bits x.w3 15 0) x.w2 x.w4) ∧
      ((∀ q ∈ pageRun p (ferryCount it), ∃ dst loc, s.claimCheck q w = .claim dst loc) → 1 ≤ ferryCount it → Does (.ferry id) s fun t =>
        (t.leaf p).ferry = true ∧ t.mem = s.mem ∧ ∃ r ∈ t.tsm.reqs, r.origin = .host id ∧ 0 < r.waiting)) ∧
    (let it : Item := { w0 := c.session, w1 := fld 44 44 (bnat c.reissue) ||| fld 35 32 4 ||| fld 15 0 c.epoch.toNat,
                        w2 := c.arg 0, w3 := c.arg 1, w4 := c.arg 2 }
     let q := s.field Reg.kvsControl 8 0
     (Waits s id 0x19 c →
      (s.homeCode c.session ≠ 0 → Does (.span id []) s fun t => t.kvs = s.kvs ∧ Answers s t c (s.homeCode c.session) 0 0) ∧
      (∀ shares, s.homeCode c.session = 0 → s.qDepth q ≠ 0 → Does (.span id shares) s fun t =>
        (∀ m ∈ s.peers, Out.toModule m 4 (.spanRequest it) ∈ t.out) ∧
        ∃ v, let i : Item := { it with w1 := setBits it.w1 31 0 v }
          t.kvs.asks = s.kvs.asks ++ [SpanAsk.mk i (.host id)] ∧
          ((s.queue q).items.length < s.qDepth q → (t.queue q).items = (s.queue q).items ++ [⟨0, i, false⟩])) ∧
      (s.homeCode c.session = 0 → s.qDepth q = 0 → 1 ≤ spanCount it → Does (.span id []) s fun t =>
        t.kvs = s.kvs ∧ ∃ d1 d2, Answers s t c Code.queueDisabled d1 d2)) ∧
     (∀ i : Item, Open s c → s.kvs.asks = [SpanAsk.mk i (.host c.id)] → c.waitMods = [s.comp.map.ringPos] → c.spanRes = [] →
      tagEpoch i.w1 = s.comp.map.epoch → spanOp i = 6 → s.spanCode i = 0 → spanCount i = 1 →
      s.entryLost (hSlot i.w0) (spanFirst i) = false → (s.span (hSlot i.w0) (spanFirst i)).res ≠ .empty →
      Does (.spanPin i) s fun t => (t.span (hSlot i.w0) (spanFirst i)).pinned = true ∧ t.kvs.asks = [] ∧
        ∃ d1 d2, Answers s t c 0 d1 d2))

/-! ### Trail links, fabric and composition (ch. 15) -/

/-- A flit without a frame leaves a port: 30 payload words and the CRC in the last, under a control word of a type (R568). -/
def Sys2Proof.Machine.SentFlit (s t : State) (p ftype : Nat) (payload : List Word) : Prop :=
  ∃ ws w, t.out = s.out ++ [.flit p [] ws w] ∧ bits w 63 60 = ftype ∧ ws.length = 31 ∧
    ws.take 30 = payload ++ List.replicate (30 - payload.length) 0 ∧
    bits (ws.getD 30 0) 31 0 = (crcWords (ws.take 30 ++ [w])).toNat

/-- Trail ports (R565, R568 to R576, R593): FEC lock starts bring-up and its loss ends it; INIT flits are sent and checked, and
a neighbour that is not the map's locks the port; the port is UP when both sides have sent INIT_DONE; flits are accepted in
order, acknowledged and replayed, a bad one is counted; a frame for another module is forwarded, a good item or data frame
for this one is taken. Where it rests on the model's own choices: log entries 43, 108, 112. -/
def Obligations.TrailLinks : Prop :=
  ∀ (s : State) (port : Fin 8), s.live = true →
    let p := port.val
    let x := s.trailPort p
    let others := fun (t : State) => ∀ j, j ≠ p → t.trailPort j = s.trailPort j
    (Does (.fecLock port) s fun t => (t.trailPort p).fec = true ∧ others t ∧ t.trlState p =
      (if s.trlState p = 0 ∧ s.trlEnabled p = true ∧ s.miswired p = false ∧ 2 ≤ s.comp.map.modules then 1 else s.trlState p)) ∧
    (s.trlState p ≠ 0 → Does (.fecLockLoss port) s fun t => t.trlState p = 0 ∧
      t.reg (Reg.trlCnt 3) = s.reg (Reg.trlCnt 3) + 1 ∧ t.reg (Reg.fltCnt 5) = s.reg (Reg.fltCnt 5) + 1) ∧
    (s.trlState p = 0 → Does (.fecLockLoss port) s fun t => t = s.setTrl p { x with fec := false }) ∧
    (s.trlState p = 0 → s.trlEnabled p = true → s.miswired p = false → 2 ≤ s.comp.map.modules →
      (x.downNs + msec (s.field Reg.trlControl 39 24) ≤ s.now → Does (.retrain port) s fun t => t.trlState p = 1 ∧ others t) ∧
      (s.now < x.downNs + msec (s.field Reg.trlControl 39 24) → Ignored (.retrain port) s)) ∧
    (s.trlState p = 1 → x.fec = true →
      (Does (.initSend port) s fun t => SentFlit s t p 3 (s.initPayload p) ∧ others t) ∧
      (x.sentDone = true → Does (.initDoneRx port) s fun t => t.trlState p = 2) ∧
      (x.sentDone = false → Does (.initDoneRx port) s fun t => t.trlState p = 1 ∧ (t.trailPort p).gotDone = true) ∧
      (∀ i : InitFlit, i.kind = 0x7A11 → i.version = 1 →
        (i.module = s.neighbour (isNext p) → i.port = partner p → i.modules = s.comp.map.modules → i.epoch = s.comp.map.epoch →
          Does (.initRx port i) s fun t => (t.trailPort p).sentDone = true ∧ (t.trailPort p).grants = i.grants ∧
            t.trlState p = (if x.gotDone then 2 else 1) ∧ t.field (Reg.trlPort p) 60 51 = i.module ∧
            t.field (Reg.trlPort p) 50 48 = i.port) ∧
        ((i.module ≠ s.neighbour (isNext p) ∨ i.port ≠ partner p ∨ i.modules ≠ s.comp.map.modules) →
          Does (.initRx port i) s fun t => t.trlState p = 0 ∧ t.miswired p = true ∧
            t.reg (Reg.trlCnt 4) = s.reg (Reg.trlCnt 4) + 1))) ∧
    (s.trlState p = 2 →
      (x.unacked ≠ [] → x.ackNs + usec (s.field Reg.trlControl 63 48) ≤ s.now →
        (x.retries < s.field Reg.trlControl 47 40 → Does (.replayTimeout port) s fun t =>
          (t.trailPort p).retries = x.retries + 1 ∧ (t.trailPort p).ackNs = s.now ∧ (t.trailPort p).unacked = x.unacked ∧
          (t.trailPort p).waiting = x.waiting ∧ others t ∧ t.trlState p = 2 ∧
          t.reg (Reg.trlCnt 1) = s.reg (Reg.trlCnt 1) + BitVec.ofNat 64 x.unacked.length) ∧
        (s.field Reg.trlControl 47 40 ≤ x.retries → Does (.replayTimeout port) s fun t => t.trlState p = 0)) ∧
      (∀ f : Flit, (f.good = false ∨ 5 ≤ f.ftype) → Does (.flitRx port f) s fun t =>
        t.reg (Reg.trlCnt 2) = s.reg (Reg.trlCnt 2) + 1 ∧ (t.trailPort p).naked = true ∧ (t.trailPort p).expect = x.expect ∧
        (x.naked = true → t.out = s.out) ∧ (x.naked = false → SentFlit s t p 2 [])) ∧
      (∀ f : Flit, f.good = true → f.ftype = 1 → f.fseq = x.expect → x.waiting = [] → x.cur = [] → Does (.flitRx port f) s fun t =>
        (t.trailPort p).expect = x.expect + 1 ∧ (t.trailPort p).naked = false ∧ others t ∧
        (∀ i, x.unacked.findIdx? (fun u => u.seq = f.ack) = some i → (t.trailPort p).unacked = x.unacked.drop (i + 1) ∧
          (t.trailPort p).retries = 0))) ∧
    (s.plat.parkedSince = none →
      (∀ f : Frame, f.head.dest ≠ s.self → s.ringDist f.head.dest ≠ none →
        (Does (.itemFrame port f) s fun t => t.reg (Reg.trlCnt 5) = s.reg (Reg.trlCnt 5) + 1 ∧ t.hq = s.hq ∧ t.mem = s.mem) ∧
        (Does (.larderDataFrame port f) s fun t => t.reg (Reg.trlCnt 5) = s.reg (Reg.trlCnt 5) + 1 ∧ t.hq = s.hq ∧ t.mem = s.mem)) ∧
      (∀ f : Frame, f.head.dest = s.self →
        let h := f.head
        let i := itemOf f
        ((h.mtype ≠ 0 ∨ h.bodyLen ≠ 48) → Does (.itemFrame port f) s fun t =>
          t.reg (Reg.trlCnt 6) = s.reg (Reg.trlCnt 6) + 1 ∧ t.hq = s.hq ∧ t.mem = s.mem) ∧
        (h.mtype = 0 → h.bodyLen = 48 → tagBad i.w1 = false → tagEpoch i.w1 = s.comp.map.epoch →
          (s.queue h.queue).items.length < s.qDepth h.queue →
          s.duplicate (seqKey (frameSender h) (s.qReader h.queue) (tagClass i.w1)) i.w1 = false →
          Does (.itemFrame port f) s fun t => (t.queue h.queue).items = (s.queue h.queue).items ++ [⟨h.prio, i, false⟩]) ∧
        (h.mtype = 1 → 128 ≤ h.bodyLen → h.bodyLen ≤ 65536 → h.bodyLen % 128 = 0 → 128 * h.la + h.bodyLen ≤ larderBytes →
          tagBad h.tag1 = false → tagEpoch h.tag1 = s.comp.map.epoch → f.body.length = h.bodyLen →
          s.duplicate (seqKey (frameSender h) 15 h.cls) h.tag1 = false →
          Does (.larderDataFrame port f) s fun t => (∀ a, t.byte a =
            if larderAddr h.die (128 * h.la) ≤ a ∧ a < larderAddr h.die (128 * h.la) + h.bodyLen
            then f.body.getD (a - larderAddr h.die (128 * h.la)) 0 else s.byte a) ∧
            (bit h.tag1 40 = true → isReclaim h.tally = false → t.tally h.tally = s.tally h.tally + 1) ∧
            (bit h.tag1 40 = false → t.tly = s.tly))))

/-- Fabric ports, maps and charging (R579 to R590, R597, R668, R693): an access leaves the tracker with its bytes counted, and a
failed or late one of a cut aborts the cut; a swap writes when the old value was expected; links go down and up; DEPTH
follows R588; an accepted map waits, takes effect between steps while the former one drains, and opens a charge record.
Where it rests on the model's own choices: log entries 44, 116. -/
def Obligations.FabricAndMaps : Prop :=
  ∀ (s : State) (port : Fin 4), s.live = true →
    let k := Reg.fabPort port.val
    (∀ a : FabAcc, s.fab.accs.find? (fun x => x.id = a.id && x.issued) = some a →
      (Does (.fabricCompletion a.id true) s fun t =>
        t.fab.accs.map (·.id) = (s.fab.accs.filter fun x => x.id ≠ a.id).map (·.id) ∧
        t.reg (Reg.fabCnt (if a.write then 1 else 0)) = s.reg (Reg.fabCnt (if a.write then 1 else 0)) + 65536) ∧
      (∀ c e, s.snp.cur = some c → c.phase ≠ .done → a.use = .snap e →
        (Does (.fabricCompletion a.id false) s fun t => t.snp.cur = none ∧ ∀ x ∈ t.fab.accs, x.id ≠ a.id) ∧
        (a.sinceNs + usec (s.field Reg.fabControl 63 48) ≤ s.now → Does (.fabricTimeout a.id) s fun t =>
          t.snp.cur = none ∧ ∀ x ∈ t.fab.accs, x.id ≠ a.id)) ∧
      (s.now < a.sinceNs + usec (s.field Reg.fabControl 63 48) → Ignored (.fabricTimeout a.id) s)) ∧
    (∀ addr expected value old, s.casCode addr = 0 → Does (.fabricCasComplete addr expected value old) s fun t =>
      t.readWord (poolAddr addr.toNat) = (if old = expected then value else old) ∧
      t.reg (Reg.fabCnt 2) = s.reg (Reg.fabCnt 2) + 1 ∧
      t.reg (Reg.fabCnt 3) = s.reg (Reg.fabCnt 3) + (if old = expected then 0 else 1)) ∧
    (bit (s.reg k) 63 = true → Does (.fabricLinkDown port) s fun t => bit (t.reg k) 63 = false ∧
      t.reg (Reg.fltCnt 5) = s.reg (Reg.fltCnt 5) + 1 ∧ t.field Reg.fltLog 63 32 = (s.field Reg.fltLog 63 32 + 1) % 2 ^ 32) ∧
    (bit (s.reg k) 63 = false → Ignored (.fabricLinkDown port) s) ∧
    (∀ w slow, Does (.fabricLinkUp port w slow) s fun t => bit (t.reg k) 63 = true ∧ t.field k 62 61 = w.val ∧
      bit (t.reg k) 60 = slow ∧ ∀ j, j ≠ k → t.reg j = s.reg j) ∧
    (∀ ns, s.due (tickPrefetch + port.val) 100000 → Does (.prefetchInterval port ns) s fun t => t.field k 7 0 = s.prefetchDepth ns ∧
      (s.field k 7 0 ≠ s.prefetchDepth ns → t.reg (Reg.fabCnt 7) = s.reg (Reg.fabCnt 7) + 1)) ∧
    (s.loaded = true → s.due tickCharge 1000000 → Does .chargeTick s fun t => t.reg (s.chargeKey 3) = s.reg (s.chargeKey 3) + 1 ∧
      t.reg (s.chargeKey 5) = s.reg (s.chargeKey 5) + BitVec.ofNat 64 (s.comp.map.modules - 1)) ∧
    (∀ id c bs, Waits s id 0x05 c → s.comp.next = none →
      let m := CompMap.ofBytes bs
      (s.mapCode m = 0 → Does (.recompose id (some bs)) s fun t => t.comp.next = some m ∧ t.comp.nextCmd = some id ∧
        t.comp.map = s.comp.map ∧ ∃ d ∈ t.host.cmds, d.id = id ∧ d.began = true) ∧
      (s.mapCode m ≠ 0 → Does (.recompose id (some bs)) s fun t => t.comp = s.comp ∧ Answers s t c (s.mapCode m) 0 0)) ∧
    (∀ m c w, s.comp.next = some m → s.fw.cur = none → s.comp.held = [] → s.comp.nextCmd = some c.id → Open s c →
      ({ s with comp.map := m }.neighbour true, { s with comp.map := m }.neighbour false) =
        (s.neighbour true, s.neighbour false) →
      Does (.mapInstall w) s fun t => t.comp.map = m ∧ t.comp.old = some s.comp.map ∧ t.comp.drainSince = s.now ∧
        t.comp.drainNs = msec (s.field Reg.fabControl 47 42) ∧ t.comp.next = none ∧ t.field Reg.pltCharge 3 0 = (s.field Reg.pltCharge 3 0 + 1) % 16 ∧
        bits (t.reg (t.chargeKey 0)) 63 48 = m.epoch.toNat ∧ t.reg (t.chargeKey 1) = BitVec.ofNat 64 s.now ∧
        Answers s t c 0 (BitVec.ofNat 64 m.epoch.toNat) 0) ∧
    (s.comp.drainSince + s.comp.drainNs ≤ s.now → Does .drainEnd s fun t => t = { s with comp.old := none }) ∧
    (s.now < s.comp.drainSince + s.comp.drainNs → Ignored .drainEnd s) ∧
    (Does .heldItemTimeout s fun t => t.comp.held = s.comp.held.filter fun h => s.now < h.untilNs)

/-! ### Faults (ch. 19) -/

/-- Faults (R683 to R698): a unit fault sets its bit, fences the unit at the third within an hour and raises UNIT; a self-test
restores a unit that is not fenced; a discarded step keeps every committed length, tells or answers the other modules and
runs again, or is given up after three; a stall is probed until every module answers, and a silent one is absent; a MODULE
fault stops the module; a lost item's work ends with ITEM_ECC after 10 s. Where it rests on the model's own choices: log
entries 72, 73, 110. -/
def Obligations.Faults : Prop :=
  ∀ s : State, s.live = true →
    (∀ unit : Fin 8, let u := unit.val
      (s.unitFailed u = false → Does (.unitFault unit) s fun t => t.unitFailed u = true ∧
        bit (t.reg Reg.fltUnits) (8 + u) = (bit (s.reg Reg.fltUnits) (8 + u) || 3 ≤ (s.faultTimes u).length) ∧
        (∀ j < 8, j ≠ u → t.unitFailed j = s.unitFailed j) ∧ t.reg (Reg.fltCnt 3) = s.reg (Reg.fltCnt 3) + 1 ∧
        (t.fn 0).attn.getLsbD 6 = true ∧ (t.fn 1).attn.getLsbD 6 = true ∧
        (u = 6 → t.seu.rankings = [] ∧ t.seu.store = [] ∧ t.seu.pools = []) ∧ (u = 0 → t.txt.cached = [])) ∧
      (s.unitFailed u = true → Ignored (.unitFault unit) s) ∧
      (s.unitFailed u = true → bit (s.reg Reg.fltUnits) (8 + u) = false → Does (.unitSelftestDone unit true) s fun t =>
        t.unitFailed u = false ∧ (∀ j < 8, j ≠ u → t.unitFailed j = s.unitFailed j) ∧
        t.reg (Reg.fltCnt 4) = s.reg (Reg.fltCnt 4) + 1) ∧
      (bit (s.reg Reg.fltUnits) (8 + u) = true → ∀ pass, Ignored (.unitSelftestDone unit pass) s) ∧
      Ignored (.unitSelftestDone unit false) s) ∧
    (∀ r : StepRun, s.fw.cur = some r →
      let gone := fun (t : State) => (∃ q, t.fw.cur = some q ∧ q.aborted = true ∧ q.reports = [] ∧ q.tries = r.tries + 1 ∧
          q.batch = r.batch) ∧ t.fw.step = s.fw.step ∧
        ∀ h ∈ r.open_ ++ r.shards, (t.hdr (hSlot h)).specLen = (s.hdr (hSlot h)).commitLen ∧
          (t.hdr (hSlot h)).commitLen = (s.hdr (hSlot h)).commitLen
      (r.aborted = false →
        (s.ownAbort = true → Does (.stepAbort r.n s.self) s fun t => gone t ∧
          ∀ m ∈ s.peers, Out.toModule m 7 (.words 14 [BitVec.ofNat 64 r.n.toNat]) ∈ t.out) ∧
        (∀ m ∈ s.peers, m ≠ s.self → Does (.stepAbort r.n m) s fun t => gone t ∧
          Out.toModule m 7 (.words 15 [BitVec.ofNat 64 r.n.toNat]) ∈ t.out)) ∧
      (∀ n, ∀ m ∈ s.peers, m ≠ s.self → n ≠ r.n → Does (.stepAbort n m) s fun t => t.fw = s.fw ∧ t.hmp = s.hmp ∧
        Out.toModule m 7 (.words 15 [BitVec.ofNat 64 n.toNat]) ∈ t.out) ∧
      (∀ acks, r.aborted = true → s.diesQuiet = true → (∀ m ∈ s.peers, m ∈ acks) →
        (r.tries < 3 → Does (.stepRerun acks) s fun t => (∃ q, t.fw.cur = some q ∧ q.aborted = false ∧ q.n = r.n ∧
            q.batch = r.batch.filter fun e => r.open_.contains e.session || r.shards.contains e.session) ∧
          t.fw.step = r.n ∧ t.reg (Reg.fltCnt 1) = s.reg (Reg.fltCnt 1) + 1) ∧
        (3 ≤ r.tries → Does (.stepRerun acks) s fun t => t.fw.cur = none ∧
          t.reg (Reg.fltCnt 2) = s.reg (Reg.fltCnt 2) + 1))) ∧
    (s.fw.stalled = true →
      (∀ answers, (∀ m ∈ s.peers, m ∈ s.flt.answered ∨ (m ∈ s.flt.probed ∧ m ∈ answers)) → Does (.stallProbe answers) s fun t =>
        t.fw.stalled = false ∧ t.flt.probed = [] ∧ t.flt.stallSince = none) ∧
      (s.flt.probed = [] → s.flt.answered = [] → s.peers ≠ [] → Does (.stallProbe []) s fun t => t.fw.stalled = true ∧
        t.flt.probed = s.peers ∧ t.flt.probeNs = s.now ∧ ∀ m ∈ s.peers, Out.toModule m 7 (.probe 0) ∈ t.out) ∧
      (∀ m t0, s.flt.stallSince = some t0 → t0 + 10 ^ 9 ≤ s.now → m ∈ s.flt.probed → m ∉ s.flt.answered →
        s.fw.cur = none → s.hmp.batch = [] → Does (.moduleAbsent m) s fun t => m ∈ t.flt.absent ∧ t.fw.stalled = false ∧
          t.fw.sent = none ∧ ∀ k, (s.dir k).state = .active → (s.dir k).kind = .home → s.busy k = false →
            (t.dir k).state = .parked)) ∧
    (∀ code detail, Does (.moduleFault code detail) s fun t => t.live = false ∧
      t.host.fatalCode = (if code = 0 then Code.moduleFault else code.toNat) ∧ (t.fn 0).attn.getLsbD 7 = true ∧
      (t.fn 1).attn.getLsbD 7 = true ∧ t.mem = s.mem ∧ t.hmp = s.hmp) ∧
    (∀ x xs, s.flt.lost = x :: xs →
      (s.now < x.sinceNs + 10 * 10 ^ 9 → Ignored .lostItemTimeout s) ∧
      (x.sinceNs + 10 * 10 ^ 9 ≤ s.now → (s.qReader x.queue = 5 ∨ s.qReader x.queue = 6) → Does .lostItemTimeout s fun t =>
        t.flt.lost = xs ∧ Posts s t (bits x.item.w5 40 32)
          (completionItem x.item.w0 x.item.w1 0 0 0 Code.itemEcc 0) (bits x.item.w5 11 0)))

/-! ### Memory devices (ch. 16) -/

/-- DRAM scrub (R604 to R607, R612 to R617, R629): each read takes the channel's next line and decodes what differs from the
written bytes; a line read as written changes nothing; a wrong symbol is corrected, in its own codeword, and leaves every
byte; a corrected line is logged, counted and written back unless a write came since; an uncorrectable one is logged and
poisons the page that loses its home; nothing is scrubbed in self-refresh; a drifted channel in training is retrained. Where
it rests on the model's own choices: log entries 52, 86, 113. -/
def Obligations.DramScrub : Prop :=
  ∀ (s : State) (ch : Fin 128) (errs : List (Nat × Byte)) (wrote drifted : Bool), s.live = true →
    let c := ch.val
    let l := SMap.get 0 s.dram.scrubPos c
    let line := dramAddr 0 (256 * lineOf c l)
    let next := fun (t : State) => SMap.get 0 t.dram.scrubPos c = (l + 1) % 2 ^ 26 ∧
      t.reg (Reg.dramCnt 3) = s.reg (Reg.dramCnt 3) + 1
    let outside := fun (t : State) => ∀ a, (a < line ∨ line + 256 ≤ a) → t.byte a = s.byte a
    (s.plat.parkedSince.isSome → Ignored (.scrubRead ch errs wrote) s) ∧
    (s.plat.parkedSince = none →
      (Does (.scrubRead ch [] wrote) s fun t => next t ∧ t.mem = s.mem) ∧
      (∀ b v, b < 288 → v ≠ 0 → lineEcc [(b, v)] = (.corrected, (symbolOf b).1) ∧
        (s.field Reg.dramScrub 23 16 = 0 → Does (.scrubRead ch [(b, v)] wrote) s fun t => ∀ a, t.byte a = s.byte a)) ∧
      ((lineEcc errs).1 = .clean → Does (.scrubRead ch errs wrote) s fun t => next t ∧ outside t ∧ t.tsm = s.tsm ∧
        t.reg (Reg.dramCnt 0) = s.reg (Reg.dramCnt 0)) ∧
      ((lineEcc errs).1 = .corrected → Does (.scrubRead ch errs wrote) s fun t => next t ∧
        t.reg Reg.dramCelog = lineLog c (lineEcc errs).2 l ∧ t.reg (Reg.dramCnt 0) = s.reg (Reg.dramCnt 0) + 1 ∧
        t.reg (Reg.dramCnt 4) = s.reg (Reg.dramCnt 4) + (if wrote then 0 else 1) ∧
        (s.field Reg.dramScrub 23 16 = 0 → t.tsm = s.tsm ∧ outside t)) ∧
      ((lineEcc errs).1 = .uncorrectable → Does (.scrubRead ch errs wrote) s fun t => next t ∧
        t.reg Reg.dramErrlog = lineLog c (lineEcc errs).2 l ∧ t.reg (Reg.dramCnt 1) = s.reg (Reg.dramCnt 1) + 1 ∧
        (s.pageAtDram (lineOf c l / 256) = none → t.tsm = s.tsm ∧ t.mem = s.mem) ∧
        (∀ p, s.pageAtDram (lineOf c l / 256) = some p → (s.leaf p).pin = false → t.leaf p = { s.leaf p with poison := true } ∧
          (∀ q, q ≠ p → t.leaf q = s.leaf q) ∧ t.reg (Reg.fltCnt 6) = s.reg (Reg.fltCnt 6) + 1))) ∧
    (Does (.oscillatorCheck ch drifted) s fun t =>
      t = if drifted = true ∧ s.plat.parkedSince = none ∧ c < s.field Reg.dramStatus 15 8 then s.bump (Reg.dramCnt 6) else s)

/-- The sett's translation layer (R619 to R626, R743): reads take the contents from before the programs in progress; a program
that succeeds gives the page its new contents and place, one that fails keeps the old; TRIM unmaps, and an unmapped page
reads zero; an unreadable page is reported and trimmed; upkeep moves valid data and counts its blocks; a die's failure
starts a rebuild, a second in its parity set loses pages. Where it rests on the model's own choices: log entries 52, 53. -/
def Obligations.SettOperations : Prop :=
  ∀ (s : State) (page : Nat), s.live = true →
    let zero := fun (t : State) => (∀ o < 65536, t.byte (settAddr page o) = 0) ∧ SMap.lookup t.sett.place page = none
    let outside := fun (t : State) =>
      ∀ a, (a < settAddr page 0 ∨ settAddr page 0 + 65536 ≤ a) → t.byte a = s.byte a
    (s.settUp = false → ∀ d, Ignored (.settRead page) s ∧ Ignored (.settProgram page d) s ∧ Ignored (.settTrim page) s ∧
      Ignored .trimAll s) ∧
    (s.settUp = true → page < 805306368 →
      (Does (.settRead page) s fun t => t = { s with sett.reads := s.sett.reads ++ [SettRead.mk page
        (SMap.lookup s.sett.place page).isSome (if s.sett.lost.contains page then none else some (s.settData page))] }) ∧
      (∀ d, s.plat.inhibit = true → Ignored (.settProgram page d) s) ∧
      (∀ d, s.plat.inhibit = false → bit (s.reg Reg.settStatus) 60 = false → Does (.settProgram page d) s fun t =>
        t.sett = { s.sett with progs := s.sett.progs ++ [SettProg.mk page d false] } ∧ t.mem = s.mem ∧
        (s.settClaimed page = true → t.regs = s.regs ∧ t.tsm = s.tsm) ∧
        (s.settClaimed page = false → t.reg Reg.tsmSettUsed = BitVec.ofNat 64 (s.settUsed + 65536) ∧
          SMap.get 0 t.tsm.bins s.tsm.bin = SMap.get 0 s.tsm.bins s.tsm.bin + 65536)) ∧
      (∀ d, s.plat.inhibit = false → bit (s.reg Reg.settStatus) 60 = true → Does (.settProgram page d) s fun t =>
        t.sett = s.sett ∧ t.field Reg.settStatus 47 32 = Code.settWorn) ∧
      ((∀ x ∈ s.sett.progs, x.page ≠ page) → Does (.settTrim page) s fun t => zero t ∧ outside t ∧
        ∀ q, q ≠ page → SMap.lookup t.sett.place q = SMap.lookup s.sett.place q) ∧
      (Does .trimAll s fun t => t.sett.place = [] ∧ zero t ∧ (∀ x ∈ t.sett.progs, x.trim = true) ∧
        ∀ a, a < settAddr 0 0 → t.byte a = s.byte a)) ∧
    (∀ r, s.sett.reads = [r] → r.page = page → ∀ retries rebuilt,
      (∀ d, r.data = some d → Does (.settReadDone page false retries rebuilt) s fun t =>
        SMap.lookup t.sett.staged page = some d ∧ t.sett.reads = [] ∧ t.reg (Reg.settCnt 0) = s.reg (Reg.settCnt 0) + 1 ∧
        t.reg (Reg.settCnt 3) = s.reg (Reg.settCnt 3) + BitVec.ofNat 64 retries ∧ t.mem = s.mem) ∧
      (r.data = none → s.pageAtSett page = none → Does (.settReadDone page false retries rebuilt) s fun t => zero t ∧
        t.field Reg.settStatus 47 32 = Code.settUe ∧ t.sett.reads = [])) ∧
    (∀ p blocks n, s.sett.progs = [p] → p.page = page → p.trim = false →
      (Does (.settProgramDone page true blocks n) s fun t => SMap.lookup t.sett.place page = some blocks ∧ t.sett.progs = [] ∧
        (∀ o < 65536, t.byte (settAddr page o) = (((p.data.filter fun x => x.1 = o).getLast?).map (·.2)).getD 0) ∧ outside t ∧
        t.reg (Reg.settCnt 1) = s.reg (Reg.settCnt 1) + 1) ∧
      (Does (.settProgramDone page false blocks n) s fun t => t.mem = s.mem ∧ t.sett.place = s.sett.place ∧
        t.sett.progs = [] ∧ t.reg (Reg.settCnt 1) = s.reg (Reg.settCnt 1)) ∧
      (∀ k op ok, SMap.lookup s.tsm.ops k = some op → op.isDrop = false → op.dst = .sett → op.dstLoc = page →
        op.stage = .write ∨ op.stage = .verify → Does (.settProgramDone page ok blocks n) s fun t =>
          SMap.lookup t.tsm.ops k = some { op with prog := some ok })) ∧
    (∀ b dest n, s.upkeeps = true → s.blockOpen b = true → s.blockOpen dest = true → dest ≠ b →
      let moved := fun (t : State) => t.sett.place = s.sett.place.map (fun x => (x.1, x.2.map fun y => if y = b then dest else y)) ∧
        t.mem = s.mem ∧ t.reg (Reg.settCnt 5) = s.reg (Reg.settCnt 5) + BitVec.ofNat 64 (s.blockPages b).length
      (200000 ≤ (s.block b).reads → Does (.readDisturb b dest n) s fun t => moved t ∧
        (t.block b).erases = (s.block b).erases + 1 ∧ (t.block b).reads = 0) ∧
      ((s.block b).reads < 200000 → Ignored (.readDisturb b dest n) s) ∧
      (((s.block b).retry = true ∨ ∃ w, (s.block b).writtenNs = some w ∧ w + 30 * 24 * 3600 * 10 ^ 9 ≤ (s.now : Int)) →
        Does (.retention b dest n) s fun t => moved t ∧ (t.block b).retry = false ∧ (t.block dest).writtenNs = some (s.now : Int)) ∧
      (Does (.grownDefect b dest n) s fun t => moved t ∧ t.blockOpen b = false ∧ t.sett.spares = s.sett.spares - 1 ∧
        t.reg (Reg.settCnt 6) = s.reg (Reg.settCnt 6) + 1) ∧
      (∀ least, s.blockFree least = true → s.blockFree dest = true → (s.block least).erases + 200 < (s.block dest).erases →
        s.coldest b = true → Does (.wearLevelling least dest b n) s fun t => moved t ∧ (t.block dest).writtenNs = some (s.now : Int))) ∧
    (∀ die : Fin 1024, let d := die.val
      (s.settUp = true → d ∉ s.sett.rebuilding →
        Does (.dieFailure die) s fun t => t.sett.rebuilding = s.sett.rebuilding ++ [d] ∧ bit (t.reg Reg.settStatus) 62 = true ∧
          t.sett.failedDies = s.sett.failedDies + 1 ∧
          ((∀ e ∈ s.sett.rebuilding, e / 16 ≠ d / 16) → t.sett.lost = s.sett.lost) ∧
          (∀ e ∈ s.sett.rebuilding, e / 16 = d / 16 → ∀ q, q ∈ s.diePages d ∨ q ∈ s.diePages e → q ∈ t.sett.lost)) ∧
      (s.upkeeps = true → s.sett.rebuilding = [d] → ∀ cw n, Does (.rebuildComplete die [] cw n) s fun t =>
        t.sett.rebuilding = [] ∧ bit (t.reg Reg.settStatus) 62 = false ∧
        t.reg (Reg.settCnt 4) = s.reg (Reg.settCnt 4) + BitVec.ofNat 64 cw))

/-! ### Configuration (ch. 17) -/

/-- Images and commits (R640 to R652, R655): an image is refused without permission, over a FULL one, with a bad format or
signature; an accepted FULL image is in effect at once and the module serves, an accepted DELTA changes no register; a
COMMIT of a group whose shadows agree waits for its safe point, where they take effect together. Where it rests on the
model's own choices: log entries 38, 50, 78, 109, 114. -/
def Obligations.Configuration : Prop :=
  ∀ (s : State) (id : Nat) (c : HostCmd),
    (Waits s id 0x03 c → ∀ dir w w',
      (Does (.loadImage id none dir w w') s fun t => t.regs = s.regs ∧ t.cfg = s.cfg ∧ Answers s t c Code.hostDma 0 0) ∧
      (∀ bs : List Byte,
        let i := CfgImage.ofBytes bs
        let refused := fun (code : Nat) => Does (.loadImage id (some bs) dir w w') s fun t =>
          t.regs = s.regs ∧ t.cfg = s.cfg ∧ t.mem = s.mem ∧ ∃ d, Answers s t c code d 0
        let may := s.fuse (928 + c.fn) = true
        let first := i.full = true → s.loaded = false
        (s.fuse (928 + c.fn) = false → refused Code.cfgDenied) ∧
        (may → i.full = true → s.loaded = true → refused Code.cfgBase) ∧
        (may → first → (formatErr bs).isSome → refused Code.cfgFormat) ∧
        (may → first → formatErr bs = none → s.imageSigned bs = false → refused Code.cfgSignature) ∧
        (may → first → formatErr bs = none → s.imageSigned bs = true →
          (s.extend 4 (if i.full then 4 else 5) i.digest = none → refused Code.cfgLogFull) ∧
          (∀ u e, s.extend 4 (if i.full then 4 else 5) i.digest = some u → u.loadMeasured i dir w w' = .error e →
            Does (.loadImage id (some bs) dir w w') s fun t => t.regs = s.regs ∧ t.cfg = s.cfg ∧ t.mem = s.mem ∧
              t.plat = u.plat ∧ Answers s t c e.code e.detail 0) ∧
          (∀ u v, i.full = true → s.extend 4 4 i.digest = some u → u.loadMeasured i dir w w' = .ok v →
            Does (.loadImage id (some bs) dir w w') s fun t => t.loaded = true ∧ t.cfg.base = some i.digest ∧ t.plat.stage = 7 ∧
              t.shadow = [] ∧ t.tsm.boot = false ∧ Answers s t c 0 0 0) ∧
          (∀ u v, i.full = false → s.extend 4 5 i.digest = some u → u.loadMeasured i dir w w' = .ok v →
            Does (.loadImage id (some bs) dir w w') s fun t => (∀ k, t.reg k = u.reg k) ∧ t.cfg.base = s.cfg.base ∧
              Answers s t c 0 0 0)))) ∧
    (let mask := bits (c.arg 0) 31 0
     Waits s id 0x04 c →
      (2 ^ 17 ≤ mask → Does (.commit id) s fun t => t.cfg = s.cfg ∧ Answers s t c Code.invalidField 0 0) ∧
      (∀ g < 17, mask = 2 ^ g →
        ((SMap.lookup s.cfg.pending g).isSome → Does (.commit id) s fun t => t.cfg = s.cfg ∧ Answers s t c Code.cfgBusy 0 0) ∧
        (SMap.lookup s.cfg.pending g = none → s.groupCode g = 0 → Does (.commit id) s fun t =>
          SMap.lookup t.cfg.pending g = some id ∧ t.regs = s.regs ∧ t.shadow = s.shadow ∧
          ∃ d ∈ t.host.cmds, d.id = id ∧ d.began = true ∧ d.groupsLeft = [g]) ∧
        (SMap.lookup s.cfg.pending g = none → s.groupCode g ≠ 0 → c.groupsDone = [] → Does (.commit id) s fun t =>
          t.cfg = s.cfg ∧ t.regs = s.regs ∧ Answers s t c (s.groupCode g) 0 0))) ∧
    (∀ group : Fin 17, let g := group.val
      s.live = true → (SMap.lookup s.cfg.pending g).isSome →
        (s.safePoint g = false → Ignored (.groupApply group) s) ∧
        (s.safePoint g = true → g ≠ 11 → g ≠ 15 → g ≠ 16 → SMap.sorted s.shadow = true → Does (.groupApply group) s fun t =>
          (∀ k v, SMap.lookup s.shadow k = some v → groupOf k = some g →
            t.reg k = (s.reg k &&& ~~~regMask k .rws) ||| (v &&& regMask k .rws)) ∧
          (∀ k, groupOf k ≠ some g → t.reg k = s.reg k) ∧ SMap.lookup t.cfg.pending g = none ∧
          t.shadow = s.shadow.filter fun x => groupOf x.1 ≠ some g))

/-! ### The network edge, the meter and transfers (ch. 14) -/

/-- The oldest complete message is refused: one final response with the code to its sender, and nothing is posted. -/
def Sys2Proof.Machine.Refuses (s t : State) (m : NetMsg) (code : Nat) : Prop :=
  t.fw.posted = s.fw.posted ∧ t.net.toText.length ≤ s.net.toText.length ∧
    ∃ r, t.fw.responses = s.fw.responses ++ [r] ∧ r.status = code ∧ r.net = m.src ∧ r.clientRef = m.clientRef ∧ r.final = true

/-- Frames and messages (R532 to R539, R549, R550, R555): the link and pause state of a port; a frame that fails a check only
counts; a message whole in one frame is ready with its body; one over the buffer, or past its time, is answered NET_REASM;
the oldest complete message is refused by the first of R538's checks it fails, else it is posted or waits for its tokens,
which the text unit gives; a red request is answered METER_RED. Where it rests on the model's own choices: log entries 20,
61, 62. -/
def Obligations.NetworkEdge : Prop :=
  ∀ s : State, s.live = true →
    (∀ (p : Fin 2) up bad, Does (.ethLinkState p up bad) s fun t =>
      bit (t.reg (Reg.netPort p.val)) 63 = up ∧
      bit (t.reg (Reg.netPort p.val)) 62 = (bad || bit (s.reg (Reg.netPort p.val)) 62) ∧
      (∀ k, k ≠ Reg.netPort p.val → t.reg k = s.reg k) ∧ t.net = s.net ∧ t.out = s.out) ∧
    (s.unitFailed 1 = false →
      (s.plat.parkedSince.isSome → ∀ (p : Fin 2) (q : Fin 8) n, Does (.pfcRx p q n) s fun t => t.plat.parkedSince = none ∧
        t.maySend q.val p.val = (bit (s.reg (Reg.netPort p.val)) 63 && decide (n = 0))) ∧
      (s.plat.parkedSince = none →
      (∀ (p : Fin 2) (q : Fin 8) n, Does (.pfcRx p q n) s fun t =>
        t.maySend q.val p.val = (bit (s.reg (Reg.netPort p.val)) 63 && decide (n = 0)) ∧
        (∀ p' q', 8 * p' + q' ≠ 8 * p.val + q.val → t.maySend q' p' = s.maySend q' p') ∧ t.regs = s.regs ∧ t.out = s.out) ∧
      (∀ (p : Fin 2) (f : EthFrame), s.dropsFrame p.val f = true → Does (.ethFrameRx p f) s fun t =>
        t.net = s.net ∧ t.fw = s.fw ∧ t.reg (Reg.netCnt 1) = s.reg (Reg.netCnt 1) + 1) ∧
      (∀ (p : Fin 2) (f : EthFrame), s.dropsFrame p.val f = false → f.dstPort ≠ 4791 → f.room = .room → s.net.reasm = [] →
        let body := f.payload.drop 32
        let cap := s.field Reg.netControl 31 24 * 2 ^ 20
        (cap < body.length → Does (.ethFrameRx p f) s fun t => t.net.ready = s.net.ready ∧ t.net.reasm = [] ∧
          t.reg (Reg.netCnt 4) = s.reg (Reg.netCnt 4) + 1 ∧
          ∃ r, t.fw.responses = s.fw.responses ++ [r] ∧ r.status = Code.netReasm ∧ r.net = f.src) ∧
        (body.length ≤ cap → bits (bytesWord (f.payload.drop 24)) 63 32 = 0 → bits (bytesWord f.payload) 31 0 = body.length →
          Does (.ethFrameRx p f) s fun t => t.net.reasm = [] ∧ t.fw = s.fw ∧
            t.reg (Reg.netCnt 0) = s.reg (Reg.netCnt 0) + 1 ∧
            ∃ m, t.net.ready = s.net.ready ++ [m] ∧ m.src = f.src ∧ m.doneNs = s.now ∧ m.take 0 body.length = body))) ∧
      (let due := fun (m : NetMsg) => decide (m.sinceNs + msec (bits (m.netReg s Reg.netControl) 47 32) ≤ s.now)
       (s.net.reasm.find? due = none → Ignored .reasmTimeout s) ∧
       (∀ m, s.net.reasm.find? due = some m → Does .reasmTimeout s fun t => Refuses s t m Code.netReasm ∧
         (∀ x ∈ t.net.reasm, x.sameKey m = false) ∧ t.net.ready = s.net.ready)) ∧
      (s.net.ready = [] → Ignored .requestMessage s) ∧
      (∀ m ms, s.net.ready = m :: ms →
        let b := m.lens.foldl (fun (a : Int) n => a + (n : Nat) + s.polOverhead m.customer) 0
        let colour := (s.police (m.netReg s) m.customer m.dscp b).1
        (m.formatOk = false → Does .requestMessage s fun t => t.net.ready = ms ∧ Refuses s t m Code.netFormat) ∧
        (m.formatOk = true → s.sourceOk m.src.ip m.customer = false → Does .requestMessage s fun t =>
          t.net.ready = ms ∧ Refuses s t m Code.netDenied ∧ t.reg (Reg.netCnt 5) = s.reg (Reg.netCnt 5) + 1) ∧
        (m.formatOk = true → s.sourceOk m.src.ip m.customer = true →
          (m.isCancel = true → Does .requestMessage s fun t => t.net.ready = ms ∧ t.net.toText = s.net.toText ∧
            ∃ p, t.fw.posted = s.fw.posted ++ [p] ∧ p.net = some m.src ∧ p.entries = some [] ∧ p.item.w0 = m.w1) ∧
          (m.isCancel = false → s.polTokens m.customer = true → Does .requestMessage s fun t =>
            t = { s with net.ready := ms, net.toText := s.net.toText ++ [m] }) ∧
          (m.isCancel = false → s.polTokens m.customer = false →
            (colour = .red → Does .requestMessage s fun t => t.net.ready = ms ∧ Refuses s t m Code.meterRed) ∧
            (colour ≠ .red → Does .requestMessage s fun t => t.net.ready = ms ∧ t.fw.posted = s.fw.posted ∧
              t.fw.responses = s.fw.responses ∧
              t.net.toText = s.net.toText ++ [{ m with yellow := decide (colour = .yellow) }])))) ∧
      (s.net.toText = [] → Ignored .requestTokenized s) ∧
      (∀ m ms, s.net.toText = m :: ms →
        let v := { s with net.toText := ms }
        (∀ code, v.tokenizeMsg m = .error code → Does .requestTokenized s fun t => t.net.toText = ms ∧ Refuses s t m code) ∧
        (∀ es u, v.tokenizeMsg m = .ok (es, u) →
          (u.polTokens m.customer = false → Does .requestTokenized s fun t => t.net.toText = ms ∧
            ∃ p, t.fw.posted = s.fw.posted ++ [p] ∧ p.net = some m.src ∧ p.entries = some es ∧ p.item.w0 = m.w1) ∧
          (u.polTokens m.customer = true →
            let b : Int := ((es.length + bits (m.word 0) 63 32 : Nat) : Int) + u.polOverhead m.customer
            ((u.police (m.netReg u) m.customer m.dscp b).1 = .red → Does .requestTokenized s fun t =>
              t.net.toText = ms ∧ Refuses s t m Code.meterRed) ∧
            ((u.police (m.netReg u) m.customer m.dscp b).1 ≠ .red → Does .requestTokenized s fun t => t.net.toText = ms ∧
              ∃ p, t.fw.posted = s.fw.posted ++ [p] ∧ p.net = some m.src ∧ p.entries = some es)))))

/-- Responses, shaping and refused METER_SETs (R540, R547, R551 to R553, the port by log entry 20): a response enters the shaper
whole, in fragments whose bodies joined are its body, unless the egress buffer is full; the next customer in turn whose
credit permits sends its first fragment; METER_SET of a record that cannot be read, or with the reserved algorithm, is
answered with its code and changes no memory. Where it rests on the model's own choices: log entries 20, 64. -/
def Obligations.EgressAndMeter : Prop :=
  (∀ now n r, (responseFrags now n r).flatMap (fun f => f.bytes.drop 32) = responseBody r ∧
    ∀ f ∈ responseFrags now n r, f.bytes.length ≤ 9120 ∧ f.customer = r.customer ∧ f.dest = r.net) ∧
  ∀ s : State, s.live = true →
    (s.unitFailed 1 = false →
      (s.fw.responses = [] → Ignored .responseItem s) ∧
      (∀ r rs, s.fw.responses = r :: rs →
        (s.field Reg.netControl 23 16 * 2 ^ 20 ≤ s.egressBytes →
          (s.net.stopped = true → Ignored .responseItem s) ∧
          (s.net.stopped = false → Does .responseItem s fun t => t.net = { s.net with stopped := true } ∧ t.fw = s.fw ∧
            t.reg (Reg.mtrCnt 5) = s.reg (Reg.mtrCnt 5) + 1)) ∧
        (s.egressBytes < s.field Reg.netControl 23 16 * 2 ^ 20 → Does .responseItem s fun t =>
          t.fw.responses = rs ∧ t.net.shaper = s.net.shaper ++ responseFrags s.now s.net.nextMsg r ∧
          t.net.nextMsg = (s.net.nextMsg + 1) % 65536 ∧ t.net.stopped = false ∧ t.regs = s.regs ∧ t.out = s.out)) ∧
      ((s.sendPort = none ∨ s.shaperOrder.find? s.permits = none) → Ignored .shaperRelease s) ∧
      (∀ p c f, s.sendPort = some p → s.shaperOrder.find? s.permits = some c →
        (s.net.shaper.find? fun x => x.customer = c) = some f → Does .shaperRelease s fun t =>
          t.net.shaper = s.net.shaper.erase f ∧ t.net.lastCust = c ∧ t.out = s.out ++ [.net p (.response f.dest f.bytes)] ∧
          t.reg (Reg.netCnt 2) = s.reg (Reg.netCnt 2) + 1)) ∧
    ∀ (id : Nat) (c : HostCmd), Waits s id 0x32 c →
      (Does (.meterSet id none) s fun t => t.mem = s.mem ∧ Answers s t c Code.hostDma 0 0) ∧
      (∀ r : Item, bits r.w0 63 62 = 3 → Does (.meterSet id (some r)) s fun t =>
        t.mem = s.mem ∧ Answers s t c Code.invalidField 0 0)

/-- The completion of a transfer item (R468, R544). -/
def Sys2Proof.Machine.xferAnswer (it : Item) (code pages : Nat) : Item :=
  { w0 := it.w0, w1 := tagLast it.w1, w2 := fld 63 48 code ||| fld 31 0 pages, w5 := fld 63 32 noIndex }

/-- Every message a queue pair has not acknowledged goes out again, in order (R541). -/
def Sys2Proof.Machine.Resends (s t : State) (peer : Nat) : Prop :=
  (t.qpair peer).unacked = (s.qpair peer).unacked ∧ (t.qpair peer).retries = (s.qpair peer).retries + 1 ∧
    t.net.outs = s.net.outs ∧
    ∀ p, s.sendPort = some p → t.out = s.out ++ (s.qpair peer).unacked.map fun m => Out.net p (.roce peer (s.peerEntry peer) m.2)

/-- Queue pairs (R541, R544): acknowledged messages end their transfer, which completes with its pages; a sequence NAK or a
time-out sends again, an access NAK or the eighth time-out fails the transfer with XFER_PEER; the rate is halved at most
every 50 us, and raised by 1 GB/s up to the line rate. Where it rests on the model's own choices: log entries 20, 64, 65. -/
def Obligations.QueuePairs : Prop :=
  ∀ (s : State) (peer : Nat), s.live = true → s.unitFailed 1 = false → s.plat.parkedSince = none →
    let q := s.qpair peer
    let due := q.sentNs + usec (s.field Reg.netRoce 63 48) ≤ s.now
    (∀ (x : XferOut) count, s.net.outs = [x] → x.peer = peer → q.unacked ≠ [] → 0 < count → q.unacked.length ≤ count →
      Does (.roceAckRx peer count .ok) s fun t => t.net.outs = [] ∧ (t.qpair peer).unacked = [] ∧ (t.qpair peer).retries = 0 ∧
        Posts s t (bits x.item.w6 40 32) (xferAnswer x.item 0 (bits x.item.w3 63 32)) (bits x.item.w6 11 0)) ∧
    (q.unacked ≠ [] → (∀ x ∈ s.net.outs, x.peer = peer → ∃ u ∈ q.unacked, u.1 = x.id) →
      (Does (.roceAckRx peer 0 .sequence) s fun t => Resends s t peer) ∧
      (∀ x : XferOut, s.net.outs = [x] → x.peer = peer → Does (.roceAckRx peer 0 .access) s fun t =>
        t.net.outs = [] ∧ (t.qpair peer).unacked = [] ∧
        Posts s t (bits x.item.w6 40 32) (xferAnswer x.item Code.xferPeer 0) (bits x.item.w6 11 0))) ∧
    ((q.unacked = [] ∨ ¬ due) → Ignored (.roceAckTimeout peer) s) ∧
    (q.unacked ≠ [] → due → q.retries < 7 → Does (.roceAckTimeout peer) s fun t => Resends s t peer) ∧
    (∀ x : XferOut, q.unacked ≠ [] → due → 7 ≤ q.retries → s.net.outs = [x] → x.peer = peer →
      Does (.roceAckTimeout peer) s fun t => t.net.outs = [] ∧ (t.qpair peer).unacked = [] ∧
        Posts s t (bits x.item.w6 40 32) (xferAnswer x.item Code.xferPeer 0) (bits x.item.w6 11 0)) ∧
    (Does (.cnpRx peer) s fun t => t.reg (Reg.netCnt 7) = s.reg (Reg.netCnt 7) + 1 ∧ (t.qpair peer).cnpNs = s.now ∧
      (∀ n, q.halvedNs = some n → s.now < n + 50000 → (t.qpair peer).rate = q.rate) ∧
      ((∀ n, q.halvedNs = some n → n + 50000 ≤ s.now) → (t.qpair peer).rate = q.rate / 2) ∧
      (t.qpair peer).unacked = q.unacked ∧ ∀ p, p ≠ peer → t.qpair p = s.qpair p) ∧
    ((lineRate ≤ q.rate ∨ s.now < max q.cnpNs q.raisedNs + 55000) → Ignored (.roceRateRaise peer) s) ∧
    (q.rate < lineRate → max q.cnpNs q.raisedNs + 55000 ≤ s.now → Does (.roceRateRaise peer) s fun t =>
      t = s.setQpair peer { q with rate := min lineRate (q.rate + 10 ^ 9), raisedNs := s.now })

/-- Session transfer between nodes (R543 to R546): a transfer item is refused by the first check it fails, else its SEND and its
pages leave in order; the taker refuses other geometry, reserves its lowest FREE slot with every module, and answers; the
giver's home hands the answer to its node; pages are taken in order with their CRC-32C, a bad one frees the slot; a
reservation frees at its time-out. Where it rests on the model's own choices: log entries 65, 67, 94, 96. -/
def Obligations.SessionTransfers : Prop :=
  ∀ s : State, s.live = true →
    (∀ it : Item,
      let slot := hSlot it.w0
      let peer := bits it.w2 63 54
      let n := bits it.w3 63 32
      let fails := fun code => Does (.transferItem it) s fun t => t.net.outs = s.net.outs ∧ t.net.qps = s.net.qps ∧
        Posts s t (bits it.w6 40 32) (xferAnswer it code 0) (bits it.w6 11 0)
      tagEpoch it.w1 = s.comp.map.epoch →
      (s.unitFailed 1 = true → fails Code.unitFailed) ∧
      (s.unitFailed 1 = false →
        (s.handleCode it.w0 ≠ 0 → fails (s.handleCode it.w0)) ∧
        (s.handleCode it.w0 = 0 → s.peerKnown peer = false → fails Code.xferPeer) ∧
        (s.handleCode it.w0 = 0 → s.peerKnown peer = true → ∀ bs u ms v,
          (s.begin_ 8 it).getBytes netCache it.w4.toNat (8 * n) = (.ok bs, u) →
          streamPages 0 ((List.range n).map fun i => (bytesWord (bs.drop (8 * i))).toNat) u = (.ok ms, v) →
          Does (.transferItem it) s fun t =>
            t.net.outs = v.net.outs ++ [⟨v.net.nextXfer, peer, it⟩] ∧ t.net.nextXfer = v.net.nextXfer + 1 ∧
            t.reg (Reg.netCnt 6) = v.reg (Reg.netCnt 6) + BitVec.ofNat 64 n ∧
            (t.qpair peer).unacked = (v.qpair peer).unacked ++
              (RoceMsg.hello (v.helloOf slot it) :: ms).map fun m => (v.net.nextXfer, m)))) ∧
    (∀ handle origin,
      let slot := hSlot handle
      ((s.dir slot).state ≠ .free → Ignored (.reserveItem handle origin) s) ∧
      ((s.dir slot).state = .free → Does (.reserveItem handle origin) s fun t =>
        (t.dir slot).state = .taking ∧ (t.dir slot).kind = .shard ∧ (t.dir slot).gen = hGen handle ∧
        (t.hdr slot).handle = handle ∧ (t.hdr slot).origin = origin ∧ OtherDirs s t slot ∧
        ∃ x, SMap.lookup t.hmp.takes slot = some x ∧ x.sinceNs = s.now ∧ x.waiting = [s.self])) ∧
    (∀ slot dropped x, SMap.lookup s.hmp.takes slot = some x →
      (s.now < x.sinceNs + s.custodyTimeout → Ignored (.reservationTimeout slot dropped) s) ∧
      (x.sinceNs + s.custodyTimeout ≤ s.now → (s.dir slot).state = .taking → s.Alone slot →
        (x.waiting = [] → (dropped = false ∨ (s.dir slot).kind ≠ .shard) → Ignored (.reservationTimeout slot dropped) s) ∧
        ((x.waiting ≠ [] ∨ ((s.dir slot).kind = .shard ∧ dropped = true)) → Does (.reservationTimeout slot dropped) s fun t =>
          (t.dir slot).state = .free ∧ OtherDirs s t slot ∧ ∀ y ∈ t.net.ins, y.2.slot ≠ slot))) ∧
    (s.unitFailed 1 = false →
      (∀ peer origin handle,
        (s.slotOfOrigin origin = none → Ignored (.reserveAnswer peer origin handle) s) ∧
        (∀ slot, s.slotOfOrigin origin = some slot → (s.dir slot).state = .giving →
          Does (.reserveAnswer peer origin handle) s fun t => SMap.lookup t.net.answers slot = some handle ∧
            ∀ m ∈ s.peers, ∃ p, s.comp.map.peers.getD p 0 = m ∧ Out.toModule m 7 (.share (s.hdr slot).handle
              (.transfer ((hModule handle + p - s.comp.map.ringPos) % 1024) handle)) ∈ t.out)) ∧
      (s.plat.parkedSince = none → ∀ peer (h : XferHello) seen,
        let v := (s.roceTo peer (.ack 1)).seeOrigin h.origin seen
        let refused := Does (.transferSendRx peer h seen) s fun t => t.hmp.dir = s.hmp.dir ∧ t.net.ins = s.net.ins
        (∀ code, v.recOf h.origin = .error code → refused) ∧
        (∀ k, v.recOf h.origin = .ok k →
          (v.sameGeometry h = false → refused) ∧
          (v.sameGeometry h = true → h.target = 0 →
            (s.freeSlot = none → refused) ∧
            (∀ slot u, s.freeSlot = some slot → v.installTake slot h .home (v.rec_ k) = some u →
              Does (.transferSendRx peer h seen) s fun t =>
                (t.dir slot).state = .taking ∧ (t.dir slot).kind = .home ∧ (t.hdr slot).origin = h.origin ∧ OtherDirs s t slot ∧
                SMap.lookup t.net.ins peer = some ⟨slot, h, 0⟩ ∧
                (∃ x, SMap.lookup t.hmp.takes slot = some x ∧ x.waiting = s.self :: s.peers ∧ x.n = h.custody ∧
                  x.sinceNs = s.now) ∧
                ∀ m ∈ s.peers, Out.toModule m 7 (.words 11 [(t.hdr slot).handle, h.origin]) ∈ t.out)) ∧
          (v.sameGeometry h = true → h.target ≠ 0 →
            let slot := hSlot h.target
            (s.dir slot).state = .taking → (s.dir slot).kind = .shard → (s.dir slot).gen = hGen h.target →
            (∀ u, v.installTake slot h .shard (v.rec_ k) = some u → Does (.transferSendRx peer h seen) s fun t =>
              (t.dir slot).state = .taking ∧ (t.dir slot).kind = .shard ∧ (t.dir slot).gen = hGen h.target ∧
              (t.hdr slot).handle = h.target ∧ SMap.lookup t.net.ins peer = some ⟨slot, h, 0⟩) ∧
            (v.installTake slot h .shard (v.rec_ k) = none → s.Alone slot → Does (.transferSendRx peer h seen) s fun t =>
              (t.dir slot).state = .free ∧ SMap.lookup t.net.ins peer = none)))) ∧
      (s.plat.parkedSince = none → ∀ peer index data imm,
        (SMap.lookup s.net.ins peer = none → Ignored (.rdmaWriteRx peer index data imm) s) ∧
        (∀ x : XferIn, SMap.lookup s.net.ins peer = some x →
          let v := s.roceTo peer (.ack 1)
          let len := if index = 0 then 4096 else 65536
          ((index ≠ x.next ∨ data.length ≠ len) → Does (.rdmaWriteRx peer index data imm) s fun t =>
            t = s.roceTo peer .nak) ∧
          (index = x.next → data.length = len → crc32c data ≠ imm → s.Alone x.slot → Does (.rdmaWriteRx peer index data imm) s fun t =>
            (t.dir x.slot).state = .free ∧ SMap.lookup t.net.ins peer = none ∧ OtherDirs s t x.slot) ∧
          (∀ u, index = x.next → data.length = len → crc32c data = imm → v.takePage x.slot index data = .ok u →
            Does (.rdmaWriteRx peer index data imm) s fun t =>
              t.reg (Reg.netCnt 6) = s.reg (Reg.netCnt 6) + 1 ∧ (t.dir x.slot).state = (s.dir x.slot).state ∧ t.mem = u.mem ∧
              SMap.lookup t.net.ins peer = if index + 1 < x.hello.pages then some { x with next := index + 1 } else none))))

/-! ### The management endpoint (ch. 21) -/

/-- The endpoint answers with a code and values, and changes nothing else. -/
def Sys2Proof.Machine.Replies (c : Instr) (s : State) (code : Nat) (ws : List Word) : Prop :=
  Does c s fun t => t = s.respond code ws

/-- MCTP control, the terminus, sensors, the effecter and charging records (R590, R715, R727, R728, R730, R731, R735): an
endpoint that does not run answers nothing; reads answer the value and change nothing; SET commands change their one value;
a value out of range or a number not described is answered with an error and changes nothing. Where it rests on the model's
own choices: log entries 18, 34. -/
def Obligations.ManagementReads : Prop :=
  ∀ s : State,
    (s.answers = false → ∀ c ∈ [Instr.getTid, .getPldmTypes, .requestUpdate, .applyComplete, .activateFirmware, .getStatus,
      .getVersion .mctp, .getDigests .mctp, .keyExchange .mctp], Ignored c s) ∧
    (s.answers = true →
      (∀ a, Does (.mctpControl 1 a) s fun t => t = { s with plat.eid := a % 256 }.respond 0 [nat64 (a % 256)]) ∧
      (∀ a, Replies (.mctpControl 2 a) s 0 [nat64 s.plat.eid]) ∧
      (∀ a, Replies (.mctpControl 3 a) s 0 [SMap.get 0 s.plat.fuses 10]) ∧
      (∀ c a, (c = 0 ∨ 5 < c) → Replies (.mctpControl c a) s 5 []) ∧
      Replies .getTid s 0 [nat64 s.plat.tid] ∧
      (∀ v, (v = 0 ∨ v = 0xFF) → Replies (.setTid v) s 2 []) ∧
      (∀ v : BitVec 8, v ≠ 0 → v ≠ 0xFF → Does (.setTid v) s fun t => t = { s with plat.tid := v.toNat }.respond 0 []) ∧
      Replies .getPldmTypes s 0 [0, 2, 5, 63] ∧
      (∀ k, k ∈ [0, 2, 5, 63] → Replies (.getPldmVersion k) s 0 [nat64 k] ∧
        ∃ ws, ws ≠ [] ∧ Replies (.getPldmCommands k) s 0 ws) ∧
      (∀ k, k ∉ [0, 2, 5, 63] → Replies (.getPldmVersion k) s 0x83 [] ∧ Replies (.getPldmCommands k) s 0x83 []) ∧
      (∀ n, (1 ≤ n ∧ n ≤ 24 → Replies (.getPdr n) s 0 [nat64 n]) ∧ (n = 0 ∨ 24 < n → Replies (.getPdr n) s 0x82 [])) ∧
      (∀ n, 1 ≤ n → n ≤ 17 → Replies (.getSensorReading n) s 0 [s.reg (Reg.pltSensor (n - 1))]) ∧
      (∀ n, 18 ≤ n → n ≤ 23 →
        let v := if n ≤ 21 then nat64 (s.field (Reg.seqStatus (n - 18)) 7 4) else if n = 22 then nat64 s.plat.stage
          else nat64 s.host.fatalCode
        Replies (.getSensorReading n) s 0 [v] ∧ Replies (.getStateSensorReadings n) s 0 [v]) ∧
      (∀ n, n = 0 ∨ 23 < n → Replies (.getSensorReading n) s 0x80 [] ∧ Replies (.getStateSensorReadings n) s 0x80 []) ∧
      (∀ v : BitVec 16, 600 ≤ v.toNat → Does (.setNumericEffecterValue 1 v) s fun t =>
        t.field Reg.pltGov 15 0 = v.toNat ∧ (∀ k, k ≠ Reg.pltGov → t.reg k = s.reg k) ∧ t.mem = s.mem ∧
        t.out = s.out ++ [.mgmt s.staticAddress [0]]) ∧
      (∀ v : BitVec 16, v.toNat < 600 → Replies (.setNumericEffecterValue 1 v) s 2 []) ∧
      (∀ e v, e ≠ 1 → Replies (.setNumericEffecterValue e v) s 0x80 [] ∧ Replies (.getNumericEffecterValue e) s 0x80 []) ∧
      Replies (.getNumericEffecterValue 1) s 0 [nat64 (s.field Reg.pltGov 15 0)] ∧
      (∀ k, k < 16 → Replies (.getCharge k) s 0 ((List.range 8).map fun i => s.reg (Reg.pltChargeRec (8 * k + i)))) ∧
      (∀ k, 16 ≤ k → Replies (.getCharge k) s 2 []) ∧
      Replies .queryDeviceIdentifiers s 0 [SMap.get 0 s.plat.fuses 10] ∧
      Replies .getFirmwareParameters s 0 [nat64 (fwVersion (s.bank s.plat.activeBank).control).toNat,
        ((s.plat.tryBank.map fun b => nat64 (fwVersion (s.bank b).control).toNat).getD 0)] ∧
      Replies .getStatus s 0 [nat64 s.plat.upd.code])

/-- Updates and fuses (R712, R720, R721, R723, R724, R728, R729, R737): an update needs FW_UPDATE_EN, writes only the bank that
is not ACTIVE, takes its image in order, goes on only with an image that passes R712, and names its bank TRY when it is
activated; a command in another state changes nothing; fuses are blown from a finished session of the transport, and
measured; debug opens unless DEBUG_LOCK is blown. Where it rests on the model's own choices: log entries 18, 78, 83. -/
def Obligations.UpdatesAndFuses : Prop :=
  ∀ s : State,
    (s.answers = true →
      let p := s.plat
      let keeps := fun (t : State) => t.plat.activeBank = p.activeBank ∧ t.plat.tryBank = p.tryBank ∧
        ∀ b < 2, (b = 0) ≠ (p.updBank = 0) → t.bank b = s.bank b
      (s.updateAllowed = false → Replies .requestUpdate s Code.fwUpdateRefused []) ∧
      (s.updateAllowed = true → p.upd = .idle → Does .requestUpdate s fun t =>
        t.plat = { p with upd := .learn, updBank := 1 - p.activeBank, updDone := [] } ∧ t.out = s.out ++ [.mgmt s.staticAddress [0]]) ∧
      (p.upd = .learn → Does .passComponentTable s fun t => t.plat = { p with upd := .ready }) ∧
      (∀ (k : Fin 2) n, p.upd = .ready → 0 < n → n ≤ 8388608 → Does (.updateComponent k n) s fun t =>
        t.plat.upd = .download ∧ t.plat.updComp = k.val ∧ t.plat.updBank = p.updBank ∧ t.plat.updOffset = 0 ∧ t.plat.updSize = n ∧
        t.updImage = [] ∧ keeps t) ∧
      (∀ off (bs : List Byte), p.upd = .download →
        ((off ≠ p.updOffset ∨ bs = [] ∨ p.updSize < off + bs.length) → Replies (.requestFirmwareData off bs) s 0x82 []) ∧
        (off = p.updOffset → bs ≠ [] → off + bs.length ≤ p.updSize → Does (.requestFirmwareData off bs) s fun t =>
          t.plat.updOffset = off + bs.length ∧ t.plat.upd = .download ∧ t.updImage = s.updImage ++ bs ∧ keeps t)) ∧
      (p.upd = .download → p.updOffset = p.updSize → Does .transferComplete s fun t => t.plat = { p with upd := .verify }) ∧
      (p.upd = .verify →
        (s.imageOk (p.updComp + 1) s.updImage = true → s.svnFused ≤ fwSvn s.updImage → Does .verifyComplete s fun t =>
          t.plat = { p with upd := .apply }) ∧
        ((s.imageOk (p.updComp + 1) s.updImage = false ∨ fwSvn s.updImage < s.svnFused) → Does .verifyComplete s fun t =>
          t.plat = { p with upd := .ready } ∧ t.out = s.out ++ [.mgmt s.staticAddress [BitVec.ofNat 64 Code.fwUpdateRefused]])) ∧
      (p.upd = .apply → Does .applyComplete s fun t => t.plat.upd = .ready ∧ t.plat.updDone = p.updDone ++ [p.updComp] ∧
        (t.bank p.updBank).copies = [true, true, true, true] ∧ t.updImage = s.updImage ∧ keeps t) ∧
      (p.upd = .ready → p.updDone ≠ [] → Does .activateFirmware s fun t => t.plat.tryBank = some p.updBank ∧
        t.plat.upd = .idle ∧ t.plat.activeBank = p.activeBank ∧ t.reg (Reg.pltCnt 7) = s.reg (Reg.pltCnt 7) + 1) ∧
      ((p.upd = .download ∨ p.upd = .verify ∨ p.upd = .apply) → Does .cancelUpdateComponent s fun t =>
        t.plat = { p with upd := .ready }) ∧
      (p.upd ≠ .idle → Does .cancelUpdate s fun t => t.plat = { p with upd := .idle, updDone := [] }) ∧
      (p.upd = .idle → Replies .passComponentTable s 0x84 [] ∧ Replies .transferComplete s 0x84 [] ∧
        Replies .verifyComplete s 0x84 [] ∧ Replies .applyComplete s 0x84 [] ∧ Replies .activateFirmware s 0x84 [] ∧
        Replies .cancelUpdateComponent s 0x84 [] ∧ Replies .cancelUpdate s 0x80 []) ∧
      (∀ ses bs sig, (s.secured ses = false ∨ 256 ≤ p.measLog.length) → Replies (.fuseProgram ses bs sig) s Code.fuseDenied []) ∧
      (∀ ses bs sig, s.secured ses = true → p.measLog.length < 256 → s.arrayBit 932 = false → p.secretMade = true →
        (bs.all (fun i => i < 4096 && !(384 ≤ i && i < 640) && !s.arrayBit i)) = true → Does (.fuseProgram ses bs sig) s fun t =>
          (∀ i < 4096, t.arrayBit i = (s.arrayBit i || bs.contains i)) ∧ t.plat.fuses = p.fuses ∧
          (∃ e, t.plat.measLog = p.measLog ++ [e] ∧ e.reg = 6) ∧ (∀ r, r ≠ 6 → SMap.get 0 t.plat.meas r = SMap.get 0 p.meas r))) ∧
    (∀ d, (s.plat.rails = false ∨ s.plat.stage = 0 ∨ s.fuse 931 = true ∨ 256 ≤ s.plat.measLog.length) →
      Ignored (.jtagSession d) s) ∧
    (∀ d, s.plat.rails = true → s.plat.stage ≠ 0 → s.fuse 931 = false → s.plat.measLog.length < 256 →
      Does (.jtagSession d) s fun t => t.plat.jtagOpen = true ∧
        (∃ e, t.plat.measLog = s.plat.measLog ++ [e] ∧ e.reg = 6 ∧ e.digest = d) ∧
        SMap.get 0 t.plat.meas 6 =
          Config.sha384 (leBytes (SMap.get 0 s.plat.meas 6).toNat 48 ++ leBytes d.toNat 48))

/-- SPDM (R725, R726, R737): a connection goes through version, capabilities and algorithms; digests, certificates, challenges,
measurements and key exchange need all three; a transport holds at most 4 sessions, each function 2; FINISH establishes a
session and counts it, and only an established one takes KEY_UPDATE, HEARTBEAT and END_SESSION. Where it rests on the
model's own choices: log entries 18, 78. -/
def Obligations.Attestation : Prop :=
  ∀ (s : State) (p : SpdmPort), s.answers = true →
    let k := s.conn p
    let one := fun (t : State) (c : SpdmConn) => t.conn p = c ∧ (∀ q, q ≠ p → t.conn q = s.conn q) ∧
      t.plat.sessions = s.plat.sessions ∧ t.regs = s.regs
    let early := fun c => Replies c s 0x7F [4]
    let mine := fun (n : Nat) (done : Bool) => s.plat.sessions.any fun x => x.port = p && x.id = n && x.finished = done
    let free := fun c code ws => Does c s fun t => t.plat = s.plat ∧ t.free = s.free + 1 ∧
      ∃ w : Word, t.out = s.out ++ [.mgmt s.staticAddress (BitVec.ofNat 64 code :: (ws ++ [w]))]
    Does (.getVersion p) s (fun t => one t { version := 1 } ∧ t.out = s.out ++ [.mgmt s.staticAddress [0x04, 0x12, 0x13]]) ∧
    (k.version ≠ 0 → Does (.getCapabilities p) s fun t => one t { k with caps := true }) ∧
    (k.version = 0 → early (.getCapabilities p)) ∧
    (k.caps = true → Does (.negotiateAlgorithms p) s fun t => one t { k with algs := true }) ∧
    (k.caps = false → early (.negotiateAlgorithms p)) ∧
    (k.algs = false → ∀ n, early (.getDigests p) ∧ early (.getCertificate p n) ∧ early (.challenge p n) ∧
      early (.getMeasurements p n) ∧ early (.keyExchange p)) ∧
    (k.algs = true →
      free (.getDigests p) 0x01 [1] ∧ free (.getCertificate p 0) 0x02 [0] ∧ free (.challenge p 0) 0x03 [0] ∧
      (∀ n, n ≠ 0 → Replies (.getCertificate p n) s 0x7F [1] ∧ Replies (.challenge p n) s 0x7F [1]) ∧
      free (.getMeasurements p 0) 0x60 [9] ∧
      (∀ n, 1 ≤ n → n ≤ 8 → free (.getMeasurements p n) 0x60 (measWords (SMap.get 0 s.plat.meas (n - 1)))) ∧
      (∀ n, 8 < n → n ≠ 16 → Replies (.getMeasurements p n) s 0x7F [1]) ∧
      (let used := (s.plat.sessions.filter fun x => x.port = p).length
       (portSessions p ≤ used → Replies (.keyExchange p) s 0x7F [0x0B]) ∧
       (used < portSessions p → Does (.keyExchange p) s fun t =>
         ∃ x, t.plat.sessions = s.plat.sessions ++ [x] ∧ x.port = p ∧ x.finished = false ∧ x.id = s.plat.nextSession ∧
           t.plat.nextSession = s.plat.nextSession + 1))) ∧
    (∀ n,
      (mine n false = true → Does (.finish p n) s fun t => t.reg (Reg.pltCnt 6) = s.reg (Reg.pltCnt 6) + 1 ∧
        t.plat.sessions.length = s.plat.sessions.length ∧
        ∀ x ∈ t.plat.sessions, x.port = p → x.id = n → x.finished = true) ∧
      (mine n false = false → Replies (.finish p n) s 0x7F [2]) ∧
      (mine n true = true →
        (Does (.keyUpdate p n) s fun t => t.plat.sessions = s.plat.sessions.map fun (x : SpdmSession) =>
          if x.port = p ∧ x.id = n then { x with keyGen := x.keyGen + 1 } else x) ∧
        (Does (.heartbeat p n) s fun t => ∀ x ∈ t.plat.sessions, x.port = p → x.id = n → x.beatNs = s.now) ∧
        (Does (.endSession p n) s fun t => t.plat.sessions = s.plat.sessions.filter fun (x : SpdmSession) =>
          decide (¬ (x.port = p ∧ x.id = n)))) ∧
      (mine n true = false → Replies (.keyUpdate p n) s 0x7F [2] ∧ Replies (.heartbeat p n) s 0x7F [2] ∧
        Replies (.endSession p n) s 0x7F [2]))

/-! ### Rules stated whole -/

/-- R553: METER_SET replaces words 0x00 to 0x10 and 0x28 of a customer's record in one operation; bucket levels are clamped to the new
sizes and SH_CREDIT to the new SH_BURST, and the times are kept. -/
def Obligations.MeterSetReplacesAndClamps : Prop :=
  ∀ (s : State) (id : Nat) (c : HostCmd) (r : Item), Waits s id 0x32 c →
    let cu := bits (c.arg 0) 19 0
    bits r.w0 63 62 ≠ 3 → (s.leaf (s.meterAddr cu / 65536)).v = true → s.tabled (s.meterAddr cu / 65536) = false →
      Does (.meterSet id (some r)) s fun t =>
        (t.meterRec cu).w0 = setBits r.w0 38 0 0 ∧ (t.meterRec cu).w1 = r.w1 ∧ (t.meterRec cu).w2 = r.w2 ∧ (t.meterRec cu).w5 = r.w5 ∧
        bits (t.meterRec cu).w3 63 32 = min (bits (s.meterRec cu).w3 63 32) (bits r.w2 63 32) ∧
        bits (t.meterRec cu).w3 31 0 = min (bits (s.meterRec cu).w3 31 0) (bits r.w2 31 0) ∧
        t.credit cu = min (s.credit cu) ((bits r.w5 31 0 : Nat) : Int) ∧
        (t.meterRec cu).w4 = (s.meterRec cu).w4 ∧ (t.meterRec cu).w6 = (s.meterRec cu).w6 ∧
        t.reg (Reg.mtrCnt 7) = s.reg (Reg.mtrCnt 7) + 1 ∧ Answers s t c 0 0 0

/-- R681: setting EN with a size outside 16 to 4,096, or not a multiple of 16, sets ERROR instead of enabling the pair; with both
sizes good the pair is enabled. -/
def Obligations.RingSizesAreChecked : Prop :=
  ∀ (s : State) (f : Fin 2) (q : Fin 16) (v : Word), s.portUp = true → bit v 63 = true →
    let p := (s.fn f.val).qp q.val
    let ok := fun (n : Nat) => 16 ≤ n ∧ n ≤ 4096 ∧ n % 16 = 0
    p.en = false →
      (¬ (ok (bits v 12 0) ∧ ok (bits v 28 16)) → Does (.qcfgWrite f q v) s fun t =>
        ((t.fn f.val).qp q.val).error = true ∧ ((t.fn f.val).qp q.val).en = false) ∧
      (ok (bits v 12 0) → ok (bits v 28 16) → Does (.qcfgWrite f q v) s fun t =>
        ((t.fn f.val).qp q.val).en = true ∧ ((t.fn f.val).qp q.val).error = p.error)

/-- R333: a flush discards every item of the queue at every level and sets COUNT to 0; items in pop latches and in readers' hands, the
notify tally, UNDERRUN and ECC_LOST stay; waiting pushes enter after it in their order of arrival; FLUSHED grows by the items
discarded. -/
def Obligations.FlushDiscardsTheQueue : Prop :=
  ∀ (s : State) (queue : BitVec 9) (ns : Nat), s.live = true → s.isBusy busyFlush = false →
    let q := queue.toNat
    let x := s.queue q
    (x.waiting = [] → Does (.hqFlush queue ns) s fun t =>
      (t.queue q).items = [] ∧ bits (t.qstat q) 12 0 = 0 ∧ t.hq.hand = s.hq.hand ∧
      (∀ i < 32, t.reg (Reg.hqLatch i) = s.reg (Reg.hqLatch i)) ∧ t.tly = s.tly ∧
      bits (t.reg (Reg.hqQstat q)) 47 46 = bits (s.reg (Reg.hqQstat q)) 47 46 ∧
      t.reg (Reg.hqCnt 2) = s.reg (Reg.hqCnt 2) + BitVec.ofNat 64 x.items.length) ∧
    (x.waiting.length ≤ s.qDepth q → Does (.hqFlush queue ns) s fun t =>
      (t.queue q).items = x.waiting.map (fun w => QEntry.mk w.prio w.item false) ∧ (t.queue q).waiting = [] ∧
      t.hq.hand = s.hq.hand ∧ (∀ i < 32, t.reg (Reg.hqLatch i) = s.reg (Reg.hqLatch i)) ∧
      bits (t.reg (Reg.hqQstat q)) 47 46 = bits (s.reg (Reg.hqQstat q)) 47 46 ∧
      t.reg (Reg.hqCnt 2) = s.reg (Reg.hqCnt 2) + BitVec.ofNat 64 x.items.length)
end

