-- ==== Sys2Proof/Laws/Store.lean ====
section
/-! SUPPORT. Laws of sparse tables and bit fields: what a read gives after a write, and that the canonical form stays. -/

namespace Sys2Proof

/-! ### Sparse tables -/

theorem SMap.lookup_insertSorted {α : Type} (k : Nat) (v : α) (m : SMap α) (j : Nat) (h : SMap.lookup m k = none) :
    SMap.lookup (SMap.insertSorted k v m) j = if j = k then some v else SMap.lookup m j := by
  induction m with
  | nil => simp [SMap.insertSorted, SMap.lookup, eq_comm]
  | cons p m ih =>
    obtain ⟨i, w⟩ := p
    rw [SMap.lookup] at h
    have hik : i ≠ k := by
      intro e
      simp [e] at h
    simp only [if_neg hik] at h
    unfold SMap.insertSorted
    split
    · by_cases hj : j = k
      · subst hj; simp [SMap.lookup]
      · simp [SMap.lookup, hj, Ne.symm hj]
    · rw [SMap.lookup, ih h]
      by_cases hj : j = k
      · subst hj; simp [hik]
      · simp [SMap.lookup, hj]

theorem SMap.lookup_erase {α : Type} (m : SMap α) (k j : Nat) :
    SMap.lookup (SMap.erase m k) j = if j = k then none else SMap.lookup m j := by
  induction m with
  | nil => simp [SMap.erase, SMap.lookup]
  | cons p m ih =>
    obtain ⟨i, w⟩ := p
    by_cases hi : i = k
    · subst hi
      have : SMap.erase ((i, w) :: m) i = SMap.erase m i := by simp [SMap.erase]
      rw [this, ih]
      by_cases hj : j = i
      · simp [hj]
      · simp [hj, SMap.lookup, Ne.symm hj]
    · have : SMap.erase ((i, w) :: m) k = (i, w) :: SMap.erase m k := by simp [SMap.erase, hi]
      rw [this, SMap.lookup, ih, SMap.lookup]
      by_cases hj : j = k
      · subst hj; simp [hi]
      · simp [hj]

theorem SMap.lookup_put {α : Type} (m : SMap α) (k j : Nat) (v : α) :
    SMap.lookup (SMap.put m k v) j = if j = k then some v else SMap.lookup m j := by
  rw [SMap.put, SMap.lookup_insertSorted _ _ _ _ (by simp [SMap.lookup_erase]), SMap.lookup_erase]
  split <;> simp_all

/-- A read after a listing at the same number gives the value listed; every other number reads as before. -/
theorem SMap.get_put {α : Type} (d : α) (m : SMap α) (k j : Nat) (v : α) :
    SMap.get d (SMap.put m k v) j = if j = k then v else SMap.get d m j := by
  simp only [SMap.get, SMap.lookup_put]
  split <;> simp

theorem SMap.get_erase {α : Type} (d : α) (m : SMap α) (k j : Nat) :
    SMap.get d (SMap.erase m k) j = if j = k then d else SMap.get d m j := by
  simp only [SMap.get, SMap.lookup_erase]
  split <;> simp

theorem SMap.get_set {α : Type} [DecidableEq α] (d : α) (m : SMap α) (k j : Nat) (v : α) :
    SMap.get d (SMap.set d m k v) j = if j = k then v else SMap.get d m j := by
  unfold SMap.set
  split
  · rename_i h
    rw [SMap.get_erase]
    split <;> simp_all
  · rw [SMap.get_put]

/-- Another number reads as before, whatever default it reads with. -/
theorem SMap.get_set_other {α : Type} [DecidableEq α] (d e : α) (m : SMap α) (k j : Nat) (v : α) (h : j ≠ k) :
    SMap.get d (SMap.set e m k v) j = SMap.get d m j := by
  unfold SMap.set
  split
  · simp [SMap.get_erase, h]
  · simp [SMap.get_put, h]

@[simp] theorem SMap.get_set_same {α : Type} [DecidableEq α] (d : α) (m : SMap α) (k : Nat) (v : α) :
    SMap.get d (SMap.set d m k v) k = v := by simp [SMap.get_set]

@[simp] theorem SMap.get_put_same {α : Type} (d : α) (m : SMap α) (k : Nat) (v : α) :
    SMap.get d (SMap.put m k v) k = v := by simp [SMap.get_put]

@[simp] theorem SMap.lookup_put_same {α : Type} (m : SMap α) (k : Nat) (v : α) :
    SMap.lookup (SMap.put m k v) k = some v := by simp [SMap.lookup_put]

@[simp] theorem SMap.lookup_erase_same {α : Type} (m : SMap α) (k : Nat) :
    SMap.lookup (SMap.erase m k) k = none := by simp [SMap.lookup_erase]

/-! ### Bit fields -/

theorem bits_lt (w : Word) (hi lo : Nat) : bits w hi lo < 2 ^ (hi - lo + 1) := Nat.mod_lt _ (by positivity)

theorem fld_toNat (hi lo v : Nat) (h : hi < 64) (hl : lo ≤ hi) : (fld hi lo v).toNat = (v % 2 ^ (hi - lo + 1)) * 2 ^ lo := by
  unfold fld
  rw [BitVec.toNat_ofNat, Nat.mod_eq_of_lt]
  have h1 : v % 2 ^ (hi - lo + 1) < 2 ^ (hi - lo + 1) := Nat.mod_lt _ (by positivity)
  calc v % 2 ^ (hi - lo + 1) * 2 ^ lo < 2 ^ (hi - lo + 1) * 2 ^ lo := by
        apply Nat.mul_lt_mul_of_pos_right h1 (by positivity)
    _ = 2 ^ (hi + 1) := by rw [← pow_add]; congr 1; omega
    _ ≤ 2 ^ 64 := Nat.pow_le_pow_right (by norm_num) (by omega)

theorem fld_getLsbD (hi lo v i : Nat) (h : hi < 64) (hl : lo ≤ hi) :
    (fld hi lo v).getLsbD i = (decide (lo ≤ i ∧ i ≤ hi) && v.testBit (i - lo)) := by
  rw [BitVec.getLsbD, fld_toNat hi lo v h hl, Nat.mul_comm, Nat.testBit_two_pow_mul, Nat.testBit_mod_two_pow]
  by_cases h1 : lo ≤ i
  · by_cases h2 : i ≤ hi
    · have : i - lo < hi - lo + 1 := by omega
      simp [h1, h2, this]
    · have : ¬ (i - lo < hi - lo + 1) := by omega
      simp [h2, this]
  · simp [h1]

theorem fldMask_eq (hi lo : Nat) : fldMask hi lo = fld hi lo (2 ^ (hi - lo + 1) - 1) := by
  unfold fldMask fld
  rw [Nat.mod_eq_of_lt (Nat.sub_lt (by positivity) (by norm_num))]

/-- A word with a field replaced, bit by bit. -/
theorem setBits_getLsbD (w : Word) (hi lo v i : Nat) (h : hi < 64) (hl : lo ≤ hi) :
    (setBits w hi lo v).getLsbD i = if lo ≤ i ∧ i ≤ hi then v.testBit (i - lo) else w.getLsbD i := by
  unfold setBits
  rw [fldMask_eq]
  simp only [BitVec.getLsbD_or, BitVec.getLsbD_and, BitVec.getLsbD_not, fld_getLsbD _ _ _ _ h hl, Nat.testBit_two_pow_sub_one]
  by_cases h1 : lo ≤ i ∧ i ≤ hi
  · have : i - lo < hi - lo + 1 := by omega
    have : i < 64 := by omega
    simp [*]
  · by_cases h2 : i < 64
    · simp [h1, h2]
    · have : w.getLsbD i = false := BitVec.getLsbD_of_ge _ _ (by omega)
      simp [h1, this]

theorem bits_testBit (w : Word) (hi lo i : Nat) : (bits w hi lo).testBit i = (decide (i < hi - lo + 1) && w.getLsbD (lo + i)) := by
  unfold bits
  rw [Nat.testBit_mod_two_pow, Nat.testBit_div_two_pow, BitVec.getLsbD, Nat.add_comm i lo]

/-- A field reads what was put into it. -/
theorem bits_setBits_same (w : Word) (hi lo v : Nat) (h : hi < 64) (hl : lo ≤ hi) :
    bits (setBits w hi lo v) hi lo = v % 2 ^ (hi - lo + 1) := by
  apply Nat.eq_of_testBit_eq
  intro i
  rw [bits_testBit, setBits_getLsbD _ _ _ _ _ h hl, Nat.testBit_mod_two_pow]
  by_cases h1 : i < hi - lo + 1
  · have : lo ≤ lo + i ∧ lo + i ≤ hi := by omega
    simp [h1, this]
  · simp [h1]

/-- A field that does not meet the one replaced reads as before. -/
theorem bits_setBits_other (w : Word) (hi lo v hi' lo' : Nat) (h : hi < 64) (hl : lo ≤ hi) (hl' : lo' ≤ hi')
    (hd : hi' < lo ∨ hi < lo') : bits (setBits w hi lo v) hi' lo' = bits w hi' lo' := by
  apply Nat.eq_of_testBit_eq
  intro i
  rw [bits_testBit, bits_testBit, setBits_getLsbD _ _ _ _ _ h hl]
  by_cases h1 : i < hi' - lo' + 1
  · have : ¬ (lo ≤ lo' + i ∧ lo' + i ≤ hi) := by omega
    simp [this]
  · simp [h1]

theorem bits_fld_same (hi lo v : Nat) (h : hi < 64) (hl : lo ≤ hi) : bits (fld hi lo v) hi lo = v % 2 ^ (hi - lo + 1) := by
  apply Nat.eq_of_testBit_eq
  intro i
  rw [bits_testBit, fld_getLsbD _ _ _ _ h hl, Nat.testBit_mod_two_pow]
  by_cases h1 : i < hi - lo + 1
  · have : lo ≤ lo + i ∧ lo + i ≤ hi := by omega
    simp [h1, this]
  · simp [h1]

theorem bits_fld_other (hi lo v hi' lo' : Nat) (h : hi < 64) (hl : lo ≤ hi) (hl' : lo' ≤ hi') (hd : hi' < lo ∨ hi < lo') :
    bits (fld hi lo v) hi' lo' = 0 := by
  apply Nat.eq_of_testBit_eq
  intro i
  rw [bits_testBit, fld_getLsbD _ _ _ _ h hl]
  by_cases h1 : i < hi' - lo' + 1
  · have : ¬ (lo ≤ lo' + i ∧ lo' + i ≤ hi) := by omega
    simp [this]
  · simp [h1]

/-- The fields of two words put together. -/
theorem bits_or (a b : Word) (hi lo : Nat) : bits (a ||| b) hi lo = bits a hi lo ||| bits b hi lo := by
  apply Nat.eq_of_testBit_eq
  intro i
  rw [bits_testBit, Nat.testBit_or, bits_testBit, bits_testBit, BitVec.getLsbD_or]
  cases decide (i < hi - lo + 1) <;> simp

end Sys2Proof
end

