-- ==== Sys2Proof/Laws/State.lean ====
section
/-! SUPPORT. One lemma per field per update of the state, each true by definition: an update leaves every other field. -/

namespace Sys2Proof.Machine

open Sys2Proof

variable (s : State)

/-! ### setReg -/

@[simp] theorem State.setReg_now (k : Nat) (v : Word) : (s.setReg k v).now = s.now := (rfl)
@[simp] theorem State.setReg_pending (k : Nat) (v : Word) : (s.setReg k v).pending = s.pending := (rfl)
@[simp] theorem State.setReg_ticks (k : Nat) (v : Word) : (s.setReg k v).ticks = s.ticks := (rfl)
@[simp] theorem State.setReg_free (k : Nat) (v : Word) : (s.setReg k v).free = s.free := (rfl)
@[simp] theorem State.setReg_shadow (k : Nat) (v : Word) : (s.setReg k v).shadow = s.shadow := (rfl)
@[simp] theorem State.setReg_mem (k : Nat) (v : Word) : (s.setReg k v).mem = s.mem := (rfl)
@[simp] theorem State.setReg_out (k : Nat) (v : Word) : (s.setReg k v).out = s.out := (rfl)
@[simp] theorem State.setReg_plat (k : Nat) (v : Word) : (s.setReg k v).plat = s.plat := (rfl)
@[simp] theorem State.setReg_host (k : Nat) (v : Word) : (s.setReg k v).host = s.host := (rfl)
@[simp] theorem State.setReg_hq (k : Nat) (v : Word) : (s.setReg k v).hq = s.hq := (rfl)
@[simp] theorem State.setReg_tly (k : Nat) (v : Word) : (s.setReg k v).tly = s.tly := (rfl)
@[simp] theorem State.setReg_tsm (k : Nat) (v : Word) : (s.setReg k v).tsm = s.tsm := (rfl)
@[simp] theorem State.setReg_hmp (k : Nat) (v : Word) : (s.setReg k v).hmp = s.hmp := (rfl)
@[simp] theorem State.setReg_kvs (k : Nat) (v : Word) : (s.setReg k v).kvs = s.kvs := (rfl)
@[simp] theorem State.setReg_cmp (k : Nat) (v : Word) : (s.setReg k v).cmp = s.cmp := (rfl)
@[simp] theorem State.setReg_comp (k : Nat) (v : Word) : (s.setReg k v).comp = s.comp := (rfl)
@[simp] theorem State.setReg_txt (k : Nat) (v : Word) : (s.setReg k v).txt = s.txt := (rfl)
@[simp] theorem State.setReg_cfg (k : Nat) (v : Word) : (s.setReg k v).cfg = s.cfg := (rfl)
@[simp] theorem State.setReg_fw (k : Nat) (v : Word) : (s.setReg k v).fw = s.fw := (rfl)
@[simp] theorem State.setReg_trl (k : Nat) (v : Word) : (s.setReg k v).trl = s.trl := (rfl)
@[simp] theorem State.setReg_fab (k : Nat) (v : Word) : (s.setReg k v).fab = s.fab := (rfl)
@[simp] theorem State.setReg_snp (k : Nat) (v : Word) : (s.setReg k v).snp = s.snp := (rfl)
@[simp] theorem State.setReg_dram (k : Nat) (v : Word) : (s.setReg k v).dram = s.dram := (rfl)
@[simp] theorem State.setReg_sett (k : Nat) (v : Word) : (s.setReg k v).sett = s.sett := (rfl)
@[simp] theorem State.setReg_net (k : Nat) (v : Word) : (s.setReg k v).net = s.net := (rfl)
@[simp] theorem State.setReg_seu (k : Nat) (v : Word) : (s.setReg k v).seu = s.seu := (rfl)
@[simp] theorem State.setReg_flt (k : Nat) (v : Word) : (s.setReg k v).flt = s.flt := (rfl)

/-! ### setField -/

@[simp] theorem State.setField_now (k hi lo v : Nat) : (s.setField k hi lo v).now = s.now := (rfl)
@[simp] theorem State.setField_pending (k hi lo v : Nat) : (s.setField k hi lo v).pending = s.pending := (rfl)
@[simp] theorem State.setField_ticks (k hi lo v : Nat) : (s.setField k hi lo v).ticks = s.ticks := (rfl)
@[simp] theorem State.setField_free (k hi lo v : Nat) : (s.setField k hi lo v).free = s.free := (rfl)
@[simp] theorem State.setField_shadow (k hi lo v : Nat) : (s.setField k hi lo v).shadow = s.shadow := (rfl)
@[simp] theorem State.setField_mem (k hi lo v : Nat) : (s.setField k hi lo v).mem = s.mem := (rfl)
@[simp] theorem State.setField_out (k hi lo v : Nat) : (s.setField k hi lo v).out = s.out := (rfl)
@[simp] theorem State.setField_plat (k hi lo v : Nat) : (s.setField k hi lo v).plat = s.plat := (rfl)
@[simp] theorem State.setField_host (k hi lo v : Nat) : (s.setField k hi lo v).host = s.host := (rfl)
@[simp] theorem State.setField_hq (k hi lo v : Nat) : (s.setField k hi lo v).hq = s.hq := (rfl)
@[simp] theorem State.setField_tly (k hi lo v : Nat) : (s.setField k hi lo v).tly = s.tly := (rfl)
@[simp] theorem State.setField_tsm (k hi lo v : Nat) : (s.setField k hi lo v).tsm = s.tsm := (rfl)
@[simp] theorem State.setField_hmp (k hi lo v : Nat) : (s.setField k hi lo v).hmp = s.hmp := (rfl)
@[simp] theorem State.setField_kvs (k hi lo v : Nat) : (s.setField k hi lo v).kvs = s.kvs := (rfl)
@[simp] theorem State.setField_cmp (k hi lo v : Nat) : (s.setField k hi lo v).cmp = s.cmp := (rfl)
@[simp] theorem State.setField_comp (k hi lo v : Nat) : (s.setField k hi lo v).comp = s.comp := (rfl)
@[simp] theorem State.setField_txt (k hi lo v : Nat) : (s.setField k hi lo v).txt = s.txt := (rfl)
@[simp] theorem State.setField_cfg (k hi lo v : Nat) : (s.setField k hi lo v).cfg = s.cfg := (rfl)
@[simp] theorem State.setField_fw (k hi lo v : Nat) : (s.setField k hi lo v).fw = s.fw := (rfl)
@[simp] theorem State.setField_trl (k hi lo v : Nat) : (s.setField k hi lo v).trl = s.trl := (rfl)
@[simp] theorem State.setField_fab (k hi lo v : Nat) : (s.setField k hi lo v).fab = s.fab := (rfl)
@[simp] theorem State.setField_snp (k hi lo v : Nat) : (s.setField k hi lo v).snp = s.snp := (rfl)
@[simp] theorem State.setField_dram (k hi lo v : Nat) : (s.setField k hi lo v).dram = s.dram := (rfl)
@[simp] theorem State.setField_sett (k hi lo v : Nat) : (s.setField k hi lo v).sett = s.sett := (rfl)
@[simp] theorem State.setField_net (k hi lo v : Nat) : (s.setField k hi lo v).net = s.net := (rfl)
@[simp] theorem State.setField_seu (k hi lo v : Nat) : (s.setField k hi lo v).seu = s.seu := (rfl)
@[simp] theorem State.setField_flt (k hi lo v : Nat) : (s.setField k hi lo v).flt = s.flt := (rfl)

/-! ### bumpBy -/

@[simp] theorem State.bumpBy_now (k n : Nat) : (s.bumpBy k n).now = s.now := (rfl)
@[simp] theorem State.bumpBy_pending (k n : Nat) : (s.bumpBy k n).pending = s.pending := (rfl)
@[simp] theorem State.bumpBy_ticks (k n : Nat) : (s.bumpBy k n).ticks = s.ticks := (rfl)
@[simp] theorem State.bumpBy_free (k n : Nat) : (s.bumpBy k n).free = s.free := (rfl)
@[simp] theorem State.bumpBy_shadow (k n : Nat) : (s.bumpBy k n).shadow = s.shadow := (rfl)
@[simp] theorem State.bumpBy_mem (k n : Nat) : (s.bumpBy k n).mem = s.mem := (rfl)
@[simp] theorem State.bumpBy_out (k n : Nat) : (s.bumpBy k n).out = s.out := (rfl)
@[simp] theorem State.bumpBy_plat (k n : Nat) : (s.bumpBy k n).plat = s.plat := (rfl)
@[simp] theorem State.bumpBy_host (k n : Nat) : (s.bumpBy k n).host = s.host := (rfl)
@[simp] theorem State.bumpBy_hq (k n : Nat) : (s.bumpBy k n).hq = s.hq := (rfl)
@[simp] theorem State.bumpBy_tly (k n : Nat) : (s.bumpBy k n).tly = s.tly := (rfl)
@[simp] theorem State.bumpBy_tsm (k n : Nat) : (s.bumpBy k n).tsm = s.tsm := (rfl)
@[simp] theorem State.bumpBy_hmp (k n : Nat) : (s.bumpBy k n).hmp = s.hmp := (rfl)
@[simp] theorem State.bumpBy_kvs (k n : Nat) : (s.bumpBy k n).kvs = s.kvs := (rfl)
@[simp] theorem State.bumpBy_cmp (k n : Nat) : (s.bumpBy k n).cmp = s.cmp := (rfl)
@[simp] theorem State.bumpBy_comp (k n : Nat) : (s.bumpBy k n).comp = s.comp := (rfl)
@[simp] theorem State.bumpBy_txt (k n : Nat) : (s.bumpBy k n).txt = s.txt := (rfl)
@[simp] theorem State.bumpBy_cfg (k n : Nat) : (s.bumpBy k n).cfg = s.cfg := (rfl)
@[simp] theorem State.bumpBy_fw (k n : Nat) : (s.bumpBy k n).fw = s.fw := (rfl)
@[simp] theorem State.bumpBy_trl (k n : Nat) : (s.bumpBy k n).trl = s.trl := (rfl)
@[simp] theorem State.bumpBy_fab (k n : Nat) : (s.bumpBy k n).fab = s.fab := (rfl)
@[simp] theorem State.bumpBy_snp (k n : Nat) : (s.bumpBy k n).snp = s.snp := (rfl)
@[simp] theorem State.bumpBy_dram (k n : Nat) : (s.bumpBy k n).dram = s.dram := (rfl)
@[simp] theorem State.bumpBy_sett (k n : Nat) : (s.bumpBy k n).sett = s.sett := (rfl)
@[simp] theorem State.bumpBy_net (k n : Nat) : (s.bumpBy k n).net = s.net := (rfl)
@[simp] theorem State.bumpBy_seu (k n : Nat) : (s.bumpBy k n).seu = s.seu := (rfl)
@[simp] theorem State.bumpBy_flt (k n : Nat) : (s.bumpBy k n).flt = s.flt := (rfl)

/-! ### bump -/

@[simp] theorem State.bump_now (k : Nat) : (s.bump k).now = s.now := (rfl)
@[simp] theorem State.bump_pending (k : Nat) : (s.bump k).pending = s.pending := (rfl)
@[simp] theorem State.bump_ticks (k : Nat) : (s.bump k).ticks = s.ticks := (rfl)
@[simp] theorem State.bump_free (k : Nat) : (s.bump k).free = s.free := (rfl)
@[simp] theorem State.bump_shadow (k : Nat) : (s.bump k).shadow = s.shadow := (rfl)
@[simp] theorem State.bump_mem (k : Nat) : (s.bump k).mem = s.mem := (rfl)
@[simp] theorem State.bump_out (k : Nat) : (s.bump k).out = s.out := (rfl)
@[simp] theorem State.bump_plat (k : Nat) : (s.bump k).plat = s.plat := (rfl)
@[simp] theorem State.bump_host (k : Nat) : (s.bump k).host = s.host := (rfl)
@[simp] theorem State.bump_hq (k : Nat) : (s.bump k).hq = s.hq := (rfl)
@[simp] theorem State.bump_tly (k : Nat) : (s.bump k).tly = s.tly := (rfl)
@[simp] theorem State.bump_tsm (k : Nat) : (s.bump k).tsm = s.tsm := (rfl)
@[simp] theorem State.bump_hmp (k : Nat) : (s.bump k).hmp = s.hmp := (rfl)
@[simp] theorem State.bump_kvs (k : Nat) : (s.bump k).kvs = s.kvs := (rfl)
@[simp] theorem State.bump_cmp (k : Nat) : (s.bump k).cmp = s.cmp := (rfl)
@[simp] theorem State.bump_comp (k : Nat) : (s.bump k).comp = s.comp := (rfl)
@[simp] theorem State.bump_txt (k : Nat) : (s.bump k).txt = s.txt := (rfl)
@[simp] theorem State.bump_cfg (k : Nat) : (s.bump k).cfg = s.cfg := (rfl)
@[simp] theorem State.bump_fw (k : Nat) : (s.bump k).fw = s.fw := (rfl)
@[simp] theorem State.bump_trl (k : Nat) : (s.bump k).trl = s.trl := (rfl)
@[simp] theorem State.bump_fab (k : Nat) : (s.bump k).fab = s.fab := (rfl)
@[simp] theorem State.bump_snp (k : Nat) : (s.bump k).snp = s.snp := (rfl)
@[simp] theorem State.bump_dram (k : Nat) : (s.bump k).dram = s.dram := (rfl)
@[simp] theorem State.bump_sett (k : Nat) : (s.bump k).sett = s.sett := (rfl)
@[simp] theorem State.bump_net (k : Nat) : (s.bump k).net = s.net := (rfl)
@[simp] theorem State.bump_seu (k : Nat) : (s.bump k).seu = s.seu := (rfl)
@[simp] theorem State.bump_flt (k : Nat) : (s.bump k).flt = s.flt := (rfl)

/-! ### writeBytes -/

@[simp] theorem State.writeBytes_now (a : Nat) (bs : List Byte) : (s.writeBytes a bs).now = s.now := (rfl)
@[simp] theorem State.writeBytes_pending (a : Nat) (bs : List Byte) : (s.writeBytes a bs).pending = s.pending := (rfl)
@[simp] theorem State.writeBytes_ticks (a : Nat) (bs : List Byte) : (s.writeBytes a bs).ticks = s.ticks := (rfl)
@[simp] theorem State.writeBytes_free (a : Nat) (bs : List Byte) : (s.writeBytes a bs).free = s.free := (rfl)
@[simp] theorem State.writeBytes_regs (a : Nat) (bs : List Byte) : (s.writeBytes a bs).regs = s.regs := (rfl)
@[simp] theorem State.writeBytes_shadow (a : Nat) (bs : List Byte) : (s.writeBytes a bs).shadow = s.shadow := (rfl)
@[simp] theorem State.writeBytes_out (a : Nat) (bs : List Byte) : (s.writeBytes a bs).out = s.out := (rfl)
@[simp] theorem State.writeBytes_plat (a : Nat) (bs : List Byte) : (s.writeBytes a bs).plat = s.plat := (rfl)
@[simp] theorem State.writeBytes_host (a : Nat) (bs : List Byte) : (s.writeBytes a bs).host = s.host := (rfl)
@[simp] theorem State.writeBytes_hq (a : Nat) (bs : List Byte) : (s.writeBytes a bs).hq = s.hq := (rfl)
@[simp] theorem State.writeBytes_tly (a : Nat) (bs : List Byte) : (s.writeBytes a bs).tly = s.tly := (rfl)
@[simp] theorem State.writeBytes_tsm (a : Nat) (bs : List Byte) : (s.writeBytes a bs).tsm = s.tsm := (rfl)
@[simp] theorem State.writeBytes_hmp (a : Nat) (bs : List Byte) : (s.writeBytes a bs).hmp = s.hmp := (rfl)
@[simp] theorem State.writeBytes_kvs (a : Nat) (bs : List Byte) : (s.writeBytes a bs).kvs = s.kvs := (rfl)
@[simp] theorem State.writeBytes_cmp (a : Nat) (bs : List Byte) : (s.writeBytes a bs).cmp = s.cmp := (rfl)
@[simp] theorem State.writeBytes_comp (a : Nat) (bs : List Byte) : (s.writeBytes a bs).comp = s.comp := (rfl)
@[simp] theorem State.writeBytes_txt (a : Nat) (bs : List Byte) : (s.writeBytes a bs).txt = s.txt := (rfl)
@[simp] theorem State.writeBytes_cfg (a : Nat) (bs : List Byte) : (s.writeBytes a bs).cfg = s.cfg := (rfl)
@[simp] theorem State.writeBytes_fw (a : Nat) (bs : List Byte) : (s.writeBytes a bs).fw = s.fw := (rfl)
@[simp] theorem State.writeBytes_trl (a : Nat) (bs : List Byte) : (s.writeBytes a bs).trl = s.trl := (rfl)
@[simp] theorem State.writeBytes_fab (a : Nat) (bs : List Byte) : (s.writeBytes a bs).fab = s.fab := (rfl)
@[simp] theorem State.writeBytes_snp (a : Nat) (bs : List Byte) : (s.writeBytes a bs).snp = s.snp := (rfl)
@[simp] theorem State.writeBytes_dram (a : Nat) (bs : List Byte) : (s.writeBytes a bs).dram = s.dram := (rfl)
@[simp] theorem State.writeBytes_sett (a : Nat) (bs : List Byte) : (s.writeBytes a bs).sett = s.sett := (rfl)
@[simp] theorem State.writeBytes_net (a : Nat) (bs : List Byte) : (s.writeBytes a bs).net = s.net := (rfl)
@[simp] theorem State.writeBytes_seu (a : Nat) (bs : List Byte) : (s.writeBytes a bs).seu = s.seu := (rfl)
@[simp] theorem State.writeBytes_flt (a : Nat) (bs : List Byte) : (s.writeBytes a bs).flt = s.flt := (rfl)

/-! ### writeWord -/

@[simp] theorem State.writeWord_now (a : Nat) (w : Word) : (s.writeWord a w).now = s.now := (rfl)
@[simp] theorem State.writeWord_pending (a : Nat) (w : Word) : (s.writeWord a w).pending = s.pending := (rfl)
@[simp] theorem State.writeWord_ticks (a : Nat) (w : Word) : (s.writeWord a w).ticks = s.ticks := (rfl)
@[simp] theorem State.writeWord_free (a : Nat) (w : Word) : (s.writeWord a w).free = s.free := (rfl)
@[simp] theorem State.writeWord_regs (a : Nat) (w : Word) : (s.writeWord a w).regs = s.regs := (rfl)
@[simp] theorem State.writeWord_shadow (a : Nat) (w : Word) : (s.writeWord a w).shadow = s.shadow := (rfl)
@[simp] theorem State.writeWord_out (a : Nat) (w : Word) : (s.writeWord a w).out = s.out := (rfl)
@[simp] theorem State.writeWord_plat (a : Nat) (w : Word) : (s.writeWord a w).plat = s.plat := (rfl)
@[simp] theorem State.writeWord_host (a : Nat) (w : Word) : (s.writeWord a w).host = s.host := (rfl)
@[simp] theorem State.writeWord_hq (a : Nat) (w : Word) : (s.writeWord a w).hq = s.hq := (rfl)
@[simp] theorem State.writeWord_tly (a : Nat) (w : Word) : (s.writeWord a w).tly = s.tly := (rfl)
@[simp] theorem State.writeWord_tsm (a : Nat) (w : Word) : (s.writeWord a w).tsm = s.tsm := (rfl)
@[simp] theorem State.writeWord_hmp (a : Nat) (w : Word) : (s.writeWord a w).hmp = s.hmp := (rfl)
@[simp] theorem State.writeWord_kvs (a : Nat) (w : Word) : (s.writeWord a w).kvs = s.kvs := (rfl)
@[simp] theorem State.writeWord_cmp (a : Nat) (w : Word) : (s.writeWord a w).cmp = s.cmp := (rfl)
@[simp] theorem State.writeWord_comp (a : Nat) (w : Word) : (s.writeWord a w).comp = s.comp := (rfl)
@[simp] theorem State.writeWord_txt (a : Nat) (w : Word) : (s.writeWord a w).txt = s.txt := (rfl)
@[simp] theorem State.writeWord_cfg (a : Nat) (w : Word) : (s.writeWord a w).cfg = s.cfg := (rfl)
@[simp] theorem State.writeWord_fw (a : Nat) (w : Word) : (s.writeWord a w).fw = s.fw := (rfl)
@[simp] theorem State.writeWord_trl (a : Nat) (w : Word) : (s.writeWord a w).trl = s.trl := (rfl)
@[simp] theorem State.writeWord_fab (a : Nat) (w : Word) : (s.writeWord a w).fab = s.fab := (rfl)
@[simp] theorem State.writeWord_snp (a : Nat) (w : Word) : (s.writeWord a w).snp = s.snp := (rfl)
@[simp] theorem State.writeWord_dram (a : Nat) (w : Word) : (s.writeWord a w).dram = s.dram := (rfl)
@[simp] theorem State.writeWord_sett (a : Nat) (w : Word) : (s.writeWord a w).sett = s.sett := (rfl)
@[simp] theorem State.writeWord_net (a : Nat) (w : Word) : (s.writeWord a w).net = s.net := (rfl)
@[simp] theorem State.writeWord_seu (a : Nat) (w : Word) : (s.writeWord a w).seu = s.seu := (rfl)
@[simp] theorem State.writeWord_flt (a : Nat) (w : Word) : (s.writeWord a w).flt = s.flt := (rfl)

/-! ### writeWords -/

@[simp] theorem State.writeWords_now (a : Nat) (ws : List Word) : (s.writeWords a ws).now = s.now := (rfl)
@[simp] theorem State.writeWords_pending (a : Nat) (ws : List Word) : (s.writeWords a ws).pending = s.pending := (rfl)
@[simp] theorem State.writeWords_ticks (a : Nat) (ws : List Word) : (s.writeWords a ws).ticks = s.ticks := (rfl)
@[simp] theorem State.writeWords_free (a : Nat) (ws : List Word) : (s.writeWords a ws).free = s.free := (rfl)
@[simp] theorem State.writeWords_regs (a : Nat) (ws : List Word) : (s.writeWords a ws).regs = s.regs := (rfl)
@[simp] theorem State.writeWords_shadow (a : Nat) (ws : List Word) : (s.writeWords a ws).shadow = s.shadow := (rfl)
@[simp] theorem State.writeWords_out (a : Nat) (ws : List Word) : (s.writeWords a ws).out = s.out := (rfl)
@[simp] theorem State.writeWords_plat (a : Nat) (ws : List Word) : (s.writeWords a ws).plat = s.plat := (rfl)
@[simp] theorem State.writeWords_host (a : Nat) (ws : List Word) : (s.writeWords a ws).host = s.host := (rfl)
@[simp] theorem State.writeWords_hq (a : Nat) (ws : List Word) : (s.writeWords a ws).hq = s.hq := (rfl)
@[simp] theorem State.writeWords_tly (a : Nat) (ws : List Word) : (s.writeWords a ws).tly = s.tly := (rfl)
@[simp] theorem State.writeWords_tsm (a : Nat) (ws : List Word) : (s.writeWords a ws).tsm = s.tsm := (rfl)
@[simp] theorem State.writeWords_hmp (a : Nat) (ws : List Word) : (s.writeWords a ws).hmp = s.hmp := (rfl)
@[simp] theorem State.writeWords_kvs (a : Nat) (ws : List Word) : (s.writeWords a ws).kvs = s.kvs := (rfl)
@[simp] theorem State.writeWords_cmp (a : Nat) (ws : List Word) : (s.writeWords a ws).cmp = s.cmp := (rfl)
@[simp] theorem State.writeWords_comp (a : Nat) (ws : List Word) : (s.writeWords a ws).comp = s.comp := (rfl)
@[simp] theorem State.writeWords_txt (a : Nat) (ws : List Word) : (s.writeWords a ws).txt = s.txt := (rfl)
@[simp] theorem State.writeWords_cfg (a : Nat) (ws : List Word) : (s.writeWords a ws).cfg = s.cfg := (rfl)
@[simp] theorem State.writeWords_fw (a : Nat) (ws : List Word) : (s.writeWords a ws).fw = s.fw := (rfl)
@[simp] theorem State.writeWords_trl (a : Nat) (ws : List Word) : (s.writeWords a ws).trl = s.trl := (rfl)
@[simp] theorem State.writeWords_fab (a : Nat) (ws : List Word) : (s.writeWords a ws).fab = s.fab := (rfl)
@[simp] theorem State.writeWords_snp (a : Nat) (ws : List Word) : (s.writeWords a ws).snp = s.snp := (rfl)
@[simp] theorem State.writeWords_dram (a : Nat) (ws : List Word) : (s.writeWords a ws).dram = s.dram := (rfl)
@[simp] theorem State.writeWords_sett (a : Nat) (ws : List Word) : (s.writeWords a ws).sett = s.sett := (rfl)
@[simp] theorem State.writeWords_net (a : Nat) (ws : List Word) : (s.writeWords a ws).net = s.net := (rfl)
@[simp] theorem State.writeWords_seu (a : Nat) (ws : List Word) : (s.writeWords a ws).seu = s.seu := (rfl)
@[simp] theorem State.writeWords_flt (a : Nat) (ws : List Word) : (s.writeWords a ws).flt = s.flt := (rfl)

/-! ### zeroRange -/

@[simp] theorem State.zeroRange_now (a n : Nat) : (s.zeroRange a n).now = s.now := (rfl)
@[simp] theorem State.zeroRange_pending (a n : Nat) : (s.zeroRange a n).pending = s.pending := (rfl)
@[simp] theorem State.zeroRange_ticks (a n : Nat) : (s.zeroRange a n).ticks = s.ticks := (rfl)
@[simp] theorem State.zeroRange_free (a n : Nat) : (s.zeroRange a n).free = s.free := (rfl)
@[simp] theorem State.zeroRange_regs (a n : Nat) : (s.zeroRange a n).regs = s.regs := (rfl)
@[simp] theorem State.zeroRange_shadow (a n : Nat) : (s.zeroRange a n).shadow = s.shadow := (rfl)
@[simp] theorem State.zeroRange_out (a n : Nat) : (s.zeroRange a n).out = s.out := (rfl)
@[simp] theorem State.zeroRange_plat (a n : Nat) : (s.zeroRange a n).plat = s.plat := (rfl)
@[simp] theorem State.zeroRange_host (a n : Nat) : (s.zeroRange a n).host = s.host := (rfl)
@[simp] theorem State.zeroRange_hq (a n : Nat) : (s.zeroRange a n).hq = s.hq := (rfl)
@[simp] theorem State.zeroRange_tly (a n : Nat) : (s.zeroRange a n).tly = s.tly := (rfl)
@[simp] theorem State.zeroRange_tsm (a n : Nat) : (s.zeroRange a n).tsm = s.tsm := (rfl)
@[simp] theorem State.zeroRange_hmp (a n : Nat) : (s.zeroRange a n).hmp = s.hmp := (rfl)
@[simp] theorem State.zeroRange_kvs (a n : Nat) : (s.zeroRange a n).kvs = s.kvs := (rfl)
@[simp] theorem State.zeroRange_cmp (a n : Nat) : (s.zeroRange a n).cmp = s.cmp := (rfl)
@[simp] theorem State.zeroRange_comp (a n : Nat) : (s.zeroRange a n).comp = s.comp := (rfl)
@[simp] theorem State.zeroRange_txt (a n : Nat) : (s.zeroRange a n).txt = s.txt := (rfl)
@[simp] theorem State.zeroRange_cfg (a n : Nat) : (s.zeroRange a n).cfg = s.cfg := (rfl)
@[simp] theorem State.zeroRange_fw (a n : Nat) : (s.zeroRange a n).fw = s.fw := (rfl)
@[simp] theorem State.zeroRange_trl (a n : Nat) : (s.zeroRange a n).trl = s.trl := (rfl)
@[simp] theorem State.zeroRange_fab (a n : Nat) : (s.zeroRange a n).fab = s.fab := (rfl)
@[simp] theorem State.zeroRange_snp (a n : Nat) : (s.zeroRange a n).snp = s.snp := (rfl)
@[simp] theorem State.zeroRange_dram (a n : Nat) : (s.zeroRange a n).dram = s.dram := (rfl)
@[simp] theorem State.zeroRange_sett (a n : Nat) : (s.zeroRange a n).sett = s.sett := (rfl)
@[simp] theorem State.zeroRange_net (a n : Nat) : (s.zeroRange a n).net = s.net := (rfl)
@[simp] theorem State.zeroRange_seu (a n : Nat) : (s.zeroRange a n).seu = s.seu := (rfl)
@[simp] theorem State.zeroRange_flt (a n : Nat) : (s.zeroRange a n).flt = s.flt := (rfl)

/-! ### copyRange -/

@[simp] theorem State.copyRange_now (a b n : Nat) : (s.copyRange a b n).now = s.now := (rfl)
@[simp] theorem State.copyRange_pending (a b n : Nat) : (s.copyRange a b n).pending = s.pending := (rfl)
@[simp] theorem State.copyRange_ticks (a b n : Nat) : (s.copyRange a b n).ticks = s.ticks := (rfl)
@[simp] theorem State.copyRange_free (a b n : Nat) : (s.copyRange a b n).free = s.free := (rfl)
@[simp] theorem State.copyRange_regs (a b n : Nat) : (s.copyRange a b n).regs = s.regs := (rfl)
@[simp] theorem State.copyRange_shadow (a b n : Nat) : (s.copyRange a b n).shadow = s.shadow := (rfl)
@[simp] theorem State.copyRange_out (a b n : Nat) : (s.copyRange a b n).out = s.out := (rfl)
@[simp] theorem State.copyRange_plat (a b n : Nat) : (s.copyRange a b n).plat = s.plat := (rfl)
@[simp] theorem State.copyRange_host (a b n : Nat) : (s.copyRange a b n).host = s.host := (rfl)
@[simp] theorem State.copyRange_hq (a b n : Nat) : (s.copyRange a b n).hq = s.hq := (rfl)
@[simp] theorem State.copyRange_tly (a b n : Nat) : (s.copyRange a b n).tly = s.tly := (rfl)
@[simp] theorem State.copyRange_tsm (a b n : Nat) : (s.copyRange a b n).tsm = s.tsm := (rfl)
@[simp] theorem State.copyRange_hmp (a b n : Nat) : (s.copyRange a b n).hmp = s.hmp := (rfl)
@[simp] theorem State.copyRange_kvs (a b n : Nat) : (s.copyRange a b n).kvs = s.kvs := (rfl)
@[simp] theorem State.copyRange_cmp (a b n : Nat) : (s.copyRange a b n).cmp = s.cmp := (rfl)
@[simp] theorem State.copyRange_comp (a b n : Nat) : (s.copyRange a b n).comp = s.comp := (rfl)
@[simp] theorem State.copyRange_txt (a b n : Nat) : (s.copyRange a b n).txt = s.txt := (rfl)
@[simp] theorem State.copyRange_cfg (a b n : Nat) : (s.copyRange a b n).cfg = s.cfg := (rfl)
@[simp] theorem State.copyRange_fw (a b n : Nat) : (s.copyRange a b n).fw = s.fw := (rfl)
@[simp] theorem State.copyRange_trl (a b n : Nat) : (s.copyRange a b n).trl = s.trl := (rfl)
@[simp] theorem State.copyRange_fab (a b n : Nat) : (s.copyRange a b n).fab = s.fab := (rfl)
@[simp] theorem State.copyRange_snp (a b n : Nat) : (s.copyRange a b n).snp = s.snp := (rfl)
@[simp] theorem State.copyRange_dram (a b n : Nat) : (s.copyRange a b n).dram = s.dram := (rfl)
@[simp] theorem State.copyRange_sett (a b n : Nat) : (s.copyRange a b n).sett = s.sett := (rfl)
@[simp] theorem State.copyRange_net (a b n : Nat) : (s.copyRange a b n).net = s.net := (rfl)
@[simp] theorem State.copyRange_seu (a b n : Nat) : (s.copyRange a b n).seu = s.seu := (rfl)
@[simp] theorem State.copyRange_flt (a b n : Nat) : (s.copyRange a b n).flt = s.flt := (rfl)

/-! ### emit -/

@[simp] theorem State.emit_now (o : Out) : (s.emit o).now = s.now := (rfl)
@[simp] theorem State.emit_pending (o : Out) : (s.emit o).pending = s.pending := (rfl)
@[simp] theorem State.emit_ticks (o : Out) : (s.emit o).ticks = s.ticks := (rfl)
@[simp] theorem State.emit_free (o : Out) : (s.emit o).free = s.free := (rfl)
@[simp] theorem State.emit_regs (o : Out) : (s.emit o).regs = s.regs := (rfl)
@[simp] theorem State.emit_shadow (o : Out) : (s.emit o).shadow = s.shadow := (rfl)
@[simp] theorem State.emit_mem (o : Out) : (s.emit o).mem = s.mem := (rfl)
@[simp] theorem State.emit_plat (o : Out) : (s.emit o).plat = s.plat := (rfl)
@[simp] theorem State.emit_host (o : Out) : (s.emit o).host = s.host := (rfl)
@[simp] theorem State.emit_hq (o : Out) : (s.emit o).hq = s.hq := (rfl)
@[simp] theorem State.emit_tly (o : Out) : (s.emit o).tly = s.tly := (rfl)
@[simp] theorem State.emit_tsm (o : Out) : (s.emit o).tsm = s.tsm := (rfl)
@[simp] theorem State.emit_hmp (o : Out) : (s.emit o).hmp = s.hmp := (rfl)
@[simp] theorem State.emit_kvs (o : Out) : (s.emit o).kvs = s.kvs := (rfl)
@[simp] theorem State.emit_cmp (o : Out) : (s.emit o).cmp = s.cmp := (rfl)
@[simp] theorem State.emit_comp (o : Out) : (s.emit o).comp = s.comp := (rfl)
@[simp] theorem State.emit_txt (o : Out) : (s.emit o).txt = s.txt := (rfl)
@[simp] theorem State.emit_cfg (o : Out) : (s.emit o).cfg = s.cfg := (rfl)
@[simp] theorem State.emit_fw (o : Out) : (s.emit o).fw = s.fw := (rfl)
@[simp] theorem State.emit_trl (o : Out) : (s.emit o).trl = s.trl := (rfl)
@[simp] theorem State.emit_fab (o : Out) : (s.emit o).fab = s.fab := (rfl)
@[simp] theorem State.emit_snp (o : Out) : (s.emit o).snp = s.snp := (rfl)
@[simp] theorem State.emit_dram (o : Out) : (s.emit o).dram = s.dram := (rfl)
@[simp] theorem State.emit_sett (o : Out) : (s.emit o).sett = s.sett := (rfl)
@[simp] theorem State.emit_net (o : Out) : (s.emit o).net = s.net := (rfl)
@[simp] theorem State.emit_seu (o : Out) : (s.emit o).seu = s.seu := (rfl)
@[simp] theorem State.emit_flt (o : Out) : (s.emit o).flt = s.flt := (rfl)

/-! ### setTrl -/

@[simp] theorem State.setTrl_now (p : Nat) (x : TrailPort) : (s.setTrl p x).now = s.now := (rfl)
@[simp] theorem State.setTrl_pending (p : Nat) (x : TrailPort) : (s.setTrl p x).pending = s.pending := (rfl)
@[simp] theorem State.setTrl_ticks (p : Nat) (x : TrailPort) : (s.setTrl p x).ticks = s.ticks := (rfl)
@[simp] theorem State.setTrl_free (p : Nat) (x : TrailPort) : (s.setTrl p x).free = s.free := (rfl)
@[simp] theorem State.setTrl_regs (p : Nat) (x : TrailPort) : (s.setTrl p x).regs = s.regs := (rfl)
@[simp] theorem State.setTrl_shadow (p : Nat) (x : TrailPort) : (s.setTrl p x).shadow = s.shadow := (rfl)
@[simp] theorem State.setTrl_mem (p : Nat) (x : TrailPort) : (s.setTrl p x).mem = s.mem := (rfl)
@[simp] theorem State.setTrl_out (p : Nat) (x : TrailPort) : (s.setTrl p x).out = s.out := (rfl)
@[simp] theorem State.setTrl_plat (p : Nat) (x : TrailPort) : (s.setTrl p x).plat = s.plat := (rfl)
@[simp] theorem State.setTrl_host (p : Nat) (x : TrailPort) : (s.setTrl p x).host = s.host := (rfl)
@[simp] theorem State.setTrl_hq (p : Nat) (x : TrailPort) : (s.setTrl p x).hq = s.hq := (rfl)
@[simp] theorem State.setTrl_tly (p : Nat) (x : TrailPort) : (s.setTrl p x).tly = s.tly := (rfl)
@[simp] theorem State.setTrl_tsm (p : Nat) (x : TrailPort) : (s.setTrl p x).tsm = s.tsm := (rfl)
@[simp] theorem State.setTrl_hmp (p : Nat) (x : TrailPort) : (s.setTrl p x).hmp = s.hmp := (rfl)
@[simp] theorem State.setTrl_kvs (p : Nat) (x : TrailPort) : (s.setTrl p x).kvs = s.kvs := (rfl)
@[simp] theorem State.setTrl_cmp (p : Nat) (x : TrailPort) : (s.setTrl p x).cmp = s.cmp := (rfl)
@[simp] theorem State.setTrl_comp (p : Nat) (x : TrailPort) : (s.setTrl p x).comp = s.comp := (rfl)
@[simp] theorem State.setTrl_txt (p : Nat) (x : TrailPort) : (s.setTrl p x).txt = s.txt := (rfl)
@[simp] theorem State.setTrl_cfg (p : Nat) (x : TrailPort) : (s.setTrl p x).cfg = s.cfg := (rfl)
@[simp] theorem State.setTrl_fw (p : Nat) (x : TrailPort) : (s.setTrl p x).fw = s.fw := (rfl)
@[simp] theorem State.setTrl_fab (p : Nat) (x : TrailPort) : (s.setTrl p x).fab = s.fab := (rfl)
@[simp] theorem State.setTrl_snp (p : Nat) (x : TrailPort) : (s.setTrl p x).snp = s.snp := (rfl)
@[simp] theorem State.setTrl_dram (p : Nat) (x : TrailPort) : (s.setTrl p x).dram = s.dram := (rfl)
@[simp] theorem State.setTrl_sett (p : Nat) (x : TrailPort) : (s.setTrl p x).sett = s.sett := (rfl)
@[simp] theorem State.setTrl_net (p : Nat) (x : TrailPort) : (s.setTrl p x).net = s.net := (rfl)
@[simp] theorem State.setTrl_seu (p : Nat) (x : TrailPort) : (s.setTrl p x).seu = s.seu := (rfl)
@[simp] theorem State.setTrl_flt (p : Nat) (x : TrailPort) : (s.setTrl p x).flt = s.flt := (rfl)

/-! ### setQueue -/

@[simp] theorem State.setQueue_now (q : Nat) (x : Queue) : (s.setQueue q x).now = s.now := (rfl)
@[simp] theorem State.setQueue_pending (q : Nat) (x : Queue) : (s.setQueue q x).pending = s.pending := (rfl)
@[simp] theorem State.setQueue_ticks (q : Nat) (x : Queue) : (s.setQueue q x).ticks = s.ticks := (rfl)
@[simp] theorem State.setQueue_free (q : Nat) (x : Queue) : (s.setQueue q x).free = s.free := (rfl)
@[simp] theorem State.setQueue_regs (q : Nat) (x : Queue) : (s.setQueue q x).regs = s.regs := (rfl)
@[simp] theorem State.setQueue_shadow (q : Nat) (x : Queue) : (s.setQueue q x).shadow = s.shadow := (rfl)
@[simp] theorem State.setQueue_mem (q : Nat) (x : Queue) : (s.setQueue q x).mem = s.mem := (rfl)
@[simp] theorem State.setQueue_out (q : Nat) (x : Queue) : (s.setQueue q x).out = s.out := (rfl)
@[simp] theorem State.setQueue_plat (q : Nat) (x : Queue) : (s.setQueue q x).plat = s.plat := (rfl)
@[simp] theorem State.setQueue_host (q : Nat) (x : Queue) : (s.setQueue q x).host = s.host := (rfl)
@[simp] theorem State.setQueue_tly (q : Nat) (x : Queue) : (s.setQueue q x).tly = s.tly := (rfl)
@[simp] theorem State.setQueue_tsm (q : Nat) (x : Queue) : (s.setQueue q x).tsm = s.tsm := (rfl)
@[simp] theorem State.setQueue_hmp (q : Nat) (x : Queue) : (s.setQueue q x).hmp = s.hmp := (rfl)
@[simp] theorem State.setQueue_kvs (q : Nat) (x : Queue) : (s.setQueue q x).kvs = s.kvs := (rfl)
@[simp] theorem State.setQueue_cmp (q : Nat) (x : Queue) : (s.setQueue q x).cmp = s.cmp := (rfl)
@[simp] theorem State.setQueue_comp (q : Nat) (x : Queue) : (s.setQueue q x).comp = s.comp := (rfl)
@[simp] theorem State.setQueue_txt (q : Nat) (x : Queue) : (s.setQueue q x).txt = s.txt := (rfl)
@[simp] theorem State.setQueue_cfg (q : Nat) (x : Queue) : (s.setQueue q x).cfg = s.cfg := (rfl)
@[simp] theorem State.setQueue_fw (q : Nat) (x : Queue) : (s.setQueue q x).fw = s.fw := (rfl)
@[simp] theorem State.setQueue_trl (q : Nat) (x : Queue) : (s.setQueue q x).trl = s.trl := (rfl)
@[simp] theorem State.setQueue_fab (q : Nat) (x : Queue) : (s.setQueue q x).fab = s.fab := (rfl)
@[simp] theorem State.setQueue_snp (q : Nat) (x : Queue) : (s.setQueue q x).snp = s.snp := (rfl)
@[simp] theorem State.setQueue_dram (q : Nat) (x : Queue) : (s.setQueue q x).dram = s.dram := (rfl)
@[simp] theorem State.setQueue_sett (q : Nat) (x : Queue) : (s.setQueue q x).sett = s.sett := (rfl)
@[simp] theorem State.setQueue_net (q : Nat) (x : Queue) : (s.setQueue q x).net = s.net := (rfl)
@[simp] theorem State.setQueue_seu (q : Nat) (x : Queue) : (s.setQueue q x).seu = s.seu := (rfl)
@[simp] theorem State.setQueue_flt (q : Nat) (x : Queue) : (s.setQueue q x).flt = s.flt := (rfl)
@[simp] theorem State.setQueue_hq_lastSeq (q : Nat) (x : Queue) : (s.setQueue q x).hq.lastSeq = s.hq.lastSeq := (rfl)
@[simp] theorem State.setQueue_hq_sendSeq (q : Nat) (x : Queue) : (s.setQueue q x).hq.sendSeq = s.hq.sendSeq := (rfl)
@[simp] theorem State.setQueue_hq_hand (q : Nat) (x : Queue) : (s.setQueue q x).hq.hand = s.hq.hand := (rfl)
@[simp] theorem State.setQueue_hq_refusals (q : Nat) (x : Queue) : (s.setQueue q x).hq.refusals = s.hq.refusals := (rfl)
@[simp] theorem State.setQueue_hq_busy (q : Nat) (x : Queue) : (s.setQueue q x).hq.busy = s.hq.busy := (rfl)
@[simp] theorem State.setQueue_hq_old (q : Nat) (x : Queue) : (s.setQueue q x).hq.old = s.hq.old := (rfl)

/-! ### setFn -/

@[simp] theorem State.setFn_now (f : Nat) (x : HostFn) : (s.setFn f x).now = s.now := (rfl)
@[simp] theorem State.setFn_pending (f : Nat) (x : HostFn) : (s.setFn f x).pending = s.pending := (rfl)
@[simp] theorem State.setFn_ticks (f : Nat) (x : HostFn) : (s.setFn f x).ticks = s.ticks := (rfl)
@[simp] theorem State.setFn_free (f : Nat) (x : HostFn) : (s.setFn f x).free = s.free := (rfl)
@[simp] theorem State.setFn_regs (f : Nat) (x : HostFn) : (s.setFn f x).regs = s.regs := (rfl)
@[simp] theorem State.setFn_shadow (f : Nat) (x : HostFn) : (s.setFn f x).shadow = s.shadow := (rfl)
@[simp] theorem State.setFn_mem (f : Nat) (x : HostFn) : (s.setFn f x).mem = s.mem := (rfl)
@[simp] theorem State.setFn_out (f : Nat) (x : HostFn) : (s.setFn f x).out = s.out := (rfl)
@[simp] theorem State.setFn_plat (f : Nat) (x : HostFn) : (s.setFn f x).plat = s.plat := (rfl)
@[simp] theorem State.setFn_hq (f : Nat) (x : HostFn) : (s.setFn f x).hq = s.hq := (rfl)
@[simp] theorem State.setFn_tly (f : Nat) (x : HostFn) : (s.setFn f x).tly = s.tly := (rfl)
@[simp] theorem State.setFn_tsm (f : Nat) (x : HostFn) : (s.setFn f x).tsm = s.tsm := (rfl)
@[simp] theorem State.setFn_hmp (f : Nat) (x : HostFn) : (s.setFn f x).hmp = s.hmp := (rfl)
@[simp] theorem State.setFn_kvs (f : Nat) (x : HostFn) : (s.setFn f x).kvs = s.kvs := (rfl)
@[simp] theorem State.setFn_cmp (f : Nat) (x : HostFn) : (s.setFn f x).cmp = s.cmp := (rfl)
@[simp] theorem State.setFn_comp (f : Nat) (x : HostFn) : (s.setFn f x).comp = s.comp := (rfl)
@[simp] theorem State.setFn_txt (f : Nat) (x : HostFn) : (s.setFn f x).txt = s.txt := (rfl)
@[simp] theorem State.setFn_cfg (f : Nat) (x : HostFn) : (s.setFn f x).cfg = s.cfg := (rfl)
@[simp] theorem State.setFn_fw (f : Nat) (x : HostFn) : (s.setFn f x).fw = s.fw := (rfl)
@[simp] theorem State.setFn_trl (f : Nat) (x : HostFn) : (s.setFn f x).trl = s.trl := (rfl)
@[simp] theorem State.setFn_fab (f : Nat) (x : HostFn) : (s.setFn f x).fab = s.fab := (rfl)
@[simp] theorem State.setFn_snp (f : Nat) (x : HostFn) : (s.setFn f x).snp = s.snp := (rfl)
@[simp] theorem State.setFn_dram (f : Nat) (x : HostFn) : (s.setFn f x).dram = s.dram := (rfl)
@[simp] theorem State.setFn_sett (f : Nat) (x : HostFn) : (s.setFn f x).sett = s.sett := (rfl)
@[simp] theorem State.setFn_net (f : Nat) (x : HostFn) : (s.setFn f x).net = s.net := (rfl)
@[simp] theorem State.setFn_seu (f : Nat) (x : HostFn) : (s.setFn f x).seu = s.seu := (rfl)
@[simp] theorem State.setFn_flt (f : Nat) (x : HostFn) : (s.setFn f x).flt = s.flt := (rfl)
@[simp] theorem State.setFn_host_cmds (f : Nat) (x : HostFn) : (s.setFn f x).host.cmds = s.host.cmds := (rfl)
@[simp] theorem State.setFn_host_nextId (f : Nat) (x : HostFn) : (s.setFn f x).host.nextId = s.host.nextId := (rfl)
@[simp] theorem State.setFn_host_ready (f : Nat) (x : HostFn) : (s.setFn f x).host.ready = s.host.ready := (rfl)
@[simp] theorem State.setFn_host_fatal (f : Nat) (x : HostFn) : (s.setFn f x).host.fatal = s.host.fatal := (rfl)
@[simp] theorem State.setFn_host_fatalCode (f : Nat) (x : HostFn) : (s.setFn f x).host.fatalCode = s.host.fatalCode := (rfl)

/-! ### setDie -/

@[simp] theorem State.setDie_now (d : Nat) (x : Die) : (s.setDie d x).now = s.now := (rfl)
@[simp] theorem State.setDie_pending (d : Nat) (x : Die) : (s.setDie d x).pending = s.pending := (rfl)
@[simp] theorem State.setDie_ticks (d : Nat) (x : Die) : (s.setDie d x).ticks = s.ticks := (rfl)
@[simp] theorem State.setDie_free (d : Nat) (x : Die) : (s.setDie d x).free = s.free := (rfl)
@[simp] theorem State.setDie_regs (d : Nat) (x : Die) : (s.setDie d x).regs = s.regs := (rfl)
@[simp] theorem State.setDie_shadow (d : Nat) (x : Die) : (s.setDie d x).shadow = s.shadow := (rfl)
@[simp] theorem State.setDie_mem (d : Nat) (x : Die) : (s.setDie d x).mem = s.mem := (rfl)
@[simp] theorem State.setDie_out (d : Nat) (x : Die) : (s.setDie d x).out = s.out := (rfl)
@[simp] theorem State.setDie_plat (d : Nat) (x : Die) : (s.setDie d x).plat = s.plat := (rfl)
@[simp] theorem State.setDie_host (d : Nat) (x : Die) : (s.setDie d x).host = s.host := (rfl)
@[simp] theorem State.setDie_hq (d : Nat) (x : Die) : (s.setDie d x).hq = s.hq := (rfl)
@[simp] theorem State.setDie_tly (d : Nat) (x : Die) : (s.setDie d x).tly = s.tly := (rfl)
@[simp] theorem State.setDie_tsm (d : Nat) (x : Die) : (s.setDie d x).tsm = s.tsm := (rfl)
@[simp] theorem State.setDie_hmp (d : Nat) (x : Die) : (s.setDie d x).hmp = s.hmp := (rfl)
@[simp] theorem State.setDie_kvs (d : Nat) (x : Die) : (s.setDie d x).kvs = s.kvs := (rfl)
@[simp] theorem State.setDie_comp (d : Nat) (x : Die) : (s.setDie d x).comp = s.comp := (rfl)
@[simp] theorem State.setDie_txt (d : Nat) (x : Die) : (s.setDie d x).txt = s.txt := (rfl)
@[simp] theorem State.setDie_cfg (d : Nat) (x : Die) : (s.setDie d x).cfg = s.cfg := (rfl)
@[simp] theorem State.setDie_fw (d : Nat) (x : Die) : (s.setDie d x).fw = s.fw := (rfl)
@[simp] theorem State.setDie_trl (d : Nat) (x : Die) : (s.setDie d x).trl = s.trl := (rfl)
@[simp] theorem State.setDie_fab (d : Nat) (x : Die) : (s.setDie d x).fab = s.fab := (rfl)
@[simp] theorem State.setDie_snp (d : Nat) (x : Die) : (s.setDie d x).snp = s.snp := (rfl)
@[simp] theorem State.setDie_dram (d : Nat) (x : Die) : (s.setDie d x).dram = s.dram := (rfl)
@[simp] theorem State.setDie_sett (d : Nat) (x : Die) : (s.setDie d x).sett = s.sett := (rfl)
@[simp] theorem State.setDie_net (d : Nat) (x : Die) : (s.setDie d x).net = s.net := (rfl)
@[simp] theorem State.setDie_seu (d : Nat) (x : Die) : (s.setDie d x).seu = s.seu := (rfl)
@[simp] theorem State.setDie_flt (d : Nat) (x : Die) : (s.setDie d x).flt = s.flt := (rfl)
@[simp] theorem State.setDie_cmp_tiles (d : Nat) (x : Die) : (s.setDie d x).cmp.tiles = s.cmp.tiles := (rfl)
@[simp] theorem State.setDie_cmp_reductions (d : Nat) (x : Die) : (s.setDie d x).cmp.reductions = s.cmp.reductions := (rfl)
@[simp] theorem State.setDie_cmp_rings (d : Nat) (x : Die) : (s.setDie d x).cmp.rings = s.cmp.rings := (rfl)
@[simp] theorem State.setDie_cmp_remaps (d : Nat) (x : Die) : (s.setDie d x).cmp.remaps = s.cmp.remaps := (rfl)
@[simp] theorem State.setDie_cmp_fails (d : Nat) (x : Die) : (s.setDie d x).cmp.fails = s.cmp.fails := (rfl)
@[simp] theorem State.setDie_cmp_absent (d : Nat) (x : Die) : (s.setDie d x).cmp.absent = s.cmp.absent := (rfl)

/-! ### setLeaf -/

@[simp] theorem State.setLeaf_now (p : Nat) (l : Leaf) : (s.setLeaf p l).now = s.now := (rfl)
@[simp] theorem State.setLeaf_pending (p : Nat) (l : Leaf) : (s.setLeaf p l).pending = s.pending := (rfl)
@[simp] theorem State.setLeaf_ticks (p : Nat) (l : Leaf) : (s.setLeaf p l).ticks = s.ticks := (rfl)
@[simp] theorem State.setLeaf_free (p : Nat) (l : Leaf) : (s.setLeaf p l).free = s.free := (rfl)
@[simp] theorem State.setLeaf_regs (p : Nat) (l : Leaf) : (s.setLeaf p l).regs = s.regs := (rfl)
@[simp] theorem State.setLeaf_shadow (p : Nat) (l : Leaf) : (s.setLeaf p l).shadow = s.shadow := (rfl)
@[simp] theorem State.setLeaf_mem (p : Nat) (l : Leaf) : (s.setLeaf p l).mem = s.mem := (rfl)
@[simp] theorem State.setLeaf_out (p : Nat) (l : Leaf) : (s.setLeaf p l).out = s.out := (rfl)
@[simp] theorem State.setLeaf_plat (p : Nat) (l : Leaf) : (s.setLeaf p l).plat = s.plat := (rfl)
@[simp] theorem State.setLeaf_host (p : Nat) (l : Leaf) : (s.setLeaf p l).host = s.host := (rfl)
@[simp] theorem State.setLeaf_hq (p : Nat) (l : Leaf) : (s.setLeaf p l).hq = s.hq := (rfl)
@[simp] theorem State.setLeaf_tly (p : Nat) (l : Leaf) : (s.setLeaf p l).tly = s.tly := (rfl)
@[simp] theorem State.setLeaf_hmp (p : Nat) (l : Leaf) : (s.setLeaf p l).hmp = s.hmp := (rfl)
@[simp] theorem State.setLeaf_kvs (p : Nat) (l : Leaf) : (s.setLeaf p l).kvs = s.kvs := (rfl)
@[simp] theorem State.setLeaf_cmp (p : Nat) (l : Leaf) : (s.setLeaf p l).cmp = s.cmp := (rfl)
@[simp] theorem State.setLeaf_comp (p : Nat) (l : Leaf) : (s.setLeaf p l).comp = s.comp := (rfl)
@[simp] theorem State.setLeaf_txt (p : Nat) (l : Leaf) : (s.setLeaf p l).txt = s.txt := (rfl)
@[simp] theorem State.setLeaf_cfg (p : Nat) (l : Leaf) : (s.setLeaf p l).cfg = s.cfg := (rfl)
@[simp] theorem State.setLeaf_fw (p : Nat) (l : Leaf) : (s.setLeaf p l).fw = s.fw := (rfl)
@[simp] theorem State.setLeaf_trl (p : Nat) (l : Leaf) : (s.setLeaf p l).trl = s.trl := (rfl)
@[simp] theorem State.setLeaf_fab (p : Nat) (l : Leaf) : (s.setLeaf p l).fab = s.fab := (rfl)
@[simp] theorem State.setLeaf_snp (p : Nat) (l : Leaf) : (s.setLeaf p l).snp = s.snp := (rfl)
@[simp] theorem State.setLeaf_dram (p : Nat) (l : Leaf) : (s.setLeaf p l).dram = s.dram := (rfl)
@[simp] theorem State.setLeaf_sett (p : Nat) (l : Leaf) : (s.setLeaf p l).sett = s.sett := (rfl)
@[simp] theorem State.setLeaf_net (p : Nat) (l : Leaf) : (s.setLeaf p l).net = s.net := (rfl)
@[simp] theorem State.setLeaf_seu (p : Nat) (l : Leaf) : (s.setLeaf p l).seu = s.seu := (rfl)
@[simp] theorem State.setLeaf_flt (p : Nat) (l : Leaf) : (s.setLeaf p l).flt = s.flt := (rfl)
@[simp] theorem State.setLeaf_tsm_boot (p : Nat) (l : Leaf) : (s.setLeaf p l).tsm.boot = s.tsm.boot := (rfl)
@[simp] theorem State.setLeaf_tsm_dirs (p : Nat) (l : Leaf) : (s.setLeaf p l).tsm.dirs = s.tsm.dirs := (rfl)
@[simp] theorem State.setLeaf_tsm_tlb (p : Nat) (l : Leaf) : (s.setLeaf p l).tsm.tlb = s.tsm.tlb := (rfl)
@[simp] theorem State.setLeaf_tsm_alloc (p : Nat) (l : Leaf) : (s.setLeaf p l).tsm.alloc = s.tsm.alloc := (rfl)
@[simp] theorem State.setLeaf_tsm_reqs (p : Nat) (l : Leaf) : (s.setLeaf p l).tsm.reqs = s.tsm.reqs := (rfl)
@[simp] theorem State.setLeaf_tsm_ops (p : Nat) (l : Leaf) : (s.setLeaf p l).tsm.ops = s.tsm.ops := (rfl)
@[simp] theorem State.setLeaf_tsm_shoots (p : Nat) (l : Leaf) : (s.setLeaf p l).tsm.shoots = s.tsm.shoots := (rfl)
@[simp] theorem State.setLeaf_tsm_nextReq (p : Nat) (l : Leaf) : (s.setLeaf p l).tsm.nextReq = s.tsm.nextReq := (rfl)
@[simp] theorem State.setLeaf_tsm_nextFerryId (p : Nat) (l : Leaf) : (s.setLeaf p l).tsm.nextFerryId = s.tsm.nextFerryId := (rfl)
@[simp] theorem State.setLeaf_tsm_nextOp (p : Nat) (l : Leaf) : (s.setLeaf p l).tsm.nextOp = s.tsm.nextOp := (rfl)
@[simp] theorem State.setLeaf_tsm_bins (p : Nat) (l : Leaf) : (s.setLeaf p l).tsm.bins = s.tsm.bins := (rfl)
@[simp] theorem State.setLeaf_tsm_bin (p : Nat) (l : Leaf) : (s.setLeaf p l).tsm.bin = s.tsm.bin := (rfl)
@[simp] theorem State.setLeaf_tsm_evicting (p : Nat) (l : Leaf) : (s.setLeaf p l).tsm.evicting = s.tsm.evicting := (rfl)
@[simp] theorem State.setLeaf_tsm_pressure (p : Nat) (l : Leaf) : (s.setLeaf p l).tsm.pressure = s.tsm.pressure := (rfl)
@[simp] theorem State.setLeaf_tsm_cow (p : Nat) (l : Leaf) : (s.setLeaf p l).tsm.cow = s.tsm.cow := (rfl)
@[simp] theorem State.setLeaf_tsm_retiring (p : Nat) (l : Leaf) : (s.setLeaf p l).tsm.retiring = s.tsm.retiring := (rfl)
@[simp] theorem State.setLeaf_tsm_retired (p : Nat) (l : Leaf) : (s.setLeaf p l).tsm.retired = s.tsm.retired := (rfl)
@[simp] theorem State.setLeaf_tsm_nextVa (p : Nat) (l : Leaf) : (s.setLeaf p l).tsm.nextVa = s.tsm.nextVa := (rfl)

/-! ### setDir -/

@[simp] theorem State.setDir_now (n : Nat) (e : DirEnt) : (s.setDir n e).now = s.now := (rfl)
@[simp] theorem State.setDir_pending (n : Nat) (e : DirEnt) : (s.setDir n e).pending = s.pending := (rfl)
@[simp] theorem State.setDir_ticks (n : Nat) (e : DirEnt) : (s.setDir n e).ticks = s.ticks := (rfl)
@[simp] theorem State.setDir_free (n : Nat) (e : DirEnt) : (s.setDir n e).free = s.free := (rfl)
@[simp] theorem State.setDir_regs (n : Nat) (e : DirEnt) : (s.setDir n e).regs = s.regs := (rfl)
@[simp] theorem State.setDir_shadow (n : Nat) (e : DirEnt) : (s.setDir n e).shadow = s.shadow := (rfl)
@[simp] theorem State.setDir_mem (n : Nat) (e : DirEnt) : (s.setDir n e).mem = s.mem := (rfl)
@[simp] theorem State.setDir_out (n : Nat) (e : DirEnt) : (s.setDir n e).out = s.out := (rfl)
@[simp] theorem State.setDir_plat (n : Nat) (e : DirEnt) : (s.setDir n e).plat = s.plat := (rfl)
@[simp] theorem State.setDir_host (n : Nat) (e : DirEnt) : (s.setDir n e).host = s.host := (rfl)
@[simp] theorem State.setDir_hq (n : Nat) (e : DirEnt) : (s.setDir n e).hq = s.hq := (rfl)
@[simp] theorem State.setDir_tly (n : Nat) (e : DirEnt) : (s.setDir n e).tly = s.tly := (rfl)
@[simp] theorem State.setDir_tsm (n : Nat) (e : DirEnt) : (s.setDir n e).tsm = s.tsm := (rfl)
@[simp] theorem State.setDir_kvs (n : Nat) (e : DirEnt) : (s.setDir n e).kvs = s.kvs := (rfl)
@[simp] theorem State.setDir_cmp (n : Nat) (e : DirEnt) : (s.setDir n e).cmp = s.cmp := (rfl)
@[simp] theorem State.setDir_comp (n : Nat) (e : DirEnt) : (s.setDir n e).comp = s.comp := (rfl)
@[simp] theorem State.setDir_txt (n : Nat) (e : DirEnt) : (s.setDir n e).txt = s.txt := (rfl)
@[simp] theorem State.setDir_cfg (n : Nat) (e : DirEnt) : (s.setDir n e).cfg = s.cfg := (rfl)
@[simp] theorem State.setDir_fw (n : Nat) (e : DirEnt) : (s.setDir n e).fw = s.fw := (rfl)
@[simp] theorem State.setDir_trl (n : Nat) (e : DirEnt) : (s.setDir n e).trl = s.trl := (rfl)
@[simp] theorem State.setDir_fab (n : Nat) (e : DirEnt) : (s.setDir n e).fab = s.fab := (rfl)
@[simp] theorem State.setDir_snp (n : Nat) (e : DirEnt) : (s.setDir n e).snp = s.snp := (rfl)
@[simp] theorem State.setDir_dram (n : Nat) (e : DirEnt) : (s.setDir n e).dram = s.dram := (rfl)
@[simp] theorem State.setDir_sett (n : Nat) (e : DirEnt) : (s.setDir n e).sett = s.sett := (rfl)
@[simp] theorem State.setDir_net (n : Nat) (e : DirEnt) : (s.setDir n e).net = s.net := (rfl)
@[simp] theorem State.setDir_seu (n : Nat) (e : DirEnt) : (s.setDir n e).seu = s.seu := (rfl)
@[simp] theorem State.setDir_flt (n : Nat) (e : DirEnt) : (s.setDir n e).flt = s.flt := (rfl)
@[simp] theorem State.setDir_hmp_hdr (n : Nat) (e : DirEnt) : (s.setDir n e).hmp.hdr = s.hmp.hdr := (rfl)
@[simp] theorem State.setDir_hmp_log (n : Nat) (e : DirEnt) : (s.setDir n e).hmp.log = s.hmp.log := (rfl)
@[simp] theorem State.setDir_hmp_dirLog (n : Nat) (e : DirEnt) : (s.setDir n e).hmp.dirLog = s.hmp.dirLog := (rfl)
@[simp] theorem State.setDir_hmp_changes (n : Nat) (e : DirEnt) : (s.setDir n e).hmp.changes = s.hmp.changes := (rfl)
@[simp] theorem State.setDir_hmp_revives (n : Nat) (e : DirEnt) : (s.setDir n e).hmp.revives = s.hmp.revives := (rfl)
@[simp] theorem State.setDir_hmp_gives (n : Nat) (e : DirEnt) : (s.setDir n e).hmp.gives = s.hmp.gives := (rfl)
@[simp] theorem State.setDir_hmp_takes (n : Nat) (e : DirEnt) : (s.setDir n e).hmp.takes = s.hmp.takes := (rfl)
@[simp] theorem State.setDir_hmp_probes (n : Nat) (e : DirEnt) : (s.setDir n e).hmp.probes = s.hmp.probes := (rfl)
@[simp] theorem State.setDir_hmp_empties (n : Nat) (e : DirEnt) : (s.setDir n e).hmp.empties = s.hmp.empties := (rfl)
@[simp] theorem State.setDir_hmp_batch (n : Nat) (e : DirEnt) : (s.setDir n e).hmp.batch = s.hmp.batch := (rfl)
@[simp] theorem State.setDir_hmp_parks (n : Nat) (e : DirEnt) : (s.setDir n e).hmp.parks = s.hmp.parks := (rfl)
@[simp] theorem State.setDir_hmp_releases (n : Nat) (e : DirEnt) : (s.setDir n e).hmp.releases = s.hmp.releases := (rfl)
@[simp] theorem State.setDir_hmp_headerBase (n : Nat) (e : DirEnt) : (s.setDir n e).hmp.headerBase = s.hmp.headerBase := (rfl)
@[simp] theorem State.setDir_hmp_dirBase (n : Nat) (e : DirEnt) : (s.setDir n e).hmp.dirBase = s.hmp.dirBase := (rfl)

/-! ### setHdr -/

@[simp] theorem State.setHdr_now (n : Nat) (h : Header) : (s.setHdr n h).now = s.now := (rfl)
@[simp] theorem State.setHdr_pending (n : Nat) (h : Header) : (s.setHdr n h).pending = s.pending := (rfl)
@[simp] theorem State.setHdr_ticks (n : Nat) (h : Header) : (s.setHdr n h).ticks = s.ticks := (rfl)
@[simp] theorem State.setHdr_free (n : Nat) (h : Header) : (s.setHdr n h).free = s.free := (rfl)
@[simp] theorem State.setHdr_regs (n : Nat) (h : Header) : (s.setHdr n h).regs = s.regs := (rfl)
@[simp] theorem State.setHdr_shadow (n : Nat) (h : Header) : (s.setHdr n h).shadow = s.shadow := (rfl)
@[simp] theorem State.setHdr_mem (n : Nat) (h : Header) : (s.setHdr n h).mem = s.mem := (rfl)
@[simp] theorem State.setHdr_out (n : Nat) (h : Header) : (s.setHdr n h).out = s.out := (rfl)
@[simp] theorem State.setHdr_plat (n : Nat) (h : Header) : (s.setHdr n h).plat = s.plat := (rfl)
@[simp] theorem State.setHdr_host (n : Nat) (h : Header) : (s.setHdr n h).host = s.host := (rfl)
@[simp] theorem State.setHdr_hq (n : Nat) (h : Header) : (s.setHdr n h).hq = s.hq := (rfl)
@[simp] theorem State.setHdr_tly (n : Nat) (h : Header) : (s.setHdr n h).tly = s.tly := (rfl)
@[simp] theorem State.setHdr_tsm (n : Nat) (h : Header) : (s.setHdr n h).tsm = s.tsm := (rfl)
@[simp] theorem State.setHdr_kvs (n : Nat) (h : Header) : (s.setHdr n h).kvs = s.kvs := (rfl)
@[simp] theorem State.setHdr_cmp (n : Nat) (h : Header) : (s.setHdr n h).cmp = s.cmp := (rfl)
@[simp] theorem State.setHdr_comp (n : Nat) (h : Header) : (s.setHdr n h).comp = s.comp := (rfl)
@[simp] theorem State.setHdr_txt (n : Nat) (h : Header) : (s.setHdr n h).txt = s.txt := (rfl)
@[simp] theorem State.setHdr_cfg (n : Nat) (h : Header) : (s.setHdr n h).cfg = s.cfg := (rfl)
@[simp] theorem State.setHdr_fw (n : Nat) (h : Header) : (s.setHdr n h).fw = s.fw := (rfl)
@[simp] theorem State.setHdr_trl (n : Nat) (h : Header) : (s.setHdr n h).trl = s.trl := (rfl)
@[simp] theorem State.setHdr_fab (n : Nat) (h : Header) : (s.setHdr n h).fab = s.fab := (rfl)
@[simp] theorem State.setHdr_snp (n : Nat) (h : Header) : (s.setHdr n h).snp = s.snp := (rfl)
@[simp] theorem State.setHdr_dram (n : Nat) (h : Header) : (s.setHdr n h).dram = s.dram := (rfl)
@[simp] theorem State.setHdr_sett (n : Nat) (h : Header) : (s.setHdr n h).sett = s.sett := (rfl)
@[simp] theorem State.setHdr_net (n : Nat) (h : Header) : (s.setHdr n h).net = s.net := (rfl)
@[simp] theorem State.setHdr_seu (n : Nat) (h : Header) : (s.setHdr n h).seu = s.seu := (rfl)
@[simp] theorem State.setHdr_flt (n : Nat) (h : Header) : (s.setHdr n h).flt = s.flt := (rfl)
@[simp] theorem State.setHdr_hmp_dir (n : Nat) (h : Header) : (s.setHdr n h).hmp.dir = s.hmp.dir := (rfl)
@[simp] theorem State.setHdr_hmp_log (n : Nat) (h : Header) : (s.setHdr n h).hmp.log = s.hmp.log := (rfl)
@[simp] theorem State.setHdr_hmp_dirLog (n : Nat) (h : Header) : (s.setHdr n h).hmp.dirLog = s.hmp.dirLog := (rfl)
@[simp] theorem State.setHdr_hmp_changes (n : Nat) (h : Header) : (s.setHdr n h).hmp.changes = s.hmp.changes := (rfl)
@[simp] theorem State.setHdr_hmp_revives (n : Nat) (h : Header) : (s.setHdr n h).hmp.revives = s.hmp.revives := (rfl)
@[simp] theorem State.setHdr_hmp_gives (n : Nat) (h : Header) : (s.setHdr n h).hmp.gives = s.hmp.gives := (rfl)
@[simp] theorem State.setHdr_hmp_takes (n : Nat) (h : Header) : (s.setHdr n h).hmp.takes = s.hmp.takes := (rfl)
@[simp] theorem State.setHdr_hmp_probes (n : Nat) (h : Header) : (s.setHdr n h).hmp.probes = s.hmp.probes := (rfl)
@[simp] theorem State.setHdr_hmp_empties (n : Nat) (h : Header) : (s.setHdr n h).hmp.empties = s.hmp.empties := (rfl)
@[simp] theorem State.setHdr_hmp_batch (n : Nat) (h : Header) : (s.setHdr n h).hmp.batch = s.hmp.batch := (rfl)
@[simp] theorem State.setHdr_hmp_parks (n : Nat) (h : Header) : (s.setHdr n h).hmp.parks = s.hmp.parks := (rfl)
@[simp] theorem State.setHdr_hmp_releases (n : Nat) (h : Header) : (s.setHdr n h).hmp.releases = s.hmp.releases := (rfl)
@[simp] theorem State.setHdr_hmp_headerBase (n : Nat) (h : Header) : (s.setHdr n h).hmp.headerBase = s.hmp.headerBase := (rfl)
@[simp] theorem State.setHdr_hmp_dirBase (n : Nat) (h : Header) : (s.setHdr n h).hmp.dirBase = s.hmp.dirBase := (rfl)

/-! ### endChange -/

@[simp] theorem State.endChange_now (n : Nat) : (s.endChange n).now = s.now := (rfl)
@[simp] theorem State.endChange_pending (n : Nat) : (s.endChange n).pending = s.pending := (rfl)
@[simp] theorem State.endChange_ticks (n : Nat) : (s.endChange n).ticks = s.ticks := (rfl)
@[simp] theorem State.endChange_free (n : Nat) : (s.endChange n).free = s.free := (rfl)
@[simp] theorem State.endChange_regs (n : Nat) : (s.endChange n).regs = s.regs := (rfl)
@[simp] theorem State.endChange_shadow (n : Nat) : (s.endChange n).shadow = s.shadow := (rfl)
@[simp] theorem State.endChange_mem (n : Nat) : (s.endChange n).mem = s.mem := (rfl)
@[simp] theorem State.endChange_out (n : Nat) : (s.endChange n).out = s.out := (rfl)
@[simp] theorem State.endChange_plat (n : Nat) : (s.endChange n).plat = s.plat := (rfl)
@[simp] theorem State.endChange_host (n : Nat) : (s.endChange n).host = s.host := (rfl)
@[simp] theorem State.endChange_hq (n : Nat) : (s.endChange n).hq = s.hq := (rfl)
@[simp] theorem State.endChange_tly (n : Nat) : (s.endChange n).tly = s.tly := (rfl)
@[simp] theorem State.endChange_tsm (n : Nat) : (s.endChange n).tsm = s.tsm := (rfl)
@[simp] theorem State.endChange_kvs (n : Nat) : (s.endChange n).kvs = s.kvs := (rfl)
@[simp] theorem State.endChange_cmp (n : Nat) : (s.endChange n).cmp = s.cmp := (rfl)
@[simp] theorem State.endChange_comp (n : Nat) : (s.endChange n).comp = s.comp := (rfl)
@[simp] theorem State.endChange_txt (n : Nat) : (s.endChange n).txt = s.txt := (rfl)
@[simp] theorem State.endChange_cfg (n : Nat) : (s.endChange n).cfg = s.cfg := (rfl)
@[simp] theorem State.endChange_fw (n : Nat) : (s.endChange n).fw = s.fw := (rfl)
@[simp] theorem State.endChange_trl (n : Nat) : (s.endChange n).trl = s.trl := (rfl)
@[simp] theorem State.endChange_fab (n : Nat) : (s.endChange n).fab = s.fab := (rfl)
@[simp] theorem State.endChange_snp (n : Nat) : (s.endChange n).snp = s.snp := (rfl)
@[simp] theorem State.endChange_dram (n : Nat) : (s.endChange n).dram = s.dram := (rfl)
@[simp] theorem State.endChange_sett (n : Nat) : (s.endChange n).sett = s.sett := (rfl)
@[simp] theorem State.endChange_net (n : Nat) : (s.endChange n).net = s.net := (rfl)
@[simp] theorem State.endChange_seu (n : Nat) : (s.endChange n).seu = s.seu := (rfl)
@[simp] theorem State.endChange_flt (n : Nat) : (s.endChange n).flt = s.flt := (rfl)
@[simp] theorem State.endChange_hmp_dir (n : Nat) : (s.endChange n).hmp.dir = s.hmp.dir := (rfl)
@[simp] theorem State.endChange_hmp_hdr (n : Nat) : (s.endChange n).hmp.hdr = s.hmp.hdr := (rfl)
@[simp] theorem State.endChange_hmp_log (n : Nat) : (s.endChange n).hmp.log = s.hmp.log := (rfl)
@[simp] theorem State.endChange_hmp_dirLog (n : Nat) : (s.endChange n).hmp.dirLog = s.hmp.dirLog := (rfl)
@[simp] theorem State.endChange_hmp_revives (n : Nat) : (s.endChange n).hmp.revives = s.hmp.revives := (rfl)
@[simp] theorem State.endChange_hmp_gives (n : Nat) : (s.endChange n).hmp.gives = s.hmp.gives := (rfl)
@[simp] theorem State.endChange_hmp_takes (n : Nat) : (s.endChange n).hmp.takes = s.hmp.takes := (rfl)
@[simp] theorem State.endChange_hmp_probes (n : Nat) : (s.endChange n).hmp.probes = s.hmp.probes := (rfl)
@[simp] theorem State.endChange_hmp_empties (n : Nat) : (s.endChange n).hmp.empties = s.hmp.empties := (rfl)
@[simp] theorem State.endChange_hmp_batch (n : Nat) : (s.endChange n).hmp.batch = s.hmp.batch := (rfl)
@[simp] theorem State.endChange_hmp_parks (n : Nat) : (s.endChange n).hmp.parks = s.hmp.parks := (rfl)
@[simp] theorem State.endChange_hmp_releases (n : Nat) : (s.endChange n).hmp.releases = s.hmp.releases := (rfl)
@[simp] theorem State.endChange_hmp_headerBase (n : Nat) : (s.endChange n).hmp.headerBase = s.hmp.headerBase := (rfl)
@[simp] theorem State.endChange_hmp_dirBase (n : Nat) : (s.endChange n).hmp.dirBase = s.hmp.dirBase := (rfl)

/-! ### setSpan -/

@[simp] theorem State.setSpan_now (k n : Nat) (e : SpanEnt) : (s.setSpan k n e).now = s.now := (rfl)
@[simp] theorem State.setSpan_pending (k n : Nat) (e : SpanEnt) : (s.setSpan k n e).pending = s.pending := (rfl)
@[simp] theorem State.setSpan_ticks (k n : Nat) (e : SpanEnt) : (s.setSpan k n e).ticks = s.ticks := (rfl)
@[simp] theorem State.setSpan_free (k n : Nat) (e : SpanEnt) : (s.setSpan k n e).free = s.free := (rfl)
@[simp] theorem State.setSpan_regs (k n : Nat) (e : SpanEnt) : (s.setSpan k n e).regs = s.regs := (rfl)
@[simp] theorem State.setSpan_shadow (k n : Nat) (e : SpanEnt) : (s.setSpan k n e).shadow = s.shadow := (rfl)
@[simp] theorem State.setSpan_mem (k n : Nat) (e : SpanEnt) : (s.setSpan k n e).mem = s.mem := (rfl)
@[simp] theorem State.setSpan_out (k n : Nat) (e : SpanEnt) : (s.setSpan k n e).out = s.out := (rfl)
@[simp] theorem State.setSpan_plat (k n : Nat) (e : SpanEnt) : (s.setSpan k n e).plat = s.plat := (rfl)
@[simp] theorem State.setSpan_host (k n : Nat) (e : SpanEnt) : (s.setSpan k n e).host = s.host := (rfl)
@[simp] theorem State.setSpan_hq (k n : Nat) (e : SpanEnt) : (s.setSpan k n e).hq = s.hq := (rfl)
@[simp] theorem State.setSpan_tly (k n : Nat) (e : SpanEnt) : (s.setSpan k n e).tly = s.tly := (rfl)
@[simp] theorem State.setSpan_tsm (k n : Nat) (e : SpanEnt) : (s.setSpan k n e).tsm = s.tsm := (rfl)
@[simp] theorem State.setSpan_hmp (k n : Nat) (e : SpanEnt) : (s.setSpan k n e).hmp = s.hmp := (rfl)
@[simp] theorem State.setSpan_cmp (k n : Nat) (e : SpanEnt) : (s.setSpan k n e).cmp = s.cmp := (rfl)
@[simp] theorem State.setSpan_comp (k n : Nat) (e : SpanEnt) : (s.setSpan k n e).comp = s.comp := (rfl)
@[simp] theorem State.setSpan_txt (k n : Nat) (e : SpanEnt) : (s.setSpan k n e).txt = s.txt := (rfl)
@[simp] theorem State.setSpan_cfg (k n : Nat) (e : SpanEnt) : (s.setSpan k n e).cfg = s.cfg := (rfl)
@[simp] theorem State.setSpan_fw (k n : Nat) (e : SpanEnt) : (s.setSpan k n e).fw = s.fw := (rfl)
@[simp] theorem State.setSpan_trl (k n : Nat) (e : SpanEnt) : (s.setSpan k n e).trl = s.trl := (rfl)
@[simp] theorem State.setSpan_fab (k n : Nat) (e : SpanEnt) : (s.setSpan k n e).fab = s.fab := (rfl)
@[simp] theorem State.setSpan_snp (k n : Nat) (e : SpanEnt) : (s.setSpan k n e).snp = s.snp := (rfl)
@[simp] theorem State.setSpan_dram (k n : Nat) (e : SpanEnt) : (s.setSpan k n e).dram = s.dram := (rfl)
@[simp] theorem State.setSpan_sett (k n : Nat) (e : SpanEnt) : (s.setSpan k n e).sett = s.sett := (rfl)
@[simp] theorem State.setSpan_net (k n : Nat) (e : SpanEnt) : (s.setSpan k n e).net = s.net := (rfl)
@[simp] theorem State.setSpan_seu (k n : Nat) (e : SpanEnt) : (s.setSpan k n e).seu = s.seu := (rfl)
@[simp] theorem State.setSpan_flt (k n : Nat) (e : SpanEnt) : (s.setSpan k n e).flt = s.flt := (rfl)
@[simp] theorem State.setSpan_kvs_side (k n : Nat) (e : SpanEnt) : (s.setSpan k n e).kvs.side = s.kvs.side := (rfl)
@[simp] theorem State.setSpan_kvs_deferred (k n : Nat) (e : SpanEnt) : (s.setSpan k n e).kvs.deferred = s.kvs.deferred := (rfl)
@[simp] theorem State.setSpan_kvs_held (k n : Nat) (e : SpanEnt) : (s.setSpan k n e).kvs.held = s.kvs.held := (rfl)
@[simp] theorem State.setSpan_kvs_asks (k n : Nat) (e : SpanEnt) : (s.setSpan k n e).kvs.asks = s.kvs.asks := (rfl)
@[simp] theorem State.setSpan_kvs_nextId (k n : Nat) (e : SpanEnt) : (s.setSpan k n e).kvs.nextId = s.kvs.nextId := (rfl)
@[simp] theorem State.setSpan_kvs_reqs (k n : Nat) (e : SpanEnt) : (s.setSpan k n e).kvs.reqs = s.kvs.reqs := (rfl)
@[simp] theorem State.setSpan_kvs_recomputes (k n : Nat) (e : SpanEnt) : (s.setSpan k n e).kvs.recomputes = s.kvs.recomputes := (rfl)
@[simp] theorem State.setSpan_kvs_wanted (k n : Nat) (e : SpanEnt) : (s.setSpan k n e).kvs.wanted = s.kvs.wanted := (rfl)
@[simp] theorem State.setSpan_kvs_needed (k n : Nat) (e : SpanEnt) : (s.setSpan k n e).kvs.needed = s.kvs.needed := (rfl)

/-! ### setSide -/

@[simp] theorem State.setSide_now (k n b : Nat) (r : Side) : (s.setSide k n b r).now = s.now := (rfl)
@[simp] theorem State.setSide_pending (k n b : Nat) (r : Side) : (s.setSide k n b r).pending = s.pending := (rfl)
@[simp] theorem State.setSide_ticks (k n b : Nat) (r : Side) : (s.setSide k n b r).ticks = s.ticks := (rfl)
@[simp] theorem State.setSide_free (k n b : Nat) (r : Side) : (s.setSide k n b r).free = s.free := (rfl)
@[simp] theorem State.setSide_regs (k n b : Nat) (r : Side) : (s.setSide k n b r).regs = s.regs := (rfl)
@[simp] theorem State.setSide_shadow (k n b : Nat) (r : Side) : (s.setSide k n b r).shadow = s.shadow := (rfl)
@[simp] theorem State.setSide_mem (k n b : Nat) (r : Side) : (s.setSide k n b r).mem = s.mem := (rfl)
@[simp] theorem State.setSide_out (k n b : Nat) (r : Side) : (s.setSide k n b r).out = s.out := (rfl)
@[simp] theorem State.setSide_plat (k n b : Nat) (r : Side) : (s.setSide k n b r).plat = s.plat := (rfl)
@[simp] theorem State.setSide_host (k n b : Nat) (r : Side) : (s.setSide k n b r).host = s.host := (rfl)
@[simp] theorem State.setSide_hq (k n b : Nat) (r : Side) : (s.setSide k n b r).hq = s.hq := (rfl)
@[simp] theorem State.setSide_tly (k n b : Nat) (r : Side) : (s.setSide k n b r).tly = s.tly := (rfl)
@[simp] theorem State.setSide_tsm (k n b : Nat) (r : Side) : (s.setSide k n b r).tsm = s.tsm := (rfl)
@[simp] theorem State.setSide_hmp (k n b : Nat) (r : Side) : (s.setSide k n b r).hmp = s.hmp := (rfl)
@[simp] theorem State.setSide_cmp (k n b : Nat) (r : Side) : (s.setSide k n b r).cmp = s.cmp := (rfl)
@[simp] theorem State.setSide_comp (k n b : Nat) (r : Side) : (s.setSide k n b r).comp = s.comp := (rfl)
@[simp] theorem State.setSide_txt (k n b : Nat) (r : Side) : (s.setSide k n b r).txt = s.txt := (rfl)
@[simp] theorem State.setSide_cfg (k n b : Nat) (r : Side) : (s.setSide k n b r).cfg = s.cfg := (rfl)
@[simp] theorem State.setSide_fw (k n b : Nat) (r : Side) : (s.setSide k n b r).fw = s.fw := (rfl)
@[simp] theorem State.setSide_trl (k n b : Nat) (r : Side) : (s.setSide k n b r).trl = s.trl := (rfl)
@[simp] theorem State.setSide_fab (k n b : Nat) (r : Side) : (s.setSide k n b r).fab = s.fab := (rfl)
@[simp] theorem State.setSide_snp (k n b : Nat) (r : Side) : (s.setSide k n b r).snp = s.snp := (rfl)
@[simp] theorem State.setSide_dram (k n b : Nat) (r : Side) : (s.setSide k n b r).dram = s.dram := (rfl)
@[simp] theorem State.setSide_sett (k n b : Nat) (r : Side) : (s.setSide k n b r).sett = s.sett := (rfl)
@[simp] theorem State.setSide_net (k n b : Nat) (r : Side) : (s.setSide k n b r).net = s.net := (rfl)
@[simp] theorem State.setSide_seu (k n b : Nat) (r : Side) : (s.setSide k n b r).seu = s.seu := (rfl)
@[simp] theorem State.setSide_flt (k n b : Nat) (r : Side) : (s.setSide k n b r).flt = s.flt := (rfl)
@[simp] theorem State.setSide_kvs_spans (k n b : Nat) (r : Side) : (s.setSide k n b r).kvs.spans = s.kvs.spans := (rfl)
@[simp] theorem State.setSide_kvs_deferred (k n b : Nat) (r : Side) : (s.setSide k n b r).kvs.deferred = s.kvs.deferred := (rfl)
@[simp] theorem State.setSide_kvs_held (k n b : Nat) (r : Side) : (s.setSide k n b r).kvs.held = s.kvs.held := (rfl)
@[simp] theorem State.setSide_kvs_asks (k n b : Nat) (r : Side) : (s.setSide k n b r).kvs.asks = s.kvs.asks := (rfl)
@[simp] theorem State.setSide_kvs_nextId (k n b : Nat) (r : Side) : (s.setSide k n b r).kvs.nextId = s.kvs.nextId := (rfl)
@[simp] theorem State.setSide_kvs_reqs (k n b : Nat) (r : Side) : (s.setSide k n b r).kvs.reqs = s.kvs.reqs := (rfl)
@[simp] theorem State.setSide_kvs_recomputes (k n b : Nat) (r : Side) : (s.setSide k n b r).kvs.recomputes = s.kvs.recomputes := (rfl)
@[simp] theorem State.setSide_kvs_wanted (k n b : Nat) (r : Side) : (s.setSide k n b r).kvs.wanted = s.kvs.wanted := (rfl)
@[simp] theorem State.setSide_kvs_needed (k n b : Nat) (r : Side) : (s.setSide k n b r).kvs.needed = s.kvs.needed := (rfl)

/-! ### setReq -/

@[simp] theorem State.setReq_now (i : Nat) (r : ReqRec) : (s.setReq i r).now = s.now := (rfl)
@[simp] theorem State.setReq_pending (i : Nat) (r : ReqRec) : (s.setReq i r).pending = s.pending := (rfl)
@[simp] theorem State.setReq_ticks (i : Nat) (r : ReqRec) : (s.setReq i r).ticks = s.ticks := (rfl)
@[simp] theorem State.setReq_free (i : Nat) (r : ReqRec) : (s.setReq i r).free = s.free := (rfl)
@[simp] theorem State.setReq_regs (i : Nat) (r : ReqRec) : (s.setReq i r).regs = s.regs := (rfl)
@[simp] theorem State.setReq_shadow (i : Nat) (r : ReqRec) : (s.setReq i r).shadow = s.shadow := (rfl)
@[simp] theorem State.setReq_mem (i : Nat) (r : ReqRec) : (s.setReq i r).mem = s.mem := (rfl)
@[simp] theorem State.setReq_out (i : Nat) (r : ReqRec) : (s.setReq i r).out = s.out := (rfl)
@[simp] theorem State.setReq_plat (i : Nat) (r : ReqRec) : (s.setReq i r).plat = s.plat := (rfl)
@[simp] theorem State.setReq_host (i : Nat) (r : ReqRec) : (s.setReq i r).host = s.host := (rfl)
@[simp] theorem State.setReq_hq (i : Nat) (r : ReqRec) : (s.setReq i r).hq = s.hq := (rfl)
@[simp] theorem State.setReq_tly (i : Nat) (r : ReqRec) : (s.setReq i r).tly = s.tly := (rfl)
@[simp] theorem State.setReq_tsm (i : Nat) (r : ReqRec) : (s.setReq i r).tsm = s.tsm := (rfl)
@[simp] theorem State.setReq_hmp (i : Nat) (r : ReqRec) : (s.setReq i r).hmp = s.hmp := (rfl)
@[simp] theorem State.setReq_kvs (i : Nat) (r : ReqRec) : (s.setReq i r).kvs = s.kvs := (rfl)
@[simp] theorem State.setReq_cmp (i : Nat) (r : ReqRec) : (s.setReq i r).cmp = s.cmp := (rfl)
@[simp] theorem State.setReq_comp (i : Nat) (r : ReqRec) : (s.setReq i r).comp = s.comp := (rfl)
@[simp] theorem State.setReq_txt (i : Nat) (r : ReqRec) : (s.setReq i r).txt = s.txt := (rfl)
@[simp] theorem State.setReq_cfg (i : Nat) (r : ReqRec) : (s.setReq i r).cfg = s.cfg := (rfl)
@[simp] theorem State.setReq_trl (i : Nat) (r : ReqRec) : (s.setReq i r).trl = s.trl := (rfl)
@[simp] theorem State.setReq_fab (i : Nat) (r : ReqRec) : (s.setReq i r).fab = s.fab := (rfl)
@[simp] theorem State.setReq_snp (i : Nat) (r : ReqRec) : (s.setReq i r).snp = s.snp := (rfl)
@[simp] theorem State.setReq_dram (i : Nat) (r : ReqRec) : (s.setReq i r).dram = s.dram := (rfl)
@[simp] theorem State.setReq_sett (i : Nat) (r : ReqRec) : (s.setReq i r).sett = s.sett := (rfl)
@[simp] theorem State.setReq_net (i : Nat) (r : ReqRec) : (s.setReq i r).net = s.net := (rfl)
@[simp] theorem State.setReq_seu (i : Nat) (r : ReqRec) : (s.setReq i r).seu = s.seu := (rfl)
@[simp] theorem State.setReq_flt (i : Nat) (r : ReqRec) : (s.setReq i r).flt = s.flt := (rfl)
@[simp] theorem State.setReq_fw_uses (i : Nat) (r : ReqRec) : (s.setReq i r).fw.uses = s.fw.uses := (rfl)
@[simp] theorem State.setReq_fw_posted (i : Nat) (r : ReqRec) : (s.setReq i r).fw.posted = s.fw.posted := (rfl)
@[simp] theorem State.setReq_fw_responses (i : Nat) (r : ReqRec) : (s.setReq i r).fw.responses = s.fw.responses := (rfl)
@[simp] theorem State.setReq_fw_step (i : Nat) (r : ReqRec) : (s.setReq i r).fw.step = s.fw.step := (rfl)
@[simp] theorem State.setReq_fw_sent (i : Nat) (r : ReqRec) : (s.setReq i r).fw.sent = s.fw.sent := (rfl)
@[simp] theorem State.setReq_fw_subs (i : Nat) (r : ReqRec) : (s.setReq i r).fw.subs = s.fw.subs := (rfl)
@[simp] theorem State.setReq_fw_params (i : Nat) (r : ReqRec) : (s.setReq i r).fw.params = s.fw.params := (rfl)
@[simp] theorem State.setReq_fw_cur (i : Nat) (r : ReqRec) : (s.setReq i r).fw.cur = s.fw.cur := (rfl)
@[simp] theorem State.setReq_fw_stalled (i : Nat) (r : ReqRec) : (s.setReq i r).fw.stalled = s.fw.stalled := (rfl)
@[simp] theorem State.setReq_fw_lateNext (i : Nat) (r : ReqRec) : (s.setReq i r).fw.lateNext = s.fw.lateNext := (rfl)
@[simp] theorem State.setReq_fw_swaps (i : Nat) (r : ReqRec) : (s.setReq i r).fw.swaps = s.fw.swaps := (rfl)
@[simp] theorem State.setReq_fw_ready (i : Nat) (r : ReqRec) : (s.setReq i r).fw.ready = s.fw.ready := (rfl)
@[simp] theorem State.setReq_fw_preempted (i : Nat) (r : ReqRec) : (s.setReq i r).fw.preempted = s.fw.preempted := (rfl)
@[simp] theorem State.setReq_fw_started (i : Nat) (r : ReqRec) : (s.setReq i r).fw.started = s.fw.started := (rfl)
@[simp] theorem State.setReq_fw_jobs (i : Nat) (r : ReqRec) : (s.setReq i r).fw.jobs = s.fw.jobs := (rfl)
@[simp] theorem State.setReq_fw_windowNs (i : Nat) (r : ReqRec) : (s.setReq i r).fw.windowNs = s.fw.windowNs := (rfl)
@[simp] theorem State.setReq_fw_refillNs (i : Nat) (r : ReqRec) : (s.setReq i r).fw.refillNs = s.fw.refillNs := (rfl)
@[simp] theorem State.setReq_fw_companions (i : Nat) (r : ReqRec) : (s.setReq i r).fw.companions = s.fw.companions := (rfl)

/-! ### setDieJobs -/

@[simp] theorem State.setDieJobs_now (d : Nat) (x : DieJobs) : (s.setDieJobs d x).now = s.now := (rfl)
@[simp] theorem State.setDieJobs_pending (d : Nat) (x : DieJobs) : (s.setDieJobs d x).pending = s.pending := (rfl)
@[simp] theorem State.setDieJobs_ticks (d : Nat) (x : DieJobs) : (s.setDieJobs d x).ticks = s.ticks := (rfl)
@[simp] theorem State.setDieJobs_free (d : Nat) (x : DieJobs) : (s.setDieJobs d x).free = s.free := (rfl)
@[simp] theorem State.setDieJobs_regs (d : Nat) (x : DieJobs) : (s.setDieJobs d x).regs = s.regs := (rfl)
@[simp] theorem State.setDieJobs_shadow (d : Nat) (x : DieJobs) : (s.setDieJobs d x).shadow = s.shadow := (rfl)
@[simp] theorem State.setDieJobs_mem (d : Nat) (x : DieJobs) : (s.setDieJobs d x).mem = s.mem := (rfl)
@[simp] theorem State.setDieJobs_out (d : Nat) (x : DieJobs) : (s.setDieJobs d x).out = s.out := (rfl)
@[simp] theorem State.setDieJobs_plat (d : Nat) (x : DieJobs) : (s.setDieJobs d x).plat = s.plat := (rfl)
@[simp] theorem State.setDieJobs_host (d : Nat) (x : DieJobs) : (s.setDieJobs d x).host = s.host := (rfl)
@[simp] theorem State.setDieJobs_hq (d : Nat) (x : DieJobs) : (s.setDieJobs d x).hq = s.hq := (rfl)
@[simp] theorem State.setDieJobs_tly (d : Nat) (x : DieJobs) : (s.setDieJobs d x).tly = s.tly := (rfl)
@[simp] theorem State.setDieJobs_tsm (d : Nat) (x : DieJobs) : (s.setDieJobs d x).tsm = s.tsm := (rfl)
@[simp] theorem State.setDieJobs_hmp (d : Nat) (x : DieJobs) : (s.setDieJobs d x).hmp = s.hmp := (rfl)
@[simp] theorem State.setDieJobs_kvs (d : Nat) (x : DieJobs) : (s.setDieJobs d x).kvs = s.kvs := (rfl)
@[simp] theorem State.setDieJobs_cmp (d : Nat) (x : DieJobs) : (s.setDieJobs d x).cmp = s.cmp := (rfl)
@[simp] theorem State.setDieJobs_comp (d : Nat) (x : DieJobs) : (s.setDieJobs d x).comp = s.comp := (rfl)
@[simp] theorem State.setDieJobs_txt (d : Nat) (x : DieJobs) : (s.setDieJobs d x).txt = s.txt := (rfl)
@[simp] theorem State.setDieJobs_cfg (d : Nat) (x : DieJobs) : (s.setDieJobs d x).cfg = s.cfg := (rfl)
@[simp] theorem State.setDieJobs_trl (d : Nat) (x : DieJobs) : (s.setDieJobs d x).trl = s.trl := (rfl)
@[simp] theorem State.setDieJobs_fab (d : Nat) (x : DieJobs) : (s.setDieJobs d x).fab = s.fab := (rfl)
@[simp] theorem State.setDieJobs_snp (d : Nat) (x : DieJobs) : (s.setDieJobs d x).snp = s.snp := (rfl)
@[simp] theorem State.setDieJobs_dram (d : Nat) (x : DieJobs) : (s.setDieJobs d x).dram = s.dram := (rfl)
@[simp] theorem State.setDieJobs_sett (d : Nat) (x : DieJobs) : (s.setDieJobs d x).sett = s.sett := (rfl)
@[simp] theorem State.setDieJobs_net (d : Nat) (x : DieJobs) : (s.setDieJobs d x).net = s.net := (rfl)
@[simp] theorem State.setDieJobs_seu (d : Nat) (x : DieJobs) : (s.setDieJobs d x).seu = s.seu := (rfl)
@[simp] theorem State.setDieJobs_flt (d : Nat) (x : DieJobs) : (s.setDieJobs d x).flt = s.flt := (rfl)
@[simp] theorem State.setDieJobs_fw_reqs (d : Nat) (x : DieJobs) : (s.setDieJobs d x).fw.reqs = s.fw.reqs := (rfl)
@[simp] theorem State.setDieJobs_fw_uses (d : Nat) (x : DieJobs) : (s.setDieJobs d x).fw.uses = s.fw.uses := (rfl)
@[simp] theorem State.setDieJobs_fw_posted (d : Nat) (x : DieJobs) : (s.setDieJobs d x).fw.posted = s.fw.posted := (rfl)
@[simp] theorem State.setDieJobs_fw_responses (d : Nat) (x : DieJobs) : (s.setDieJobs d x).fw.responses = s.fw.responses := (rfl)
@[simp] theorem State.setDieJobs_fw_step (d : Nat) (x : DieJobs) : (s.setDieJobs d x).fw.step = s.fw.step := (rfl)
@[simp] theorem State.setDieJobs_fw_sent (d : Nat) (x : DieJobs) : (s.setDieJobs d x).fw.sent = s.fw.sent := (rfl)
@[simp] theorem State.setDieJobs_fw_subs (d : Nat) (x : DieJobs) : (s.setDieJobs d x).fw.subs = s.fw.subs := (rfl)
@[simp] theorem State.setDieJobs_fw_params (d : Nat) (x : DieJobs) : (s.setDieJobs d x).fw.params = s.fw.params := (rfl)
@[simp] theorem State.setDieJobs_fw_cur (d : Nat) (x : DieJobs) : (s.setDieJobs d x).fw.cur = s.fw.cur := (rfl)
@[simp] theorem State.setDieJobs_fw_stalled (d : Nat) (x : DieJobs) : (s.setDieJobs d x).fw.stalled = s.fw.stalled := (rfl)
@[simp] theorem State.setDieJobs_fw_lateNext (d : Nat) (x : DieJobs) : (s.setDieJobs d x).fw.lateNext = s.fw.lateNext := (rfl)
@[simp] theorem State.setDieJobs_fw_swaps (d : Nat) (x : DieJobs) : (s.setDieJobs d x).fw.swaps = s.fw.swaps := (rfl)
@[simp] theorem State.setDieJobs_fw_ready (d : Nat) (x : DieJobs) : (s.setDieJobs d x).fw.ready = s.fw.ready := (rfl)
@[simp] theorem State.setDieJobs_fw_preempted (d : Nat) (x : DieJobs) : (s.setDieJobs d x).fw.preempted = s.fw.preempted := (rfl)
@[simp] theorem State.setDieJobs_fw_started (d : Nat) (x : DieJobs) : (s.setDieJobs d x).fw.started = s.fw.started := (rfl)
@[simp] theorem State.setDieJobs_fw_windowNs (d : Nat) (x : DieJobs) : (s.setDieJobs d x).fw.windowNs = s.fw.windowNs := (rfl)
@[simp] theorem State.setDieJobs_fw_refillNs (d : Nat) (x : DieJobs) : (s.setDieJobs d x).fw.refillNs = s.fw.refillNs := (rfl)
@[simp] theorem State.setDieJobs_fw_companions (d : Nat) (x : DieJobs) : (s.setDieJobs d x).fw.companions = s.fw.companions := (rfl)

/-! ### setRec -/

@[simp] theorem State.setRec_now (k : Nat) (r : PoolRec) : (s.setRec k r).now = s.now := s.writeWords_now _ _
@[simp] theorem State.setRec_pending (k : Nat) (r : PoolRec) : (s.setRec k r).pending = s.pending := s.writeWords_pending _ _
@[simp] theorem State.setRec_ticks (k : Nat) (r : PoolRec) : (s.setRec k r).ticks = s.ticks := s.writeWords_ticks _ _
@[simp] theorem State.setRec_free (k : Nat) (r : PoolRec) : (s.setRec k r).free = s.free := s.writeWords_free _ _
@[simp] theorem State.setRec_regs (k : Nat) (r : PoolRec) : (s.setRec k r).regs = s.regs := s.writeWords_regs _ _
@[simp] theorem State.setRec_shadow (k : Nat) (r : PoolRec) : (s.setRec k r).shadow = s.shadow := s.writeWords_shadow _ _
@[simp] theorem State.setRec_out (k : Nat) (r : PoolRec) : (s.setRec k r).out = s.out := s.writeWords_out _ _
@[simp] theorem State.setRec_plat (k : Nat) (r : PoolRec) : (s.setRec k r).plat = s.plat := s.writeWords_plat _ _
@[simp] theorem State.setRec_host (k : Nat) (r : PoolRec) : (s.setRec k r).host = s.host := s.writeWords_host _ _
@[simp] theorem State.setRec_hq (k : Nat) (r : PoolRec) : (s.setRec k r).hq = s.hq := s.writeWords_hq _ _
@[simp] theorem State.setRec_tly (k : Nat) (r : PoolRec) : (s.setRec k r).tly = s.tly := s.writeWords_tly _ _
@[simp] theorem State.setRec_tsm (k : Nat) (r : PoolRec) : (s.setRec k r).tsm = s.tsm := s.writeWords_tsm _ _
@[simp] theorem State.setRec_hmp (k : Nat) (r : PoolRec) : (s.setRec k r).hmp = s.hmp := s.writeWords_hmp _ _
@[simp] theorem State.setRec_kvs (k : Nat) (r : PoolRec) : (s.setRec k r).kvs = s.kvs := s.writeWords_kvs _ _
@[simp] theorem State.setRec_cmp (k : Nat) (r : PoolRec) : (s.setRec k r).cmp = s.cmp := s.writeWords_cmp _ _
@[simp] theorem State.setRec_comp (k : Nat) (r : PoolRec) : (s.setRec k r).comp = s.comp := s.writeWords_comp _ _
@[simp] theorem State.setRec_txt (k : Nat) (r : PoolRec) : (s.setRec k r).txt = s.txt := s.writeWords_txt _ _
@[simp] theorem State.setRec_cfg (k : Nat) (r : PoolRec) : (s.setRec k r).cfg = s.cfg := s.writeWords_cfg _ _
@[simp] theorem State.setRec_fw (k : Nat) (r : PoolRec) : (s.setRec k r).fw = s.fw := s.writeWords_fw _ _
@[simp] theorem State.setRec_trl (k : Nat) (r : PoolRec) : (s.setRec k r).trl = s.trl := s.writeWords_trl _ _
@[simp] theorem State.setRec_fab (k : Nat) (r : PoolRec) : (s.setRec k r).fab = s.fab := s.writeWords_fab _ _
@[simp] theorem State.setRec_snp (k : Nat) (r : PoolRec) : (s.setRec k r).snp = s.snp := s.writeWords_snp _ _
@[simp] theorem State.setRec_dram (k : Nat) (r : PoolRec) : (s.setRec k r).dram = s.dram := s.writeWords_dram _ _
@[simp] theorem State.setRec_sett (k : Nat) (r : PoolRec) : (s.setRec k r).sett = s.sett := s.writeWords_sett _ _
@[simp] theorem State.setRec_net (k : Nat) (r : PoolRec) : (s.setRec k r).net = s.net := s.writeWords_net _ _
@[simp] theorem State.setRec_seu (k : Nat) (r : PoolRec) : (s.setRec k r).seu = s.seu := s.writeWords_seu _ _
@[simp] theorem State.setRec_flt (k : Nat) (r : PoolRec) : (s.setRec k r).flt = s.flt := s.writeWords_flt _ _

end Sys2Proof.Machine
end

