-- ==== Sys2Proof/Laws/Ops.lean ====
section
/-! SUPPORT. Laws of the shared operations: what each leaves unchanged, and what a read gives after it. -/

namespace Sys2Proof.Machine

open Sys2Proof

/-- State.putTally changes only tly, regs. -/
@[simp] theorem State.putTally_frame (s : State) (t : Nat) (v : BitVec 32) :
    (s.putTally t v).now = s.now ∧ (s.putTally t v).pending = s.pending ∧ (s.putTally t v).ticks = s.ticks ∧ (s.putTally t v).free = s.free ∧ (s.putTally t v).shadow = s.shadow ∧ (s.putTally t v).mem = s.mem ∧ (s.putTally t v).out = s.out ∧ (s.putTally t v).plat = s.plat ∧ (s.putTally t v).host = s.host ∧ (s.putTally t v).hq = s.hq ∧ (s.putTally t v).tsm = s.tsm ∧ (s.putTally t v).hmp = s.hmp ∧ (s.putTally t v).kvs = s.kvs ∧ (s.putTally t v).cmp = s.cmp ∧ (s.putTally t v).comp = s.comp ∧ (s.putTally t v).txt = s.txt ∧ (s.putTally t v).cfg = s.cfg ∧ (s.putTally t v).fw = s.fw ∧ (s.putTally t v).trl = s.trl ∧ (s.putTally t v).fab = s.fab ∧ (s.putTally t v).snp = s.snp ∧ (s.putTally t v).dram = s.dram ∧ (s.putTally t v).sett = s.sett ∧ (s.putTally t v).net = s.net ∧ (s.putTally t v).seu = s.seu ∧ (s.putTally t v).flt = s.flt := by simp [State.putTally]

/-- State.addTally changes only tly, regs. -/
@[simp] theorem State.addTally_frame (s : State) (t : Nat) (v : BitVec 32) :
    (s.addTally t v).now = s.now ∧ (s.addTally t v).pending = s.pending ∧ (s.addTally t v).ticks = s.ticks ∧ (s.addTally t v).free = s.free ∧ (s.addTally t v).shadow = s.shadow ∧ (s.addTally t v).mem = s.mem ∧ (s.addTally t v).out = s.out ∧ (s.addTally t v).plat = s.plat ∧ (s.addTally t v).host = s.host ∧ (s.addTally t v).hq = s.hq ∧ (s.addTally t v).tsm = s.tsm ∧ (s.addTally t v).hmp = s.hmp ∧ (s.addTally t v).kvs = s.kvs ∧ (s.addTally t v).cmp = s.cmp ∧ (s.addTally t v).comp = s.comp ∧ (s.addTally t v).txt = s.txt ∧ (s.addTally t v).cfg = s.cfg ∧ (s.addTally t v).fw = s.fw ∧ (s.addTally t v).trl = s.trl ∧ (s.addTally t v).fab = s.fab ∧ (s.addTally t v).snp = s.snp ∧ (s.addTally t v).dram = s.dram ∧ (s.addTally t v).sett = s.sett ∧ (s.addTally t v).net = s.net ∧ (s.addTally t v).seu = s.seu ∧ (s.addTally t v).flt = s.flt := by unfold State.addTally; split <;> simp

/-- State.setTally changes only tly, regs. -/
@[simp] theorem State.setTally_frame (s : State) (t : Nat) (v : BitVec 32) :
    (s.setTally t v).now = s.now ∧ (s.setTally t v).pending = s.pending ∧ (s.setTally t v).ticks = s.ticks ∧ (s.setTally t v).free = s.free ∧ (s.setTally t v).shadow = s.shadow ∧ (s.setTally t v).mem = s.mem ∧ (s.setTally t v).out = s.out ∧ (s.setTally t v).plat = s.plat ∧ (s.setTally t v).host = s.host ∧ (s.setTally t v).hq = s.hq ∧ (s.setTally t v).tsm = s.tsm ∧ (s.setTally t v).hmp = s.hmp ∧ (s.setTally t v).kvs = s.kvs ∧ (s.setTally t v).cmp = s.cmp ∧ (s.setTally t v).comp = s.comp ∧ (s.setTally t v).txt = s.txt ∧ (s.setTally t v).cfg = s.cfg ∧ (s.setTally t v).fw = s.fw ∧ (s.setTally t v).trl = s.trl ∧ (s.setTally t v).fab = s.fab ∧ (s.setTally t v).snp = s.snp ∧ (s.setTally t v).dram = s.dram ∧ (s.setTally t v).sett = s.sett ∧ (s.setTally t v).net = s.net ∧ (s.setTally t v).seu = s.seu ∧ (s.setTally t v).flt = s.flt := by unfold State.setTally; split <;> simp

/-- State.raise changes only tly, regs. -/
@[simp] theorem State.raise_frame (s : State) (t : Nat) :
    (s.raise t).now = s.now ∧ (s.raise t).pending = s.pending ∧ (s.raise t).ticks = s.ticks ∧ (s.raise t).free = s.free ∧ (s.raise t).shadow = s.shadow ∧ (s.raise t).mem = s.mem ∧ (s.raise t).out = s.out ∧ (s.raise t).plat = s.plat ∧ (s.raise t).host = s.host ∧ (s.raise t).hq = s.hq ∧ (s.raise t).tsm = s.tsm ∧ (s.raise t).hmp = s.hmp ∧ (s.raise t).kvs = s.kvs ∧ (s.raise t).cmp = s.cmp ∧ (s.raise t).comp = s.comp ∧ (s.raise t).txt = s.txt ∧ (s.raise t).cfg = s.cfg ∧ (s.raise t).fw = s.fw ∧ (s.raise t).trl = s.trl ∧ (s.raise t).fab = s.fab ∧ (s.raise t).snp = s.snp ∧ (s.raise t).dram = s.dram ∧ (s.raise t).sett = s.sett ∧ (s.raise t).net = s.net ∧ (s.raise t).seu = s.seu ∧ (s.raise t).flt = s.flt := State.addTally_frame s t 1

/-- State.enter changes only hq, tly, regs. -/
@[simp] theorem State.enter_frame (s : State) (q : Nat) (e : QEntry) :
    (s.enter q e).now = s.now ∧ (s.enter q e).pending = s.pending ∧ (s.enter q e).ticks = s.ticks ∧ (s.enter q e).free = s.free ∧ (s.enter q e).shadow = s.shadow ∧ (s.enter q e).mem = s.mem ∧ (s.enter q e).out = s.out ∧ (s.enter q e).plat = s.plat ∧ (s.enter q e).host = s.host ∧ (s.enter q e).tsm = s.tsm ∧ (s.enter q e).hmp = s.hmp ∧ (s.enter q e).kvs = s.kvs ∧ (s.enter q e).cmp = s.cmp ∧ (s.enter q e).comp = s.comp ∧ (s.enter q e).txt = s.txt ∧ (s.enter q e).cfg = s.cfg ∧ (s.enter q e).fw = s.fw ∧ (s.enter q e).trl = s.trl ∧ (s.enter q e).fab = s.fab ∧ (s.enter q e).snp = s.snp ∧ (s.enter q e).dram = s.dram ∧ (s.enter q e).sett = s.sett ∧ (s.enter q e).net = s.net ∧ (s.enter q e).seu = s.seu ∧ (s.enter q e).flt = s.flt := by unfold State.enter State.iff; dsimp only; split <;> simp

/-- State.runStall changes only regs. -/
@[simp] theorem State.runStall_frame (s : State) (die : Nat) (d : Die) :
    ((s.runStall die d).2).now = s.now ∧ ((s.runStall die d).2).pending = s.pending ∧ ((s.runStall die d).2).ticks = s.ticks ∧ ((s.runStall die d).2).free = s.free ∧ ((s.runStall die d).2).shadow = s.shadow ∧ ((s.runStall die d).2).mem = s.mem ∧ ((s.runStall die d).2).out = s.out ∧ ((s.runStall die d).2).plat = s.plat ∧ ((s.runStall die d).2).host = s.host ∧ ((s.runStall die d).2).hq = s.hq ∧ ((s.runStall die d).2).tly = s.tly ∧ ((s.runStall die d).2).tsm = s.tsm ∧ ((s.runStall die d).2).hmp = s.hmp ∧ ((s.runStall die d).2).kvs = s.kvs ∧ ((s.runStall die d).2).cmp = s.cmp ∧ ((s.runStall die d).2).comp = s.comp ∧ ((s.runStall die d).2).txt = s.txt ∧ ((s.runStall die d).2).cfg = s.cfg ∧ ((s.runStall die d).2).fw = s.fw ∧ ((s.runStall die d).2).trl = s.trl ∧ ((s.runStall die d).2).fab = s.fab ∧ ((s.runStall die d).2).snp = s.snp ∧ ((s.runStall die d).2).dram = s.dram ∧ ((s.runStall die d).2).sett = s.sett ∧ ((s.runStall die d).2).net = s.net ∧ ((s.runStall die d).2).seu = s.seu ∧ ((s.runStall die d).2).flt = s.flt := by unfold State.runStall; split <;> simp

/-- State.unstall changes only cmp, regs. -/
@[simp] theorem State.unstall_frame (s : State) (die : Nat) (d : Die) (l : List Stall) :
    (s.unstall die d l).now = s.now ∧ (s.unstall die d l).pending = s.pending ∧ (s.unstall die d l).ticks = s.ticks ∧ (s.unstall die d l).free = s.free ∧ (s.unstall die d l).shadow = s.shadow ∧ (s.unstall die d l).mem = s.mem ∧ (s.unstall die d l).out = s.out ∧ (s.unstall die d l).plat = s.plat ∧ (s.unstall die d l).host = s.host ∧ (s.unstall die d l).hq = s.hq ∧ (s.unstall die d l).tly = s.tly ∧ (s.unstall die d l).tsm = s.tsm ∧ (s.unstall die d l).hmp = s.hmp ∧ (s.unstall die d l).kvs = s.kvs ∧ (s.unstall die d l).comp = s.comp ∧ (s.unstall die d l).txt = s.txt ∧ (s.unstall die d l).cfg = s.cfg ∧ (s.unstall die d l).fw = s.fw ∧ (s.unstall die d l).trl = s.trl ∧ (s.unstall die d l).fab = s.fab ∧ (s.unstall die d l).snp = s.snp ∧ (s.unstall die d l).dram = s.dram ∧ (s.unstall die d l).sett = s.sett ∧ (s.unstall die d l).net = s.net ∧ (s.unstall die d l).seu = s.seu ∧ (s.unstall die d l).flt = s.flt := by unfold State.unstall; split <;> simp

/-- State.clearPush changes only cmp, regs. -/
@[simp] theorem State.clearPush_frame (s : State) (die : Nat) :
    (s.clearPush die).now = s.now ∧ (s.clearPush die).pending = s.pending ∧ (s.clearPush die).ticks = s.ticks ∧ (s.clearPush die).free = s.free ∧ (s.clearPush die).shadow = s.shadow ∧ (s.clearPush die).mem = s.mem ∧ (s.clearPush die).out = s.out ∧ (s.clearPush die).plat = s.plat ∧ (s.clearPush die).host = s.host ∧ (s.clearPush die).hq = s.hq ∧ (s.clearPush die).tly = s.tly ∧ (s.clearPush die).tsm = s.tsm ∧ (s.clearPush die).hmp = s.hmp ∧ (s.clearPush die).kvs = s.kvs ∧ (s.clearPush die).comp = s.comp ∧ (s.clearPush die).txt = s.txt ∧ (s.clearPush die).cfg = s.cfg ∧ (s.clearPush die).fw = s.fw ∧ (s.clearPush die).trl = s.trl ∧ (s.clearPush die).fab = s.fab ∧ (s.clearPush die).snp = s.snp ∧ (s.clearPush die).dram = s.dram ∧ (s.clearPush die).sett = s.sett ∧ (s.clearPush die).net = s.net ∧ (s.clearPush die).seu = s.seu ∧ (s.clearPush die).flt = s.flt := by unfold State.clearPush; simp

/-- State.giveCredits changes only trl. -/
@[simp] theorem State.giveCredits_frame (s : State) (p vc n : Nat) :
    (s.giveCredits p vc n).now = s.now ∧ (s.giveCredits p vc n).pending = s.pending ∧ (s.giveCredits p vc n).ticks = s.ticks ∧ (s.giveCredits p vc n).free = s.free ∧ (s.giveCredits p vc n).regs = s.regs ∧ (s.giveCredits p vc n).shadow = s.shadow ∧ (s.giveCredits p vc n).mem = s.mem ∧ (s.giveCredits p vc n).out = s.out ∧ (s.giveCredits p vc n).plat = s.plat ∧ (s.giveCredits p vc n).host = s.host ∧ (s.giveCredits p vc n).hq = s.hq ∧ (s.giveCredits p vc n).tly = s.tly ∧ (s.giveCredits p vc n).tsm = s.tsm ∧ (s.giveCredits p vc n).hmp = s.hmp ∧ (s.giveCredits p vc n).kvs = s.kvs ∧ (s.giveCredits p vc n).cmp = s.cmp ∧ (s.giveCredits p vc n).comp = s.comp ∧ (s.giveCredits p vc n).txt = s.txt ∧ (s.giveCredits p vc n).cfg = s.cfg ∧ (s.giveCredits p vc n).fw = s.fw ∧ (s.giveCredits p vc n).fab = s.fab ∧ (s.giveCredits p vc n).snp = s.snp ∧ (s.giveCredits p vc n).dram = s.dram ∧ (s.giveCredits p vc n).sett = s.sett ∧ (s.giveCredits p vc n).net = s.net ∧ (s.giveCredits p vc n).seu = s.seu ∧ (s.giveCredits p vc n).flt = s.flt := by simp [State.giveCredits]

/-- State.pushed changes only tly, regs, trl, cmp. -/
@[simp] theorem State.pushed_frame (s : State) (w : WaitPush) :
    (s.pushed w).now = s.now ∧ (s.pushed w).pending = s.pending ∧ (s.pushed w).ticks = s.ticks ∧ (s.pushed w).free = s.free ∧ (s.pushed w).shadow = s.shadow ∧ (s.pushed w).mem = s.mem ∧ (s.pushed w).out = s.out ∧ (s.pushed w).plat = s.plat ∧ (s.pushed w).host = s.host ∧ (s.pushed w).hq = s.hq ∧ (s.pushed w).tsm = s.tsm ∧ (s.pushed w).hmp = s.hmp ∧ (s.pushed w).kvs = s.kvs ∧ (s.pushed w).comp = s.comp ∧ (s.pushed w).txt = s.txt ∧ (s.pushed w).cfg = s.cfg ∧ (s.pushed w).fw = s.fw ∧ (s.pushed w).fab = s.fab ∧ (s.pushed w).snp = s.snp ∧ (s.pushed w).dram = s.dram ∧ (s.pushed w).sett = s.sett ∧ (s.pushed w).net = s.net ∧ (s.pushed w).seu = s.seu ∧ (s.pushed w).flt = s.flt := by unfold State.pushed; split <;> split <;> split <;> simp

/-- State.hwPush changes only hq, tly, regs, trl, cmp. -/
@[simp] theorem State.hwPush_frame (s : State) (q : Nat) (w : WaitPush) (b : Bool) :
    (s.hwPush q w b).now = s.now ∧ (s.hwPush q w b).pending = s.pending ∧ (s.hwPush q w b).ticks = s.ticks ∧ (s.hwPush q w b).free = s.free ∧ (s.hwPush q w b).shadow = s.shadow ∧ (s.hwPush q w b).mem = s.mem ∧ (s.hwPush q w b).out = s.out ∧ (s.hwPush q w b).plat = s.plat ∧ (s.hwPush q w b).host = s.host ∧ (s.hwPush q w b).tsm = s.tsm ∧ (s.hwPush q w b).hmp = s.hmp ∧ (s.hwPush q w b).kvs = s.kvs ∧ (s.hwPush q w b).comp = s.comp ∧ (s.hwPush q w b).txt = s.txt ∧ (s.hwPush q w b).cfg = s.cfg ∧ (s.hwPush q w b).fw = s.fw ∧ (s.hwPush q w b).fab = s.fab ∧ (s.hwPush q w b).snp = s.snp ∧ (s.hwPush q w b).dram = s.dram ∧ (s.hwPush q w b).sett = s.sett ∧ (s.hwPush q w b).net = s.net ∧ (s.hwPush q w b).seu = s.seu ∧ (s.hwPush q w b).flt = s.flt := by unfold State.hwPush; dsimp only; split_ifs <;> (try split) <;> (try split) <;> simp

/-- State.post changes only hq, tly, regs, trl, cmp. -/
@[simp] theorem State.post_frame (s : State) (q : Nat) (i : Item) (t : Nat) :
    (s.post q i t).now = s.now ∧ (s.post q i t).pending = s.pending ∧ (s.post q i t).ticks = s.ticks ∧ (s.post q i t).free = s.free ∧ (s.post q i t).shadow = s.shadow ∧ (s.post q i t).mem = s.mem ∧ (s.post q i t).out = s.out ∧ (s.post q i t).plat = s.plat ∧ (s.post q i t).host = s.host ∧ (s.post q i t).tsm = s.tsm ∧ (s.post q i t).hmp = s.hmp ∧ (s.post q i t).kvs = s.kvs ∧ (s.post q i t).comp = s.comp ∧ (s.post q i t).txt = s.txt ∧ (s.post q i t).cfg = s.cfg ∧ (s.post q i t).fw = s.fw ∧ (s.post q i t).fab = s.fab ∧ (s.post q i t).snp = s.snp ∧ (s.post q i t).dram = s.dram ∧ (s.post q i t).sett = s.sett ∧ (s.post q i t).net = s.net ∧ (s.post q i t).seu = s.seu ∧ (s.post q i t).flt = s.flt := by unfold State.post; simp

/-- admitLoop changes only hq, tly, regs, trl, cmp. -/
@[simp] theorem admitLoop_frame (q : Nat) (ws : List WaitPush) (s : State) :
    (admitLoop q ws s).now = s.now ∧ (admitLoop q ws s).pending = s.pending ∧ (admitLoop q ws s).ticks = s.ticks ∧ (admitLoop q ws s).free = s.free ∧ (admitLoop q ws s).shadow = s.shadow ∧ (admitLoop q ws s).mem = s.mem ∧ (admitLoop q ws s).out = s.out ∧ (admitLoop q ws s).plat = s.plat ∧ (admitLoop q ws s).host = s.host ∧ (admitLoop q ws s).tsm = s.tsm ∧ (admitLoop q ws s).hmp = s.hmp ∧ (admitLoop q ws s).kvs = s.kvs ∧ (admitLoop q ws s).comp = s.comp ∧ (admitLoop q ws s).txt = s.txt ∧ (admitLoop q ws s).cfg = s.cfg ∧ (admitLoop q ws s).fw = s.fw ∧ (admitLoop q ws s).fab = s.fab ∧ (admitLoop q ws s).snp = s.snp ∧ (admitLoop q ws s).dram = s.dram ∧ (admitLoop q ws s).sett = s.sett ∧ (admitLoop q ws s).net = s.net ∧ (admitLoop q ws s).seu = s.seu ∧ (admitLoop q ws s).flt = s.flt := by induction ws generalizing s with | nil => simp [admitLoop] | cons w ws ih => unfold admitLoop; split <;> simp [ih]

/-- State.letIn changes only hq, tly, regs, trl, cmp. -/
@[simp] theorem State.letIn_frame (s : State) (q : Nat) :
    (s.letIn q).now = s.now ∧ (s.letIn q).pending = s.pending ∧ (s.letIn q).ticks = s.ticks ∧ (s.letIn q).free = s.free ∧ (s.letIn q).shadow = s.shadow ∧ (s.letIn q).mem = s.mem ∧ (s.letIn q).out = s.out ∧ (s.letIn q).plat = s.plat ∧ (s.letIn q).host = s.host ∧ (s.letIn q).tsm = s.tsm ∧ (s.letIn q).hmp = s.hmp ∧ (s.letIn q).kvs = s.kvs ∧ (s.letIn q).comp = s.comp ∧ (s.letIn q).txt = s.txt ∧ (s.letIn q).cfg = s.cfg ∧ (s.letIn q).fw = s.fw ∧ (s.letIn q).fab = s.fab ∧ (s.letIn q).snp = s.snp ∧ (s.letIn q).dram = s.dram ∧ (s.letIn q).sett = s.sett ∧ (s.letIn q).net = s.net ∧ (s.letIn q).seu = s.seu ∧ (s.letIn q).flt = s.flt := by unfold State.letIn; simp

/-- State.writeRecord changes only host, out. -/
@[simp] theorem State.writeRecord_frame (s : State) (c : HostCmd) (code : Nat) (d x : Word) (n : Nat) :
    (s.writeRecord c code d x n).now = s.now ∧ (s.writeRecord c code d x n).pending = s.pending ∧ (s.writeRecord c code d x n).ticks = s.ticks ∧ (s.writeRecord c code d x n).free = s.free ∧ (s.writeRecord c code d x n).regs = s.regs ∧ (s.writeRecord c code d x n).shadow = s.shadow ∧ (s.writeRecord c code d x n).mem = s.mem ∧ (s.writeRecord c code d x n).plat = s.plat ∧ (s.writeRecord c code d x n).hq = s.hq ∧ (s.writeRecord c code d x n).tly = s.tly ∧ (s.writeRecord c code d x n).tsm = s.tsm ∧ (s.writeRecord c code d x n).hmp = s.hmp ∧ (s.writeRecord c code d x n).kvs = s.kvs ∧ (s.writeRecord c code d x n).cmp = s.cmp ∧ (s.writeRecord c code d x n).comp = s.comp ∧ (s.writeRecord c code d x n).txt = s.txt ∧ (s.writeRecord c code d x n).cfg = s.cfg ∧ (s.writeRecord c code d x n).fw = s.fw ∧ (s.writeRecord c code d x n).trl = s.trl ∧ (s.writeRecord c code d x n).fab = s.fab ∧ (s.writeRecord c code d x n).snp = s.snp ∧ (s.writeRecord c code d x n).dram = s.dram ∧ (s.writeRecord c code d x n).sett = s.sett ∧ (s.writeRecord c code d x n).net = s.net ∧ (s.writeRecord c code d x n).seu = s.seu ∧ (s.writeRecord c code d x n).flt = s.flt := by simp [State.writeRecord]

/-- State.complete changes only host, out. -/
@[simp] theorem State.complete_frame (s : State) (id code : Nat) (d x : Word) :
    (s.complete id code d x).now = s.now ∧ (s.complete id code d x).pending = s.pending ∧ (s.complete id code d x).ticks = s.ticks ∧ (s.complete id code d x).free = s.free ∧ (s.complete id code d x).regs = s.regs ∧ (s.complete id code d x).shadow = s.shadow ∧ (s.complete id code d x).mem = s.mem ∧ (s.complete id code d x).plat = s.plat ∧ (s.complete id code d x).hq = s.hq ∧ (s.complete id code d x).tly = s.tly ∧ (s.complete id code d x).tsm = s.tsm ∧ (s.complete id code d x).hmp = s.hmp ∧ (s.complete id code d x).kvs = s.kvs ∧ (s.complete id code d x).cmp = s.cmp ∧ (s.complete id code d x).comp = s.comp ∧ (s.complete id code d x).txt = s.txt ∧ (s.complete id code d x).cfg = s.cfg ∧ (s.complete id code d x).fw = s.fw ∧ (s.complete id code d x).trl = s.trl ∧ (s.complete id code d x).fab = s.fab ∧ (s.complete id code d x).snp = s.snp ∧ (s.complete id code d x).dram = s.dram ∧ (s.complete id code d x).sett = s.sett ∧ (s.complete id code d x).net = s.net ∧ (s.complete id code d x).seu = s.seu ∧ (s.complete id code d x).flt = s.flt := by
  unfold State.complete
  split
  · simp
  · dsimp only
    split_ifs <;> simp

/-- watchLoop changes only host, out. -/
@[simp] theorem watchLoop_frame (f : Nat) (cs : List HostCmd) (s : State) :
    (watchLoop f cs s).now = s.now ∧ (watchLoop f cs s).pending = s.pending ∧ (watchLoop f cs s).ticks = s.ticks ∧ (watchLoop f cs s).free = s.free ∧ (watchLoop f cs s).regs = s.regs ∧ (watchLoop f cs s).shadow = s.shadow ∧ (watchLoop f cs s).mem = s.mem ∧ (watchLoop f cs s).plat = s.plat ∧ (watchLoop f cs s).hq = s.hq ∧ (watchLoop f cs s).tly = s.tly ∧ (watchLoop f cs s).tsm = s.tsm ∧ (watchLoop f cs s).hmp = s.hmp ∧ (watchLoop f cs s).kvs = s.kvs ∧ (watchLoop f cs s).cmp = s.cmp ∧ (watchLoop f cs s).comp = s.comp ∧ (watchLoop f cs s).txt = s.txt ∧ (watchLoop f cs s).cfg = s.cfg ∧ (watchLoop f cs s).fw = s.fw ∧ (watchLoop f cs s).trl = s.trl ∧ (watchLoop f cs s).fab = s.fab ∧ (watchLoop f cs s).snp = s.snp ∧ (watchLoop f cs s).dram = s.dram ∧ (watchLoop f cs s).sett = s.sett ∧ (watchLoop f cs s).net = s.net ∧ (watchLoop f cs s).seu = s.seu ∧ (watchLoop f cs s).flt = s.flt := by induction cs generalizing s with | nil => simp [watchLoop] | cons c cs ih => unfold watchLoop; dsimp only; split <;> simp [ih]

/-- State.setAttn changes only host, out. -/
@[simp] theorem State.setAttn_frame (s : State) (v : Nat) :
    (s.setAttn v).now = s.now ∧ (s.setAttn v).pending = s.pending ∧ (s.setAttn v).ticks = s.ticks ∧ (s.setAttn v).free = s.free ∧ (s.setAttn v).regs = s.regs ∧ (s.setAttn v).shadow = s.shadow ∧ (s.setAttn v).mem = s.mem ∧ (s.setAttn v).plat = s.plat ∧ (s.setAttn v).hq = s.hq ∧ (s.setAttn v).tly = s.tly ∧ (s.setAttn v).tsm = s.tsm ∧ (s.setAttn v).hmp = s.hmp ∧ (s.setAttn v).kvs = s.kvs ∧ (s.setAttn v).cmp = s.cmp ∧ (s.setAttn v).comp = s.comp ∧ (s.setAttn v).txt = s.txt ∧ (s.setAttn v).cfg = s.cfg ∧ (s.setAttn v).fw = s.fw ∧ (s.setAttn v).trl = s.trl ∧ (s.setAttn v).fab = s.fab ∧ (s.setAttn v).snp = s.snp ∧ (s.setAttn v).dram = s.dram ∧ (s.setAttn v).sett = s.sett ∧ (s.setAttn v).net = s.net ∧ (s.setAttn v).seu = s.seu ∧ (s.setAttn v).flt = s.flt := by simp [State.setAttn]

/-- State.putEvent changes only regs. -/
@[simp] theorem State.putEvent_frame (s : State) (k i : Nat) (w : Word) :
    (s.putEvent k i w).now = s.now ∧ (s.putEvent k i w).pending = s.pending ∧ (s.putEvent k i w).ticks = s.ticks ∧ (s.putEvent k i w).free = s.free ∧ (s.putEvent k i w).shadow = s.shadow ∧ (s.putEvent k i w).mem = s.mem ∧ (s.putEvent k i w).out = s.out ∧ (s.putEvent k i w).plat = s.plat ∧ (s.putEvent k i w).host = s.host ∧ (s.putEvent k i w).hq = s.hq ∧ (s.putEvent k i w).tly = s.tly ∧ (s.putEvent k i w).tsm = s.tsm ∧ (s.putEvent k i w).hmp = s.hmp ∧ (s.putEvent k i w).kvs = s.kvs ∧ (s.putEvent k i w).cmp = s.cmp ∧ (s.putEvent k i w).comp = s.comp ∧ (s.putEvent k i w).txt = s.txt ∧ (s.putEvent k i w).cfg = s.cfg ∧ (s.putEvent k i w).fw = s.fw ∧ (s.putEvent k i w).trl = s.trl ∧ (s.putEvent k i w).fab = s.fab ∧ (s.putEvent k i w).snp = s.snp ∧ (s.putEvent k i w).dram = s.dram ∧ (s.putEvent k i w).sett = s.sett ∧ (s.putEvent k i w).net = s.net ∧ (s.putEvent k i w).seu = s.seu ∧ (s.putEvent k i w).flt = s.flt := by simp [State.putEvent]

/-- State.eventWords changes only regs. -/
@[simp] theorem State.eventWords_frame (s : State) (k : Nat) (a b c : Word) :
    (s.eventWords k a b c).now = s.now ∧ (s.eventWords k a b c).pending = s.pending ∧ (s.eventWords k a b c).ticks = s.ticks ∧ (s.eventWords k a b c).free = s.free ∧ (s.eventWords k a b c).shadow = s.shadow ∧ (s.eventWords k a b c).mem = s.mem ∧ (s.eventWords k a b c).out = s.out ∧ (s.eventWords k a b c).plat = s.plat ∧ (s.eventWords k a b c).host = s.host ∧ (s.eventWords k a b c).hq = s.hq ∧ (s.eventWords k a b c).tly = s.tly ∧ (s.eventWords k a b c).tsm = s.tsm ∧ (s.eventWords k a b c).hmp = s.hmp ∧ (s.eventWords k a b c).kvs = s.kvs ∧ (s.eventWords k a b c).cmp = s.cmp ∧ (s.eventWords k a b c).comp = s.comp ∧ (s.eventWords k a b c).txt = s.txt ∧ (s.eventWords k a b c).cfg = s.cfg ∧ (s.eventWords k a b c).fw = s.fw ∧ (s.eventWords k a b c).trl = s.trl ∧ (s.eventWords k a b c).fab = s.fab ∧ (s.eventWords k a b c).snp = s.snp ∧ (s.eventWords k a b c).dram = s.dram ∧ (s.eventWords k a b c).sett = s.sett ∧ (s.eventWords k a b c).net = s.net ∧ (s.eventWords k a b c).seu = s.seu ∧ (s.eventWords k a b c).flt = s.flt := by simp [State.eventWords]

/-- State.event changes only regs, host, out. -/
@[simp] theorem State.event_frame (s : State) (code domain die unit step : Nat) (h d : Word) :
    (s.event code domain die unit step h d).now = s.now ∧ (s.event code domain die unit step h d).pending = s.pending ∧ (s.event code domain die unit step h d).ticks = s.ticks ∧ (s.event code domain die unit step h d).free = s.free ∧ (s.event code domain die unit step h d).shadow = s.shadow ∧ (s.event code domain die unit step h d).mem = s.mem ∧ (s.event code domain die unit step h d).plat = s.plat ∧ (s.event code domain die unit step h d).hq = s.hq ∧ (s.event code domain die unit step h d).tly = s.tly ∧ (s.event code domain die unit step h d).tsm = s.tsm ∧ (s.event code domain die unit step h d).hmp = s.hmp ∧ (s.event code domain die unit step h d).kvs = s.kvs ∧ (s.event code domain die unit step h d).cmp = s.cmp ∧ (s.event code domain die unit step h d).comp = s.comp ∧ (s.event code domain die unit step h d).txt = s.txt ∧ (s.event code domain die unit step h d).cfg = s.cfg ∧ (s.event code domain die unit step h d).fw = s.fw ∧ (s.event code domain die unit step h d).trl = s.trl ∧ (s.event code domain die unit step h d).fab = s.fab ∧ (s.event code domain die unit step h d).snp = s.snp ∧ (s.event code domain die unit step h d).dram = s.dram ∧ (s.event code domain die unit step h d).sett = s.sett ∧ (s.event code domain die unit step h d).net = s.net ∧ (s.event code domain die unit step h d).seu = s.seu ∧ (s.event code domain die unit step h d).flt = s.flt := by simp [State.event]

/-- State.reply changes only host, out. -/
@[simp] theorem State.reply_frame (s : State) (a : Option Nat) (code : Nat) (d x : Word) :
    (s.reply a code d x).now = s.now ∧ (s.reply a code d x).pending = s.pending ∧ (s.reply a code d x).ticks = s.ticks ∧ (s.reply a code d x).free = s.free ∧ (s.reply a code d x).regs = s.regs ∧ (s.reply a code d x).shadow = s.shadow ∧ (s.reply a code d x).mem = s.mem ∧ (s.reply a code d x).plat = s.plat ∧ (s.reply a code d x).hq = s.hq ∧ (s.reply a code d x).tly = s.tly ∧ (s.reply a code d x).tsm = s.tsm ∧ (s.reply a code d x).hmp = s.hmp ∧ (s.reply a code d x).kvs = s.kvs ∧ (s.reply a code d x).cmp = s.cmp ∧ (s.reply a code d x).comp = s.comp ∧ (s.reply a code d x).txt = s.txt ∧ (s.reply a code d x).cfg = s.cfg ∧ (s.reply a code d x).fw = s.fw ∧ (s.reply a code d x).trl = s.trl ∧ (s.reply a code d x).fab = s.fab ∧ (s.reply a code d x).snp = s.snp ∧ (s.reply a code d x).dram = s.dram ∧ (s.reply a code d x).sett = s.sett ∧ (s.reply a code d x).net = s.net ∧ (s.reply a code d x).seu = s.seu ∧ (s.reply a code d x).flt = s.flt := by unfold State.reply; split <;> simp

/-- State.sendFlit changes only out, trl. -/
@[simp] theorem State.sendFlit_frame (s : State) (p k : Nat) (u : DataFlit) (c : List Word) :
    (s.sendFlit p k u c).now = s.now ∧ (s.sendFlit p k u c).pending = s.pending ∧ (s.sendFlit p k u c).ticks = s.ticks ∧ (s.sendFlit p k u c).free = s.free ∧ (s.sendFlit p k u c).regs = s.regs ∧ (s.sendFlit p k u c).shadow = s.shadow ∧ (s.sendFlit p k u c).mem = s.mem ∧ (s.sendFlit p k u c).plat = s.plat ∧ (s.sendFlit p k u c).host = s.host ∧ (s.sendFlit p k u c).hq = s.hq ∧ (s.sendFlit p k u c).tly = s.tly ∧ (s.sendFlit p k u c).tsm = s.tsm ∧ (s.sendFlit p k u c).hmp = s.hmp ∧ (s.sendFlit p k u c).kvs = s.kvs ∧ (s.sendFlit p k u c).cmp = s.cmp ∧ (s.sendFlit p k u c).comp = s.comp ∧ (s.sendFlit p k u c).txt = s.txt ∧ (s.sendFlit p k u c).cfg = s.cfg ∧ (s.sendFlit p k u c).fw = s.fw ∧ (s.sendFlit p k u c).fab = s.fab ∧ (s.sendFlit p k u c).snp = s.snp ∧ (s.sendFlit p k u c).dram = s.dram ∧ (s.sendFlit p k u c).sett = s.sett ∧ (s.sendFlit p k u c).net = s.net ∧ (s.sendFlit p k u c).seu = s.seu ∧ (s.sendFlit p k u c).flt = s.flt := by simp [State.sendFlit]

/-- pumpLoop changes only out, trl, regs. -/
@[simp] theorem pumpLoop_frame (p n : Nat) (s : State) :
    (pumpLoop p n s).now = s.now ∧ (pumpLoop p n s).pending = s.pending ∧ (pumpLoop p n s).ticks = s.ticks ∧ (pumpLoop p n s).free = s.free ∧ (pumpLoop p n s).shadow = s.shadow ∧ (pumpLoop p n s).mem = s.mem ∧ (pumpLoop p n s).plat = s.plat ∧ (pumpLoop p n s).host = s.host ∧ (pumpLoop p n s).hq = s.hq ∧ (pumpLoop p n s).tly = s.tly ∧ (pumpLoop p n s).tsm = s.tsm ∧ (pumpLoop p n s).hmp = s.hmp ∧ (pumpLoop p n s).kvs = s.kvs ∧ (pumpLoop p n s).cmp = s.cmp ∧ (pumpLoop p n s).comp = s.comp ∧ (pumpLoop p n s).txt = s.txt ∧ (pumpLoop p n s).cfg = s.cfg ∧ (pumpLoop p n s).fw = s.fw ∧ (pumpLoop p n s).fab = s.fab ∧ (pumpLoop p n s).snp = s.snp ∧ (pumpLoop p n s).dram = s.dram ∧ (pumpLoop p n s).sett = s.sett ∧ (pumpLoop p n s).net = s.net ∧ (pumpLoop p n s).seu = s.seu ∧ (pumpLoop p n s).flt = s.flt := by
  induction n generalizing s with
  | zero => simp [pumpLoop]
  | succ n ih =>
    unfold pumpLoop
    split
    · simp
    · next t h =>
      simp only [State.nextFlit] at h
      split at h
      · cases h
      · simp only [Option.map_eq_some_iff] at h
        obtain ⟨vc, -, rfl⟩ := h
        simp [ih]

/-- State.pump changes only out, trl, regs. -/
@[simp] theorem State.pump_frame (s : State) (p : Nat) :
    (s.pump p).now = s.now ∧ (s.pump p).pending = s.pending ∧ (s.pump p).ticks = s.ticks ∧ (s.pump p).free = s.free ∧ (s.pump p).shadow = s.shadow ∧ (s.pump p).mem = s.mem ∧ (s.pump p).plat = s.plat ∧ (s.pump p).host = s.host ∧ (s.pump p).hq = s.hq ∧ (s.pump p).tly = s.tly ∧ (s.pump p).tsm = s.tsm ∧ (s.pump p).hmp = s.hmp ∧ (s.pump p).kvs = s.kvs ∧ (s.pump p).cmp = s.cmp ∧ (s.pump p).comp = s.comp ∧ (s.pump p).txt = s.txt ∧ (s.pump p).cfg = s.cfg ∧ (s.pump p).fw = s.fw ∧ (s.pump p).fab = s.fab ∧ (s.pump p).snp = s.snp ∧ (s.pump p).dram = s.dram ∧ (s.pump p).sett = s.sett ∧ (s.pump p).net = s.net ∧ (s.pump p).seu = s.seu ∧ (s.pump p).flt = s.flt := pumpLoop_frame p 2047 s

/-- State.sendFrame changes only out, trl, regs. -/
@[simp] theorem State.sendFrame_frame (s : State) (f : FrameHead) :
    (s.sendFrame f).now = s.now ∧ (s.sendFrame f).pending = s.pending ∧ (s.sendFrame f).ticks = s.ticks ∧ (s.sendFrame f).free = s.free ∧ (s.sendFrame f).shadow = s.shadow ∧ (s.sendFrame f).mem = s.mem ∧ (s.sendFrame f).plat = s.plat ∧ (s.sendFrame f).host = s.host ∧ (s.sendFrame f).hq = s.hq ∧ (s.sendFrame f).tly = s.tly ∧ (s.sendFrame f).tsm = s.tsm ∧ (s.sendFrame f).hmp = s.hmp ∧ (s.sendFrame f).kvs = s.kvs ∧ (s.sendFrame f).cmp = s.cmp ∧ (s.sendFrame f).comp = s.comp ∧ (s.sendFrame f).txt = s.txt ∧ (s.sendFrame f).cfg = s.cfg ∧ (s.sendFrame f).fw = s.fw ∧ (s.sendFrame f).fab = s.fab ∧ (s.sendFrame f).snp = s.snp ∧ (s.sendFrame f).dram = s.dram ∧ (s.sendFrame f).sett = s.sett ∧ (s.sendFrame f).net = s.net ∧ (s.sendFrame f).seu = s.seu ∧ (s.sendFrame f).flt = s.flt := by unfold State.sendFrame; dsimp only; split_ifs <;> (try split) <;> simp

/-- State.sendTagged changes only out, trl, regs, hq. -/
@[simp] theorem State.sendTagged_frame (s : State) (f : FrameHead) (h : Word) (c g : Nat) :
    (s.sendTagged f h c g).now = s.now ∧ (s.sendTagged f h c g).pending = s.pending ∧ (s.sendTagged f h c g).ticks = s.ticks ∧ (s.sendTagged f h c g).free = s.free ∧ (s.sendTagged f h c g).shadow = s.shadow ∧ (s.sendTagged f h c g).mem = s.mem ∧ (s.sendTagged f h c g).plat = s.plat ∧ (s.sendTagged f h c g).host = s.host ∧ (s.sendTagged f h c g).tly = s.tly ∧ (s.sendTagged f h c g).tsm = s.tsm ∧ (s.sendTagged f h c g).hmp = s.hmp ∧ (s.sendTagged f h c g).kvs = s.kvs ∧ (s.sendTagged f h c g).cmp = s.cmp ∧ (s.sendTagged f h c g).comp = s.comp ∧ (s.sendTagged f h c g).txt = s.txt ∧ (s.sendTagged f h c g).cfg = s.cfg ∧ (s.sendTagged f h c g).fw = s.fw ∧ (s.sendTagged f h c g).fab = s.fab ∧ (s.sendTagged f h c g).snp = s.snp ∧ (s.sendTagged f h c g).dram = s.dram ∧ (s.sendTagged f h c g).sett = s.sett ∧ (s.sendTagged f h c g).net = s.net ∧ (s.sendTagged f h c g).seu = s.seu ∧ (s.sendTagged f h c g).flt = s.flt := by simp [State.sendTagged, State.nextSeq]

/-- State.sendFrames changes only out, trl, regs, hq. -/
@[simp] theorem State.sendFrames_frame (s : State) (h : Word) (c : Nat) (l : List FrameHead) :
    (s.sendFrames h c l).now = s.now ∧ (s.sendFrames h c l).pending = s.pending ∧ (s.sendFrames h c l).ticks = s.ticks ∧ (s.sendFrames h c l).free = s.free ∧ (s.sendFrames h c l).shadow = s.shadow ∧ (s.sendFrames h c l).mem = s.mem ∧ (s.sendFrames h c l).plat = s.plat ∧ (s.sendFrames h c l).host = s.host ∧ (s.sendFrames h c l).tly = s.tly ∧ (s.sendFrames h c l).tsm = s.tsm ∧ (s.sendFrames h c l).hmp = s.hmp ∧ (s.sendFrames h c l).kvs = s.kvs ∧ (s.sendFrames h c l).cmp = s.cmp ∧ (s.sendFrames h c l).comp = s.comp ∧ (s.sendFrames h c l).txt = s.txt ∧ (s.sendFrames h c l).cfg = s.cfg ∧ (s.sendFrames h c l).fw = s.fw ∧ (s.sendFrames h c l).fab = s.fab ∧ (s.sendFrames h c l).snp = s.snp ∧ (s.sendFrames h c l).dram = s.dram ∧ (s.sendFrames h c l).sett = s.sett ∧ (s.sendFrames h c l).net = s.net ∧ (s.sendFrames h c l).seu = s.seu ∧ (s.sendFrames h c l).flt = s.flt := by
  induction l generalizing s with
  | nil => simp [State.sendFrames]
  | cons f l ih => cases l <;> simp [State.sendFrames, ih]

/-- State.send changes only out, trl, regs, hq. -/
@[simp] theorem State.send_frame (s : State) (m cls : Nat) (x : Msg) :
    (s.send m cls x).now = s.now ∧ (s.send m cls x).pending = s.pending ∧ (s.send m cls x).ticks = s.ticks ∧ (s.send m cls x).free = s.free ∧ (s.send m cls x).shadow = s.shadow ∧ (s.send m cls x).mem = s.mem ∧ (s.send m cls x).plat = s.plat ∧ (s.send m cls x).host = s.host ∧ (s.send m cls x).tly = s.tly ∧ (s.send m cls x).tsm = s.tsm ∧ (s.send m cls x).hmp = s.hmp ∧ (s.send m cls x).kvs = s.kvs ∧ (s.send m cls x).cmp = s.cmp ∧ (s.send m cls x).comp = s.comp ∧ (s.send m cls x).txt = s.txt ∧ (s.send m cls x).cfg = s.cfg ∧ (s.send m cls x).fw = s.fw ∧ (s.send m cls x).fab = s.fab ∧ (s.send m cls x).snp = s.snp ∧ (s.send m cls x).dram = s.dram ∧ (s.send m cls x).sett = s.sett ∧ (s.send m cls x).net = s.net ∧ (s.send m cls x).seu = s.seu ∧ (s.send m cls x).flt = s.flt := by simp [State.send]

/-- State.sendAll changes only out, trl, regs, hq. -/
@[simp] theorem State.sendAll_frame (s : State) (cls : Nat) (x : Msg) :
    (s.sendAll cls x).now = s.now ∧ (s.sendAll cls x).pending = s.pending ∧ (s.sendAll cls x).ticks = s.ticks ∧ (s.sendAll cls x).free = s.free ∧ (s.sendAll cls x).shadow = s.shadow ∧ (s.sendAll cls x).mem = s.mem ∧ (s.sendAll cls x).plat = s.plat ∧ (s.sendAll cls x).host = s.host ∧ (s.sendAll cls x).tly = s.tly ∧ (s.sendAll cls x).tsm = s.tsm ∧ (s.sendAll cls x).hmp = s.hmp ∧ (s.sendAll cls x).kvs = s.kvs ∧ (s.sendAll cls x).cmp = s.cmp ∧ (s.sendAll cls x).comp = s.comp ∧ (s.sendAll cls x).txt = s.txt ∧ (s.sendAll cls x).cfg = s.cfg ∧ (s.sendAll cls x).fw = s.fw ∧ (s.sendAll cls x).fab = s.fab ∧ (s.sendAll cls x).snp = s.snp ∧ (s.sendAll cls x).dram = s.dram ∧ (s.sendAll cls x).sett = s.sett ∧ (s.sendAll cls x).net = s.net ∧ (s.sendAll cls x).seu = s.seu ∧ (s.sendAll cls x).flt = s.flt := by unfold State.sendAll; generalize s.peers = l; induction l generalizing s with | nil => simp | cons m l ih => simp [ih]

/-- State.noteStale changes only regs. -/
@[simp] theorem State.noteStale_frame (s : State) (c : Nat) :
    (s.noteStale c).now = s.now ∧ (s.noteStale c).pending = s.pending ∧ (s.noteStale c).ticks = s.ticks ∧ (s.noteStale c).free = s.free ∧ (s.noteStale c).shadow = s.shadow ∧ (s.noteStale c).mem = s.mem ∧ (s.noteStale c).out = s.out ∧ (s.noteStale c).plat = s.plat ∧ (s.noteStale c).host = s.host ∧ (s.noteStale c).hq = s.hq ∧ (s.noteStale c).tly = s.tly ∧ (s.noteStale c).tsm = s.tsm ∧ (s.noteStale c).hmp = s.hmp ∧ (s.noteStale c).kvs = s.kvs ∧ (s.noteStale c).cmp = s.cmp ∧ (s.noteStale c).comp = s.comp ∧ (s.noteStale c).txt = s.txt ∧ (s.noteStale c).cfg = s.cfg ∧ (s.noteStale c).fw = s.fw ∧ (s.noteStale c).trl = s.trl ∧ (s.noteStale c).fab = s.fab ∧ (s.noteStale c).snp = s.snp ∧ (s.noteStale c).dram = s.dram ∧ (s.noteStale c).sett = s.sett ∧ (s.noteStale c).net = s.net ∧ (s.noteStale c).seu = s.seu ∧ (s.noteStale c).flt = s.flt := by unfold State.noteStale State.iff; split <;> simp

/-- State.noteReport changes only regs, host, out. -/
@[simp] theorem State.noteReport_frame (s : State) (c : Nat) (h d : Word) :
    (s.noteReport c h d).now = s.now ∧ (s.noteReport c h d).pending = s.pending ∧ (s.noteReport c h d).ticks = s.ticks ∧ (s.noteReport c h d).free = s.free ∧ (s.noteReport c h d).shadow = s.shadow ∧ (s.noteReport c h d).mem = s.mem ∧ (s.noteReport c h d).plat = s.plat ∧ (s.noteReport c h d).hq = s.hq ∧ (s.noteReport c h d).tly = s.tly ∧ (s.noteReport c h d).tsm = s.tsm ∧ (s.noteReport c h d).hmp = s.hmp ∧ (s.noteReport c h d).kvs = s.kvs ∧ (s.noteReport c h d).cmp = s.cmp ∧ (s.noteReport c h d).comp = s.comp ∧ (s.noteReport c h d).txt = s.txt ∧ (s.noteReport c h d).cfg = s.cfg ∧ (s.noteReport c h d).fw = s.fw ∧ (s.noteReport c h d).trl = s.trl ∧ (s.noteReport c h d).fab = s.fab ∧ (s.noteReport c h d).snp = s.snp ∧ (s.noteReport c h d).dram = s.dram ∧ (s.noteReport c h d).sett = s.sett ∧ (s.noteReport c h d).net = s.net ∧ (s.noteReport c h d).seu = s.seu ∧ (s.noteReport c h d).flt = s.flt := by unfold State.noteReport State.iff; split <;> simp

/-- State.moduleFault changes only regs, host, out. -/
@[simp] theorem State.moduleFault_frame (s : State) (c : Nat) (d : Word) :
    (s.moduleFault c d).now = s.now ∧ (s.moduleFault c d).pending = s.pending ∧ (s.moduleFault c d).ticks = s.ticks ∧ (s.moduleFault c d).free = s.free ∧ (s.moduleFault c d).shadow = s.shadow ∧ (s.moduleFault c d).mem = s.mem ∧ (s.moduleFault c d).plat = s.plat ∧ (s.moduleFault c d).hq = s.hq ∧ (s.moduleFault c d).tly = s.tly ∧ (s.moduleFault c d).tsm = s.tsm ∧ (s.moduleFault c d).hmp = s.hmp ∧ (s.moduleFault c d).kvs = s.kvs ∧ (s.moduleFault c d).cmp = s.cmp ∧ (s.moduleFault c d).comp = s.comp ∧ (s.moduleFault c d).txt = s.txt ∧ (s.moduleFault c d).cfg = s.cfg ∧ (s.moduleFault c d).fw = s.fw ∧ (s.moduleFault c d).trl = s.trl ∧ (s.moduleFault c d).fab = s.fab ∧ (s.moduleFault c d).snp = s.snp ∧ (s.moduleFault c d).dram = s.dram ∧ (s.moduleFault c d).sett = s.sett ∧ (s.moduleFault c d).net = s.net ∧ (s.moduleFault c d).seu = s.seu ∧ (s.moduleFault c d).flt = s.flt := by simp [State.moduleFault]

/-- State.begin_ changes only hq. -/
@[simp] theorem State.begin__frame (s : State) (u : Nat) (i : Item) :
    (s.begin_ u i).now = s.now ∧ (s.begin_ u i).pending = s.pending ∧ (s.begin_ u i).ticks = s.ticks ∧ (s.begin_ u i).free = s.free ∧ (s.begin_ u i).regs = s.regs ∧ (s.begin_ u i).shadow = s.shadow ∧ (s.begin_ u i).mem = s.mem ∧ (s.begin_ u i).out = s.out ∧ (s.begin_ u i).plat = s.plat ∧ (s.begin_ u i).host = s.host ∧ (s.begin_ u i).tly = s.tly ∧ (s.begin_ u i).tsm = s.tsm ∧ (s.begin_ u i).hmp = s.hmp ∧ (s.begin_ u i).kvs = s.kvs ∧ (s.begin_ u i).cmp = s.cmp ∧ (s.begin_ u i).comp = s.comp ∧ (s.begin_ u i).txt = s.txt ∧ (s.begin_ u i).cfg = s.cfg ∧ (s.begin_ u i).fw = s.fw ∧ (s.begin_ u i).trl = s.trl ∧ (s.begin_ u i).fab = s.fab ∧ (s.begin_ u i).snp = s.snp ∧ (s.begin_ u i).dram = s.dram ∧ (s.begin_ u i).sett = s.sett ∧ (s.begin_ u i).net = s.net ∧ (s.begin_ u i).seu = s.seu ∧ (s.begin_ u i).flt = s.flt := by simp [State.begin_]

/-- State.netSend changes only out, regs. -/
@[simp] theorem State.netSend_frame (s : State) (m : NetOut) :
    (s.netSend m).now = s.now ∧ (s.netSend m).pending = s.pending ∧ (s.netSend m).ticks = s.ticks ∧ (s.netSend m).free = s.free ∧ (s.netSend m).shadow = s.shadow ∧ (s.netSend m).mem = s.mem ∧ (s.netSend m).plat = s.plat ∧ (s.netSend m).host = s.host ∧ (s.netSend m).hq = s.hq ∧ (s.netSend m).tly = s.tly ∧ (s.netSend m).tsm = s.tsm ∧ (s.netSend m).hmp = s.hmp ∧ (s.netSend m).kvs = s.kvs ∧ (s.netSend m).cmp = s.cmp ∧ (s.netSend m).comp = s.comp ∧ (s.netSend m).txt = s.txt ∧ (s.netSend m).cfg = s.cfg ∧ (s.netSend m).fw = s.fw ∧ (s.netSend m).trl = s.trl ∧ (s.netSend m).fab = s.fab ∧ (s.netSend m).snp = s.snp ∧ (s.netSend m).dram = s.dram ∧ (s.netSend m).sett = s.sett ∧ (s.netSend m).net = s.net ∧ (s.netSend m).seu = s.seu ∧ (s.netSend m).flt = s.flt := by unfold State.netSend; split <;> simp

/-! ### What a read gives after an update -/

/-- Registers: a write is read back at its own number and nowhere else. -/
theorem State.reg_setReg (s : State) (k j : Nat) (v : Word) : (s.setReg k v).reg j = if j = k then v else s.reg j := by
  unfold State.reg State.setReg
  by_cases h : j = k
  · subst h; simp
  · simp [SMap.get_set_other, h]

@[simp] theorem State.reg_setReg_same (s : State) (k : Nat) (v : Word) : (s.setReg k v).reg k = v := by
  simp [State.reg_setReg]

theorem State.reg_setReg_other (s : State) (k j : Nat) (v : Word) (h : j ≠ k) : (s.setReg k v).reg j = s.reg j := by
  simp [State.reg_setReg, h]

/-- A field reads what was put into it. -/
theorem State.field_setField_same (s : State) (k hi lo v : Nat) (h : hi < 64) (hl : lo ≤ hi) :
    (s.setField k hi lo v).field k hi lo = v % 2 ^ (hi - lo + 1) := by
  simp [State.field, State.setField, bits_setBits_same _ _ _ _ h hl]

/-- A counter rises by the amount, wrapping at 2^64. -/
@[simp] theorem State.reg_bumpBy_same (s : State) (k n : Nat) : (s.bumpBy k n).reg k = s.reg k + BitVec.ofNat 64 n := by
  simp [State.bumpBy]

@[simp] theorem State.reg_bump_same (s : State) (k : Nat) : (s.bump k).reg k = s.reg k + 1 := by
  simp [State.bump]

theorem State.reg_bumpBy_other (s : State) (k j n : Nat) (h : j ≠ k) : (s.bumpBy k n).reg j = s.reg j := by
  simp [State.bumpBy, State.reg_setReg, h]

theorem State.reg_bump_other (s : State) (k j : Nat) (h : j ≠ k) : (s.bump k).reg j = s.reg j :=
  State.reg_bumpBy_other s k j 1 h

/-- An update that leaves the register file leaves every register. -/
theorem State.reg_of_regs {s t : State} (h : t.regs = s.regs) (k : Nat) : t.reg k = s.reg k := by
  unfold State.reg; rw [h]

/-- Tallies: a value put is read back at its own number and nowhere else. -/
theorem State.tally_putTally (s : State) (t u : Nat) (v : BitVec 32) :
    (s.putTally t v).tally u = if u = t then v else s.tally u := by
  simp [State.tally, State.putTally, SMap.get_set]

/-- The directory, headers, span tables, leaves, queues, dies and functions after their updates. -/
theorem State.dir_setDir (s : State) (n m : Nat) (e : DirEnt) : (s.setDir n e).dir m = if m = n then e else s.dir m := by
  simp [State.dir, State.setDir, SMap.get_set]
@[simp] theorem State.dir_setDir_same (s : State) (n : Nat) (e : DirEnt) : (s.setDir n e).dir n = e := by
  simp [State.dir_setDir]
theorem State.hdr_setHdr (s : State) (n m : Nat) (h : Header) : (s.setHdr n h).hdr m = if m = n then h else s.hdr m := by
  simp [State.hdr, State.setHdr, SMap.get_set]
@[simp] theorem State.hdr_setHdr_same (s : State) (n : Nat) (h : Header) : (s.setHdr n h).hdr n = h := by
  simp [State.hdr_setHdr]
@[simp] theorem State.span_setSpan_same (s : State) (k n : Nat) (e : SpanEnt) : (s.setSpan k n e).span k n = e := by
  simp [State.span, State.setSpan]
theorem State.leaf_setLeaf (s : State) (p q : Nat) (l : Leaf) (h : s.tsm.boot = false) :
    (s.setLeaf p l).leaf q = if q = p then l else s.leaf q := by
  simp [State.leaf, State.setLeaf, SMap.get_set, h]
theorem State.leaf_setLeaf_same (s : State) (p : Nat) (l : Leaf) (h : s.tsm.boot = false) : (s.setLeaf p l).leaf p = l := by
  simp [State.leaf_setLeaf _ _ _ _ h]
theorem State.queue_setQueue (s : State) (p q : Nat) (x : Queue) : (s.setQueue p x).queue q = if q = p then x else s.queue q := by
  simp [State.queue, State.setQueue, SMap.get_set]
@[simp] theorem State.queue_setQueue_same (s : State) (q : Nat) (x : Queue) : (s.setQueue q x).queue q = x := by
  simp [State.queue_setQueue]
theorem State.die_setDie (s : State) (a b : Nat) (d : Die) : (s.setDie a d).die b = if b = a then d else s.die b := by
  simp [State.die, State.setDie, SMap.get_set]
@[simp] theorem State.die_setDie_same (s : State) (a : Nat) (d : Die) : (s.setDie a d).die a = d := by
  simp [State.die_setDie]
@[simp] theorem State.fn_setFn_same (s : State) (f : Nat) (x : HostFn) : (s.setFn f x).fn f = x := by
  simp [State.fn, State.setFn]

/-! ### Byte memory -/

/-- A byte written is read back at its own address and nowhere else. -/
theorem State.byte_setByte (s : State) (a b : Nat) (v : Byte) : (s.setByte a v).byte b = if b = a then v else s.byte b := by
  simp [State.byte, State.setByte, SMap.get_set]

theorem get_writeCells (bs : List Byte) (m : List Host.Cell) (a b : Nat) :
    SMap.get (0 : Byte) (writeCells m a bs) b = if a ≤ b ∧ b < a + bs.length then bs.getD (b - a) 0 else SMap.get 0 m b := by
  induction bs generalizing m a with
  | nil =>
    have : ¬ (a ≤ b ∧ b < a + ([] : List Byte).length) := by simp
    rw [if_neg this, writeCells]
  | cons x bs ih =>
    rw [writeCells, ih, SMap.get_set]
    by_cases h : b = a
    · subst h; simp
    · by_cases h2 : a + 1 ≤ b ∧ b < a + 1 + bs.length
      · have h3 : a ≤ b ∧ b < a + (x :: bs).length := by simp; omega
        rw [if_pos h2, if_pos h3]
        have : b - a = (b - (a + 1)) + 1 := by omega
        rw [this, List.getD_cons_succ]
      · have h3 : ¬ (a ≤ b ∧ b < a + (x :: bs).length) := by simp; omega
        rw [if_neg h2, if_neg h3, if_neg h]

/-- Every byte after a write of bytes: those stored in their range, every other as before. -/
theorem State.byte_writeBytes (s : State) (a b : Nat) (bs : List Byte) :
    (s.writeBytes a bs).byte b = if a ≤ b ∧ b < a + bs.length then bs.getD (b - a) 0 else s.byte b :=
  get_writeCells bs s.mem a b

/-! ### Outcomes -/

/-- On a live module a gated command answers its effect; a module that is not live stays as it is. -/
theorem gate_live {s : State} (h : s.live = true) (f : State → State) : gate s f = .next (f s) := by simp [gate, h]
theorem gate_dead {s : State} (h : s.live = false) (f : State → State) : gate s f = .next s := by simp [gate, h]
@[simp] theorem State.iff_true (s : State) (f : State → State) : s.iff true f = f s := rfl
@[simp] theorem State.iff_false (s : State) (f : State → State) : s.iff false f = s := rfl

end Sys2Proof.Machine
end

