-- ==== Sys2Proof/Laws/Memory.lean ====
section
/-! SUPPORT. Laws of the byte memory: every operation keeps its canonical form, and what a byte reads after each of them. -/

namespace Sys2Proof

open Sys2Proof

/-! ### Sorted tables -/

theorem SMap.sorted_cons {α : Type} (a : Nat × α) (m : SMap α) :
    SMap.sorted (a :: m) = true ↔ (∀ x ∈ m, a.1 < x.1) ∧ SMap.sorted m = true := by
  induction m generalizing a with
  | nil => simp [SMap.sorted]
  | cons b m ih =>
    rw [SMap.sorted, Bool.and_eq_true, decide_eq_true_iff, ih]
    constructor
    · rintro ⟨h, hb, hm⟩
      refine ⟨?_, hb, hm⟩
      intro x hx
      rcases List.mem_cons.1 hx with rfl | hx
      · exact h
      · exact h.trans (hb x hx)
    · rintro ⟨h, hb, hm⟩
      exact ⟨h b (by simp), hb, hm⟩

theorem SMap.sorted_filter {α : Type} (p : Nat × α → Bool) (m : SMap α) (h : SMap.sorted m = true) :
    SMap.sorted (m.filter p) = true := by
  induction m with
  | nil => exact h
  | cons a m ih =>
    rw [SMap.sorted_cons] at h
    rw [List.filter_cons]
    split
    · rw [SMap.sorted_cons]
      exact ⟨fun x hx => h.1 x (List.mem_filter.1 hx).1, ih h.2⟩
    · exact ih h.2

theorem SMap.mem_insertSorted {α : Type} (k : Nat) (v : α) (m : SMap α) (x : Nat × α) :
    x ∈ SMap.insertSorted k v m ↔ x = (k, v) ∨ x ∈ m := by
  induction m with
  | nil => simp [SMap.insertSorted]
  | cons a m ih =>
    unfold SMap.insertSorted
    split
    · simp
    · simp [ih, or_left_comm]

theorem SMap.sorted_insertSorted {α : Type} (k : Nat) (v : α) (m : SMap α) (hk : ∀ x ∈ m, x.1 ≠ k)
    (h : SMap.sorted m = true) : SMap.sorted (SMap.insertSorted k v m) = true := by
  induction m with
  | nil => rfl
  | cons a m ih =>
    rw [SMap.sorted_cons] at h
    unfold SMap.insertSorted
    split
    · rename_i hlt
      rw [SMap.sorted_cons, SMap.sorted_cons]
      refine ⟨?_, h⟩
      intro x hx
      rcases List.mem_cons.1 hx with rfl | hx
      · exact hlt
      · exact hlt.trans (h.1 x hx)
    · rename_i hlt
      rw [SMap.sorted_cons]
      refine ⟨?_, ih (fun x hx => hk x (List.mem_cons_of_mem _ hx)) h.2⟩
      intro x hx
      rcases (SMap.mem_insertSorted k v m x).1 hx with rfl | hx
      · have := hk a (by simp)
        show a.1 < k
        omega
      · exact h.1 x hx

theorem SMap.lookup_filter_key {α : Type} (p : Nat → Bool) (m : SMap α) (k : Nat) :
    SMap.lookup (m.filter fun x => p x.1) k = if p k then SMap.lookup m k else none := by
  induction m with
  | nil => simp [SMap.lookup]
  | cons a m ih =>
    obtain ⟨i, w⟩ := a
    rw [List.filter_cons]
    by_cases hi : i = k
    · subst hi
      by_cases hp : p i
      · simp [hp, SMap.lookup]
      · simp [hp, ih]
    · by_cases hp : p i
      · simp [hp, SMap.lookup, hi, ih]
      · simp [hp, SMap.lookup, hi, ih]

end Sys2Proof

namespace Sys2Proof.Machine

open Sys2Proof

/-! ### The canonical form -/

theorem Memory.wf_filter (p : Host.Cell → Bool) {m : List Host.Cell} (h : Memory.wf m = true) : Memory.wf (m.filter p) = true := by
  unfold Memory.wf at *
  rw [Bool.and_eq_true] at *
  refine ⟨SMap.sorted_filter p m h.1, ?_⟩
  rw [List.all_eq_true] at *
  exact fun x hx => h.2 x (List.mem_filter.1 hx).1

theorem Memory.wf_set {m : List Host.Cell} (h : Memory.wf m = true) (a : Nat) (b : Byte) :
    Memory.wf (SMap.set 0 m a b) = true := by
  have he : Memory.wf (SMap.erase m a) = true := Memory.wf_filter _ h
  unfold SMap.set
  split
  · exact he
  · rename_i hb
    unfold Memory.wf at *
    rw [Bool.and_eq_true] at *
    refine ⟨SMap.sorted_insertSorted a b _ ?_ he.1, ?_⟩
    · intro x hx
      simpa using (List.mem_filter.1 hx).2
    · rw [List.all_eq_true] at *
      intro x hx
      rcases (SMap.mem_insertSorted a b _ x).1 hx with rfl | hx
      · simpa using hb
      · exact he.2 x hx

theorem Memory.wf_writeCells (bs : List Byte) {m : List Host.Cell} (h : Memory.wf m = true) (a : Nat) :
    Memory.wf (writeCells m a bs) = true := by
  induction bs generalizing m a with
  | nil => exact h
  | cons b bs ih => exact ih (Memory.wf_set h a b) (a + 1)

theorem Memory.wf_zeroCells {m : List Host.Cell} (h : Memory.wf m = true) (a n : Nat) : Memory.wf (zeroCells m a n) = true :=
  Memory.wf_filter _ h

/-- Writing a byte, writing bytes, clearing a range and copying a range keep the canonical form; reset's memory has it. -/
theorem State.wf_setByte (s : State) (h : Memory.wf s.mem = true) (a : Nat) (b : Byte) : Memory.wf (s.setByte a b).mem = true :=
  Memory.wf_set h a b

theorem State.wf_writeBytes (s : State) (h : Memory.wf s.mem = true) (a : Nat) (bs : List Byte) :
    Memory.wf (s.writeBytes a bs).mem = true := Memory.wf_writeCells bs h a

theorem State.wf_writeWord (s : State) (h : Memory.wf s.mem = true) (a : Nat) (w : Word) :
    Memory.wf (s.writeWord a w).mem = true := Memory.wf_writeCells _ h a

theorem State.wf_write32 (s : State) (h : Memory.wf s.mem = true) (a : Nat) (w : BitVec 32) :
    Memory.wf (s.write32 a w).mem = true := Memory.wf_writeCells _ h a

theorem State.wf_writeWords (s : State) (h : Memory.wf s.mem = true) (a : Nat) (ws : List Word) :
    Memory.wf (s.writeWords a ws).mem = true := Memory.wf_writeCells _ h a

theorem State.wf_zeroRange (s : State) (h : Memory.wf s.mem = true) (a n : Nat) : Memory.wf (s.zeroRange a n).mem = true :=
  Memory.wf_zeroCells h a n

theorem State.wf_copyRange (s : State) (h : Memory.wf s.mem = true) (src dst n : Nat) :
    Memory.wf (s.copyRange src dst n).mem = true := by
  unfold State.copyRange
  dsimp only
  generalize s.mem.filter (fun c => decide (src ≤ c.1) && decide (c.1 < src + n)) = cells
  induction cells with
  | nil => exact Memory.wf_zeroCells h dst n
  | cons c cells ih => exact Memory.wf_set ih _ _

theorem State.wf_reset : Memory.wf State.reset.mem = true := rfl

/-! ### What a byte reads -/

/-- A cleared range reads 0, every other byte as before. -/
theorem State.byte_zeroRange (s : State) (a n b : Nat) :
    (s.zeroRange a n).byte b = if a ≤ b ∧ b < a + n then 0 else s.byte b := by
  have e : zeroCells s.mem a n = s.mem.filter fun c => (fun k => decide (k < a) || decide (a + n ≤ k)) c.1 := rfl
  show (SMap.lookup (zeroCells s.mem a n) b).getD 0 = _
  rw [e, SMap.lookup_filter_key (fun k => decide (k < a) || decide (a + n ≤ k))]
  by_cases h : a ≤ b ∧ b < a + n
  · have : ¬ (b < a) ∧ ¬ (a + n ≤ b) := by omega
    simp [this, h]
  · have : b < a ∨ a + n ≤ b := by omega
    rw [if_neg h]
    rcases this with h1 | h1 <;> simp [h1] <;> rfl

theorem lookup_foldr_copy (src dst : Nat) (cells m : List Host.Cell) (hc : ∀ c ∈ cells, src ≤ c.1) (k : Nat) :
    SMap.get (0 : Byte) (cells.foldr (fun c m => SMap.set 0 m (c.1 - src + dst) c.2) m) k =
      if dst ≤ k then (match SMap.lookup cells (k - dst + src) with
        | some v => v
        | none => SMap.get 0 m k) else SMap.get 0 m k := by
  induction cells with
  | nil => simp [SMap.lookup]
  | cons c cells ih =>
    obtain ⟨i, w⟩ := c
    have hi : src ≤ i := hc (i, w) (by simp)
    rw [List.foldr_cons, SMap.get_set, ih (fun c h => hc c (List.mem_cons_of_mem _ h))]
    by_cases hk : k = i - src + dst
    · have h1 : dst ≤ k := by omega
      have h2 : i = k - dst + src := by omega
      rw [if_pos hk, if_pos h1]
      show w = _
      rw [SMap.lookup, if_pos h2]
    · rw [if_neg hk]
      by_cases h1 : dst ≤ k
      · have h2 : ¬ i = k - dst + src := by omega
        rw [if_pos h1, if_pos h1, SMap.lookup, if_neg h2]
      · rw [if_neg h1, if_neg h1]

/-- After a copy the destination reads the source's earlier bytes, every other byte reads as before. -/
theorem State.byte_copyRange (s : State) (src dst n b : Nat) :
    (s.copyRange src dst n).byte b = if dst ≤ b ∧ b < dst + n then s.byte (b - dst + src) else s.byte b := by
  have e : s.mem.filter (fun c => decide (src ≤ c.1) && decide (c.1 < src + n)) =
    s.mem.filter fun c => (fun k => decide (src ≤ k) && decide (k < src + n)) c.1 := rfl
  have z := State.byte_zeroRange s dst n b
  have key := lookup_foldr_copy src dst (s.mem.filter fun c => decide (src ≤ c.1) && decide (c.1 < src + n))
    (zeroCells s.mem dst n) (by
      intro c hc
      have := (List.mem_filter.1 hc).2
      simp at this
      exact this.1) b
  refine Eq.trans key ?_
  rw [e, SMap.lookup_filter_key (fun k => decide (src ≤ k) && decide (k < src + n))]
  by_cases hb : dst ≤ b
  · rw [if_pos hb]
    by_cases hn : b < dst + n
    · have h1 : (decide (src ≤ b - dst + src) && decide (b - dst + src < src + n)) = true := by
        simp; omega
      rw [if_pos h1, if_pos ⟨hb, hn⟩]
      show _ = (SMap.lookup s.mem (b - dst + src)).getD 0
      cases SMap.lookup s.mem (b - dst + src) with
      | some v => rfl
      | none => exact z.trans (if_pos ⟨hb, hn⟩)
    · have h1 : ¬ (decide (src ≤ b - dst + src) && decide (b - dst + src < src + n)) = true := by
        simp; omega
      rw [if_neg h1, if_neg (by omega)]
      exact z.trans (if_neg (by omega))
  · rw [if_neg hb, if_neg (by omega)]
    exact z.trans (if_neg (by omega))

end Sys2Proof.Machine
end

