-- ==== Sys2Proof/Tests/Slice0.lean ====
section
/-! SUPPORT. Tests on small states, and for every statement states and operands that meet its hypotheses. -/

open Sys2Proof Sys2Proof.Machine

namespace Sys2Proof.Tests

set_option Elab.async false

/-! ### Small states -/

/-- A module that serves: rails up, out of reset, stage 7, READY. -/
def up : State := State.loadTileMaps { State.reset with
  plat.rails := true, plat.stage := 7, plat.resetHeld := false, plat.vinEn := true, host.ready := true, now := 1000,
  cfg.pins := [{ kind := 0, tier := 1, pages := 16 }] }

/-- The state after a command. -/
def after (c : Instr) (s : State) : State :=
  match exec c s with
  | .next t => t
  | _ => s

/-- A module with its die 0 running a segment, every tile named. -/
def busy : State := up.setDie 0 { up.die 0 with
  state := .running, tileMask := 0xFFFFFFFF, entry := 64, codeBytes := 4096, offset := 64, pptCount := 1
  regs := [(1, 128), (2, 3), (3, 0xFFFFFFFFFFFFFFFF)] }

/-- A module with one fetched host command. -/
def told (c : HostCmd) : State := { up with host.cmds := [{ c with id := 5 }] }

/-- A session directory with one PARKED home session of two spans in slot 0 (handle 1), one layer and one head. -/
def parked : State :=
  let s := up.setReg (Reg.kvsGeometry 0) (fld 45 40 1 ||| fld 39 36 1 ||| fld 35 28 1 ||| fld 15 0 1 ||| fld 63 56 1)
  { after (.openHamper 5 none) { s with host.cmds := [{ id := 5, opcode := 0x10, args := [fld 63 32 512] }] } with
      out := [], host.cmds := [] }

/-- The session is ACTIVE, with one RESIDENT span below its committed length. -/
def active : State :=
  let s := parked.setHdr 0 { parked.hdr 0 with commitLen := 256, specLen := 256 }
  let s := s.setDir 0 { s.dir 0 with state := .active, decode := 1 }
  (s.mapPage (s.kvPage 0) .dram 0 true 0).getD s |>.setSpan 0 0 { base := s.kvPage 0, res := .resident }

/-- A command on the session of slot 0. -/
def asks (s : State) (op : Nat) (args : List Word) : State :=
  { s with host.cmds := [{ id := 5, opcode := op, session := 1, args := args }] }
def askedCmd (op : Nat) (args : List Word) : HostCmd := { id := 5, opcode := op, session := 1, args := args }

/-- Two mapped DRAM pages. -/
def pages : State := ((up.mapPage 0 .dram 0 false 0).bind fun s => s.mapPage (2 ^ 36 - 1) .dram 0 true 0).getD up

/-- The same with every tier permitted to tenant classes 0 to 7. -/
def permits : State := { pages with plat.fuses := [(13, BitVec.allOnes 64)] }

/-! CRCs of long byte strings: the kernel evaluates the state after every bit before the next. -/

def strictly (n : Nat) (f : Nat → Nat) : Nat := match n with
  | 0 => f 0
  | k + 1 => f (k + 1)
theorem strictly_eq (n : Nat) (f : Nat → Nat) : strictly n f = f n := by cases n <;> rfl
def bitNat (c : Nat) : Nat := bif Nat.beq (c % 2) 1 then (c / 2) ^^^ 0x82F63B78 else c / 2
theorem bitNat_eq (c : BitVec 32) : bitNat c.toNat = (crcBit c).toNat := by
  have h : c.getLsbD 0 = Nat.beq (c.toNat % 2) 1 := by
    rw [BitVec.getLsbD, Nat.testBit_zero]
    rcases Nat.mod_two_eq_zero_or_one c.toNat with e | e <;> rw [e] <;> rfl
  have k : (c >>> 1).toNat = c.toNat / 2 := by rw [BitVec.toNat_ushiftRight, Nat.shiftRight_eq_div_pow]
  unfold bitNat crcBit
  rw [h]
  cases Nat.beq (c.toNat % 2) 1
  · exact k.symm
  · simp only [cond_true, if_true, BitVec.toNat_xor, k]; rfl
def bitsNat : Nat → Nat → Nat
  | 0, c => c
  | n + 1, c => strictly (bitNat c) (bitsNat n)
def crcGo : List Byte → Nat → Nat
  | [], c => c
  | b :: bs, c => strictly (bitsNat 8 (c ^^^ b.toNat)) (crcGo bs)
theorem crcGo_eq : ∀ (bs : List Byte) (c : BitVec 32), crcGo bs c.toNat = (bs.foldl crcByte c).toNat
  | [], _ => rfl
  | b :: bs, c => by
    have h : c.toNat ^^^ b.toNat = (c ^^^ b.setWidth 32).toNat := by
      rw [BitVec.toNat_xor, BitVec.toNat_setWidth, Nat.mod_eq_of_lt (Nat.lt_of_lt_of_le b.isLt (by decide))]
    rw [crcGo, strictly_eq, List.foldl_cons, ← crcGo_eq bs, h]
    simp only [bitsNat, strictly_eq, bitNat_eq, crcByte]
def crcFast (bs : List Byte) : BitVec 32 := ~~~ (BitVec.ofNat 32 (crcGo bs 0xFFFFFFFF))
theorem crc_fast : crc32c = crcFast := funext fun bs => by
  unfold crc32c crcFast
  rw [show (0xFFFFFFFF : Nat) = (0xFFFFFFFF#32).toNat by rfl, crcGo_eq]
  simp

/-! ### Statements on the block as a whole, power and the governor -/

theorem wit_Asleep : State.reset.asleep ∧ step State.reset = .next { State.reset with now := 1 } := by
  exact ⟨⟨by decide, by decide⟩, rfl⟩

theorem wit_RegisterAccess : up.live = true ∧ Reg.hmpCustody ≠ Reg.pltGov ∧ startsAction Reg.hmpCustody = false ∧
    startsAction (Reg.tsmCnt 0) = false ∧ regMask Reg.hmpCustody .rws ≠ 0 ∧ regMask (Reg.tsmCnt 0) .rws = 0 ∧ up.portUp = true ∧
    bit (fld 16 16 1 ||| fld 14 13 3 ||| fld 10 6 31 ||| fld 5 0 33) 15 = false ∧
    up.remapDenied (bits (fld 16 16 1 ||| fld 14 13 3 ||| fld 10 6 31 ||| fld 5 0 33) 14 13) 33 = false := by decide +kernel

theorem wit_ResetClears : State.reset.plat.low = false ∧ ({ up with plat.low := true } : State).plat.low = true ∧
    up.plat.rails = true ∧ State.reset.plat.rails = false := by decide +kernel

theorem wit_PowerAndBoot :
    let a : State := { State.reset with plat.vinEn := false, plat.low := false, plat.latched := false }
    let r : State := after .vinEnMake a
    (a.plat.vinEn = false ∧ a.plat.low = false ∧ a.plat.latched = false) ∧ (r.ramping = true ∧ r.plat.railFails < 2) ∧
      (let x : State := { r with plat.railFails := 2 }
       x.ramping = true ∧ x.plat.railFails = 2) ∧
      (let x := after .railWindowTimeout r
       x.plat.railRetryAt = some (r.now + 10 ^ 9) ∧ r.now + 10 ^ 9 ≤ ({ x with now := 10 ^ 10 } : State).now) := by decide +kernel

/-- A firmware image of one header word group and a signature block (R711). -/
def fwImage (component : Nat) : List Byte :=
  wordBytes (fld 63 48 0xF17E ||| fld 47 32 1 ||| fld 31 16 component ||| fld 7 0 64) ++ wordBytes (fld 63 32 0x140 ||| fld 31 0 0x40) ++
    wordBytes 7 ++ List.replicate (0x140 - 24) 0

/-- A module whose banks hold such images. -/
def banked (s : State) : State :=
  let b : Bank := { control := fwImage 1, service := fwImage 2, copies := [false, false, false, true] }
  { s with plat.bankA := b, plat.bankB := b }

/-- The banks verify when the digest of the key and the verdict of the signature say so (both are values of Config). -/
theorem banked_ok (hs : ∀ l, Config.sha384 l = 0) (he : ∀ k g d, Config.ecdsaOk k g d = true) :
    (banked up).bankOk 0 = true := by
  have h : (0 : BitVec 384) = BitVec.ofNat 384 ((banked up).fuseBits 383 0) := by decide +kernel
  unfold State.bankOk State.bankReads State.imageOk State.signed
  simp only [hs, he, h]
  decide +kernel

theorem wit_PowerAndBoot_stages :
    let b : State := { up with plat.stage := 0, plat.resetHeld := false, plat.rails := true }
    let m : State := { up with plat.stage := 5, plat.tryBank := none }
    let w : State := { up with plat.stage := 5, plat.tryBank := some 0, plat.bootBank := 0, plat.romNs := 0, now := 10 ^ 10 }
    (b.plat.stage = 0 ∧ b.plat.resetHeld = false ∧ b.plat.rails = true ∧ (b.plat.rails || b.ramping) = true ∧
      b.plat.tryBank = none ∧ b.plat.activeBank = 0 ∧ b.plat.measLog = [] ∧ b.plat.meas = []) ∧
      (m.plat.stage = 5 ∧ bit (m.reg Reg.settStatus) 63 = false ∧ m.plat.tryBank = none) ∧
      (w.plat.tryBank = some w.plat.bootBank ∧ 1 ≤ w.plat.stage ∧ w.plat.stage < 6 ∧ w.plat.romNs + 10 ^ 10 ≤ w.now) := by
  decide +kernel

theorem wit_Governor :
    up.governs = true ∧ up.plat.lastPowerDown = none ∧ up.capW ≤ 1800 ∧
    (up.downOrder.find? fun d => 0 < up.dvfsTarget d && !up.dieService d) = none ∧
    (let s : State := (List.range 4).foldl (fun s d => s.setField Reg.ctlDieRole (4 * d + 3) (4 * d) 3) (up.setField Reg.ctlDieRole 19 16 0)
     s.governs = true ∧ s.plat.lastPowerDown = none ∧ s.capW ≤ 1800 ∧
       (s.downOrder.find? fun d => 0 < s.dvfsTarget d && !s.dieService d) = some 3 ∧ 0 < s.dvfsTarget 0 ∧
       SMap.lookup s.plat.lastThermDown 0 = none ∧ (∀ x ∈ s.plat.dramTemps, x.2 ≤ 85) ∧
       (let t := after (.govPowerSample 1800) s
        let r : State := { t with plat.belowSince := some 0, now := 10 ^ 12 }
        r.governs = true ∧ r.plat.hotDies = [] ∧ r.plat.dramHot = false ∧ 0 + msec (r.field Reg.pltGov 31 16) ≤ r.now ∧
          (r.upOrder.find? fun d => r.dvfsTarget d < 3) = some 3)) := by decide +kernel

theorem wit_Parking :
    let s := (up.setField Reg.pltPwr 32 32 1).setField Reg.pltPwr 31 16 100
    s.live = true ∧ s.plat.stage = 7 ∧ s.plat.parkedSince = none ∧ s.plat.upkeepSince = none ∧
      bit (s.reg Reg.pltPwr) 32 = true ∧ s.field Reg.pltPwr 31 16 ≤ 100 ∧ s.idleNow = true ∧
      (after (.parkEntry 100) s).plat.parkedSince.isSome := by decide +kernel

/-! ### Slot actions and segments -/

theorem wit_TileFits :
    ∀ p ∈ ([(.nop, 1), (.nop, 4096), (.loadb .bf16 0, 128), (.mma .bf16 0 7 true true false .bf16 0, 128), (.mma .bf16 0 0 false false true .bf16 8192, 128)] : List (TileOp × Nat)) ++
      ([.add, .sub, .mul, .fma, .max, .min, .cmplt, .cmpeq, .sel, .adds, .subs, .muls].map fun v => (TileOp.vec v 128 256 8192 0, 16)) ++
      ([.abs, .neg, .scale2, .maxr, .sumr].map fun v => (TileOp.vec v 128 256 0 0, 16)) ++
      ([.exp, .log, .rcp, .rsqrt].map fun v => (TileOp.vec v 128 256 0 0, 28)) ++
      [(.cvt .fp32 .bf16 0 8192 true, 14), (.mxq .mx8e4 0 8192, 14)],
      busy.Fits 0 31 (.tile p.1) p.2 := by
  unfold State.Fits; decide +kernel

theorem wit_MoverFits :
    busy.Fits 0 39 (.mover .nop 0 0 0 0) 1 ∧
    (∀ k ∈ [MoverKind.get, .put, .xl, .ring, .zero], busy.Fits 0 32 (.mover k (if k = .zero then 0 else 2) 1 4095 0) 1) ∧
    busy.Fits 0 33 (.mover .scatter 0 2 7 100) 1 := by
  unfold State.Fits; decide +kernel

theorem wit_PortFits :
    busy.Fits 0 slotP (.port .nop) 1 ∧ busy.Fits 0 slotP (.port (.read 2 true 0 10)) 2 ∧
      busy.Fits 0 slotP (.port (.write 2 8192 10)) 2 ∧ busy.Fits 0 slotP (.port (.attend 2 1 100)) 1 := by
  unfold State.Fits; decide +kernel

theorem wit_ScalarFits :
    (∀ o ∈ [AluOp.add, .sub, .and, .or, .xor, .shl, .shr, .sra, .slt, .sltu, .mul], busy.Fits 0 40 (.scalar (.alu o 31 1 3)) 1) ∧
      (∀ o ∈ [ScalarOp.addi 0 1 0x10000000, .li 5 0x7FFFFFFFFF, .lih 6 1], busy.Fits 0 43 (.scalar o) 1) ∧
      busy.Fits 0 41 (.scalar .nop) 7 ∧ busy.Fits 0 42 (.scalar (.lds 4 0 15 100)) 40 ∧
      busy.Fits 0 42 (.scalar (.sts 3 0 0 3145727)) 4096 := by
  unfold State.Fits; decide +kernel

theorem wit_TallyFits :
    let s : State := busy.setReg (Reg.hqQcfg 9) (fld 41 29 16)
    (∀ o ∈ [TallyOp.nop, .add 1022 0xFFFF, .set 0 1, .wait 5 2 9, .read 5 4], s.Fits 0 44 (.tally o) 1) ∧
      (s.Fits 0 45 (.tally (.qpush 9 7 100)) 1 ∧ (let u := s.laid 0
        let it := u.pushItem 0 100
        u.refusalOf 9 it = 0 ∧ u.duplicate (seqKey (dieSender 0) (u.qReader 9) (tagClass it.w1)) it.w1 = false ∧
          (u.queue 9).items.length < u.qDepth 9)) := by
  unfold State.Fits; decide +kernel

theorem wit_BranchFits :
    (∀ o ∈ [BranchOp.nop, .jmp 8, .bz 1 8, .bnz 1 8, .loop 1 8, .endSeg 0, .endSeg 0xF000, .ppt 0], busy.Fits 0 slotB (.branch o) 1) ∧
      busy.targetOk (busy.die 0) 8 = true ∧
      (let mask := (SMap.get 0 (busy.die 0).regs 1).toNat
       let v := busy.runRdv 0 ((busy.die 0).rdvTime true mask) true mask
       v.Fits 0 slotB (.branch (.rdv true 1)) 1) := by
  unfold State.Fits; decide +kernel

/-- A die with one action in a slot. -/
def doing (slot : Nat) (a : SlotAct) : State := busy.setDie 0 { busy.die 0 with slots := [(slot, a)] }

theorem wit_Expiry :
    ∀ o ∈ [SlotOp.scalar (.lds 4 0 0 1), .scalar (.sts 3 0 0 1), .branch .nop, .tally .nop, .tile .nop, .port .nop,
      .mover .get 1 1 0 0, .tile (.mma .bf16 0 0 true false false .bf16 0), .tile (.vec .add 0 256 512 0)],
      let s := doing 7 { op := o, start := 3, expiry := 17 }
      s.live = true ∧ SMap.lookup (s.die 0).slots 7 = some { op := o, start := 3, expiry := 17 } ∧ (s.die 0).DueNext 17 ∧
        (∀ x ∈ (s.die 0).slots, s.crosses 0 { op := o, start := 3, expiry := 17 } x.2 = false) ∧
        (o = .scalar (.lds 4 0 0 1) → (s.die 0).writesLarder = false) := by
  unfold Die.DueNext; decide +kernel

theorem wit_VectorRows :
    let row := fun (o : BitVec 14) (i : Nat) => (vOperand o).rowAddr 0 5 512 i
    (17 - 3 - 12) / VecOp.add.rowCycles = 1 ∧ (VecOp.add.reduces = false ∧ VecOp.add.perRow = false) ∧
      ∀ i < 2, ∀ j < 2, i ≠ j → (row 0 i + 512 ≤ row 256 j ∨ row 256 j + 512 ≤ row 0 i) ∧
        (VecOp.add.twoSources = true → row 0 i + 512 ≤ row 512 j ∨ row 512 j + 512 ≤ row 0 i) := by decide +kernel

theorem wit_Drain :
    let x : Drain := { tile := 4, int := true, done := 9, sums := [{}] }
    let s := busy.setDie 0 { busy.die 0 with drains := [x] }
    s.live = true ∧ ((s.die 0).drains.find? fun y => y.tile = 4) = some x ∧ (s.die 0).DueNext x.done ∧ x.int = true := by
  unfold Die.DueNext; decide +kernel

/-- A segment of one bundle at state address 0: header, then a bundle word of zeros at 64 (R264, R265). -/
def coded : State :=
  [(0, fld 63 48 0x5E67 ||| fld 47 32 1 ||| fld 31 0 9), (8, fld 63 32 8 ||| fld 31 0 64),
    (16, fld 31 0 (crc32c (List.replicate 8 0)).toNat), (24, fld 31 16 1), (32, fld 35 32 4)].foldl
      (fun s x => s.writeWord (s.physOf x.1) x.2) permits

theorem wit_SegmentsBegin :
    let it : Item := { w2 := 0, w3 := 7 }
    let at_ := fun (s : State) => { s with hq.hand := SMap.put [] 1 [it] }
    ∀ s ∈ [up, coded], (at_ s).live = true ∧ ((at_ s).die 0).state = .idle ∧ SMap.get [] (at_ s).hq.hand 1 = it :: [] ∧
      segResume it = false ∧ ((at_ s).die 0).save = none ∧
      (((at_ s).taking 0 it).headerCode 0 it.w2.toNat .clean = 0 ↔ s = coded) := by decide +kernel

theorem wit_SegmentsBegin_resume :
    let it : Item := { w2 := 0, w7 := fld 48 48 1 }
    let v : Save := { item := { w2 := 0 }, segId := 9, offset := 8 }
    let s : State := { coded.setDie 0 { coded.die 0 with save := some v } with hq.hand := SMap.put [] 1 [it] }
    let b := (s.begin_ 1 it).boundary 0
    s.live = true ∧ (s.die 0).state = .idle ∧ segResume it = true ∧ (s.die 0).save = some v ∧ b.fetchCode it.w2.toNat 64 = 0 ∧
      v.item.w2 = it.w2 ∧ bits (b.codeWord it.w2.toNat) 31 0 = v.segId ∧
      b.roleBad 0 (bits (b.codeWord (it.w2.toNat + 32)) 35 32) = false ∧ b.saveLost 0 v.tileMask = false := by decide +kernel

theorem wit_SegmentsRun :
    let d := busy.die 0
    let st := fun (l : List Stall) => busy.setDie 0 { d with state := .stalled, stalls := l }
    let mv := fun (k : MoverKind) => busy.setDie 0 { d with xfers := [{ mover := 3, kind := k, ra := 64, rl := 128, tally := 9, la := 2 }] }
    (d.state = .running ∧ d.buffered = true ∧ d.inCode d.offset = true ∧ busy.bundleRdv d = none) ∧
      (let e := { d with bufLo := 2 ^ 23, codeBytes := 2 ^ 24, offset := 0 }
       e.state = .running ∧ e.buffered = false ∧ (busy.setDie 0 e).live = true) ∧
      (((st [.fetch]).die 0).state = .stalled ∧ ((st [.fetch]).die 0).stalls = [.fetch]) ∧
      (((st [.rdv true 1]).die 0).stalls = [.rdv true 1] ∧ ((st [.rdv true 1]).die 0).slots = [] ∧
        ((st [.rdv true 1]).die 0).drains = [] ∧ ((st [.rdv true 1]).die 0).late = []) ∧
      (∃ x ∈ ((mv .zero).die 0).xfers, (((mv .zero).die 0).xfers.find? fun x => x.mover = 3) = some x ∧ x.kind = .zero ∧
        isReclaim x.tally = false) ∧
      (let t := busy.setDie 0 { d with xfers := [{ mover := 3, kind := .xl, ra := 2 ^ 22 + 64, rl := 128, tally := 9, la := 2 }] }
       ∃ x ∈ (t.die 0).xfers, ((t.die 0).xfers.find? fun x => x.mover = 3) = some x ∧ x.kind = .xl ∧
        (t.die (bits x.ra 23 22)).writesLarder = false) := by
  decide +kernel

theorem wit_SegmentsEnd :
    let d := busy.die 0
    (∀ z ∈ [SeqState.ending, .saving], (busy.setDie 0 { d with state := z }).live = true ∧ { d with state := z }.quiet = true) ∧
      d.slots = [] ∧ d.drains = [] ∧ d.late = [] ∧ busy.pushedJob 0 d.item = none ∧
      (let v : Save := { startNo := 0 }
       let e := { d with save := some v, nextStart := 0x40000000 }
       e.save = some v ∧ 2 ^ 30 ≤ (e.nextStart - v.startNo).toNat) := by decide +kernel

theorem wit_Remap :
    busy.remapDenied 0 32 = false ∧ busy.remapDenied 0 5 = true ∧ busy.remapDenied 0 34 = true ∧ busy.live = true ∧
      (busy.die 0).state = .running ∧ busy.targetOk (busy.die 0) 0x0FFFFFFF = false ∧ 1023 % 1024 = 1023 ∧ 4095 % 1024 = 1023 ∧
      (let d := (busy.laid 0).die 0
       SMap.lookup d.slots 45 = none ∧ SMap.lookup d.slots 39 = none ∧ moverCode .get (d.val 1) (d.val 2) 0 ≠ 0) ∧
      (let s := doing 31 { op := .tile .nop, start := 0, expiry := 4096 }
       (SMap.lookup ((s.laid 0).die 0).slots 31).isSome = true) := by decide +kernel

theorem wit_Tallies :
    let w := WaitEntry.mk 4094 (.core 3) 0x80000000
    (up.tly.waits = [] ∧ up.tly.polled = []) ∧ (up.tally 5 - 0x80000001).toNat ≤ 2 ^ 31 - 1 ∧ 2 ^ 31 ≤ (up.tally 5 - 0x80000000).toNat ∧
      4094 % 1024 ≠ 1023 ∧ ((0xFFFFFFFF : BitVec 32) - 0x80000000).toNat ≤ 2 ^ 31 - 1 ∧
      bit ((up.setReg (Reg.tlyResult 3) (fld 62 62 1)).reg (Reg.tlyResult 3)) 62 = true ∧
      ({ up with tly.waits := [w] } : State).tly.polled = [] := by decide +kernel

/-- n waits listed on tally 4,094. -/
def waiting (n : Nat) : State := { State.reset with
  plat.rails := true, plat.stage := 7, tly.waits := List.replicate n (WaitEntry.mk 4094 (.core 3) 0x80000000) }

theorem waiting_used (n : Nat) : (waiting n).poolUsed 3 = n := by
  have h : (List.replicate n (WaitEntry.mk 4094 (.core 3) 0x80000000)).filter (fun w => decide (w.tally / 1024 = 3)) =
      List.replicate n (WaitEntry.mk 4094 (.core 3) 0x80000000) :=
    List.filter_eq_self.2 fun x hx => by rw [List.eq_of_mem_replicate hx]; decide
  show (List.filter (fun w => decide (w.tally / 1024 = 3))
    (List.replicate n (WaitEntry.mk 4094 (.core 3) 0x80000000))).length = n
  rw [h, List.length_replicate]

theorem waiting_issuer (n : Nat) : ∀ x ∈ (waiting n).tly.waits ++ (waiting n).tly.polled, x.issuer ≠ .core 0 := fun x h => by
  rcases List.mem_append.1 h with h | h
  · have h' : x ∈ List.replicate n (WaitEntry.mk 4094 (.core 3) 0x80000000) := h
    have e : x.issuer = .core 3 := congrArg WaitEntry.issuer (List.eq_of_mem_replicate h')
    rw [e]; decide
  · exact absurd (show x ∈ ([] : List WaitEntry) from h) List.not_mem_nil

theorem wit_FullPool : (waiting 4096).live = true ∧
    (∀ x ∈ (waiting 4096).tly.waits ++ (waiting 4096).tly.polled, x.issuer ≠ .core 0) ∧ 4096 ≤ (waiting 4096).poolUsed 3 :=
  ⟨rfl, waiting_issuer 4096, Nat.le_of_eq (waiting_used 4096).symm⟩

theorem wit_Queues :
    let it : Item := { w1 := 0 }
    let on : State := up.setReg (Reg.hqQcfg 511) (fld 41 29 16)
    let e : QEntry := ⟨7, it, false⟩
    let full : State := on.setQueue 511 { items := List.replicate 16 e }
    let hw : State := (up.setReg (Reg.hqQcfg 3) (fld 41 29 16 ||| fld 28 25 5)).setQueue 3 { items := [e] }
    up.plat.parkedSince = none ∧ tagBad it.w1 = false ∧ up.epochCode (tagEpoch it.w1) = 0 ∧
      on.duplicate (seqKey 0 (on.qReader 511) (tagClass it.w1)) it.w1 = false ∧
      (on.queue 511).items.length < on.qDepth 511 ∧ 0 < full.qDepth 511 ∧ full.qDepth 511 ≤ (full.queue 511).items.length ∧
      takeLevel 7 (full.queue 511).items = some (e, List.replicate 15 e) ∧ (∀ y ∈ (full.queue 511).items, e.prio ≤ y.prio) ∧
      e.bad = false ∧ (full.queue 511).waiting = [] ∧ on.qReader 511 = 0 ∧ on.isBusy (busyPop 3) = false ∧
      hw.readsQueue (hw.qReader 3) 3 = true ∧ hw.readerFailed (hw.qReader 3) = false ∧ takeLevel 7 (hw.queue 3).items = some (e, []) ∧
      (on.queue 511).items = [] ∧ on.isBusy (busyPush 3) = false ∧ up.refusalOf 511 (up.pushBuffer 3) ≠ 0 ∧
      (∀ s ∈ [on, full], s.refusalOf 511 (s.pushBuffer 3) = 0 ∧
        s.duplicate (seqKey 0 (s.qReader 511) (tagClass (s.pushBuffer 3).w1)) (s.pushBuffer 3).w1 = false ∧ s.noRoom 511 = decide (s = full)) ∧
      on.isBusy busyFlush = false ∧ (after (.hqPush 3 511 7 100) on).isBusy (busyPush 3) = true ∧
      (after (.hqPop 3 511 100) on).isBusy (busyPop 3) = true ∧ (after (.hqFlush 511 100) on).isBusy busyFlush = true := by decide +kernel

theorem wit_FerryClaims :
    pages.live = true ∧ (pages.walkLeaf 0).isSome ∧ (pages.leaf 0).pin = false ∧ pages.isHeaderPage 0 = false ∧
      pages.walkLeaf 7 = none ∧ ((pages.setLeaf 0 { pages.leaf 0 with pin := true }).leaf 0).pin = true ∧
      ({ snap := true } : Want).snap = true ∧ ({} : Want).snap = false ∧
      (pages.leaf 0).kv = false ∧ (pages.leaf 0).ferry = false ∧ (pages.leaf 0).wp = false ∧
      ({ dest := .dram } : Want).already (pages.leaf 0) = true ∧ ({ dest := .sett } : Want).already (pages.leaf 0) = false ∧
      pages.tierPermit (pages.leaf 0).tclass .sett = false ∧
      ((pages.setLeaf 0 { pages.leaf 0 with wp := true }).leaf 0).wp = true := by decide +kernel

theorem wit_FerryClaims_claimed :
    let mv : Item := { w2 := 0, w3 := fld 63 32 1 ||| fld 7 4 3 }
    let dr : Item := { w2 := 0xFFFFFFFFF0000, w3 := fld 63 32 1 ||| fld 3 0 1 }
    (tagEpoch mv.w1 = permits.comp.map.epoch ∧ tagEpoch dr.w1 = permits.comp.map.epoch ∧ ferryOk mv = true ∧ ferryCount mv = 1 ∧ ferryOp mv = 0 ∧ ∃ l ∈ [0], permits.claimCheck (mv.w2.toNat / 65536) (ferryWant mv) = .claim .sett l) ∧
      (ferryOk dr = true ∧ ferryCount dr = 1 ∧ ferryOp dr = 1 ∧
        ∃ l ∈ [0, 1], permits.claimCheck (dr.w2.toNat / 65536) (ferryWant dr) = .claim .dram l) := by decide +kernel

theorem wit_FerryStages :
    let op : PageOp := { ferryId := 9, dst := .sett, dstLoc := 3 }
    let at_ := fun (st : FerryStage) (l : List Shoot) => { (permits.setLeaf 0 { permits.leaf 0 with ferry := true, ferryId := 9 }) with
      tsm.ops := SMap.put [] 0 { op with stage := st }, tsm.shoots := l }
    (let s := at_ .claim [⟨0, [7], .claimed 9⟩]
     s.live = true ∧ SMap.lookup s.tsm.ops 0 = some { op with stage := .claim } ∧ (s.leaf 0).tier ≠ .pool ∧ op.dst ≠ .pool ∧
       s.tsm.shoots = [⟨0, [7], .claimed 9⟩] ∧ op.isDrop = false ∧ (∀ x ∈ s.tsm.ops, x.1 ≠ 0 → x.2.stage ≠ .ready) ∧
       s.movesTo op.dst < seqWindow) ∧
      (at_ .claim [⟨0, [7, 0], .claimed 9⟩]).tsm.shoots = [⟨0, [7, 0], .claimed 9⟩] ∧
      (let s := at_ .write []
       (∀ a ∈ s.fab.accs, a.use ≠ FabUse.ferry 0) ∧ s.settPending (s.leaf 0).tier (s.leaf 0).loc op.dst op.dstLoc = false ∧
         ∀ x ∈ s.tsm.ops, x.2.stage ≠ .ready) ∧
      (let s := at_ .verify []
       (s.leaf 0).ferry = true ∧ (s.leaf 0).ferryId = op.ferryId ∧ op.isDrop = false ∧ op.dst ≠ .dram ∧
         ({ op with prog := some true } : PageOp).verified .same = true ∧ ∀ r ∈ s.tsm.reqs, r.id ≠ op.req) := by decide +kernel

/-- Free DRAM lies below LOW. -/
def low (s : State) : State := (s.setField Reg.tsmWatermark 31 16 65535).setField Reg.tsmWatermark 15 0 65534

/-- One page of the parked session is left for eviction; a pool segment is there to take it. -/
def oneLeft (seg : Bool) : State :=
  let s := [4294967297, 4294967300].foldl (fun s p => s.setLeaf p { s.leaf p with pin := true }) parked
  low { s with comp.map.segs := if seg then [(3, { valid := true, pages := 2 ^ 32 })] else [], plat.fuses := [(13, BitVec.allOnes 64)] }

theorem wit_Eviction :
    (permits.live = true ∧ (permits.unitFailed 2 && permits.unitFailed 3) = false ∧ permits.evictLow ≤ permits.freeDram ∧
      permits.evictHigh ≤ permits.freeDram ∧
      (let s := permits.setField Reg.tsmWatermark 31 16 65535
       s.evictLow ≤ s.freeDram ∧ s.freeDram < s.evictHigh ∧ s.tsm.evicting = false)) ∧
      ((low permits).freeDram < (low permits).evictLow ∧ (low permits).freeDram < (low permits).evictHigh ∧ (low permits).candidates = [] ∧
        (low permits).freeDram + (low permits).comingFree < (low permits).evictLow) := by decide +kernel

/-- The one span of the active session, parked, is all that eviction may take, and MODE is DROP_FIRST. -/
def spanLeft : State :=
  let s := active.setDir 0 { active.dir 0 with state := .parked }
  low ((s.tsm.leaf.foldl (fun s x => if x.2.kv then s else s.setLeaf x.1 { x.2 with pin := true }) s).setField Reg.tsmPolicy 33 32 2)

theorem wit_Eviction_one :
    ∀ x ∈ [(oneLeft false, Decision.sett), (oneLeft true, .pool), ((oneLeft false).setReg Reg.tsmBwEst 0, .blocked), (spanLeft, .drop)],
      let s := x.1
      s.live = true ∧ s.freeDram < s.evictLow ∧ s.candidates.length = 1 ∧ s.freeDram + s.comingFree < s.evictHigh ∧
        s.candidates.map s.judge = [x.2] := by decide +kernel

theorem wit_PageUpkeep :
    let s := pages
    let l := s.leaf 0
    (l.v = true ∧ l.pin = false ∧ l.ferry = false ∧ l.wp = false) ∧ s.tsm.boot = false ∧
      (∀ x ∈ [(tickAge, msec (s.field Reg.tsmWatermark 47 32)), (tickBw, msec 100), (tickBin, 900 * 10 ^ 9)],
        SMap.get 0 ({ s with now := 10 ^ 15 } : State).ticks x.1 + x.2 ≤ 10 ^ 15) ∧
      (let t := s.setLeaf 0 { l with wp := true }
       (t.leaf 0).v = true ∧ (t.leaf 0).wp = true ∧ 0 ∉ t.tsm.cow) ∧
      (let t := { s.setLeaf 0 { l with ferry := true } with tsm.ops := SMap.put [] 0 {} }
       (t.leaf 0).ferry = true ∧ (t.leaf 0).wp = false ∧ SMap.lookup t.tsm.ops 0 = some {}) ∧
      (let t : State := { s with tsm.retiring := [33554431] }
       33554431 ∈ t.tsm.retiring ∧ t.pageAtDram 33554431 = none) := by decide +kernel

/-! ### Hampers and custody -/

theorem alone_of (s : State) (n : Nat) (h : SMap.lookup s.fw.companions n = none) (g : (s.hdr n).gram = none) : s.Alone n :=
  ⟨h, fun a b e => by rw [g] at e; cases e⟩

theorem wit_HamperCommands :
    let o : State := { up with host.cmds := [{ id := 5, opcode := 0x10, args := [fld 63 32 256] }] }
    let c : HostCmd := { id := 5, opcode := 0x10, args := [fld 63 32 256] }
    (Waits o 5 0x10 c ∧ c.arg 1 = 0 ∧ 256 ≤ bits (c.arg 0) 63 32 ∧ bits (c.arg 0) 63 32 % 256 = 0 ∧ o.freeSlot = some 0 ∧
      o.draftOk = false ∧ (o.install 0 0 256 0 0 0 .home .parked (o.newHandle 0) (o.newHandle 0)).isSome = true) ∧
      (let s := asks parked 0x11 []
       Waits s 5 0x11 (askedCmd 0x11 []) ∧ s.changeCode 1 [.parked] = 0 ∧ s.hasSharers 0 = false ∧ s.marked 0 = false ∧
         (s.dir 0).tracked = false ∧ SMap.lookup s.fw.companions 0 = none ∧ (s.hdr 0).gram = none ∧ s.deferFull = false) ∧
      (let s := asks active 0x12 []
       Waits s 5 0x12 (askedCmd 0x12 []) ∧ s.changeCode 1 [.active] = 0 ∧ (s.dir 0).tracked = false ∧ s.betweenSteps = true) := by
  unfold Waits; decide +kernel

theorem wit_HandleRefusals :
    let c := fun (h : Word) => ({ id := 5, opcode := 0x12, session := h } : HostCmd)
    let s := fun (b : State) (h : Word) => { b with host.cmds := [c h] }
    (Waits (s parked (fld 63 54 1 ||| 1)) 5 0x12 (c (fld 63 54 1 ||| 1)) ∧ hModule (fld 63 54 1 ||| 1) ≠ parked.self) ∧
      (let z := parked.setDir 0 { parked.dir 0 with gen := 2 }
       Waits (s z 1) 5 0x12 (c 1) ∧ hModule 1 = z.self ∧ hSlot 1 ≤ z.field Reg.hmpDirRange 53 32 ∧ z.field Reg.hmpDirRange 21 0 ≤ hSlot 1 ∧
         newer (hGen 1) (z.dir 0).gen = true) ∧
      (Waits (s parked 1) 5 0x12 (c 1) ∧ hGen 1 = (parked.dir 0).gen ∧ (parked.dir 0).state = .parked ∧ parked.busy 0 = false) ∧
      (let z : State := parked.beginChange 0 .give none
       Waits (s z 1) 5 0x12 (c 1) ∧ z.busy 0 = true ∧ (z.dir 0).state ≠ .free) := by
  unfold Waits; decide +kernel

theorem wit_Reviving :
    let s := asks parked 0x13 []
    let r : Revive := { held := true, cmd := none }
    let shard := (parked.setDir 0 { parked.dir 0 with kind := .shard }).setHdr 0 { parked.hdr 0 with spans := 0 }
    (Waits s 5 0x13 (askedCmd 0x13 []) ∧ s.homeCode 1 = 0 ∧ s.busy 0 = false ∧ (s.dir 0).state = .parked ∧ (s.dir 0).kind = .home ∧
      (s.dir 0).tracked = false ∧ s.tsm.pressure = false ∧ s.freeDecode.isSome = true ∧
      ({ s with tsm.pressure := true } : State).tsm.pressure = true) ∧
      (shard.handleCode 1 = 0 ∧ (shard.dir 0).kind = .shard ∧ (shard.dir 0).state = .parked ∧ shard.revivePages 0 = [] ∧
        SMap.lookup shard.fw.companions 0 = none ∧ (shard.hdr 0).gram = none) ∧
      (let v : Change := { kind := .park, waiting := [3, 1023] }
       let z : State := { parked with hmp.changes := SMap.put [] 0 v }
       SMap.lookup z.hmp.revives 0 = none ∧ SMap.lookup z.hmp.changes 0 = some v ∧ v.waiting ≠ [] ∧
         (∀ m ∈ v.waiting, (m, 0) ∈ [(3, 0), (1023, 0)]) ∧ ∀ x ∈ [(3, 0), (1023, 0)], x.2 = 0) ∧
      (let z : State := { parked with now := 10 ^ 15 }
       (z.dir 0).state = .parked ∧ (z.dir 0).kind = .home ∧
         SMap.get 0 z.ticks (decayTick 0) + z.field Reg.hmpRevive 39 8 * 10 ^ 9 ≤ z.now) ∧
      (let z : State := { parked with hmp.revives := SMap.put [] 0 r }
       SMap.lookup z.hmp.revives 0 = some r ∧ z.evictHigh ≤ z.freeDram ∧ z.freeDecode.isSome = true ∧ (z.dir 0).kind = .home) ∧
      (∀ k ∈ [0, 1], let z : State := { parked with hmp.revives := SMap.put [] 0 { r with held := false, waiting := [3], failCode := k } }
        SMap.lookup z.hmp.revives 0 = some { r with held := false, waiting := [3], failCode := k } ∧ z.self ∉ [3] ∧
          (∀ m ∈ [3], ∃ x ∈ [(3, 0)], x.1 = m) ∧ ∀ x ∈ [(3, 0)], x.2 = 0) := by
  unfold Waits; decide +kernel

/-- The parked session with a custody record in the directory of pool segment 3. -/
def tracked : State :=
  let s := (parked.setField Reg.hmpCustody 39 32 3).setHdr 0 { parked.hdr 0 with recAddr := recAddrOf 3 0, custody := 7 }
  let s := s.setDir 0 { s.dir 0 with tracked := true }
  { s.setRec (recKey (recAddrOf 3 0)) { s.mine 0 with state := .held } with
      comp.map.segs := [(3, { valid := true, atomic := true, pages := 2 ^ 20, ports := 1 })], now := 10 ^ 12 }.setReg
    (Reg.fabPort 0) (fld 63 63 1)

theorem wit_Custody :
    let k := recKey (tracked.hdr 0).recAddr
    let base := tracked.live = true ∧ tracked.recCode (tracked.hdr 0).recAddr = 0 ∧
      k < 2 ^ 40 ∧ tracked.recCode (recAddrOf (k / 2 ^ 32) (k % 2 ^ 32)) = 0
    base ∧ (let s := asks tracked 0x14 [fld 57 48 1]
      Waits s 5 0x14 (askedCmd 0x14 [fld 57 48 1]) ∧ s.changeCode 1 [.parked] = 0 ∧ s.marked 0 = false ∧
        bit ((askedCmd 0x14 [fld 57 48 1]).arg 0) 63 = false ∧ (s.dir 0).tracked = true ∧ sameWord (s.rec_ k) (s.mine 0) = true) ∧
      (let g : Give := { key := k, n := 7, taker := .module 1, sinceNs := 0, cmd := none }
       let s := { (tracked.setRec k { tracked.rec_ k with state := .inTransit, target := .module 1 }) with hmp.gives := [(0, g)] }
       s.hmp.gives = [(0, g)] ∧ g.cmd = none ∧ SMap.lookup s.fw.companions 0 = none ∧ (s.hdr 0).gram = none ∧
         SMap.lookup s.hmp.gives 0 = some g ∧ g.sinceNs + s.custodyTimeout ≤ s.now ∧ (s.rec_ g.key).custody = g.n ∧
         (s.rec_ g.key).state = .inTransit ∧ (s.rec_ g.key).holder = .module s.self ∧ (s.rec_ g.key).target = g.taker) ∧
      (let x : Take := { key := k, n := 7, giver := .module 1 }
       let z := (tracked.setHState 0 .taking).setRec k { tracked.rec_ k with state := .inTransit, holder := .module 1 }
       let s : State := { z with hmp.takes := SMap.put [] 0 x }
       SMap.lookup s.hmp.takes 0 = some x ∧ x.waiting = [] ∧ (s.dir 0).state = .taking ∧ (s.dir 0).kind = .home ∧ (s.rec_ k).custody = x.n ∧
         (s.rec_ k).state = .inTransit ∧ (s.rec_ k).holder = x.giver ∧ (s.rec_ k).target = .module s.self ∧
         ((s.setDir 0 { s.dir 0 with kind := .shard }).dir 0).kind ≠ .home) := by
  unfold Waits; decide +kernel

theorem wit_CustodyChecks :
    let k := recKey (tracked.hdr 0).recAddr
    let s := tracked.setHState 0 .active
    ((s.dir 0).state = .active ∧ (s.dir 0).kind = .home ∧ (s.dir 0).tracked = true ∧ s.recCode (s.hdr 0).recAddr = 0 ∧
      (s.rec_ k).custody = (s.hdr 0).custody ∧ (s.rec_ k).holder = .module s.self ∧ (s.rec_ k).state = .held) ∧
      (let z := s.setRec k { s.rec_ k with custody := 8 }
       newer (s.hdr 0).custody (z.rec_ k).custody = true ∧ z.busy 0 = false ∧ SMap.lookup z.fw.companions 0 = none ∧
         (z.hdr 0).gram = none ∧ SMap.get 0 z.ticks (checkTick 0) + msec (z.field Reg.hmpCustody 31 16) ≤ z.now) ∧
      s.slotOfOrigin 1 = some 0 ∧ ({ s with hmp.probes := [{ origin := 1 }] } : State).hmp.probes = [{ origin := 1 }] := by
  decide +kernel

/-! ### Spans -/

/-- A span request item for one span of the session. -/
def spanItem (op n : Nat) (w4 : Word) : Item := { w0 := 1, w2 := fld 63 32 n ||| fld 31 0 1, w3 := fld 7 0 op, w4 := w4 }

theorem wit_SpanEdits :
    let it := spanItem 0 1 (fld 7 4 1)
    (OneSpan active it 0 0 1 ∧ argTier it = some .dram ∧ (active.span 0 1).res = .empty ∧ active.spanPending 0 1 = false ∧
      (mapRun .dram 0 true (active.dir 0).tclass (active.spanPages 0 1) active).isSome = true) ∧
      (OneSpan active (spanItem 9 0 0) 9 0 0 ∧ (active.span 0 0).sharers = 0 ∧ (active.span 0 0).shared = false ∧
        (active.span 0 0).res ≠ .empty ∧ active.deferFull = false) ∧
      (OneSpan active (spanItem 3 0 0) 3 0 0 ∧ active.dropAllowed 0 0 = true ∧ active.kvs.deferred.length + 2 ≤ 65536) ∧
      (OneSpan active (spanItem 3 1 0) 3 0 1 ∧ active.dropAllowed 0 1 = false) := by
  unfold OneSpan; decide +kernel

/-- The session again in slot 1, with no span. -/
def two : State :=
  let s := active.setDir 1 { active.dir 0 with gen := 3 }
  s.setHdr 1 { s.hdr 0 with handle := mkHandle 0 1 3, commitLen := 0 }

theorem wit_SpanFlags :
    (OneSpan active (spanItem 6 0 0) 6 0 0 ∧ (active.span 0 0).res ≠ .empty) ∧ OneSpan active (spanItem 7 1 0) 7 0 1 ∧
      OneSpan active (spanItem 11 1 0) 11 0 1 ∧ active.deferFull = false ∧
      (let it : Item := { spanItem 8 0 1 with w0 := mkHandle 0 1 3 }
       let s := (two.setDir 1 { two.dir 1 with kind := .shard }).setField Reg.hmpDirRange 53 32 1
       let o := s.span 0 0
       OneSpan s it 8 1 0 ∧ s.handleCode it.w4 = 0 ∧ (s.span 1 0).res = .empty ∧ 0 < (s.hdr 0).spans ∧ o.res = .resident ∧
         o.shared = false ∧ o.recomp = false ∧ 256 ≤ (s.hdr 0).commitLen ∧ (s.dir 0).model = (s.dir 1).model ∧ o.sharers < 255 ∧
         s.entryLost 0 0 = false ∧ (s.dir 1).kind ≠ .home) := by
  unfold OneSpan; decide +kernel

theorem wit_SpanFlags_home :
    let it : Item := { spanItem 8 0 1 with w0 := mkHandle 0 1 3 }
    let s := two.setField Reg.hmpDirRange 53 32 1
    OneSpan s it 8 1 0 ∧ s.handleCode it.w4 = 0 ∧ (s.span 1 0).res = .empty ∧ s.sameTokens 1 0 0 = true := by
  unfold OneSpan; decide +kernel

theorem wit_StatsMap :
    let it := spanItem 10 0 (BitVec.ofNat 64 (65536 * 2 ^ 33))
    let n := active.blocks (active.dir 0).model
    OneSpan active it 10 0 0 ∧ (active.span 0 0).res = .resident ∧ it.w4.toNat % 65536 = 0 ∧ it.w4.toNat / 65536 + n < 2 ^ 36 ∧
      (∀ p ∈ pageRun (it.w4.toNat / 65536) n, (active.leaf p).v = false) ∧ n < 4096 ∧
      (statsLoop 0 0 (it.w4.toNat / 65536) (List.range n) active).isSome = true := by
  unfold OneSpan; decide +kernel

/-- Span 0 is DROPPED; RECOMP and its rows as asked. -/
def dropped (recomp : Bool) (rows : Nat) : State :=
  let s := active.setSpan 0 0 { active.span 0 0 with res := .dropped, recomp := recomp }
  let s := (s.spanPages 0 0).foldl (fun s p => s.setLeaf p {}) s
  s.setSide 0 0 0 { s.side 0 0 0 with rows := rows }

theorem wit_Recompute :
    (let s := dropped false 0
     OneSpan s (spanItem 4 0 0) 4 0 0 ∧ (s.span 0 0).res = .dropped ∧ (s.span 0 0).recomp = false ∧ s.spanPending 0 0 = false ∧
       (mapRun .dram 0 true (s.dir 0).tclass ((s.spanPages 0 0).filter fun p => !(s.leaf p).v) s).isSome = true) ∧
      (let s := dropped true 256
       OneSpan s (spanItem 5 0 0) 5 0 0 ∧ (s.span 0 0).recomp = true ∧
         ∀ b < s.blocks (s.dir 0).model, (s.side 0 0 b).rows = 256) := by
  unfold OneSpan; decide +kernel

theorem wit_Recompute_firmware :
    let q := fun (b : Bool) => (dropped b (if b then 256 else 0)).setReg (Reg.hqQcfg 0) (fld 41 29 16)
    let r : Machine.Recompute := { slot := 0, span := 0, began := [0] }
    let w := fun (x : Machine.Recompute) => ({ q true with kvs.recomputes := [x] } : State)
    (let s : State := { q false with kvs.wanted := [(0, 0)] }
     s.live = true ∧ s.peers = [] ∧ s.qDepth (s.field Reg.kvsControl 8 0) ≠ 0 ∧ (∀ r ∈ s.kvs.recomputes, r.slot ≠ 0) ∧
       (0, 0) ∈ s.kvs.wanted ∧ s.kvs.asks = [] ∧ (s.span 0 0).res = .dropped ∧ s.firstDropped 0 [] 0 0 = 0) ∧
      r.began = [(w r).self] ∧ r.waiting = [] ∧ r.again = [] ∧ r.failed = none ∧ r.attempts < 3 ∧
      (w r).layers ((w r).dir 0).model = 1 ∧
      (let x := { r with waiting := [0], own := some 0 }
       x.waiting = [(w x).self] ∧ x.again = [] ∧ x.ending = false ∧ x.own = some 0 ∧
         ({ x with ending := true } : Machine.Recompute).ending = true) ∧
      (let x := { r with layer := 1 }
       (w x).layers ((w x).dir 0).model ≤ x.layer) ∧
      (let s := (w r).setReg (Reg.kvsGeometry 0) (fld 45 40 1 ||| fld 39 36 1 ||| fld 35 28 2 ||| fld 15 0 1 ||| fld 63 56 1)
       s.layerDone r = true ∧ r.layer + 1 < s.layers (s.dir 0).model) ∧
      (let x := { r with again := [0], retryNs := 0 }
       x.waiting = [] ∧ x.again = [(w x).self] ∧ x.retryNs ≤ (w x).now) := by decide +kernel

theorem wit_SpanFerries :
    let s : State := { active with plat.fuses := [(13, BitVec.allOnes 64)] }
    let pk := spanItem 1 0 (fld 7 4 3)
    let ft := spanItem 2 0 (fld 7 4 0)
    (argTier pk = some .sett ∧ s.ferryable 0 0 = true ∧ (s.spanPages 0 0).length = 1 ∧
      (∀ p ∈ s.spanPages 0 0, s.claimCheck p { dest := .sett, seg := bits pk.w4 15 8, die := argSub pk } = .claim .sett 0) ∧
      OneSpan s pk 1 0 0) ∧
      (argTier ft = some .larder ∧ OneSpan s ft 2 0 0 ∧
        ∀ p ∈ s.spanPages 0 0, s.claimCheck p { dest := .larder, seg := bits ft.w4 15 8, die := argSub ft } = .claim .larder 0) := by
  unfold OneSpan; decide +kernel

theorem wit_Deferred :
    let d : DeferItem := { id := 4, kind := .home .sett 9, stamps := [0, 0, 0, 0] }
    (d.released = false ∧ up.stampsPassed [1, 0, 0, 0] = false ∧ up.stampsPassed d.stamps = true ∧ d.busy = [] ∧ d.shooting = 0 ∧
      ({ up with kvs.deferred := [d] } : State).kvs.deferred = [d] ∧ up.kvs.held = [] ∧ up.tsm.boot = false) ∧
      (∀ p ∈ [0, 2 ^ 36 - 1], (pages.leaf p).v = true ∧ (pages.leaf p).ferry = false ∧ (pages.leaf p).wp = false) := by
  decide +kernel

/-! ### Attention, reductions, requests and rations -/

/-- An attention list of two items of one query row of the active session on die 0. -/
def attends (session : Nat) : State :=
  let s : State := { active with plat.fuses := [(13, BitVec.allOnes 64)] }
  let s := s.setDie 0 { s.die 0 with lists := [{ tiles := [0], at_ := 0, left := 2 }] }
  (s.writeWord (larderAddr 0 0) (BitVec.ofNat 64 session)).writeWord (larderAddr 0 8) (fld 31 19 1 ||| fld 6 5 1)

theorem wit_Attention :
    let l : AttnList := { tiles := [0], at_ := 0, left := 2 }
    (∀ h ∈ [0, 1], let s := attends h
      (s.die 0).lists[0]? = some l ∧ s.live = true ∧ s.unitFailed 6 = false ∧
        rowsSpill l.tiles (s.listRows 0 l) (s.headDim (s.dir (hSlot (s.listItem 0 l 0).session)).model) = false ∧
        (s.attnCode (s.listItem 0 l 0) = 0 ↔ h = 1)) ∧
      (let s := attends 1
       let a := s.listItem 0 l 0
       let c := s.chooseExact 0 0 a
       a.cls = 1 ∧ a.stats = false ∧ a.back = false ∧ c.1 = [0] ∧ c.2.1 = [] ∧
         (match (readBlocks 0 0 a.layer a.head a.fold c.1 l.folded [] c.2.2).1 with
          | .ok r => r.length == 1
          | .error _ => false) = true) ∧
      (let s := (attends 1).setSpan 0 0 { res := .dropped }
       let a := s.listItem 0 l 0
       s.attnCode a = 0 ∧ (s.chooseExact 0 0 a).2.1 = [0]) := by
  decide +kernel

theorem wit_Attention_spill :
    let l : AttnList := { tiles := [], at_ := 0, left := 2 }
    let s := attends 1
    let s : State := { (s.setDie 0 { s.die 0 with lists := [l], first := false, state := .running }).setLeaf 1
        { v := true, pin := true, loc := 5 } with
      cfg.pins := [{ base := 0, pages := 2, kind := 2, die := 0, tier := 0 }], dram.bad := [256 * 5] }
    s.live = true ∧ s.unitFailed 6 = false ∧ (s.die 0).lists[0]? = some l ∧
      rowsSpill l.tiles (s.listRows 0 l) (s.headDim (s.dir (hSlot (s.listItem 0 l 0).session)).model) = true ∧
      s.bodyLost (s.spillRange 0).1 (s.spillRange 0).2 = true ∧ (s.die 0).first = false := by decide +kernel

theorem wit_Ranking :
    let r : Ranking := { die := 0, id := 4, order := [2, 1, 0], given := 1 }
    let full : State := { active with seu.rankings := List.replicate 64 r }
    (active.live = true ∧ active.unitFailed 6 = false ∧ active.seu.rankings.length < 64 ∧ active.seu.rankWait = []) ∧
      (full.live = true ∧ 64 ≤ full.seu.rankings.length) ∧
      ({ active with seu.rankings := [r] } : State).seu.rankings.find? (fun x => x.die = 0 && x.id = 4) = some r := by decide +kernel

/-- A node of two modules. -/
def pair : State := { active with comp.map.modules := 2, comp.map.peers := [0, 1] }

theorem wit_RingReductions :
    let late : RedHalf := { stage := 1, y := [[1, 2, 3]] }
    let r : Reduction := { id := 4, die := 0, count := 3, started := true, cw := late, ccw := { late with stage := 3 } }
    (pair.live = true ∧ 2 ≤ pair.comp.map.modules ∧ 4096 % pair.comp.map.modules = 0 ∧ (∀ x ∈ pair.cmp.reductions, x.id ≠ 4) ∧
      pair.cmp.reductions = []) ∧
      (r.started = true ∧ (r.half true).done r.count = false ∧ (r.half false).done r.count = false ∧ (r.half true).y[0]? = some [1, 2, 3] ∧
        1 + 1 < r.count ∧ ¬ 3 + 1 < r.count) ∧
      (let s : State := { busy.setDie 0 { busy.die 0 with first := false } with cmp.reductions := [r], now := 10 ^ 10 }
       s.live = true ∧ s.cmp.reductions = [r] ∧ r.cw.late r.count (usec (s.field Reg.kvsAttn 47 32)) s.now = true ∧
         (s.die 0).state ≠ .idle ∧ (s.die 0).first = false) := by
  decide +kernel

theorem wit_RingPrefill :
    let e : BatchEntry := { session := 1, kind := .ring, pos := 0, qn := 1024 }
    let r : StepRun := { batch := [e] }
    let s : State := { pair with fw.cur := some r }
    (s.live = true ∧ s.fw.cur = some r ∧ r.batch.find? (fun x => x.kind = .ring && hSlot x.session = 0) = some e ∧
      s.partLocal (s.dir 0).model = false ∧ 0 < s.layers (s.dir 0).model ∧ 1 < s.comp.map.modules) ∧
      (∀ k ∈ [0, 1], let t : State := { s with cmp.rings := if k = 1 then [⟨0, 0, 1, []⟩] else [] }
        ((t.cmp.rings.find? fun x => x.slot = 0 && x.layer = 0).map (·.round)).getD 0 = k ∧
          (match (t.ringSet 0 0 0 k 0 e [] [(0, 65536), (131072, 196608)]).1 with
           | .ok _ => true
           | .error _ => false) = true) := by
  decide +kernel

/-- The session is ACTIVE with a next token; two request records. -/
def asked : State := ((active.setReg Reg.ctlReqCount 2).setReg Reg.ctlStep (fld 47 32 64)).setHdr 0 ((active.hdr 0).setNext (some 3))

/-- A request item of the session. -/
def request (kind : Nat) : Item := { w0 := 1, w2 := fld 63 32 8 ||| fld 31 28 kind, w4 := fld 31 16 0xFFFF ||| fld 15 0 0xFFFF }

/-- A request of the session in decode. -/
def decodes (r : ReqRec) : State := { asked with fw.reqs := [(0, { r with item := request 0, slot := 0, state := .decode })] }

theorem wit_RequestsOpen :
    (∀ k ∈ [0, 1], asked.fw.posted = [] ∧ asked.reqCode (request k) = 0 ∧ (request k).kind = k ∧ (request k).grammarNo = 0xFFFF ∧
      asked.freeReq = some 0 ∧ (asked.dir 0).state = .active ∧ asked.rationOut (request k).customer 1 = false) ∧
      (∀ k ∈ [0, 1, 2], let c : HostCmd := askedCmd 0x20 []
        let i := { request k with w0 := 9 }
        let s : State := { asks asked 0x20 [] with fw.posted := [Posted.mk i none (some c.id) none] }
        s.fw.posted = [Posted.mk i none (some c.id) none] ∧ i.kind ≤ 2 ∧ s.reqCode i ≠ 0 ∧ Machine.Open s c) ∧
      (∀ b ∈ [true, false], let s := decodes { inStep := b }
        s.live = true ∧ s.fw.posted = [] ∧ s.reqCode (request 2) = 0 ∧ (s.openReq? 0).isSome = true) := by
  unfold Machine.Open; decide +kernel

theorem wit_RequestCommands :
    (∀ k ∈ [0x16, 0x17], let s := asks asked k []
      Waits s 5 k (askedCmd k []) ∧ s.homeCode 1 = 0 ∧ s.openReq? 0 = none) ∧
      (let a := [0, fld 63 32 1]
       let s := asks asked 0x20 a
       Waits s 5 0x20 (askedCmd 0x20 a) ∧ [(7 : BitVec 32)].length = bits ((askedCmd 0x20 a).arg 1) 63 32 ∧
         [(7 : BitVec 32)].any (s.badInput (s.hdr 0).vocab false) = false ∧
         [(mkEntry 7 1 false false : BitVec 32)].any (s.badInput (s.hdr 0).vocab false) = true) := by
  unfold Waits; decide +kernel

theorem wit_RequestCommands_output :
    (∀ b ∈ [true, false], let s := asks (decodes { inStep := b }) 0x21 []
       Waits s 5 0x21 (askedCmd 0x21 []) ∧ SMap.lookup asked.fw.reqs 0 = none ∧
         (SMap.lookup s.fw.reqs 0).any (fun r => r.use.toNat = bits ((askedCmd 0x21 []).arg 0) 15 0 && r.failed == 0 && r.cmd == none) = true) ∧
      (∀ n ∈ [255, 256], let a := fld 63 32 n ||| 2; let s := asks asked 0x22 [a]
        Waits s 5 0x22 (askedCmd 0x22 [a]) ∧ s.homeCode 1 = 0) ∧
      ((asked.hdr 0).commitLen + bnat (asked.hdr 0).next.isSome = 257 ∧ (asked.leaf ((asked.hdr 0).tokenLog / 65536)).tier ≠ .sett ∧
        (asked.leaf ((asked.hdr 0).tokenLog / 65536)).poison = false) := by
  unfold Waits; decide +kernel

/-- The adapter directory and ration table lie in page 0. -/
def tables : State := (((pages.setReg (Reg.ctlSteer 0) (fld 56 38 4)).setTabWord (32 + 8) (fld 63 32 3 ||| fld 31 30 1))).setTabWord 32 65536

theorem wit_RationsAndAdapters :
    (let c : HostCmd := { id := 5, opcode := 0x31, args := [0, 9] }
     let s : State := { tables with host.cmds := [c] }
     Waits s 5 0x31 c ∧ s.tabled (s.rationAddr 0 / 65536) = false ∧ (s.leaf (s.rationAddr 0 / 65536)).v = true ∧ s.fw.refillNs + msec (s.field Reg.ctlRation 47 32) ≤ ({ s with now := 10 ^ 12 } : State).now) ∧
      (∀ v ∈ [3, 4], let c : HostCmd := { id := 5, opcode := 0x30, args := [1, 65536, fld 31 0 v] }
        let s : State := { tables with host.cmds := [c] }
        let a := s.adapterAddr true 0 1
        Waits s 5 0x30 c ∧ s.adapterIn true 0 1 = true ∧ (s.leaf (a / 65536)).v = true ∧ s.tabled (a / 65536) = false ∧ bits (s.tabWord (a + 8)) 31 30 = 1 ∧
          s.tabWord (a + 16) = 0 ∧ newer (BitVec.ofNat 32 (bits (s.tabWord (a + 8)) 63 32)) (BitVec.ofNat 32 v) = (v == 4)) ∧
      (let c : HostCmd := { id := 5, opcode := 0x30, began := true }
       let s : State := { tables with host.cmds := [c], fw.swaps := [Swap.mk 5 1 true 0] }
       s.fw.swaps = [Swap.mk 5 1 true 0] ∧ Machine.Open s c ∧ s.fw.cur = none ∧ s.fw.reqs = []) := by
  unfold Waits Machine.Open; decide +kernel

/-- Only the first record of a ration table in page 0 refills. -/
def refills : State :=
  { (((up.mapPage 0 .dram 0 true 0).getD up).setTabWord 8 (fld 63 32 4 ||| 256)).setReg Reg.ctlRation 0 with now := 10 ^ 12 }

theorem leaf_get (s : State) (h : s.tsm.boot = false) (p : Nat) : s.leaf p = SMap.get {} s.tsm.leaf p := by
  unfold State.leaf; rw [h]; rfl
theorem refills_boot : refills.tsm.boot = false := by decide +kernel
theorem refills_leaf : refills.tsm.leaf = [(0, refills.leaf 0)] := by decide +kernel
theorem refills_table : refills.field Reg.ctlRationTable 35 0 = 0 := by decide +kernel
theorem refills_far (c : Nat) (h : 2048 ≤ c) : refills.tabWord (refills.rationAddr c + 8) = 0 := by
  have hl : refills.leaf ((refills.rationAddr c + 8) / 65536) = {} := by
    have hp : (0 : Nat) < (32 * c + 8) / 65536 := by omega
    rw [leaf_get _ refills_boot]
    unfold SMap.get State.rationAddr
    rw [refills_table, refills_leaf]
    simp only [SMap.lookup]
    rw [if_neg (by omega)]; rfl
  unfold State.tabWord
  rw [hl]; rfl

theorem wit_RationRefill_none : ((up.refillers = [] ∧ up.live = true)) := by
  refine ⟨?_, by decide +kernel⟩
  have hl : up.tsm.leaf = [] := by decide +kernel
  refine List.filter_eq_nil_iff.2 fun c _ => ?_
  have : up.tabWord (up.rationAddr c + 8) = 0 := by
    unfold State.tabWord
    rw [leaf_get _ (by decide +kernel)]
    unfold SMap.get
    rw [hl]; rfl
  rw [this]; decide

theorem wit_RationRefill_one : refills.refillers = [0] ∧ (refills.leaf (refills.rationAddr 0 / 65536)).v = true ∧
    refills.tabled (refills.rationAddr 0 / 65536) = false ∧ refills.live = true ∧
    refills.fw.refillNs + msec (refills.field Reg.ctlRation 47 32) ≤ refills.now := by
  refine ⟨?_, by decide +kernel⟩
  have h1 : (List.range 2048).filter (fun c => decide (bits (refills.tabWord (refills.rationAddr c + 8)) 63 32 ≠ 0)) = [0] := by
    decide +kernel
  have h2 : ((List.range 1046528).map (2048 + ·)).filter (fun c => decide (bits (refills.tabWord (refills.rationAddr c + 8)) 63 32 ≠ 0)) = [] := by
    refine List.filter_eq_nil_iff.2 fun c hc => ?_
    obtain ⟨d, -, rfl⟩ := List.mem_map.1 hc
    rw [refills_far _ (by omega)]; decide
  have hr : (1048576 : Nat) = 2048 + 1046528 := rfl
  unfold State.refillers
  rw [hr, List.range_add, List.filter_append, h1, h2]; rfl

/-! ### Steps, jobs and service mode -/

/-- A loaded module alone on its node, at a step boundary, with a request of the active session in decode. -/
def steps : State :=
  let s := decodes {}
  { s with cfg.base := some 0, comp.map.modules := 1, comp.map.peers := [0], now := 10 ^ 12 }

theorem wit_StepsBegin :
    let e : BatchEntry := { session := 1, pos := 256 }
    let b : SubBatch := { step := 1, module := 0, entries := [e], whole := true }
    (steps.live = true ∧ steps.atBoundary = true) ∧
      (let s : State := { steps with comp.map.modules := 2, comp.map.peers := [0, 1], fw.sent := some (1, 0) }
       newer s.fw.step 1 = true ∧ 1 ≠ s.self ∧ 1 ∈ s.parts ∧ s.fw.subs = [] ∧ s.fw.params = [] ∧ s.fw.sent = some (1, 0) ∧
         0 + usec (s.field Reg.ctlStep 63 48) ≤ s.now ∧ s.batchReady 1 = false ∧ s.fw.stalled = false) ∧
      (let s : State := { steps with fw.sent := some (1, 0), fw.subs := [b] }
       s.live = true ∧ s.fw.cur = none ∧ s.batchReady 1 = true ∧ hModule e.session = s.self) := by decide +kernel

theorem wit_StepsCommit :
    let e : BatchEntry := { session := 1, pos := 256 }
    let r : StepRun := { n := 1, batch := [e], open_ := [1] }
    let s : State := { steps with fw.cur := some r }
    (s.live = true ∧ s.fw.cur = some r ∧ r.aborted = false ∧ 1 ∈ r.open_ ∧ s.partsOf 0 = [s.self] ∧ s.cmp.fails = [] ∧ r.reports = [] ∧
      r.logits = [] ∧ r.batch.find? (fun e => e.session = 1) = some e ∧ e.kind = .decode) ∧
      (let q : ReqRec := { item := request 0, state := .decode }
       s.openReq? 0 = some (0, q) ∧ q.drafts = [] ∧ q.fallback = false ∧ q.net = none ∧ q.item.stopSet = 0xFFFF ∧
         q.newDone + 1 < q.item.maxNew ∧ s.gramOf 0 = none ∧ (s.samplerOf 0).temp = 0 ∧
         (greedy ((s.samplerOf 0).scores [0x3F800000, 0x40000000])).map (·.1) = some 1 ∧ (s.samplerOf 0).eos = 0 ∧
         s.tabled (s.rationAddr q.item.customer / 65536) = false ∧ s.stepBusy r 1 = false ∧ 1 ∉ r.shards ∧ 5 < (s.hdr 0).sampler.length) ∧
      (let s : State := { s with comp.map.modules := 2, comp.map.peers := [0, 1] }
       s.partsOf 0 = [0, 1] ∧ s.live = true) ∧
      (let s := active.setDir 0 { active.dir 0 with kind := .shard }
       let s : State := { s with fw.cur := some { n := 1, shards := [1] } }
       s.live = true ∧ s.handleCode 1 = 0 ∧ (s.dir 0).kind = .shard ∧ s.hmp.parks = []) := by decide +kernel

/-- Job 0 at level 2 in the job table of page 0; job 1 has a weight window; queue 7 of depth 8 serves die 0. -/
def jobs : State :=
  let s := (((pages.setReg Reg.ctlJobTable (fld 42 36 2)).setReg (Reg.seqControl 0) 7).setReg (Reg.hqQcfg 7) (fld 41 29 8)).setReg
    Reg.ctlSched (fld 7 4 4)
  let s := s.setReg Reg.ctlDieRole 0
  let s := s.setTabWord (s.jobAddr 0 + 8) (fld 27 25 2 ||| fld 24 24 1)
  { (s.setTabWord (s.jobAddr 1) 65536).setTabWord (s.jobAddr 1 + 8) (fld 27 25 2 ||| fld 23 22 1) with now := 10 ^ 12 }

theorem wit_Jobs_pick :
    ∀ j ∈ [0, 1],
      let u : State := { jobs with fw.ready := [ReadySeg.mk j 0 {} 5] }
      u.live = true ∧ u.flt.discards = [] ∧ (u.dieJobs 0).entering = false ∧ (u.queue (u.segQ 0)).items.length + 1 < u.field Reg.ctlSched 7 4 ∧
        u.pickJob 0 = some j ∧ (u.oldest 0 j).isSome = true ∧ u.jobWindow j = (j == 1) ∧ u.resident 0 (u.jobSlot 1) ≠ 1 ∧
        u.slotSaved 0 1 = false ∧ (u.dieJobs 0).loading = none ∧ jobs.tabled (jobs.jobAddr 0 / 65536) = false ∧ (u.queue (u.segQ 0)).items.length + 1 < u.qDepth (u.segQ 0) := by
  decide +kernel

/-- Job 1, at level 0 and without a window, waits while die 0 runs a segment of job 0, which may be preempted. -/
theorem wit_Jobs_asks :
    let it : Item := { w3 := 7 }
    let k := ((jobs.setTabWord (jobs.jobAddr 1) 0).setTabWord (jobs.jobAddr 1 + 8) 0).setDie 0 { jobs.die 0 with state := .running, item := it }
    let k : State := { k.setDieJobs 0 { pushed := [(it, 0, 5)] } with fw.ready := [ReadySeg.mk 1 0 {} 5] }
    k.asksPreempt 0 = true := by decide +kernel

theorem wit_Jobs_save :
    let it : Item := { w3 := 7 }
    ∀ b ∈ [true, false],
      let s := (jobs.setDie 0 { jobs.die 0 with save := some { item := it } }).setDieJobs 0 { pushed := [(it, 0, 5)], entering := b }
      (s.die 0).save = some { item := it } ∧ (s.dieJobs 0).victim = none ∧ s.pushedJob 0 it = some (0, 5) ∧ s.live = true ∧
        (s.queue (s.segQ 0)).items.length < s.qDepth (s.segQ 0) := by decide +kernel

theorem wit_Jobs_service :
    let it : Item := { w3 := 7 }
    (let s := jobs.setDieJobs 0 { loading := some (1, it) }
     (s.dieJobs 0).loading = some (1, it) ∧ s.live = true) ∧
      (jobs.fw.windowNs + msec (jobs.field Reg.ctlSched 31 16) ≤ jobs.now ∧ jobs.dieService 0 = false ∧ (jobs.die 0).state = .idle ∧
        [it].length ≤ jobs.qDepth (jobs.segQ 0)) ∧
      (let s := (jobs.setDie 0 { jobs.die 0 with state := .running, item := it }).setDieJobs 0 { pushed := [(it, 0, 5)] }
       s.dieService 0 = false ∧ (s.die 0).state ≠ .idle ∧ s.runningPreemptible 0 = true) ∧
      (let s := (jobs.setReg Reg.ctlDieRole (fld 19 16 1)).setDieJobs 0 { flushed := [(it, 2)] }
       s.dieService 0 = true ∧ (s.die 0).state = .idle ∧ (s.queue (s.segQ 0)).items = [] ∧ (s.die 0).save = none ∧
         (s.dieJobs 0).flushed.length ≤ s.qDepth (s.segQ 0)) := by decide +kernel

/-! ### The text unit -/

/-- Words as bytes. -/
def pack (ws : List Word) : List Byte := ws.flatMap wordBytes

/-- A vocabulary image of an end-of-sequence token and three pieces, a, b and ab (R431 to R433). -/
def words : Vocab :=
  { img := pack [fld 63 48 0x70CA ||| fld 47 32 1 ||| 4, 0, fld 63 32 128 ||| 16, fld 63 32 144 ||| 4, 0, fld 63 46 1,
      fld 63 32 64 ||| 208, 0x45F6D291, 0, fld 55 54 1, 0, fld 63 56 1, 1, fld 63 56 1, fld 63 32 0x3F800000, fld 63 56 2,
      0x6261, 0, fld 63 32 1 ||| fld 31 23 2, 0, fld 63 32 3 ||| fld 31 23 1 ||| fld 22 15 0x61, fld 63 46 1 ||| fld 45 45 1,
      fld 22 15 0x62, fld 63 46 2 ||| fld 45 45 1, fld 22 15 0x62, fld 63 46 3 ||| fld 45 45 1] }

/-- A grammar image that accepts any number of tokens 1 (R450 to R452). -/
def ones : Grammar :=
  { img := pack [fld 63 48 0x6A7A ||| fld 47 32 1 ||| fld 31 16 1, fld 63 32 1 ||| 1, fld 63 32 64 ||| 80, fld 63 32 96,
      fld 63 32 160 ||| 0x590A26E8, 0, 0, 0, fld 31 31 1, 1, fld 63 46 1 ||| fld 45 28 1, fld 31 16 0xFFFF,
      2, 0, 0, 0, 0, 0, 0, 0] }

/-- The images pass the checks of R434 and R450; a grammar image of no bytes does not. -/
theorem test_images : words.ok 131072 = true ∧ ones.ok 4 = true ∧ ({} : Grammar).ok 4 = false := by
  delta Vocab.ok Grammar.ok imageCrc
  rw [crc_fast]
  decide +kernel

/-- The active session with its grammar in page 1, its vocabulary in page 2, the grammar directory in page 3, page 0 for text, and
queue 3. -/
def texts : State :=
  let s := ((active.setReg (Reg.txtVocab 0) (fld 63 63 1 ||| 2)).setReg Reg.txtGrammar (fld 48 36 2 ||| 3)).setReg (Reg.hqQcfg 3) (fld 41 29 8)
  let s := [0, 1, 2, 3].foldl (fun s p => (s.mapPage p .dram 0 false 0).getD s) s
  let s : State := { s with plat.fuses := [(13, BitVec.allOnes 64)] }
  ((s.writeBytes (s.physOf 65536) ones.img).writeBytes (s.physOf 131072) words.img).setTabWord (3 * 65536) 65536

/-- A text item of the session: operation, source length and grammar; its output goes to byte 256 of the page. -/
def textAsk (op len cap grammar : Nat) : Item :=
  { w0 := 1, w3 := fld 63 32 len ||| fld 31 28 op, w4 := 256, w5 := fld 63 32 cap ||| fld 31 16 0xFFFF ||| fld 15 0 grammar
    w6 := fld 40 32 3 ||| fld 11 0 300 }

/-- Lines of page 2 are lost. -/
def lostText : State :=
  { texts.setLeaf 2 { texts.leaf 2 with pin := true } with dram.bad := (List.range 256).map fun i => 256 * (texts.leaf 2).loc + i }

theorem wit_TextTokens_checks :
    ∀ op ∈ List.range 7, let i := textAsk op (if op = 3 then 1 else 0) 8 (if op = 4 then 0 else 0xFFFF)
      let bad := ({ texts with regs := texts.regs } : State).setReg Reg.fltUnits 1
      bad.live = true ∧ bad.unitFailed 0 = true ∧ texts.live = true ∧ texts.unitFailed 0 = false ∧ (TextItem.ofItem i).op = op ∧
        (∀ y ∈ texts.handBefore textReader i, y.w0 ≠ i.w0) ∧ textReserved i = false ∧ textReserved { i with w3 := i.w3 ||| fld 31 28 7 } = true ∧
        textOk i = true ∧ i.w0 ≠ 0 ∧ texts.homeCode i.w0 = 0 ∧ textOk { i with w3 := i.w3 ||| fld 23 22 3 } = false ∧
        texts.homeCode 9 ≠ 0 ∧ tagSnap i.w1 = false ∧ tagEpoch i.w1 = texts.comp.map.epoch ∧
        texts.vocabLost 0 = false ∧ (texts.gramLost 0 = false ∧ ∀ o ∈ texts.hq.old, o.item ≠ i) ∧ lostText.vocabLost 0 = true ∧
        isReclaim (TextItem.ofItem i).tally = false ∧ bit (texts.reg (Reg.hqQcfg 3)) 12 = false ∧
        (texts.queue 3).items.length < texts.qDepth 3 := by decide +kernel

theorem wit_TextTokens :
    let z := texts.writeBytes (texts.physOf 0) [0x61, 0x62]
    let g := ((z.cacheText 0).getBytes textCache 0 2)
    g.1.toOption = some [0x61, 0x62] ∧ z.vocab? 0 = some words ∧
      (match tokenizeBytes words (TextItem.ofItem (textAsk 0 2 1 0xFFFF)) false ((z.hdr 0).inBytes ++ [0x61, 0x62]) with
       | .ok r => r.toks == [3]
       | .error _ => false) = true ∧ (TextItem.ofItem (textAsk 0 2 0 0xFFFF)).cap < 1 ∧
      (match g.2.putBytes textCache 256 (bytes32 [mkEntry 3 0 false false]) with
       | .done _ => true
       | _ => false) = true ∧
      (let y := texts.writeBytes (texts.physOf 0) [3, 0, 0, 0]
       let g := (y.cacheText 0).getBytes textCache 0 4
       g.1.toOption = some [3, 0, 0, 0] ∧
         (detokLoop words (g.2.stopSet 0xFFFF) false 0 ((words32 [3, 0, 0, 0]).map entryToken) (y.hdr 0).holdBytes []).map (·.sent) = some [0x61, 0x62] ∧
         (sanitize [0x61, 0x62]).1.length = 2 ∧
         (match g.2.putBytes textCache 256 (sanitize [0x61, 0x62]).1 with
          | .done _ => true
          | _ => false) = true) := by decide +kernel

theorem wit_TextGrammars_load :
    let c : HostCmd := { id := 5, opcode := 0x33, args := [1, 0, 160, 262144, 0] }
    let e : HostCmd := { c with args := [1] }
    let s : State := { texts.setLeaf 4 { v := true, pin := true, loc := 1000 } with host.cmds := [c] }
    let b : State := s.setGramEntry 1 { addr := 65536, refs := 1 }
    Waits s 5 0x33 c ∧ bits (c.arg 0) 15 0 < s.field Reg.txtGrammar 48 36 ∧ (s.gramEntry 1).refs = 0 ∧ (b.gramEntry 1).refs ≠ 0 ∧
      e.arg 2 = 0 ∧ c.arg 2 ≠ 0 ∧ s.pinnedRange (c.arg 3).toNat 160 = true ∧ s.pinnedRange 65536 160 = false ∧
      (s.leaf (s.gramAt 1 / 65536)).v = true ∧ s.tabled (s.gramAt 1 / 65536) = false ∧ s.tabled 4 = false ∧
      ({ img := ones.img.take (c.arg 2).toNat } : Grammar) = ones ∧ ((s.vocab? 0).map (·.entries)).getD 0 = 4 := by
  unfold Waits; decide +kernel

/-- The session bound to the grammar. -/
def bound : State := texts.setHdr 0 ((texts.hdr 0).setGram 0 {})

theorem wit_TextGrammars :
    (texts.openGrammar 0 0 0).toOption.isSome = true ∧ (texts.openGrammar 0 1 0).toOption.isSome = false ∧
      bound.live = true ∧ bound.gramOf 0 = some (0, ones, {}) ∧
      (let y := bound.writeBytes (bound.physOf 0) [1, 0, 0, 0]
       let g := (y.cacheText 0).getBytes textCache 0 4
       g.1.toOption = some [1, 0, 0, 0] ∧ (gramRun ones 0 {} [1]).2 = none ∧ (gramRun ones 0 {} [2]).2.isSome = true ∧
         (1 + 1) * maskBytes words ≤ (TextItem.ofItem (textAsk 2 1 128 0xFFFF)).cap ∧
         (match g.2.putBytes textCache 256 (List.replicate 128 0) with
          | .done _ => true
          | _ => false) = true) := by
  decide +kernel

/-! ### Search and embeddings -/

def isDone : Moved → Bool
  | .done _ => true
  | _ => false

/-- Pages 0 and 1 hold an index of one list of one vector of eight dimensions, and a table of four FP32 rows of one element;
queue 3 has room. -/
def finds : State :=
  let s := (up.mapPage 0 .dram 0 false 0).getD up
  let s := (s.mapPage 1 .dram 0 false 0).getD s
  let s := ((s.setReg Reg.seuTableDir (fld 44 36 1 ||| 1)).setReg (Reg.hqQcfg 3) (fld 41 29 8)).setReg Reg.seuHot 0
  let s : State := { s with plat.fuses := [(13, BitVec.allOnes 64)], now := 10 ^ 12 }
  let s := s.writeWords (s.physOf 0) [fld 63 51 8 ||| fld 50 34 1 ||| fld 31 31 1 ||| fld 30 25 1, 1024, 2048, 4096, 8192]
  let s := s.writeWords (s.physOf 1024) [16384, fld 63 32 1 ||| 3]
  let s := (s.writeWord (s.physOf 16384) 1).writeWord (s.physOf (16384 + 256)) 7
  let s := s.writeWords (s.physOf 65536) [65536 + 4096, fld 63 32 3 ||| fld 31 31 1, 4]
  s.writeWords (s.physOf 20480) [fld 63 32 1, 2]

def seuAsk (op : Nat) (w2 w3 w4 w5 : Word) : Item :=
  { w2 := fld 63 60 op ||| w2, w3 := w3, w4 := w4, w5 := w5, w6 := fld 40 32 3 ||| fld 11 0 300 }

theorem wit_Seu_checks :
    ∀ op ∈ List.range 6, let i := seuAsk op 0 0 0 0
      (finds.setReg Reg.fltUnits 64).unitFailed 6 = true ∧ finds.live = true ∧ finds.unitFailed 6 = false ∧ seuOp i = op ∧
        seuReserved i = false ∧ seuReserved { i with w2 := fld 63 60 6 } = true ∧ finds.handleCode 9 ≠ 0 ∧ i.w0 = 0 ∧
        tagSnap i.w1 = false ∧ (∀ o ∈ finds.hq.old, o.item ≠ i) ∧ tagEpoch i.w1 = finds.comp.map.epoch ∧ bit (finds.reg (Reg.hqQcfg 3)) 12 = false ∧ isReclaim 300 = false ∧
        (finds.queue 3).items.length < finds.qDepth 3 := by decide +kernel

theorem wit_Search :
    let i := seuAsk 0 0 12288 24576 0
    let t := SearchItem.ofItem i
    let x := finds.index t.slot
    let u := readAll ((t.filter, 16 * t.terms, noIndex) :: (x.params, 8 * x.dim, noIndex) ::
      (List.range t.qn).map fun q => (t.src + 4 * q * x.dim, 4 * x.dim, q)) finds
    let r := u.2.searchRun x t []
    let w := readAll (u.2.searchReads x t r.1) u.2
    t.terms = 0 ∧ x.valid = true ∧ (finds.index 1).valid = false ∧ u.1 = none ∧ w.1 = none ∧ r.1.map (·.cands) = [[(7, 0, 0)]] ∧ t.rerank = false ∧
      isDone (w.2.seuWrite [(t.dst, r.1.flatMap (w.2.queryRecord x t.e))]) = true := by decide +kernel

theorem wit_IndexEdits :
    let x := finds.index 0
    let p := fun v => seuAsk 1 0 4096 (fld 63 32 1 ||| v) 0
    pubObject (p 4) = 0 ∧ x.valid = true ∧ finds.publishWaits (p 4) = false ∧
      ({ finds with hq.hand := [(seuReader, [p 3, p 4])] } : State).publishWaits (p 4) = true ∧ pubNumber (p 4) < x.lists ∧ x.lists ≤ pubNumber (seuAsk 1 1 0 0 0) ∧ x.lists ≤ pubNumber (seuAsk 2 1 0 0 0) ∧
      (let u := readAll [(x.listDir, 16, noIndex)] finds
       u.1 = none ∧ newer (u.2.listVersion x 0) (pubVersion (p 3)) = false ∧ newer (u.2.listVersion x 0) (pubVersion (p 4)) = true ∧
         isDone (u.2.seuWrite [(x.listDir, leBytes (p 4).w3.toNat 8 ++ leBytes (p 4).w4.toNat 8)]) = true) ∧
      (∀ d ∈ [1, 2], let s := finds.writeWord (finds.physOf 32768) (fld 37 32 d)
        let u := readAll [(32768, 256, noIndex)] s
        let bs := u.2.tabBytes 32768 256
        let deg := bits (bytesWord bs) 37 32
        u.1 = none ∧ deg = d ∧ x.maxDeg = 1 ∧ leWord ((bs.drop 8).take 4) < x.lists ∧
          isDone (u.2.seuWrite [(x.graph, bs)]) = true) ∧
      ({ finds with seu.lists := [(p 4, 16384)] } : State).seu.lists = [(p 4, 16384)] := by decide +kernel

theorem wit_Lookups :
    let i := fun (n : Nat) => seuAsk 3 (fld 59 52 n ||| fld 51 50 2) 20480 24576 0
    let t := finds.table 0
    let u := readAll [(20480, 8, noIndex)] finds
    let v := readAll [(rowsAt 20480 1, 8, noIndex)] u.2
    let w := readAll [(finds.rowAddr t 2, 4, 0)] v.2
    let r := readBags 0 t [] [[2]] w.2
    finds.rowsWait (i 0) = false ∧
      ({ finds with hq.hand := [(seuReader, [seuAsk 4 0 28672 0 0, i 0])] }.writeWords (finds.physOf 28672) [2, 32768]).rowsWait (i 0) = true ∧
      finds.seu.bound = [] ∧ bit (i 0).w2 49 = false ∧ finds.tableCount = 1 ∧ finds.tableCount ≤ bits (i 1).w2 59 52 ∧ bits (i 0).w2 47 32 = 0 ∧ t.valid = true ∧ t.sharded = false ∧ t.fmt = 0 ∧ t.width = 1 ∧ t.rowBytes = 4 ∧
      u.1 = none ∧ u.2.bagOffsets 20480 1 = [0, 1] ∧ v.1 = none ∧ v.2.bagRows 20480 1 1 = [2] ∧ 2 < t.rows ∧ w.1 = none ∧
      v.2.ownsRow t 2 = true ∧ v.2.storeRow? (rowKey 0 2) = none ∧
      isDone ((r.2.prefetch 0 t 0 1).seuWrite [(24576, bytes32 (poolRow 2 1 true 0 (r.1.getD 0 [])))]) = true ∧
      (finds.writeWord (finds.physOf 20488) 4).bagRows 20480 1 1 = [4] := by decide +kernel

theorem wit_Pools :
    let p : Pooling := { batch := 7, item := seuAsk 3 (fld 51 50 2) 0 24576 0, count := 3, block := [1, 2, 3], rows := [1], width := 3 }
    let q : Pooling := { p with count := 2, stage := 1, block := [1, 2], width := 2 }
    p.stage + 1 < 2 * (p.count - 1) ∧ (q.block.length = 2 * [5].length ∧ q.rows = [1] ∧ q.width = 2 * [5].length ∧ bits q.item.w2 51 50 = 2) ∧
      (let s : State := { finds with seu.pools := [p] }
       s.seu.pools = [p] ∧ p.sinceNs + p.timeoutNs ≤ s.now ∧
         isDone (s.seuWrite [(q.item.w4.toNat, bytes32 ([5] ++ q.block.drop 1))]) = true) := by decide +kernel

theorem wit_Tables :
    let i := seuAsk 4 0 28672 0 0
    let t := finds.table 0
    let s := finds.writeWords (finds.physOf 28672) [1, 32768]
    let u := readAll [(28672, 16, noIndex)] s
    let v := readAll [(32768, 4, 0), (u.2.rowAddr t 1, 4, 0)] u.2
    s.rowsWait i = false ∧ { s with hq.hand := [(seuReader, [i, { i with w5 := 1 }])] }.rowsWait { i with w5 := 1 } = true ∧ s.seu.bound = [] ∧
    u.1 = none ∧ bits (u.2.tabWord 28672) 63 62 < 2 ∧ bits (u.2.tabWord 28672) 61 40 = 0 ∧ u.2.updEntry 28672 0 = ⟨false, 1, 32768⟩ ∧
      1 < t.rows ∧ u.2.ownsRow t 1 = true ∧ v.1 = none ∧ isDone (v.2.seuWrite [(v.2.rowAddr t 1, [0, 0, 0, 0])]) = true ∧
      bits i.w2 51 48 = 0 ∧ bits i.w2 31 0 = 0 ∧ bits i.w2 47 32 + 1 = 1 ∧
      (let e : StoreRow := {}
       let s : State := { finds with seu.store := [(rowKey 0 1, e)] }
       s.storeRow? (rowKey 0 1) = some e ∧ e.filling = true ∧ (s.getBytes seuCache (s.rowAddr t 1) t.rowBytes).1.toOption.isSome = true ∧
         s.seu.windowNs + msec (s.field Reg.seuHot 63 48) ≤ s.now) := by decide +kernel

theorem wit_TablePublish :
    let p := fun v => seuAsk 5 0 (65536 + 8192) v 0
    let t := finds.table 0
    (bits (p 4).w2 51 0 = 0 ∧ bits (p 4).w4 63 32 = 0 ∧ t.prevBase = 0 ∧ newer t.version (pubVersion (p 3)) = false ∧
      newer t.version (pubVersion (p 4)) = true ∧ (finds.leaf (t.addr / 65536)).v = true ∧
      finds.tabled (t.addr / 65536) = false) ∧
      ((finds.writeWord (finds.physOf (65536 + 24)) 9).table 0).prevBase ≠ 0 ∧
      (let s : State := { finds with seu.tables := [(p 4, 69632)] }
       s.seu.tables = [(p 4, 69632)] ∧ s.seu.pools = [] ∧ s.seu.bound = [] ∧ (s.leaf ((s.table (pubObject (p 4))).addr / 65536)).v = true) := by decide +kernel

/-! ### Snapshots and restores -/

/-- Segments 3 and 4 of the pool can be reached; checkpoint group 3 mirrors two extents in them; the pool directory in segment 3
has been read. -/
def grouped : State :=
  let seg : PoolSeg := { valid := true, atomic := true, pages := 2 ^ 20, ports := 1 }
  let s : State := { tracked.setField Reg.hmpDirRange 53 32 7 with comp.map.segs := [(3, seg), (4, seg)], hmp.dirLog := some 10, comp.map.peers := [0, 1], comp.map.modules := 1, now := 10 ^ 14 }
  s.writeWords (poolAddr (s.groupFab 3).toNat) [0, fld 47 32 6 ||| 2048, fld 15 8 4 ||| 3, 0, fld 63 56 3 ||| 0x100000, 1024]

def cutNow : SnapCut := { epoch := 7, group := 3, step := 0xFFFFFFFF }

theorem wit_SnapshotCuts :
    (let a : List Word := [fld 63 32 0xFFFFFFFF ||| 3, 0, 1]
     let c : HostCmd := { id := 5, opcode := 0x41, args := a }
     let s : State := { grouped with host.cmds := [c] }
     Waits s 5 0x41 c ∧ c.arg 2 ≠ 0 ∧ (c.arg 2).toNat ≤ 65536 ∧ s.snp.lead = none ∧ s.snp.cur = none ∧ s.groupOk 3 = true ∧
       s.casCode (s.groupFab 3 + 8) = 0 ∧ s.sentPast 5 = false ∧
       ({ s with snp.cur := some cutNow } : State).snp.cur.isSome = true) ∧
      (let i : Item := { w2 := fld 63 48 7 ||| fld 47 40 3 ||| fld 39 30 1, w3 := fld 63 32 0xFFFFFFFF ||| 1 }
       bits i.w2 39 30 ≠ grouped.self ∧ tagEpoch i.w1 = grouped.comp.map.epoch ∧ grouped.snp.cur = none ∧ grouped.unitFailed 4 = false ∧
         bits i.w3 63 32 = 0xFFFFFFFF) ∧
      (let s : State := { grouped with snp.cur := some cutNow }
       s.live = true ∧ s.snp.cur = some cutNow ∧ s.mayMark cutNow = true ∧ cutNow.handles = [] ∧ cutNow.next = 0 ∧ cutNow.gaps = []) ∧
      (let p := 4294967300
       let x : SnapSess := { model := 0, table := [{ status := 1, base := p, first := 40 }] }
       let k := { cutNow with phase := .copying, sessions := [x], todo := [p, p + 1], next := 50, limit := 1024 }
       let s : State := { grouped.setField Reg.tsmSnapStage 51 36 100 with snp.cur := some k }
       let v := s.stagePage k.staged (s.physOf (p * 65536)) (s.snapDests k p)
       s.snp.cur = some k ∧ (s.leaf p).poison = false ∧ s.mayCopy k p = true ∧ (s.snapDests k p).length = 1 ∧
         (writeDests (v.ckGroup 3) 7 (s.physOf (p * 65536)) (s.snapDests k p) v).isSome = true) := by
  unfold Waits; decide +kernel

theorem wit_SnapshotCommits :
    let k := { cutNow with next := 1024, limit := 2048 }
    let hc : HostCmd := { id := 5, opcode := 0x41, began := true }
    let l : SnapLead := { epoch := 7, group := 3, waiting := [0, 1], cmd := some 5 }
    let base : State := { grouped with host.cmds := [hc] }
    (let c := { k with phase := .copying }
     let s : State := { base with snp.cur := some c }
     s.live = true ∧ s.snapDurable c = true ∧
       (match s.placeRun (s.ckGroup 3) c 1 with
        | some (p, x, u) => p == 1024 && ((writeRun (s.ckGroup 3) x.epoch.toNat [p] [1, 2] u).bind fun v =>
            v.padStripes (s.ckGroup 3) x).isSome
        | none => false) = true) ∧
      (let m := { k with phase := .manifest }
       let s : State := { base with snp.cur := some m, snp.lead := some l }
       s.snapDurable m = true ∧ m.lead = s.self ∧ s.self ∈ l.waiting ∧ { m with lead := 1 }.lead ≠ s.self ∧ 1 ≠ s.self ∧ 1 ∈ l.waiting) ∧
      (let l := { l with cmd := none }
       let s : State := { base with snp.lead := some l }
       s.snp.lead = some l ∧ 1 ∈ l.waiting ∧ l.cmd = none ∧ l.release = none ∧ s.snp.cur = none) ∧
      (let l := { l with waiting := [], record := some 1025 }
       let s : State := { base with snp.lead := some l, snp.cur := some k }
       l.record = some 1025 ∧ s.snapDurable k = true ∧ l.cmd = some hc.id ∧ l.release = none ∧ Machine.Open s hc) ∧
      (let x : SnapSess := { slot := 0, home := true, hdr := { handle := 1 } }
       let d := { k with phase := .done, sessions := [x], todo := [] }
       let ref : Word := fld 63 48 7 ||| fld 47 40 3
       let s : State := { base with snp.cur := some d }
       s.snp.lead = none ∧ bits ref 63 48 = d.epoch.toNat ∧ bits ref 47 40 = d.group ∧ s.handleCode x.hdr.handle = 0 ∧ (s.dir 0).tracked = true ∧
         SMap.lookup s.hmp.releases 0 = none ∧
         s.casCode (recAddrOf (recKey (s.hdr 0).recAddr / 2 ^ 32) (recKey (s.hdr 0).recAddr % 2 ^ 32) + 32) = 0 ∧
         ({ d with lead := 1 } : SnapCut).lead ≠ s.self ∧ l.waiting ≠ [] ∧ l.epoch = d.epoch ∧ l.group = d.group ∧ d.doneNs + msec (s.field Reg.tsmSnap 47 32) ≤ s.now) := by
  unfold Machine.Open; decide +kernel

theorem wit_CheckpointGroups :
    (let a : List Word := [3, 2048, fld 15 8 4 ||| 3, 0, fld 63 56 3 ||| 0x100000, 1024]
     let c : HostCmd := { id := 5, opcode := 0x40, args := a }
     let seg : PoolSeg := { valid := true, atomic := true, pages := 2 ^ 20, ports := 1 }
     let s : State := { grouped with host.cmds := [c], comp.map.segs := (List.range 256).map fun j => (j, seg) }
     Waits s 5 0x40 c ∧ s.dirPool ≠ 0xFF ∧ (s.seg s.dirPool).valid = true ∧ bits (c.arg 2) 7 0 = 3 ∧ s.cutInto 3 = false ∧
       (s.ckGroup 3).head = 0 ∧ (∀ j < 256, (s.seg j).valid = true) ∧ (s.segPort s.dirPool 0).isSome = true ∧
       ((s.writeWord (poolAddr (s.groupFab 3).toNat) 9).ckGroup 3).head ≠ 0) := by
  unfold Waits; decide +kernel

/-- Bytes at offsets from an address, as memory. -/
def cellsAt (base : Nat) (l : List (Nat × Nat)) : List Host.Cell := l.map fun x => (base + x.1, BitVec.ofNat 8 x.2)

/-- A cairn of one shard in logical pages 8 to 11 of group 3: its record, its manifest with one home session of origin 77 and of one
EMPTY span, a page of zeros for the header copy and the span list, and the CRC list (R517 to R520); the group's entry (R503). -/
def cairned (s : State) : State :=
  let page := fun (p : Nat) => poolAddr (3 * 2 ^ 56 + (1024 + p) * 65536)
  { s with
    comp.map.segs := (List.range 256).map fun j => (j, { valid := true, atomic := true, pages := 2 ^ 20, ports := 1 })
    mem := cellsAt (poolAddr (3 * 2 ^ 56 + 192)) [(9, 8), (12, 6), (16, 3), (17, 4), (34, 16), (39, 3), (41, 4)] ++
        cellsAt (page 8) [(0, 1), (4, 1), (6, 0x1E), (7, 0xCA), (0x28, 0x95), (0x29, 0x48), (0x2A, 0x06), (0x2B, 0xD4), (0x40, 9),
        (0x48, 0x25), (0x49, 0x29), (0x4A, 0x48), (0x4B, 0x7E), (0x4C, 64), (0x4D, 1)] ++
        cellsAt (page 9) [(0, 1), (4, 1), (6, 0xD0), (7, 0x5A), (9, 4), (0x40, 1), (0x43, 16), (0x44, 16), (0x45, 1), (0x47, 1),
        (0x100, 77), (0x114, 1), (0x11A, 10), (0x11F, 64), (0x132, 10), (0x13A, 11)] ++
        cellsAt (page 11) [(0, 0x89), (1, 0x41), (2, 0xF9), (3, 0x98)] }

/-- The cairn's reference. -/
def cairnOf77 : Word := fld 63 48 7 ||| fld 47 40 3 ||| 8

theorem readBytes_add (s : State) (a n m : Nat) : s.readBytes a (n + m) = s.readBytes a n ++ s.readBytes (a + n) m := by
  unfold State.readBytes
  rw [List.range_add, List.map_append, List.map_map]
  congr 1
  exact List.map_congr_left fun i _ => by simp [Function.comp, Nat.add_assoc]

/-- Bytes from an address upward, taken as zeros at once where no cell of memory lies. -/
def tailOf (s : State) (a n : Nat) : List Byte :=
  if s.mem.all fun x => x.1 < a || a + n ≤ x.1 then List.replicate n 0 else s.readBytes a n

theorem get_outside {α : Type} (d : α) (a : Nat) : ∀ m : SMap α, (∀ x ∈ m, x.1 ≠ a) → SMap.get d m a = d
  | [], _ => rfl
  | x :: m, h => by
    unfold SMap.get SMap.lookup
    rw [if_neg (h x List.mem_cons_self)]
    exact get_outside d a m fun y hy => h y (List.mem_cons_of_mem _ hy)

theorem tail_eq (s : State) (a n : Nat) : tailOf s a n = s.readBytes a n := by
  unfold tailOf
  split
  · rename_i h
    refine (List.eq_replicate_iff.2 ⟨by simp [State.readBytes], fun b hb => ?_⟩).symm
    obtain ⟨i, hi, rfl⟩ := List.mem_map.1 hb
    refine get_outside 0 _ _ fun x hx => ?_
    have h1 := List.all_eq_true.1 h x hx
    have h2 := List.mem_range.1 hi
    simp at h1
    omega
  · rfl

/-- The head of a page, and what follows. -/
theorem page_split : State.pageAt = fun s x => tailOf s (pageAddr x) 320 ++ tailOf s (pageAddr x + 320) 65216 :=
  funext fun s => funext fun x => by rw [tail_eq, tail_eq]; exact readBytes_add s (pageAddr x) 320 65216

/-- Module 0 may restore session 77, which the pool's record of key k says it holds, and retire or scrub its cairn. -/
def restoring : State :=
  let s := cairned grouped
  let k := 3 * 2 ^ 32 + grouped.recHash 77
  let s := s.setRec k { origin := 77, state := .held, holder := .module 0, cairn := cairnOf77 }
  { s with hmp.empties := [{ key := k }]
           host.cmds := [{ id := 5, opcode := 0x15, args := [cairnOf77, 77, fld 59 56 1 ||| 1] },
             { id := 6, opcode := 0x42, qp := 1, args := [cairnOf77] }, { id := 7, opcode := 0x43, qp := 2, args := [3, 0, 1] }] }
def restItem : Item := { w1 := fld 35 32 5, w2 := cairnOf77, w3 := 77, w4 := fld 59 56 1 ||| 1 }

/-- What the cairn's shards give the restores and the retiring of session 77. -/
def restorable (vs : Option (List ShardView)) : Bool :=
  let s := restoring
  let w := (s.began 5).advanceGen 1
  let v := w.sendAll 5 (.words 6 { restItem with w0 := w.newHandle 1 }.words)
  let far : Item := { restItem with w4 := fld 59 56 1 ||| 0x3FFFFF }
  let z := s.advanceGen 1
  let y := z.sendAll 5 (.words 6 { restItem with w0 := z.newHandle 1 }.words)
  (v.buildShare restItem [] vs .home (w.newHandle 1)).toOption.isSome && (s.buildShare far [] vs .shard far.w0).toOption.isSome &&
    (y.buildShare restItem [] vs .home (z.newHandle 1)).toOption.isSome &&
    ((homeView (vs.getD []) 77).map fun x => x.2.model).getD 0 == 0 && vs.isSome

theorem restoring_lost : restoring.lostSegs {} = [] := by decide +kernel
/-- Group 3 as its entry says. -/
def groupThree : CkGroup :=
  { segs := [3, 4, 0, 0, 0, 0, 0, 0, 0, 0], epoch := 6, dataPages := 2048, dataBase := 1024, extentMap := fld 63 56 3 ||| 0x100000 }
theorem restoring_three : restoring.ckGroup 3 = groupThree := by decide +kernel
theorem restoring_group : restoring.ckGroup = fun k => if k = 3 then groupThree else restoring.ckGroup k := by
  funext k
  split
  · rename_i h; rw [h, restoring_three]
  · rfl

/-- The record's page. -/
def recPage : List Byte := restoring.pageAt (3, 1032)
theorem cairn_rec : restoring.readLogical groupThree [] 8 cairnRecOk = some recPage := by
  have h : cairnRecOk (restoring.pageAt (3, 1032)) = true := by
    delta cairnRecOk imageCrc
    rw [crc_fast, page_split]
    decide +kernel
  show List.find? cairnRecOk (restoring.pageAt (3, 1032) :: restoring.pageAt (4, 1032) :: []) = some recPage
  rw [List.find?_cons, h]
  rfl
theorem cairn_ents : (List.range (bits (wordAt recPage 0) 31 0)).map (shardEnt recPage) =
    [{ page := 9, bytes := 320, crc := 0x7E482925#32 }] ∧ ¬ (bits (wordAt recPage 0) 31 0 = 0 ∨ 64 < bits (wordAt recPage 0) 31 0) := by
  delta recPage
  rw [page_split]
  decide +kernel
theorem cairn_views : restoring.readCairn cairnOf77 {} =
    viewAll (restoring.viewShard groupThree []) [{ page := 9, bytes := 320, crc := 0x7E482925#32 }] := by
  have h : ¬ (cairnOf77 = 0 ∨ restoring.groupOk 3 = false) := by decide +kernel
  have e : bits cairnOf77 47 40 = 3 ∧ bits cairnOf77 39 0 = 8 := by decide
  unfold State.readCairn
  simp only [restoring_lost, restoring_three, e.1, e.2, cairn_rec, Bool.or_eq_true, decide_eq_true_eq, Bool.not_eq_true', if_neg h]
  rw [if_neg cairn_ents.2, cairn_ents.1]
/-- The cairn that its bytes spell can be restored. -/
theorem wit_cairn : restorable (restoring.readCairn cairnOf77 {}) = true := by
  rw [cairn_views]
  delta State.viewShard State.viewSess State.viewBlocks State.readLogical State.readRun State.readings
  rw [crc_fast, page_split]
  decide +kernel

theorem wit_Restores :
    let s := restoring
    let c := s.host.cmds.headD {}
    let far : Item := { restItem with w4 := fld 59 56 1 ||| 0x3FFFFF }
    Waits s 5 0x15 c ∧ restSlot restItem = 1 ∧ s.restoreCode restItem = 0 ∧ (s.dir 1).state = .free ∧
      s.restoreCode { restItem with w4 := fld 59 56 2 } ≠ 0 ∧ s.readCairn 5 {} = none ∧
      (s.buildShare restItem [] none .home 0).toOption.isSome = false ∧
      s.field Reg.hmpDirRange 53 32 < restSlot far ∧ (s.dir (restSlot far)).state = .free := by
  unfold Waits; decide +kernel

theorem wit_RestoreEnds :
    let c : HostCmd := { id := 5, opcode := 0x15, began := true }
    let r : Restoring := { slot := 1, cmd := some 5, built := true }
    let k := 3 * 2 ^ 32 + grouped.recHash 77
    let p : PoolRec := { origin := 77, state := .held, holder := .pool 2, cairn := fld 63 48 7 ||| fld 47 40 3 }
    let s : State := { (grouped.setHdr 1 { origin := 77, handle := 1 }).setRec k p with host.cmds := [c], snp.restores := [r] }
    r.cmd = some c.id ∧ r.claim = none ∧ Machine.Open s c ∧ SMap.lookup s.fw.companions 1 = none ∧ (s.hdr 1).gram = none ∧
      s.dirPool ≠ 0xFF ∧ s.dirCode = 0 ∧ s.self < 1024 ∧
      s.findRec (s.hdr 1).origin = .found k ∧ s.recCode (recAddrOf (k / 2 ^ 32) (k % 2 ^ 32)) = 0 ∧ (s.rec_ k).state = .held ∧
      (s.rec_ k).holder = .pool 2 ∧ ({ s with hmp.dirLog := none } : State).dirCode ≠ 0 := by
  unfold Machine.Open; decide +kernel

theorem wit_EmptyClaims :
    let z := restoring
    let k := 3 * 2 ^ 32 + grouped.recHash 77
    let other := z.setRec k { origin := 77, state := .held, holder := .pool 2, cairn := cairnOf77 }
    z.live = true ∧ z.hmp.empties = [{ key := k }] ∧ z.custodyTimeout ≤ z.now ∧ z.snp.restores = [] ∧
      z.recCode (recAddrOf (k / 2 ^ 32) (k % 2 ^ 32)) = 0 ∧ (z.rec_ k).state = .held ∧ (z.rec_ k).holder = .module z.self ∧
      (other.rec_ k).holder ≠ .module other.self ∧ (z.rec_ k).cairn = cairnOf77 ∧ (z.rec_ k).tclass = 0 ∧ z.freeSlot = some 1 ∧
      (z.dir 1).state = .free := by decide +kernel

/-- A cairn read back has extents; one that is not there has none. -/
theorem extents_some (s : State) (ref : Word) (v : PoolSeen) (h : (s.readCairn ref v).isSome = true) :
    (s.cairnExtents ref v).isSome = true := by
  unfold State.cairnExtents; rw [Option.isSome_map]; exact h

theorem wit_CheckpointGroups_cairns :
    let s := restoring
    let c := s.host.cmds.getD 1 {}
    let d := s.host.cmds.getD 2 {}
    Waits s 6 0x42 c ∧ c.arg 0 = cairnOf77 ∧ s.groupOk 3 = true ∧ s.cairnExtents 5 {} = none ∧ Waits s 7 0x43 d ∧
      bits (d.arg 0) 7 0 = 3 ∧ s.keptExtents {} [] = some [] ∧ s.keptExtents {} [5] = none := by
  unfold Waits; decide +kernel

/-- A cairn read back is kept by a scrub. -/
theorem kept_some (s : State) (ref : Word) (v : PoolSeen) (h : (s.readCairn ref v).isSome = true) :
    (s.keptExtents v [ref]).isSome = true := by
  have e := extents_some _ _ _ h
  unfold State.keptExtents
  cases x : s.cairnExtents ref v with
  | none => rw [x] at e; cases e
  | some a => rfl

theorem see_nothing (s : State) : s.seePool {} = s := rfl

/-! ### The host port and its commands -/

/-- Queue pair 0 of function 0 is enabled with rings of 16 and holds a command; the image is loaded. -/
def hosts : State :=
  ({ up with cfg.base := some 0 } : State).setFn 0
    { enable := true, ideSecure := true, qps := [(0, { en := true, sqSize := 16, cqSize := 16, tail := 1 })] }

theorem wit_HostPort :
    State.reset.portUp = false ∧ hosts.portUp = true ∧ hosts.live = true ∧ hosts.mayFetch 0 0 = true ∧ hosts.mayFetch 1 0 = false ∧
      (∀ x ∈ hosts.host.cmds, x.id ≠ hosts.host.nextId) ∧
      (∀ r ∈ [((fld 15 0 9 : Word), 0), (fld 63 56 0xFF, Code.badOpcode)],
        hosts.refusalCode (cmdOf hosts.host.nextId 0 0 hosts.now { w0 := r.1 }) r.1 = r.2) ∧
      (let h : HeldDone := { code := 3 }
       let s := hosts.setFn 1 { held := [h] }
       (s.fn 1).held = [h] ∧ h.code < 8192) ∧
      (((hosts.fn 0).qp 0).en = true ∧ ((hosts.fn 0).qp 1).en = false ∧ ringSizeOk 16 = true ∧ ringSizeOk 17 = false) := by decide +kernel

theorem wit_HostCommands :
    Waits { up with host.cmds := [{ id := 5, opcode := 0 }] } 5 0 { id := 5, opcode := 0 } ∧
      (let c : HostCmd := { id := 5, opcode := 0x01, args := [fld 63 32 10 ||| 8] }
       let s := fun (a : BitVec 8) => ({ up with host.cmds := [c] } : State).setFn 0 { attn := a }
       Waits (s 8) 5 0x01 c ∧ Waits (s 4) 5 0x01 c ∧ (((s 8).fn 0).attn.toNat / 2 * 2 &&& (bits (c.arg 0) 7 1 * 2)) ≠ 0 ∧
         (((s 4).fn 0).attn.toNat / 2 * 2 &&& (bits (c.arg 0) 7 1 * 2)) = 0) ∧
      (let c : HostCmd := { id := 5, opcode := 0x18, args := [0, fld 63 32 1 ||| fld 7 4 3] }
       let it : Item := { w2 := c.arg 0, w3 := c.arg 1, w4 := c.arg 2 }
       let s : State := { permits with host.cmds := [c] }
       Waits s 5 0x18 c ∧ ferryCount it = 1 ∧ s.claimCheck 0 (ferryWant it) = .claim .sett 0 ∧
         s.claimCheck 7 (ferryWant it) = .ended (.failed Code.unmapped)) ∧
      (∀ t ∈ [1, 10 ^ 12], let c : HostCmd := { id := 5, opcode := 0x01, began := true, args := [fld 63 32 10] }
        let s : State := { up with host.cmds := [c], now := t }
        Machine.Open s c ∧ (c.sinceNs + msec (bits (c.arg 0) 63 32) ≤ s.now ↔ t ≠ 1)) ∧
      (∀ n ∈ [0, 65535], let c : HostCmd := { id := 5, opcode := 0x02, args := [fld 63 56 1 ||| fld 15 0 n] }
        Waits { up with host.cmds := [c] } 5 0x02 c ∧ (0 + (n + 1) ≤ blockSize 1 ↔ n = 0)) := by
  unfold Waits Machine.Open; decide +kernel

theorem wit_HostCommands_span :
    (let it := spanItem 6 0 0
       let c : HostCmd := { id := 5, opcode := 0x19, session := 1, args := [it.w2, it.w3, it.w4] }
       let s : State := { active with host.cmds := [c] }
       let q := s.field Reg.kvsControl 8 0
       let z := s.setReg (Reg.hqQcfg q) (fld 41 29 8)
       Waits s 5 0x19 c ∧ s.homeCode 1 = 0 ∧ s.homeCode 9 ≠ 0 ∧ s.qDepth q = 0 ∧ z.qDepth q ≠ 0 ∧ (z.queue q).items.length < z.qDepth q) ∧
      (let i := { spanItem 6 0 0 with w0 := 1, w1 := fld 35 32 4 ||| fld 15 0 active.comp.map.epoch.toNat }
       let c : HostCmd := { id := 5, opcode := 0x19, session := 1, began := true, waitMods := [active.comp.map.ringPos] }
       let s : State := { active with host.cmds := [c], kvs.asks := [SpanAsk.mk i (.host c.id)] }
       Machine.Open s c ∧ s.kvs.asks = [SpanAsk.mk i (.host c.id)] ∧ c.waitMods = [s.comp.map.ringPos] ∧ c.spanRes = [] ∧
         tagEpoch i.w1 = s.comp.map.epoch ∧ spanOp i = 6 ∧ s.spanCode i = 0 ∧ spanCount i = 1 ∧
         s.entryLost (hSlot i.w0) (spanFirst i) = false ∧ (s.span (hSlot i.w0) (spanFirst i)).res ≠ .empty) := by
  unfold Waits Machine.Open; decide +kernel

/-! ### Trail links, fabric and maps -/

/-- A module of a node of two with trail port 0 in a state. -/
def trails (st : Nat) (x : TrailPort) : State :=
  ((({ up with comp.map.modules := 2, comp.map.peers := [0, 1], now := 10 ^ 12 } : State).setReg Reg.trlControl
    (fld 63 48 5 ||| fld 47 40 2 ||| fld 39 24 1 ||| fld 16 16 1)).setField (Reg.trlPort 0) 63 62 st).setTrl 0 x

theorem wit_TrailLinks :
    (let s := trails 0 {}
     s.live = true ∧ s.trlState 0 = 0 ∧ s.trlEnabled 0 = true ∧ s.miswired 0 = false ∧ 2 ≤ s.comp.map.modules ∧
       0 + msec (s.field Reg.trlControl 39 24) ≤ s.now ∧ ({ s with now := 1 } : State).now < 0 + msec (s.field Reg.trlControl 39 24)) ∧
      (∀ d ∈ [true, false], let s := trails 1 { fec := true, sentDone := d }
        s.trlState 0 = 1 ∧ (s.trailPort 0).fec = true ∧ (s.trailPort 0).sentDone = d) ∧
      (let s := trails 1 { fec := true }
       let i : InitFlit := { w0 := fld 63 48 0x7A11 ||| fld 47 32 1 ||| fld 31 16 s.comp.map.epoch.toNat
                             w1 := fld 63 54 1 ||| fld 53 51 2 ||| fld 47 44 2 }
       i.kind = 0x7A11 ∧ i.version = 1 ∧ i.module = s.neighbour (isNext 0) ∧ i.port = partner 0 ∧ i.modules = s.comp.map.modules ∧
         i.epoch = s.comp.map.epoch ∧ 2 ≠ s.neighbour (isNext 0)) ∧
      (∀ n ∈ [0, 2], let x : TrailPort := { fec := true, unacked := [{}], retries := n }
        let s := trails 2 x
        s.trlState 0 = 2 ∧ s.trailPort 0 = x ∧ x.unacked ≠ [] ∧ x.ackNs + usec (s.field Reg.trlControl 63 48) ≤ s.now ∧
          (s.field Reg.trlControl 47 40 ≤ n ↔ n = 2)) ∧
      (let s := trails 2 { unacked := [{}] }
       let f : Flit := { ctl := fld 63 60 1 }
       f.good = true ∧ f.ftype = 1 ∧ 5 ≤ ({ ctl := fld 63 60 5 } : Flit).ftype ∧ f.fseq = (s.trailPort 0).expect ∧
         (s.trailPort 0).waiting = [] ∧ (s.trailPort 0).cur = [] ∧ (s.trailPort 0).naked = false ∧
         ({ s.trailPort 0 with naked := true } : TrailPort).naked = true ∧
         (s.trailPort 0).unacked.findIdx? (fun u => u.seq = f.ack) = some 0 ∧ 1 ≠ s.self ∧ s.ringDist 1 ≠ none) := by decide +kernel

theorem wit_TrailFrames :
    let s := (trails 2 {}).setReg (Reg.hqQcfg 3) (fld 41 29 8)
    let w : Word := fld 35 32 1 ||| fld 15 0 s.comp.map.epoch.toNat
    let f : Frame := { head := { itemHead 0 1 0 0 3 with tag1 := w }, body := List.replicate 48 0 }
    let g : Frame := { head := { dataHead 0 1 0 128 0 0 0 with tag1 := w }, body := List.replicate 128 5 }
    let h := g.head
    s.plat.parkedSince = none ∧ f.head.dest = s.self ∧ (itemOf f).w1 = w ∧ tagBad w = false ∧ tagEpoch w = s.comp.map.epoch ∧
      f.head.mtype = 0 ∧ f.head.bodyLen = 48 ∧ f.head.queue = 3 ∧ (s.queue 3).items.length < s.qDepth 3 ∧
      s.duplicate (seqKey (frameSender f.head) (s.qReader 3) (tagClass w)) w = false ∧
      h.dest = s.self ∧ h.mtype = 1 ∧ 128 ≤ h.bodyLen ∧ h.bodyLen ≤ 65536 ∧ h.bodyLen % 128 = 0 ∧ 128 * h.la + h.bodyLen ≤ larderBytes ∧
      h.tag1 = w ∧ g.body.length = h.bodyLen ∧ s.duplicate (seqKey (frameSender h) 15 h.cls) h.tag1 = false ∧ isReclaim h.tally = false ∧
      bit (w ||| fld 40 40 1) 40 = true ∧ h.mtype ≠ 0 := by
  decide +kernel

theorem wit_FabricAndMaps :
    (let a : FabAcc := { id := 4, issued := true, use := .snap 7 }
     let s : State := { grouped with fab.accs := [a], snp.cur := some cutNow }
     s.live = true ∧ s.fab.accs.find? (fun x => x.id = a.id && x.issued) = some a ∧ cutNow.phase ≠ .done ∧
       a.sinceNs + usec (s.field Reg.fabControl 63 48) ≤ s.now ∧ 0 < ({ a with sinceNs := s.now + 1 }).sinceNs ∧
       s.casCode (s.groupFab 3 + 8) = 0 ∧ bit (s.reg (Reg.fabPort 0)) 63 = true ∧ bit (s.reg (Reg.fabPort 1)) 63 = false ∧
       ({ s with cfg.base := some 0 } : State).loaded = true ∧ s.comp.drainSince + s.comp.drainNs ≤ s.now ∧ SMap.get 0 s.ticks (tickPrefetch + 3) + 100000 ≤ s.now ∧ SMap.get 0 s.ticks tickCharge + 1000000 ≤ s.now ∧
       ({ s with comp.drainSince := s.now + 1 } : State).now < s.now + 1 + s.comp.drainNs) ∧
      (let c : HostCmd := { id := 5, opcode := 0x05 }
       let s : State := { up.setField Reg.hmpCustody 39 32 0xFF with host.cmds := [c] }
       let m := CompMap.ofBytes (leBytes (fld 63 48 0xC3A9 ||| fld 47 32 1 ||| fld 31 16 1 ||| fld 15 12 1).toNat 8)
       Waits s 5 0x05 c ∧ s.comp.next = none ∧ s.mapCode m = 0 ∧ s.mapCode (CompMap.ofBytes []) ≠ 0 ∧
         (let b : HostCmd := { c with began := true }
          let z : State := { s with comp.next := some m, comp.nextCmd := some 5, host.cmds := [b] }
          z.comp.next = some m ∧ z.fw.cur = none ∧ z.comp.held = [] ∧ z.comp.nextCmd = some b.id ∧ Machine.Open z b ∧
            ({ z with comp.map := m }.neighbour true, { z with comp.map := m }.neighbour false) = (z.neighbour true, z.neighbour false))) := by
  unfold Waits Machine.Open; decide +kernel

/-! ### Faults and memory devices -/

theorem wit_Faults :
    (up.live = true ∧ up.unitFailed 6 = false) ∧
      (let s := up.setReg Reg.fltUnits 64
       s.unitFailed 6 = true ∧ bit (s.reg Reg.fltUnits) 14 = false ∧ bit ((up.setReg Reg.fltUnits 0x4040).reg Reg.fltUnits) 14 = true) ∧
      (let r : StepRun := { n := 1, open_ := [1] }
       let s : State := { pair with fw.cur := some r }
       s.fw.cur = some r ∧ r.aborted = false ∧ s.ownAbort = true ∧ 1 ∈ s.peers ∧ 1 ≠ s.self) ∧
      (∀ n ∈ [2, 3], let r : StepRun := { n := 1, open_ := [1], aborted := true, tries := n }
        let s : State := { pair with fw.cur := some r }
        s.fw.cur = some r ∧ s.diesQuiet = true ∧ ∀ m ∈ s.peers, m ∈ [1]) ∧
      (let s : State := { pair with fw.stalled := true }
       s.fw.stalled = true ∧ s.flt.probed = [] ∧ s.flt.answered = [] ∧ s.peers ≠ [] ∧
         (let p : State := { s with flt.probed := [1], flt.stallSince := some 0, now := 10 ^ 12 }
          (∀ m ∈ p.peers, m ∈ p.flt.probed ∧ m ∈ [1]) ∧ 0 + 10 ^ 9 ≤ p.now ∧ 1 ∉ p.flt.answered ∧ p.fw.cur = none ∧ p.hmp.batch = [] ∧
            (p.dir 0).state = .active ∧ (p.dir 0).kind = .home ∧ p.busy 0 = false)) ∧
      (∀ t ∈ [1, 10 ^ 12], let x : LostItem := { queue := 3 }
        let s : State := { up.setReg (Reg.hqQcfg 3) (fld 41 29 8 ||| fld 28 25 5) with flt.lost := [x], now := t }
        s.flt.lost = [x] ∧ (x.sinceNs + 10 * 10 ^ 9 ≤ s.now ↔ t ≠ 1) ∧ s.qReader x.queue = 5) := by decide +kernel

theorem wit_DramScrub :
    pages.live = true ∧ pages.plat.parkedSince = none ∧ ({ up with plat.parkedSince := some 0 } : State).plat.parkedSince.isSome = true ∧
      (up.setReg Reg.dramScrub 0).field Reg.dramScrub 23 16 = 0 ∧ (lineEcc [(300, 1)]).1 = .clean ∧ lineEcc [(0, 1), (4, 2)] = (.corrected, 0) ∧
      (lineEcc [(0, 1), (32, 1)]).1 = .uncorrectable ∧ up.pageAtDram (lineOf 0 0 / 256) = none ∧
      pages.pageAtDram (lineOf 0 0 / 256) = some 0 ∧ (pages.leaf 0).pin = false ∧ 0 < up.field Reg.dramStatus 15 8 + 1 := by decide +kernel

/-- A mounted sett; page 7 lies in block 65536 of die 1. -/
def setts : State :=
  { up.setField Reg.settStatus 63 63 1 with
      sett.place := [(7, [65536])], sett.blocks := [(65536, { reads := 200000, retry := true }), (3, { erases := 300, writtenNs := some 0 })], now := 10 ^ 17 }

theorem wit_SettOperations :
    (up.settUp = false ∧ setts.live = true ∧ setts.settUp = true ∧ 7 < 805306368 ∧ setts.plat.inhibit = false ∧
      ({ setts with plat.inhibit := true } : State).plat.inhibit = true ∧ bit (setts.reg Reg.settStatus) 60 = false ∧
      bit ((setts.setField Reg.settStatus 60 60 1).reg Reg.settStatus) 60 = true ∧ setts.sett.progs = [] ∧ setts.pageAtSett 7 = none) ∧
      (let r : SettRead := { page := 7, data := some [(0, 1)] }
       let p : SettProg := { page := 7, data := [(0, 1)] }
       let s : State := { setts with sett.reads := [r], sett.progs := [p] }
       s.sett.reads = [r] ∧ r.page = 7 ∧ s.sett.progs = [p] ∧ p.trim = false ∧ { r with data := none }.data = none ∧
         (∀ x ∈ s.sett.progs, x.page ≠ 8) ∧ setts.settClaimed 7 = false ∧
         (let op : PageOp := { ferryId := 9, dst := .sett, dstLoc := 7, stage := .write }
          let z : State := { s with tsm.ops := SMap.put [] 0 op }
          z.settClaimed 7 = true ∧ SMap.lookup z.tsm.ops 0 = some op ∧ op.isDrop = false ∧ op.dst = .sett ∧ op.dstLoc = 7 ∧ op.stage = .write)) ∧
      ((setts.block 3).writtenNs = some 0 ∧ (0 : Int) + 30 * 24 * 3600 * 10 ^ 9 ≤ (setts.now : Int)) ∧
      (setts.upkeeps = true ∧ setts.blockOpen 65536 = true ∧ setts.blockOpen 3 = true ∧ 200000 ≤ (setts.block 65536).reads ∧ (setts.block 3).reads < 200000 ∧
        (setts.block 65536).retry = true ∧ setts.blockFree 4 = true ∧ setts.blockFree 3 = true ∧
        (setts.block 4).erases + 200 < (setts.block 3).erases ∧ setts.coldest 65536 = true) ∧
      (let s : State := { setts with sett.rebuilding := [1] }
       1 ∉ setts.sett.rebuilding ∧ s.sett.rebuilding = [1] ∧ s.upkeeps = true ∧ 1 ∈ s.sett.rebuilding ∧ 1 / 16 = 2 / 16 ∧ 2 ∉ s.sett.rebuilding ∧ 7 ∈ s.diePages 1) := by
  decide +kernel

/-! ### Configuration -/

def commits (m : Nat) : HostCmd := { id := 5, opcode := 0x04, args := [fld 31 0 m] }

theorem wit_Configuration_commit :
    let c := commits
    let s := fun (m : Nat) => ({ active with host.cmds := [commits m], cfg.pending := if m = 2 then [(1, 9)] else [], shadow := [(Reg.tsmWatermark, 5)] } : State)
    (∀ m ∈ [2, 8, 2 ^ 17], Waits (s m) 5 0x04 (c m)) ∧ (SMap.lookup (s 2).cfg.pending 1).isSome = true ∧ SMap.lookup (s 8).cfg.pending 3 = none ∧
      (((s 8).setField Reg.hmpCustody 39 0 (0xFF00010001)).setField Reg.hmpRevive 39 8 1).groupCode 3 = 0 ∧ (c 8).groupsDone = [] ∧
      (let z : State := { tracked.setField Reg.hmpDirRange 53 32 7 with shadow := [(Reg.hmpCustody, 0)] }
       z.groupCode 3 ≠ 0) ∧
      (let z : State := { active with cfg.pending := [(0, 9), (4, 9)], shadow := [(Reg.tsmWatermark, 5)] }
       (SMap.lookup z.cfg.pending 0).isSome = true ∧ z.safePoint 0 = true ∧ SMap.sorted z.shadow = true ∧
         ({ z with fw.cur := some {} } : State).safePoint 4 = false) := by
  unfold Waits; decide +kernel

/-! ### The network edge, the meter and transfers -/

/-- A message with a body for the active session, from a source the table of page 0 allows. -/
def message (body : List Byte) : NetMsg :=
  { src := { ip := 5 }, w0 := fld 63 48 0x6D73 ||| fld 47 40 1 ||| fld 31 0 body.length, w1 := 1
    bytes := body.zipIdx.map fun x => (x.2, x.1), lens := [100], doneNs := 900 }

/-- Source table entry 0 in page 0 lets address 5 send for customer 0; port 0 is up; the meter table is page 1. -/
def edges : State :=
  let s := (texts.mapPage 1 .dram 0 false 0).getD texts
  let s := ((s.setReg Reg.netSrc (fld 51 36 1)).setReg Reg.mtrTable 1).setField (Reg.netPort 0) 63 63 1
  let s := (s.setField Reg.netControl 63 48 4096).setField Reg.netControl 31 16 0x0101
  (s.setTabBytes 0 (List.replicate 15 0 ++ [5])).setTabWord 16 (fld 63 44 9 ||| 1)

theorem wit_NetworkEdge_frames :
    let f : EthFrame := { dstPort := 4096, dstMac := BitVec.allOnes 48, src := { ip := 5 }, payload := leBytes (fld 63 48 0x6D73 ||| fld 31 0 2).toNat 8 ++ List.replicate 24 0 ++ [1, 2] }
    edges.live = true ∧ edges.unitFailed 1 = false ∧ edges.plat.parkedSince = none ∧
      ({ edges with plat.parkedSince := some 5 } : State).plat.parkedSince.isSome = true ∧ edges.dropsFrame 0 { f with fcsOk := false } = true ∧ edges.dropsFrame 0 f = false ∧
      f.dstPort ≠ 4791 ∧ f.room = .room ∧ edges.net.reasm = [] ∧ 2 ≤ edges.field Reg.netControl 31 24 * 2 ^ 20 ∧
      (edges.setField Reg.netControl 31 24 0).field Reg.netControl 31 24 * 2 ^ 20 < (f.payload.drop 32).length ∧
      bits (bytesWord (f.payload.drop 24)) 63 32 = 0 ∧ bits (bytesWord f.payload) 31 0 = (f.payload.drop 32).length ∧
      (let m := message [1]
       let due := fun (m : NetMsg) => decide (m.sinceNs + msec (edges.field Reg.netControl 47 32) ≤ 10 ^ 12)
       [m].find? due = some m) := by decide +kernel

theorem wit_NetworkEdge_messages :
    let m := message (leBytes (fld 63 32 8).toNat 8 ++ leBytes (fld 63 32 1 ||| fld 31 0 0xFFFFFFFF).toNat 8 ++ List.replicate 24 0 ++ [0x61])
    let stop := message (leBytes (fld 31 28 2).toNat 8 ++ List.replicate 32 0)
    let meter := fun (w : Word) => edges.setTabWord (edges.meterAddr 0) w
    m.formatOk = true ∧ stop.formatOk = true ∧ (message []).formatOk = false ∧ edges.sourceOk 5 m.customer = true ∧ edges.sourceOk 6 m.customer = false ∧
      m.isCancel = false ∧ stop.isCancel = true ∧ edges.polTokens m.customer = false ∧ (meter (fld 60 60 1)).polTokens 0 = true ∧
      (edges.police (m.netReg edges) 0 0 100).1 ≠ .red ∧ ((meter (fld 63 62 1)).police (m.netReg edges) 0 0 100).1 = .red ∧
      (edges.tokenizeMsg m).toOption.map (·.1) = some (if (edges.hdr 0).commitLen = 0 then [mkEntry 1 0 false false] else [mkEntry 1 2 false false]) ∧ (edges.tokenizeMsg { m with w1 := 9 }).toOption = none := by
  decide +kernel

theorem wit_EgressAndMeter :
    let r : NetResp := { out := [1, 2] }
    let q : ShapedFrag := { bytes := [1] }
    (edges.egressBytes < edges.field Reg.netControl 23 16 * 2 ^ 20 ∧
      (edges.setField Reg.netControl 23 16 0).field Reg.netControl 23 16 * 2 ^ 20 ≤ edges.egressBytes ∧ edges.net.stopped = false ∧
      ({ edges with net.stopped := true, fw.responses := [r] } : State).fw.responses = [r]) ∧
      (let s : State := { edges with net.shaper := [q] }
       up.sendPort = none ∧ s.sendPort = some 0 ∧ s.shaperOrder.find? s.permits = some 0 ∧ (s.net.shaper.find? fun x => x.customer = 0) = some q) ∧
      (let c : HostCmd := { id := 5, opcode := 0x32 }
       let s : State := { edges with host.cmds := [c] }
       Waits s 5 0x32 c ∧ bits (fld 63 62 3 : Word) 63 62 = 3 ∧ (s.leaf (s.meterAddr 0 / 65536)).v = true) := by
  unfold Waits; decide +kernel

theorem wit_QueuePairs :
    let x : XferOut := { id := 1, peer := 3 }
    let q : QueuePair := { unacked := [(1, .ack 1)] }
    (∀ n ∈ [0, 7], let s : State := { edges with net.outs := [x], net.qps := [(3, { q with retries := n })], now := 10 ^ 12 }
      s.live = true ∧ s.unitFailed 1 = false ∧ s.plat.parkedSince = none ∧ s.net.outs = [x] ∧ (s.qpair 3).unacked = [(1, .ack 1)] ∧ (s.qpair 3).retries = n ∧
        (s.qpair 3).sentNs + usec (s.field Reg.netRoce 63 48) ≤ s.now) ∧
      (edges.qpair 3).unacked = [] ∧ lineRate ≤ (edges.qpair 3).rate ∧
      (let s : State := { edges with net.qps := [(3, { rate := 5, halvedNs := some 0 })] }
       (s.qpair 3).rate < lineRate ∧ (s.qpair 3).halvedNs = some 0 ∧ s.now < 0 + 50000 ∧
         max (s.qpair 3).cnpNs (s.qpair 3).raisedNs + 55000 ≤ ({ s with now := 10 ^ 6 } : State).now) := by decide +kernel

theorem wit_TransferItem :
    let it : Item := { w0 := 1, w2 := fld 63 54 2, w3 := fld 63 32 1, w4 := 0, w6 := fld 40 32 3 }
    let s := (edges.setReg Reg.netRoce 0).setTabWord 64 5
    s.live = true ∧ tagEpoch it.w1 = s.comp.map.epoch ∧ s.unitFailed 1 = false ∧ (s.setReg Reg.fltUnits 2).unitFailed 1 = true ∧ bits it.w6 63 41 = 0 ∧ bits it.w6 31 12 = 0 ∧
      s.handleCode it.w0 = 0 ∧ s.handleCode 9 ≠ 0 ∧ s.peerKnown 2 = true ∧ s.peerKnown 9 = false ∧ 0 < bits it.w3 63 32 ∧
      (let r := (s.begin_ 8 it).getBytes netCache 0 8
       r.1.toOption.isSome = true ∧ (streamPages 0 ((List.range 1).map fun i => (bytesWord ((r.1.toOption.getD []).drop (8 * i))).toNat)
         r.2).1.toOption.isSome = true) := by decide +kernel

theorem wit_SessionTransfers :
    (parked.dir 0).state ≠ .free ∧ (parked.dir 1).state = .free ∧
      (let z := tracked.setField Reg.hmpDirRange 53 32 7
       let x : Take := { waiting := [0], sinceNs := 0 }
       let t := { ((z.setHState 0 .taking).setDir 0 { z.dir 0 with state := .taking, kind := .shard }) with hmp.takes := SMap.put [] 0 x }
       SMap.lookup t.hmp.takes 0 = some x ∧ x.sinceNs + t.custodyTimeout ≤ t.now ∧ (t.dir 0).state = .taking ∧ x.waiting ≠ [] ∧
         (t.dir 0).kind = .shard ∧ { x with waiting := [] }.waiting = []) ∧
      (let z : State := tracked.setHState 0 .giving
       z.slotOfOrigin 1 = some 0 ∧ (z.dir 0).state = .giving ∧ z.slotOfOrigin 9 = none) ∧
      (let z := grouped
       let h : XferHello := { origin := 77, geometry := z.reg (Reg.kvsGeometry 0), spans := 2, pages := 3 }
       let v := (z.roceTo 3 (.ack 1)).seeOrigin 77 none
       let k := (v.recOf 77).toOption.getD 0
       z.plat.parkedSince = none ∧ (v.recOf 77).toOption.isSome = true ∧ (({ v with hmp.dirLog := none } : State).recOf 77).toOption.isSome = false ∧
         v.sameGeometry h = true ∧ v.sameGeometry { h with modules := 2 } = false ∧ h.target = 0 ∧ z.freeSlot = some 1 ∧
         (z.setField Reg.hmpDirRange 53 32 0).freeSlot = none ∧ (v.installTake 1 h .home (v.rec_ k)).isSome = true ∧
         (let g : XferHello := { h with target := fld 21 0 1 }
          let t := z.setDir 1 { z.dir 1 with state := .taking, kind := .shard, gen := hGen g.target }
          let w := (t.roceTo 3 (.ack 1)).seeOrigin 77 none
          (t.dir 1).state = .taking ∧ (t.dir 1).kind = .shard ∧ (t.dir 1).gen = hGen g.target ∧
            SMap.lookup t.fw.companions 1 = none ∧ (t.hdr 1).gram = none ∧
            (w.installTake 1 g .shard (w.rec_ k)).isSome = true ∧ (({ w with cfg.pins := [], tsm.nextVa := 2 ^ 30 } : State).installTake 1 g .shard (w.rec_ k)).isSome = false)) := by
  decide +kernel

theorem ne_next (x : BitVec 32) : x ≠ x + 1 := fun h => by
  have e := congrArg BitVec.toNat h
  rw [BitVec.toNat_add] at e
  have l := x.isLt
  have o : (1 : BitVec 32).toNat = 1 := rfl
  omega

theorem wit_RdmaWrite :
    let x : XferIn := { slot := 1, hello := { pages := 3 } }
    let d : List Byte := List.replicate 4096 0
    let s : State := { grouped with net.ins := SMap.put [] 3 x }
    (SMap.lookup s.net.ins 3 = some x ∧ SMap.lookup grouped.net.ins 3 = none ∧ 5 ≠ x.next ∧ x.next = 0 ∧ d.length = 4096 ∧
      s.plat.parkedSince = none ∧ s.Alone 1 ∧ ((s.roceTo 3 (.ack 1)).takePage 1 0 d).toOption.isSome = true) ∧
      (∃ imm, crc32c d = imm) ∧ ∃ imm, crc32c d ≠ imm :=
  ⟨⟨by decide +kernel, by decide +kernel, by decide +kernel, by decide +kernel, List.length_replicate .., by decide +kernel,
    alone_of _ _ (by decide +kernel) (by decide +kernel), by decide +kernel⟩, ⟨_, rfl⟩, ⟨_, ne_next _⟩⟩

/-! ### The management endpoint -/

theorem wit_Management :
    State.reset.answers = false ∧ up.answers = true ∧ up.updateAllowed = false ∧
      ({ up with plat.fuses := [(14, BitVec.allOnes 64)] } : State).updateAllowed = true ∧ up.plat.upd = .idle := by decide +kernel

/-- An update whose image has come whole. -/
def verifying : State := { banked up with plat.upd := .verify, plat.updComp := 0, plat.updBank := 1 }

theorem wit_UpdatesAndFuses_verify (hs : ∀ l, Config.sha384 l = 0) (he : ∀ k g d, Config.ecdsaOk k g d = true) :
    verifying.answers = true ∧ verifying.plat.upd = .verify ∧ verifying.imageOk (verifying.plat.updComp + 1) verifying.updImage = true ∧
      verifying.svnFused ≤ fwSvn verifying.updImage := by
  have h : (0 : BitVec 384) = BitVec.ofNat 384 (verifying.fuseBits 383 0) := by decide +kernel
  refine ⟨by decide +kernel, by decide +kernel, ?_, by decide +kernel⟩
  unfold State.imageOk State.signed
  simp only [hs, he, h]
  decide +kernel

theorem wit_UpdatesAndFuses :
    (∀ u ∈ [UpdState.learn, .ready, .download, .verify, .apply], ({ up with plat.upd := u } : State).answers = true ∧
        ({ up with plat.upd := u } : State).plat.upd ≠ .idle) ∧
      (let s : State := { up with plat.upd := .download, plat.updSize := 8, plat.updOffset := 4 }
       s.plat.upd = .download ∧ 4 = s.plat.updOffset ∧ 4 + ([1, 2, 3, 4] : List Byte).length = s.plat.updSize ∧ s.plat.updSize < 4 + 5 ∧
         ({ s with plat.updOffset := 8 } : State).plat.updOffset = s.plat.updSize) ∧
      (let s : State := { up with plat.upd := .verify }
       s.imageOk (s.plat.updComp + 1) s.updImage = false ∧
         fwSvn s.updImage < ({ s with plat.fuses := [(12, BitVec.allOnes 64)] } : State).svnFused) ∧
      (let s : State := { up with plat.upd := .ready, plat.updDone := [0] }
       s.plat.upd = .ready ∧ s.plat.updDone ≠ [] ∧ 0 < 8388608) ∧
      (let s : State := { up with plat.sessions := [{ id := 4, finished := true }], plat.secretMade := true }
       s.secured (some 4) = true ∧ s.secured none = false ∧ s.plat.measLog.length < 256 ∧ s.arrayBit 932 = false ∧ s.plat.secretMade = true ∧
         [800].all (fun i => i < 4096 && !(384 ≤ i && i < 640) && !s.arrayBit i) = true) ∧
      (up.plat.rails = true ∧ up.plat.stage ≠ 0 ∧ up.fuse 931 = false ∧ up.plat.measLog.length < 256 ∧ State.reset.plat.stage = 0) := by
  decide +kernel

theorem wit_Attestation :
    ∀ p ∈ [SpdmPort.mctp, .doe 0, .doe 1],
      let c : SpdmConn := { version := 1, caps := true, algs := true }
      let s := up.setConn p c
      let t : State := { s with plat.sessions := [{ port := p, id := 4, finished := true }, { port := p, id := 5 }] }
      s.answers = true ∧ s.conn p = c ∧ (up.conn p).version = 0 ∧ (up.conn p).caps = false ∧ (up.conn p).algs = false ∧
        (s.plat.sessions.filter fun x => x.port = p).length < portSessions p ∧
        (t.plat.sessions.any fun x => x.port = p && x.id = 4 && x.finished = true) = true ∧
        (t.plat.sessions.any fun x => x.port = p && x.id = 5 && x.finished = false) = true ∧
        (let full : State := { s with plat.sessions := List.replicate 4 { port := p } }
         portSessions p ≤ (full.plat.sessions.filter fun x => x.port = p).length) := by decide +kernel

/-! ### Rules stated whole -/

theorem wit_MeterSet :
    let c : HostCmd := { id := 5, opcode := 0x32, args := [0] }
    let r : Item := { w0 := fld 63 62 1, w1 := 9 }
    let s : State := { edges with host.cmds := [c] }
    Waits s 5 0x32 c ∧ bits r.w0 63 62 ≠ 3 ∧ (s.leaf (s.meterAddr 0 / 65536)).v = true ∧ s.tabled (s.meterAddr 0 / 65536) = false := by
  unfold Waits; decide +kernel

theorem wit_RingSizes :
    hosts.portUp = true ∧ ((hosts.fn 0).qp 1).en = false ∧
      (∀ n ∈ [16, 4096], 16 ≤ n ∧ n ≤ 4096 ∧ n % 16 = 0 ∧ bit (fld 63 63 1 ||| fld 28 16 n ||| fld 12 0 n) 63 = true ∧
        bits (fld 63 63 1 ||| fld 28 16 n ||| fld 12 0 n) 12 0 = n ∧ bits (fld 63 63 1 ||| fld 28 16 n ||| fld 12 0 n) 28 16 = n) ∧
      (∀ n ∈ [0, 15, 17, 4097, 4112], ¬ (16 ≤ n ∧ n ≤ 4096 ∧ n % 16 = 0)) := by decide +kernel

theorem wit_Flush :
    let s : State := (up.setReg (Reg.hqQcfg 3) (fld 41 29 1)).setQueue 3 { items := [⟨0, {}, false⟩], waiting := [{ prio := 2 }] }
    s.live = true ∧ s.isBusy busyFlush = false ∧ (up.queue 3).waiting = [] ∧ (s.queue 3).waiting.length ≤ s.qDepth 3 ∧ (s.queue 3).items.length = 1 := by decide +kernel

/-! ### A FULL image -/

/-- Values of a small image for one module that uses one model slot pattern in all sixteen. -/
def imageValue (k : Nat) : Word :=
  if Reg.kvsGeometry 0 ≤ k ∧ k < Reg.kvsGeometry 0 + 16 then fld 45 40 1 ||| fld 39 36 1 ||| fld 35 28 1 ||| fld 15 0 1
  else if k = Reg.tsmWatermark then fld 47 32 1 ||| fld 31 16 2 ||| 1
  else if k = Reg.tsmSettRation then fld 47 40 2 ||| fld 39 32 1 ||| 1
  else if k = Reg.tsmSnap then fld 47 32 1
  else if k = Reg.hmpCustody then fld 39 32 0xFF ||| fld 31 16 1 ||| 1
  else if k = Reg.hmpRevive then fld 39 8 1
  else if k = Reg.kvsAttn then fld 47 32 1
  else if k = Reg.tileFence then 1
  else if k = Reg.ctlStep then fld 63 48 1 ||| fld 47 32 1 ||| fld 31 19 1
  else if k = Reg.ctlRation then fld 47 32 1
  else if k = Reg.ctlDeadline then fld 63 48 1
  else if k = Reg.ctlSched then fld 31 16 1 ||| fld 7 4 1
  else if k = Reg.seuControl then fld 63 56 1 ||| fld 55 40 1
  else if k = Reg.seuHot then fld 63 48 1 ||| fld 47 32 1
  else if k = Reg.netControl then fld 47 32 1
  else if k = Reg.netRoce then fld 63 48 1
  else if k = Reg.trlControl then fld 63 48 1 ||| fld 47 40 1 ||| fld 39 24 1
  else if k = Reg.fabControl then fld 63 48 1 ||| fld 47 42 1 ||| 3
  else if k = Reg.fabPrefetch then fld 39 32 1 ||| fld 31 24 1 ||| fld 23 16 1
  else if k = Reg.dramScrub then 1
  else if k = Reg.ctlReqCount then 16
  else if k = Reg.ctlDieRole then 0x3333
  else if k = Reg.ctlJobTable then fld 42 36 1 ||| 4
  else if k = Reg.seuScratch then 1024
  else if k = Reg.tsmSnapStage then fld 51 36 128 ||| 16
  else 0

/-- Pairs of words as bytes. -/
def packPairs (l : List (Word × Word)) : List Byte := l.flatMap fun p => leBytes p.1.toNat 8 ++ leBytes p.2.toNat 8

theorem leWord_leBytes : ∀ n v, leWord (leBytes v n) = v % 256 ^ n
  | 0, v => by simp [leBytes, leWord, Nat.mod_one]
  | n + 1, v => by
    have h : v % 256 ^ (n + 1) = v % 256 + 256 * (v / 256 % 256 ^ n) := by rw [Nat.pow_succ', Nat.mod_mul]
    rw [leBytes, leWord, leWord_leBytes n, h]
    rfl

theorem leBytes_length : ∀ n v, (leBytes v n).length = n
  | 0, _ => rfl
  | n + 1, v => by rw [leBytes, List.length_cons, leBytes_length n]

theorem bytesWord_pack (w : Word) (l : List Byte) : bytesWord (leBytes w.toNat 8 ++ l) = w := by
  unfold bytesWord
  rw [List.take_left' (leBytes_length 8 _), leWord_leBytes]
  have h : w.toNat < 2 ^ 64 := w.isLt
  rw [Nat.mod_eq_of_lt (by omega)]
  exact BitVec.ofNat_toNat ..

theorem packPairs_length : ∀ l : List (Word × Word), (packPairs l).length = 16 * l.length
  | [] => rfl
  | p :: l => by
    rw [packPairs, List.flatMap_cons, List.length_append, List.length_append, leBytes_length, leBytes_length]
    have := packPairs_length l
    rw [packPairs] at this
    rw [this, List.length_cons]; omega

theorem packPairs_cons (p : Word × Word) (l : List (Word × Word)) :
    packPairs (p :: l) = leBytes p.1.toNat 8 ++ (leBytes p.2.toNat 8 ++ packPairs l) := by
  unfold packPairs
  rw [List.flatMap_cons, List.append_assoc]

theorem wordAt_first (p : Word × Word) (l : List (Word × Word)) : wordAt (packPairs (p :: l)) 0 = p.1 := by
  unfold wordAt
  rw [List.drop_zero, packPairs_cons, bytesWord_pack]

theorem wordAt_second (p : Word × Word) (l : List (Word × Word)) : wordAt (packPairs (p :: l)) 8 = p.2 := by
  unfold wordAt
  rw [packPairs_cons, List.drop_left' (leBytes_length 8 _), bytesWord_pack]

theorem wordAt_later (p : Word × Word) (l : List (Word × Word)) (k : Nat) : wordAt (packPairs (p :: l)) (16 + k) = wordAt (packPairs l) k := by
  unfold wordAt
  have d : (packPairs (p :: l)).drop (8 + (8 + k)) = (packPairs l).drop k := by
    rw [packPairs_cons, ← List.drop_drop, List.drop_left' (leBytes_length 8 _), ← List.drop_drop, List.drop_left' (leBytes_length 8 _)]
  rw [show 16 + k = 8 + (8 + k) by omega, d]

def pairAt (bs : List Byte) (i : Nat) : Word × Word := (wordAt bs (16 * i), wordAt bs (16 * i + 8))

theorem pairAt_later (p : Word × Word) (l : List (Word × Word)) (i : Nat) : pairAt (packPairs (p :: l)) (i + 1) = pairAt (packPairs l) i := by
  unfold pairAt
  rw [show 16 * (i + 1) = 16 + 16 * i by omega, show 16 + 16 * i + 8 = 16 + (16 * i + 8) by omega, wordAt_later, wordAt_later]

theorem pairAt_first (p : Word × Word) (l : List (Word × Word)) : pairAt (packPairs (p :: l)) 0 = p := by
  unfold pairAt
  rw [Nat.mul_zero, Nat.zero_add, wordAt_first, wordAt_second]

theorem pairsAt_pack : ∀ l : List (Word × Word), (List.range l.length).map (pairAt (packPairs l)) = l
  | [] => rfl
  | p :: l => by
    rw [List.length_cons, List.range_succ_eq_map, List.map_cons, List.map_map, pairAt_first]
    exact congrArg (p :: ·) ((List.map_congr_left fun i _ => pairAt_later p l i).trans (pairsAt_pack l))

theorem pairs_pack (l : List (Word × Word)) : pairs16 (packPairs l) = l := by
  have h := pairsAt_pack l
  unfold pairs16
  rw [packPairs_length, Nat.mul_div_cancel_left _ (by decide)]
  exact h

/-- The sections of the image (R632 to R637): records, pinned regions, no larder region, and a map of one module. -/
def fullRecs : List (Word × Word) := imageRegs.map fun k => (fld 63 56 (k / 65536) ||| fld 55 40 (k % 65536), imageValue k)
def pin (base pages kind die : Nat) : Word × Word := (BitVec.ofNat 64 base, fld 63 32 pages ||| fld 31 28 kind ||| fld 27 24 1 ||| fld 23 22 die)
def fullPins : List (Word × Word) :=
  pin 0 16 0 0 :: pin 0x100000 128 4 0 :: pin 0x1000000 16 3 0 :: pin 0x4000000 512 5 0 ::
    (List.range 4).flatMap fun d => [pin (0x10000000 * (d + 1)) 1280 1 d, pin (0x10000000 * (d + 1) + 0x8000000) 1 2 d]
def fullMap : List Byte := leBytes (fld 63 48 0xC3A9 ||| fld 47 32 1 ||| fld 15 12 1).toNat 8 ++ List.replicate 8248 0

/-- Header and section table: bodies at 256, 10688, 10880 and 10880, the signature block at 19136. -/
def fullHead : List Byte :=
  leBytes (fld 63 48 0x5C0F ||| fld 47 32 1 ||| 4).toNat 8 ++ leBytes (fld 63 32 19392 ||| 19136).toNat 8 ++ List.replicate 112 0 ++
    [(1, 256, 10416), (2, 10688, 192), (3, 10880, 0), (7, 10880, 8256)].flatMap fun x =>
      leBytes (fld 63 48 x.1).toNat 8 ++ leBytes (fld 63 32 x.2.1 ||| fld 31 0 x.2.2).toNat 8 ++ List.replicate 16 0
def fullTail : List Byte := packPairs fullPins ++ (fullMap ++ List.replicate 256 0)
def fullImage : List Byte := fullHead ++ (packPairs fullRecs ++ (List.replicate 16 0 ++ fullTail))

theorem regs_651 : imageRegs.length = 651 := by decide +kernel
theorem fullRecs_length : (packPairs fullRecs).length = 10416 := by rw [packPairs_length, fullRecs, List.length_map, regs_651]
theorem fullHead_length : fullHead.length = 256 := by decide +kernel
theorem fullPins_length : (packPairs fullPins).length = 192 := by rw [packPairs_length]; rfl
theorem fullMap_length : fullMap.length = 8256 := by rw [fullMap, List.length_append, leBytes_length, List.length_replicate]
theorem fullTail_length : fullTail.length = 8704 := by
  rw [fullTail, List.length_append, List.length_append, fullPins_length, fullMap_length, List.length_replicate]
theorem fullImage_length : fullImage.length = 19392 := by
  rw [fullImage, List.length_append, List.length_append, List.length_append, fullHead_length, fullRecs_length, List.length_replicate,
    fullTail_length]

theorem full_regs : (fullImage.drop 256).take 10416 = packPairs fullRecs := by
  rw [fullImage, List.drop_left' fullHead_length, List.take_left' fullRecs_length]
theorem full_tail : fullImage.drop 10688 = fullTail := by
  rw [fullImage, show 10688 = 256 + (10416 + 16) from rfl, ← List.drop_drop, List.drop_left' fullHead_length, ← List.drop_drop,
    List.drop_left' fullRecs_length, List.drop_left' (List.length_replicate ..)]
theorem full_pins : (fullImage.drop 10688).take 192 = packPairs fullPins := by
  rw [full_tail, fullTail, List.take_left' fullPins_length]
theorem full_rest : fullImage.drop 10880 = fullMap ++ List.replicate 256 0 := by
  rw [show 10880 = 10688 + 192 from rfl, ← List.drop_drop, full_tail, fullTail, List.drop_left' fullPins_length]
theorem full_map : (fullImage.drop 10880).take 8256 = fullMap := by
  rw [full_rest, List.take_left' fullMap_length]
theorem full_sig : fullImage.drop 19136 = List.replicate 256 0 := by
  rw [show 19136 = 10880 + 8256 from rfl, ← List.drop_drop, full_rest, List.drop_left' fullMap_length]

/-- What the bytes spell. -/
def fullCfg : CfgImage :=
  { bytes := fullImage
    sections := [.regs (imageRegs.map fun k => (k / 65536, k % 65536, imageValue k)), .pinned (fullPins.map pinOf), .larder [],
      .composition 0 fullMap] }

theorem full_recs : fullRecs.map regRecOf = imageRegs.map fun k => (k / 65536, k % 65536, imageValue k) := by decide +kernel

theorem full_entries : [secEnt fullImage 0, secEnt fullImage 1, secEnt fullImage 2, secEnt fullImage 3] =
    [⟨1, 0, 256, 10416, 0⟩, ⟨2, 0, 10688, 192, 0⟩, ⟨3, 0, 10880, 0, 0⟩, ⟨7, 0, 10880, 8256, 0⟩] := by decide +kernel

theorem full_sec0 : sectionOf fullImage ⟨1, 0, 256, 10416, 0⟩ = .regs (imageRegs.map fun k => (k / 65536, k % 65536, imageValue k)) := by
  show CfgSection.regs ((pairs16 ((fullImage.drop 256).take 10416)).map regRecOf) = _
  rw [full_regs, pairs_pack, full_recs]
theorem full_sec1 : sectionOf fullImage ⟨2, 0, 10688, 192, 0⟩ = .pinned (fullPins.map pinOf) := by
  show CfgSection.pinned ((pairs16 ((fullImage.drop 10688).take 192)).map pinOf) = _
  rw [full_pins, pairs_pack]
theorem full_sec2 : sectionOf fullImage ⟨3, 0, 10880, 0, 0⟩ = .larder [] := by
  show CfgSection.larder ((pairs16 ((fullImage.drop 10880).take 0)).map larderOf) = _
  rw [List.take_zero]; rfl
theorem full_sec3 : sectionOf fullImage ⟨7, 0, 10880, 8256, 0⟩ = .composition 0 fullMap := by
  show CfgSection.composition 0 ((fullImage.drop 10880).take 8256) = _
  rw [full_map]

theorem full_sections : CfgImage.ofBytes fullImage = fullCfg := by
  have e := full_entries
  simp only [List.cons.injEq, and_true] at e
  have n : imgSections fullImage = 4 := by decide +kernel
  unfold CfgImage.ofBytes fullCfg
  rw [n]
  show CfgImage.mk fullImage [sectionOf _ _, sectionOf _ _, sectionOf _ _, sectionOf _ _] = _
  rw [e.1, e.2.1, e.2.2.1, e.2.2.2, full_sec0, full_sec1, full_sec2, full_sec3]

theorem fullImage_regs : (imgRecords fullCfg).map recReg = imageRegs := by
  show ((imageRegs.map fun k => (k / 65536, k % 65536, imageValue k)) ++ []).map recReg = imageRegs
  rw [List.append_nil, List.map_map]
  exact (List.map_congr_left fun k _ => by show k / 65536 * 65536 + k % 65536 = k; omega).trans (List.map_id _)

theorem firstDup_nodup : ∀ l : List Nat, l.Nodup → firstDup l = none
  | [], _ => rfl
  | a :: l, h => by
    have h := List.nodup_cons.1 h
    simp [firstDup, h.1, firstDup_nodup l h.2]

def rising : List Nat → Bool
  | a :: b :: l => a < b && rising (b :: l)
  | _ => true

theorem rising_pairwise : ∀ l : List Nat, rising l = true → l.Pairwise (· < ·)
  | [], _ => .nil
  | [_], _ => List.pairwise_singleton ..
  | a :: b :: l, h => by
    simp only [rising, Bool.and_eq_true, decide_eq_true_eq] at h
    have p := rising_pairwise (b :: l) h.2
    refine List.pairwise_cons.2 ⟨fun x hx => ?_, p⟩
    rcases List.mem_cons.1 hx with rfl | hx
    · exact h.1
    · exact Nat.lt_trans h.1 ((List.pairwise_cons.1 p).1 x hx)

theorem imageRegs_rising : rising imageRegs = true := by decide +kernel

theorem wit_FullImage_records : missingReg fullCfg = none ∧ firstDup ((imgRecords fullCfg).map recReg) = none := by
  constructor
  · unfold missingReg
    rw [fullImage_regs]; show Option.map _ (imageRegs.find? _) = none; rw [List.find?_eq_none.2]
    · rfl
    · intro k hk; simp [hk]
  · rw [fullImage_regs]
    exact firstDup_nodup _ ((rising_pairwise _ imageRegs_rising).imp Nat.ne_of_lt)

theorem wit_FullImage_masks : ((imgRecords fullCfg).find? fun r =>
    recordMask (recReg r) = 0 || (r.2.2 &&& ~~~ recordMask (recReg r) ≠ 0)) = none := by decide +kernel

theorem find_record (k : Nat) : ∀ l : List Nat,
    ((l.map fun k => (k / 65536, k % 65536, imageValue k)).find? fun r => decide (recReg r = k)) =
      if l.contains k then some (k / 65536, k % 65536, imageValue k) else none
  | [] => rfl
  | a :: l => by
    have ha : recReg (a / 65536, a % 65536, imageValue a) = a := by show a / 65536 * 65536 + a % 65536 = a; omega
    rw [List.map_cons, List.find?_cons, ha, find_record k l, List.contains_cons]
    by_cases h : a = k
    · subst h; simp
    · have h' : (k == a) = false := by simpa using Ne.symm h
      simp [h, h']

def inRows (l : List RegRow) (k : Nat) : Bool := l.any fun r => r.first ≤ k && k < r.first + r.count

theorem contains_rows (l : List RegRow) (k : Nat) : (l.flatMap fun r => pageRun r.first r.count).contains k = inRows l k := by
  rw [Bool.eq_iff_iff]
  simp only [inRows, pageRun, List.contains_iff_mem, List.mem_flatMap, List.mem_map, List.mem_range, List.any_eq_true,
    Bool.and_eq_true, decide_eq_true_eq]
  exact ⟨fun ⟨r, h, a, l, e⟩ => ⟨r, h, by omega, by omega⟩, fun ⟨r, h, a, b⟩ => ⟨r, h, k - r.first, by omega, by omega⟩⟩

def imageRows : List RegRow := regRowsAll.filter fun r => r.fields.any fun f => f.reset = .image

def fullVals (k : Nat) : Word :=
  if inRows imageRows k then (up.reg k &&& ~~~ recordMask k) ||| (imageValue k &&& recordMask k) else up.reg k

theorem fullImage_vals : up.imageVal fullCfg = fullVals := by
  funext k
  have hr : imgRecords fullCfg = imageRegs.map fun k => (k / 65536, k % 65536, imageValue k) := List.append_nil _
  unfold State.imageVal fullVals
  rw [hr, find_record, show imageRegs.contains k = inRows imageRows k from contains_rows ..]
  cases inRows imageRows k <;> rfl

theorem wit_FullImage_agrees : up.fullAgree fullCfg = none := by
  unfold State.fullAgree
  rw [fullImage_vals]; decide +kernel

theorem recordErr_none (i : CfgImage) (hf : i.full = true) (hd : firstDup ((imgRecords i).map recReg) = none)
    (hm : ((imgRecords i).find? fun r => recordMask (recReg r) = 0 || (r.2.2 &&& ~~~ recordMask (recReg r) ≠ 0)) = none) :
    recordErr i = none := by
  unfold recordErr
  rw [hd]
  simp only [hf, Bool.true_and, if_true]
  rw [hm]

theorem load_full (u : State) (i : CfgImage) (hf : i.full = true) (hc : fullCounts i = none) (ha : u.fullAgree i = none) :
    ∀ w b h, u.loadMeasured i w b h = .ok (u.placeFull i w b h) := by
  intro w b h
  unfold State.loadMeasured
  rw [if_pos hf, hc, ha]; rfl

theorem agree_regs (s t : State) (h : s.regs = t.regs) (i : CfgImage) : s.fullAgree i = t.fullAgree i := by
  unfold State.fullAgree State.imageVal State.reg
  rw [h]

theorem counts_none (i : CfgImage) (a : countErr i isRegs = none) (b : countErr i isPinned = none) (c : countErr i isLarder = none)
    (d : countErr i isMap = none) (e : slotErr i = none) (f : recordErr i = none) (g : missingReg i = none) : fullCounts i = none := by
  unfold fullCounts
  rw [a, b, c, d, e, f, g]; rfl

theorem fullImage_counts : fullCounts fullCfg = none :=
  counts_none _ (by decide +kernel) (by decide +kernel) (by decide +kernel) (by decide +kernel) (by decide +kernel)
    (recordErr_none _ rfl wit_FullImage_records.2 wit_FullImage_masks) wit_FullImage_records.1

/-- Room for the image's host command: function 0 may load images. -/
def loads : State := { up with host.cmds := [{ id := 5, opcode := 0x03 }], plat.fuses := [(14, 0x100000000)] }

theorem full_full : fullCfg.full = true := by
  show (imgType fullImage = 0 : Bool) = true
  decide +kernel

theorem wit_FullImage_sender : Waits loads 5 0x03 { id := 5, opcode := 0x03 } ∧ loads.fuse 928 = true ∧ loads.loaded = false ∧
    ({ loads with plat.fuses := [] } : State).fuse 928 = false ∧ ({ loads with cfg.base := some 7 } : State).loaded = true := by
  unfold Waits; decide +kernel

theorem format_none (bs : List Byte) (es : List SecEnt) (h : headerOk bs = true) (e : (List.range (imgSections bs)).map (secEnt bs) = es)
    (s : es.findIdx? (fun e => !secOk bs e) = none)
    (d : disjoint ((es.filter fun e => e.bytes ≠ 0).map fun e => (e.off, e.off + e.bytes)) = true) : formatErr bs = none := by
  unfold formatErr
  simp only [e, h, s, d]
  rfl

def fullEnts : List SecEnt := [⟨1, 0, 256, 10416, 0⟩, ⟨2, 0, 10688, 192, 0⟩, ⟨3, 0, 10880, 0, 0⟩, ⟨7, 0, 10880, 8256, 0⟩]

theorem full_format : formatErr fullImage = none := by
  have n : imgSections fullImage = 4 := by decide +kernel
  have g : imgSigOff fullImage = 19136 := by decide +kernel
  have h : headerOk fullImage = true := by
    unfold headerOk
    rw [n, g, fullImage_length]; decide +kernel
  have e : (List.range (imgSections fullImage)).map (secEnt fullImage) = fullEnts := by decide +kernel
  have s0 : secOk fullImage ⟨1, 0, 256, 10416, 0⟩ = true := by unfold secOk; rw [n, g, full_sec0]; decide +kernel
  have s1 : secOk fullImage ⟨2, 0, 10688, 192, 0⟩ = true := by unfold secOk; rw [n, g, full_sec1]; decide +kernel
  have s2 : secOk fullImage ⟨3, 0, 10880, 0, 0⟩ = true := by unfold secOk; rw [n, g, full_sec2]; decide +kernel
  have s3 : secOk fullImage ⟨7, 0, 10880, 8256, 0⟩ = true := by unfold secOk; rw [n, g, full_sec3]; decide +kernel
  refine format_none _ _ h e ?_ (by decide +kernel)
  rw [List.findIdx?_eq_none_iff]
  intro x hx
  simp only [fullEnts, List.mem_cons, List.not_mem_nil, or_false] at hx
  rcases hx with rfl | rfl | rfl | rfl
  · rw [s0]; rfl
  · rw [s1]; rfl
  · rw [s2]; rfl
  · rw [s3]; rfl

/-- The image's signature is good when the digest of the key and the verdict of the signature say so (both are values of Config). -/
theorem full_signed (hs : ∀ l, Config.sha384 l = 0) (he : ∀ k g d, Config.ecdsaOk k g d = true) : loads.imageSigned fullImage = true := by
  have g : imgSigOff fullImage = 19136 := by decide +kernel
  have f : (0 : BitVec 384) = BitVec.ofNat 384 (loads.fuseBits 383 0) := by decide +kernel
  unfold State.imageSigned State.signed
  dsimp only
  rw [g, full_sig, he, hs, ← f]
  decide +kernel

theorem extend_loads (s : State) (h : s.plat.measLog = []) (r k : Nat) (d : BitVec 384) :
    ∃ u, s.extend r k d = some u ∧ u.regs = s.regs ∧ u.cfg = s.cfg ∧ u.mem = s.mem := by
  unfold State.extend
  rw [h]
  exact ⟨_, rfl, rfl, rfl, rfl⟩

theorem wit_FullImage : ∃ u v, loads.extend 4 4 (CfgImage.ofBytes fullImage).digest = some u ∧
    u.loadMeasured (CfgImage.ofBytes fullImage) 0 0 0 = .ok v := by
  rw [full_sections]
  obtain ⟨u, h, r, _⟩ := extend_loads loads (by decide +kernel) 4 4 fullCfg.digest
  exact ⟨u, _, h, load_full u _ full_full fullImage_counts ((agree_regs u up (r.trans (by simp only [loads])) _).trans wit_FullImage_agrees) 0 0 0⟩

/-- A DELTA image of one section without records. -/
def deltaImage : List Byte :=
  wordBytes (fld 63 48 0x5C0F ||| fld 47 32 1 ||| fld 31 28 1 ||| 1) ++ wordBytes (fld 63 32 448 ||| 192) ++ List.replicate 8 0 ++
    leBytes 7 48 ++ List.replicate 56 0 ++ wordBytes (fld 63 48 1) ++ wordBytes (fld 63 32 192) ++ List.replicate 304 0
def based (b : Nat) : State := { loads with cfg.base := some (BitVec.ofNat 384 b) }

theorem wit_DeltaImage : (CfgImage.ofBytes deltaImage).full = false ∧ formatErr deltaImage = none ∧
    (based 7).deltaErr (CfgImage.ofBytes deltaImage) = none ∧ ((based 8).deltaErr (CfgImage.ofBytes deltaImage)).isSome = true ∧
    (formatErr []).isSome = true ∧ (CfgImage.ofBytes []).full = true := by decide +kernel

theorem wit_DeltaImage_signed (hs : ∀ l, Config.sha384 l = 0) (he : ∀ k g d, Config.ecdsaOk k g d = true) :
    (based 7).imageSigned deltaImage = true := by
  have f : (0 : BitVec 384) = BitVec.ofNat 384 ((based 7).fuseBits 383 0) := by decide +kernel
  unfold State.imageSigned State.signed
  dsimp only
  rw [he, hs, ← f]
  decide +kernel

/-- An image whose signature does not verify. -/
theorem wit_DeltaImage_unsigned (he : ∀ k g d, Config.ecdsaOk k g d = false) : (based 7).imageSigned deltaImage = false := by
  unfold State.imageSigned State.signed
  dsimp only
  rw [he, Bool.and_false]

theorem load_delta (u : State) (i : CfgImage) (hf : i.full = false) (hd : u.deltaErr i = none) :
    ∃ v, u.loadMeasured i 0 0 0 = .ok v := by
  unfold State.loadMeasured
  rw [hf, if_neg (by decide), hd]
  exact ⟨_, rfl⟩

theorem wit_DeltaImage_loads : ∃ u v, (based 7).extend 4 5 (CfgImage.ofBytes deltaImage).digest = some u ∧
    u.loadMeasured (CfgImage.ofBytes deltaImage) 0 0 0 = .ok v := by
  have h : ((based 7).extend 4 5 (CfgImage.ofBytes deltaImage).digest).any (fun u => u.deltaErr (CfgImage.ofBytes deltaImage) = none) = true := by
    decide +kernel
  obtain ⟨u, e, d⟩ := (Option.any_eq_true _ _).1 h
  obtain ⟨v, l⟩ := load_delta u _ wit_DeltaImage.1 (of_decide_eq_true d)
  exact ⟨u, v, e, l⟩
/-! ### Well-formedness: each check refuses an ill-formed command -/

theorem test_wf_page : (Instr.ferryWriteDone (2 ^ 36) none).wellFormed = false := by decide
theorem test_wf_page_last : (Instr.ferryWriteDone (2 ^ 36 - 1) none).wellFormed = true := by decide
theorem test_wf_slot : (Instr.reviveHoldRelease (2 ^ 22)).wellFormed = false := by decide
theorem test_wf_module : (Instr.moduleAbsent 1024).wellFormed = false := by decide
theorem test_wf_module_last : (Instr.moduleAbsent 1023).wellFormed = true := by decide
theorem test_wf_settPage : (Instr.settRead 805306368).wellFormed = false := by decide
theorem test_wf_busy : (Instr.hqFlush 0 101).wellFormed = false ∧ (Instr.hqFlush 0 100).wellFormed = true := by decide
theorem test_wf_span : (Instr.recompBeginRetry 0 65536).wellFormed = false := by decide
theorem test_wf_layer : (Instr.ringPrefillRound 0 0 256 0 0 0 [] [] 0).wellFormed = false := by decide
theorem test_wf_block : (Instr.readDisturb (1024 * 65536) 0 0).wellFormed = false := by decide
theorem test_wf_dramPage : (Instr.retireRetry 33554432).wellFormed = false := by decide
theorem test_wf_row : (Instr.rowFillComplete 0 (2 ^ 40)).wellFormed = false := by decide
theorem test_wf_code : (Instr.commitNotice 0 65536 []).wellFormed = false := by decide

/-! ### Worked examples of the spec -/

/-- The composition epoch wrap of 00_scope.md (R19). -/
theorem test_epoch_wrap : newer (0xFFFE#16) 0x0003#16 = true ∧ newer (0xFFFE#16) 0x7FFE#16 = false := by decide

/-- The wait across the wrap of 08_tallies_queues.md (R318). -/
theorem test_wait_wrap : reached 0xFFFFFFF8#32 0x10#32 = false ∧ reached 0x10#32 0x10#32 = true := by decide

/-- The MXFP4 block of 06_matrix_tiles.md (R243): scale byte 129; 20.0, 1.3 and −7.9 become 4, 0.5 and −2 times 4. -/
theorem test_mxfp4 : mxBlock .mx4 [.fin false (20 * 2 ^ 300), .fin false (13 * 2 ^ 300 / 10), .fin true (79 * 2 ^ 300 / 10)]
    = (129, [0b0110, 0b0001, 0b1100], 0) := by decide +kernel

/-- Two-rate policing of 14_network_meter.md (R549): the buckets of a customer through the five rows of the table. -/
theorem test_trtcm_rows :
    let at_ := fun n e b => colourOf 2 n .green (refill 2 (e * 1000000) 1000 2000 20000 40000 b)
    at_ 9038 0 ⟨20000, 40000⟩ = (.green, ⟨10962, 30962⟩) ∧
    at_ 13076 1 ⟨10962, 30962⟩ = (.yellow, ⟨11962, 19886⟩) ∧
    at_ 9038 1 ⟨11962, 19886⟩ = (.green, ⟨3924, 12848⟩) := by decide +kernel

/-- A vocabulary image of a control token and a token of up to 8 bytes. -/
def oneToken (n : Nat) (str : Word) : Vocab :=
  { img := pack [2, 0, fld 63 32 96 ||| 16, 0, 0, 0, fld 63 32 64 ||| 112, 0, 0, fld 55 54 1, 0, fld 63 56 n, str, 0] }

/-- The stop string "END!" of 11_text_unit.md (R445): step 1 sends "ok " and holds "E". -/
theorem test_stop_prefix :
    detokLoop (oneToken 4 0x45206B6F) { entries := [.str [0x45#8, 0x4E#8, 0x44#8, 0x21#8]] } false 0 [1] [] []
      = some { sent := [0x6F#8, 0x6B#8, 0x20#8], held := [0x45#8], used := 1 } := by decide +kernel

/-- Its step 5: "D!\n" after a held "EN" completes the match, nothing is sent, one byte trails. -/
theorem test_stop_match :
    detokLoop (oneToken 3 0x0A2144) { entries := [.str [0x45#8, 0x4E#8, 0x44#8, 0x21#8]] } false 0 [1] [0x45#8, 0x4E#8] []
      = some { sent := [], stop := some (0, 1), used := 1 } := by decide +kernel

/-- Raising the watermarks of 17_config_image.md (R650): 128 over 96 disagrees, 128 under 192 agrees. -/
theorem test_watermarks :
    groupAgree (fun k => if k = Reg.tsmWatermark then 0x000003E800600080#64 else 0) (fun _ => {}) [] 0 = false ∧
    groupAgree (fun k => if k = Reg.tsmWatermark then 0x000003E800C00080#64 else 0) (fun _ => {}) [] 0 = true := by
  decide +kernel

/-- Priority reading of 08_tallies_queues.md (R326): a level 1 item leaves before an older level 3 item. -/
theorem test_pop_order :
    let e := fun (p n : Nat) => ({ prio := p, item := { w0 := BitVec.ofNat 64 n } } : QEntry)
    ((up.setQueue 40 { items := [e 3 1, e 1 2] }).popQueue 40).1.map (fun x => x.item.w0) = some 2 := by decide +kernel

/-- Governor roles of 20_boot_security_management.md (R731): with C0 and C1 DECODE, C2 PREFILL and C3 BOTH, 1,620 W over a
cap of 1,500 W steps die 2 down and no other. -/
theorem test_governor_first_down :
    let t := after (.govPowerSample 1620) ((up.setReg Reg.ctlDieRole 0x3211).setField Reg.pltGov 15 0 1500)
    t.dvfsTarget 2 = 2 ∧ t.dvfsTarget 0 = 3 ∧ t.dvfsTarget 1 = 3 ∧ t.dvfsTarget 3 = 3 := by decide +kernel

/-- The check symbols of 16_memory_devices.md (R606, R607): byte 227 equal to 1 has check bytes 0F, 36, 78 and 40 in codeword 0;
read as 0 it is corrected there. -/
theorem test_line_code :
    lineEcc [(227, 1#8), (256, 0x0F#8), (257, 0x36#8), (258, 0x78#8), (259, 0x40#8)] = (.clean, 0) ∧
    lineEcc [(227, 1#8)] = (.corrected, 0) ∧ residue [(227, 1#8)] = [(227, 1#8), (227, 1#8)] := by decide +kernel

/-- Two wrong symbols of one codeword are detected (R607). -/
theorem test_line_two : (lineEcc [(0, 1#8), (1, 1#8)]).1 = .uncorrectable := by decide +kernel

theorem test_wf_lineByte : (Instr.scrubRead 0 [(288, 1#8)] false).wellFormed = false := by decide

/-- An urgent decode segment preempts (R398, the example of 10_scheduling.md): a ready segment of level 1 asks for the preemption of
a running preemptible one of level 2; one of level 2 does not. -/
theorem test_preempt_request :
    let it : Item := { w3 := 7 }
    let s := fun (level : Nat) =>
      let s := (jobs.setTabWord (jobs.jobAddr 1) 0).setTabWord (jobs.jobAddr 1 + 8) (fld 27 25 level)
      (s.setDie 0 { s.die 0 with state := .running, item := it }).setDieJobs 0 { pushed := [(it, 0, 5)] }
    (∀ level ∈ [1, 2], bit ((after (.segmentPick 0 [(1, {})] {}) (s level)).reg (Reg.seqPreempt 0)) 0 = (level == 1)) := by
  decide +kernel

end Sys2Proof.Tests
end

section
/-! ### Every step answers a next state

The gates through which the commands act (of a live module, of the host port, of the management endpoint, and those built on
them) answer a next state whether they open or not, so no arm of `exec` faults or is refused (log entry 6). -/

namespace Sys2Proof.Machine

open Sys2Proof

/-- A register's kind picks the gate of its write; every other command has one gate. -/
theorem execRegisterWrite_next (r : RegRef) (v same : Word) (ns : Nat) (s : State) :
    ∃ t, execRegisterWrite r v same ns s = .next t := by
  cases r with
  | block k => exact ⟨_, rfl⟩
  | bar f off => exact ⟨_, rfl⟩

theorem exec_next (c : Instr) (s : State) : ∃ t, exec c s = .next t := by
  cases c
  case registerWrite r v same ns => exact execRegisterWrite_next r v same ns s
  all_goals exact ⟨_, rfl⟩  -- a gate applied to an effect unfolds to `.next`

theorem step_next (s : State) : s.steps := by
  unfold State.steps step
  split
  · exact ⟨_, rfl⟩
  · exact exec_next _ _

/-- Settles O2: an empty queue lets time pass, any other runs the command at its front. -/
theorem everyStepAnswers : Obligations.EveryStepAnswers := step_next

end Sys2Proof.Machine
end

section
/-! ### Registers by access code (R12, R15, R16) -/

namespace Sys2Proof.Machine

open Sys2Proof

/-! ### Register writes -/

theorem exec_registerWrite (r : RegRef) (v same : Word) (ns : Nat) (s : State) :
    exec (.registerWrite r v same ns) s = execRegisterWrite r v same ns s := rfl

theorem exec_registerWrite_block {s : State} (h : s.live = true) (k : Nat) (v same : Word) (ns : Nat) :
    exec (.registerWrite (.block k) v same ns) s = .next (s.regWrite k v same ns) := by
  rw [exec_registerWrite, execRegisterWrite, gate_live h]

theorem exec_registerWrite_bar {s : State} (h : s.portUp = true) (f : Fin 2) (off : Nat) (v same : Word) (ns : Nat) :
    exec (.registerWrite (.bar f off) v same ns) s = .next (s.writeBar f.val off v same) := by
  rw [exec_registerWrite, execRegisterWrite, portGate, if_pos h]

/-- Outside the queue registers of the cores a write is never held back by BUSY. -/
theorem State.regWrite_of_goKey_none (s : State) {k : Nat} (h : goKey k = none) (v same : Word) (ns : Nat) :
    s.regWrite k v same ns = (s.writeReg k v).setReg k ((s.writeReg k v).reg k ||| (same &&& regMask k .w1c)) := by
  simp only [State.regWrite, h]

/-- The stored part of a write: the register takes its RW and W1C bits, the shadow its RWS bits. -/
def State.storeWritten (s : State) (k : Nat) (v : Word) : State :=
  let s := s.setReg k (written k (s.reg k) v)
  s.iff (regMask k .rws ≠ 0) fun s =>
    { s with shadow := SMap.put s.shadow k ((s.reg k &&& ~~~ regMask k .rws) ||| (v &&& regMask k .rws)) }

theorem State.writeReg_eq (s : State) {k : Nat} (h : k ≠ Reg.pltGov) (v : Word) :
    s.writeReg k v = (s.storeWritten k v).woAction k v := by
  simp only [State.writeReg, if_neg h]
  rfl

theorem State.storeWritten_regs (s : State) (k : Nat) (v : Word) :
    (s.storeWritten k v).regs = (s.setReg k (written k (s.reg k) v)).regs := by
  unfold State.storeWritten State.iff
  dsimp only
  split <;> rfl

theorem State.storeWritten_of_eq_zero (s : State) {k : Nat} (h : regMask k .rws = 0) (v : Word) :
    s.storeWritten k v = s.setReg k (written k (s.reg k) v) := by
  simp [State.storeWritten, h, State.iff]

theorem State.storeWritten_shadow_of_eq_zero (s : State) {k : Nat} (h : regMask k .rws = 0) (v : Word) :
    (s.storeWritten k v).shadow = s.shadow := by
  rw [State.storeWritten_of_eq_zero s h, State.setReg_shadow]

theorem State.reg_storeWritten (s : State) (k j : Nat) (v : Word) :
    (s.storeWritten k v).reg j = if j = k then written k (s.reg k) v else s.reg j := by
  rw [State.reg_of_regs (s.storeWritten_regs k v), State.reg_setReg]

theorem State.lookup_shadow_storeWritten (s : State) {k : Nat} (h : regMask k .rws ≠ 0) (v : Word) :
    SMap.lookup (s.storeWritten k v).shadow k =
      some ((written k (s.reg k) v &&& ~~~ regMask k .rws) ||| (v &&& regMask k .rws)) := by
  have h' : decide (regMask k .rws ≠ 0) = true := decide_eq_true h
  simp only [State.storeWritten, h', State.iff_true, State.reg_setReg_same, SMap.lookup_put_same]

theorem startsAction_eq_false_iff (k : Nat) : startsAction k = false ↔
    goKey k = none ∧ inFam (Reg.tlyOp 0) 4 k = false ∧ inFam (Reg.tlyPool 0) 4 k = false ∧ k ≠ Reg.tileRemap := by
  simp [startsAction, and_assoc]

theorem goKey_eq_none_iff (k : Nat) : goKey k = none ↔
    inFam (Reg.hqPush 0) 4 k = false ∧ inFam (Reg.hqPop 0) 4 k = false ∧ k ≠ Reg.hqFlush := by
  unfold goKey
  split_ifs <;> simp_all

theorem State.woAction_of_not_startsAction (s : State) {k : Nat} (h : startsAction k = false) (v : Word) :
    s.woAction k v = s := by
  obtain ⟨hgo, hop, hpool, hmap⟩ := (startsAction_eq_false_iff k).1 h
  obtain ⟨hpush, hpop, hflush⟩ := (goKey_eq_none_iff k).1 hgo
  simp [State.woAction, *]

/-- A write to a register that starts no action, apart from PLT.GOV and its ranges (R735). -/
theorem State.regWrite_plain (s : State) {k : Nat} (hg : k ≠ Reg.pltGov) (ha : startsAction k = false) (v same : Word)
    (ns : Nat) : s.regWrite k v same ns =
      (s.storeWritten k v).setReg k (written k (s.reg k) v ||| (same &&& regMask k .w1c)) := by
  rw [State.regWrite_of_goKey_none s ((startsAction_eq_false_iff k).1 ha).1, State.writeReg_eq s hg,
    State.woAction_of_not_startsAction _ ha, State.reg_storeWritten, if_pos rfl]

theorem registerWrite_plain {s : State} {k : Nat} (hl : s.live = true) (hg : k ≠ Reg.pltGov) (ha : startsAction k = false)
    (v same : Word) (ns : Nat) :
    Does (.registerWrite (.block k) v same ns) s fun t =>
      t.reg k = ((((s.reg k &&& ~~~regMask k .rw) ||| (v &&& regMask k .rw)) &&& ~~~(v &&& regMask k .w1c)) |||
        (same &&& regMask k .w1c)) ∧
      (∀ j, j ≠ k → t.reg j = s.reg j) ∧
      (regMask k .rws = 0 → t.shadow = s.shadow) ∧
      (regMask k .rws ≠ 0 → same &&& regMask k .w1c = 0 →
        SMap.lookup t.shadow k = some ((t.reg k &&& ~~~regMask k .rws) ||| (v &&& regMask k .rws))) := by
  refine ⟨_, (exec_registerWrite_block hl k v same ns).trans (by rw [State.regWrite_plain s hg ha]), ?_, ?_, ?_, ?_⟩
  · exact State.reg_setReg_same _ _ _
  · intro j hj
    rw [State.reg_setReg_other _ _ _ _ hj, State.reg_storeWritten, if_neg hj]
  · exact fun h => State.storeWritten_shadow_of_eq_zero s h v
  · intro h hsame
    simp only [State.reg_setReg_same, hsame, BitVec.ofNat_eq_ofNat, BitVec.or_zero]
    exact State.lookup_shadow_storeWritten s h v

/-! ### Writes of WO fields -/

theorem State.field_setReg_other (s : State) {k j : Nat} (v : Word) (hi lo : Nat) (h : j ≠ k) :
    (s.setReg k v).field j hi lo = s.field j hi lo := by
  rw [State.field, State.reg_setReg_other _ _ _ _ h, State.field]

/-- Only the map and the fences of a die decide what may be bound there. -/
theorem State.remapDenied_setReg (s : State) {k : Nat} (v : Word) (d phys : Nat)
    (hmap : ∀ i < 32, Reg.tileMap (4 * d + i / 8) ≠ k) (hst : Reg.tileStatus d ≠ k) :
    (s.setReg k v).remapDenied d phys = s.remapDenied d phys := by
  have hf : (s.setReg k v).tileFenced d phys = s.tileFenced d phys := by
    rw [State.tileFenced, State.reg_setReg_other _ _ _ _ hst, State.tileFenced]
  have hp : (List.range 32).any (fun i => (s.setReg k v).physTile d i = some phys) =
      (List.range 32).any fun i => s.physTile d i = some phys := by
    refine Bool.eq_iff_iff.2 ?_
    simp only [List.any_eq_true, List.mem_range]
    refine exists_congr fun i => and_congr_right fun hi => ?_
    rw [State.physTile, State.field_setReg_other _ _ _ _ (hmap i hi), State.physTile]
  rw [State.remapDenied, hf, hp, State.remapDenied]

theorem State.woAction_tileRemap (s : State) (v : Word) :
    s.woAction Reg.tileRemap v = s.iff (bit v 16) fun s => s.tileGo v := rfl

theorem State.woAction_tlyPool (s : State) (d : Fin 4) (v : Word) :
    s.woAction (Reg.tlyPool d.val) v = s.iff (bit v 63) fun s => s.clearPeak d.val := by
  fin_cases d <;> rfl

/-- GO of TILE.REMAP without FENCE asks for a binding that R255 does not deny. -/
theorem registerWrite_tileRemap {s : State} (hl : s.live = true) {v : Word} (hgo : bit v 16 = true) (hfence : bit v 15 = false)
    (hok : s.remapDenied (bits v 14 13) (bits v 5 0) = false) (same : Word) (ns : Nat) :
    Does (.registerWrite (.block Reg.tileRemap) v same ns) s fun t =>
      t.cmp.remaps = s.cmp.remaps ++ [(bits v 14 13, bits v 10 6, bits v 5 0)] := by
  refine ⟨_, exec_registerWrite_block hl _ v same ns, ?_⟩
  have hdie : bits v 14 13 < 4 := bits_lt v 14 13
  have hmap : ∀ i < 32, Reg.tileMap (4 * bits v 14 13 + i / 8) ≠ Reg.tileRemap := by
    unfold Reg.tileMap Reg.tileRemap
    omega
  have hst : Reg.tileStatus (bits v 14 13) ≠ Reg.tileRemap := by
    unfold Reg.tileStatus Reg.tileRemap
    omega
  rw [State.regWrite_of_goKey_none s (by decide), State.writeReg_eq s (by decide),
    State.storeWritten_of_eq_zero s (by decide), State.woAction_tileRemap, hgo, State.iff_true, State.tileGo, hfence,
    if_neg Bool.false_ne_true, State.remap, State.remapDenied_setReg s _ _ _ hmap hst, hok]
  rfl

theorem State.field_clearPeak (s : State) (d : Nat) :
    (s.clearPeak d).field (Reg.tlyPool d) 28 16 = s.poolUsed d % 8192 :=
  State.field_setField_same s (Reg.tlyPool d) 28 16 (s.poolUsed d) (by decide) (by decide)

/-- CLEAR_PEAK sets PEAK to USED (R338); TLY.POOL has no W1C or RWS field. -/
theorem registerWrite_clearPeak {s : State} (hl : s.live = true) {v : Word} (hgo : bit v 63 = true) (d : Fin 4) (same : Word)
    (ns : Nat) : Does (.registerWrite (.block (Reg.tlyPool d.val)) v same ns) s fun t =>
      t.field (Reg.tlyPool d.val) 28 16 = s.poolUsed d.val % 8192 := by
  have hw1c : regMask (Reg.tlyPool d.val) .w1c = 0 := by decide +revert
  have hrws : regMask (Reg.tlyPool d.val) .rws = 0 := by decide +revert
  have hgov : Reg.tlyPool d.val ≠ Reg.pltGov := by decide +revert
  have hkey : goKey (Reg.tlyPool d.val) = none := by decide +revert
  refine ⟨_, exec_registerWrite_block hl _ v same ns, ?_⟩
  rw [State.regWrite_of_goKey_none s hkey, State.writeReg_eq s hgov, State.storeWritten_of_eq_zero s hrws,
    State.woAction_tlyPool, hgo, State.iff_true, hw1c]
  simp only [State.field, State.reg_setReg_same, BitVec.ofNat_eq_ofNat, BitVec.and_zero, BitVec.or_zero]
  exact State.field_clearPeak _ d.val

/-- A write of a function's ENABLE (R680). -/
theorem registerWrite_enable {s : State} (h : s.portUp = true) (f : Fin 2) (v same : Word) (ns : Nat) :
    Does (.registerWrite (.bar f 0x08) v same ns) s fun t => (t.fn f.val).enable = bit v 0 := by
  refine ⟨_, exec_registerWrite_bar h f _ v same ns, ?_⟩
  simp only [State.writeBar, if_true, State.fn_setFn_same]

/-- What a read answers lies within the readable fields. -/
theorem State.readReg_unnamed_bits (s : State) (k : Nat) :
    s.readReg k &&& ~~~(regMask k .ro ||| regMask k .rw ||| regMask k .w1c ||| regMask k .rws) = 0 := by
  unfold State.readReg
  rw [BitVec.and_assoc, BitVec.and_not_self]
  exact BitVec.and_zero

/-- Settles O5: plain writes, the two WO fields, ENABLE of BAR0, and the mask that every read passes. -/
theorem registerAccess : Obligations.RegisterAccess :=
  ⟨fun _ _ ns v same => ⟨fun hl hg ha => registerWrite_plain hl hg ha v same ns,
    fun hl hgo hfence hok => registerWrite_tileRemap hl hgo hfence hok same ns,
    fun d hl hgo => registerWrite_clearPeak hl hgo d same ns,
    fun f h => registerWrite_enable h f v same ns⟩, State.readReg_unnamed_bits⟩

end Sys2Proof.Machine
end

section
/-! ### Posts of completion items (R71, R327, R329) -/

namespace Sys2Proof.Machine

open Sys2Proof

/-- A register outside the blocks TLY and HQ. -/
def OffQueues (k : Nat) : Prop := k / 65536 ≠ 15 ∧ k / 65536 ≠ 16

theorem OffQueues.ne_tlyCnt {k : Nat} (h : OffQueues k) {i : Nat} (hi : i < 8) : k ≠ Reg.tlyCnt i := by
  unfold OffQueues Reg.tlyCnt at *
  omega

theorem OffQueues.ne_hqCnt {k : Nat} (h : OffQueues k) {i : Nat} (hi : i < 8) : k ≠ Reg.hqCnt i := by
  unfold OffQueues Reg.hqCnt at *
  omega

theorem State.reg_bumpBy (s : State) (k j n : Nat) :
    (s.bumpBy k n).reg j = if j = k then s.reg j + BitVec.ofNat 64 n else s.reg j := by
  split
  case isTrue h => rw [h, State.reg_bumpBy_same]
  case isFalse h => exact State.reg_bumpBy_other s k j n h

theorem State.reg_putTally (s : State) (t : Nat) (v : BitVec 32) {k : Nat} (h : k ≠ Reg.tlyCnt 4) :
    (s.putTally t v).reg k = s.reg k := State.reg_bumpBy_other _ _ _ _ h

theorem State.reg_raise (s : State) (t : Nat) {k : Nat} (h : OffQueues k) : (s.raise t).reg k = s.reg k := by
  unfold State.raise State.addTally
  split
  · exact State.reg_bump_other _ _ _ (h.ne_tlyCnt (by decide))
  · rw [State.reg_bump_other _ _ _ (h.ne_tlyCnt (by decide)), State.reg_putTally _ _ _ (h.ne_tlyCnt (by decide))]

theorem State.tally_raise (s : State) {t : Nat} (h : isReclaim t = false) : (s.raise t).tally t = s.tally t + 1 := by
  rw [State.raise, State.addTally, h, if_neg Bool.false_ne_true]
  exact (State.tally_putTally _ _ _ _).trans (if_pos rfl)

theorem State.raise_hq (s : State) (t : Nat) : (s.raise t).hq = s.hq := by simp only [State.raise_frame]

theorem State.reg_enter (s : State) (q : Nat) (e : QEntry) {k : Nat} (h : OffQueues k) : (s.enter q e).reg k = s.reg k := by
  have hbump (u : State) : (u.bump (Reg.hqCnt 0)).reg k = u.reg k := State.reg_bump_other _ _ _ (h.ne_hqCnt (by decide))
  unfold State.enter State.iff
  dsimp only
  split
  · rw [State.reg_raise _ _ h, hbump]
    rfl
  · rw [hbump]
    rfl

theorem State.enter_hq (s : State) (q : Nat) (e : QEntry) :
    (s.enter q e).hq = (s.setQueue q { s.queue q with items := (s.queue q).items ++ [e] }).hq := by
  unfold State.enter State.iff State.bump
  dsimp only
  split <;> simp only [State.raise_frame, State.bumpBy_hq]

theorem State.items_enter (s : State) (q : Nat) (e : QEntry) :
    ((s.enter q e).queue q).items = (s.queue q).items ++ [e] := by
  have h := State.queue_setQueue_same s q { s.queue q with items := (s.queue q).items ++ [e] }
  rw [State.queue, State.enter_hq]
  exact congrArg Queue.items h

/-- Without NOTIFY_EN an entry touches no tally. -/
theorem State.enter_tly (s : State) {q : Nat} (hq : q < 512) (e : QEntry) (h : bit (s.reg (Reg.hqQcfg q)) 12 = false) :
    (s.enter q e).tly = s.tly := by
  have hk : Reg.hqQcfg q ≠ Reg.hqCnt 0 := by
    unfold Reg.hqQcfg Reg.hqCnt
    omega
  have hcfg (x : Queue) : ((s.setQueue q x).bump (Reg.hqCnt 0)).reg (Reg.hqQcfg q) = s.reg (Reg.hqQcfg q) :=
    State.reg_bump_other _ _ _ hk
  simp only [State.enter, hcfg, h, State.iff_false]
  rfl

/-- A completion posted to a queue with room enters at level 0, then its tally is raised. -/
theorem State.post_of_room (s : State) {q : Nat} (h : (s.queue q).items.length < s.qDepth q) (c : Item) (a : Nat) :
    s.post q c a = (s.enter q ⟨0, c, false⟩).raise a := by
  have h0 : s.qDepth q ≠ 0 := by omega
  simp only [State.post, State.hwPush, if_neg h0, if_pos h, State.pushed]

theorem State.reg_post (s : State) (q : Nat) (c : Item) (a : Nat) {k : Nat} (h : OffQueues k) : (s.post q c a).reg k = s.reg k := by
  by_cases hroom : (s.queue q).items.length < s.qDepth q
  · rw [State.post_of_room s hroom, State.reg_raise _ _ h, State.reg_enter _ _ _ h]
  · by_cases h0 : s.qDepth q = 0
    · simp only [State.post, State.hwPush, if_pos h0, State.reg_raise _ _ h]
    · simp only [State.post, State.hwPush, if_neg h0, if_neg hroom]
      exact State.reg_bump_other _ _ _ (h.ne_hqCnt (by decide))

theorem State.posts_post (s : State) {q : Nat} (hq : q < 512) (c : Item) (a : Nat) : Posts s (s.post q c a) q c a := by
  refine ⟨fun hroom => ?_, fun hroom ha hnote => ?_⟩
  · rw [State.post_of_room s hroom, State.queue, State.raise_hq]
    exact State.items_enter s q ⟨0, c, false⟩
  · rw [State.post_of_room s hroom, State.tally_raise _ ha, State.tally, State.enter_tly s hq _ hnote, State.tally]

/-- Two states alike in what a post to queue q looks at: the queues, the queue's configuration, and the tallies. -/
structure State.SamePort (s u : State) (q : Nat) : Prop where
  queues : u.hq.queues = s.hq.queues
  cfg : u.reg (Reg.hqQcfg q) = s.reg (Reg.hqQcfg q)
  tly : u.tly = s.tly

theorem State.SamePort.trans {s u v : State} {q : Nat} (h : s.SamePort u q) (h' : u.SamePort v q) : s.SamePort v q :=
  ⟨h'.queues.trans h.queues, h'.cfg.trans h.cfg, h'.tly.trans h.tly⟩

theorem State.SamePort.bumpBy (s : State) {k q : Nat} (h : k / 65536 ≠ 16) (hq : q < 512) (n : Nat) :
    s.SamePort (s.bumpBy k n) q := by
  refine ⟨by rw [State.bumpBy_hq], State.reg_bumpBy_other _ _ _ _ ?_, State.bumpBy_tly _ _ _⟩
  unfold Reg.hqQcfg
  omega

theorem State.SamePort.iff {s : State} {q : Nat} {f : State → State} (h : s.SamePort (f s) q) (b : Bool) :
    s.SamePort (s.iff b f) q := by
  cases b
  · exact ⟨rfl, rfl, rfl⟩
  · exact h

theorem Posts.of_samePort {s u z : State} {q a : Nat} {c : Item} (h : s.SamePort u q) (hp : Posts u z q c a) : Posts s z q c a := by
  have hqueue : u.queue q = s.queue q := by rw [State.queue, h.queues, State.queue]
  have hdepth : u.qDepth q = s.qDepth q := by rw [State.qDepth, State.field, h.cfg, State.qDepth, State.field]
  have htally : u.tally a = s.tally a := by rw [State.tally, h.tly, State.tally]
  rwa [Posts, hqueue, hdepth, htally, h.cfg] at hp

/-! ### Completions of the text unit (R427, R428) -/

theorem TextItem.queue_lt (i : Item) : (TextItem.ofItem i).queue < 512 := bits_lt i.w6 40 32

theorem State.begin_samePort (s : State) (unit : Nat) (i : Item) (q : Nat) : s.SamePort (s.begin_ unit i) q :=
  ⟨rfl, rfl, rfl⟩

theorem State.textDone_posts (s : State) (i c : Item) :
    Posts s (s.textDone i c) (TextItem.ofItem i).queue c (TextItem.ofItem i).tally :=
  .of_samePort (s.begin_samePort _ _ _) (State.posts_post _ (TextItem.queue_lt i) _ _)

@[simp] theorem State.textDone_hmp (s : State) (i c : Item) : (s.textDone i c).hmp = s.hmp := by simp [State.textDone]
@[simp] theorem State.textDone_mem (s : State) (i c : Item) : (s.textDone i c).mem = s.mem := by simp [State.textDone]

theorem State.reg_textDone (s : State) (i c : Item) {k : Nat} (h : OffQueues k) : (s.textDone i c).reg k = s.reg k := by
  rw [State.textDone, State.reg_post _ _ _ _ h]
  rfl

theorem State.undefRange_keeps (s : State) (r : Nat × Nat) :
    (s.undefRange r).regs = s.regs ∧ (s.undefRange r).hq = s.hq ∧ (s.undefRange r).tly = s.tly ∧ (s.undefRange r).hmp = s.hmp :=
  ⟨rfl, rfl, rfl, rfl⟩

/-- Undefined bytes change the memory alone. -/
theorem State.undefState_keeps (s : State) (a n : Nat) :
    (s.undefState a n).regs = s.regs ∧ (s.undefState a n).hq = s.hq ∧ (s.undefState a n).tly = s.tly ∧
      (s.undefState a n).hmp = s.hmp := by
  unfold State.undefState
  split
  · exact ⟨rfl, rfl, rfl, rfl⟩
  · refine List.foldlRecOn _ _ (motive := fun u : State => u.regs = s.regs ∧ u.hq = s.hq ∧ u.tly = s.tly ∧ u.hmp = s.hmp)
      ⟨rfl, rfl, rfl, rfl⟩ fun u hu x _ => ?_
    unfold State.iff
    split
    · exact hu
    · exact hu

theorem State.reg_event (s : State) (code domain die unit step : Nat) (h d : Word) {k : Nat} (hk : k / 65536 ≠ 18) :
    (s.event code domain die unit step h d).reg k = s.reg k := by
  have hput (u : State) (n i : Nat) (w : Word) (hi : i < 4) (hn : n < 256) : (u.putEvent n i w).reg k = u.reg k := by
    refine State.reg_setReg_other _ _ _ _ ?_
    unfold Reg.fltEvent
    omega
  have hlog (u : State) (v : Nat) : (u.setField Reg.fltLog 63 32 v).reg k = u.reg k := by
    refine State.reg_setReg_other _ _ _ _ ?_
    unfold Reg.fltLog
    omega
  have hn : s.field Reg.fltLog 63 32 % 256 < 256 := Nat.mod_lt _ (by decide)
  have hattn (u : State) : (u.setAttn 1).reg k = u.reg k := State.reg_of_regs (by simp) k
  simp only [State.event, State.eventWords, hattn, hlog, hput _ _ _ _ (by decide : 0 < 4) hn, hput _ _ _ _ (by decide : 1 < 4) hn,
    hput _ _ _ _ (by decide : 2 < 4) hn, hput _ _ _ _ (by decide : 3 < 4) hn]

theorem State.noteReport_samePort (s : State) (code : Nat) (h d : Word) {q : Nat} (hq : q < 512) :
    s.SamePort (s.noteReport code h d) q := by
  refine .iff ⟨by simp, State.reg_event _ _ _ _ _ _ _ _ ?_, by simp⟩ _
  unfold Reg.hqQcfg
  omega

/-- What a failed item changes before its completion: its output and the counts and records of its code. -/
def State.textNoted (s : State) (i : Item) (code : Nat) : State :=
  let t := TextItem.ofItem i
  let s := if t.op ≤ 2 then s.undefState t.dst ((if t.op = 0 then 4 else 1) * t.cap) else s
  (s.iff (code = Code.textControl) fun s => s.bump (Reg.txtCnt 6)).noteReport code i.w0 0

theorem State.textFail_eq (s : State) (i : Item) (code index err : Nat) :
    s.textFail i code index err = (s.textNoted i code).textDone i (textCompletion i code 0 0 0 index 0 0 err) := rfl

theorem State.textNoted_samePort (s : State) (i : Item) (code : Nat) {q : Nat} (hq : q < 512) : s.SamePort (s.textNoted i code) q := by
  have hundef (a n : Nat) : s.SamePort (s.undefState a n) q := by
    obtain ⟨hregs, hhq, htly, -⟩ := s.undefState_keeps a n
    exact ⟨by rw [hhq], State.reg_of_regs hregs _, htly⟩
  have hout : s.SamePort (if (TextItem.ofItem i).op ≤ 2 then
      s.undefState (TextItem.ofItem i).dst ((if (TextItem.ofItem i).op = 0 then 4 else 1) * (TextItem.ofItem i).cap) else s) q := by
    split
    · exact hundef _ _
    · exact ⟨rfl, rfl, rfl⟩
  exact (hout.trans (.iff (.bumpBy _ (by decide) hq _) _)).trans (State.noteReport_samePort _ _ _ _ hq)

theorem State.textNoted_hmp (s : State) (i : Item) (code : Nat) : (s.textNoted i code).hmp = s.hmp := by
  have hundef (a n : Nat) : (s.undefState a n).hmp = s.hmp := by
    obtain ⟨-, -, -, hhmp⟩ := s.undefState_keeps a n
    exact hhmp
  simp only [State.textNoted, State.noteReport_frame, State.iff]
  split_ifs <;> simp [State.bump, hundef]

/-- An item of the text unit fails with a code: its completion is posted as from a state u on, and u's sessions stay (R428). -/
def TextFails (s u : State) (item : Item) (code : Nat) (c : Instr) : Prop :=
  Does c s fun z => Posts u z (TextItem.ofItem item).queue (textCompletion item code 0 0 0 noIndex 0 0 0)
    (TextItem.ofItem item).tally ∧ z.hmp = u.hmp

theorem TextFails.of_textFail {s u v : State} {item : Item} {code : Nat} {c : Instr}
    (h : exec c s = .next (v.textFail item code noIndex 0)) (hp : u.SamePort v (TextItem.ofItem item).queue)
    (hh : v.hmp = u.hmp) : TextFails s u item code c := by
  refine ⟨_, h, ?_, ?_⟩
  · rw [State.textFail_eq]
    exact .of_samePort (hp.trans (State.textNoted_samePort _ _ _ (TextItem.queue_lt item))) (State.textDone_posts _ _ _)
  · rw [State.textFail_eq, State.textDone_hmp, State.textNoted_hmp, hh]

/-! ### The checks before an item's work (R54, R424, R425, R689, R694) -/

theorem exec_of_mem_textItems {item : Item} {x : Instr × Nat} (hx : x ∈ textItems item) (s : State) :
    ∃ run, exec x.1 s = textItem x.2 item s run := by
  simp only [textItems, List.mem_cons, List.not_mem_nil, or_false] at hx
  rcases hx with rfl | rfl | rfl | rfl | rfl | rfl | rfl <;> (unfold exec; exact ⟨_, rfl⟩)

section checks

variable {s : State} {item : Item} {op : Nat} (run : TextItem → Nat → State → State)

/-- The row is the item's own, and no item of its session stands before it. -/
theorem textItem_begins (hop : (TextItem.ofItem item).op = op ∨ textReserved item = true)
    (hhand : ∀ y ∈ s.handBefore textReader item, y.w0 ≠ item.w0) :
    (((TextItem.ofItem item).op ≠ op && !textReserved item) ||
      (s.handBefore textReader item).any (fun x => x.w0 = item.w0)) = false := by
  have hown : ((TextItem.ofItem item).op ≠ op && !textReserved item) = false := by
    rcases hop with h | h <;> simp [h]
  have hfirst : (s.handBefore textReader item).any (fun x => x.w0 = item.w0) = false := by
    simpa using hhand
  rw [hown, hfirst, Bool.or_false]

variable (hl : s.live = true) (hop : (TextItem.ofItem item).op = op ∨ textReserved item = true)
  (hhand : ∀ y ∈ s.handBefore textReader item, y.w0 ≠ item.w0)

include hl hop hhand

theorem textItem_unitFailed (hu : s.unitFailed 0 = true) :
    textItem op item s run = .next (s.textFail item Code.unitFailed noIndex 0) := by
  simp only [textItem, gate_live hl, textItem_begins hop hhand, hu, if_true, Bool.false_eq_true, if_false]

theorem textItem_invalidField (hu : s.unitFailed 0 = false) (hbad : textReserved item = true ∨ textOk item = false) :
    textItem op item s run = .next (s.textFail item Code.invalidField noIndex 0) := by
  have hbad' : (textReserved item || !textOk item) = true := by simpa using hbad
  simp only [textItem, gate_live hl, textItem_begins hop hhand, hu, hbad', if_true, Bool.false_eq_true, if_false]

variable (hu : s.unitFailed 0 = false) (hres : textReserved item = false) (hok : textOk item = true)

include hu hres hok

theorem textItem_noSession (h0 : item.w0 = 0) :
    textItem op item s run = .next (s.textFail item Code.badHandle noIndex 0) := by
  rw [textItem, gate_live hl]
  dsimp only
  rw [textItem_begins hop hhand]
  simp only [hu, hres, hok, h0, if_true, Bool.false_eq_true, if_false,
    Bool.not_true, Bool.or_false]

theorem textItem_badHandle (h0 : item.w0 ≠ 0) (hc : s.homeCode item.w0 ≠ 0) :
    textItem op item s run =
      .next ((s.noteStale (s.homeCode item.w0)).textFail item (s.homeCode item.w0) noIndex 0) := by
  rw [textItem, gate_live hl]
  dsimp only
  rw [textItem_begins hop hhand]
  simp only [hu, hres, hok, h0, hc, if_true, Bool.false_eq_true, if_false,
    Bool.not_true, Bool.or_false, ne_eq, not_false_eq_true]

theorem textItem_vocabLost (h0 : item.w0 ≠ 0) (hc : s.homeCode item.w0 = 0) (hsnap : tagSnap item.w1 = false)
    (hlost : s.vocabLost (TextItem.ofItem item).vocab = true) :
    textItem op item s run = .next (s.textFail item Code.poisoned noIndex 0) := by
  rw [textItem, gate_live hl]
  dsimp only
  rw [textItem_begins hop hhand]
  simp only [hu, hres, hok, h0, hc, hsnap, hlost, if_true, Bool.false_eq_true,
    if_false, Bool.not_true, Bool.or_false, Bool.true_or, ne_eq, not_true_eq_false]

end checks

theorem State.noteStale_samePort (s : State) (code : Nat) {q : Nat} (hq : q < 512) : s.SamePort (s.noteStale code) q :=
  .iff (.bumpBy s (by decide) hq 1) _

/-- The five ways in which an item fails before its work begins. -/
theorem textItem_fails {s : State} {item : Item} {x : Instr × Nat} (hx : x ∈ textItems item) (hl : s.live = true)
    (hop : (TextItem.ofItem item).op = x.2 ∨ textReserved item = true)
    (hhand : ∀ y ∈ s.handBefore textReader item, y.w0 ≠ item.w0) :
    (s.unitFailed 0 = true → TextFails s s item Code.unitFailed x.1) ∧
    (s.unitFailed 0 = false → textReserved item = true ∨ textOk item = false → TextFails s s item Code.invalidField x.1) ∧
    (s.unitFailed 0 = false → textReserved item = false → textOk item = true → item.w0 = 0 →
      TextFails s s item Code.badHandle x.1) ∧
    (s.unitFailed 0 = false → textReserved item = false → textOk item = true → item.w0 ≠ 0 → s.homeCode item.w0 ≠ 0 →
      TextFails s s item (s.homeCode item.w0) x.1) ∧
    (s.unitFailed 0 = false → textReserved item = false → textOk item = true → item.w0 ≠ 0 → s.homeCode item.w0 = 0 →
      tagSnap item.w1 = false → s.vocabLost (TextItem.ofItem item).vocab = true → TextFails s s item Code.poisoned x.1) := by
  obtain ⟨run, hrun⟩ := exec_of_mem_textItems hx s
  have hself : s.SamePort s (TextItem.ofItem item).queue := ⟨rfl, rfl, rfl⟩
  refine ⟨fun hu => ?_, fun hu hbad => ?_, fun hu hres hok h0 => ?_, fun hu hres hok h0 hc => ?_,
    fun hu hres hok h0 hc hsnap hlost => ?_⟩
  · exact .of_textFail (hrun.trans (textItem_unitFailed run hl hop hhand hu)) hself rfl
  · exact .of_textFail (hrun.trans (textItem_invalidField run hl hop hhand hu hbad)) hself rfl
  · exact .of_textFail (hrun.trans (textItem_noSession run hl hop hhand hu hres hok h0)) hself rfl
  · exact .of_textFail (hrun.trans (textItem_badHandle run hl hop hhand hu hres hok h0 hc))
      (s.noteStale_samePort _ (TextItem.queue_lt item)) (by simp)
  · exact .of_textFail (hrun.trans (textItem_vocabLost run hl hop hhand hu hres hok h0 hc hsnap hlost)) hself rfl

/-! ### The work of an item that passes its checks -/

theorem State.underCfg_of_fresh {s : State} {i : Item} (h : ∀ o ∈ s.hq.old, o.item ≠ i) (f : State → State) :
    s.underCfg i f = f s := by
  have hnone : (s.hq.old.find? fun o => o.item = i) = none := by simpa using h
  rw [State.underCfg, hnone]

/-- A tag of the current epoch is handled by the current map. -/
theorem State.byMap_of_current {s : State} {tag : Word} (h : tagEpoch tag = s.comp.map.epoch) (f : State → State) :
    s.byMap tag f = f s := by
  unfold State.byMap
  split
  · rfl
  · next m hm =>
    refine if_neg ?_
    simp only [Bool.and_eq_true, decide_eq_true_eq, not_and, not_not, h]
    exact Eq.symm

theorem State.cacheText_eq (s : State) (slot : Nat) : ∃ l, s.cacheText slot = { s with txt.cached := l } := by
  unfold State.cacheText
  split
  · exact ⟨_, rfl⟩
  · exact ⟨s.txt.cached, rfl⟩

theorem State.cacheText_vocab? (s : State) (slot v : Nat) : (s.cacheText slot).vocab? v = s.vocab? v := by
  obtain ⟨l, h⟩ := s.cacheText_eq slot
  rw [h]
  rfl

theorem State.reg_cacheText (s : State) (slot k : Nat) : (s.cacheText slot).reg k = s.reg k := by
  obtain ⟨l, h⟩ := s.cacheText_eq slot
  rw [h]
  rfl

theorem textItem_ready {s : State} {item : Item} {op : Nat} (hl : s.live = true) (hop : (TextItem.ofItem item).op = op)
    (h : s.TextReady item) (run : TextItem → Nat → State → State) :
    textItem op item s run = .next (run (TextItem.ofItem item) (hSlot item.w0) (s.cacheText (hSlot item.w0))) := by
  obtain ⟨hu, hhand, hres, hok, h0, hc, hsnap, hvocab, hgram, hold, hepoch⟩ := h
  obtain ⟨l, hcache⟩ := s.cacheText_eq (hSlot item.w0)
  have hgram' : (decide (2 ≤ op) && s.gramLost (hSlot item.w0)) = false := by
    rw [← hop]
    simpa using hgram
  have hcfg (f : State → State) : (s.cacheText (hSlot item.w0)).underCfg item f = f (s.cacheText (hSlot item.w0)) :=
    State.underCfg_of_fresh (by rw [hcache]; exact hold) f
  have hmap (f : State → State) : (s.cacheText (hSlot item.w0)).byMap item.w1 f = f (s.cacheText (hSlot item.w0)) :=
    State.byMap_of_current (by rw [hcache]; exact hepoch) f
  rw [textItem, gate_live hl]
  dsimp only
  rw [textItem_begins (.inl hop) hhand]
  simp only [hu, hres, hok, h0, hc, hsnap, hvocab, hgram', hcfg, hmap,
    Bool.false_eq_true, if_false, Bool.not_true, Bool.or_false, ne_eq, not_true_eq_false]

/-! ### Reads of a unit -/

theorem State.touch_regs (s : State) (p : Nat) : (s.touch p).regs = s.regs := by
  unfold State.touch State.iff
  split
  · rw [State.setLeaf_regs]
  · rfl

/-- The translation of a read changes no register. -/
theorem State.translate_read_regs (s : State) (cache a : Nat) (data : Bool) :
    (s.translate cache a false data).2.regs = s.regs := by
  unfold State.translate
  split
  · rfl
  · dsimp only
    split
    · exact s.touch_regs _
    · simp only [Bool.false_eq_true, if_false, Bool.false_and]
      split
      · rfl
      · next l u hfilled =>
        have hu : u.regs = s.regs := by
          split at hfilled
          · cases hfilled
            rfl
          · split at hfilled
            · cases hfilled
            · cases hfilled
              rfl
        rw [State.touch_regs, hu]

theorem State.reg_countPool (s : State) (t : Tier) (w : Bool) (n : Nat) {k : Nat} (h : k / 65536 ≠ 9) :
    (s.countPool t w n).reg k = s.reg k := by
  unfold State.countPool State.iff
  split
  · refine State.reg_bumpBy_other _ _ _ _ ?_
    unfold Reg.fabCnt
    split <;> omega
  · rfl

/-- A read changes no register outside the block FAB. -/
theorem reg_readPieces (cache : Nat) (ps : List (Nat × Nat × Nat)) (s : State) {k : Nat} (h : k / 65536 ≠ 9) :
    (readPieces cache ps s).2.reg k = s.reg k := by
  induction ps generalizing s with
  | nil => rfl
  | cons p ps ih =>
    obtain ⟨a, off, n⟩ := p
    have htr := s.translate_read_regs cache a true
    unfold readPieces
    split
    · next c u e => exact State.reg_of_regs (by rw [← htr, e]) k
    · next u e => exact State.reg_of_regs (by rw [← htr, e]) k
    · next tier loc u e =>
      have hu : u.reg k = s.reg k := State.reg_of_regs (by rw [← htr, e]) k
      dsimp only
      split
      · exact hu
      · split
        · exact hu
        · have hrest : (readPieces cache ps (u.countPool tier false n)).2.reg k = s.reg k := by
            rw [ih, State.reg_countPool _ _ _ _ h, hu]
          split
          · next bs w e' => rwa [e'] at hrest
          · exact hrest

theorem State.reg_getBytes (s : State) (cache a n : Nat) {k : Nat} (h : k / 65536 ≠ 9) :
    (s.getBytes cache a n).2.reg k = s.reg k := by
  unfold State.getBytes
  split
  · rfl
  · exact reg_readPieces _ _ _ h

/-! ### TOKENIZE and DETOKENIZE (R435 to R448) -/

theorem State.reg_setHdr (s : State) (slot : Nat) (h : Header) (k : Nat) : (s.setHdr slot h).reg k = s.reg k := rfl

/-- The state after the output of a TOKENIZE is written: the carry kept, the work counted, the completion posted. -/
def State.endTokenize (s : State) (item : Item) (r : Tokenized) : State :=
  let slot := hSlot item.w0
  let len := (TextItem.ofItem item).len
  let s := s.setHdr slot ((s.hdr slot).setInBytes r.carry)
  let s := ((s.bumpBy (Reg.txtCnt 0) r.toks.length).bumpBy (Reg.txtCnt 1) len).bumpBy (Reg.txtCnt 3) r.replaced
  (s.bumpBy (Reg.txtCnt 4) r.fallback).textDone item (textCompletion item 0 r.toks.length len r.replaced noIndex 0 0 0)

theorem exec_tokenize (item : Item) (s : State) : exec (.tokenize item) s = execTokenize item s := rfl

theorem exec_tokenize_ready {s u : State} {item : Item} {v : Vocab} {src : List Byte} {r : Tokenized} (hl : s.live = true)
    (h : s.TextReady item) (hop : (TextItem.ofItem item).op = 0) (hv : s.vocab? (TextItem.ofItem item).vocab = some v)
    (hsrc : (s.cacheText (hSlot item.w0)).getBytes textCache (TextItem.ofItem item).src (TextItem.ofItem item).len = (.ok src, u))
    (hr : tokenizeBytes v (TextItem.ofItem item)
      ((TextItem.ofItem item).escape = 1 || (tagClass item.w1 = 1 && bit (s.reg Reg.txtControl) 9))
      ((u.hdr (hSlot item.w0)).inBytes ++ src) = .ok r) :
    exec (.tokenize item) s = .next (
      if (TextItem.ofItem item).cap < r.toks.length then u.textFail item Code.textOverflow noIndex 0
      else u.textWrite item (bytes32 (r.toks.map fun k => mkEntry k (TextItem.ofItem item).origin false false)) fun y =>
        y.endTokenize item r) := by
  have hctl : u.reg Reg.txtControl = s.reg Reg.txtControl := by
    have hu := State.reg_getBytes (s.cacheText (hSlot item.w0)) textCache (TextItem.ofItem item).src
      (TextItem.ofItem item).len (k := Reg.txtControl) (by decide)
    rwa [hsrc, State.reg_cacheText] at hu
  rw [exec_tokenize, execTokenize, textItem_ready hl hop h, State.cacheText_vocab?, hv]
  simp only [State.textRead, hsrc, hctl, hr]
  rfl

theorem State.hdr_of_hmp {s t : State} (h : t.hmp = s.hmp) (n : Nat) : t.hdr n = s.hdr n := by
  rw [State.hdr, h, State.hdr]

theorem State.samePort_setHdr (s : State) (slot : Nat) (h : Header) (q : Nat) : s.SamePort (s.setHdr slot h) q := ⟨rfl, rfl, rfl⟩

theorem offQueues_txtCnt {i : Nat} (hi : i < 8) : OffQueues (Reg.txtCnt i) := by
  unfold OffQueues Reg.txtCnt
  omega

theorem State.SamePort.bumpTxt (s : State) {i q : Nat} (hi : i < 8) (hq : q < 512) (n : Nat) :
    s.SamePort (s.bumpBy (Reg.txtCnt i) n) q := .bumpBy s (offQueues_txtCnt hi).2 hq n

/-- The counters of the text unit after a rise of one of them. -/
theorem State.reg_txtCnt_bumpBy (s : State) (i j n : Nat) : (s.bumpBy (Reg.txtCnt i) n).reg (Reg.txtCnt j) =
    if j = i then s.reg (Reg.txtCnt j) + BitVec.ofNat 64 n else s.reg (Reg.txtCnt j) := by
  rw [State.reg_bumpBy]
  unfold Reg.txtCnt
  simp only [Nat.add_left_cancel_iff]

theorem State.endTokenize_posts (y : State) (item : Item) (r : Tokenized) :
    Posts y (y.endTokenize item r) (TextItem.ofItem item).queue
      (textCompletion item 0 r.toks.length (TextItem.ofItem item).len r.replaced noIndex 0 0 0) (TextItem.ofItem item).tally := by
  have hq := TextItem.queue_lt item
  refine .of_samePort ?_ (State.textDone_posts _ _ _)
  exact ((((y.samePort_setHdr _ _ _).trans (.bumpTxt _ (by decide) hq _)).trans (.bumpTxt _ (by decide) hq _)).trans
    (.bumpTxt _ (by decide) hq _)).trans (.bumpTxt _ (by decide) hq _)

theorem State.endTokenize_hmp (y : State) (item : Item) (r : Tokenized) :
    (y.endTokenize item r).hmp = (y.setHdr (hSlot item.w0) ((y.hdr (hSlot item.w0)).setInBytes r.carry)).hmp := by
  simp only [State.endTokenize, State.textDone_hmp, State.bumpBy_hmp]

theorem State.endTokenize_mem (y : State) (item : Item) (r : Tokenized) : (y.endTokenize item r).mem = y.mem := by
  simp only [State.endTokenize, State.textDone_mem, State.bumpBy_mem, State.setHdr_mem]

/-- What the four counters of a TOKENIZE add. -/
theorem State.reg_endTokenize (y : State) (item : Item) (r : Tokenized) :
    let z := y.endTokenize item r
    z.reg (Reg.txtCnt 0) = y.reg (Reg.txtCnt 0) + BitVec.ofNat 64 r.toks.length ∧
      z.reg (Reg.txtCnt 1) = y.reg (Reg.txtCnt 1) + BitVec.ofNat 64 (TextItem.ofItem item).len ∧
      z.reg (Reg.txtCnt 3) = y.reg (Reg.txtCnt 3) + BitVec.ofNat 64 r.replaced ∧
      z.reg (Reg.txtCnt 4) = y.reg (Reg.txtCnt 4) + BitVec.ofNat 64 r.fallback := by
  have hdone (s : State) (c : Item) {i : Nat} (hi : i < 8) : (s.textDone item c).reg (Reg.txtCnt i) = s.reg (Reg.txtCnt i) :=
    State.reg_textDone _ _ _ (offQueues_txtCnt hi)
  refine ⟨?_, ?_, ?_, ?_⟩ <;>
    · rw [State.endTokenize, hdone _ _ (by decide)]
      simp [State.reg_txtCnt_bumpBy, State.reg_setHdr]

/-- The state after the output of a DETOKENIZE is written: the bytes held kept, the work counted, the completion posted. -/
def State.endDetokenize (s : State) (item : Item) (r : Detok) : State :=
  let slot := hSlot item.w0
  let out := sanitize r.sent
  let stop := r.stop.getD (noIndex, 0)
  let s := s.setHdr slot ((s.hdr slot).setHold r.held)
  let s := (s.bumpBy (Reg.txtCnt 2) out.1.length).bumpBy (Reg.txtCnt 3) out.2
  (s.iff r.stop.isSome fun s => s.bump (Reg.txtCnt 5)).textDone item
    (textCompletion item 0 out.1.length r.used out.2 stop.1 stop.2 r.held.length 0)

theorem exec_detokenize (item : Item) (s : State) : exec (.detokenize item) s = execDetokenize item s := rfl

theorem exec_detokenize_ready {s u : State} {item : Item} {v : Vocab} {src : List Byte} {r : Detok} (hl : s.live = true)
    (h : s.TextReady item) (hop : (TextItem.ofItem item).op = 1) (hv : s.vocab? (TextItem.ofItem item).vocab = some v)
    (hsrc : (s.cacheText (hSlot item.w0)).getBytes textCache (TextItem.ofItem item).src (4 * (TextItem.ofItem item).len) =
      (.ok src, u))
    (hr : detokLoop v (u.stopSet (TextItem.ofItem item).stopSet) (TextItem.ofItem item).final 0 ((words32 src).map entryToken)
      (u.hdr (hSlot item.w0)).holdBytes [] = some r) :
    exec (.detokenize item) s = .next (
      if (TextItem.ofItem item).cap < (sanitize r.sent).1.length then u.textFail item Code.textOverflow noIndex 0
      else u.textWrite item (sanitize r.sent).1 fun y => y.endDetokenize item r) := by
  rw [exec_detokenize, execDetokenize, textItem_ready hl hop h, State.cacheText_vocab?, hv]
  simp only [State.textRead, hsrc, hr]
  rfl

theorem State.endDetokenize_posts (y : State) (item : Item) (r : Detok) :
    Posts y (y.endDetokenize item r) (TextItem.ofItem item).queue
      (textCompletion item 0 (sanitize r.sent).1.length r.used (sanitize r.sent).2 (r.stop.getD (noIndex, 0)).1
        (r.stop.getD (noIndex, 0)).2 r.held.length 0) (TextItem.ofItem item).tally := by
  have hq := TextItem.queue_lt item
  refine .of_samePort ?_ (State.textDone_posts _ _ _)
  exact (((y.samePort_setHdr _ _ _).trans (.bumpTxt _ (by decide) hq _)).trans (.bumpTxt _ (by decide) hq _)).trans
    (.iff (.bumpTxt _ (by decide) hq 1) _)

theorem State.endDetokenize_hmp (y : State) (item : Item) (r : Detok) :
    (y.endDetokenize item r).hmp = (y.setHdr (hSlot item.w0) ((y.hdr (hSlot item.w0)).setHold r.held)).hmp := by
  cases h : r.stop.isSome <;> simp [State.endDetokenize, h, State.bump]

theorem State.endDetokenize_mem (y : State) (item : Item) (r : Detok) : (y.endDetokenize item r).mem = y.mem := by
  cases h : r.stop.isSome <;> simp [State.endDetokenize, h, State.bump]

/-- What the three counters of a DETOKENIZE add. -/
theorem State.reg_endDetokenize (y : State) (item : Item) (r : Detok) :
    let z := y.endDetokenize item r
    z.reg (Reg.txtCnt 2) = y.reg (Reg.txtCnt 2) + BitVec.ofNat 64 (sanitize r.sent).1.length ∧
      z.reg (Reg.txtCnt 3) = y.reg (Reg.txtCnt 3) + BitVec.ofNat 64 (sanitize r.sent).2 ∧
      z.reg (Reg.txtCnt 5) = y.reg (Reg.txtCnt 5) + BitVec.ofNat 64 (bnat r.stop.isSome) := by
  have hdone (s : State) (c : Item) {i : Nat} (hi : i < 8) : (s.textDone item c).reg (Reg.txtCnt i) = s.reg (Reg.txtCnt i) :=
    State.reg_textDone _ _ _ (offQueues_txtCnt hi)
  refine ⟨?_, ?_, ?_⟩ <;>
    · rw [State.endDetokenize, hdone _ _ (by decide)]
      cases r.stop.isSome <;> simp [State.reg_txtCnt_bumpBy, State.reg_setHdr, State.bump, bnat]

/-- An item whose output is longer than DST_CAP fails; one whose output is written ends as its operation says. -/
theorem textOutput_cases {c : Instr} {s u : State} {item : Item} {bs : List Byte} {n : Nat} {done : State → State}
    (h : exec c s = .next (
      if (TextItem.ofItem item).cap < n then u.textFail item Code.textOverflow noIndex 0 else u.textWrite item bs done)) :
    ((TextItem.ofItem item).cap < n → TextFails s u item Code.textOverflow c) ∧
      (n ≤ (TextItem.ofItem item).cap → ∀ y, u.putBytes textCache (TextItem.ofItem item).dst bs = .done y →
        exec c s = .next (done y)) := by
  refine ⟨fun hover => ?_, fun hfits y hy => ?_⟩
  · rw [if_pos hover] at h
    exact TextFails.of_textFail h ⟨rfl, rfl, rfl⟩ rfl
  · rwa [if_neg (Nat.not_lt.2 hfits), State.textWrite, hy] at h

/-- Settles O35: the checks of every item, then TOKENIZE and DETOKENIZE of an item that passes them. -/
theorem textTokens : Obligations.TextTokens := by
  intro s item hl
  refine ⟨fun x hx hop hhand => textItem_fails hx hl hop hhand, fun hready v u src hv => ⟨?_, ?_⟩⟩
  · intro hop hsrc r hr
    obtain ⟨hover, hfits⟩ := textOutput_cases (exec_tokenize_ready hl hready hop hv hsrc hr)
    refine ⟨hover, fun hle y hy => ⟨_, hfits hle y hy, ?_⟩⟩
    obtain ⟨h0, h1, h3, h4⟩ := y.reg_endTokenize item r
    have hhdr (n : Nat) := (State.hdr_of_hmp (y.endTokenize_hmp item r) n).trans (State.hdr_setHdr _ _ _ _)
    exact ⟨(hhdr _).trans (if_pos rfl), fun n hn => (hhdr n).trans (if_neg hn), y.endTokenize_mem item r, h0, h1, h3, h4,
      y.endTokenize_posts item r⟩
  · intro hop hsrc r hr
    obtain ⟨hover, hfits⟩ := textOutput_cases (exec_detokenize_ready hl hready hop hv hsrc hr)
    refine ⟨hover, fun hle y hy => ⟨_, hfits hle y hy, ?_⟩⟩
    obtain ⟨h2, h3, h5⟩ := y.reg_endDetokenize item r
    have hhdr (n : Nat) := (State.hdr_of_hmp (y.endDetokenize_hmp item r) n).trans (State.hdr_setHdr _ _ _ _)
    exact ⟨(hhdr _).trans (if_pos rfl), fun n hn => (hhdr n).trans (if_neg hn), y.endDetokenize_mem item r, h2, h3, h5,
      y.endDetokenize_posts item r⟩

end Sys2Proof.Machine
end

section
/-! ### Power events and the boot sequence (R51, R708 to R719, R738 to R743, R753, R754) -/

namespace Sys2Proof.Machine

open Sys2Proof

/-! ### What a reset leaves (R709) -/

theorem State.byte_cleared (s : State) (rails : Bool) (stage cause a : Nat) :
    (s.cleared rails stage cause).byte a = if a / 2 ^ 64 = 2 ∨ a / 2 ^ 64 = 3 then s.byte a else 0 := by
  have hkept := SMap.lookup_filter_key (fun k => decide (k / 2 ^ 64 = 2) || decide (k / 2 ^ 64 = 3)) s.mem a
  simp only [State.byte, SMap.get, State.cleared, hkept, Bool.or_eq_true, decide_eq_true_eq]
  split <;> rfl

theorem State.cleared_cleared (s : State) (rails : Bool) (stage cause : Nat) : Cleared s (s.cleared rails stage cause) :=
  ⟨fun _ => rfl, fun _ => rfl, s.byte_cleared rails stage cause, rfl, rfl, rfl, rfl, rfl, rfl⟩

/-! ### Power events (R51, R708, R715, R738 to R741, R753, R754) -/

theorem State.ramping_iff (s : State) : s.ramping = true ↔
    s.plat.rails = false ∧ s.plat.vinEn = true ∧ s.plat.low = false ∧ s.plat.latched = false ∧ s.plat.railRetryAt = none ∧
      s.plat.railFails < 3 := by
  simp [State.ramping, and_assoc]

/-- Without a latched shutdown, and with the input present and VIN_EN made, the power stage ramps once it starts. -/
theorem State.ramping_powerUp {s : State} (hv : s.plat.vinEn = true) (hlow : s.plat.low = false) (hlatch : s.plat.latched = false) :
    s.powerUp.ramping = true :=
  s.powerUp.ramping_iff.2 ⟨rfl, hv, hlow, hlatch, rfl, Nat.zero_lt_succ 2⟩

theorem does_powerOn {s : State} (hlow : s.plat.low = true) (hv : s.plat.vinEn = true) :
    Does .powerOn s fun t => t.plat.stage = 0 ∧ t.plat.cause = 0 ∧ t.plat.low = false ∧ t.plat.latched = false ∧
      t.ramping = true ∧ Cleared s t :=
  ⟨_, congrArg Host.Outcome.next (if_pos hlow), rfl, rfl, rfl, rfl, State.ramping_powerUp hv rfl rfl, State.cleared_cleared _ _ _ _⟩

/-- RESET_N low restarts a module whose rails are up, without turning them off. -/
theorem does_moduleReset {s : State} (h : s.plat.rails = true) :
    Does .moduleReset s fun t => t.plat.stage = 0 ∧ t.plat.cause = 1 ∧ t.plat.rails = true ∧ t.plat.resetHeld = true ∧ Cleared s t :=
  ⟨_, congrArg Host.Outcome.next (if_pos h), rfl, rfl, rfl, rfl, State.cleared_cleared _ _ _ _⟩

/-- Without rails RESET_N only holds the sequence that may follow. -/
theorem does_moduleReset_off {s : State} (h : s.plat.rails = false) :
    Does .moduleReset s fun t => t = { s with plat.resetHeld := true } :=
  ⟨_, congrArg Host.Outcome.next (if_neg (by simp [h])), rfl⟩

theorem does_undervoltage (s : State) :
    Does .undervoltage s fun t => t.plat.rails = false ∧ t.plat.low = true ∧ Cleared s t :=
  ⟨_, rfl, rfl, rfl, State.cleared_cleared _ _ _ _⟩

theorem does_vinEnBreak (s : State) :
    Does .vinEnBreak s fun t => t.plat.rails = false ∧ t.plat.vinEn = false ∧ Cleared s t :=
  ⟨_, rfl, rfl, rfl, State.cleared_cleared _ _ _ _⟩

theorem State.shutdown_off (s : State) : s.shutdown.plat.rails = false ∧ s.shutdown.plat.latched = true ∧ Cleared s s.shutdown :=
  ⟨rfl, rfl, State.cleared_cleared _ _ _ _⟩

theorem does_vinEnMake {s : State} (hv : s.plat.vinEn = false) (hlow : s.plat.low = false) (hlatch : s.plat.latched = false) :
    Does .vinEnMake s fun t => t.plat.vinEn = true ∧ t.plat.stage = 0 ∧ t.ramping = true := by
  have hstart : exec .vinEnMake s = .next { s with plat.vinEn := true }.powerUp := by
    show execVinEnMake s = _
    simp [execVinEnMake, hv, hlow, hlatch]
  exact ⟨_, hstart, rfl, rfl, State.ramping_powerUp rfl hlow hlatch⟩

/-- The first two failures of a rail group are followed by a retry after 1 s. -/
theorem does_railWindowTimeout_retry {s : State} (hr : s.ramping = true) (hn : s.plat.railFails < 2) :
    Does .railWindowTimeout s fun t => t.plat.rails = false ∧ t.plat.railRetryAt = some (t.now + 10 ^ 9) ∧
      t.plat.railFails = s.plat.railFails + 1 := by
  have hless : s.plat.railFails + 1 < 3 := by omega
  exact ⟨_, congrArg Host.Outcome.next ((if_neg (by simp [hr])).trans (if_pos hless)), rfl, rfl, rfl⟩

/-- The third failure leaves the module off with RAIL_FAULT. -/
theorem does_railWindowTimeout_off {s : State} (hr : s.ramping = true) (hn : s.plat.railFails = 2) :
    Does .railWindowTimeout s fun t => t.plat.rails = false ∧ t.plat.stage = 15 ∧ t.plat.failCode = Code.railFault ∧
      t.ramping = false := by
  have hlast : ¬ s.plat.railFails + 1 < 3 := by omega
  refine ⟨_, congrArg Host.Outcome.next ((if_neg (by simp [hr])).trans (if_neg hlast)), rfl, rfl, rfl, ?_⟩
  simp [State.ramping, hn]

theorem does_railRetry {s : State} {n : Nat} (h : s.plat.railRetryAt = some n) (hn : n ≤ s.now) :
    Does .railRetry s fun t => t = { s with plat.railRetryAt := none } := by
  refine ⟨_, ?_, rfl⟩
  show execRailRetry s = _
  simp only [execRailRetry, h, if_neg (Nat.not_lt.2 hn)]

/-! ### Boot failures (R714, R732) -/

theorem State.bootFail_failed (s : State) (code : Nat) : (s.bootFail code).plat.stage = 15 ∧
    (s.bootFail code).host.fatal = true ∧ (s.bootFail code).host.fatalCode = code ∧
    (s.bootFail code).plat.rails = s.plat.rails :=
  ⟨rfl, rfl, rfl, by simp [State.bootFail]⟩

/-- A boot failure writes no register outside block FLT. -/
theorem State.reg_bootFail (s : State) (code : Nat) {k : Nat} (hk : k / 65536 ≠ 18) : (s.bootFail code).reg k = s.reg k := by
  have hattn (u : State) : (u.setAttn 7).reg k = u.reg k := State.reg_of_regs (by simp) k
  calc (s.bootFail code).reg k = ((s.event code 4 4 255 0 0 0).setAttn 7).reg k :=
        State.reg_of_regs (by simp only [State.bootFail, State.moduleFault]) k
    _ = (s.event code 4 4 255 0 0 0).reg k := hattn _
    _ = s.reg k := State.reg_event _ _ _ _ _ _ _ _ hk

/-! ### Fuses and measurements (R252, R716, R722 to R724) -/

@[simp] theorem State.loadTileMaps_plat (s : State) : s.loadTileMaps.plat = s.plat := by
  unfold State.loadTileMaps
  refine List.foldlRecOn _ _ (motive := fun u : State => u.plat = s.plat) ?_ fun u hu i _ => ?_
  · exact List.foldlRecOn _ _ (motive := fun u : State => u.plat = s.plat) rfl fun u hu i _ => hu
  · dsimp only [State.iff]
    split
    · exact hu
    · exact hu

/-- An extension of a measurement register changes the measurements only. -/
theorem State.extendD_plat (s : State) (reg kind : Nat) (d : BitVec 384) :
    ∃ m l, (s.extendD reg kind d).plat = { s.plat with meas := m, measLog := l } := by
  unfold State.extendD State.extend
  split
  · exact ⟨s.plat.meas, s.plat.measLog, rfl⟩
  · exact ⟨_, _, rfl⟩

@[simp] theorem State.extendD_frame (s : State) (reg kind : Nat) (d : BitVec 384) :
    (s.extendD reg kind d).plat.rails = s.plat.rails ∧ (s.extendD reg kind d).plat.fuses = s.plat.fuses ∧
      (s.extendD reg kind d).plat.bankA = s.plat.bankA ∧ (s.extendD reg kind d).plat.bankB = s.plat.bankB ∧
      (s.extendD reg kind d).plat.activeBank = s.plat.activeBank ∧ (s.extendD reg kind d).plat.tryBank = s.plat.tryBank := by
  obtain ⟨m, l, h⟩ := s.extendD_plat reg kind d
  simp [h]

/-- The log grows by one entry while there is room. -/
theorem State.measLog_extendD {s : State} {n : Nat} (h : s.plat.measLog.length = n) (hn : n < 256) (reg kind : Nat)
    (d : BitVec 384) : (s.extendD reg kind d).plat.measLog.length = n + 1 := by
  have hroom : ¬ 256 ≤ s.plat.measLog.length := by omega
  have hext : (s.extendD reg kind d).plat.measLog = s.plat.measLog ++ [⟨reg, kind, d⟩] := by
    simp only [State.extendD, State.extend, if_neg hroom, Option.getD_some]
  rw [hext, List.length_append, h, List.length_singleton]

/-! ### The boot ROM (R712, R714, R716, R723) -/

/-- The digest of the fuse words that are measured: all but those of DEVICE_SECRET. -/
def State.fuseDigest (s : State) : BitVec 384 :=
  Config.sha384 ((List.range 22).flatMap fun i => if 6 ≤ i && i < 10 then [] else leBytes (SMap.get 0 s.plat.fuses i).toNat 8)

/-- The X-dies have left reset and the ROM runs (R714). -/
def State.romStarts (s : State) : State := { s with plat.rails := true, plat.stage := 1, plat.romNs := s.now }

/-- The fuses are read, the tile maps loaded, and the ROM and the fuses measured. -/
def State.romMeasured (s : State) (rom : BitVec 384) : State :=
  let u := s.romStarts.loadFuses.loadTileMaps
  (u.extendD 0 0 rom).extendD 2 2 u.fuseDigest

/-- The images of the chosen bank are measured. -/
def State.imagesMeasured (s : State) (b : Nat) : State :=
  (s.extendD 1 1 (Config.sha384 (s.bank b).control)).extendD 3 3 (Config.sha384 (s.bank b).service)

/-- The ROM starts the firmware of the chosen bank, and DRAM training begins. -/
def State.bootFrom (s : State) (b : Nat) : State :=
  { s.imagesMeasured b with plat.bootBank := b, plat.fwVersion := fwVersion (s.bank b).control, plat.stage := 3 }

/-- At stage 0, with RESET_N released and power applied, the lock of the clocks takes effect. -/
theorem exec_clocksLocked {s : State} (h0 : s.plat.stage = 0) (hheld : s.plat.resetHeld = false)
    (hpower : (s.plat.rails || s.ramping) = true) (rom : BitVec 384) :
    exec (.clocksLocked false rom) s = .next (s.romStarts.bootFail Code.fuseMismatch) ∧
      ∀ b u, (s.romMeasured rom).chooseBank = (some b, 0, u) → exec (.clocksLocked true rom) s = .next (u.bootFrom b) := by
  have hstart : ¬ (s.plat.stage ≠ 0 || s.plat.resetHeld || !(s.plat.rails || s.ramping)) = true := by
    simp [h0, hheld, hpower]
  refine ⟨congrArg Host.Outcome.next (if_neg hstart), fun b u hb => ?_⟩
  simp only [State.romMeasured, State.romStarts, State.fuseDigest] at hb
  show execClocksLocked true rom s = _
  simp only [execClocksLocked, if_neg hstart, Bool.not_true, Bool.false_eq_true, if_false, hb]
  rfl

/-- Whether a bank verifies rests on the banks and on the fuses as read. -/
theorem State.bankOk_congr {s t : State} (hf : t.plat.fuses = s.plat.fuses) (ha : t.plat.bankA = s.plat.bankA)
    (hb : t.plat.bankB = s.plat.bankB) (b : Nat) : t.bankOk b = s.bankOk b := by
  have hfuse : t.fuse = s.fuse := by unfold State.fuse; rw [hf]
  have hbits : t.fuseBits = s.fuseBits := by unfold State.fuseBits; rw [hfuse]
  have himage : t.imageOk = s.imageOk := by unfold State.imageOk State.signed; rw [hbits]
  have hbank : t.bank = s.bank := by unfold State.bank; rw [ha, hb]
  have hsvn : t.svnFused = s.svnFused := by unfold State.svnFused; rw [hfuse]
  rw [State.bankOk, State.bankReads, himage, hbank, hsvn, State.bankOk, State.bankReads]

/-- Without a TRY bank the ROM takes the active one if it verifies. -/
theorem State.chooseBank_active {s : State} (htry : s.plat.tryBank = none) (hok : s.bankOk s.plat.activeBank = true) :
    s.chooseBank = (some s.plat.activeBank, 0, s) := by
  simp [State.chooseBank, htry, hok]

@[simp] theorem State.romMeasured_frame (s : State) (rom : BitVec 384) :
    (s.romMeasured rom).plat.rails = true ∧ (s.romMeasured rom).plat.fuses = s.plat.array ∧
      (s.romMeasured rom).plat.bankA = s.plat.bankA ∧ (s.romMeasured rom).plat.bankB = s.plat.bankB ∧
      (s.romMeasured rom).plat.activeBank = s.plat.activeBank ∧ (s.romMeasured rom).plat.tryBank = s.plat.tryBank := by
  simp [State.romMeasured, State.loadFuses, State.romStarts]

@[simp] theorem State.bank_romMeasured (s : State) (rom : BitVec 384) (b : Nat) : (s.romMeasured rom).bank b = s.bank b := by
  simp [State.bank]

theorem State.bootFrom_measLog (s : State) (b : Nat) : (s.bootFrom b).plat.measLog = (s.imagesMeasured b).plat.measLog := rfl

/-- Four extensions of an empty log: the ROM, the fuses, and the two images. -/
theorem State.measLog_boot {s : State} (h : s.plat.measLog = []) (rom : BitVec 384) (b : Nat) :
    ((s.romMeasured rom).bootFrom b).plat.measLog.length = 4 := by
  have hempty : s.romStarts.loadFuses.loadTileMaps.plat.measLog.length = 0 := by simp [State.loadFuses, State.romStarts, h]
  have htwo : (s.romMeasured rom).plat.measLog.length = 2 :=
    State.measLog_extendD (State.measLog_extendD hempty (by decide) _ _ _) (by decide) _ _ _
  rw [State.bootFrom_measLog, State.imagesMeasured]
  exact State.measLog_extendD (State.measLog_extendD htwo (by decide) _ _ _) (by decide) _ _ _

theorem does_clocksLocked_boot {s : State} (h0 : s.plat.stage = 0) (hheld : s.plat.resetHeld = false)
    (hpower : (s.plat.rails || s.ramping) = true) (htry : s.plat.tryBank = none) {b : Nat} (hb : s.plat.activeBank = b)
    (hok : { s with plat.fuses := s.plat.array }.bankOk b = true) (hlog : s.plat.measLog = []) (rom : BitVec 384) :
    Does (.clocksLocked true rom) s fun t => t.plat.stage = 3 ∧ t.plat.rails = true ∧ t.plat.bootBank = b ∧
      t.plat.fuses = s.plat.array ∧ t.plat.fwVersion = fwVersion (s.bank b).control ∧ t.plat.measLog.length = 4 := by
  subst hb
  have hread : (s.romMeasured rom).bankOk s.plat.activeBank = { s with plat.fuses := s.plat.array }.bankOk s.plat.activeBank :=
    State.bankOk_congr (by simp) (by simp) (by simp) _
  have hchoice : (s.romMeasured rom).chooseBank = (some s.plat.activeBank, 0, s.romMeasured rom) := by
    simpa using State.chooseBank_active (s := s.romMeasured rom) (by simpa using htry) (by simpa [hread] using hok)
  refine ⟨_, (exec_clocksLocked h0 hheld hpower rom).2 _ _ hchoice, rfl, ?_, rfl, ?_, ?_, State.measLog_boot hlog rom _⟩ <;>
    simp [State.bootFrom, State.imagesMeasured]

theorem does_clocksLocked_mismatch {s : State} (h0 : s.plat.stage = 0) (hheld : s.plat.resetHeld = false)
    (hrails : s.plat.rails = true) (rom : BitVec 384) :
    Does (.clocksLocked false rom) s fun t => t.plat.stage = 15 ∧ t.host.fatal = true ∧ t.host.fatalCode = Code.fuseMismatch ∧
      t.plat.rails = true :=
  ⟨_, (exec_clocksLocked h0 hheld (by simp [hrails]) rom).1, State.bootFail_failed _ _⟩

/-! ### DRAM training, self-test, sett mount and watchdog (R615, R616, R623, R713, R714, R717 to R719) -/

theorem does_dramTrainingDone {s : State} (h : s.plat.stage = 3) (ok : Bool) (ch : Fin 128) (f : Fin 7) :
    Does (.dramTrainingDone ok ch f) s fun t =>
      if ok then t.plat.stage = 4 ∧ t.field Reg.dramStatus 15 8 = 128
      else t.plat.stage = 15 ∧ t.host.fatal = true ∧ t.host.fatalCode = Code.dramTrain ∧
        t.reg Reg.dramErrlog = (fld 63 63 1 ||| fld 62 60 f.val ||| fld 59 53 ch.val) := by
  refine ⟨_, congrArg Host.Outcome.next (if_neg (not_not.2 h)), ?_⟩
  cases ok
  case false =>
    obtain ⟨hstage, hfatal, hcode, -⟩ := State.bootFail_failed
      (s.setReg Reg.dramErrlog (fld 63 63 1 ||| fld 62 60 f.val ||| fld 59 53 ch.val)) Code.dramTrain
    exact ⟨hstage, hfatal, hcode, (State.reg_bootFail _ _ (by decide)).trans (State.reg_setReg_same _ _ _)⟩
  case true =>
    refine ⟨rfl, (congrArg (bits · 15 8) (State.reg_setReg_same _ _ _)).trans ?_⟩
    rw [bits_setBits_other _ _ _ _ _ _ (by decide) (by decide) (by decide) (by decide),
      bits_setBits_same _ _ _ _ (by decide) (by decide)]
    rfl

/-- A self-test without a failed tile or unit. -/
theorem does_selftestDone {s : State} (h : s.plat.stage = 4) (known : Bool) :
    Does (.selftestDone [] true known []) s fun t =>
      if known then t = { s with plat.stage := 5 } else t.plat.stage = 15 ∧ t.host.fatalCode = Code.selftestFailed := by
  refine ⟨_, congrArg Host.Outcome.next (if_neg (not_not.2 h)), ?_⟩
  cases known
  case false => exact ⟨rfl, rfl⟩
  case true => rfl

theorem State.mount_frame (s : State) (blocks spares : Nat) :
    (s.mount blocks spares).plat = s.plat ∧ (s.mount blocks spares).sett.count = blocks := by
  simp [State.mount, State.noteLife, State.noteSpares, State.trimAll]

theorem State.unitFailed_setField_zero (s : State) {u : Nat} (hu : u < 64) :
    (s.setField Reg.fltUnits u u 0).unitFailed u = false := by
  have hbit := State.field_setField_same s Reg.fltUnits u u 0 hu le_rfl
  rw [Nat.zero_mod] at hbit
  exact decide_eq_false (hbit.trans_ne Nat.zero_ne_one)

theorem State.proveTry_of_none {s : State} (h : s.plat.tryBank = none) : s.proveTry = s := by
  simp only [State.proveTry, h]

theorem State.awaitImage_keeps (s : State) :
    s.awaitImage.plat.tryBank = s.plat.tryBank ∧ s.awaitImage.sett = s.sett ∧ ∀ u, s.awaitImage.unitFailed u = s.unitFailed u :=
  ⟨rfl, rfl, fun _ => rfl⟩

/-- At stage 5 the sett is mounted and, without a TRY bank, nothing is left to prove. -/
theorem exec_settMountDone {s : State} (h : s.plat.stage = 5) (hst : bit (s.reg Reg.settStatus) 63 = false)
    (htry : s.plat.tryBank = none) (blocks spares : Nat) :
    exec (.settMountDone true blocks spares) s = .next ((s.mount blocks spares).setField Reg.fltUnits 7 7 0).awaitImage := by
  obtain ⟨hplat, -⟩ := s.mount_frame blocks spares
  generalize hm : s.mount blocks spares = m at hplat
  have hproven : (m.setField Reg.fltUnits 7 7 0).awaitImage.proveTry = (m.setField Reg.fltUnits 7 7 0).awaitImage :=
    State.proveTry_of_none (by simp [State.awaitImage_keeps, hplat, htry])
  show execSettMountDone true blocks spares s = _
  simp [execSettMountDone, h, hst, hm, hplat, hproven]

theorem does_settMountDone {s : State} (h : s.plat.stage = 5) (hst : bit (s.reg Reg.settStatus) 63 = false)
    (htry : s.plat.tryBank = none) (blocks spares : Nat) :
    Does (.settMountDone true blocks spares) s fun t =>
      t.plat.stage = 6 ∧ t.host.ready = true ∧ t.unitFailed 7 = false ∧ t.sett.count = blocks := by
  obtain ⟨-, hcount⟩ := s.mount_frame blocks spares
  obtain ⟨-, hsett, hunits⟩ := State.awaitImage_keeps ((s.mount blocks spares).setField Reg.fltUnits 7 7 0)
  refine ⟨_, exec_settMountDone h hst htry blocks spares, rfl, rfl, ?_, ?_⟩
  · rw [hunits, State.unitFailed_setField_zero _ (by decide)]
  · rw [hsett, State.setField_sett, hcount]

theorem does_bootWatchdog {s : State} (htry : s.plat.tryBank = some s.plat.bootBank) (hrom : 1 ≤ s.plat.stage)
    (hwait : s.plat.stage < 6) (hlate : s.plat.romNs + 10 ^ 10 ≤ s.now) :
    Does .bootWatchdog s fun t => t.plat.stage = 0 ∧ t.plat.cause = 1 ∧ t.plat.tryBank = none ∧ t.plat.tryFailed = true ∧
      t.plat.failCode = Code.bootTimeout :=
  ⟨_, congrArg Host.Outcome.next (if_pos (by simpa [htry, hrom, hwait] using hlate)), rfl, rfl, rfl, rfl, rfl⟩

/-- Settles O7: each power event, then each stage of the boot sequence. -/
theorem powerAndBoot : Obligations.PowerAndBoot :=
  ⟨fun s => ⟨does_powerOn, does_moduleReset, does_moduleReset_off, does_undervoltage s, ⟨_, rfl, s.shutdown_off⟩,
      ⟨_, rfl, s.shutdown_off⟩, ⟨_, rfl, rfl⟩, ⟨_, rfl, rfl⟩, does_vinEnBreak s, does_vinEnMake, does_railWindowTimeout_retry,
      does_railWindowTimeout_off, fun _ => does_railRetry⟩,
    fun _ => ⟨fun rom _ h0 hheld hpower htry hb hok hlog _ => does_clocksLocked_boot h0 hheld hpower htry hb hok hlog rom,
      fun rom h0 hheld hrails => does_clocksLocked_mismatch h0 hheld hrails rom,
      fun ok ch f h => does_dramTrainingDone h ok ch f, fun k h => does_selftestDone h k,
      fun b n h hst htry => does_settMountDone h hst htry b n, does_bootWatchdog⟩⟩

end Sys2Proof.Machine
end

section
/-! ### Tables of work in progress, and leaf entries (R58, R59, R717) -/

namespace Sys2Proof

theorem SMap.insertSorted_perm {α : Type} (k : Nat) (v : α) (m : SMap α) : (SMap.insertSorted k v m).Perm ((k, v) :: m) := by
  induction m with
  | nil => exact .refl _
  | cons x m ih =>
    unfold SMap.insertSorted
    split
    · exact .refl _
    · exact (ih.cons x).trans (.swap _ _ _)

/-- A put lists its pair beside the pairs of the other numbers. -/
theorem SMap.put_perm {α : Type} (m : SMap α) (k : Nat) (v : α) : (SMap.put m k v).Perm ((k, v) :: SMap.erase m k) :=
  SMap.insertSorted_perm k v _

theorem SMap.mem_erase {α : Type} {m : SMap α} {k : Nat} {x : Nat × α} : x ∈ SMap.erase m k ↔ x ∈ m ∧ x.1 ≠ k := by
  simp [SMap.erase]

theorem SMap.mem_put {α : Type} {m : SMap α} {k : Nat} {v : α} {x : Nat × α} :
    x ∈ SMap.put m k v ↔ x = (k, v) ∨ x ∈ m ∧ x.1 ≠ k := by
  rw [(SMap.put_perm m k v).mem_iff, List.mem_cons, SMap.mem_erase]

theorem SMap.filter_put_eq_singleton {α : Type} {f : Nat × α → Bool} {m : SMap α} {k : Nat} {v : α} (hv : f (k, v) = true)
    (hm : ∀ x ∈ m, x.1 ≠ k → f x = false) : (SMap.put m k v).filter f = [(k, v)] := by
  have hrest : (SMap.erase m k).filter f = [] := by
    refine List.filter_eq_nil_iff.2 fun x hx => ?_
    obtain ⟨hmem, hne⟩ := SMap.mem_erase.1 hx
    simp [hm x hmem hne]
  have hperm := (SMap.put_perm m k v).filter f
  rw [List.filter_cons_of_pos hv, hrest] at hperm
  exact List.perm_singleton.1 hperm

/-- A put of a pair that does not count leaves no more pairs that count. -/
theorem SMap.length_filter_put_le {α : Type} {f : Nat × α → Bool} (m : SMap α) {k : Nat} {v : α} (hv : f (k, v) = false) :
    ((SMap.put m k v).filter f).length ≤ (m.filter f).length := by
  rw [((SMap.put_perm m k v).filter f).length_eq, List.filter_cons_of_neg (by simp [hv])]
  exact (List.filter_sublist.filter f).length_le

/-- A value changed at every number, by its own number's value alone. -/
theorem SMap.lookup_map {α : Type} (f : α → α) (m : SMap α) (k : Nat) :
    SMap.lookup (m.map fun x => (x.1, f x.2)) k = (SMap.lookup m k).map f := by
  induction m with
  | nil => rfl
  | cons x m ih =>
    obtain ⟨i, v⟩ := x
    simp only [List.map_cons, SMap.lookup, ih]
    split <;> rfl

end Sys2Proof

namespace Sys2Proof.Machine

open Sys2Proof

/-- The page lies in the boot region, whose leaf entries are fixed. -/
def State.inBoot (s : State) (p : Nat) : Bool := s.tsm.boot && decide (p < bootPages)

theorem State.leaf_of_inBoot {s : State} {p : Nat} (h : s.inBoot p = true) :
    s.leaf p = { v := true, tier := .dram, loc := p, pin := true } := if_pos h

theorem State.inBoot_of_not_pin {s : State} {p : Nat} (h : (s.leaf p).pin = false) : s.inBoot p = false :=
  Bool.eq_false_iff.2 fun hb => by simp [State.leaf_of_inBoot hb] at h

theorem State.inBoot_of_ferry {s : State} {p : Nat} (h : (s.leaf p).ferry = true) : s.inBoot p = false :=
  Bool.eq_false_iff.2 fun hb => by simp [State.leaf_of_inBoot hb] at h

/-- The leaf entries rest on the page table and the boot region alone. -/
theorem State.leaf_congr {s t : State} (hl : t.tsm.leaf = s.tsm.leaf) (hb : t.tsm.boot = s.tsm.boot) (p : Nat) :
    t.leaf p = s.leaf p := by
  rw [State.leaf, hl, hb, State.leaf]

theorem State.leaf_setLeaf_self {s : State} {p : Nat} (h : s.inBoot p = false) (l : Leaf) : (s.setLeaf p l).leaf p = l :=
  (if_neg (Bool.eq_false_iff.1 h)).trans (SMap.get_set_same _ _ _ _)

theorem State.leaf_setLeaf_of_ne (s : State) {p q : Nat} (h : q ≠ p) (l : Leaf) : (s.setLeaf p l).leaf q = s.leaf q := by
  unfold State.leaf State.setLeaf
  rw [SMap.get_set_other _ _ _ _ _ _ h]

/-- An entry without a claim is what a page of the boot region has already. -/
theorem State.leaf_setLeaf_unclaimed (s : State) (p : Nat) :
    (s.setLeaf p { s.leaf p with ferry := false, ferryId := 0 }).leaf p = { s.leaf p with ferry := false, ferryId := 0 } := by
  cases hb : s.inBoot p
  case false => exact State.leaf_setLeaf_self hb _
  case true =>
    have hb' : (s.setLeaf p { s.leaf p with ferry := false, ferryId := 0 }).inBoot p = true := hb
    rw [State.leaf_of_inBoot hb', State.leaf_of_inBoot hb]

end Sys2Proof.Machine
end

section
/-! ### Claims of pages (R54, R67, R68, R70) -/

namespace Sys2Proof.Machine

open Sys2Proof

/-! ### The checks in their order -/

section order

variable {s : State} {p : Nat} {w : Want}

theorem State.claimCheck_of_snap (hsnap : w.snap = true) : s.claimCheck p w = .ended (.failed Code.noncanon) := by
  simp [State.claimCheck, hsnap]

variable (hcanon : (w.snap || decide (2 ^ 36 ≤ p)) = false)

include hcanon

theorem State.claimCheck_of_unmapped (hwalk : s.walkLeaf p = none) : s.claimCheck p w = .ended (.failed Code.unmapped) := by
  simp only [State.claimCheck, hcanon, hwalk, Bool.false_eq_true, if_false, Option.isNone_none, if_true]

variable (hwalk : (s.walkLeaf p).isSome = true)

include hwalk

theorem State.claimCheck_of_pinned (hpin : (s.leaf p).pin = true) :
    s.claimCheck p w = .ended (.failed Code.pinViolation) := by
  simp only [State.claimCheck, hcanon, Option.isNone_eq_false_iff.2 hwalk, hpin, Bool.false_eq_true, if_false, Bool.true_or,
    if_true]

variable (hpin : (s.leaf p).pin = false) (hheader : s.isHeaderPage p = false)

include hpin hheader

/-- The checks of R70 that a mapped page without a pin still meets, in their order. -/
theorem State.claimCheck_of_free : s.claimCheck p w =
    if w.isDrop && !(s.leaf p).kv then .ended (.failed Code.notDroppable)
    else if w.already (s.leaf p) then .ended .moved
    else if (s.leaf p).ferry || (s.leaf p).wp then .ended (.failed Code.ferryBusy)
    else if w.isDrop then .claim (s.leaf p).tier (s.leaf p).loc
    else if !s.tierPermit (s.leaf p).tclass w.dest then .ended (.failed Code.tierDenied)
    else s.claimCheck p w := by
  simp only [State.claimCheck, hcanon, Option.isNone_eq_false_iff.2 hwalk, hpin, hheader, Bool.false_eq_true, if_false,
    Bool.false_and, Bool.or_self]
  split_ifs <;> rfl

end order

/-- A pinned page passes no request. -/
theorem State.not_pin_of_claim {s : State} {p : Nat} {w : Want} {dst : Tier} {loc : Nat}
    (h : s.claimCheck p w = .claim dst loc) : (s.leaf p).pin = false := by
  refine Bool.eq_false_iff.2 fun hpin => ?_
  simp only [State.claimCheck, hpin, Bool.true_or, if_true] at h
  split_ifs at h

/-! ### The claim -/

/-- A move takes its destination from the allocator, and counts the bytes that go to the sett; a drop takes nothing. -/
def State.reserve (s : State) (w : Want) (dst : Tier) (loc : Nat) : State :=
  let s := if w.isDrop then s else s.take dst loc
  if !w.isDrop && dst = .sett then s.countSett 65536 else s

theorem State.countSett_keeps (s : State) (n : Nat) :
    (∃ b, (s.countSett n).tsm = { s.tsm with bins := b }) ∧ (s.countSett n).mem = s.mem := ⟨⟨_, rfl⟩, rfl⟩

theorem State.reserve_tsm (s : State) (w : Want) (dst : Tier) (loc : Nat) :
    (∃ a b, (s.reserve w dst loc).tsm = { s.tsm with alloc := a, bins := b } ∧
      (w.isDrop = false → SMap.lookup a (homeKey dst loc) = some ())) ∧ (s.reserve w dst loc).mem = s.mem := by
  cases hdrop : w.isDrop
  case true =>
    simp only [State.reserve, hdrop, if_true, Bool.not_true, Bool.false_and, Bool.false_eq_true, if_false]
    exact ⟨⟨_, _, rfl, Bool.noConfusion⟩, trivial⟩
  case false =>
    have hput : SMap.lookup (s.take dst loc).tsm.alloc (homeKey dst loc) = some () := SMap.lookup_put_same _ _ _
    simp only [State.reserve, hdrop, Bool.false_eq_true, if_false, Bool.not_false, Bool.true_and, decide_eq_true_eq]
    split
    · obtain ⟨⟨b, htsm⟩, hmem⟩ := (s.take dst loc).countSett_keeps 65536
      exact ⟨⟨_, b, htsm, fun _ => hput⟩, hmem⟩
    · exact ⟨⟨_, _, rfl, fun _ => hput⟩, rfl⟩

theorem fidAfter_ne_zero (n : Nat) : fidAfter n ≠ 0 := by
  unfold fidAfter
  split <;> omega

/-- The operation that a claim lists (R68). -/
def State.claimOp (s : State) (fid req : Nat) (w : Want) (dst : Tier) (loc : Nat) : PageOp :=
  { req := req, ferryId := fid, isDrop := w.isDrop, dst := dst, dstLoc := loc, engine := s.ferryEngine
    tag := ⟨w.session, 0⟩, num := s.tsm.nextOp }

/-- A claim is listed over what it marks and reserves. -/
theorem State.claimPage_eq (s : State) (req p : Nat) (w : Want) (dst : Tier) (loc : Nat) : s.claimPage req p w dst loc =
    let u := (s.setLeaf p { s.leaf p with ferry := true, ferryId := s.tsm.nextFerryId }).reserve w dst loc
    { u with
      tsm.nextFerryId := fidAfter s.tsm.nextFerryId
      tsm.ops := SMap.put u.tsm.ops p (u.claimOp s.tsm.nextFerryId req w dst loc)
      tsm.nextOp := u.tsm.nextOp + 1
      tsm.shoots := u.tsm.shoots ++ [⟨p, caches, .claimed s.tsm.nextFerryId⟩] } := rfl

/-- Page p is claimed from s to t for a move to a home, or for a drop. -/
def Claimed (s t : State) (p : Nat) (dst : Tier) (loc : Nat) (drop : Bool) : Prop :=
  t.leaf p = { s.leaf p with ferry := true, ferryId := s.tsm.nextFerryId } ∧ (∀ q, q ≠ p → t.leaf q = s.leaf q) ∧
    t.tsm.shoots = s.tsm.shoots ++ [⟨p, [0, 1, 2, 3, 4, 5, 6, 7], .claimed s.tsm.nextFerryId⟩] ∧
    (∃ op, SMap.lookup t.tsm.ops p = some op ∧ op.stage = .claim ∧ op.ferryId = s.tsm.nextFerryId ∧ op.isDrop = drop ∧
      op.dst = dst ∧ op.dstLoc = loc) ∧
    (drop = false → SMap.lookup t.tsm.alloc (homeKey dst loc) = some ()) ∧ t.tsm.nextFerryId ≠ 0 ∧ t.mem = s.mem

theorem State.claimPage_claimed {s : State} {p : Nat} (h : s.inBoot p = false) (req : Nat) (w : Want) (dst : Tier) (loc : Nat) :
    Claimed s (s.claimPage req p w dst loc) p dst loc w.isDrop := by
  obtain ⟨⟨a, b, htsm, halloc⟩, hmem⟩ :=
    (s.setLeaf p { s.leaf p with ferry := true, ferryId := s.tsm.nextFerryId }).reserve_tsm w dst loc
  rw [State.claimPage_eq]
  generalize (s.setLeaf p { s.leaf p with ferry := true, ferryId := s.tsm.nextFerryId }).reserve w dst loc = u at htsm hmem ⊢
  have hleaf (q : Nat) : u.leaf q = (s.setLeaf p { s.leaf p with ferry := true, ferryId := s.tsm.nextFerryId }).leaf q :=
    State.leaf_congr (by rw [htsm]) (by rw [htsm]) q
  have hshoots : u.tsm.shoots = s.tsm.shoots := by
    rw [htsm]
    rfl
  refine ⟨(hleaf p).trans (State.leaf_setLeaf_self h _), fun q hq => (hleaf q).trans (State.leaf_setLeaf_of_ne s hq _),
    congrArg (· ++ _) hshoots, ⟨_, SMap.lookup_put_same _ _ _, rfl, rfl, rfl, rfl, rfl⟩, fun hmove => ?_, fidAfter_ne_zero _, hmem⟩
  show SMap.lookup u.tsm.alloc _ = _
  rw [htsm]
  exact halloc hmove

/-- Neither the item taken in hand nor the number of its request bears on the checks of R70. -/
theorem State.claimCheck_numbered (s : State) (it : Item) (n p : Nat) (w : Want) :
    ({ s.begin_ 5 it with tsm.nextReq := n } : State).claimCheck p w = s.claimCheck p w := rfl

/-- A request for one page that passes the checks is in progress with that page claimed. -/
theorem State.startFerry_of_claim {s : State} {p : Nat} {w : Want} {dst : Tier} {loc : Nat}
    (h : ({ s with tsm.nextReq := s.tsm.nextReq + 1 } : State).claimCheck p w = .claim dst loc) (o : Origin) :
    s.startFerry o w [p] =
      let u := ({ s with tsm.nextReq := s.tsm.nextReq + 1 } : State).claimPage s.tsm.nextReq p w dst loc
      { u with tsm.reqs := u.tsm.reqs ++ [⟨s.tsm.nextReq, o, [], 1⟩] } := by
  simp only [State.startFerry, claimLoop, h]
  rfl

theorem State.ferryRequest_claimed {s : State} {it : Item} {dst : Tier} {loc : Nat} (hok : ferryOk it = true)
    (hcount : ferryCount it = 1) (h : s.claimCheck (it.w2.toNat / 65536) (ferryWant it) = .claim dst loc) :
    Claimed s (s.ferryRequest it) (it.w2.toNat / 65536) dst loc (ferryWant it).isDrop := by
  have hpages : pageRun (it.w2.toNat / 65536) (ferryCount it) = [it.w2.toNat / 65536] := by rw [hcount]; rfl
  have hboot : s.inBoot (it.w2.toNat / 65536) = false := State.inBoot_of_not_pin (State.not_pin_of_claim h)
  rw [State.ferryRequest, if_pos hok, hpages, State.startFerry_of_claim ((s.claimCheck_numbered it _ _ _).trans h)]
  exact State.claimPage_claimed (s := { s.begin_ 5 it with tsm.nextReq := s.tsm.nextReq + 1 }) hboot _ _ dst loc

theorem ferryWant_isDrop (it : Item) : (ferryWant it).isDrop = decide (ferryOp it = 1) := rfl

section request

variable {s : State} {it : Item} {dst : Tier} {loc : Nat} (hl : s.live = true) (hok : ferryOk it = true)
  (hcount : ferryCount it = 1) (hepoch : tagEpoch it.w1 = s.comp.map.epoch)
  (h : s.claimCheck (it.w2.toNat / 65536) (ferryWant it) = .claim dst loc)

include hl hok hcount hepoch h

theorem does_ferryMove_claim (hop : ferryOp it = 0) :
    Does (.ferryMove it) s fun t => Claimed s t (it.w2.toNat / 65536) dst loc false := by
  have hne : ferryOp it ≠ 1 := by omega
  refine ⟨s.ferryRequest it, ?_, ?_⟩
  · show execFerryMove it s = _
    rw [execFerryMove, gate_live hl, if_neg hne, State.byMap_of_current hepoch]
  · have hclaim := State.ferryRequest_claimed hok hcount h
    rwa [ferryWant_isDrop, decide_eq_false hne] at hclaim

theorem does_ferryDrop_claim (hop : ferryOp it = 1) :
    Does (.ferryDrop it) s fun t => Claimed s t (it.w2.toNat / 65536) dst loc true := by
  refine ⟨s.ferryRequest it, ?_, ?_⟩
  · show execFerryDrop it s = _
    rw [execFerryDrop, gate_live hl, if_pos hop, State.byMap_of_current hepoch]
  · have hclaim := State.ferryRequest_claimed hok hcount h
    rwa [ferryWant_isDrop, decide_eq_true hop] at hclaim

end request

/-- Settles O18: the claim of a move or drop that passes the checks, then the checks in their order. -/
theorem ferryClaims : Obligations.FerryClaims := by
  refine ⟨?_, fun s p w => ⟨State.claimCheck_of_snap, fun hp hsnap => ?_⟩⟩
  · rintro s it _ dst loc hl hok hcount hepoch rfl h
    exact ⟨does_ferryMove_claim hl hok hcount hepoch h, does_ferryDrop_claim hl hok hcount hepoch h⟩
  · have hcanon : (w.snap || decide (2 ^ 36 ≤ p)) = false := by rw [hsnap, decide_eq_false (Nat.not_le.2 hp), Bool.or_false]
    refine ⟨State.claimCheck_of_unmapped hcanon, State.claimCheck_of_pinned hcanon, fun hwalk hpin hheader => ?_⟩
    rw [State.claimCheck_of_free hcanon hwalk hpin hheader]
    refine ⟨fun hdrop hkv => ?_, fun hmove hthere => ?_, fun hmove hthere hbusy => ?_, fun hmove hthere hferry hwp hdeny => ?_⟩
    · simp [hdrop, hkv]
    · simp [hmove, hthere]
    · simp [hmove, hthere, hbusy]
    · simp [hmove, hthere, hferry, hwp, hdeny]

end Sys2Proof.Machine
end

section
/-! ### Stages of moves (R66, R68, R69) -/

namespace Sys2Proof.Machine

open Sys2Proof

/-! ### Ready moves and their start -/

theorem State.readyPages_of_none {s : State} (h : ∀ x ∈ s.tsm.ops, x.2.stage ≠ .ready) : s.readyPages = [] := by
  have hnone : (s.tsm.ops.filter fun x => x.2.stage = .ready) = [] :=
    List.filter_eq_nil_iff.2 fun x hx => by simpa using h x hx
  rw [State.readyPages, hnone]
  rfl

theorem State.startMoves_of_none {s : State} (h : ∀ x ∈ s.tsm.ops, x.2.stage ≠ .ready) : s.startMoves = s := by
  rw [State.startMoves, State.readyPages_of_none h]
  rfl

/-- The operation becomes the page's own. -/
def State.putOp (s : State) (p : Nat) (op : PageOp) : State := { s with tsm.ops := SMap.put s.tsm.ops p op }

theorem State.lookup_putOp (s : State) (p : Nat) (op : PageOp) : SMap.lookup (s.putOp p op).tsm.ops p = some op :=
  SMap.lookup_put_same _ _ _

theorem State.putOp_none_ready {s : State} {p : Nat} {op : PageOp} (hop : op.stage ≠ .ready)
    (h : ∀ x ∈ s.tsm.ops, x.1 ≠ p → x.2.stage ≠ .ready) : ∀ x ∈ (s.putOp p op).tsm.ops, x.2.stage ≠ .ready := by
  intro x hx
  rcases SMap.mem_put.1 hx with rfl | ⟨hmem, hne⟩
  · exact hop
  · exact h x hmem hne

/-- A page that becomes ready where none is ready is the one ready page. -/
theorem State.readyPages_putOp {s : State} {p : Nat} {op : PageOp} (hop : op.stage = .ready)
    (h : ∀ x ∈ s.tsm.ops, x.1 ≠ p → x.2.stage ≠ .ready) : (s.putOp p op).readyPages = [p] := by
  have hone : (SMap.put s.tsm.ops p op).filter (fun x => decide (x.2.stage = .ready)) = [(p, op)] :=
    SMap.filter_put_eq_singleton (decide_eq_true hop) fun x hx hne => decide_eq_false (h x hx hne)
  rw [State.readyPages, State.putOp]
  dsimp only
  rw [hone]
  rfl

theorem State.movesTo_putOp_le (s : State) (p : Nat) {op : PageOp} (hop : op.stage ≠ .write) (t : Tier) :
    (s.putOp p op).movesTo t ≤ s.movesTo t :=
  SMap.length_filter_put_le _ (by simp [hop])

/-- The block move of a page between homes outside the pool needs no fabric access. -/
theorem State.startMove_outside_pool {s : State} {p : Nat} {op : PageOp} (hsrc : (s.leaf p).tier ≠ .pool) (hdst : op.dst ≠ .pool) :
    ∃ tag q, s.startMove p op = { s.putOp p { op with stage := .write, tag := tag } with hq.sendSeq := q } := by
  have hfab (u : State) (op' : PageOp) (hop : SMap.lookup u.tsm.ops p = some op') (hl : (u.leaf p).tier ≠ .pool)
      (hd : op'.dst ≠ .pool) : u.fabFerry p = u := by
    simp only [State.fabFerry, hop, if_neg hl, if_neg hd]
  exact ⟨_, _, hfab _ _ (SMap.lookup_put_same _ _ _) hsrc hdst⟩

/-- The one ready page starts its block move while one more may be outstanding (R39). -/
theorem State.startMoves_putOp {s : State} {p : Nat} {op : PageOp} (hop : op.stage = .ready)
    (h : ∀ x ∈ s.tsm.ops, x.1 ≠ p → x.2.stage ≠ .ready) (hroom : s.movesTo op.dst < seqWindow)
    (hsrc : (s.leaf p).tier ≠ .pool) (hdst : op.dst ≠ .pool) :
    ∃ tag q, (s.putOp p op).startMoves =
      { (s.putOp p op).putOp p { op with stage := .write, tag := tag } with hq.sendSeq := q } := by
  have hnow : (s.putOp p op).readsLater p op = false := by
    have hl : ((s.putOp p op).leaf p).tier ≠ .pool := hsrc
    simp [State.readsLater, hl]
  have hgo : (decide (op.stage = .ready) && decide ((s.putOp p op).movesTo op.dst < seqWindow) &&
      !(s.putOp p op).readsLater p op) = true := by
    have hmoves := (s.movesTo_putOp_le p (op := op) (by simp [hop]) op.dst).trans_lt hroom
    simp [hop, hmoves, hnow]
  rw [State.startMoves, State.readyPages_putOp hop h]
  simp only [moveLoop, State.lookup_putOp, if_pos hgo]
  exact (s.putOp p op).startMove_outside_pool hsrc hdst

/-! ### Acknowledgements of shootdowns -/

/-- The cache drops the page's entry, and its acknowledgement leaves a list of shootdowns. -/
def State.acked (s : State) (c p : Nat) (l : List Shoot) : State :=
  { s with tsm.tlb := SMap.erase s.tsm.tlb (tlbKey c p), tsm.shoots := l }

theorem State.lookup_tlb_acked (s : State) (c p : Nat) (l : List Shoot) :
    SMap.lookup (s.acked c p l).tsm.tlb (tlbKey c p) = none := SMap.lookup_erase_same _ _

section ack

variable {s : State} {c : Fin 8} {p : Nat} {k : ShootCont} {rest : List Shoot} (hl : s.live = true)

include hl

theorem exec_shootdownAck_last (h : s.tsm.shoots = ⟨p, [c.val], k⟩ :: rest) :
    exec (.shootdownAck c p) s = .next (((s.acked c.val p rest).bump (Reg.tsmCnt 7)).shotDown p k) := by
  show execShootdownAck c p s = _
  simp [execShootdownAck, gate_live hl, h, ackShoot, State.acked]

theorem exec_shootdownAck_more {d : Nat} (hd : d ≠ c.val) (h : s.tsm.shoots = ⟨p, [c.val, d], k⟩ :: rest) :
    exec (.shootdownAck c p) s = .next (s.acked c.val p (⟨p, [d], k⟩ :: rest)) := by
  show execShootdownAck c p s = _
  simp [execShootdownAck, gate_live hl, h, ackShoot, State.acked, hd]

end ack

/-- A claimed move whose shootdown is complete is ready (R68). -/
theorem State.shotDown_claimed {s : State} {p : Nat} {op : PageOp} (h : SMap.lookup s.tsm.ops p = some op)
    (hstage : op.stage = .claim) (hmove : op.isDrop = false) :
    s.shotDown p (.claimed op.ferryId) = (s.putOp p { op with stage := .ready }).startMoves := by
  simp [State.shotDown, h, hstage, hmove, State.putOp]

/-- The destination holds the source's contents and is verified next. -/
def State.pageCopied (s : State) (p : Nat) (op : PageOp) : State :=
  (s.copyRange (homeAddr (s.leaf p).tier (s.leaf p).loc 0) (homeAddr op.dst op.dstLoc 0) 65536).putOp p
    { op with stage := .verify }

/-- The home is switched, the operation done, and the source shot down. -/
def State.homeSwitched (s : State) (p : Nat) (op : PageOp) : State :=
  let u := s.setLeaf p { s.leaf p with tier := op.dst, loc := op.dstLoc, ferry := false, ferryId := 0 }
  (({ u with tsm.ops := SMap.erase u.tsm.ops p } : State).shoot p (.switched op.req (s.leaf p).tier (s.leaf p).loc)).bump
    (Reg.tsmCnt 6)

section stages

variable {s : State} {p : Nat} {op : PageOp} (hl : s.live = true) (hop : SMap.lookup s.tsm.ops p = some op)

include hl hop

theorem does_shootdownAck_claimed {c : Fin 8} {rest : List Shoot} (h : s.tsm.shoots = ⟨p, [c.val], .claimed op.ferryId⟩ :: rest)
    (hstage : op.stage = .claim) (hmove : op.isDrop = false) (hsrc : (s.leaf p).tier ≠ .pool) (hdst : op.dst ≠ .pool)
    (hnone : ∀ x ∈ s.tsm.ops, x.1 ≠ p → x.2.stage ≠ .ready) (hroom : s.movesTo op.dst < seqWindow) :
    Does (.shootdownAck c p) s fun t =>
      (∃ tag, SMap.lookup t.tsm.ops p = some { op with stage := .write, tag := tag }) ∧ t.tsm.shoots = rest ∧
        SMap.lookup t.tsm.tlb (tlbKey c.val p) = none ∧ t.reg (Reg.tsmCnt 7) = s.reg (Reg.tsmCnt 7) + 1 ∧ t.mem = s.mem := by
  have hready := State.shotDown_claimed (s := (s.acked c.val p rest).bump (Reg.tsmCnt 7)) hop hstage hmove
  obtain ⟨tag, q, hmoves⟩ := State.startMoves_putOp (s := (s.acked c.val p rest).bump (Reg.tsmCnt 7))
    (op := { op with stage := .ready }) rfl hnone hroom hsrc hdst
  refine ⟨_, (exec_shootdownAck_last hl h).trans (congrArg Host.Outcome.next (hready.trans hmoves)), ?_⟩
  exact ⟨⟨tag, SMap.lookup_put_same _ _ _⟩, rfl, s.lookup_tlb_acked _ _ rest,
    (s.acked c.val p rest).reg_bump_same (Reg.tsmCnt 7), rfl⟩

/-! ### Copy, verification and switch -/

theorem does_ferryWriteDone (hstage : op.stage = .write) (haccs : ∀ a ∈ s.fab.accs, a.use ≠ FabUse.ferry p)
    (hsett : s.settPending (s.leaf p).tier (s.leaf p).loc op.dst op.dstLoc = false)
    (hnone : ∀ x ∈ s.tsm.ops, x.2.stage ≠ .ready) :
    Does (.ferryWriteDone p none) s fun t =>
      SMap.lookup t.tsm.ops p = some { op with stage := .verify } ∧ t.leaf p = s.leaf p ∧
        ∀ b, t.byte b = if homeAddr op.dst op.dstLoc 0 ≤ b ∧ b < homeAddr op.dst op.dstLoc 0 + 65536
          then s.byte (b - homeAddr op.dst op.dstLoc 0 + homeAddr (s.leaf p).tier (s.leaf p).loc 0) else s.byte b := by
  have haccs' : (s.fab.accs.any fun a => decide (a.use = FabUse.ferry p)) = false := by simpa using haccs
  have hstay : (s.pageCopied p op).startMoves = s.pageCopied p op :=
    State.startMoves_of_none (State.putOp_none_ready (by simp) fun x hx _ => hnone x hx)
  refine ⟨s.pageCopied p op, ?_, State.lookup_putOp _ _ _, rfl, s.byte_copyRange _ _ _⟩
  show execFerryWriteDone p none s = _
  rw [execFerryWriteDone, gate_live hl]
  simp only [hop, hstage, haccs', hsett, ne_eq, not_true_eq_false, if_false, Bool.or_self, Bool.false_eq_true]
  exact congrArg Host.Outcome.next hstay

theorem does_ferryVerifyDone_same (hstage : op.stage = .verify) (hsame : op.verified .same = true)
    (hferry : (s.leaf p).ferry = true) (hid : (s.leaf p).ferryId = op.ferryId) :
    Does (.ferryVerifyDone p .same) s fun t =>
      t.leaf p = { s.leaf p with tier := op.dst, loc := op.dstLoc, ferry := false, ferryId := 0 } ∧
        SMap.lookup t.tsm.ops p = none ∧ t.reg (Reg.tsmCnt 6) = s.reg (Reg.tsmCnt 6) + 1 ∧ t.mem = s.mem ∧
        t.tsm.shoots = s.tsm.shoots ++
          [⟨p, [0, 1, 2, 3, 4, 5, 6, 7], .switched op.req (s.leaf p).tier (s.leaf p).loc⟩] := by
  refine ⟨s.homeSwitched p op, ?_, State.leaf_setLeaf_self (State.inBoot_of_ferry hferry) _, SMap.lookup_erase_same _ _,
    State.reg_bump_same _ _, rfl, rfl⟩
  show execFerryVerifyDone p .same s = _
  rw [execFerryVerifyDone, gate_live hl]
  simp only [hop, hstage, hsame, hferry, hid, ne_eq, not_true_eq_false, if_false, Bool.not_true, Bool.false_eq_true, if_true,
    decide_true, Bool.and_self]
  rfl

end stages

/-! ### Claims lost before their switch (R69, R71) -/

@[simp] theorem State.postResult_tsm (s : State) (q tally : Nat) (it : Item) : (s.postResult q tally it).tsm = s.tsm := by
  simp [State.postResult]

@[simp] theorem State.postResult_mem (s : State) (q tally : Nat) (it : Item) : (s.postResult q tally it).mem = s.mem := by
  simp [State.postResult]

/-- The end of a request that came as an item posts a result: of the tier manager only the list of requests changes. -/
theorem State.endFerry_item {s : State} {r : FerryReq} (h : ∃ q k a b, r.origin = .item q k a b) :
    (∃ l, (s.endFerry r).tsm = { s.tsm with reqs := l }) ∧ (s.endFerry r).mem = s.mem := by
  obtain ⟨q, k, a, b, horigin⟩ := h
  simp only [State.endFerry, horigin, State.postResult_tsm, State.postResult_mem]
  exact ⟨⟨_, rfl⟩, trivial⟩

theorem State.endPage_item {s : State} {id : Nat} (h : s.ItemRequest id) (p : Nat) (o : Outcome1) :
    (∃ l, (s.endPage id p o).tsm = { s.tsm with reqs := l }) ∧ (s.endPage id p o).mem = s.mem := by
  have hcount (b : Bool) : (s.iff b fun s => s.bump (Reg.tsmCnt 5)).tsm = s.tsm ∧
      (s.iff b fun s => s.bump (Reg.tsmCnt 5)).mem = s.mem := by cases b <;> exact ⟨rfl, rfl⟩
  obtain ⟨htsm, hmem⟩ := hcount (isAbandoned o)
  unfold State.endPage
  dsimp only
  generalize (s.iff (isAbandoned o) fun s => s.bump (Reg.tsmCnt 5)) = u at htsm hmem
  rw [← htsm, ← hmem]
  split
  · exact ⟨⟨_, rfl⟩, rfl⟩
  · next r hfind =>
    split
    · have hmem : r ∈ s.tsm.reqs := by
        rw [← htsm]
        exact List.mem_of_find?_eq_some hfind
      exact State.endFerry_item (h r hmem (by simpa using List.find?_some hfind))
    · exact ⟨⟨_, rfl⟩, rfl⟩

/-- The page's claim is taken back, and a move's destination with it. -/
def State.unclaim (s : State) (p : Nat) (op : PageOp) : State :=
  let s := s.setLeaf p { s.leaf p with ferry := false, ferryId := 0 }
  let s := { s with tsm.ops := SMap.erase s.tsm.ops p }
  if op.isDrop then s else s.giveBack op.dst op.dstLoc

theorem State.dropClaim_eq {s : State} {p : Nat} {op : PageOp} (h : SMap.lookup s.tsm.ops p = some op) (o : Outcome1) :
    s.dropClaim p o = (s.unclaim p op).endPage op.req p o := by
  simp only [State.dropClaim, h, Bool.false_or]
  rfl

theorem State.giveBack_keeps (s : State) (t : Tier) (loc : Nat) :
    (∃ a, (s.giveBack t loc).tsm = { s.tsm with alloc := a }) ∧ (s.giveBack t loc).mem = s.mem := by
  unfold State.giveBack
  split
  · exact ⟨⟨_, rfl⟩, rfl⟩
  · exact ⟨⟨_, rfl⟩, rfl⟩

theorem State.lookup_giveBack {t : Tier} (h : t ≠ .dram) (s : State) (loc : Nat) :
    SMap.lookup (s.giveBack t loc).tsm.alloc (homeKey t loc) = none := by
  have hnot : ¬ (decide (t = .dram) && s.tsm.retired.contains loc) = true := by simp [h]
  rw [State.giveBack, if_neg hnot]
  exact SMap.lookup_erase_same _ _

theorem State.unclaim_keeps (s : State) (p : Nat) (op : PageOp) :
    (∃ a, (s.unclaim p op).tsm =
      { (s.setLeaf p { s.leaf p with ferry := false, ferryId := 0 }).tsm with ops := SMap.erase s.tsm.ops p, alloc := a }) ∧
      (s.unclaim p op).mem = s.mem := by
  unfold State.unclaim
  dsimp only
  split
  · exact ⟨⟨_, rfl⟩, rfl⟩
  · exact State.giveBack_keeps _ _ _

/-- A claim of a requested page that is lost before its switch leaves the page at its home, without its operation. -/
theorem State.dropClaim_item {s : State} {p : Nat} {op : PageOp} (h : SMap.lookup s.tsm.ops p = some op)
    (hreq : s.ItemRequest op.req) (o : Outcome1) :
    (s.dropClaim p o).leaf p = { s.leaf p with ferry := false, ferryId := 0 } ∧
      SMap.lookup (s.dropClaim p o).tsm.ops p = none ∧
      (op.isDrop = false → op.dst ≠ .dram → SMap.lookup (s.dropClaim p o).tsm.alloc (homeKey op.dst op.dstLoc) = none) ∧
      (s.dropClaim p o).mem = s.mem := by
  obtain ⟨⟨a, htsm⟩, hmem⟩ := s.unclaim_keeps p op
  have hreq' : (s.unclaim p op).ItemRequest op.req := by
    unfold State.ItemRequest
    rw [htsm]
    exact hreq
  obtain ⟨⟨l, hend⟩, hendmem⟩ := State.endPage_item hreq' p o
  rw [State.dropClaim_eq h]
  refine ⟨?_, ?_, fun hmove hdst => ?_, hendmem.trans hmem⟩
  · exact (State.leaf_congr (by rw [hend, htsm]) (by rw [hend, htsm]) p).trans (s.leaf_setLeaf_unclaimed p)
  · rw [hend, htsm]
    exact SMap.lookup_erase_same _ _
  · rw [hend]
    simp only [State.unclaim, hmove, Bool.false_eq_true, if_false]
    exact State.lookup_giveBack hdst _ _

theorem does_ferryVerifyDone_different {s : State} {p : Nat} {op : PageOp} (hl : s.live = true)
    (hop : SMap.lookup s.tsm.ops p = some op) (hstage : op.stage = .verify) (hmove : op.isDrop = false) (hdst : op.dst ≠ .dram)
    (hreq : s.ItemRequest op.req) :
    Does (.ferryVerifyDone p .different) s fun t =>
      t.leaf p = { s.leaf p with ferry := false, ferryId := 0 } ∧ SMap.lookup t.tsm.ops p = none ∧
        SMap.lookup t.tsm.alloc (homeKey op.dst op.dstLoc) = none ∧ t.mem = s.mem := by
  obtain ⟨hleaf, hops, halloc, hmem⟩ := State.dropClaim_item hop hreq (.failed Code.ferryVerify)
  refine ⟨s.dropClaim p (.failed Code.ferryVerify), ?_, hleaf, hops, halloc hmove hdst, hmem⟩
  have hfail : op.verified .different = false := rfl
  show execFerryVerifyDone p .different s = _
  rw [execFerryVerifyDone, gate_live hl]
  simp only [hop, hstage, hfail, ne_eq, not_true_eq_false, if_false, Bool.not_false, if_true]

/-- Settles O19: the last acknowledgement and one before it, the copy, and both ends of the verification. -/
theorem ferryStages : Obligations.FerryStages := by
  intro s p op hl hop
  refine ⟨fun c rest h hstage hmove hsrc hdst hnone hroom => does_shootdownAck_claimed hl hop h hstage hmove hsrc hdst hnone hroom,
    fun c d k rest hd h => ⟨_, exec_shootdownAck_more hl hd h, rfl, rfl, s.lookup_tlb_acked _ _ _⟩,
    does_ferryWriteDone hl hop, does_ferryVerifyDone_same hl hop, does_ferryVerifyDone_different hl hop⟩

end Sys2Proof.Machine
end

section
/-! ### Eviction passes (R80 to R86) -/

namespace Sys2Proof.Machine

open Sys2Proof

/-! ### Attention bits (R676) -/

theorem State.fn_setFn (s : State) (f g : Nat) (x : HostFn) : (s.setFn f x).fn g = if g = f then x else s.fn g := by
  simp [State.fn, State.setFn, SMap.get_set]

/-- A change of a function's other fields leaves every function's attention bits. -/
theorem State.attn_setFn {s : State} {f : Nat} {x : HostFn} (h : x.attn = (s.fn f).attn) (g : Nat) :
    ((s.setFn f x).fn g).attn = (s.fn g).attn := by
  rw [State.fn_setFn]
  split
  · next hg => rw [h, hg]
  · rfl

theorem State.attn_writeRecord (s : State) (c : HostCmd) (code : Nat) (detail data : Word) (done g : Nat) :
    ((s.writeRecord c code detail data done).fn g).attn = (s.fn g).attn := by
  unfold State.writeRecord
  refine State.attn_setFn ?_ g
  rfl

theorem State.attn_complete (s : State) (id code : Nat) (detail data : Word) (g : Nat) :
    ((s.complete id code detail data).fn g).attn = (s.fn g).attn := by
  unfold State.complete
  split
  · rfl
  · next c _ =>
    dsimp only
    split
    · rfl
    · split
      · refine (State.attn_setFn ?_ g).trans rfl
        rfl
      · exact (State.attn_writeRecord _ _ _ _ _ _ g).trans rfl

theorem attn_watchLoop (f : Nat) (cs : List HostCmd) (s : State) (g : Nat) :
    ((watchLoop f cs s).fn g).attn = (s.fn g).attn := by
  induction cs generalizing s with
  | nil => rfl
  | cons c cs ih =>
    rw [watchLoop, ih]
    split
    · exact State.attn_complete _ _ _ _ _ _
    · rfl

theorem State.attn_setAttn (s : State) (v : Nat) :
    ((s.setAttn v).fn 0).attn = (s.fn 0).attn ||| BitVec.ofNat 8 (2 ^ v) ∧
      ((s.setAttn v).fn 1).attn = (s.fn 1).attn ||| BitVec.ofNat 8 (2 ^ v) := by
  simp [State.setAttn, attn_watchLoop, State.fn_setFn]

/-! ### What an evicted candidate counts -/

/-- The counter of TSM.CNT that an action of eviction raises (R86). -/
def Decision.counter : Decision → Nat
  | .drop => 0
  | .pool => 1
  | .sett => 2
  | .blocked => 3

/-- A register that the way out of a candidate leaves: none of those that count its bytes, its refusals and its drops. -/
def OffEviction (k : Nat) : Prop := k ≠ Reg.tsmSettUsed ∧ k ≠ Reg.tsmCnt 3 ∧ k ≠ Reg.tsmCnt 4 ∧ k ≠ Reg.kvsCnt 3

theorem State.reg_iff (s : State) (b : Bool) {f : State → State} {k : Nat} (h : (f s).reg k = s.reg k) :
    (s.iff b f).reg k = s.reg k := by
  cases b
  · rfl
  · exact h

theorem State.reg_reserve (s : State) (w : Want) (dst : Tier) (loc : Nat) {k : Nat} (h : k ≠ Reg.tsmSettUsed) :
    (s.reserve w dst loc).reg k = s.reg k := by
  have htake : (if w.isDrop then s else s.take dst loc).reg k = s.reg k := by split <;> rfl
  rw [State.reserve]
  split
  · exact (State.reg_setReg_other _ _ _ _ h).trans htake
  · exact htake

theorem State.reg_claimPage (s : State) (req p : Nat) (w : Want) (dst : Tier) (loc : Nat) {k : Nat} (h : k ≠ Reg.tsmSettUsed) :
    (s.claimPage req p w dst loc).reg k = s.reg k := by
  rw [State.claimPage_eq]
  exact State.reg_reserve _ w dst loc h

theorem reg_claimLoop (req : Nat) (w : Want) (ps : List Nat) (s : State) {k : Nat} (h : OffEviction k) :
    (claimLoop req w ps s).2.2.reg k = s.reg k := by
  obtain ⟨hsett, -, hrationed, -⟩ := h
  induction ps generalizing s with
  | nil => rfl
  | cons p ps ih =>
    rw [claimLoop]
    split
    · next o _ =>
      refine (ih _).trans ?_
      cases o with
      | moved => rfl
      | abandoned => rfl
      | failed c => exact State.reg_iff _ _ (State.reg_bump_other _ _ _ hrationed)
    · exact (ih _).trans (State.reg_claimPage _ _ _ _ _ _ hsett)

theorem State.refreshRes_regs (s : State) (slot n : Nat) : (s.refreshRes slot n).regs = s.regs := by
  unfold State.refreshRes State.iff
  split <;> rfl

theorem State.reg_endFerry_evict {s : State} {r : FerryReq} {slot : Nat} {span : Option Nat} (hr : r.origin = .evict slot span)
    {k : Nat} (h : k ≠ Reg.tsmCnt 3) : (s.endFerry r).reg k = s.reg k := by
  simp only [State.endFerry, hr]
  refine (State.reg_iff _ _ (State.reg_bump_other _ _ _ h)).trans ?_
  split
  · exact State.reg_of_regs (State.refreshRes_regs _ _ _) k
  · rfl

theorem State.reg_startFerry_evict (s : State) (slot : Nat) (span : Option Nat) (w : Want) (ps : List Nat) {k : Nat}
    (h : OffEviction k) : (s.startFerry (.evict slot span) w ps).reg k = s.reg k := by
  have hclaims := reg_claimLoop s.tsm.nextReq w ps { s with tsm.nextReq := s.tsm.nextReq + 1 } h
  obtain ⟨-, hblocked, -, -⟩ := h
  rw [State.startFerry]
  dsimp only
  split
  · exact (State.reg_endFerry_evict rfl hblocked).trans hclaims
  · exact hclaims

theorem sideLoop_regs (slot n : Nat) (f : Side → Side) (bs : List Nat) (s : State) : (sideLoop slot n f bs s).regs = s.regs := by
  induction bs generalizing s with
  | nil => rfl
  | cons b bs ih => exact ih _

theorem State.defer_regs (s : State) (k : DeferKind) (ps os : List Nat) (r : Option Nat) : (s.defer k ps os r).regs = s.regs := by
  unfold State.defer
  dsimp only
  split <;> rfl

theorem State.reg_dropSpan {s u : State} {slot n : Nat} {req : Option Nat} (h : s.dropSpan slot n req = .ok u) {k : Nat}
    (hk : k ≠ Reg.kvsCnt 3) : u.reg k = s.reg k := by
  simp only [State.dropSpan] at h
  split_ifs at h
  cases h
  rw [State.reg_bump_other _ _ _ hk, State.reg_of_regs (State.defer_regs _ _ _ _ _)]
  refine (State.reg_iff _ _ (State.reg_of_regs ?_ k)).trans rfl
  rw [State.defer_regs]
  exact sideLoop_regs _ _ _ _ _

/-- Each decision raises its counter by 1 (R86). -/
theorem State.reg_evict_counter (s : State) (c : Cand) :
    (s.evict c).reg (Reg.tsmCnt (s.judge c).counter) = s.reg (Reg.tsmCnt (s.judge c).counter) + 1 := by
  have hoff (i : Nat) (hi : i < 3) : OffEviction (Reg.tsmCnt i) := by
    unfold OffEviction Reg.tsmCnt Reg.tsmSettUsed Reg.kvsCnt
    omega
  cases hj : s.judge c <;> simp only [State.evict, hj, Decision.counter]
  case blocked => exact State.reg_bump_same _ _
  case pool => rw [State.reg_startFerry_evict _ _ _ _ _ (hoff 1 (by decide)), State.reg_bump_same]
  case sett => rw [State.reg_startFerry_evict _ _ _ _ _ (hoff 2 (by decide)), State.reg_bump_same]
  case drop =>
    obtain ⟨-, hblocked, -, hdropped⟩ := hoff 0 (by decide)
    rw [← State.reg_bump_same]
    split
    · rfl
    · split
      · next u hu => exact State.reg_dropSpan hu hdropped
      · exact State.reg_bump_other _ _ _ hblocked

theorem State.evict_blocked {s : State} {c : Cand} (h : s.judge c = .blocked) : s.evict c = s.bump (Reg.tsmCnt 3) := by
  simp only [State.evict, h]

/-! ### The pass -/

theorem State.scarcity_congr {s t : State} (h : t.regs = s.regs) (n : Nat) : t.scarcity n = s.scarcity n := by
  have hreg : t.reg = s.reg := funext (State.reg_of_regs h)
  have hfield : t.field = s.field := by unfold State.field; rw [hreg]
  have hused : t.settUsed = s.settUsed := by rw [State.settUsed, hreg, State.settUsed]
  have hlimit : t.settLimit = s.settLimit := by rw [State.settLimit, hfield, State.settLimit]
  have hfailed : t.unitFailed = s.unitFailed := by unfold State.unitFailed; rw [hreg]
  rw [State.scarcity, hfield, hused, hlimit, hfailed, State.scarcity]

/-- The definition is unfolded as a function: a check of its match on a state would evaluate the ration. -/
theorem State.costSett_congr {s t : State} (hregs : t.regs = s.regs) (hhmp : t.hmp = s.hmp) (slot n : Nat) :
    t.costSett slot n = s.costSett slot n := by
  have hfield : t.field = s.field := by unfold State.field; rw [funext (State.reg_of_regs hregs)]
  obtain ⟨f, hf⟩ : ∃ f, f = State.costSett := ⟨_, rfl⟩
  rw [← hf]
  delta State.costSett at hf
  rw [hf]
  beta_reduce
  rw [hfield, State.scarcity_congr hregs, State.hdr_of_hmp hhmp]

/-- The choice of R82 and R83 does not rest on whether eviction has begun. -/
theorem State.judge_evicting (s : State) (b : Bool) (c : Cand) :
    ({ s with tsm.evicting := b } : State).judge c = s.judge c := by
  have hmode (n : Nat) : ({ s with tsm.evicting := b } : State).evictMode n = s.evictMode n := rfl
  have hdir (n : Nat) : ({ s with tsm.evicting := b } : State).dir n = s.dir n := rfl
  have hallowed : ({ s with tsm.evicting := b } : State).evictDrop c = s.evictDrop c := rfl
  have hpool (a n : Nat) : ({ s with tsm.evicting := b } : State).costPool a n = s.costPool a n := rfl
  have hdrop (a : Nat) : ({ s with tsm.evicting := b } : State).costDrop a = s.costDrop a := rfl
  have hsett (a n : Nat) : ({ s with tsm.evicting := b } : State).costSett a n = s.costSett a n :=
    State.costSett_congr (by rfl) (by rfl) a n
  simp only [State.judge, hmode, hdir, hallowed, hpool, hdrop, hsett]

/-- The end of a pass: the pressure condition holds and MEM_PRESSURE is set when free DRAM would stay below LOW (R85). -/
def State.notePressure (s : State) : State :=
  s.iff (s.freeDram + s.comingFree < s.evictLow) fun s => ({ s with tsm.pressure := true }).setAttn 2

theorem State.notePressure_keeps (s : State) : s.notePressure.regs = s.regs ∧ s.notePressure.tsm.leaf = s.tsm.leaf := by
  unfold State.notePressure State.iff
  split
  · simp only [State.setAttn_frame, and_self]
  · exact ⟨rfl, rfl⟩

section pass

variable {s : State} (hl : s.live = true)

include hl

theorem exec_evictionPass_at_high (hfree : s.evictHigh ≤ s.freeDram) :
    exec .evictionPass s = .next { s with tsm.pressure := false, tsm.evicting := false } := by
  show execEvictionPass s = _
  rw [execEvictionPass, gate_live hl, if_pos hfree]

theorem exec_evictionPass_idle (hlow : s.evictLow ≤ s.freeDram) (hfree : s.freeDram < s.evictHigh)
    (hidle : s.tsm.evicting = false) : exec .evictionPass s = .next s := by
  have hrest : ¬ (decide (s.freeDram < s.evictLow) || s.tsm.evicting) = true := by simp [hidle, hlow]
  show execEvictionPass s = _
  rw [execEvictionPass, gate_live hl, if_neg (Nat.not_le.2 hfree), if_neg hrest]

variable (hunits : (s.unitFailed 2 && s.unitFailed 3) = false) (hfree : s.freeDram < s.evictHigh)
  (hlow : s.freeDram < s.evictLow ∨ s.tsm.evicting = true)

include hunits hfree hlow

/-- Below LOW, or from there up to HIGH, a pass takes the candidates in order. -/
theorem exec_evictionPass_evicting :
    exec .evictionPass s = .next (evictLoop s.evictHigh s.candidates { s with tsm.evicting := true }).notePressure := by
  have hgo : (decide (s.freeDram < s.evictLow) || s.tsm.evicting) = true := by simpa using hlow
  show execEvictionPass s = _
  rw [execEvictionPass, gate_live hl, if_neg (Nat.not_le.2 hfree), if_pos hgo]
  show Host.Outcome.next (({ s with tsm.evicting := true } : State).iff (!(s.unitFailed 2 && s.unitFailed 3))
    fun u => evictLoop u.evictHigh u.candidates u).notePressure = _
  rw [hunits]
  rfl

/-- The one candidate is evicted while the drops and ferries in progress do not bring free DRAM to HIGH. -/
theorem exec_evictionPass_one {c : Cand} (hc : s.candidates = [c]) (hcoming : s.freeDram + s.comingFree < s.evictHigh) :
    exec .evictionPass s = .next (({ s with tsm.evicting := true } : State).evict c).notePressure := by
  have hshort : ¬ s.evictHigh ≤ ({ s with tsm.evicting := true } : State).freeDram +
      ({ s with tsm.evicting := true } : State).comingFree := Nat.not_le.2 hcoming
  rw [exec_evictionPass_evicting hl hunits hfree hlow, hc, evictLoop, if_neg hshort, evictLoop]

theorem does_evictionPass_counts {c : Cand} (hc : s.candidates = [c]) (hcoming : s.freeDram + s.comingFree < s.evictHigh)
    {d : Decision} (hd : s.judge c = d) :
    Does .evictionPass s fun t => t.reg (Reg.tsmCnt d.counter) = s.reg (Reg.tsmCnt d.counter) + 1 := by
  have hcount := ({ s with tsm.evicting := true } : State).reg_evict_counter c
  rw [State.judge_evicting, hd] at hcount
  obtain ⟨hregs, -⟩ := (({ s with tsm.evicting := true } : State).evict c).notePressure_keeps
  exact ⟨_, exec_evictionPass_one hl hunits hfree hlow hc hcoming, (State.reg_of_regs hregs _).trans hcount⟩

theorem does_evictionPass_blocked {c : Cand} (hc : s.candidates = [c]) (hcoming : s.freeDram + s.comingFree < s.evictHigh)
    (hd : s.judge c = .blocked) :
    Does .evictionPass s fun t => t.reg (Reg.tsmCnt 3) = s.reg (Reg.tsmCnt 3) + 1 ∧ t.tsm.leaf = s.tsm.leaf := by
  refine ⟨_, exec_evictionPass_one hl hunits hfree hlow hc hcoming, ?_⟩
  rw [State.evict_blocked ((State.judge_evicting s true c).trans hd)]
  obtain ⟨hregs, hleaf⟩ := (({ s with tsm.evicting := true } : State).bump (Reg.tsmCnt 3)).notePressure_keeps
  exact ⟨(State.reg_of_regs hregs _).trans (State.reg_bump_same _ _), hleaf⟩

end pass

theorem does_evictionPass_pressure {s : State} (hl : s.live = true) (hunits : (s.unitFailed 2 && s.unitFailed 3) = false)
    (hlow : s.freeDram < s.evictLow) (hfree : s.freeDram < s.evictHigh) (hnone : s.candidates = [])
    (hcoming : s.freeDram + s.comingFree < s.evictLow) :
    Does .evictionPass s fun t =>
      t.tsm.pressure = true ∧ (t.fn 0).attn.getLsbD 2 = true ∧ (t.fn 1).attn.getLsbD 2 = true ∧ t.mem = s.mem := by
  refine ⟨(({ s with tsm.evicting := true, tsm.pressure := true } : State).setAttn 2), ?_, ?_⟩
  · have hpress : decide (({ s with tsm.evicting := true } : State).freeDram +
        ({ s with tsm.evicting := true } : State).comingFree < ({ s with tsm.evicting := true } : State).evictLow) = true :=
      decide_eq_true hcoming
    rw [exec_evictionPass_evicting hl hunits hfree (.inl hlow), hnone, evictLoop, State.notePressure, hpress, State.iff_true]
  · obtain ⟨hzero, hone⟩ := ({ s with tsm.evicting := true, tsm.pressure := true } : State).attn_setAttn 2
    rw [hzero, hone]
    simp

end Sys2Proof.Machine
end

section
/-! ### Upkeep of pages and caches (R58, R64, R84, R87, R614) -/

namespace Sys2Proof.Machine

open Sys2Proof

/-! ### Write intents (R64) -/

section intent

variable {s : State} {cache : Fin 8} {p : Nat} (hl : s.live = true) (hv : (s.leaf p).v = true) (hpin : (s.leaf p).pin = false)

include hl hv hpin

theorem exec_writeIntent : exec (.writeIntent cache p) s = .next (s.intent cache.val p) := by
  show execWriteIntent cache p s = _
  simp [execWriteIntent, gate_live hl, hv, hpin]

theorem does_writeIntent_fill (hferry : (s.leaf p).ferry = false) (hwp : (s.leaf p).wp = false) :
    Does (.writeIntent cache p) s fun t => t = { s with tsm.tlb := SMap.put s.tsm.tlb (tlbKey cache.val p) (s.leaf p) } := by
  refine ⟨_, exec_writeIntent hl hv hpin, ?_⟩
  simp [State.intent, hferry, hwp, State.fillTlb, hv]

theorem does_writeIntent_protected (hferry : (s.leaf p).ferry = false) (hwp : (s.leaf p).wp = true) (hnew : p ∉ s.tsm.cow) :
    Does (.writeIntent cache p) s fun t => t.tsm.cow = s.tsm.cow ++ [p] ∧ t.tsm.tlb = s.tsm.tlb ∧
      t.reg (Reg.tsmCnt 12) = s.reg (Reg.tsmCnt 12) + 1 := by
  refine ⟨({ s with tsm.cow := s.tsm.cow ++ [p] } : State).bump (Reg.tsmCnt 12), ?_, rfl, rfl, State.reg_bump_same _ _⟩
  rw [exec_writeIntent hl hv hpin]
  simp [State.intent, hferry, hwp, State.askCopy, hnew]

/-- A writer abandons a claim (R64, R69), and its cache takes the entry without FERRY. -/
theorem does_writeIntent_abandon {op : PageOp} (hferry : (s.leaf p).ferry = true) (hwp : (s.leaf p).wp = false)
    (hop : SMap.lookup s.tsm.ops p = some op) (hreq : s.ItemRequest op.req) :
    Does (.writeIntent cache p) s fun t =>
      t.leaf p = { s.leaf p with ferry := false, ferryId := 0 } ∧ SMap.lookup t.tsm.ops p = none := by
  obtain ⟨hleaf, hops, -, -⟩ := State.dropClaim_item hop hreq .abandoned
  refine ⟨(s.dropClaim p .abandoned).fillTlb cache.val p, ?_, ?_⟩
  · rw [exec_writeIntent hl hv hpin, State.intent]
    simp [hferry, hleaf, hwp]
  · unfold State.fillTlb State.iff
    split <;> exact ⟨hleaf, hops⟩

end intent

/-! ### Periodic events (R58, R84, R87) -/

/-- A periodic event that is due on a live module takes effect, and its time is noted. -/
theorem gate_periodic {s : State} (hl : s.live = true) {event : Nat} {period : State → Nat} (hdue : s.due event (period s))
    (f : State → State) :
    gate s (fun s => s.periodic event (period s) f) = .next (f { s with ticks := SMap.set 0 s.ticks event s.now }) := by
  rw [gate_live hl, State.periodic]
  exact congrArg Host.Outcome.next (if_pos hdue)

/-- A mapped page's AGE rises by 1 up to 255. -/
def Leaf.aged (l : Leaf) : Leaf := if l.v then { l with age := min 255 (l.age + 1) } else l

theorem aged_map_eq (m : SMap Leaf) :
    (m.map fun x => if x.2.v then (x.1, { x.2 with age := min 255 (x.2.age + 1) }) else x) = m.map fun x => (x.1, x.2.aged) := by
  refine List.map_congr_left fun x _ => ?_
  unfold Leaf.aged
  split <;> rfl

/-- An unmapped page does not age, so a page that no table lists stays as it is. -/
theorem get_map_aged (m : SMap Leaf) (q : Nat) :
    SMap.get {} (m.map fun x => (x.1, x.2.aged)) q = (SMap.get {} m q : Leaf).aged := by
  rw [SMap.get, SMap.lookup_map, SMap.get]
  cases SMap.lookup m q <;> rfl

theorem does_ageTick {s : State} (hl : s.live = true) (hboot : s.tsm.boot = false)
    (hdue : s.due tickAge (msec (s.field Reg.tsmWatermark 47 32))) :
    Does .ageTick s fun t => ∀ q, t.leaf q = (s.leaf q).aged := by
  refine ⟨_, gate_periodic (period := fun s => msec (s.field Reg.tsmWatermark 47 32)) hl hdue _, fun q => ?_⟩
  simp only [State.leaf, hboot, Bool.false_and, Bool.false_eq_true, if_false, aged_map_eq, get_map_aged]

/-- A rate of busy engines fills its 16 bits at most. -/
theorem rate_mod {ns : Nat} (h : 0 < ns) (old bytes : Nat) : rate old bytes ns % 2 ^ 16 = min 65535 (bytes * 10 / ns) := by
  rw [rate, if_neg (Nat.pos_iff_ne_zero.1 h)]
  exact Nat.mod_eq_of_lt ((Nat.min_le_left _ _).trans_lt (by decide))

theorem bits_threeRates (a b c : Nat) :
    bits (fld 47 32 a ||| fld 31 16 b ||| fld 15 0 c) 47 32 = a % 2 ^ 16 ∧
      bits (fld 47 32 a ||| fld 31 16 b ||| fld 15 0 c) 31 16 = b % 2 ^ 16 ∧
      bits (fld 47 32 a ||| fld 31 16 b ||| fld 15 0 c) 15 0 = c % 2 ^ 16 := by
  simp [bits_or, bits_fld_same, bits_fld_other]

theorem does_bwEstUpdate {s : State} (hl : s.live = true) {pb pn rb rn wb wn : Nat} (hpn : 0 < pn) (hrn : 0 < rn) (hwn : 0 < wn)
    (hdue : s.due tickBw (msec 100)) :
    Does (.bwEstUpdate pb pn rb rn wb wn) s fun t =>
      t.field Reg.tsmBwEst 47 32 = min 65535 (pb * 10 / pn) ∧ t.field Reg.tsmBwEst 31 16 = min 65535 (rb * 10 / rn) ∧
        t.field Reg.tsmBwEst 15 0 = min 65535 (wb * 10 / wn) ∧ ∀ k, k ≠ Reg.tsmBwEst → t.reg k = s.reg k := by
  refine ⟨_, gate_periodic (period := fun _ => msec 100) hl hdue _, ?_⟩
  simp only [State.field, State.reg_setReg_same]
  obtain ⟨hpool, hread, hwrite⟩ := bits_threeRates (rate (s.field Reg.tsmBwEst 47 32) pb pn)
    (rate (s.field Reg.tsmBwEst 31 16) rb rn) (rate (s.field Reg.tsmBwEst 15 0) wb wn)
  exact ⟨hpool.trans (rate_mod hpn _ _), hread.trans (rate_mod hrn _ _), hwrite.trans (rate_mod hwn _ _),
    fun k hk => State.reg_setReg_other _ _ _ _ hk⟩

theorem does_rationBinAdvance {s : State} (hl : s.live = true) (hdue : s.due tickBin (900 * 10 ^ 9)) :
    Does .rationBinAdvance s fun t => t.tsm.bin = (s.tsm.bin + 1) % 96 ∧ SMap.get 0 t.tsm.bins t.tsm.bin = 0 ∧
      t.reg Reg.tsmSettUsed =
        BitVec.ofNat 64 ((s.reg Reg.tsmSettUsed).toNat - SMap.get 0 s.tsm.bins ((s.tsm.bin + 1) % 96)) :=
  ⟨_, gate_periodic (period := fun _ => 900 * 10 ^ 9) hl hdue _, rfl,
    SMap.get_set_same 0 s.tsm.bins ((s.tsm.bin + 1) % 96) 0, State.reg_setReg_same _ _ _⟩

/-! ### Retirements (R614) -/

theorem does_retireRetry {s : State} (hl : s.live = true) {d : Nat} (hd : d ∈ s.tsm.retiring) (hhome : s.pageAtDram d = none) :
    Does (.retireRetry d) s fun t =>
      d ∉ t.tsm.retiring ∧ t.field Reg.dramStatus 35 23 = (s.field Reg.dramStatus 35 23 + 1) % 2 ^ 13 ∧ t.mem = s.mem := by
  refine ⟨s.retiredPage d, ?_, ?_, State.field_setField_same _ _ _ _ _ (by decide) (by decide), rfl⟩
  · show execRetireRetry d s = _
    simp [execRetireRetry, gate_live hl, hd, hhome]
  · show d ∉ s.tsm.retiring.filter fun x => decide (x ≠ d)
    simp

/-- Settles O20: the passes of eviction, then write intents, the periodic events and retirements. -/
theorem evictionAndUpkeep : Obligations.EvictionAndUpkeep := by
  refine ⟨fun s hl hunits => ⟨does_evictionPass_pressure hl hunits, fun hfree => ⟨_, exec_evictionPass_at_high hl hfree, rfl⟩,
    exec_evictionPass_idle hl, fun c hlow hc hcoming => ?_⟩, fun s cache p hl => ⟨does_writeIntent_fill hl,
    does_writeIntent_protected hl, fun op hv hpin hferry hwp => does_writeIntent_abandon hl hv hpin hferry hwp,
    does_ageTick hl, fun _ _ _ _ _ _ => does_bwEstUpdate hl, does_rationBinAdvance hl, fun _ => does_retireRetry hl⟩⟩
  have hfree : s.freeDram < s.evictHigh := (Nat.le_add_right _ _).trans_lt hcoming
  exact ⟨does_evictionPass_counts hl hunits hfree hlow hc hcoming, does_evictionPass_counts hl hunits hfree hlow hc hcoming,
    does_evictionPass_counts hl hunits hfree hlow hc hcoming, does_evictionPass_blocked hl hunits hfree hlow hc hcoming⟩

end Sys2Proof.Machine
end

section
/-! ### Host commands in progress and their completions (R658, R663, R665, R673) -/

namespace Sys2Proof.Machine

open Sys2Proof

/-! ### Commands that begin -/

/-- The first element with p is also the first with p and q, when it has q. -/
theorem find?_and_of_find? {α : Type} {p q : α → Bool} {l : List α} {a : α} (h : l.find? p = some a) (hq : q a = true) :
    l.find? (fun x => p x && q x) = some a := by
  induction l with
  | nil => cases h
  | cons x l ih =>
    rw [List.find?_cons] at h
    split at h
    · next hp =>
      cases h
      simp [hp, hq]
    · next hp => simpa [hp] using ih h

section waits

variable {s : State} {id op : Nat} {c : HostCmd} (h : Waits s id op c)

include h

theorem Waits.cmd? : s.cmd? id op = some c := by
  obtain ⟨-, hfind, hop, hbegan, hmay, -⟩ := h
  have hq : (decide (c.opcode = op) && (!c.began && s.mayBegin c)) = true := by simp [hop, hbegan, hmay]
  simpa only [State.cmd?, Bool.and_assoc] using
    find?_and_of_find? (q := fun x => decide (x.opcode = op) && (!x.began && s.mayBegin x)) hfind hq

theorem Waits.hostCmd (f : HostCmd → State → State) : hostCmd id op s f = .next (f c s) := by
  rw [Machine.hostCmd, gate_live h.1, h.cmd?]

theorem Waits.id_eq : c.id = id := by
  obtain ⟨-, hfind, -⟩ := h
  simpa using List.find?_some hfind

theorem Waits.is_open : Open s c := by
  have hid := h.id_eq
  obtain ⟨hl, hfind, -, -, -, hsilent, hdisc, hide⟩ := h
  exact ⟨hl, hid ▸ hfind, hsilent, hdisc, hide⟩

end waits

/-! ### The completion record -/

/-- Command c, in progress at s, is in progress at u too, which has sent what s has and perhaps more. -/
structure Underway (s u : State) (c : HostCmd) : Prop where
  found : ∃ b n, u.host.cmds.find? (fun x => x.id = c.id) = some { c with began := b, sinceNs := n }
  silent : c.silent = false
  discarded : c.discarded = false
  ide : u.ideBlocked c.fn = false
  out : s.out <+: u.out

theorem Open.underway {s : State} {c : HostCmd} (h : Open s c) : Underway s s c :=
  ⟨⟨c.began, c.sinceNs, h.2.1⟩, h.2.2.1, h.2.2.2.1, h.2.2.2.2, List.prefix_refl _⟩

section underway

variable {s u v : State} {c : HostCmd} (h : Underway s u c)

include h

theorem Underway.congr (hhost : v.host = u.host) (hplat : v.plat = u.plat) (hout : u.out <+: v.out) : Underway s v c where
  found := by
    rw [hhost]
    exact h.found
  silent := h.silent
  discarded := h.discarded
  ide := by
    rw [← h.ide]
    unfold State.ideBlocked State.fuse State.fn
    rw [hhost, hplat]
  out := h.out.trans hout

theorem Underway.began : Underway s (u.began c.id) c where
  found := by
    obtain ⟨b, n, hfind⟩ := h.found
    have hsame : ∀ x : HostCmd, (if x.id = c.id then { x with began := true, sinceNs := u.now } else x).id = x.id :=
      fun x => by split <;> rfl
    refine ⟨true, u.now, ?_⟩
    simp only [State.began, List.find?_map, Function.comp_def, hsame, hfind]
    simp
  silent := h.silent
  discarded := h.discarded
  ide := h.ide
  out := h.out

/-- The completion of a command in progress writes its record, and nothing is left of the command (R658, R673). -/
theorem Underway.answers {code : Nat} (hcode : code < 8192) (detail data : Word) :
    Answers s (u.complete c.id code detail data) c code detail data := by
  obtain ⟨b, n, hfind⟩ := h.found
  obtain ⟨l, hl⟩ := h.out
  let w : State := { u with host.cmds := u.host.cmds.filter fun x => x.id ≠ c.id }
  have hide : w.ideBlocked c.fn = false := h.ide
  have hdone : u.complete c.id code detail data =
      w.writeRecord { c with began := b, sinceNs := n } code detail data u.now := by
    simp only [State.complete, hfind, h.discarded, h.silent, Bool.false_eq_true, if_false]
    exact if_neg (by rw [hide]; decide)
  rw [hdone]
  refine ⟨fun x hx => ?_, l ++ [_], _, by rw [State.writeRecord, State.emit, State.setFn_out, ← List.append_assoc, hl],
    List.mem_append_right _ (List.mem_singleton_self _), rfl, rfl, ?_, ?_, ?_, rfl, rfl⟩
  · simpa using (List.mem_filter.1 (show x ∈ w.host.cmds from hx)).2
  · simpa [bits_or, bits_fld_same, bits_fld_other] using hcode
  · simp [bits_or, bits_fld_same, bits_fld_other]
  · simp [bits_or, bits_fld_same, bits_fld_other]

end underway

/-! ### What messages to other modules leave -/

theorem State.out_prefix_emit (s : State) (o : Out) : s.out <+: (s.emit o).out := List.prefix_append _ _

theorem State.out_prefix_nextFlit {s t : State} {p : Nat} (h : s.nextFlit p = some t) : s.out <+: t.out := by
  simp only [State.nextFlit] at h
  split at h
  · cases h
  · obtain ⟨vc, -, rfl⟩ := Option.map_eq_some_iff.1 h
    exact State.out_prefix_emit _ _

theorem out_prefix_pumpLoop (p n : Nat) (s : State) : s.out <+: (pumpLoop p n s).out := by
  induction n generalizing s with
  | zero => exact List.prefix_refl _
  | succ n ih =>
    unfold pumpLoop
    split
    · exact List.prefix_refl _
    · next t h => exact (State.out_prefix_nextFlit h).trans (ih t)

theorem State.out_prefix_sendFrame (s : State) (f : FrameHead) : s.out <+: (s.sendFrame f).out := by
  unfold State.sendFrame
  split
  · exact List.prefix_refl _
  · dsimp only
    split
    · exact List.prefix_refl _
    · exact out_prefix_pumpLoop _ _ (s.setTrl _ _)

theorem State.out_prefix_sendTagged (s : State) (f : FrameHead) (w : Word) (cls flags : Nat) :
    s.out <+: (s.sendTagged f w cls flags).out :=
  State.out_prefix_sendFrame (s.nextSeq _ _).2 _

theorem State.mem_out_send (s : State) (m cls : Nat) (x : Msg) : Out.toModule m cls x ∈ (s.send m cls x).out :=
  (State.out_prefix_sendTagged (s.emit (.toModule m cls x)) _ _ _ _).subset (List.mem_append_right _ (List.mem_singleton_self _))

theorem State.out_prefix_send (s : State) (m cls : Nat) (x : Msg) : s.out <+: (s.send m cls x).out :=
  (s.out_prefix_emit _).trans (State.out_prefix_sendTagged _ _ _ _ _)

theorem State.out_prefix_sendAll (s : State) (cls : Nat) (x : Msg) : s.out <+: (s.sendAll cls x).out := by
  unfold State.sendAll
  generalize s.peers = ps
  induction ps generalizing s with
  | nil => exact List.prefix_refl _
  | cons m ps ih => exact (s.out_prefix_send m cls x).trans (ih _)

/-- Sending changes the counters of the trail links alone (R637). -/
def OffTrail (k : Nat) : Prop := k / 65536 ≠ 8

theorem State.reg_bump_offTrail (s : State) {k i : Nat} (hk : OffTrail k) (hi : i < 8) : (s.bump (Reg.trlCnt i)).reg k = s.reg k := by
  refine State.reg_bump_other s _ _ fun e => hk ?_
  rw [e, Reg.trlCnt]
  omega

section trail

variable {k : Nat} (hk : OffTrail k)

include hk

theorem State.reg_nextFlit {s t : State} {p : Nat} (h : s.nextFlit p = some t) : t.reg k = s.reg k := by
  simp only [State.nextFlit] at h
  split at h
  · cases h
  · obtain ⟨vc, -, rfl⟩ := Option.map_eq_some_iff.1 h
    exact State.reg_bump_offTrail _ hk (by decide)

theorem reg_pumpLoop (p n : Nat) (s : State) : (pumpLoop p n s).reg k = s.reg k := by
  induction n generalizing s with
  | zero => rfl
  | succ n ih =>
    unfold pumpLoop
    split
    · rfl
    · next t h => rw [ih, State.reg_nextFlit hk h]

theorem State.reg_sendFrame (s : State) (f : FrameHead) : (s.sendFrame f).reg k = s.reg k := by
  unfold State.sendFrame
  split
  · exact State.reg_bump_offTrail _ hk (by decide)
  · dsimp only
    split
    · rfl
    · exact reg_pumpLoop hk _ _ _

theorem State.reg_send (s : State) (m cls : Nat) (x : Msg) : (s.send m cls x).reg k = s.reg k :=
  State.reg_sendFrame hk _ _

theorem State.reg_sendAll (s : State) (cls : Nat) (x : Msg) : (s.sendAll cls x).reg k = s.reg k := by
  unfold State.sendAll
  generalize s.peers = ps
  induction ps generalizing s with
  | nil => rfl
  | cons m ps ih => exact (ih _).trans (State.reg_send hk s m cls x)

end trail

/-! ### A transition that the shards follow (R99, R106) -/

theorem State.follow_alone {s : State} (hp : s.peers = []) (slot : Nat) (w : Word) (k : ChangeKind) (x : ShardShare) (a : Option Nat)
    (code : Nat) (data : Word) : s.follow slot w k x a code data = s.reply a code 0 data := by
  simp [State.follow, hp]

theorem State.follow_peers {s : State} (hp : s.peers ≠ []) (slot : Nat) (w : Word) (k : ChangeKind) (x : ShardShare) (a : Option Nat)
    (code : Nat) (data : Word) : s.follow slot w k x a code data =
      { s.sendAll 7 (.share w x) with
        hmp.changes := SMap.put s.hmp.changes slot
          { kind := k, cmd := a, sinceNs := s.now, waiting := s.peers, code := code, data := data } } := by
  have hne : s.peers.isEmpty = false := by simpa using hp
  simp [State.follow, hne]

section follow

variable (s : State) (slot : Nat) (w : Word) (k : ChangeKind) (x : ShardShare) (a : Option Nat) (code : Nat) (data : Word)

/-- Of the hampers only the list of changes in progress may differ. -/
theorem State.follow_hmp : ∃ g, (s.follow slot w k x a code data).hmp = { s.hmp with changes := g } := by
  by_cases hp : s.peers = []
  · exact ⟨s.hmp.changes, by simp [State.follow_alone hp]⟩
  · exact ⟨_, by rw [State.follow_peers hp]; simp; rfl⟩

@[simp] theorem State.dir_follow (n : Nat) : (s.follow slot w k x a code data).dir n = s.dir n := by
  obtain ⟨g, hg⟩ := s.follow_hmp slot w k x a code data
  simp [State.dir, hg]

@[simp] theorem State.hdr_follow (n : Nat) : (s.follow slot w k x a code data).hdr n = s.hdr n := by
  obtain ⟨g, hg⟩ := s.follow_hmp slot w k x a code data
  simp [State.hdr, hg]

@[simp] theorem State.follow_keeps : (s.follow slot w k x a code data).mem = s.mem ∧
    (s.follow slot w k x a code data).snp = s.snp ∧ (s.follow slot w k x a code data).plat = s.plat ∧
    (s.follow slot w k x a code data).comp = s.comp ∧ (s.follow slot w k x a code data).now = s.now := by
  by_cases hp : s.peers = []
  · simp [State.follow_alone hp]
  · simp [State.follow_peers hp]

theorem State.reg_follow {j : Nat} (hj : OffTrail j) : (s.follow slot w k x a code data).reg j = s.reg j := by
  by_cases hp : s.peers = []
  · simp [State.follow_alone hp, State.reg]
  · rw [State.follow_peers hp]
    exact State.reg_sendAll hj s 7 _

/-- Without a command behind it nothing of the host port changes. -/
theorem State.follow_none_host : (s.follow slot w k x none code data).host = s.host ∧
    s.out <+: (s.follow slot w k x none code data).out := by
  by_cases hp : s.peers = []
  · rw [State.follow_alone hp]
    exact ⟨rfl, List.prefix_refl _⟩
  · rw [State.follow_peers hp]
    refine ⟨?_, s.out_prefix_sendAll 7 _⟩
    simp

end follow

/-- The command behind a transition ends with it, at once or with the shards. -/
theorem Underway.follows {s u : State} {c : HostCmd} (h : Underway s u c) (hcomp : u.comp = s.comp) (hnow : u.now = s.now) (slot : Nat)
    (w : Word) (k : ChangeKind) (x : ShardShare) (data : Word) :
    Follows s (u.follow slot w k x (some c.id) 0 data) slot k c data := by
  have hpeers : u.peers = s.peers := by
    unfold State.peers State.self
    rw [hcomp]
  refine ⟨fun hp => ?_, fun hp => ?_⟩
  · rw [State.follow_alone (hpeers.trans hp)]
    exact h.answers (by decide) 0 data
  · rw [State.follow_peers (hpeers ▸ hp), hpeers, hnow]
    exact SMap.lookup_put_same _ _ _

end Sys2Proof.Machine
end

section
/-! ### Slots of the directory: hampers installed and freed (R99, R104, R107) -/

namespace Sys2Proof.Machine

open Sys2Proof

/-! ### Entries and headers -/

theorem State.dir_congr {s t : State} (h : t.hmp.dir = s.hmp.dir) (n : Nat) : t.dir n = s.dir n := by
  unfold State.dir
  rw [h]

theorem State.hdr_congr {s t : State} (h : t.hmp.hdr = s.hmp.hdr) (n : Nat) : t.hdr n = s.hdr n := by
  unfold State.hdr
  rw [h]

theorem State.dir_setDir_other (s : State) {n m : Nat} (h : m ≠ n) (e : DirEnt) : (s.setDir n e).dir m = s.dir m := by
  rw [State.dir_setDir, if_neg h]

theorem State.dir_of_set {s u : State} {slot : Nat} {e : DirEnt} (h : u.hmp.dir = SMap.set {} s.hmp.dir slot e) (n : Nat) :
    u.dir n = if n = slot then e else s.dir n := by
  unfold State.dir
  rw [h, SMap.get_set]

theorem State.hdr_of_set {s u : State} {slot : Nat} {e : Header} (h : u.hmp.hdr = SMap.set {} s.hmp.hdr slot e) (n : Nat) :
    u.hdr n = if n = slot then e else s.hdr n := by
  unfold State.hdr
  rw [h, SMap.get_set]

theorem State.reg_of_bump {s u : State} {k : Nat} (h : u.regs = (s.bump k).regs) : u.reg k = s.reg k + 1 :=
  (State.reg_of_regs h k).trans (State.reg_bump_same s k)

/-- A handle names its generation (R101). -/
theorem hGen_mkHandle (m slot : Nat) (g : BitVec 32) : hGen (mkHandle m slot g) = g := by
  have hg : g.toNat % 4294967296 = g.toNat := Nat.mod_eq_of_lt g.isLt
  simp [hGen, mkHandle, bits_or, bits_fld_same, bits_fld_other, hg]

/-- The handle of a new hamper names a generation that is not 0. -/
theorem State.newHandle_eq (s : State) (slot : Nat) :
    s.newHandle slot = mkHandle s.self slot (hGen (s.newHandle slot)) ∧ hGen (s.newHandle slot) ≠ 0 := by
  unfold State.newHandle
  rw [hGen_mkHandle]
  refine ⟨rfl, ?_⟩
  split
  · decide
  · assumption

theorem nextGen_ne_zero (g : BitVec 32) : nextGen g ≠ 0 := by
  unfold nextGen
  split
  · decide
  · assumption

theorem newer_self {w : Nat} (a : BitVec w) : newer a a = false := by simp [newer]

/-! ### A hamper is installed (R104, R109, R110) -/

theorem State.mapDirs_keeps (s : State) (p : Nat) : ∃ d, s.mapDirs p = { s with tsm.dirs := d } := by
  unfold State.mapDirs State.addTable
  dsimp only
  split <;> split <;> exact ⟨_, rfl⟩

theorem State.mapPage_keeps {s u : State} {p : Nat} {t : Tier} {sub : Nat} {kv : Bool} {tclass : Nat}
    (h : s.mapPage p t sub kv tclass = some u) : ∃ x m, u = { s with tsm := x, mem := m } := by
  unfold State.mapPage at h
  split at h
  · cases h
  · split at h
    · obtain ⟨d, hd⟩ := s.mapDirs_keeps p
      cases h
      exact ⟨_, _, by rw [State.mapAt, hd]; rfl⟩
    · cases h

/-- Mapping pages changes the tier manager and the bytes of the pages alone. -/
theorem mapRun_keeps {t : Tier} {sub : Nat} {kv : Bool} {tclass : Nat} {ps : List Nat} {s u : State}
    (h : mapRun t sub kv tclass ps s = some u) : ∃ x m, u = { s with tsm := x, mem := m } := by
  induction ps generalizing s with
  | nil =>
    cases h
    exact ⟨_, _, rfl⟩
  | cons p ps ih =>
    unfold mapRun at h
    split at h
    · cases h
    · next v hv =>
      obtain ⟨x, m, rfl⟩ := State.mapPage_keeps hv
      obtain ⟨y, n, rfl⟩ := ih h
      exact ⟨y, n, rfl⟩

/-- A hamper stands in the slot under its handle, its header fresh; no other entry, no register and nothing of the host port changes. -/
structure Installed (s u : State) (slot len : Nat) (k : HKind) (st : HState) (w o : Word) : Prop where
  otherDirs : OtherDirs s u slot
  gen : (u.dir slot).gen = hGen w
  state : (u.dir slot).state = st
  kind : (u.dir slot).kind = k
  handle : (u.hdr slot).handle = w
  origin : (u.hdr slot).origin = o
  maxTokens : (u.hdr slot).maxTokens = len
  spans : (u.hdr slot).spans = len / 256
  commitLen : (u.hdr slot).commitLen = 0
  regs : u.regs = s.regs
  host : u.host = s.host
  plat : u.plat = s.plat
  out : u.out = s.out
  comp : u.comp = s.comp
  now : u.now = s.now
  snp : u.snp = s.snp

theorem State.install_installed {s u : State} {slot model maxTokens tclass customer vocab : Nat} {kind : HKind} {st : HState}
    {w o : Word} (h : s.install slot model maxTokens tclass customer vocab kind st w o = some u) :
    Installed s u slot maxTokens kind st w o := by
  unfold State.install at h
  dsimp only at h
  split at h
  · cases h
  · next b v hv =>
    obtain ⟨y, hy, hyv⟩ := Option.map_eq_some_iff.1 hv
    obtain ⟨x, m, rfl⟩ := mapRun_keeps hy
    cases hyv
    cases h
    constructor
    case otherDirs => exact fun n hn => State.dir_setDir_other _ hn _
    case gen | state | kind => rw [State.dir_setDir_same]
    case handle | origin | maxTokens | spans | commitLen => exact congrArg _ (State.hdr_setHdr_same _ _ _)
    all_goals rfl

/-! ### A hamper goes to FREE (R107) -/

/-- The slot is FREE under its next generation and gives nothing; the registers, the host port and what has been sent stay. -/
structure Freed (s t : State) (slot : Nat) : Prop where
  dir : t.hmp.dir = SMap.set {} s.hmp.dir slot { gen := nextGen (s.dir slot).gen, lastNs := s.now }
  gives : SMap.lookup t.hmp.gives slot = none
  regs : t.regs = s.regs
  host : t.host = s.host
  plat : t.plat = s.plat
  out : t.out = s.out
  comp : t.comp = s.comp
  now : t.now = s.now
  snp : t.snp = s.snp

section freed

variable {s t : State} {slot : Nat} (h : Freed s t slot)

include h

theorem Freed.dir_eq (n : Nat) : t.dir n = if n = slot then { gen := nextGen (s.dir slot).gen, lastNs := s.now } else s.dir n :=
  State.dir_of_set h.dir n

theorem Freed.state : (t.dir slot).state = .free := by simp [h.dir_eq]

theorem Freed.gen : (t.dir slot).gen = nextGen (s.dir slot).gen := by simp [h.dir_eq]

theorem Freed.otherDirs : OtherDirs s t slot := fun n hn => by rw [h.dir_eq, if_neg hn]

theorem Freed.underway {r : State} {c : HostCmd} (hr : Underway r s c) : Underway r t c :=
  hr.congr h.host h.plat (h.out ▸ List.prefix_refl _)

end freed

theorem State.setTabWord_keeps {s : State} {a : Nat} (h : s.tabled (a / 65536) = false) (v : Word) :
    ∃ m, s.setTabWord a v = { s with mem := m } := by
  unfold State.setTabWord
  rw [h]
  split <;> exact ⟨_, rfl⟩

/-- Beside the tables of the hampers, the grammar that a hamper leaves has its bytes changed, and the hamper its header (R458). -/
theorem State.closeGrammar_keeps {s : State} {slot : Nat}
    (h : ∀ n p, (s.hdr slot).gram = some (n, p) → s.tabled (s.gramAt n / 65536) = false) :
    ∃ m g, s.closeGrammar slot = { s with mem := m, hmp.hdr := g } := by
  unfold State.closeGrammar
  split
  · exact ⟨_, _, rfl⟩
  · next n p hgram =>
    obtain ⟨m, hm⟩ := State.setTabWord_keeps (h n p hgram) (BitVec.ofNat 64 (s.gramEntry n).addr)
    have hpage : (s.gramAt n + 8) / 65536 = s.gramAt n / 65536 := by
      unfold State.gramAt
      omega
    obtain ⟨m', hm'⟩ := State.setTabWord_keeps (s := { s with mem := m }) (a := s.gramAt n + 8)
      (hpage ▸ h n p hgram) (fld 63 48 ((s.gramEntry n).refs - 1) ||| fld 47 44 (s.gramEntry n).vocab)
    have hset : s.setGramEntry n { s.gramEntry n with refs := (s.gramEntry n).refs - 1 } = { s with mem := m' } := by
      unfold State.setGramEntry
      rw [hm]
      exact hm'
    dsimp only
    rw [hset]
    exact ⟨_, _, rfl⟩

theorem unshareLoop_keeps (slot : Nat) (ns : List Nat) (s : State) : ∃ k, unshareLoop slot ns s = { s with kvs.spans := k } := by
  induction ns generalizing s with
  | nil => exact ⟨_, rfl⟩
  | cons n ns ih =>
    unfold unshareLoop
    dsimp only
    split
    · split
      · next o _ =>
        obtain ⟨k, hk⟩ : ∃ k, (s.iff (!s.entryLost o n) fun s =>
            s.setSpan o n { s.span o n with sharers := (s.span o n).sharers - 1 }) = { s with kvs.spans := k } := by
          unfold State.iff
          split <;> exact ⟨_, rfl⟩
        rw [hk]
        exact ih _
      · exact ih _
    · exact ih _

theorem State.defer_keeps (s : State) (k : DeferKind) (ps os : List Nat) (r : Option Nat) :
    ∃ x, s.defer k ps os r = { s with kvs := x } := by
  unfold State.defer
  dsimp only
  split <;> exact ⟨_, rfl⟩

theorem State.freeOne_freed (s : State) (slot : Nat) : Freed s (s.freeOne slot) slot := by
  obtain ⟨k, hk⟩ := unshareLoop_keeps slot (List.range (s.hdr slot).spans) s
  obtain ⟨x, hx⟩ : ∃ x, (({ s with kvs.spans := k } : State).iff (!(s.hamperPages slot).isEmpty) fun s' =>
      s'.defer .pages (s.hamperPages slot) [] none) = { s with kvs := x } := by
    unfold State.iff
    split
    · exact State.defer_keeps _ _ _ _ _
    · exact ⟨_, rfl⟩
  have hfree : s.freeOne slot =
      { ({ s with kvs := x } : State).setDir slot { gen := nextGen (s.dir slot).gen, lastNs := s.now } with
        hmp.hdr := SMap.erase s.hmp.hdr slot
        hmp.log := s.hmp.log.filter fun x => x.1 / 2 ^ 24 ≠ slot
        kvs.spans := x.spans.filter fun x => x.1 / 65536 ≠ slot
        kvs.side := x.side.filter fun x => x.1 / 4096 / 65536 ≠ slot
        hmp.changes := SMap.erase s.hmp.changes slot
        hmp.revives := SMap.erase s.hmp.revives slot
        hmp.gives := SMap.erase s.hmp.gives slot
        hmp.takes := SMap.erase s.hmp.takes slot } := by
    unfold State.freeOne
    dsimp only
    rw [hk, hx]
    rfl
  rw [hfree]
  exact ⟨rfl, SMap.lookup_erase_same _ _, rfl, rfl, rfl, rfl, rfl, rfl, rfl⟩

/-- Without a companion the slot alone goes to FREE. -/
theorem State.toFree_freed {s : State} {slot : Nat} (h : SMap.lookup s.fw.companions slot = none) : Freed s (s.toFree slot) slot := by
  have hfreed := s.freeOne_freed slot
  unfold State.toFree
  rw [h]
  exact { hfreed with }

theorem State.freeHamper_freed {s : State} {slot : Nat} (h : s.Alone slot) : Freed s (s.freeHamper slot) slot := by
  obtain ⟨m, g, hclose⟩ := State.closeGrammar_keeps h.2
  have hfreed := State.toFree_freed (s := (s.closeGrammar slot).releaseText slot) (slot := slot) (by rw [hclose]; exact h.1)
  have hsame : Freed s (((s.closeGrammar slot).releaseText slot).toFree slot) slot := by
    rw [hclose] at hfreed ⊢
    exact { hfreed with }
  exact { hsame with }

/-- A home hamper goes to FREE and its shards follow: its slot is FREE under the next generation, and nothing else of the directory
changes. -/
theorem State.freeAll_freed {s : State} {slot : Nat} (h : s.Alone slot) (a : Option Nat) (code : Nat) (data : Word) :
    ((s.freeAll slot a code data).dir slot).state = .free ∧
      ((s.freeAll slot a code data).dir slot).gen = nextGen (s.dir slot).gen ∧ OtherDirs s (s.freeAll slot a code data) slot ∧
      SMap.lookup (s.freeAll slot a code data).hmp.gives slot = none ∧ (s.freeAll slot a code data).snp = s.snp ∧
      ∀ k, OffTrail k → (s.freeAll slot a code data).reg k = s.reg k := by
  have hfreed := State.freeHamper_freed h
  obtain ⟨g, hg⟩ := (s.freeHamper slot).follow_hmp slot (s.hdr slot).handle .free .free a code data
  unfold State.freeAll
  simp only [State.dir_follow, State.follow_keeps, OtherDirs]
  refine ⟨hfreed.state, hfreed.gen, hfreed.otherDirs, by rw [hg]; exact hfreed.gives, hfreed.snp, fun k hk => ?_⟩
  rw [State.reg_follow _ _ _ _ _ _ _ _ hk, State.reg_of_regs hfreed.regs]

end Sys2Proof.Machine
end

section
/-! ### Hamper commands (R99, R102, R106, R107, R119, R353, R669) -/

namespace Sys2Proof.Machine

open Sys2Proof

/-! ### OPEN -/

/-- A hamper just installed takes the sampler and the likelihood of an OPEN without a sampler (R669). -/
def State.openedHdr (u : State) (slot : Nat) : State :=
  (u.setHdr slot { u.hdr slot with
    sampler := u.seeded defaultSampler, likelihood := u.field Reg.hmpRevive 7 0, parkedNs := u.now }).fresh.2

theorem State.draftOk_congr {s t : State} (h : t.regs = s.regs) : t.draftOk = s.draftOk := by
  simp only [State.draftOk, State.partLocal, State.field, State.reg_of_regs h]

/-- Without a usable draft slot no companion is opened (R364). -/
theorem State.openCompanion_of_not_draftOk {s : State} (h : s.draftOk = false) (slot : Nat) : s.openCompanion slot = s := by
  simp [State.openCompanion, h]

theorem exec_openHamper {s u : State} {id slot : Nat} {c : HostCmd} (h : Waits s id 0x10 c) (h1 : c.arg 1 = 0)
    (hmin : 256 ≤ bits (c.arg 0) 63 32) (hmod : bits (c.arg 0) 63 32 % 256 = 0) (hslot : s.freeSlot = some slot)
    (hdraft : s.draftOk = false)
    (hu : s.install slot (bits (c.arg 0) 31 28) (bits (c.arg 0) 63 32) (bits (c.arg 0) 23 20) (bits (c.arg 0) 19 0)
      (bits (c.arg 0) 27 24) .home .parked (s.newHandle slot) (s.newHandle slot) = some u) :
    exec (.openHamper id none) s = .next ((((u.openedHdr slot).began c.id).startTick (decayTick slot)).follow slot
      (s.newHandle slot) .open_
      (.open_ (bits (c.arg 0) 31 28) (bits (c.arg 0) 63 32) (bits (c.arg 0) 23 20) (bits (c.arg 0) 19 0)) (some c.id) 0
      (s.newHandle slot)) := by
  have hnone : (u.openedHdr slot).openCompanion slot = u.openedHdr slot := by
    refine State.openCompanion_of_not_draftOk ?_ slot
    exact (State.draftOk_congr (State.install_installed hu).regs).trans hdraft
  have hshort : ¬ bits (c.arg 0) 63 32 < 256 := Nat.not_lt.2 hmin
  show execOpenHamper id none s = _
  rw [execOpenHamper, h.hostCmd]
  simp only [h1, hshort, hmod, hslot, hu, ne_eq, not_true_eq_false, decide_false, Bool.or_self, Bool.false_and, Bool.false_eq_true,
    if_false, if_true]
  exact congrArg (fun v : State => Host.Outcome.next (((v.began c.id).startTick (decayTick slot)).follow slot (s.newHandle slot)
    .open_ _ _ _ _)) hnone

theorem does_openHamper {s u : State} {id slot : Nat} {c : HostCmd} (h : Waits s id 0x10 c) (h1 : c.arg 1 = 0)
    (hmin : 256 ≤ bits (c.arg 0) 63 32) (hmod : bits (c.arg 0) 63 32 % 256 = 0) (hslot : s.freeSlot = some slot)
    (hdraft : s.draftOk = false)
    (hu : s.install slot (bits (c.arg 0) 31 28) (bits (c.arg 0) 63 32) (bits (c.arg 0) 23 20) (bits (c.arg 0) 19 0)
      (bits (c.arg 0) 27 24) .home .parked (s.newHandle slot) (s.newHandle slot) = some u) :
    Does (.openHamper id none) s fun t =>
      (t.dir slot).state = .parked ∧ (t.dir slot).kind = .home ∧ (t.hdr slot).maxTokens = bits (c.arg 0) 63 32 ∧
      (t.hdr slot).spans = bits (c.arg 0) 63 32 / 256 ∧ (t.hdr slot).commitLen = 0 ∧
      (t.hdr slot).origin = (t.hdr slot).handle ∧ (t.hdr slot).handle = mkHandle s.self slot (t.dir slot).gen ∧
      (t.dir slot).gen ≠ 0 ∧ OtherDirs s t slot ∧ Follows s t slot .open_ c (t.hdr slot).handle := by
  obtain ⟨hhandle, hgen⟩ := s.newHandle_eq slot
  have hin := State.install_installed hu
  have hunder : Underway s (((u.openedHdr slot).began c.id).startTick (decayTick slot)) c :=
    ((h.is_open.underway.congr (v := u.openedHdr slot) hin.host hin.plat (hin.out ▸ List.prefix_refl _)).began).congr rfl rfl
      (List.prefix_refl _)
  have hhdr : (((u.openedHdr slot).began c.id).startTick (decayTick slot)).hdr slot = { u.hdr slot with
      sampler := u.seeded defaultSampler, likelihood := u.field Reg.hmpRevive 7 0, parkedNs := u.now } :=
    State.hdr_setHdr_same _ _ _
  refine ⟨_, exec_openHamper h h1 hmin hmod hslot hdraft hu, ?_⟩
  simp only [State.dir_follow, State.hdr_follow, OtherDirs, hhdr, hin.handle, hin.origin, hin.maxTokens, hin.spans, hin.commitLen]
  refine ⟨hin.state, hin.kind, trivial, trivial, trivial, trivial, ?_, ?_, hin.otherDirs, hunder.follows hin.comp hin.now _ _ _ _ _⟩
  · exact hhandle.trans (congrArg _ hin.gen.symm)
  · exact fun e => hgen (hin.gen.symm.trans e)

/-! ### CLOSE -/

theorem State.changeCode_eq_zero {s : State} {w : Word} {from_ : List HState} (h : s.changeCode w from_ = 0) :
    s.homeCode w = 0 ∧ s.busy (hSlot w) = false ∧ (s.dir (hSlot w)).state ∈ from_ ∧ (s.dir (hSlot w)).kind = .home := by
  unfold State.changeCode at h
  dsimp only at h
  split_ifs at h with hcode hbusy hstate
  · exact absurd h hcode
  · exact absurd h (by decide)
  · exact absurd h (by decide)
  · exact absurd h (by decide)
  · simpa [Bool.or_eq_false_iff, and_assoc, not_or] using And.intro hcode (And.intro hbusy hstate)

theorem exec_closeHamper {s : State} {id : Nat} {c : HostCmd} (h : Waits s id 0x11 c) (hcode : s.changeCode c.session [.parked] = 0)
    (hshared : s.hasSharers (hSlot c.session) = false) (hmarked : s.marked (hSlot c.session) = false)
    (htracked : (s.dir (hSlot c.session)).tracked = false) (hroom : s.deferFull = false) :
    exec (.closeHamper id none) s = .next ((s.began c.id).freeAll (hSlot c.session) (some c.id) 0 0) := by
  show execCloseHamper id none s = _
  rw [execCloseHamper, h.hostCmd]
  simp only [hcode, hshared, hmarked, htracked, hroom, ne_eq, not_true_eq_false, if_false, Bool.false_and, Bool.false_eq_true,
    Bool.not_false, if_true]

theorem does_closeHamper {s : State} {id : Nat} {c : HostCmd} (h : Waits s id 0x11 c) (hcode : s.changeCode c.session [.parked] = 0)
    (hshared : s.hasSharers (hSlot c.session) = false) (hmarked : s.marked (hSlot c.session) = false)
    (htracked : (s.dir (hSlot c.session)).tracked = false) (halone : s.Alone (hSlot c.session)) (hroom : s.deferFull = false) :
    Does (.closeHamper id none) s fun t =>
      (t.dir (hSlot c.session)).state = .free ∧ (t.dir (hSlot c.session)).gen = nextGen (s.dir (hSlot c.session)).gen ∧
        OtherDirs s t (hSlot c.session) ∧ Follows s t (hSlot c.session) .free c 0 := by
  have hbegan : (s.began c.id).Alone (hSlot c.session) := halone
  obtain ⟨hstate, hgen, hother, -⟩ := State.freeAll_freed hbegan (some c.id) 0 0
  have hfreed := State.freeHamper_freed hbegan
  exact ⟨_, exec_closeHamper h hcode hshared hmarked htracked hroom, hstate, hgen, hother,
    (hfreed.underway h.is_open.underway.began).follows hfreed.comp hfreed.now _ _ _ _ _⟩

/-! ### PARK -/

/-- The hamper is PARKED without a decode slot, at its committed length (R119). -/
def State.parked (s : State) (slot : Nat) : State :=
  let s := (s.setHdr slot { s.hdr slot with specLen := (s.hdr slot).commitLen, parkedNs := s.now }).releaseText slot
  let s := s.setDir slot { s.dir slot with state := .parked, decode := 0, lastNs := s.now }
  (s.bump (Reg.hmpCnt 0)).startTick (decayTick slot)

theorem State.parkNow_eq (s : State) (slot : Nat) (a : Option Nat) :
    s.parkNow slot a = (s.parked slot).follow slot (s.hdr slot).handle .park .park a 0 0 := rfl

theorem State.parkSoon_between {s : State} {slot : Nat} (hbusy : s.busy slot = false) (hsteps : s.betweenSteps = true)
    (a : Option Nat) : s.parkSoon slot a = s.parkNow slot a := by
  have hparks : (s.hmp.parks.any fun x => x.1 = slot) = false := (Bool.or_eq_false_iff.1 hbusy).2
  simp [State.parkSoon, hparks, hsteps]

theorem State.custodyCheck_untracked {s : State} {slot : Nat} (h : (s.dir slot).tracked = false) : s.custodyCheck slot = (0, s) := by
  simp [State.custodyCheck, h]

theorem exec_park {s : State} {id : Nat} {c : HostCmd} (h : Waits s id 0x12 c) (hcode : s.changeCode c.session [.active] = 0)
    (htracked : (s.dir (hSlot c.session)).tracked = false) (hsteps : s.betweenSteps = true) :
    exec (.park id none) s = .next ((s.began c.id).parkNow (hSlot c.session) (some c.id)) := by
  show execPark id none s = _
  rw [execPark, h.hostCmd]
  have hbusy : (s.began c.id).busy (hSlot c.session) = false := (State.changeCode_eq_zero hcode).2.1
  simp only [hcode, State.seeRec, State.custodyCheck_untracked htracked, ne_eq, not_true_eq_false, if_false]
  rw [State.parkSoon_between hbusy hsteps]

/-- What the transition to PARKED leaves alone. -/
theorem State.parked_keeps (s : State) (slot : Nat) : (s.parked slot).host = s.host ∧ (s.parked slot).plat = s.plat ∧
    (s.parked slot).out = s.out ∧ (s.parked slot).comp = s.comp ∧ (s.parked slot).now = s.now ∧ (s.parked slot).mem = s.mem := by
  simp [State.parked, State.startTick, State.releaseText]

theorem State.dir_parked (s : State) (slot n : Nat) : (s.parked slot).dir n =
    if n = slot then { s.dir slot with state := .parked, decode := 0, lastNs := s.now } else s.dir n :=
  State.dir_of_set rfl n

theorem State.hdr_parked (s : State) (slot : Nat) :
    (s.parked slot).hdr slot = { s.hdr slot with specLen := (s.hdr slot).commitLen, parkedNs := s.now } :=
  (State.hdr_of_set (s := s) rfl slot).trans (if_pos rfl)

theorem State.reg_parked (s : State) (slot : Nat) : (s.parked slot).reg (Reg.hmpCnt 0) = s.reg (Reg.hmpCnt 0) + 1 :=
  State.reg_bump_same _ _

theorem does_park {s : State} {id : Nat} {c : HostCmd} (h : Waits s id 0x12 c) (hcode : s.changeCode c.session [.active] = 0)
    (htracked : (s.dir (hSlot c.session)).tracked = false) (hsteps : s.betweenSteps = true) :
    Does (.park id none) s fun t =>
      let slot := hSlot c.session
      (t.dir slot).state = .parked ∧ (t.dir slot).decode = 0 ∧ (t.dir slot).gen = (s.dir slot).gen ∧ OtherDirs s t slot ∧
        (t.hdr slot).specLen = (s.hdr slot).commitLen ∧ (t.hdr slot).parkedNs = s.now ∧
        t.reg (Reg.hmpCnt 0) = s.reg (Reg.hmpCnt 0) + 1 ∧ t.mem = s.mem ∧ Follows s t slot .park c 0 := by
  dsimp only
  generalize hslot : hSlot c.session = slot
  obtain ⟨hhost, hplat, hout, hcomp, hnow, hmem⟩ := (s.began c.id).parked_keeps slot
  have hunder : Underway s ((s.began c.id).parked slot) c :=
    h.is_open.underway.began.congr hhost hplat (hout ▸ List.prefix_refl _)
  refine ⟨_, hslot ▸ exec_park h hcode htracked hsteps, ?_⟩
  rw [State.parkNow_eq]
  simp only [State.dir_follow, State.hdr_follow, State.follow_keeps, OtherDirs, State.hdr_parked, State.dir_parked, if_true]
  refine ⟨trivial, trivial, rfl, fun n hn => if_neg hn, rfl, rfl, ?_, hmem, hunder.follows hcomp hnow _ _ _ _ _⟩
  rw [State.reg_follow _ _ _ _ _ _ _ _ (by simp [OffTrail, Reg.hmpCnt]), State.reg_parked]
  rfl

/-! ### Refusals by handle (R102, R353) -/

/-- PARK with a handle or a hamper that does not allow it changes no slot and ends with the code of the check. -/
theorem does_park_refused {s : State} {id : Nat} {c : HostCmd} (h : Waits s id 0x12 c) {code : Nat}
    (hcode : s.changeCode c.session [.active] = code) (h0 : code ≠ 0) (hsmall : code < 8192) :
    Does (.park id none) s fun t => t.hmp.dir = s.hmp.dir ∧ Answers s t c code 0 0 ∧
      (code = Code.staleHandle → t.reg (Reg.hmpCnt 7) = s.reg (Reg.hmpCnt 7) + 1) := by
  have hexec : exec (.park id none) s = .next ((s.noteStale code).complete c.id code 0 0) := by
    show execPark id none s = _
    rw [execPark, h.hostCmd]
    simp [hcode, h0]
  have hnote : (s.noteStale code).host = s.host ∧ (s.noteStale code).plat = s.plat ∧ (s.noteStale code).out = s.out := by simp
  obtain ⟨hhost, hplat, hout⟩ := hnote
  refine ⟨_, hexec, by simp, (h.is_open.underway.congr hhost hplat (hout ▸ List.prefix_refl _)).answers hsmall 0 0, ?_⟩
  rintro rfl
  have hregs : ((s.noteStale Code.staleHandle).complete c.id Code.staleHandle 0 0).regs = (s.bump (Reg.hmpCnt 7)).regs := by
    simp [State.noteStale]
  rw [State.reg_of_regs hregs, State.reg_bump_same]

section refusals

variable {s : State} {w : Word} {from_ : List HState}

theorem State.changeCode_elsewhere (h : hModule w ≠ s.self) : s.changeCode w from_ = Code.badHandle := by
  have hne : Code.badHandle ≠ 0 := by decide
  simp [State.changeCode, State.homeCode, h, hne]

variable (hmod : hModule w = s.self) (hlo : s.field Reg.hmpDirRange 21 0 ≤ hSlot w) (hhi : hSlot w ≤ s.field Reg.hmpDirRange 53 32)

include hmod hlo hhi

theorem State.changeCode_newer (h : newer (hGen w) (s.dir (hSlot w)).gen = true) : s.changeCode w from_ = Code.staleHandle := by
  have hne : Code.staleHandle ≠ 0 := by decide
  simp [State.changeCode, State.homeCode, State.handleCode, hmod, hlo, hhi, h, hne]

theorem State.homeCode_current (hgen : hGen w = (s.dir (hSlot w)).gen) (hstate : (s.dir (hSlot w)).state ≠ .free) :
    s.homeCode w = 0 := by
  simp [State.homeCode, State.handleCode, hmod, hlo, hhi, hgen, hstate, newer_self]

theorem State.changeCode_busy (hgen : hGen w = (s.dir (hSlot w)).gen) (hstate : (s.dir (hSlot w)).state ≠ .free)
    (hbusy : s.busy (hSlot w) = true) : s.changeCode w from_ = Code.hamperBusy := by
  simp [State.changeCode, State.homeCode_current hmod hlo hhi hgen hstate, hbusy]

theorem State.changeCode_otherState (hgen : hGen w = (s.dir (hSlot w)).gen) (hstate : (s.dir (hSlot w)).state ≠ .free)
    (hbusy : s.busy (hSlot w) = false) (hnot : (s.dir (hSlot w)).state ∉ from_) : s.changeCode w from_ = Code.hamperState := by
  simp [State.changeCode, State.homeCode_current hmod hlo hhi hgen hstate, hbusy, hnot]

end refusals

/-- Settles O21: OPEN, CLOSE and PARK of hampers that allow it, then PARK refused by each check in turn. -/
theorem hamperCommands : Obligations.HamperCommands := by
  refine ⟨fun s id c => ⟨fun slot u h h1 hmin hmod hslot hdraft hu => does_openHamper h h1 hmin hmod hslot hdraft hu,
    fun h hcode hshared hmarked htracked halone hroom => does_closeHamper h hcode hshared hmarked htracked halone hroom,
    fun h hcode htracked hsteps => does_park h hcode htracked hsteps⟩, fun s id c => ?_⟩
  intro w slot inside h
  refine ⟨fun hmod => ?_, fun ⟨hmod, hlo, hhi⟩ hnewer => ?_, fun ⟨hmod, hlo, hhi⟩ hgen hstate hbusy => ?_,
    fun ⟨hmod, hlo, hhi⟩ hgen hstate hbusy => ?_⟩
  · obtain ⟨t, ht, hdir, hans, -⟩ := does_park_refused h (State.changeCode_elsewhere hmod) (by decide) (by decide)
    exact ⟨t, ht, hdir, hans⟩
  · obtain ⟨t, ht, hdir, hans, hcnt⟩ := does_park_refused h (State.changeCode_newer hmod hlo hhi hnewer) (by decide) (by decide)
    exact ⟨t, ht, hdir, hans, hcnt rfl⟩
  · obtain ⟨t, ht, hdir, hans, -⟩ := does_park_refused h (State.changeCode_busy hmod hlo hhi hgen hstate hbusy) (by decide) (by decide)
    exact ⟨t, ht, hdir, hans⟩
  · obtain ⟨t, ht, hdir, hans, -⟩ := does_park_refused h
      (State.changeCode_otherState hmod hlo hhi hgen (hstate ▸ by decide) hbusy (hstate ▸ by decide)) (by decide) (by decide)
    exact ⟨t, ht, hdir, hans⟩

end Sys2Proof.Machine
end

section
/-! ### The end of a step whose session's grammar lies on a header (R116, R454, R458) -/

namespace Sys2Proof.Machine

open Sys2Proof

/-- The step in progress: session 1 has a decode entry and no report yet. -/
def overlaidStep : StepRun := { batch := [{ session := 1 }], open_ := [1] }

/-- Hamper 0 is ACTIVE with five committed positions and one speculative one. It uses grammar 0, and the grammar directory stands
where its own header does: the header table begins at 65,544 and the directory, on page 1, at 65,536. -/
def overlaidHamper : State :=
  { State.reset with
    plat.rails := true
    plat.stage := 7
    tsm.leaf := [(1, { v := true })]
    regs := [(Reg.txtGrammar, fld 35 0 1)]
    comp.map := { modules := 1, peers := [0] }
    hmp.headerBase := 65544
    hmp.dir := [(0, { gen := 1, state := .active, kind := .home })]
    hmp.hdr := [(0, { handle := 1, commitLen := 5, specLen := 6, grammar := [fld 63 63 1 ||| fld 59 48 1] })]
    fw.reqs := [(0, { inStep := true })]
    fw.cur := some overlaidStep }

/-- The committed length of hamper 0 after a command. -/
def committedAfter (c : Instr) (s : State) : Option Nat :=
  match exec c s with
  | .next t => some (t.hdr 0).commitLen
  | _ => none

/-- The failed session's request ends and closes its grammar; its directory entry, written back, is the header's word of the
committed length. -/
theorem committedAfter_overlaidHamper : committedAfter (.stepDone 0 1 0x0101 [] []) overlaidHamper = some 0 := by
  decide +kernel

/-- Refutes O33: a failed session loses its committed length when the directory entry of its grammar lies on its own header. -/
theorem not_stepsCommit : ¬ Obligations.StepsCommit := by
  intro h
  obtain ⟨hsteps, -⟩ := h overlaidHamper (by decide +kernel)
  obtain ⟨-, hfailed, -⟩ := hsteps overlaidStep 1 0 0x0101 [] [] { session := 1 } rfl rfl (List.mem_singleton_self 1)
    (by decide +kernel) (fun _ hx => absurd hx List.not_mem_nil) (by decide +kernel) fun _ => ⟨by decide +kernel, List.not_mem_nil⟩
  obtain ⟨t, ht, hcommit, -⟩ := hfailed (by decide +kernel) (by decide +kernel) rfl rfl (by decide) (by decide) (by decide) (by decide)
  have hzero := committedAfter_overlaidHamper
  rw [committedAfter, ht] at hzero
  have hfive : (overlaidHamper.hdr 0).commitLen = 5 := by decide +kernel
  exact absurd ((Option.some.inj hzero).symm.trans (hcommit.trans hfive)) (by decide)

end Sys2Proof.Machine
end

section
/-! ### Reviving (R106, R117, R120, R121, R137) -/

namespace Sys2Proof.Machine

open Sys2Proof

/-! ### Ferry requests of the module's own -/

theorem State.reserve_keeps (s : State) (w : Want) (dst : Tier) (loc : Nat) :
    ∃ x g, s.reserve w dst loc = { s with tsm := x, regs := g } := by
  have htake : ∃ x, (if w.isDrop then s else s.take dst loc) = { s with tsm := x } := by split <;> exact ⟨_, rfl⟩
  obtain ⟨x, htake⟩ := htake
  rw [State.reserve, htake]
  split
  · exact ⟨_, _, rfl⟩
  · exact ⟨x, s.regs, rfl⟩

theorem State.claimPage_keeps (s : State) (req p : Nat) (w : Want) (dst : Tier) (loc : Nat) :
    ∃ x g, s.claimPage req p w dst loc = { s with tsm := x, regs := g } := by
  obtain ⟨x, g, hreserve⟩ := (s.setLeaf p { s.leaf p with ferry := true, ferryId := s.tsm.nextFerryId }).reserve_keeps w dst loc
  rw [State.claimPage_eq, hreserve]
  exact ⟨_, g, rfl⟩

/-- Claiming pages changes the tier manager and its counters alone. -/
theorem claimLoop_keeps (req : Nat) (w : Want) (ps : List Nat) (s : State) :
    ∃ x g, (claimLoop req w ps s).2.2 = { s with tsm := x, regs := g } := by
  induction ps generalizing s with
  | nil => exact ⟨_, _, rfl⟩
  | cons p ps ih =>
    rw [claimLoop]
    split
    · next o _ =>
      have hcount : ∃ g, (match o with
          | .failed c => s.iff (c = Code.settRationed) fun s => s.bump (Reg.tsmCnt 4)
          | _ => s) = { s with regs := g } := by
        cases o with
        | moved => exact ⟨_, rfl⟩
        | abandoned => exact ⟨_, rfl⟩
        | failed c =>
          unfold State.iff
          dsimp only
          split <;> exact ⟨_, rfl⟩
      obtain ⟨g, hg⟩ := hcount
      obtain ⟨x, g', hx⟩ := ih { s with regs := g }
      exact ⟨x, g', (congrArg (fun u => (claimLoop req w ps u).2.2) hg).trans hx⟩
    · next t loc _ =>
      obtain ⟨x, g, hclaim⟩ := s.claimPage_keeps req p w t loc
      obtain ⟨x', g', hx⟩ := ih (s.claimPage req p w t loc)
      exact ⟨x', g', hx.trans (by rw [hclaim])⟩

/-- A request goes on with its pages claimed, or has ended already with their results. -/
theorem State.startFerry_cases (s : State) (o : Origin) (w : Want) (ps : List Nat) :
    ∃ x g r, r.origin = o ∧ (s.startFerry o w ps = { s with tsm := x, regs := g } ∨
      s.startFerry o w ps = ({ s with tsm := x, regs := g } : State).endFerry r) := by
  obtain ⟨x, g, hclaim⟩ := claimLoop_keeps s.tsm.nextReq w ps { s with tsm.nextReq := s.tsm.nextReq + 1 }
  rw [State.startFerry]
  dsimp only
  rw [hclaim]
  split
  · exact ⟨_, _, _, rfl, .inr rfl⟩
  · exact ⟨_, _, ⟨0, o, [], 0⟩, rfl, .inl rfl⟩

/-- A request for no page has ended. -/
theorem State.startFerry_nil (s : State) (o : Origin) (w : Want) :
    ∃ x, s.startFerry o w [] = ({ s with tsm := x } : State).endFerry ⟨s.tsm.nextReq, o, [], 0⟩ := ⟨_, rfl⟩

/-! ### A module's share of a revive -/

theorem refreshRes_fold_keeps (slot : Nat) (ns : List Nat) (s : State) :
    ∃ g k, ns.foldl (fun s n => s.refreshRes slot n) s = { s with hmp.hdr := g, kvs := k } := by
  induction ns generalizing s with
  | nil => exact ⟨_, _, rfl⟩
  | cons n ns ih =>
    have hone : ∃ g k, s.refreshRes slot n = { s with hmp.hdr := g, kvs := k } := by
      unfold State.refreshRes State.iff
      split <;> exact ⟨_, _, rfl⟩
    obtain ⟨g, k, hone⟩ := hone
    obtain ⟨g', k', hrest⟩ := ih (s.refreshRes slot n)
    exact ⟨g', k', hrest.trans (by rw [hone])⟩

/-- The home notes its own share; the directory and the changes in progress stay. -/
theorem State.reviveShare_home {s : State} {slot : Nat} (h : (s.dir slot).kind = .home) (pages : SMap Outcome1) :
    (s.reviveShare slot pages).hmp.dir = s.hmp.dir ∧ (s.reviveShare slot pages).hmp.changes = s.hmp.changes := by
  obtain ⟨g, k, hfold⟩ := refreshRes_fold_keeps slot (List.range (s.hdr slot).spans) s
  have hkind : (({ s with hmp.hdr := g, kvs := k } : State).dir slot).kind = .home := h
  unfold State.reviveShare
  dsimp only
  rw [hfold, if_pos hkind]
  split <;> exact ⟨rfl, rfl⟩

/-- A shard whose pages have all come is ACTIVE. -/
theorem State.dir_reviveShare_shard {s : State} {slot : Nat} (hk : (s.dir slot).kind = .shard)
    (hst : (s.dir slot).state = .reviving) (n : Nat) : (s.reviveShare slot []).dir n =
      if n = slot then { s.dir slot with state := .active, lastNs := s.now } else s.dir n := by
  obtain ⟨g, k, hfold⟩ := refreshRes_fold_keeps slot (List.range (s.hdr slot).spans) s
  have hkind : ¬ (({ s with hmp.hdr := g, kvs := k } : State).dir slot).kind = .home :=
    fun e => HKind.noConfusion (hk.symm.trans e)
  have hstate : ¬ (({ s with hmp.hdr := g, kvs := k } : State).dir slot).state ≠ .reviving := fun e => e hst
  unfold State.reviveShare
  dsimp only
  rw [hfold, if_neg hkind, if_neg hstate]
  generalize hu : ({ s with hmp.hdr := g, kvs := k } : State) = u at hkind ⊢
  have hsent : ((u.setHState slot .active).send (hModule (s.hdr slot).handle) 7 (.reviveDone (s.hdr slot).handle 0)).hmp =
      (u.setHState slot .active).hmp := by simp
  refine (State.dir_congr (congrArg _ hsent) n).trans (State.dir_of_set ?_ n)
  rw [← hu]
  rfl

/-- The ferry moves of a revive, posted at the home, change neither the directory nor the changes in progress. -/
theorem State.startFerry_revive_home {s : State} {slot : Nat} (h : (s.dir slot).kind = .home) (w : Want) (ps : List Nat) :
    (s.startFerry (.revive slot) w ps).hmp.dir = s.hmp.dir ∧ (s.startFerry (.revive slot) w ps).hmp.changes = s.hmp.changes := by
  obtain ⟨x, g, r, hr, hgo | hend⟩ := s.startFerry_cases (.revive slot) w ps
  · rw [hgo]
    exact ⟨rfl, rfl⟩
  · rw [hend]
    simp only [State.endFerry, hr]
    exact State.reviveShare_home (s := { s with tsm := _, regs := g }) h r.results

/-! ### The start of a revive -/

theorem State.wantDropped_keeps (s : State) (slot : Nat) : ∃ k, s.wantDropped slot = { s with kvs := k } := by
  unfold State.wantDropped
  generalize (List.range (s.hdr slot).spans).filter _ = ns
  induction ns generalizing s with
  | nil => exact ⟨_, rfl⟩
  | cons n ns ih =>
    obtain ⟨k, hk⟩ := ih (s.wantSpan false slot n)
    exact ⟨k, hk⟩

/-- The hamper is REVIVING with its decode slot and in change; the other slots stay. -/
theorem State.reviveGo_reviving {s : State} {slot d : Nat} (hd : s.freeDecode = some d) (hk : (s.dir slot).kind = .home)
    (a : Option Nat) : (∀ n, (s.reviveGo slot a).dir n =
        if n = slot then { s.dir slot with state := .reviving, decode := d, lastNs := s.now } else s.dir n) ∧
      (s.reviveGo slot a).busy slot = true := by
  let e : DirEnt := { s.dir slot with state := .reviving, decode := d, lastNs := s.now }
  let r : Revive := { waiting := s.self :: s.peers, cmd := a }
  let v : State := (s.beginChange slot .revive a).setDir slot e
  let x : State := { v with hmp.revives := SMap.put v.hmp.revives slot r }
  have hgo : s.reviveGo slot a = ((x.sendAll 7 (.share (s.hdr slot).handle (.revive d))).wantDropped slot).startFerry
      (.revive slot) { dest := .dram }
      (((x.sendAll 7 (.share (s.hdr slot).handle (.revive d))).wantDropped slot).revivePages slot) := by
    rw [State.reviveGo, hd]
    rfl
  obtain ⟨k, hwant⟩ := (x.sendAll 7 (.share (s.hdr slot).handle (.revive d))).wantDropped_keeps slot
  have hhmp : ((x.sendAll 7 (.share (s.hdr slot).handle (.revive d))).wantDropped slot).hmp = x.hmp := by
    rw [hwant]
    simp
  have hdir (n : Nat) : x.dir n = if n = slot then e else s.dir n := State.dir_setDir _ _ _ _
  rw [hgo]
  generalize (x.sendAll 7 (.share (s.hdr slot).handle (.revive d))).wantDropped slot = y at hhmp ⊢
  have hydir (n : Nat) : y.dir n = x.dir n := State.dir_congr (by rw [hhmp]) n
  have hykind : (y.dir slot).kind = .home := by
    rw [hydir, hdir, if_pos rfl]
    exact hk
  obtain ⟨hferry, hchanges⟩ := State.startFerry_revive_home hykind { dest := .dram } (y.revivePages slot)
  refine ⟨fun n => (State.dir_congr hferry n).trans ((hydir n).trans (hdir n)), ?_⟩
  have hput : SMap.lookup x.hmp.changes slot = some { kind := .revive, cmd := a, sinceNs := s.now } := SMap.lookup_put_same _ _ _
  rw [State.busy, hchanges, hhmp, hput]
  rfl

section waiting

variable {s : State} {id slot : Nat} {c : HostCmd} (h : Waits s id 0x13 c) (hslot : slot = hSlot c.session)
  (hcode : s.homeCode c.session = 0) (hbusy : s.busy slot = false) (hstate : (s.dir slot).state = .parked)
  (htracked : (s.dir slot).tracked = false)

include h hslot hcode hbusy hstate htracked

theorem exec_revive : exec (.revive id none) s = .next (if s.tsm.pressure = true then
      let u := (s.began c.id).beginChange slot .revive (some c.id)
      { u with hmp.revives := SMap.put u.hmp.revives slot { held := true, cmd := some c.id } }
    else (s.began c.id).reviveGo slot (some c.id)) := by
  have huntracked : ((s.began c.id).dir slot).tracked = false := htracked
  show execRevive id none s = _
  rw [execRevive, h.hostCmd]
  simp only [← hslot, hcode, hbusy, hstate, State.seeRec, State.startRevive, State.custodyCheck_untracked huntracked, ne_eq,
    not_true_eq_false, Bool.false_eq_true, if_false]
  rfl

theorem does_revive_held (hpressure : s.tsm.pressure = true) : Does (.revive id none) s fun t =>
    SMap.lookup t.hmp.revives slot = some { held := true, cmd := some c.id } ∧ t.dir slot = s.dir slot := by
  refine ⟨_, exec_revive h hslot hcode hbusy hstate htracked, ?_⟩
  rw [if_pos hpressure]
  exact ⟨SMap.lookup_put_same _ _ _, rfl⟩

theorem does_revive_reviving (hkind : (s.dir slot).kind = .home) (hpressure : s.tsm.pressure = false) {d : Nat}
    (hd : s.freeDecode = some d) : Does (.revive id none) s fun t =>
      (t.dir slot).state = .reviving ∧ (t.dir slot).decode = d ∧ t.busy slot = true ∧ OtherDirs s t slot := by
  have hfree : (s.began c.id).freeDecode = some d := hd
  have hhome : ((s.began c.id).dir slot).kind = .home := hkind
  obtain ⟨hdir, hchange⟩ := State.reviveGo_reviving hfree hhome (some c.id)
  refine ⟨_, exec_revive h hslot hcode hbusy hstate htracked, ?_⟩
  rw [if_neg (by simp [hpressure])]
  refine ⟨?_, ?_, hchange, fun n hn => (hdir n).trans (if_neg hn)⟩ <;> rw [hdir, if_pos rfl]

end waiting

/-- A held revive goes on once DRAM is free again (R121). -/
theorem does_reviveHoldRelease {s : State} (hl : s.live = true) {slot d : Nat} {r : Revive}
    (hr : SMap.lookup s.hmp.revives slot = some r) (hheld : r.held = true) (hroom : s.evictHigh ≤ s.freeDram)
    (hd : s.freeDecode = some d) (hkind : (s.dir slot).kind = .home) : Does (.reviveHoldRelease slot) s fun t =>
      (t.dir slot).state = .reviving ∧ (t.dir slot).decode = d ∧ OtherDirs s t slot := by
  obtain ⟨hdir, -⟩ := State.reviveGo_reviving hd hkind r.cmd
  refine ⟨s.reviveGo slot r.cmd, ?_, ?_, ?_, fun n hn => (hdir n).trans (if_neg hn)⟩
  · show execReviveHoldRelease slot s = _
    rw [execReviveHoldRelease, gate_live hl]
    simp [hr, hheld, hroom]
  all_goals rw [hdir, if_pos rfl]

/-! ### What a shard does for its home -/

/-- The pages to revive do not depend on the state of the hamper. -/
theorem State.revivePages_setDir {s : State} {slot : Nat} {e : DirEnt} (hkind : e.kind = (s.dir slot).kind)
    (hmodel : e.model = (s.dir slot).model) : (s.setDir slot e).revivePages slot = s.revivePages slot := by
  have hself : (s.setDir slot e).dir slot = e := State.dir_setDir_same _ _ _
  have hkv : (s.setDir slot e).kvPage slot = s.kvPage slot := by
    unfold State.kvPage
    rw [hself, hmodel]
    rfl
  have hspan (n : Nat) : (s.setDir slot e).span slot n = s.span slot n := by
    unfold State.span
    rw [hself, hmodel, hkv]
    rfl
  have hpages (n : Nat) : (s.setDir slot e).spanPages slot n = s.spanPages slot n := by
    unfold State.spanPages
    rw [hspan, hself, hmodel]
    rfl
  unfold State.revivePages
  simp only [hself, hkind, hmodel, hspan, hpages]
  rfl

theorem State.dir_shareDone (s : State) (w : Word) (code n : Nat) : (s.shareDone w code).dir n = s.dir n := by
  refine State.dir_congr ?_ n
  simp [State.shareDone]

section shard

variable {s : State} (hl : s.live = true) {h : Word} {slot : Nat} (hslot : slot = hSlot h) (hcode : s.handleCode h = 0)
  (hkind : (s.dir slot).kind = .shard)

include hl hslot hcode hkind

theorem exec_reviveItem_revive (k : Nat) : exec (.reviveItem h (.revive k)) s = .next (s.shardFollows h (.revive k)) := by
  show execReviveItem h (.revive k) s = _
  rw [execReviveItem, gate_live hl]
  simp [hcode, ← hslot, hkind]

theorem does_reviveItem_revive (hstate : (s.dir slot).state = .parked) (hpages : s.revivePages slot = []) (k : Nat) :
    Does (.reviveItem h (.revive k)) s fun t =>
      (t.dir slot).state = .active ∧ (t.dir slot).decode = k % 8192 ∧ OtherDirs s t slot := by
  let u : State := s.setDir slot { s.dir slot with state := .reviving, decode := k % 8192, lastNs := s.now }
  have hdir (n : Nat) : u.dir n = if n = slot then { s.dir slot with state := .reviving, decode := k % 8192, lastNs := s.now }
      else s.dir n := State.dir_setDir _ _ _ _
  have hupages : u.revivePages slot = [] := by
    rw [← hpages]
    exact State.revivePages_setDir rfl rfl
  obtain ⟨x, hnil⟩ := u.startFerry_nil (.revive slot) { dest := .dram }
  have hfollow : ∃ y, s.shardFollows h (.revive k) = ({ u with tsm := y } : State).reviveShare slot [] := by
    refine ⟨{ x with reqs := x.reqs.filter fun q => q.id ≠ u.tsm.nextReq }, ?_⟩
    unfold State.shardFollows
    simp only [← hslot, hstate, ne_eq, not_true_eq_false, if_false]
    exact (congrArg (u.startFerry (.revive slot) { dest := .dram }) hupages).trans hnil
  obtain ⟨y, hfollow⟩ := hfollow
  have hself : ({ u with tsm := y } : State).dir slot = _ := (hdir slot).trans (if_pos rfl)
  have hact (n : Nat) := State.dir_reviveShare_shard (s := { u with tsm := y }) (slot := slot) (by rw [hself]; exact hkind)
    (by rw [hself]) n
  refine ⟨_, exec_reviveItem_revive hl hslot hcode hkind k, ?_⟩
  rw [hfollow]
  refine ⟨?_, ?_, fun n hn => (hact n).trans ((if_neg hn).trans ((hdir n).trans (if_neg hn)))⟩ <;>
    rw [hact, if_pos rfl, hself]

theorem does_reviveItem_park : Does (.reviveItem h .park) s fun t =>
    (t.dir slot).state = .parked ∧ (t.dir slot).decode = 0 ∧ OtherDirs s t slot := by
  have hdir (n : Nat) : (s.parkShard slot).dir n =
      if n = slot then { s.dir slot with state := .parked, decode := 0, lastNs := s.now } else s.dir n := State.dir_of_set rfl n
  refine ⟨(s.parkShard slot).shareDone h 0, ?_, ?_, ?_, fun n hn => ?_⟩
  · show execReviveItem h .park s = _
    rw [execReviveItem, gate_live hl]
    simp [hcode, ← hslot, hkind, State.shardFollows]
  · rw [State.dir_shareDone, hdir, if_pos rfl]
  · rw [State.dir_shareDone, hdir, if_pos rfl]
  · rw [State.dir_shareDone, hdir, if_neg hn]

theorem does_reviveItem_free (halone : s.Alone slot) : Does (.reviveItem h .free) s fun t =>
    (t.dir slot).state = .free ∧ (t.dir slot).gen = nextGen (s.dir slot).gen ∧ OtherDirs s t slot := by
  have hfreed := State.toFree_freed halone.1
  refine ⟨(s.toFree slot).shareDone h 0, ?_, ?_, ?_, fun n hn => ?_⟩
  · show execReviveItem h .free s = _
    rw [execReviveItem, gate_live hl]
    simp [hcode, ← hslot, hkind, State.shardFollows]
  · rw [State.dir_shareDone, hfreed.state]
  · rw [State.dir_shareDone, hfreed.gen]
  · rw [State.dir_shareDone, hfreed.otherDirs n hn]

end shard

/-! ### The end of a revive -/

theorem State.failReq_keeps (s : State) (slot code : Nat) : ∃ q, s.failReq slot code = { s with fw.reqs := q } := by
  unfold State.failReq
  split <;> exact ⟨_, rfl⟩

theorem State.resumeReq_keeps (s : State) (slot : Nat) : ∃ q, s.resumeReq slot = { s with fw.reqs := q } := by
  unfold State.resumeReq
  split
  · exact ⟨_, rfl⟩
  · split <;> exact ⟨_, rfl⟩

/-- No report has a failure code. -/
theorem find?_codes_eq_none {reports : List (Nat × Nat)} (h : ∀ x ∈ reports, x.2 = 0) (p : Nat × Nat → Bool) :
    ((reports.filter p).map (·.2)).find? (fun k => k ≠ 0) = none := by
  refine List.find?_eq_none.2 fun k hk => ?_
  obtain ⟨x, hx, rfl⟩ := List.mem_map.1 hk
  simp [h x (List.mem_filter.1 hx).1]

/-- A transition ends when every shard has answered it without a failure. -/
theorem does_reviveComplete_follow {s : State} (hl : s.live = true) {slot : Nat} {v : Change} {reports : List (Nat × Nat)}
    (hr : SMap.lookup s.hmp.revives slot = none) (hv : SMap.lookup s.hmp.changes slot = some v) (hne : v.waiting ≠ [])
    (hall : ∀ m ∈ v.waiting, (m, 0) ∈ reports) (hzero : ∀ x ∈ reports, x.2 = 0) : Does (.reviveComplete slot reports) s fun t =>
      t = (s.endChange slot).reply v.cmd v.code 0 v.data := by
  have hanswered : (v.waiting.all fun m => reports.any fun x => x.1 = m) = true := by
    simp only [List.all_eq_true, List.any_eq_true, decide_eq_true_eq]
    exact fun m hm => ⟨_, hall m hm, rfl⟩
  refine ⟨_, ?_, rfl⟩
  show execReviveComplete slot reports s = _
  rw [execReviveComplete, gate_live hl]
  have hwaiting : v.waiting.isEmpty = false := by simpa using hne
  simp only [hr, hv, hanswered, hwaiting, find?_codes_eq_none hzero, Option.getD_none, Bool.not_true, Bool.or_self,
    Bool.false_eq_true, if_false, State.endFollow]
  simp

/-- A revive whose last share fails leaves the hamper PARKED and counts it; its shards follow. -/
theorem State.endRevive_failed (s : State) (slot : Nat) (r : Revive) {code : Nat} (h : code ≠ 0) :
    ((s.endRevive slot r code).dir slot).state = .parked ∧ ((s.endRevive slot r code).dir slot).decode = 0 ∧
      SMap.lookup (s.endRevive slot r code).hmp.revives slot = none ∧
      (s.endRevive slot r code).reg (Reg.hmpCnt 2) = s.reg (Reg.hmpCnt 2) + 1 := by
  let u : State := s.setDir slot { s.dir slot with state := .parked, decode := 0, lastNs := s.now }
  let v : State := { (u.endChange slot).bump (Reg.hmpCnt 2) with hmp.revives := SMap.erase u.hmp.revives slot }
  have hend : s.endRevive slot r code = (v.failReq slot code).follow slot (s.hdr slot).handle .park .park r.cmd code 0 := by
    rw [State.endRevive, if_pos h]
  have hdir : v.dir slot = { s.dir slot with state := .parked, decode := 0, lastNs := s.now } := State.dir_setDir_same _ _ _
  have hreg : v.reg (Reg.hmpCnt 2) = s.reg (Reg.hmpCnt 2) + 1 := State.reg_of_bump (s := s) rfl
  have hrevives : SMap.lookup v.hmp.revives slot = none := SMap.lookup_erase_same _ _
  obtain ⟨f, hfail⟩ := v.failReq_keeps slot code
  obtain ⟨g, hhmp⟩ := (v.failReq slot code).follow_hmp slot (s.hdr slot).handle .park .park r.cmd code 0
  have hvdir : (v.failReq slot code).dir slot = v.dir slot := by rw [hfail]; rfl
  rw [hend]
  refine ⟨?_, ?_, ?_, ?_⟩
  · rw [State.dir_follow, hvdir, hdir]
  · rw [State.dir_follow, hvdir, hdir]
  · rw [hhmp, hfail]
    exact hrevives
  · rw [State.reg_follow _ _ _ _ _ _ _ _ (by simp [OffTrail, Reg.hmpCnt]), hfail]
    exact hreg

/-- A revive that succeeds leaves the hamper ACTIVE, raises its LIKELIHOOD and counts it. -/
theorem State.endRevive_zero (s : State) (slot : Nat) (r : Revive) :
    ((s.endRevive slot r 0).dir slot).state = .active ∧ ((s.endRevive slot r 0).dir slot).decode = (s.dir slot).decode ∧
      SMap.lookup (s.endRevive slot r 0).hmp.revives slot = none ∧
      ((s.endRevive slot r 0).hdr slot).likelihood = likelihoodUp (s.hdr slot).likelihood ∧
      (s.endRevive slot r 0).reg (Reg.hmpCnt 1) = s.reg (Reg.hmpCnt 1) + 1 ∧ OtherDirs s (s.endRevive slot r 0) slot := by
  let h : Header := { s.hdr slot with
    likelihood := likelihoodUp (s.hdr slot).likelihood, revives := min (2 ^ 32 - 1) ((s.hdr slot).revives + 1) }
  let u : State := ((((s.setHdr slot h).setHState slot .active).bump (Reg.hmpCnt 1)).startTick (checkTick slot)).endChange slot
  let v : State := { u with hmp.revives := SMap.erase u.hmp.revives slot }
  have hend : s.endRevive slot r 0 = (v.resumeReq slot).reply r.cmd 0 0 0 := rfl
  have hdir (n : Nat) : v.dir n = if n = slot then { s.dir slot with state := .active, lastNs := s.now } else s.dir n :=
    State.dir_of_set rfl n
  have hhdr : v.hdr slot = h := (State.hdr_of_set (s := s) rfl slot).trans (if_pos rfl)
  have hreg : v.reg (Reg.hmpCnt 1) = s.reg (Reg.hmpCnt 1) + 1 := State.reg_of_bump (s := s) rfl
  have hrevives : SMap.lookup v.hmp.revives slot = none := SMap.lookup_erase_same _ _
  obtain ⟨f, hresume⟩ := v.resumeReq_keeps slot
  have hhmp : ((v.resumeReq slot).reply r.cmd 0 0 0).hmp = v.hmp := by
    rw [hresume]
    simp
  have hregs : ((v.resumeReq slot).reply r.cmd 0 0 0).regs = v.regs := by
    rw [hresume]
    simp
  have hdirs (n : Nat) : ((v.resumeReq slot).reply r.cmd 0 0 0).dir n = v.dir n := State.dir_congr (by rw [hhmp]) n
  rw [hend]
  refine ⟨?_, ?_, by rw [hhmp, hrevives], ?_, (State.reg_of_regs hregs _).trans hreg, fun n hn => ?_⟩
  · rw [hdirs, hdir, if_pos rfl]
  · rw [hdirs, hdir, if_pos rfl]
  · rw [State.hdr_congr (s := v) (by rw [hhmp]), hhdr]
  · rw [hdirs, hdir, if_neg hn]

section complete

variable {s : State} (hl : s.live = true) {slot : Nat} {r : Revive} {reports : List (Nat × Nat)}
  (hr : SMap.lookup s.hmp.revives slot = some r) (hheld : r.held = false) (hself : s.self ∉ r.waiting)
  (hall : ∀ m ∈ r.waiting, ∃ x ∈ reports, x.1 = m)

include hl hr hheld hself hall

theorem exec_reviveComplete : exec (.reviveComplete slot reports) s = .next (s.endRevive slot r
    (if r.failCode ≠ 0 then r.failCode
     else (((reports.filter fun x => r.waiting.contains x.1).map (·.2)).find? fun c => c ≠ 0).getD 0)) := by
  have hanswered : (r.waiting.all fun m => reports.any fun x => x.1 = m) = true := by
    simpa only [List.all_eq_true, List.any_eq_true, decide_eq_true_eq] using hall
  have hmine : r.waiting.contains s.self = false := by simpa using hself
  show execReviveComplete slot reports s = _
  rw [execReviveComplete, gate_live hl]
  simp only [hr, hheld, hmine, hanswered, Bool.not_true, Bool.or_self, Bool.false_eq_true, if_false]

theorem does_reviveComplete_active (hfail : r.failCode = 0) (hzero : ∀ x ∈ reports, x.2 = 0) :
    Does (.reviveComplete slot reports) s fun t =>
      (t.dir slot).state = .active ∧ (t.dir slot).decode = (s.dir slot).decode ∧ SMap.lookup t.hmp.revives slot = none ∧
      (t.hdr slot).likelihood = likelihoodUp (s.hdr slot).likelihood ∧
      t.reg (Reg.hmpCnt 1) = s.reg (Reg.hmpCnt 1) + 1 ∧ OtherDirs s t slot := by
  refine ⟨_, exec_reviveComplete hl hr hheld hself hall, ?_⟩
  rw [hfail, find?_codes_eq_none hzero]
  exact State.endRevive_zero s slot r

theorem does_reviveComplete_parked (hfail : r.failCode ≠ 0) : Does (.reviveComplete slot reports) s fun t =>
    (t.dir slot).state = .parked ∧ (t.dir slot).decode = 0 ∧ SMap.lookup t.hmp.revives slot = none ∧
    t.reg (Reg.hmpCnt 2) = s.reg (Reg.hmpCnt 2) + 1 := by
  refine ⟨_, exec_reviveComplete hl hr hheld hself hall, ?_⟩
  rw [if_pos hfail]
  exact State.endRevive_failed s slot r hfail

end complete

/-! ### Likelihood -/

/-- A PARKED hamper's LIKELIHOOD falls by an eighth once the period has passed (R117). -/
theorem does_likelihoodDecay {s : State} (hl : s.live = true) {slot : Nat} (hstate : (s.dir slot).state = .parked)
    (hkind : (s.dir slot).kind = .home) (hdue : s.due (decayTick slot) (s.field Reg.hmpRevive 39 8 * 10 ^ 9)) :
    Does (.likelihoodDecay slot) s fun t =>
      t.hdr slot = { s.hdr slot with likelihood := (s.hdr slot).likelihood - (s.hdr slot).likelihood / 8 } ∧
      t.hmp.dir = s.hmp.dir ∧ t.mem = s.mem ∧ ¬ t.due (decayTick slot) 1 := by
  have hcond : ((s.dir slot).state = .parked && (s.dir slot).kind = .home : Bool) = true := by simp [hstate, hkind]
  let u : State := { s with ticks := SMap.set 0 s.ticks (decayTick slot) s.now }
  refine ⟨u.setHdr slot { u.hdr slot with likelihood := likelihoodDown (u.hdr slot).likelihood }, ?_,
    State.hdr_setHdr_same _ _ _, rfl, rfl, ?_⟩
  · have hperiodic := gate_periodic hl (period := fun s => s.field Reg.hmpRevive 39 8 * 10 ^ 9) hdue fun s =>
      s.setHdr slot { s.hdr slot with likelihood := likelihoodDown (s.hdr slot).likelihood }
    rw [gate_live hl] at hperiodic
    show execLikelihoodDecay slot s = _
    rw [execLikelihoodDecay, gate_live hl]
    simp only [hcond, if_true]
    exact hperiodic
  · have htick : SMap.get 0 u.ticks (decayTick slot) = s.now := by simp [u]
    show ¬ SMap.get 0 u.ticks (decayTick slot) + 1 ≤ s.now
    omega

/-- Settles O22: the request at the home, the shards' part, the end at the home, and the decay while PARKED. -/
theorem reviving : Obligations.Reviving := by
  refine fun s id slot c r reports => ⟨fun h hslot hcode hbusy hstate hkind htracked =>
    ⟨fun d hpressure hd => does_revive_reviving h hslot hcode hbusy hstate htracked hkind hpressure hd,
      does_revive_held h hslot hcode hbusy hstate htracked⟩, fun hl => ⟨?_, ?_, ?_, ?_, ?_, ?_, ?_⟩⟩
  · exact fun h k hslot hcode hkind hstate hpages => does_reviveItem_revive hl hslot hcode hkind hstate hpages k
  · exact fun h hslot hcode hkind halone =>
      ⟨does_reviveItem_park hl hslot hcode hkind, does_reviveItem_free hl hslot hcode hkind halone⟩
  · exact fun v hr hv hne hall hzero => does_reviveComplete_follow hl hr hv hne hall hzero
  · exact fun d hr hheld hroom hd hkind => does_reviveHoldRelease hl hr hheld hroom hd hkind
  · exact fun hr hheld hself hfail hall hzero => does_reviveComplete_active hl hr hheld hself hall hfail hzero
  · exact fun hr hheld hself hfail hall => does_reviveComplete_parked hl hr hheld hself hall hfail
  · exact fun hstate hkind hdue => does_likelihoodDecay hl hstate hkind hdue

end Sys2Proof.Machine
end

section
/-! ### Records of the pool directory (R123, R124) -/

namespace Sys2Proof.Machine

open Sys2Proof

/-! ### Words written and read back -/

theorem State.readNat_congr {s t : State} {a n : Nat} (h : ∀ i, i < n → t.byte (a + i) = s.byte (a + i)) :
    t.readNat a n = s.readNat a n := by
  induction n generalizing a with
  | zero => rfl
  | succ n ih =>
    have hrest := ih (a := a + 1) fun i hi => by simpa only [Nat.add_assoc, Nat.add_comm 1 i] using h (i + 1) (by omega)
    rw [State.readNat, State.readNat, hrest, show t.byte a = s.byte a from h 0 (by omega)]

theorem State.readNat_of_bytes {s : State} {a n v : Nat} (h : ∀ i, i < n → s.byte (a + i) = (leBytes v n).getD i 0) :
    s.readNat a n = v % 256 ^ n := by
  induction n generalizing a v with
  | zero => simp [State.readNat, Nat.mod_one]
  | succ n ih =>
    have hrest := ih (a := a + 1) (v := v / 256) fun i hi => by
      simpa only [leBytes, List.getD_cons_succ, Nat.add_assoc, Nat.add_comm 1 i] using h (i + 1) (by omega)
    have hfirst : (s.byte a).toNat = v % 256 := by
      rw [show s.byte a = BitVec.ofNat 8 v from h 0 (by omega)]
      rfl
    rw [State.readNat, hrest, hfirst, Nat.pow_succ', Nat.mod_mul]

theorem length_leBytes (n v : Nat) : (leBytes v n).length = n := by
  induction n generalizing v with
  | zero => rfl
  | succ n ih => rw [leBytes, List.length_cons, ih]

theorem words_length (ws : List Word) : (ws.flatMap fun w => leBytes w.toNat 8).length = 8 * ws.length := by
  induction ws with
  | nil => rfl
  | cons w ws ih =>
    rw [List.flatMap_cons, List.length_append, length_leBytes, ih, List.length_cons]
    omega

/-- Byte j of word i. -/
theorem words_getD {ws : List Word} {i j : Nat} (hj : j < 8) (hi : i < ws.length) :
    (ws.flatMap fun w => leBytes w.toNat 8).getD (8 * i + j) 0 = (leBytes (ws.getD i 0).toNat 8).getD j 0 := by
  induction ws generalizing i with
  | nil => exact absurd hi (by simp)
  | cons w ws ih =>
    rw [List.flatMap_cons]
    cases i with
    | zero => rw [Nat.mul_zero, Nat.zero_add, List.getD_append _ _ _ _ (by rw [length_leBytes]; exact hj), List.getD_cons_zero]
    | succ i =>
      have hsub : 8 * (i + 1) + j - (leBytes w.toNat 8).length = 8 * i + j := by
        rw [length_leBytes]
        omega
      rw [List.getD_append_right _ _ _ _ (by rw [length_leBytes]; omega), hsub, ih (Nat.lt_of_succ_lt_succ hi),
        List.getD_cons_succ]

theorem State.readWord_writeWords (s : State) (a : Nat) {ws : List Word} {i : Nat} (hi : i < ws.length) :
    (s.writeWords a ws).readWord (a + 8 * i) = ws.getD i 0 := by
  have hlen := words_length ws
  have hread : (s.writeWords a ws).readNat (a + 8 * i) 8 = (ws.getD i 0).toNat % 256 ^ 8 := by
    refine State.readNat_of_bytes fun j hj => ?_
    have hsub : a + 8 * i + j - a = 8 * i + j := by omega
    rw [State.writeWords, State.byte_writeBytes, if_pos ⟨by omega, by omega⟩, hsub, words_getD hj hi]
  rw [State.readWord, hread]
  refine BitVec.eq_of_toNat_eq ?_
  have hlt := (ws.getD i 0).isLt
  rw [BitVec.toNat_ofNat]
  omega

theorem State.byte_writeWords_other (s : State) {a b : Nat} {ws : List Word} (h : b < a ∨ a + 8 * ws.length ≤ b) :
    (s.writeWords a ws).byte b = s.byte b := by
  have hlen := words_length ws
  rw [State.writeWords, State.byte_writeBytes, if_neg (by omega)]

theorem State.readItem_writeWords (s : State) (a : Nat) (it : Item) : (s.writeWords a it.words).readItem a = it := by
  have hword (i : Nat) (hi : i < 8) := s.readWord_writeWords a (ws := it.words) (i := i) hi
  unfold State.readItem
  rw [hword 1 (by decide), hword 2 (by decide), hword 3 (by decide), hword 4 (by decide), hword 5 (by decide),
    hword 6 (by decide), hword 7 (by decide)]
  exact congrArg (fun w => (⟨w, it.w1, it.w2, it.w3, it.w4, it.w5, it.w6, it.w7⟩ : Item)) (hword 0 (by decide))

theorem State.readItem_congr {s t : State} {a : Nat} (h : ∀ b, a ≤ b → b < a + 64 → t.byte b = s.byte b) :
    t.readItem a = s.readItem a := by
  have hword (i : Nat) (hi : i ≤ 56) : t.readWord (a + i) = s.readWord (a + i) := by
    unfold State.readWord
    rw [State.readNat_congr fun j hj => h _ (by omega) (by omega)]
  unfold State.readItem
  rw [hword 8 (by decide), hword 16 (by decide), hword 24 (by decide), hword 32 (by decide), hword 40 (by decide),
    hword 48 (by decide), hword 56 (by decide), show t.readWord a = s.readWord a from hword 0 (by decide)]

/-! ### A record written and read back -/

/-- A record as the pool keeps it: the fields that do not fit their places are cut. -/
def keptRec (r : PoolRec) : PoolRec :=
  { r with holder := .ofCode r.holder.code, target := .ofCode r.target.code, changeNs := r.changeNs % 2 ^ 64
           tclass := r.tclass % 16, customer := r.customer % 2 ^ 20 }

/-- The words of a record as an item. -/
def recItem (r : PoolRec) : Item :=
  { w0 := r.origin, w1 := r.current
    w2 := fld 63 32 r.custody.toNat ||| fld 31 30 r.state.code ||| fld 29 19 r.holder.code ||| fld 18 8 r.target.code
    w3 := BitVec.ofNat 64 r.changeNs, w4 := r.cairn, w5 := fld 23 20 r.tclass ||| fld 19 0 r.customer }

theorem poolRecWords_eq (r : PoolRec) : poolRecWords r = (recItem r).words := rfl

theorem recState_ofCode_code (st : RecState) : RecState.ofCode (st.code % 4) = st := by cases st <;> rfl

theorem holder_code_lt (h : Holder) : h.code < 2048 := by
  cases h <;> simp only [Holder.code] <;> omega

theorem poolRecOf_item (r : PoolRec) : poolRecOf (recItem r) = keptRec r := by
  have hcustody := r.custody.isLt
  have hholder : r.holder.code % 2048 = r.holder.code := Nat.mod_eq_of_lt (holder_code_lt _)
  have htarget : r.target.code % 2048 = r.target.code := Nat.mod_eq_of_lt (holder_code_lt _)
  simp [poolRecOf, recItem, keptRec, bits_or, bits_fld_same, bits_fld_other, hholder, htarget, recState_ofCode_code]
  exact (congrArg (BitVec.ofNat 32) (Nat.mod_eq_of_lt hcustody)).trans (BitVec.ofNat_toNat _ _ |>.trans (by simp))

theorem State.rec_setRec_same (s : State) (k : Nat) (r : PoolRec) : (s.setRec k r).rec_ k = keptRec r := by
  rw [State.rec_, State.setRec, poolRecWords_eq, State.readItem_writeWords, poolRecOf_item]

theorem holder_ofCode_module {m : Nat} (h : m < 1024) : Holder.ofCode (Holder.module m).code = .module m := by
  simp [Holder.code, Holder.ofCode, Nat.mod_eq_of_lt h, h]

/-- A module that a record names has a number below 1,024. -/
theorem holder_lt_of_ofCode {c m : Nat} (h : Holder.ofCode c = .module m) : m < 1024 := by
  unfold Holder.ofCode at h
  split at h
  · next hc =>
    cases h
    exact hc
  · cases h

/-! ### Places of the records -/

theorem recAt_eq {k : Nat} (h : k < 2 ^ 40) : recAt k = 2 * 2 ^ 64 + (k / 2 ^ 32 * 2 ^ 56 + (65536 + 64 * (k % 2 ^ 32))) := by
  have hseg : bits (recAddrOf (k / 2 ^ 32) (k % 2 ^ 32)) 63 56 = k / 2 ^ 32 := by
    rw [recAddrOf, bits_or, bits_fld_same _ _ _ (by decide) (by decide), bits_fld_other _ _ _ _ _ (by decide) (by decide) (by decide)
      (by decide), Nat.or_zero]
    omega
  have hoff : bits (recAddrOf (k / 2 ^ 32) (k % 2 ^ 32)) 55 0 = 65536 + 64 * (k % 2 ^ 32) := by
    rw [recAddrOf, bits_or, bits_fld_same 55 0 _ (by decide) (by decide), bits_fld_other _ _ _ _ _ (by decide) (by decide) (by decide)
      (by decide), Nat.zero_or]
    omega
  have hlt := (recAddrOf (k / 2 ^ 32) (k % 2 ^ 32)).isLt
  simp only [bits, Nat.reduceSub, Nat.reduceAdd, pow_zero, Nat.div_one] at hseg hoff
  rw [recAt, poolAddr]
  omega

/-- Every byte of the pool's segments is as before; the pool's addresses stand above those of the larders and of DRAM. -/
def SamePool (s t : State) : Prop := ∀ b, 2 * 2 ^ 64 ≤ b → t.byte b = s.byte b

theorem SamePool.trans {s t u : State} (h : SamePool s t) (h' : SamePool t u) : SamePool s u := fun b hb => (h' b hb).trans (h b hb)

theorem SamePool.of_mem {s t : State} (h : t.mem = s.mem) : SamePool s t := fun b _ => by rw [State.byte, State.byte, h]

theorem pool_le_recAt (k : Nat) : 2 * 2 ^ 64 ≤ recAt k := Nat.le_add_right _ _

theorem SamePool.rec_eq {s t : State} (h : SamePool s t) (k : Nat) : t.rec_ k = s.rec_ k := by
  rw [State.rec_, State.rec_, State.readItem_congr fun b hb _ => h b ((pool_le_recAt k).trans hb)]

theorem State.rec_of_mem {s t : State} (h : t.mem = s.mem) (k : Nat) : t.rec_ k = s.rec_ k := (SamePool.of_mem h).rec_eq k

theorem State.rec_setRec_other (s : State) {j k : Nat} (hj : j < 2 ^ 40) (hk : k < 2 ^ 40) (hjk : j ≠ k) (r : PoolRec) :
    (s.setRec k r).rec_ j = s.rec_ j := by
  rw [State.rec_, State.rec_, State.setRec, State.readItem_congr fun b hb hb' => ?_]
  rw [recAt_eq hj] at hb hb'
  refine State.byte_writeWords_other s ?_
  rw [recAt_eq hk, show (poolRecWords r).length = 8 from rfl]
  omega

/-! ### A swap (R124) -/

/-- What a swap that meets what it expects writes. -/
def State.swapped (s : State) (k : Nat) (new : PoolRec) : PoolRec :=
  { new with origin := (s.rec_ k).origin, changeNs := s.now, tclass := (s.rec_ k).tclass, customer := (s.rec_ k).customer }

/-- The record's new word stands in the pool, and the swap is counted. -/
def State.casHit (s : State) (k : Nat) (new : PoolRec) : State := (s.bump (Reg.fabCnt 2)).setRec k (s.swapped k new)

theorem State.casHit_keeps (s : State) (k : Nat) (new : PoolRec) : (s.casHit k new).hmp = s.hmp ∧ (s.casHit k new).now = s.now ∧
    (s.casHit k new).comp = s.comp ∧ (s.casHit k new).host = s.host ∧ (s.casHit k new).plat = s.plat ∧
    (s.casHit k new).out = s.out ∧ (s.casHit k new).snp = s.snp := by
  simp [State.casHit]

theorem State.reg_casHit (s : State) (k : Nat) (new : PoolRec) {j : Nat} (hj : j ≠ Reg.fabCnt 2) :
    (s.casHit k new).reg j = s.reg j :=
  (State.reg_of_regs (State.setRec_regs _ _ _) j).trans (State.reg_bump_other s _ j hj)

theorem State.rec_casHit_same (s : State) (k : Nat) (new : PoolRec) : (s.casHit k new).rec_ k = keptRec (s.swapped k new) :=
  State.rec_setRec_same _ _ _

theorem State.rec_casHit_other (s : State) {j k : Nat} (hj : j < 2 ^ 40) (hk : k < 2 ^ 40) (hjk : j ≠ k) (new : PoolRec) :
    (s.casHit k new).rec_ j = s.rec_ j :=
  (State.rec_setRec_other _ hj hk hjk _).trans (State.rec_of_mem rfl j)

theorem State.swapRec_hit {s : State} {k : Nat} (hcode : s.recCode (recAddrOf (k / 2 ^ 32) (k % 2 ^ 32)) = 0) {old : PoolRec}
    (h : sameWord (s.rec_ k) old = true) (new : PoolRec) :
    s.swapRec k old new = (true, s.casHit k new) := by
  simp only [State.swapRec, hcode, h, ne_eq, not_true_eq_false, if_false, if_true]
  rfl

theorem sameWord_expected {r : PoolRec} {n : BitVec 32} {holder target : Holder} (hn : r.custody = n) (hst : r.state = .inTransit)
    (hh : r.holder = holder) (ht : r.target = target) :
    sameWord r { r with custody := n, state := .inTransit, holder := holder, target := target } = true := by
  simp [sameWord, hn, hst, hh, ht]

/-! ### The push of a hamper's pages to its taker (R129) -/

theorem findFrom_ge {p : Nat → Bool} {lo n k : Nat} (h : findFrom p lo n = some k) : lo ≤ k := by
  induction n generalizing lo with
  | zero => cases h
  | succ n ih =>
    rw [findFrom] at h
    split at h
    · exact (Option.some.inj h).le
    · exact (Nat.le_succ lo).trans (ih h)

theorem State.allocLoc_dram_lt {s : State} {loc : Nat} (h : s.allocLoc .dram 0 = some loc) : loc < 33554432 := by
  unfold State.allocLoc at h
  dsimp only at h
  split at h
  · next k hk =>
    split at h
    · next hlt =>
      have hloc := Option.some.inj h
      simp only [homeKey, subBase, Tier.code, State.tierCap] at hlt hloc
      omega
    · cases h
  · cases h

/-- A page of DRAM, below the capacity of the tier. -/
def State.inDram (s : State) (p : Nat) : Prop := (s.leaf p).tier = .dram ∧ (s.leaf p).loc < 33554432

theorem State.inDram_mapAt (s : State) {p q loc : Nat} (hloc : loc < 33554432) (kv : Bool) (tclass : Nat) (h : q = p ∨ s.inDram q) :
    (s.mapAt p .dram loc kv tclass).inDram q := by
  obtain ⟨d, hd⟩ := s.mapDirs_keeps p
  let l : Leaf := { v := true, tier := .dram, tclass := tclass, loc := loc, kv := kv }
  have hleaf : (s.mapAt p .dram loc kv tclass).leaf q = (s.setLeaf p l).leaf q := by
    refine State.leaf_congr ?_ ?_ q <;> rw [State.mapAt, hd] <;> rfl
  unfold State.inDram
  rw [hleaf]
  by_cases hq : q = p
  · rw [hq]
    cases hb : s.inBoot p
    case false =>
      rw [State.leaf_setLeaf_self hb]
      exact ⟨rfl, hloc⟩
    case true =>
      have hin : (s.tsm.boot && decide (p < bootPages)) = true := hb
      have hboot : (s.setLeaf p l).leaf p = { v := true, tier := .dram, loc := p, pin := true } := by
        unfold State.leaf
        rw [show (s.setLeaf p l).tsm.boot = s.tsm.boot from rfl, if_pos hin]
      have hp : p < 16384 := of_decide_eq_true (Bool.and_eq_true_iff.1 hin).2
      rw [hboot]
      exact ⟨rfl, hp.trans (by decide)⟩
  · rw [State.leaf_setLeaf_of_ne s hq]
    exact h.resolve_left hq

theorem State.samePool_mapAt (s : State) {p loc : Nat} (hloc : loc < 33554432) (kv : Bool) (tclass : Nat) :
    SamePool s (s.mapAt p .dram loc kv tclass) := by
  obtain ⟨d, hd⟩ := s.mapDirs_keeps p
  intro b hb
  rw [State.mapAt, State.byte_zeroRange, hd, if_neg]
  · rfl
  · simp only [homeAddr, dramAddr]
    omega

/-- Pages mapped in DRAM leave the pool's bytes, and every page that stands in DRAM there. -/
theorem mapRun_dram {kv : Bool} {tclass : Nat} {ps : List Nat} {s u : State} (h : mapRun .dram 0 kv tclass ps s = some u) :
    SamePool s u ∧ ∀ q, q ∈ ps ∨ s.inDram q → u.inDram q := by
  induction ps generalizing s with
  | nil =>
    cases h
    exact ⟨fun _ _ => rfl, fun q hq => hq.resolve_left List.not_mem_nil⟩
  | cons p ps ih =>
    unfold mapRun State.mapPage at h
    cases halloc : s.allocLoc .dram 0 with
    | none => simp [halloc] at h
    | some loc =>
      have hloc := State.allocLoc_dram_lt halloc
      by_cases hroom : s.tableRoom p = true
      · simp only [halloc, hroom, if_true] at h
        obtain ⟨hpool, hdram⟩ := ih h
        refine ⟨(s.samePool_mapAt hloc kv tclass).trans hpool, fun q hq => hdram q ?_⟩
        rcases hq with hq | hq
        · rcases List.mem_cons.1 hq with rfl | hq
          · exact .inr (s.inDram_mapAt hloc kv tclass (.inl rfl))
          · exact .inl hq
        · exact .inr (s.inDram_mapAt hloc kv tclass (.inr hq))
      · simp [halloc, hroom] at h

theorem inDram_of_mapRun {kv : Bool} {tclass p n : Nat} {s u : State} (h : mapRun .dram 0 kv tclass (pageRun p n) s = some u) {q : Nat}
    (hp : p ≤ q) (hq : q < p + n) : u.inDram q :=
  (mapRun_dram h).2 q (.inl (List.mem_map.2 ⟨q - p, List.mem_range.2 (by omega), by omega⟩))

/-- Lists written to pages of DRAM change bytes of DRAM alone. -/
theorem writeListPages_keeps (n p : Nat) (ws : List Word) {s : State} (h : ∀ q, p ≤ q → q < p + n → s.inDram q) :
    (∃ m, writeListPages n p ws s = { s with mem := m }) ∧ SamePool s (writeListPages n p ws s) := by
  induction n generalizing p ws s with
  | zero => exact ⟨⟨_, rfl⟩, fun _ _ => rfl⟩
  | succ n ih =>
    obtain ⟨htier, hloc⟩ := h p (Nat.le_refl p) (by omega)
    let u : State := s.writeWords (homeAddr (s.leaf p).tier (s.leaf p).loc 0) (ws.take 8192)
    have hu : ∀ q, p + 1 ≤ q → q < p + 1 + n → u.inDram q := fun q hq hq' => h q (by omega) (by omega)
    obtain ⟨⟨m, hm⟩, hpool⟩ := ih (p + 1) (ws.drop 8192) hu
    refine ⟨⟨m, hm⟩, SamePool.trans (fun b hb => State.byte_writeWords_other s (.inr ?_)) hpool⟩
    have hlen := List.length_take_le 8192 ws
    simp only [htier, homeAddr, dramAddr]
    omega

theorem State.pushTransfer_keeps (s : State) (slot peer : Nat) (target : Word) :
    (s.pushTransfer slot peer target).hmp = s.hmp ∧ SamePool s (s.pushTransfer slot peer target) := by
  generalize hpush : s.pushTransfer slot peer target = t
  rw [State.pushTransfer] at hpush
  generalize (s.dir slot).header :: (s.dataPages slot).map (fun p => 65536 * p) = list at hpush
  generalize ceilDiv (8 * list.length) 65536 = k at hpush
  split at hpush
  · next u hu =>
    obtain ⟨x, m, rfl⟩ := mapRun_keeps hu
    have hpool := (mapRun_dram hu).1
    obtain ⟨⟨m', hm'⟩, hlist⟩ := writeListPages_keeps k s.tsm.nextVa (list.map fun a => BitVec.ofNat 64 a)
      fun _ => inDram_of_mapRun hu
    rw [hm'] at hlist hpush
    subst hpush
    refine ⟨by simp [State.stamp, State.nextSeq], (hpool.trans hlist).trans (SamePool.of_mem ?_)⟩
    simp [State.stamp, State.nextSeq]
  · subst hpush
    exact ⟨rfl, fun _ _ => rfl⟩

/-- The ferry moves of a transfer, and its push when they have ended, leave the hampers and the pool. -/
theorem State.startFerry_transfer_keeps (s : State) (slot peer : Nat) (target : Word) (w : Want) (ps : List Nat) :
    (s.startFerry (.transfer slot peer target) w ps).hmp = s.hmp ∧
      SamePool s (s.startFerry (.transfer slot peer target) w ps) := by
  obtain ⟨x, g, r, hr, hgo | hend⟩ := s.startFerry_cases (.transfer slot peer target) w ps
  · rw [hgo]
    exact ⟨rfl, SamePool.of_mem rfl⟩
  · rw [hend]
    simp only [State.endFerry, hr]
    split
    · exact ⟨rfl, SamePool.of_mem rfl⟩
    · exact State.pushTransfer_keeps _ slot peer target

end Sys2Proof.Machine
end

section
/-! ### Custody (R124, R127 to R135) -/

namespace Sys2Proof.Machine

open Sys2Proof

/-! ### Tables that stay where they are -/

/-- Where a header places its hamper's token log and span table. -/
def placed (h : Header) : Nat × Nat × Nat × Nat := (h.tokenLog, h.maxTokens, h.spanTable, h.spans)

/-- The tables of the hampers at t lie where tables of s do.  Of the registers only those of the counters between TSM.ROOT and the
geometry of the KV store may differ. -/
structure SameTables (s t : State) : Prop where
  tsm : t.tsm = s.tsm
  dirBase : t.hmp.dirBase = s.hmp.dirBase
  headerBase : t.hmp.headerBase = s.hmp.headerBase
  headers : ∀ x ∈ t.hmp.hdr, x ∈ s.hmp.hdr ∨ placed x.2 = placed (s.hdr x.1)
  model : ∀ n, (t.dir n).model = (s.dir n).model
  regs : ∀ k, (k = 65536 ∨ 196608 ≤ k) → t.reg k = s.reg k

theorem SameTables.field {s t : State} (h : SameTables s t) {k : Nat} (hk : k = 65536 ∨ 196608 ≤ k) (hi lo : Nat) :
    t.field k hi lo = s.field k hi lo := by
  rw [State.field, State.field, h.regs k hk]

theorem SMap.mem_of_lookup {α : Type} {m : SMap α} {k : Nat} {v : α} (h : SMap.lookup m k = some v) : (k, v) ∈ m := by
  induction m with
  | nil => cases h
  | cons x m ih =>
    rw [SMap.lookup] at h
    split at h
    · next hk =>
      cases h
      exact List.mem_cons.2 (.inl (by rw [← hk]))
    · exact List.mem_cons_of_mem _ (ih h)

/-- A header that places something stands in the table. -/
theorem mem_hdr_of_placed {s : State} {n : Nat} (h : (s.hdr n).tokenLog ≠ 0 ∨ (s.hdr n).spanTable ≠ 0) :
    (n, s.hdr n) ∈ s.hmp.hdr := by
  cases hl : SMap.lookup s.hmp.hdr n with
  | none =>
    have hdefault : s.hdr n = {} := by
      unfold State.hdr SMap.get
      rw [hl]
      rfl
    simp [hdefault] at h
  | some v =>
    have hv : s.hdr n = v := by
      unfold State.hdr SMap.get
      rw [hl]
      rfl
    rw [hv]
    exact SMap.mem_of_lookup hl

theorem SameTables.tabled {s t : State} (h : SameTables s t) {p : Nat} (ht : t.tabled p = true) : s.tabled p = true := by
  have hleaf : t.leaf p = s.leaf p := State.leaf_congr (by rw [h.tsm]) (by rw [h.tsm]) p
  have hreqs : t.reqBase = s.reqBase ∧ t.reqBytes = s.reqBytes ∧ t.rootPage = s.rootPage := by
    refine ⟨?_, ?_, h.field (.inl rfl) 24 0⟩
    · rw [State.reqBase, State.reqBase, h.field (.inr (by decide))]
    · rw [State.reqBytes, State.reqBytes, h.field (.inr (by decide))]
  obtain ⟨hbase, hbytes, hroot⟩ := hreqs
  have hblocks (n : Nat) : t.blocks (t.dir n).model = s.blocks (s.dir n).model := by
    have hgeometry (m hi lo : Nat) := h.field (k := Reg.kvsGeometry m) (.inr (Nat.le_add_right 196608 m)) hi lo
    rw [h.model, State.blocks, State.blocks, State.layers, State.layers, State.heads, State.heads, hgeometry, hgeometry]
  unfold State.tabled at ht ⊢
  simp only [hleaf, hbase, hbytes, hroot, h.tsm, h.dirBase, h.headerBase, hblocks, Bool.or_eq_true] at ht ⊢
  refine ht.imp id fun hany => ?_
  obtain ⟨x, hx, hmeets⟩ := List.any_eq_true.1 hany
  refine List.any_eq_true.2 ?_
  rcases h.headers x hx with hmem | hplaced
  · exact ⟨x, hmem, hmeets⟩
  · obtain ⟨hlog, hmax, htable, hspans⟩ : x.2.tokenLog = (s.hdr x.1).tokenLog ∧ x.2.maxTokens = (s.hdr x.1).maxTokens ∧
        x.2.spanTable = (s.hdr x.1).spanTable ∧ x.2.spans = (s.hdr x.1).spans := by simpa [placed] using hplaced
    rw [hlog, hmax, htable, hspans] at hmeets
    refine ⟨(x.1, s.hdr x.1), mem_hdr_of_placed ?_, hmeets⟩
    by_contra hzero
    obtain ⟨hlog0, htable0⟩ := not_or.1 hzero
    simp [not_not.1 hlog0, not_not.1 htable0] at hmeets

theorem State.Alone.of_sameTables {s t : State} {slot : Nat} (h : s.Alone slot) (ht : SameTables s t)
    (hcompanions : t.fw.companions = s.fw.companions) (hgram : (t.hdr slot).gram = (s.hdr slot).gram) : t.Alone slot := by
  refine ⟨by rw [hcompanions, h.1], fun n p hn => ?_⟩
  have hat : t.gramAt n = s.gramAt n := by rw [State.gramAt, State.gramAt, ht.field (.inr (by decide))]
  rw [hat]
  by_contra hne
  have hfree := h.2 n p (hgram ▸ hn)
  rw [ht.tabled (by simpa using hne)] at hfree
  exact Bool.noConfusion hfree

theorem State.sameTables_bump (s : State) {k : Nat} (hlo : 65536 < k) (hhi : k < 196608) : SameTables s (s.bump k) where
  tsm := rfl
  dirBase := rfl
  headerBase := rfl
  headers := fun _ hx => .inl hx
  model := fun _ => rfl
  regs := fun j hj => State.reg_bump_other s k j (by omega)

/-! ### Give (R127, R128) -/

/-- The record of a hamper that this module gives to module m. -/
def State.givenRec (s : State) (slot m : Nat) : PoolRec := { s.mine slot with state := .inTransit, target := .module m }

/-- The hamper is GIVING for a command. -/
def State.giving (s : State) (slot cmd : Nat) (g : Give) : State :=
  let v := ((s.began cmd).beginChange slot .give (some cmd)).setHState slot .giving
  { v with hmp.gives := SMap.put v.hmp.gives slot g }

theorem State.dir_giving (s : State) (slot cmd : Nat) (g : Give) (n : Nat) :
    (s.giving slot cmd g).dir n = if n = slot then { s.dir slot with state := .giving, lastNs := s.now } else s.dir n :=
  State.dir_of_set rfl n

theorem State.lookup_gives_giving (s : State) (slot cmd : Nat) (g : Give) :
    SMap.lookup (s.giving slot cmd g).hmp.gives slot = some g := SMap.lookup_put_same _ _ _

theorem State.giving_mem (s : State) (slot cmd : Nat) (g : Give) : (s.giving slot cmd g).mem = s.mem := rfl

/-- What the giver notes of the give of a hamper. -/
def State.giveTo (s : State) (slot m cmd : Nat) : Give :=
  ⟨recKey (s.hdr slot).recAddr, (s.hdr slot).custody, .module m, s.now, some cmd⟩

/-- The giver has swapped the record; the hamper is GIVING. -/
def State.givenUp (s : State) (slot m cmd : Nat) : State :=
  (s.casHit (recKey (s.hdr slot).recAddr) (s.givenRec slot m)).giving slot cmd (s.giveTo slot m cmd)

theorem State.giveModule_eq {s : State} {slot : Nat} (htracked : (s.dir slot).tracked = true)
    (hrec : s.recCode (s.hdr slot).recAddr = 0)
    (hcode : s.recCode (recAddrOf (recKey (s.hdr slot).recAddr / 2 ^ 32) (recKey (s.hdr slot).recAddr % 2 ^ 32)) = 0)
    (hword : sameWord (s.rec_ (recKey (s.hdr slot).recAddr)) (s.mine slot) = true) (m cmd : Nat) :
    s.giveModule slot m cmd = let u := (s.givenUp slot m cmd).sendAll 7 (.share (s.hdr slot).handle .giving)
      u.startFerry (.transfer slot m 0) { dest := .dram } (u.settPages slot) := by
  have hswap := State.swapRec_hit hcode hword (s.givenRec slot m)
  simp only [State.givenRec] at hswap
  rw [State.giveModule]
  simp only [htracked, hrec, hswap, if_true, ne_eq, not_true_eq_false, if_false, Bool.not_true, Bool.false_eq_true]
  rfl

theorem does_give {s : State} {id slot : Nat} {c : HostCmd} (h : Waits s id 0x14 c) (hslot : slot = hSlot c.session)
    (hcode : s.changeCode c.session [.parked] = 0) (hmarked : s.marked slot = false) (hmodule : bit (c.arg 0) 63 = false)
    (htracked : (s.dir slot).tracked = true) (hrec : s.recCode (s.hdr slot).recAddr = 0)
    (hk : recKey (s.hdr slot).recAddr < 2 ^ 40)
    (hat : s.recCode (recAddrOf (recKey (s.hdr slot).recAddr / 2 ^ 32) (recKey (s.hdr slot).recAddr % 2 ^ 32)) = 0)
    (hword : sameWord (s.rec_ (recKey (s.hdr slot).recAddr)) (s.mine slot) = true) : Does (.give id none) s fun t =>
      (t.dir slot).state = .giving ∧ (t.rec_ (recKey (s.hdr slot).recAddr)).state = .inTransit ∧
      (t.rec_ (recKey (s.hdr slot).recAddr)).custody = (s.hdr slot).custody ∧
      (t.rec_ (recKey (s.hdr slot).recAddr)).target = .module (bits (c.arg 0) 57 48) ∧
      (∀ j, j < 2 ^ 40 → j ≠ recKey (s.hdr slot).recAddr → t.rec_ j = s.rec_ j) ∧
      (∃ g, SMap.lookup t.hmp.gives slot = some g ∧ g.n = (s.hdr slot).custody ∧ g.sinceNs = s.now) ∧ OtherDirs s t slot := by
  have hm : bits (c.arg 0) 57 48 < 1024 := bits_lt _ 57 48
  generalize hargs : bits (c.arg 0) 57 48 = m at hm ⊢
  obtain ⟨hcas, hnow, -⟩ := s.casHit_keeps (recKey (s.hdr slot).recAddr) (s.givenRec slot m)
  generalize hv : (s.givenUp slot m c.id).sendAll 7 (.share (s.hdr slot).handle .giving) = v
  have hexec : exec (.give id none) s = .next (v.startFerry (.transfer slot m 0) { dest := .dram } (v.settPages slot)) := by
    show execGive id none s = _
    rw [execGive, h.hostCmd]
    simp only [← hslot, hcode, hmarked, htracked, hmodule, State.seeRec, State.giveModule_eq htracked hrec hat hword, ne_eq,
      not_true_eq_false, Bool.false_eq_true, Bool.true_eq_false, decide_false, Bool.false_and, if_false, hv, hargs]
  obtain ⟨hferry, hpool⟩ := v.startFerry_transfer_keeps slot m 0 { dest := .dram } (v.settPages slot)
  generalize v.startFerry (.transfer slot m 0) { dest := .dram } (v.settPages slot) = t at hexec hferry hpool
  have hkept : v.hmp = (s.givenUp slot m c.id).hmp ∧ v.mem = (s.givenUp slot m c.id).mem := by
    rw [← hv]
    simp
  obtain ⟨hhmp, hmem⟩ := hkept
  have hdir (n : Nat) : t.dir n = if n = slot then { s.dir slot with state := .giving, lastNs := s.now } else s.dir n := by
    rw [State.dir_congr (s := s.givenUp slot m c.id) (by rw [hferry, hhmp]), State.givenUp, State.dir_giving, hnow,
      State.dir_congr (congrArg Hmp.dir hcas), State.dir_congr (congrArg Hmp.dir hcas)]
  have hrecs (j : Nat) : t.rec_ j = (s.casHit (recKey (s.hdr slot).recAddr) (s.givenRec slot m)).rec_ j :=
    (hpool.rec_eq j).trans (State.rec_of_mem (hmem.trans (State.giving_mem _ _ _ _)) j)
  have hnew : t.rec_ (recKey (s.hdr slot).recAddr) = keptRec (s.swapped (recKey (s.hdr slot).recAddr) (s.givenRec slot m)) :=
    (hrecs _).trans (State.rec_casHit_same _ _ _)
  refine ⟨t, hexec, ?_, by rw [hnew]; rfl, by rw [hnew]; rfl, ?_, fun j hj hjk => ?_, ⟨s.giveTo slot m c.id, ?_, rfl, rfl⟩,
    fun n hn => (hdir n).trans (if_neg hn)⟩
  · rw [hdir, if_pos rfl]
  · rw [hnew]
    exact holder_ofCode_module hm
  · exact (hrecs j).trans (State.rec_casHit_other s hj hk hjk _)
  · rw [hferry, hhmp]
    exact State.lookup_gives_giving _ _ _ _

/-! ### The acknowledgement (R129) -/

/-- The giver frees its copy once the taker holds the record. -/
theorem does_handoverAck {s : State} (hl : s.live = true) {slot : Nat} {g : Give} (hgives : s.hmp.gives = [(slot, g)])
    (halone : s.Alone slot) (cur : Word) : Does (.handoverAck (s.hdr slot).origin (g.n + 1) cur) s fun t =>
      (t.dir slot).state = .free ∧ (t.dir slot).gen = nextGen (s.dir slot).gen ∧ SMap.lookup t.hmp.gives slot = none ∧
      t.reg (Reg.hmpCnt 3) = s.reg (Reg.hmpCnt 3) + 1 ∧ OtherDirs s t slot := by
  have hbump : (s.bump (Reg.hmpCnt 3)).Alone slot :=
    halone.of_sameTables (s.sameTables_bump (by decide) (by decide)) rfl rfl
  obtain ⟨hstate, hgen, hother, hnone, -, hreg⟩ := State.freeAll_freed hbump g.cmd 0 cur
  refine ⟨_, ?_, hstate, hgen, hnone, ?_, hother⟩
  · show execHandoverAck (s.hdr slot).origin (g.n + 1) cur s = _
    rw [execHandoverAck, gate_live hl]
    simp [hgives, State.retireGive]
  · rw [hreg _ (by simp [OffTrail, Reg.hmpCnt]), State.reg_bump_same]

/-! ### The taker (R128, R129) -/

/-- The taker's hamper is PARKED with header h, which holds the new custody number. -/
def State.taken (s : State) (slot : Nat) (h : Header) : State :=
  let u := s.setHdr slot h
  let u := u.setDir slot { u.dir slot with state := .parked, tracked := true, lastNs := u.now }
  ({ u.endChange slot with hmp.takes := SMap.erase u.hmp.takes slot }.startTick (decayTick slot)).bump (Reg.hmpCnt 4)

theorem State.taken_facts (s : State) (slot : Nat) (h : Header) : ((s.taken slot h).dir slot).state = .parked ∧
    ((s.taken slot h).dir slot).tracked = true ∧ (s.taken slot h).hdr slot = h ∧
    SMap.lookup (s.taken slot h).hmp.takes slot = none ∧ (s.taken slot h).reg (Reg.hmpCnt 4) = s.reg (Reg.hmpCnt 4) + 1 ∧
    (s.taken slot h).mem = s.mem := by
  have hdir : (s.taken slot h).dir slot = { s.dir slot with state := .parked, tracked := true, lastNs := s.now } :=
    (State.dir_of_set (s := s) rfl slot).trans (if_pos rfl)
  have hhdr : (s.taken slot h).hdr slot = h := (State.hdr_of_set (s := s) rfl slot).trans (if_pos rfl)
  have hreg : (s.taken slot h).reg (Reg.hmpCnt 4) = s.reg (Reg.hmpCnt 4) + 1 :=
    (State.reg_bump_same _ _).trans (congrArg (· + 1) (State.reg_of_regs (s := s) rfl _))
  have hmem : (s.taken slot h).mem = s.mem := by simp [State.taken, State.startTick, State.endChange]
  rw [hdir, hhdr]
  exact ⟨rfl, rfl, rfl, SMap.lookup_erase_same _ _, hreg, hmem⟩

/-- The header of a hamper that the taker has taken. -/
def State.takenHdr (s : State) (slot : Nat) (x : Take) : Header :=
  { s.hdr slot with
    custody := x.n + 1, custodyNs := s.now, recAddr := recAddrOf (x.key / 2 ^ 32) (x.key % 2 ^ 32), parkedNs := s.now }

section take

variable {s : State} (hl : s.live = true) {slot : Nat} {x : Take} (hx : SMap.lookup s.hmp.takes slot = some x)
  (hwaiting : x.waiting = []) (hstate : (s.dir slot).state = .taking)

include hl hx hwaiting hstate

theorem does_handoverTake_home (hkind : (s.dir slot).kind = .home)
    (hat : s.recCode (recAddrOf (x.key / 2 ^ 32) (x.key % 2 ^ 32)) = 0) (hcustody : (s.rec_ x.key).custody = x.n)
    (htransit : (s.rec_ x.key).state = .inTransit) (hholder : (s.rec_ x.key).holder = x.giver)
    (htarget : (s.rec_ x.key).target = .module s.self) : Does (.handoverTake slot none []) s fun t =>
      (t.dir slot).state = .parked ∧ (t.dir slot).tracked = true ∧ (t.rec_ x.key).custody = x.n + 1 ∧
      (t.rec_ x.key).holder = .module s.self ∧ (t.rec_ x.key).state = .held ∧ (t.hdr slot).custody = x.n + 1 ∧
      SMap.lookup t.hmp.takes slot = none ∧ t.reg (Reg.hmpCnt 4) = s.reg (Reg.hmpCnt 4) + 1 := by
  let old : PoolRec :=
    { s.rec_ x.key with custody := x.n, state := .inTransit, holder := x.giver, target := .module s.self }
  let new : PoolRec := { old with custody := x.n + 1, state := .held, holder := .module s.self, current := (s.hdr slot).handle }
  let v : State := ((s.casHit x.key new).taken slot (s.takenHdr slot x)).send x.peer 7 (.handoverAck (s.hdr slot).origin (x.n + 1))
  have hself : s.self < 1024 := holder_lt_of_ofCode htarget
  have hswap : s.swapRec x.key old new = (true, s.casHit x.key new) :=
    State.swapRec_hit hat (sameWord_expected hcustody htransit hholder htarget) new
  have hexec : exec (.handoverTake slot none []) s = .next (v.follow slot (s.hdr slot).handle .park .park none 0 0) := by
    show execHandoverTake slot none [] s = _
    rw [execHandoverTake, gate_live hl]
    simp only [old, new] at hswap
    simp only [hx, hwaiting, hstate, hkind, hswap, List.all_nil, ne_eq, not_true_eq_false, decide_false, Bool.not_true, Bool.or_self,
      Bool.false_eq_true, if_false, if_true]
    rfl
  obtain ⟨hcas, -⟩ := s.casHit_keeps x.key new
  obtain ⟨hdir, htracked, hhdr, htakes, hreg, hmem⟩ := (s.casHit x.key new).taken_facts slot (s.takenHdr slot x)
  have hhmp : v.hmp = ((s.casHit x.key new).taken slot (s.takenHdr slot x)).hmp := by simp [v]
  have hvmem : v.mem = (s.casHit x.key new).mem := by simp [v, hmem]
  obtain ⟨g, hfollow⟩ := v.follow_hmp slot (s.hdr slot).handle .park .park none 0 0
  have hnew : (v.follow slot (s.hdr slot).handle .park .park none 0 0).rec_ x.key = keptRec (s.swapped x.key new) := by
    rw [State.rec_of_mem (v.follow_keeps slot (s.hdr slot).handle .park .park none 0 0).1, State.rec_of_mem hvmem,
      State.rec_casHit_same]
  have hvdir : v.dir slot = ((s.casHit x.key new).taken slot (s.takenHdr slot x)).dir slot := State.dir_congr (by rw [hhmp]) slot
  have hvhdr : v.hdr slot = ((s.casHit x.key new).taken slot (s.takenHdr slot x)).hdr slot := State.hdr_congr (by rw [hhmp]) slot
  refine ⟨_, hexec, ?_, ?_, by rw [hnew]; rfl, ?_, by rw [hnew]; rfl, ?_, ?_, ?_⟩
  · rw [State.dir_follow, hvdir, hdir]
  · rw [State.dir_follow, hvdir, htracked]
  · rw [hnew]
    exact holder_ofCode_module hself
  · rw [State.hdr_follow, hvhdr, hhdr]
    rfl
  · rw [hfollow, hhmp, htakes]
  · have hoff : OffTrail (Reg.hmpCnt 4) := by simp [OffTrail, Reg.hmpCnt]
    rw [State.reg_follow _ _ _ _ _ _ _ _ hoff, State.reg_send hoff, hreg, State.reg_casHit _ _ _ (by decide)]

theorem does_handoverTake_shard (hkind : (s.dir slot).kind ≠ .home) : Does (.handoverTake slot none []) s fun t =>
    (t.dir slot).state = .parked ∧ SMap.lookup t.hmp.takes slot = none := by
  refine ⟨{ (s.setHState slot .parked).endChange slot with hmp.takes := SMap.erase s.hmp.takes slot }, ?_, ?_,
    SMap.lookup_erase_same _ _⟩
  · show execHandoverTake slot none [] s = _
    rw [execHandoverTake, gate_live hl]
    simp [hx, hwaiting, hstate, hkind]
  · rw [State.dir_of_set (s := s) rfl, if_pos rfl]

end take

/-! ### A give that times out (R131) -/

/-- The hamper is PARKED again with header h, which holds the new custody number. -/
def State.regained (s : State) (slot : Nat) (h : Header) : State :=
  let u := ((s.bump (Reg.hmpCnt 5)).setHdr slot h).setHState slot .parked
  { u.endChange slot with hmp.gives := SMap.erase u.hmp.gives slot }.startTick (decayTick slot)

theorem State.regained_facts (s : State) (slot : Nat) (h : Header) : ((s.regained slot h).dir slot).state = .parked ∧
    (s.regained slot h).hdr slot = h ∧ SMap.lookup (s.regained slot h).hmp.gives slot = none ∧ (s.regained slot h).mem = s.mem := by
  refine ⟨?_, (State.hdr_of_set (s := s) rfl slot).trans (if_pos rfl), SMap.lookup_erase_same _ _, rfl⟩
  rw [State.dir_of_set (s := s) (u := s.regained slot h) rfl, if_pos rfl]

theorem does_custodyTimeout {s : State} (hl : s.live = true) {slot : Nat} {g : Give} (hg : SMap.lookup s.hmp.gives slot = some g)
    (hdue : g.sinceNs + s.custodyTimeout ≤ s.now) (hrec : s.recCode (s.hdr slot).recAddr = 0)
    (hat : s.recCode (recAddrOf (g.key / 2 ^ 32) (g.key % 2 ^ 32)) = 0) (hcustody : (s.rec_ g.key).custody = g.n)
    (htransit : (s.rec_ g.key).state = .inTransit) (hholder : (s.rec_ g.key).holder = .module s.self)
    (htarget : (s.rec_ g.key).target = g.taker) : Does (.custodyTimeout slot none) s fun t =>
      (t.dir slot).state = .parked ∧ (t.rec_ g.key).custody = g.n + 1 ∧ (t.rec_ g.key).state = .held ∧
      (t.hdr slot).custody = g.n + 1 ∧ SMap.lookup t.hmp.gives slot = none := by
  let old : PoolRec := { s.rec_ g.key with custody := g.n, state := .inTransit, holder := .module s.self, target := g.taker }
  let new : PoolRec := { old with custody := g.n + 1, state := .held }
  let w : State := (s.casHit g.key new).regained slot { s.hdr slot with custody := g.n + 1 }
  let v : State := w.follow slot (s.hdr slot).handle .park .park g.cmd Code.custodyBusy (s.hdr slot).handle
  have hswap : s.swapRec g.key old new = (true, s.casHit g.key new) :=
    State.swapRec_hit hat (sameWord_expected hcustody htransit hholder htarget) new
  have hexec : exec (.custodyTimeout slot none) s = .next (v.setHdr slot { v.hdr slot with custodyNs := v.now }) := by
    show execCustodyTimeout slot none s = _
    rw [execCustodyTimeout, gate_live hl]
    simp only [old, new] at hswap
    simp only [hg, Nat.not_lt.2 hdue, State.giveTimeout, hrec, hswap, ne_eq, not_true_eq_false, if_false, if_true]
    rfl
  obtain ⟨hparked, hhdr, hgives, hmem⟩ := (s.casHit g.key new).regained_facts slot { s.hdr slot with custody := g.n + 1 }
  obtain ⟨l, hfollow⟩ := w.follow_hmp slot (s.hdr slot).handle .park .park g.cmd Code.custodyBusy (s.hdr slot).handle
  obtain ⟨hvmem, -⟩ := w.follow_keeps slot (s.hdr slot).handle .park .park g.cmd Code.custodyBusy (s.hdr slot).handle
  have hdir : v.dir slot = w.dir slot := State.dir_follow _ _ _ _ _ _ _ _ _
  have hvhdr : v.hdr slot = w.hdr slot := State.hdr_follow _ _ _ _ _ _ _ _ _
  have hvgives : SMap.lookup v.hmp.gives slot = none := by
    rw [hfollow]
    exact hgives
  have hcas : v.mem = (s.casHit g.key new).mem := hvmem.trans hmem
  have hrec : v.rec_ g.key = keptRec (s.swapped g.key new) :=
    (State.rec_of_mem (s := s.casHit g.key new) hcas g.key).trans (State.rec_casHit_same _ _ _)
  generalize v = v at hexec hdir hvhdr hvgives hrec
  have hnew : (v.setHdr slot { v.hdr slot with custodyNs := v.now }).rec_ g.key = keptRec (s.swapped g.key new) := hrec
  refine ⟨_, hexec, ?_, by rw [hnew]; rfl, by rw [hnew]; rfl, ?_, hvgives⟩
  · exact (congrArg DirEnt.state hdir).trans hparked
  · rw [State.hdr_setHdr_same]
    exact congrArg Header.custody (hvhdr.trans hhdr)

/-! ### Checks and probes (R133 to R135) -/

theorem State.custodyCheck_confirmed {s : State} {slot : Nat} (htracked : (s.dir slot).tracked = true)
    (hrec : s.recCode (s.hdr slot).recAddr = 0)
    (hcustody : (s.rec_ (recKey (s.hdr slot).recAddr)).custody = (s.hdr slot).custody)
    (hholder : (s.rec_ (recKey (s.hdr slot).recAddr)).holder = .module s.self)
    (hheld : (s.rec_ (recKey (s.hdr slot).recAddr)).state = .held) : s.custodyCheck slot = (0, s) := by
  simp [State.custodyCheck, htracked, hrec, hcustody, hholder, hheld]

theorem State.custodyCheck_lost {s : State} {slot : Nat} (htracked : (s.dir slot).tracked = true)
    (hrec : s.recCode (s.hdr slot).recAddr = 0)
    (hnewer : newer (s.hdr slot).custody (s.rec_ (recKey (s.hdr slot).recAddr)).custody = true) :
    s.custodyCheck slot = (Code.custodyLost, s.custodyLost slot) := by
  have hne : (s.rec_ (recKey (s.hdr slot).recAddr)).custody ≠ (s.hdr slot).custody := by
    intro e
    rw [e, newer_self] at hnewer
    exact Bool.noConfusion hnewer
  simp [State.custodyCheck, htracked, hrec, hne, hnewer]

section check

variable {s : State} (hl : s.live = true) {slot : Nat} (hstate : (s.dir slot).state = .active) (hkind : (s.dir slot).kind = .home)
  (htracked : (s.dir slot).tracked = true) (hrec : s.recCode (s.hdr slot).recAddr = 0)
  (hdue : s.due (checkTick slot) (msec (s.field Reg.hmpCustody 31 16)))

include hl hstate hkind htracked hdue

theorem exec_custodyCheck : exec (.custodyCheck slot none) s = .next (let r := (s.startTick (checkTick slot)).custodyCheck slot
    if r.1 = Code.custodyCorrupt then (r.2.failReq slot r.1).parkSoon slot none else r.2) := by
  have hperiodic := gate_periodic hl (period := fun s => msec (s.field Reg.hmpCustody 31 16)) hdue fun s =>
    let r := s.custodyCheck slot
    if r.1 = Code.custodyCorrupt then (r.2.failReq slot r.1).parkSoon slot none else r.2
  rw [gate_live hl] at hperiodic
  show execCustodyCheck slot none s = _
  rw [execCustodyCheck, gate_live hl]
  simp only [hstate, hkind, htracked, ne_eq, not_true_eq_false, decide_false, Bool.not_true, Bool.or_self, Bool.false_eq_true,
    if_false]
  exact hperiodic

include hrec

theorem does_custodyCheck_confirmed (hcustody : (s.rec_ (recKey (s.hdr slot).recAddr)).custody = (s.hdr slot).custody)
    (hholder : (s.rec_ (recKey (s.hdr slot).recAddr)).holder = .module s.self)
    (hheld : (s.rec_ (recKey (s.hdr slot).recAddr)).state = .held) :
    Does (.custodyCheck slot none) s fun t => t = s.startTick (checkTick slot) := by
  have hcheck : (s.startTick (checkTick slot)).custodyCheck slot = (0, s.startTick (checkTick slot)) := by
    exact State.custodyCheck_confirmed (s := s.startTick (checkTick slot)) htracked hrec hcustody hholder hheld
  refine ⟨_, exec_custodyCheck hl hstate hkind htracked hdue, ?_⟩
  rw [hcheck]
  exact if_neg (show ¬ 0 = Code.custodyCorrupt by decide)

theorem does_custodyCheck_lost (hnewer : newer (s.hdr slot).custody (s.rec_ (recKey (s.hdr slot).recAddr)).custody = true)
    (halone : s.Alone slot) : Does (.custodyCheck slot none) s fun t =>
      (t.dir slot).state = .free ∧ t.reg (Reg.hmpCnt 6) = s.reg (Reg.hmpCnt 6) + 1 ∧ OtherDirs s t slot := by
  have hcheck : (s.startTick (checkTick slot)).custodyCheck slot =
      (Code.custodyLost, (s.startTick (checkTick slot)).custodyLost slot) := by
    exact State.custodyCheck_lost (s := s.startTick (checkTick slot)) htracked hrec hnewer
  obtain ⟨q, hfail⟩ := (s.startTick (checkTick slot)).failReq_keeps slot Code.custodyLost
  have hlost : (s.startTick (checkTick slot)).custodyLost slot = (((s.startTick (checkTick slot)).failReq slot
      Code.custodyLost).bump (Reg.hmpCnt 6)).freeAll slot ((SMap.lookup ((s.startTick (checkTick slot)).failReq slot
        Code.custodyLost).hmp.changes slot).bind (·.cmd)) Code.custodyLost 0 := rfl
  rw [hfail] at hlost
  have hfailed : ({ s.startTick (checkTick slot) with fw.reqs := q } : State).Alone slot := halone
  have hbump := hfailed.of_sameTables (State.sameTables_bump _ (k := Reg.hmpCnt 6) (by decide) (by decide)) rfl rfl
  obtain ⟨hfree, -, hother, -, -, hreg⟩ := State.freeAll_freed hbump
    ((SMap.lookup ({ s.startTick (checkTick slot) with fw.reqs := q } : State).hmp.changes slot).bind (·.cmd)) Code.custodyLost 0
  refine ⟨_, exec_custodyCheck hl hstate hkind htracked hdue, ?_⟩
  rw [hcheck, if_neg (show ¬ Code.custodyLost = Code.custodyCorrupt by decide), hlost]
  refine ⟨hfree, ?_, hother⟩
  rw [hreg _ (by simp [OffTrail, Reg.hmpCnt]), State.reg_bump_same]
  rfl

end check

/-- A probe for a hamper of this module is answered with its custody number. -/
theorem does_custodyProbe {s : State} (hl : s.live = true) {slot m : Nat} {o : Word} (ho : s.slotOfOrigin o = some slot) :
    Does (.custodyProbe o m none) s fun t => t = s.send m 7 (.probeAnswer o true (s.hdr slot).custody) := by
  refine ⟨_, ?_, rfl⟩
  show execCustodyProbe o m none s = _
  rw [execCustodyProbe, gate_live hl]
  simp [State.seeOrigin, ho]

/-- An answer ends a probe; the answer that no copy is held is reported too. -/
theorem does_probeTimeout {s : State} (hl : s.live = true) {p : Probe} (hp : s.hmp.probes = [p]) :
    (Does (.probeTimeout p.origin (some true)) s fun t => t = { s with hmp.probes := [] }) ∧
      (Does (.probeTimeout p.origin (some false)) s fun t => t.hmp.probes = [] ∧ (t.fn 0).attn.getLsbD 4 = true ∧
        (t.fn 1).attn.getLsbD 4 = true) := by
  refine ⟨⟨_, ?_, rfl⟩, ({ s with hmp.probes := [] } : State).reportCustody Code.custodyEmpty 0 p.origin, ?_, ?_, ?_⟩
  · show execProbeTimeout p.origin (some true) s = _
    rw [execProbeTimeout, gate_live hl]
    simp [hp]
  · show execProbeTimeout p.origin (some false) s = _
    rw [execProbeTimeout, gate_live hl]
    simp [hp]
  · simp [State.reportCustody]
  · obtain ⟨hfst, hsnd⟩ := State.attn_setAttn
      (({ s with hmp.probes := [] } : State).event Code.custodyEmpty 0 4 255 0 0 p.origin) 4
    rw [State.reportCustody, hfst, hsnd]
    simp

/-- Settles O23: the giver's and the taker's steps, the time-out, the periodic check, and the probes. -/
theorem custody : Obligations.Custody := by
  intro s id slot c h k At
  refine ⟨fun hwaits hslot hcode hmarked hmodule htracked hrec hat hword =>
    does_give hwaits hslot hcode hmarked hmodule htracked hrec hat.1 hat.2 hword, fun hl => ⟨?_, ?_, ?_, ?_, ?_, ?_⟩⟩
  · exact fun g cur hgives _ halone => does_handoverAck hl hgives halone cur
  · exact fun x hx hwaiting hstate => ⟨fun hkind hat hcustody htransit hholder htarget =>
      does_handoverTake_home hl hx hwaiting hstate hkind hat.2 hcustody htransit hholder htarget,
      does_handoverTake_shard hl hx hwaiting hstate⟩
  · exact fun g hg _ hdue hrec hat hcustody htransit hholder htarget =>
      does_custodyTimeout hl hg hdue hrec hat.2 hcustody htransit hholder htarget
  · exact fun hstate hkind htracked hrec hdue => ⟨does_custodyCheck_confirmed hl hstate hkind htracked hrec hdue,
      fun hnewer _ halone => does_custodyCheck_lost hl hstate hkind htracked hrec hdue hnewer halone⟩
  · exact fun o m ho => does_custodyProbe hl ho
  · exact fun p hp => does_probeTimeout hl hp

end Sys2Proof.Machine
end

section
/-! ### The share of a restored hamper (R523, R524) -/

namespace Sys2Proof.Machine

open Sys2Proof

/-! ### What building spans leaves -/

/-- The directory, the snapshots and the origins of the hampers are those of s. -/
structure SameHampers (s u : State) : Prop where
  dir : u.hmp.dir = s.hmp.dir
  snp : u.snp = s.snp
  origin : ∀ n, (u.hdr n).origin = (s.hdr n).origin

theorem SameHampers.refl (s : State) : SameHampers s s := ⟨rfl, rfl, fun _ => rfl⟩

theorem SameHampers.trans {s t u : State} (h : SameHampers s t) (h' : SameHampers t u) : SameHampers s u :=
  ⟨h'.dir.trans h.dir, h'.snp.trans h.snp, fun n => (h'.origin n).trans (h.origin n)⟩

/-- A change that leaves the directory, the headers and the snapshots. -/
theorem SameHampers.of_eq {s u : State} (hdir : u.hmp.dir = s.hmp.dir) (hhdr : u.hmp.hdr = s.hmp.hdr) (hsnp : u.snp = s.snp) :
    SameHampers s u := ⟨hdir, hsnp, fun n => by rw [State.hdr_congr hhdr]⟩

theorem SameHampers.foldl {α : Type} {f : State → α → State} (h : ∀ s x, SameHampers s (f s x)) (xs : List α) (s : State) :
    SameHampers s (xs.foldl f s) := by
  induction xs generalizing s with
  | nil => exact SameHampers.refl s
  | cons x xs ih => exact (h s x).trans (ih (f s x))

theorem SameHampers.setHdr (s : State) {slot : Nat} {h : Header} (ho : h.origin = (s.hdr slot).origin) :
    SameHampers s (s.setHdr slot h) := by
  refine ⟨rfl, rfl, fun n => ?_⟩
  rw [State.hdr_setHdr]
  split
  · next hn => rw [ho, hn]
  · rfl

theorem SameHampers.countPool (s : State) (t : Tier) (w : Bool) (n : Nat) : SameHampers s (s.countPool t w n) := by
  unfold State.countPool State.iff
  split <;> exact SameHampers.of_eq rfl rfl rfl

theorem SameHampers.setSpan (s : State) (slot n : Nat) (e : SpanEnt) : SameHampers s (s.setSpan slot n e) :=
  SameHampers.of_eq rfl rfl rfl

theorem SameHampers.bump (s : State) (k : Nat) : SameHampers s (s.bump k) := SameHampers.of_eq rfl rfl rfl

theorem SameHampers.setSide (s : State) (slot n b : Nat) (x : Side) : SameHampers s (s.setSide slot n b x) :=
  SameHampers.of_eq rfl rfl rfl

theorem SameHampers.editSpan (s : State) (slot n : Nat) (e : SpanEnt) : SameHampers s (s.editSpan slot n e) :=
  (SameHampers.setHdr s (h := { s.hdr slot with spanGen := (s.hdr slot).spanGen + 1 }) rfl).trans (SameHampers.setSpan _ _ _ _)

theorem SameHampers.writeLog (slot : Nat) (es : List (BitVec 32)) (i : Nat) (s : State) : SameHampers s (s.writeLog slot i es) := by
  induction es generalizing i s with
  | nil => exact SameHampers.refl s
  | cons e es ih =>
    have hone : SameHampers s (s.setLog slot i e) := SameHampers.of_eq rfl rfl rfl
    exact hone.trans (ih (i + 1) (s.setLog slot i e))

theorem SameHampers.setHomes (s : State) (addr : Nat) (bs : List Byte) : SameHampers s (s.setHomes addr bs) := by
  unfold State.setHomes
  split
  · exact SameHampers.refl s
  · refine SameHampers.foldl (fun s x => ?_) _ s
    unfold State.iff State.mend
    split
    · dsimp only
      split <;> exact SameHampers.of_eq rfl rfl rfl
    · exact SameHampers.refl s

theorem SameHampers.mapRun {t : Tier} {sub : Nat} {kv : Bool} {tclass : Nat} {ps : List Nat} {s u : State}
    (h : mapRun t sub kv tclass ps s = some u) : SameHampers s u := by
  obtain ⟨x, m, rfl⟩ := mapRun_keeps h
  exact SameHampers.of_eq rfl rfl rfl

theorem SameHampers.putSpan {s u : State} {slot n : Nat} {tier : Tier} {src : List (HeadSrc × SpanView)} {copied : Bool}
    (h : s.putSpan slot n tier src copied = some u) : SameHampers s u := by
  unfold State.putSpan at h
  dsimp only at h
  generalize (List.range (s.layers (s.dir slot).model)).flatMap _ = blocks at h
  have hsides : SameHampers s (blocks.foldl (fun s b => s.setSide slot n b.1 b.2.2) s) :=
    SameHampers.foldl (fun s b => SameHampers.setSide s slot n b.1 b.2.2) blocks s
  generalize blocks.foldl (fun s b => s.setSide slot n b.1 b.2.2) s = v at h hsides
  generalize hw : (if copied = true then _ else v : State) = w at h
  have hcounted : SameHampers v w := by
    rw [← hw]
    split
    · exact SameHampers.trans (SameHampers.of_eq (u := v.bumpBy _ _) rfl rfl rfl) (SameHampers.countPool _ _ _ _)
    · exact SameHampers.refl v
  refine (hsides.trans hcounted).trans ?_
  split at h
  · split at h
    · cases h
    · next y hy =>
      cases h
      exact ((SameHampers.mapRun hy).trans (SameHampers.foldl (fun s b => SameHampers.setHomes s _ _) blocks y)).trans
        (SameHampers.editSpan _ _ _ _)
  · cases h
    exact SameHampers.editSpan _ _ _ _

theorem SameHampers.spanShareOne {s u : State} {it : Item} {id slot n : Nat}
    (h : spanShareOne it id slot n s = .ended .moved u) : SameHampers s u := by
  unfold Machine.spanShareOne at h
  dsimp only at h
  split_ifs at h
  all_goals cases h
  exact ((SameHampers.foldl (fun s b => SameHampers.setSide s slot n b _) _ s).trans (SameHampers.setSpan _ _ _ _)).trans
    ((SameHampers.editSpan _ _ _ _).trans (SameHampers.bump _ _))

theorem SameHampers.restoreSpan {s u : State} {slot n : Nat} {tier : Tier} {owners : List (Word × Word)} {src : List HeadSrc}
    (h : s.restoreSpan slot n tier owners src = some u) : SameHampers s u := by
  unfold State.restoreSpan at h
  dsimp only at h
  split at h
  · cases h
    exact SameHampers.refl s
  · split at h
    · split at h
      · exact SameHampers.putSpan h
      · split at h
        · next hshare =>
          cases h
          exact (SameHampers.spanShareOne hshare).trans (SameHampers.setSpan _ _ _ _)
        · exact SameHampers.putSpan h
    · exact SameHampers.putSpan h

theorem SameHampers.restoreSpans {slot : Nat} {tier : Tier} {owners : List (Word × Word)} {srcs : Nat → List HeadSrc} {ns : List Nat}
    {s u : State} (h : restoreSpans slot tier owners srcs ns s = some u) : SameHampers s u := by
  induction ns generalizing s with
  | nil =>
    cases h
    exact SameHampers.refl _
  | cons n ns ih =>
    unfold Machine.restoreSpans at h
    split at h
    · cases h
    · next v hv => exact (SameHampers.restoreSpan hv).trans (ih h)

/-! ### The share that is built -/

/-- A share stands in its slot under its handle, RESTORING, with the ORIGIN of its item; no other entry and no snapshot changes. -/
structure Built (s u : State) (slot : Nat) (k : HKind) (w o : Word) : Prop where
  otherDirs : OtherDirs s u slot
  gen : (u.dir slot).gen = hGen w
  state : (u.dir slot).state = .restoring
  kind : (u.dir slot).kind = k
  origin : (u.hdr slot).origin = o
  snp : u.snp = s.snp

theorem Installed.built {s c v u : State} {slot len : Nat} {k : HKind} {w o : Word} (hc : SameHampers s c)
    (h : Installed c v slot len k .restoring w o) (hu : SameHampers v u) : Built s u slot k w o := by
  have hdir (n : Nat) : u.dir n = v.dir n := State.dir_congr hu.dir n
  refine ⟨fun n hn => (hdir n).trans ((h.otherDirs n hn).trans (State.dir_congr hc.dir n)), ?_, ?_, ?_,
    (hu.origin slot).trans h.origin, hu.snp.trans (h.snp.trans hc.snp)⟩
  · rw [hdir, h.gen]
  · rw [hdir, h.state]
  · rw [hdir, h.kind]

theorem State.buildShare_built {s u : State} {it : Item} {owners : List (Word × Word)} {shards : Option (List ShardView)} {k : HKind}
    {w : Word} (h : s.buildShare it owners shards k w = .ok u) : Built s u (restSlot it) k w it.w3 := by
  unfold State.buildShare at h
  dsimp only at h
  split at h
  · cases h
  · generalize hcount : s.countPool .pool false _ = c at h
    have hc : SameHampers s c := by
      rw [← hcount]
      exact SameHampers.countPool _ _ _ _
    split at h
    · cases h
    · split at h
      · cases h
      · next v hv =>
        split at h
        · cases h
        · next y hy =>
          cases h
          refine Installed.built hc (State.install_installed hv) (SameHampers.trans ?_ (SameHampers.restoreSpans hy))
          split
          · refine SameHampers.trans (SameHampers.setHdr v ?_) (SameHampers.writeLog _ _ _ _)
            rfl
          · exact SameHampers.setHdr v rfl

theorem State.cairnCode_lt (s : State) (shards : Option (List ShardView)) (o : Word) (m : Nat) : s.cairnCode shards o m < 8192 := by
  unfold State.cairnCode
  split
  · decide
  · split
    · decide
    · split
      · decide
      · dsimp only
        split_ifs <;> decide

/-- A failure to build ends with a code that fits the field of a completion. -/
theorem State.buildShare_error_lt {s : State} {it : Item} {owners : List (Word × Word)} {shards : Option (List ShardView)} {k : HKind}
    {w : Word} {code : Nat} (h : s.buildShare it owners shards k w = .error code) : code < 8192 := by
  have hcairn := s.cairnCode_lt shards it.w3 (restModel it)
  unfold State.buildShare at h
  dsimp only at h
  split at h
  · exact Except.error.inj h ▸ hcairn
  · split at h
    · exact Except.error.inj h ▸ (by decide : Code.snapLost < 8192)
    · split at h
      · exact Except.error.inj h ▸ (by decide : Code.destFull < 8192)
      · split at h
        · exact Except.error.inj h ▸ (by decide : Code.destFull < 8192)
        · cases h

end Sys2Proof.Machine
end

section
/-! ### Restores from a cairn (R106, R126, R130, R134, R523 to R525) -/

namespace Sys2Proof.Machine

open Sys2Proof

/-! ### What the pool shows, and the slot's next generation -/

theorem State.seePool_keeps (s : State) (v : PoolSeen) : ∃ m, s.seePool v = { s with mem := m } := by
  unfold State.seePool
  generalize v.cells = cs
  induction cs generalizing s with
  | nil => exact ⟨_, rfl⟩
  | cons c cs ih =>
    obtain ⟨m, hm⟩ := ih (s.setByte (poolAddr (c.1 % 2 ^ 64)) c.2)
    exact ⟨m, hm⟩

theorem State.dir_advanceGen (s : State) (slot n : Nat) : (s.advanceGen slot).dir n =
    if n = slot then { s.dir slot with gen := nextGen (s.dir slot).gen } else s.dir n := State.dir_setDir _ _ _ _

/-- The handle under the next generation names that generation. -/
theorem State.hGen_newHandle_advanceGen (s : State) (slot : Nat) :
    hGen ((s.advanceGen slot).newHandle slot) = nextGen (s.dir slot).gen := by
  rw [State.newHandle, hGen_mkHandle, State.dir_advanceGen, if_pos rfl, if_neg (nextGen_ne_zero _)]

/-! ### Codes -/

theorem State.homeCode_lt (s : State) (w : Word) : s.homeCode w < 8192 := by
  unfold State.homeCode State.handleCode
  dsimp only
  split_ifs <;> decide

theorem State.restoreCode_lt (s : State) (it : Item) : s.restoreCode it < 8192 := by
  have hhome := s.homeCode_lt it.w0
  unfold State.restoreCode
  dsimp only
  split_ifs
  · decide
  · exact hhome
  all_goals decide

/-! ### The start of a restore (R524) -/

/-- The module has taken the slot under its next generation and sent the other modules the item. -/
def State.restSent (s : State) (it : Item) : State :=
  let w := s.advanceGen (restSlot it)
  w.sendAll 5 (.words 6 { it with w0 := w.newHandle (restSlot it) }.words)

theorem State.restSent_keeps (s : State) (it : Item) :
    (∀ n, (s.restSent it).dir n = (s.advanceGen (restSlot it)).dir n) ∧ (s.restSent it).snp = s.snp ∧
      (s.restSent it).host = s.host ∧ (s.restSent it).plat = s.plat ∧ s.out <+: (s.restSent it).out := by
  have hkept : (s.restSent it).hmp = (s.advanceGen (restSlot it)).hmp ∧ (s.restSent it).snp = (s.advanceGen (restSlot it)).snp ∧
      (s.restSent it).host = (s.advanceGen (restSlot it)).host ∧ (s.restSent it).plat = (s.advanceGen (restSlot it)).plat := by
    simp [State.restSent]
  obtain ⟨hhmp, hsnp, hhost, hplat⟩ := hkept
  exact ⟨fun n => State.dir_congr (by rw [hhmp]) n, hsnp, hhost, hplat, (s.advanceGen (restSlot it)).out_prefix_sendAll 5 _⟩

/-- The handle of the restored hamper. -/
def restHandle (s : State) (it : Item) : Word := (s.advanceGen (restSlot it)).newHandle (restSlot it)

section start

variable {s : State} {it : Item} (hfree : (s.dir (restSlot it)).state = .free) {owners : List (Word × Word)}
  {shards : Option (List ShardView)} (cmd claim : Option Nat)

include hfree

theorem State.startRestore_error {code : Nat}
    (h : (s.restSent it).buildShare it owners shards .home (restHandle s it) = .error code) :
    s.startRestore it owners shards cmd claim = ((s.restSent it).sendAll 7 (.share (restHandle s it) .free)).restoreReply
      { slot := restSlot it, cmd := cmd, item := it, built := true, claim := claim } code 0 := by
  have hparked : ¬ (s.dir (restSlot it)).state = .parked := by simp [hfree]
  unfold State.restSent restHandle at h
  unfold State.startRestore
  simp only [if_neg hparked]
  dsimp only at h ⊢
  rw [h]
  rfl

theorem State.startRestore_ok {u : State} (h : (s.restSent it).buildShare it owners shards .home (restHandle s it) = .ok u) :
    s.startRestore it owners shards cmd claim = { u.beginChange (restSlot it) .restore cmd with
      snp.restores := u.snp.restores ++ [{ slot := restSlot it, cmd := cmd, item := it, built := true, claim := claim }] } := by
  have hparked : ¬ (s.dir (restSlot it)).state = .parked := by simp [hfree]
  unfold State.restSent restHandle at h
  unfold State.startRestore
  simp only [if_neg hparked]
  dsimp only at h ⊢
  rw [h]
  rfl

end start

/-- The restored share stands in its slot, RESTORING under the next generation and in change, and the restore is listed. -/
theorem State.restoring_facts {s u : State} {it : Item} {owners : List (Word × Word)} {shards : Option (List ShardView)}
    (h : (s.restSent it).buildShare it owners shards .home (restHandle s it) = .ok u) (cmd : Option Nat) (r : Restoring) :
    let t : State := { u.beginChange (restSlot it) .restore cmd with snp.restores := u.snp.restores ++ [r] }
    (t.dir (restSlot it)).state = .restoring ∧ (t.dir (restSlot it)).kind = .home ∧
      (t.dir (restSlot it)).gen = nextGen (s.dir (restSlot it)).gen ∧ t.busy (restSlot it) = true ∧
      (t.hdr (restSlot it)).origin = it.w3 ∧ t.mem = u.mem ∧ t.snp.restores = s.snp.restores ++ [r] := by
  obtain ⟨-, hgen, hstate, hkind, horigin, hsnp⟩ := State.buildShare_built h
  obtain ⟨-, hsent, -⟩ := s.restSent_keeps it
  refine ⟨hstate, hkind, hgen.trans (s.hGen_newHandle_advanceGen _), ?_, horigin, rfl, ?_⟩
  · have hput : SMap.lookup (u.beginChange (restSlot it) .restore cmd).hmp.changes (restSlot it) =
        some { kind := .restore, cmd := cmd, sinceNs := u.now } := SMap.lookup_put_same _ _ _
    unfold State.busy
    dsimp only
    rw [hput]
    rfl
  · exact congrArg (· ++ [r]) (congrArg Snap.restores (hsnp.trans hsent))

/-! ### RESTORE (R523, R524) -/

/-- The item of a RESTORE command. -/
def restoreItemOf (c : HostCmd) : Item :=
  { w0 := c.session, w1 := fld 35 32 5 ||| fld 15 0 c.epoch.toNat, w2 := c.arg 0, w3 := c.arg 1, w4 := c.arg 2, w5 := c.arg 3
    w6 := c.arg 4 }

section command

variable {s : State} {id : Nat} {c : HostCmd} (h : Waits s id 0x15 c) (pool : PoolSeen) (owners : List (Word × Word))

include h

theorem does_restore_refused (hcode : s.restoreCode (restoreItemOf c) ≠ 0) : Does (.restore id (some owners) pool) s fun t =>
    t.hmp = s.hmp ∧ t.snp = s.snp ∧ t.mem = s.mem ∧ Answers s t c (s.restoreCode (restoreItemOf c)) 0 0 := by
  have hsmall := s.restoreCode_lt (restoreItemOf c)
  have hexec : exec (.restore id (some owners) pool) s =
      .next ((s.noteStale (s.restoreCode (restoreItemOf c))).complete c.id (s.restoreCode (restoreItemOf c)) 0 0) := by
    show execRestore id (some owners) pool s = _
    rw [execRestore, h.hostCmd]
    simp only [Option.isNone_some, Bool.and_false, Bool.false_eq_true, if_false]
    exact congrArg Host.Outcome.next (if_pos hcode)
  generalize s.restoreCode (restoreItemOf c) = code at hexec hsmall ⊢
  have hnote : (s.noteStale code).host = s.host ∧ (s.noteStale code).plat = s.plat ∧ (s.noteStale code).out = s.out := by simp
  obtain ⟨hhost, hplat, hout⟩ := hnote
  exact ⟨_, hexec, by simp, by simp, by simp,
    (h.is_open.underway.congr hhost hplat (hout ▸ List.prefix_refl _)).answers hsmall 0 0⟩

variable (hcode : s.restoreCode (restoreItemOf c) = 0)

include hcode

theorem exec_restore : exec (.restore id (some owners) pool) s = .next (((s.seePool pool).began c.id).startRestore (restoreItemOf c)
    (owners.take (bits (restoreItemOf c).w6 63 48)) ((s.seePool pool).readCairn (restoreItemOf c).w2 pool) (some c.id) none) := by
  show execRestore id (some owners) pool s = _
  rw [execRestore, h.hostCmd]
  simp only [Option.isNone_some, Bool.and_false, Bool.false_eq_true, if_false]
  exact congrArg Host.Outcome.next (if_neg (not_not.2 hcode))

variable (hfree : (s.dir (restSlot (restoreItemOf c))).state = .free)

include hfree

theorem does_restore_failed {code : Nat} (hbuild : (((s.seePool pool).began id).restSent (restoreItemOf c)).buildShare
      (restoreItemOf c) (owners.take (bits (restoreItemOf c).w6 63 48)) ((s.seePool pool).readCairn (restoreItemOf c).w2 pool) .home
      (restHandle ((s.seePool pool).began id) (restoreItemOf c)) = .error code) :
    Does (.restore id (some owners) pool) s fun t => (t.dir (restSlot (restoreItemOf c))).state = .free ∧
      (t.dir (restSlot (restoreItemOf c))).gen = nextGen (s.dir (restSlot (restoreItemOf c))).gen ∧ t.snp = s.snp ∧
      Answers s t c code 0 0 := by
  have hid := h.id_eq
  subst hid
  have hexec := exec_restore h pool owners hcode
  generalize restoreItemOf c = it at hexec hbuild hfree ⊢
  obtain ⟨m, hm⟩ := s.seePool_keeps pool
  rw [hm] at hbuild hexec
  let b : State := ({ s with mem := m } : State).began c.id
  let y : State := (b.restSent it).sendAll 7 (.share (restHandle b it) .free)
  have hunder : Underway s b c := (h.is_open.underway.congr (v := { s with mem := m }) rfl rfl (List.prefix_refl _)).began
  obtain ⟨hdir, hsnp, hhost, hplat, hout⟩ := b.restSent_keeps it
  have hy : y.hmp = (b.restSent it).hmp ∧ y.snp = (b.restSent it).snp ∧ y.host = (b.restSent it).host ∧
      y.plat = (b.restSent it).plat := by simp [y]
  obtain ⟨hyhmp, hysnp, hyhost, hyplat⟩ := hy
  have hyunder : Underway s y c := hunder.congr (hyhost.trans hhost) (hyplat.trans hplat) (hout.trans (State.out_prefix_sendAll _ _ _))
  have hydir : (y.complete c.id code 0 0).dir (restSlot it) =
      { s.dir (restSlot it) with gen := nextGen (s.dir (restSlot it)).gen } := by
    rw [State.dir_congr (s := y) (by simp), State.dir_congr (congrArg Hmp.dir hyhmp), hdir, State.dir_advanceGen, if_pos rfl]
    rfl
  rw [State.startRestore_error (s := b) hfree (some c.id) none hbuild] at hexec
  refine ⟨y.complete c.id code 0 0, hexec, ?_, ?_, ?_, hyunder.answers (State.buildShare_error_lt hbuild) 0 0⟩
  · rw [hydir]
    exact hfree
  · rw [hydir]
  · have hcomplete : (y.complete c.id code 0 0).snp = y.snp := by simp
    exact hcomplete.trans (hysnp.trans hsnp)

theorem does_restore_restoring {u : State} (hbuild : (((s.seePool pool).began id).restSent (restoreItemOf c)).buildShare
      (restoreItemOf c) (owners.take (bits (restoreItemOf c).w6 63 48)) ((s.seePool pool).readCairn (restoreItemOf c).w2 pool) .home
      (restHandle ((s.seePool pool).began id) (restoreItemOf c)) = .ok u) :
    Does (.restore id (some owners) pool) s fun t => (t.dir (restSlot (restoreItemOf c))).state = .restoring ∧
      (t.dir (restSlot (restoreItemOf c))).kind = .home ∧
      (t.dir (restSlot (restoreItemOf c))).gen = nextGen (s.dir (restSlot (restoreItemOf c))).gen ∧
      t.busy (restSlot (restoreItemOf c)) = true ∧ (t.hdr (restSlot (restoreItemOf c))).origin = (restoreItemOf c).w3 ∧
      t.mem = u.mem ∧ t.snp.restores = s.snp.restores ++
        [{ slot := restSlot (restoreItemOf c), cmd := some id, item := restoreItemOf c, built := true, claim := none }] := by
  have hid := h.id_eq
  subst hid
  have hexec := exec_restore h pool owners hcode
  generalize restoreItemOf c = it at hexec hbuild hfree ⊢
  obtain ⟨m, hm⟩ := s.seePool_keeps pool
  rw [hm] at hbuild hexec
  rw [State.startRestore_ok (s := ({ s with mem := m } : State).began c.id) hfree (some c.id) none hbuild] at hexec
  exact ⟨_, hexec, State.restoring_facts hbuild (some c.id) _⟩

end command

/-! ### A shard of a restore -/

/-- The module tells the home how the build of its shard ended. -/
def State.tellBuilt (s : State) (w : Word) : Except Nat State → State
  | .error code => s.shareDone w code
  | .ok u => u.shareDone w 0

section item

variable {s : State} (hl : s.live = true) {i : Item}
  (hout : restSlot i < s.field Reg.hmpDirRange 21 0 ∨ s.field Reg.hmpDirRange 53 32 < restSlot i)
  (hfree : (s.dir (restSlot i)).state = .free) (owners : List (Word × Word)) (pool : PoolSeen)

include hl hout hfree

theorem exec_restoreItem : exec (.restoreItem i owners pool) s =
    .next ((s.seePool pool).tellBuilt i.w0 ((s.seePool pool).buildShare i (owners.take (bits i.w6 63 48))
      ((s.seePool pool).readCairn i.w2 pool) .shard i.w0)) := by
  obtain ⟨m, hm⟩ := s.seePool_keeps pool
  have hrange : (decide ((s.seePool pool).field Reg.hmpDirRange 21 0 ≤ restSlot i) &&
      decide (restSlot i ≤ (s.seePool pool).field Reg.hmpDirRange 53 32)) = false := by
    have hfield (hi lo : Nat) : (s.seePool pool).field Reg.hmpDirRange hi lo = s.field Reg.hmpDirRange hi lo := by rw [hm]; rfl
    rw [hfield, hfield]
    rcases hout with hlt | hlt <;> simp [Nat.not_le.2 hlt]
  have hstate : ((s.seePool pool).dir (restSlot i)).state = .free := by
    rw [hm]
    exact hfree
  show execRestoreItem i owners pool s = _
  rw [execRestoreItem, gate_live hl]
  simp only [hrange, hstate, Bool.false_eq_true, if_false, if_true]
  rfl

theorem does_restoreItem_restoring {u : State} (hbuild : (s.seePool pool).buildShare i (owners.take (bits i.w6 63 48))
      ((s.seePool pool).readCairn i.w2 pool) .shard i.w0 = .ok u) : Does (.restoreItem i owners pool) s fun t =>
    (t.dir (restSlot i)).state = .restoring ∧ (t.dir (restSlot i)).kind = .shard ∧ (t.dir (restSlot i)).gen = hGen i.w0 ∧
      t.snp = s.snp ∧ t.mem = u.mem ∧ Out.toModule (hModule i.w0) 7 (.shareDone i.w0 0) ∈ t.out := by
  have hexec := exec_restoreItem hl hout hfree owners pool
  rw [hbuild, State.tellBuilt] at hexec
  obtain ⟨m, hm⟩ := s.seePool_keeps pool
  obtain ⟨-, hgen, hstate, hkind, -, hsnp⟩ := State.buildShare_built hbuild
  have hdone : (u.shareDone i.w0 0).snp = u.snp ∧ (u.shareDone i.w0 0).mem = u.mem := by simp [State.shareDone]
  obtain ⟨hdsnp, hdmem⟩ := hdone
  refine ⟨_, hexec, ?_, ?_, ?_, ?_, hdmem, State.mem_out_send _ _ _ _⟩
  · rw [State.dir_shareDone, hstate]
  · rw [State.dir_shareDone, hkind]
  · rw [State.dir_shareDone, hgen]
  · rw [hdsnp, hsnp, hm]

theorem does_restoreItem_failed {code : Nat} (hbuild : (s.seePool pool).buildShare i (owners.take (bits i.w6 63 48))
      ((s.seePool pool).readCairn i.w2 pool) .shard i.w0 = .error code) : Does (.restoreItem i owners pool) s fun t =>
    t.hmp = s.hmp ∧ t.snp = s.snp ∧ Out.toModule (hModule i.w0) 7 (.shareDone i.w0 code) ∈ t.out := by
  have hexec := exec_restoreItem hl hout hfree owners pool
  rw [hbuild, State.tellBuilt] at hexec
  obtain ⟨m, hm⟩ := s.seePool_keeps pool
  have hdone : ((s.seePool pool).shareDone i.w0 code).hmp = (s.seePool pool).hmp ∧
      ((s.seePool pool).shareDone i.w0 code).snp = (s.seePool pool).snp := by simp [State.shareDone]
  obtain ⟨hhmp, hsnp⟩ := hdone
  refine ⟨_, hexec, ?_, ?_, State.mem_out_send _ _ _ _⟩
  · rw [hhmp, hm]
  · rw [hsnp, hm]

end item

/-! ### The end of a restore (R524, R525) -/

/-- The restore is no longer listed, and its hamper no longer in change. -/
def State.unlisted (s : State) (slot : Nat) : State := { s.endChange slot with snp.restores := [] }

/-- The restored hamper is PARKED. -/
def State.restParked (s : State) (slot : Nat) (h : Header) : State :=
  ((s.setHdr slot h).setHState slot .parked).bump (Reg.tsmCnt 14)

/-- The header of a restored hamper that is PARKED now. -/
def State.restHdr (s : State) (slot : Nat) : Header := { s.hdr slot with parkedNs := s.now }

theorem State.dir_restParked (s : State) (slot : Nat) (h : Header) (n : Nat) : (s.restParked slot h).dir n =
    if n = slot then { s.dir slot with state := .parked, lastNs := s.now } else s.dir n := State.dir_of_set rfl n

theorem State.hdr_restParked (s : State) (slot : Nat) (h : Header) : (s.restParked slot h).hdr slot = h :=
  (State.hdr_of_set (s := s) rfl slot).trans (if_pos rfl)

theorem State.reg_restParked (s : State) (slot : Nat) (h : Header) :
    (s.restParked slot h).reg (Reg.tsmCnt 14) = s.reg (Reg.tsmCnt 14) + 1 := State.reg_of_bump (s := s) rfl

theorem State.reg_restParked_other (s : State) (slot : Nat) (h : Header) {k : Nat} (hk : k ≠ Reg.tsmCnt 14) :
    (s.restParked slot h).reg k = s.reg k :=
  (State.reg_of_regs (t := s.restParked slot h) (s := s.bump (Reg.tsmCnt 14)) rfl k).trans (State.reg_bump_other s _ k hk)

theorem State.restParked_keeps (s : State) (slot : Nat) (h : Header) : (s.restParked slot h).mem = s.mem ∧
    (s.restParked slot h).snp = s.snp ∧ (s.restParked slot h).host = s.host ∧ (s.restParked slot h).plat = s.plat ∧
    (s.restParked slot h).out = s.out ∧ (s.restParked slot h).comp = s.comp ∧ (s.restParked slot h).now = s.now ∧
    (s.restParked slot h).fab = s.fab ∧ (s.restParked slot h).fw = s.fw ∧ (s.restParked slot h).tsm = s.tsm ∧
    (s.restParked slot h).hmp.dirLog = s.hmp.dirLog := ⟨rfl, rfl, rfl, rfl, rfl, rfl, rfl, rfl, rfl, rfl, rfl⟩

theorem State.sameTables_restParked (s : State) {slot : Nat} {h : Header} (hplaced : placed h = placed (s.hdr slot)) :
    SameTables s (s.restParked slot h) where
  tsm := rfl
  dirBase := rfl
  headerBase := rfl
  headers := fun x hx => by
    have hset : x ∈ SMap.set {} s.hmp.hdr slot h := hx
    unfold SMap.set at hset
    split at hset
    · exact .inl (SMap.mem_erase.1 hset).1
    · rcases SMap.mem_put.1 hset with rfl | ⟨hmem, -⟩
      · exact .inr hplaced
      · exact .inl hmem
  model := fun n => by
    rw [State.dir_restParked]
    split
    · next hn => rw [hn]
    · rfl
  regs := fun k hk => State.reg_restParked_other s slot h (by rcases hk with rfl | hk <;> simp only [Reg.tsmCnt] <;> omega)

theorem State.Alone.restParked {s : State} {slot : Nat} (halone : s.Alone slot) {h : Header} (hplaced : placed h = placed (s.hdr slot))
    (hgram : h.gram = (s.hdr slot).gram) : (s.restParked slot h).Alone slot :=
  halone.of_sameTables (s.sameTables_restParked hplaced) rfl (by rw [State.hdr_restParked, hgram])

/-! ### The directory of the pool is the same for both -/

theorem State.dirCode_congr {s t : State} (hlog : t.hmp.dirLog = s.hmp.dirLog) (hcomp : t.comp = s.comp)
    (hreg : t.reg Reg.hmpCustody = s.reg Reg.hmpCustody) : t.dirPool = s.dirPool ∧ t.dirCode = s.dirCode := by
  have hpool : t.dirPool = s.dirPool := by rw [State.dirPool, State.dirPool, State.field, State.field, hreg]
  refine ⟨hpool, ?_⟩
  unfold State.dirCode State.seg
  rw [hlog, hpool, hcomp]

theorem State.dirCode_lt (s : State) : s.dirCode < 8192 := by
  unfold State.dirCode
  split
  · decide
  · split <;> decide

theorem State.findRec_congr {s t : State} (hlog : t.hmp.dirLog = s.hmp.dirLog) (hmem : t.mem = s.mem)
    (hpool : t.dirPool = s.dirPool) (o : Word) : t.findRec o = s.findRec o := by
  have hprobe (fuel i : Nat) : t.probe o fuel i = s.probe o fuel i := by
    induction fuel generalizing i with
    | zero => rfl
    | succ n ih =>
      unfold State.probe
      simp only [hpool, hlog, State.rec_of_mem hmem, ih]
  unfold State.findRec State.recHash
  rw [hlog, hprobe]

theorem State.recCode_congr {s t : State} (hcomp : t.comp = s.comp) (hfab : t.fab = s.fab)
    (hreg : ∀ k, t.reg (Reg.fabPort k) = s.reg (Reg.fabPort k)) (a : Word) : t.recCode a = s.recCode a := by
  have hseg (n : Nat) : t.seg n = s.seg n := by rw [State.seg, State.seg, hcomp]
  have hports (n : Nat) : t.segPorts n = s.segPorts n := by simp only [State.segPorts, hseg, hreg]
  have hport (n p : Nat) : t.segPort n p = s.segPort n p := by
    unfold State.segPort State.segChoice
    rw [hfab, hports]
  unfold State.recCode State.casCode State.fabIn
  simp only [hseg, hport]

/-! ### RESTORE_COMPLETE -/

/-- The restore is no longer listed and its hamper is PARKED: the record of its ORIGIN is looked for in this state. -/
def State.settling (s : State) (slot : Nat) : State := (s.unlisted slot).restParked slot (s.restHdr slot)

theorem State.settling_keeps (s : State) (slot : Nat) : (s.settling slot).mem = s.mem ∧ (s.settling slot).host = s.host ∧
    (s.settling slot).plat = s.plat ∧ (s.settling slot).out = s.out ∧ (s.settling slot).comp = s.comp ∧
    (s.settling slot).now = s.now ∧ (s.settling slot).fab = s.fab ∧ (s.settling slot).snp.restores = [] ∧
    (s.settling slot).dirCode = s.dirCode ∧ (s.settling slot).dirPool = s.dirPool ∧
    (s.settling slot).hmp.dirLog = s.hmp.dirLog := by
  obtain ⟨hmem, hsnp, hhost, hplat, hout, hcomp, hnow, hfab, -, -, hlog⟩ := (s.unlisted slot).restParked_keeps slot (s.restHdr slot)
  have hreg : (s.settling slot).reg Reg.hmpCustody = s.reg Reg.hmpCustody :=
    (s.unlisted slot).reg_restParked_other slot (s.restHdr slot) (by decide)
  obtain ⟨hpool, hcode⟩ := State.dirCode_congr (s := s) (t := s.settling slot) hlog hcomp hreg
  exact ⟨hmem, hhost, hplat, hout, hcomp, hnow, hfab, congrArg Snap.restores hsnp, hcode, hpool, hlog⟩

theorem State.dir_settling (s : State) (slot n : Nat) : (s.settling slot).dir n =
    if n = slot then { s.dir slot with state := .parked, lastNs := s.now } else s.dir n := State.dir_restParked _ _ _ _

theorem State.hdr_settling (s : State) (slot : Nat) : (s.settling slot).hdr slot = s.restHdr slot := State.hdr_restParked _ _ _

theorem State.Alone.settling {s : State} {slot : Nat} (h : s.Alone slot) : (s.settling slot).Alone slot :=
  State.Alone.restParked (s := s.unlisted slot) h rfl rfl

theorem Open.settling {s : State} {c : HostCmd} (h : Open s c) (slot : Nat) : Underway s (s.settling slot) c := by
  obtain ⟨-, hhost, hplat, hout, -⟩ := s.settling_keeps slot
  exact h.underway.congr hhost hplat (by rw [hout])


/-- What RESTORE_COMPLETE does once the record has been looked for. -/
def State.restEnd (r : Restoring) (a : Nat × State) : State :=
  let z : State := { a.2 with hmp.empties := a.2.hmp.empties.filter fun e => some e.key ≠ r.claim }
  if a.1 = 0 then z.settleRestore r else z.restoreReply r a.1 0

theorem Underway.freeAll {s u : State} {c : HostCmd} (h : Underway s u c) {slot : Nat} (halone : u.Alone slot) :
    Underway s (u.freeAll slot none 0 0) c := by
  have hfreed := State.freeHamper_freed halone
  obtain ⟨hhost, hout⟩ := (u.freeHamper slot).follow_none_host slot (u.hdr slot).handle .free .free 0 0
  obtain ⟨-, -, hplat, -⟩ := (u.freeHamper slot).follow_keeps slot (u.hdr slot).handle .free .free none 0 0
  exact (hfreed.underway h).congr hhost hplat hout

section settle

variable {s z : State} {c : HostCmd} (h : Underway s z c) (hcomp : z.comp = s.comp) (hnow : z.now = s.now) {r : Restoring}
  (hcmd : r.cmd = some c.id)

include hcmd

theorem State.settleRestore_eq : z.settleRestore r = (z.startTick (decayTick r.slot)).follow r.slot (z.hdr r.slot).handle .park .park
    (some c.id) 0 (z.hdr r.slot).handle := by
  unfold State.settleRestore
  rw [hcmd]

theorem State.settleRestore_keeps : (∀ n, (z.settleRestore r).dir n = z.dir n) ∧ (∀ n, (z.settleRestore r).hdr n = z.hdr n) ∧
    (z.settleRestore r).snp = z.snp ∧ (z.settleRestore r).mem = z.mem ∧
    ∀ k, OffTrail k → (z.settleRestore r).reg k = z.reg k := by
  rw [State.settleRestore_eq hcmd]
  obtain ⟨hmem, hsnp, -⟩ := (z.startTick (decayTick r.slot)).follow_keeps r.slot (z.hdr r.slot).handle .park .park (some c.id) 0
    (z.hdr r.slot).handle
  exact ⟨fun n => State.dir_follow _ _ _ _ _ _ _ _ n, fun n => State.hdr_follow _ _ _ _ _ _ _ _ n, hsnp, hmem,
    fun k hk => State.reg_follow _ _ _ _ _ _ _ _ hk⟩

include h hcomp hnow

theorem Underway.settles : Follows s (z.settleRestore r) r.slot .park c (z.hdr r.slot).handle := by
  rw [State.settleRestore_eq hcmd]
  exact (h.congr (v := z.startTick (decayTick r.slot)) rfl rfl (List.prefix_refl _)).follows hcomp hnow _ _ _ _ _

end settle

section complete

variable {s : State} {r : Restoring} {c : HostCmd} (hr : s.snp.restores = [r]) (hclaim : r.claim = none)

include hr

/-- The restore has failed at another module. -/
theorem exec_restoreComplete_failed (hl : s.live = true) {code : Nat} (h0 : code ≠ 0) (seen : Option PoolRec) :
    exec (.restoreComplete r.slot code seen) s =
      .next (((s.unlisted r.slot).freeAll r.slot none 0 0).restoreReply r code 0) := by
  show execRestoreComplete r.slot code seen s = _
  rw [execRestoreComplete, gate_live hl]
  simp only [hr, List.find?_cons, decide_true, List.filter_cons, List.filter_nil, ne_eq, not_true_eq_false, decide_false,
    Bool.false_eq_true, if_false, h0, not_false_eq_true, if_true]
  rfl

include hclaim

theorem exec_restoreComplete_built (hl : s.live = true) : exec (.restoreComplete r.slot 0 none) s = .next (State.restEnd r
    ((s.settling r.slot).adopt r.slot)) := by
  show execRestoreComplete r.slot 0 none s = _
  rw [execRestoreComplete, gate_live hl]
  simp only [hr, List.find?_cons, decide_true, List.filter_cons, List.filter_nil, ne_eq, not_true_eq_false, decide_false,
    Bool.false_eq_true, if_false, hclaim, Option.isSome_none, Bool.and_false, State.iff_false, State.seeOrigin, State.restEnd]
  rfl

end complete

/-- The hamper's record is its module's own, and its header names it. -/
def State.adopted (s : State) (slot : Nat) (h : Header) : State :=
  let t := s.setHdr slot h
  (t.setDir slot { t.dir slot with tracked := true }).bump (Reg.hmpCnt 4)

theorem State.dir_adopted (s : State) (slot : Nat) (h : Header) (n : Nat) :
    (s.adopted slot h).dir n = if n = slot then { s.dir slot with tracked := true } else s.dir n := State.dir_of_set rfl n

theorem State.hdr_adopted (s : State) (slot : Nat) (h : Header) : (s.adopted slot h).hdr slot = h :=
  (State.hdr_of_set (s := s) rfl slot).trans (if_pos rfl)

theorem State.adopted_keeps (s : State) (slot : Nat) (h : Header) : (s.adopted slot h).mem = s.mem ∧
    (s.adopted slot h).host = s.host ∧ (s.adopted slot h).plat = s.plat ∧ (s.adopted slot h).out = s.out ∧
    (s.adopted slot h).comp = s.comp ∧ (s.adopted slot h).now = s.now := ⟨rfl, rfl, rfl, rfl, rfl, rfl⟩

/-- The record that the module takes over. -/
def State.ownRec (s : State) (slot k : Nat) : PoolRec :=
  { s.rec_ k with custody := (s.rec_ k).custody + 1, holder := .module s.self, current := (s.hdr slot).handle }

/-- The header of a hamper whose record the module takes over. -/
def State.ownHdr (s : State) (slot k : Nat) : Header :=
  { s.hdr slot with
    custody := (s.rec_ k).custody + 1, custodyNs := s.now, recAddr := recAddrOf (k / 2 ^ 32) (k % 2 ^ 32) }

/-- A record that the pool holds becomes the module's own (R126, R130). -/
theorem State.adoptRec_pool {s : State} {slot k p : Nat} (hcode : s.recCode (recAddrOf (k / 2 ^ 32) (k % 2 ^ 32)) = 0)
    (hheld : (s.rec_ k).state = .held) (hpool : (s.rec_ k).holder = .pool p) :
    s.adoptRec slot k (s.rec_ k) = (0, (s.casHit k (s.ownRec slot k)).adopted slot (s.ownHdr slot k)) := by
  have hswap := State.swapRec_hit hcode (old := s.rec_ k) (by simp [sameWord]) (s.ownRec slot k)
  unfold State.ownRec at hswap
  unfold State.adoptRec
  simp only [hcode, hpool, hswap, ne_eq, not_true_eq_false, Bool.not_true, Bool.or_false, Bool.false_eq_true, if_false, if_true]
  rw [if_neg (by simp [hheld])]
  rfl

/-- The state in which the record of the pool is taken over. -/
def State.adoption (s : State) (slot k : Nat) : State := (s.casHit k (s.ownRec slot k)).adopted slot (s.ownHdr slot k)

theorem State.adopt_pool {s : State} {slot k p : Nat} (hpool : s.dirPool ≠ 0xFF) (hdir : s.dirCode = 0)
    (hfound : s.findRec (s.hdr slot).origin = .found k) (hcode : s.recCode (recAddrOf (k / 2 ^ 32) (k % 2 ^ 32)) = 0)
    (hheld : (s.rec_ k).state = .held) (hholder : (s.rec_ k).holder = .pool p) : s.adopt slot = (0, s.adoption slot k) := by
  rw [State.adopt, if_neg hpool, if_neg (not_not.2 hdir), hfound]
  exact State.adoptRec_pool hcode hheld hholder

theorem State.adoption_facts (s : State) (slot k : Nat) : (s.adoption slot k).dir slot = { s.dir slot with tracked := true } ∧
    (s.adoption slot k).hdr slot = s.ownHdr slot k ∧ (s.adoption slot k).rec_ k = keptRec (s.swapped k (s.ownRec slot k)) := by
  obtain ⟨hcas, -⟩ := s.casHit_keeps k (s.ownRec slot k)
  refine ⟨?_, State.hdr_adopted _ _ _, ?_⟩
  · rw [State.adoption, State.dir_adopted, if_pos rfl, State.dir_congr (congrArg Hmp.dir hcas)]
  · rw [State.adoption, State.rec_of_mem (State.adopted_keeps _ _ _).1, State.rec_casHit_same]

theorem State.adoption_keeps (s : State) (slot k : Nat) : (s.adoption slot k).host = s.host ∧ (s.adoption slot k).plat = s.plat ∧
    (s.adoption slot k).out = s.out ∧ (s.adoption slot k).comp = s.comp ∧ (s.adoption slot k).now = s.now := by
  obtain ⟨-, hnow, hcomp, hhost, hplat, hout, -⟩ := s.casHit_keeps k (s.ownRec slot k)
  obtain ⟨-, hhost', hplat', hout', hcomp', hnow'⟩ := (s.casHit k (s.ownRec slot k)).adopted_keeps slot (s.ownHdr slot k)
  exact ⟨hhost'.trans hhost, hplat'.trans hplat, hout'.trans hout, hcomp'.trans hcomp, hnow'.trans hnow⟩

section complete

variable {s : State} {r : Restoring} {c : HostCmd} (hr : s.snp.restores = [r]) (hclaim : r.claim = none) (hcmd : r.cmd = some c.id)
  (hopen : Open s c)

include hr hcmd hopen

theorem does_restoreComplete_failed {code : Nat} (h0 : code ≠ 0) (hsmall : code < 8192) (seen : Option PoolRec)
    (halone : s.Alone r.slot) : Does (.restoreComplete r.slot code seen) s fun t =>
      (t.dir r.slot).state = .free ∧ (t.dir r.slot).gen = nextGen (s.dir r.slot).gen ∧ t.snp.restores = [] ∧
      Answers s t c code 0 0 := by
  have hlone : (s.unlisted r.slot).Alone r.slot := halone
  obtain ⟨hstate, hgen, -, -, hsnp, -⟩ := State.freeAll_freed hlone none 0 0
  have hunder : Underway s (s.unlisted r.slot) c := hopen.underway.congr rfl rfl (List.prefix_refl _)
  have hexec := exec_restoreComplete_failed hr hopen.1 h0 seen
  rw [State.restoreReply, hcmd] at hexec
  refine ⟨_, hexec, ?_, ?_, ?_, (hunder.freeAll hlone).answers hsmall 0 0⟩
  · rw [State.dir_congr (s := (s.unlisted r.slot).freeAll r.slot none 0 0) (by simp), hstate]
  · rw [State.dir_congr (s := (s.unlisted r.slot).freeAll r.slot none 0 0) (by simp), hgen]
    rfl
  · have hkept : (((s.unlisted r.slot).freeAll r.slot none 0 0).complete c.id code 0 0).snp =
        ((s.unlisted r.slot).freeAll r.slot none 0 0).snp := by simp
    exact congrArg Snap.restores (hkept.trans hsnp)

include hclaim

/-- When the adoption succeeds the hamper is PARKED with what it leaves, and its shards follow. -/
theorem does_restoreComplete_settles {y : State} (hadopt : (s.settling r.slot).adopt r.slot = (0, y)) (hunder : Underway s y c)
    (hcomp : y.comp = s.comp) (hnow : y.now = s.now) : Does (.restoreComplete r.slot 0 none) s fun t =>
      (∀ n, t.dir n = y.dir n) ∧ (∀ n, t.hdr n = y.hdr n) ∧ t.snp = y.snp ∧ t.mem = y.mem ∧
      (∀ k, OffTrail k → t.reg k = y.reg k) ∧ Follows s t r.slot .park c (y.hdr r.slot).handle := by
  have hexec := exec_restoreComplete_built hr hclaim hopen.1
  rw [hadopt, State.restEnd,
    if_pos rfl] at hexec
  let z : State := { y with hmp.empties := y.hmp.empties.filter fun e => some e.key ≠ r.claim }
  have hz : Underway s z c := hunder.congr rfl rfl (List.prefix_refl _)
  obtain ⟨hdir, hhdr, hsnp, hmem, hreg⟩ := State.settleRestore_keeps (z := z) hcmd
  exact ⟨z.settleRestore r, hexec, hdir, hhdr, hsnp, hmem, hreg, hz.settles hcomp hnow hcmd⟩

/-- Without a directory the restored hamper stays untracked. -/
theorem does_restoreComplete_untracked (hpool : s.dirPool = 0xFF) : Does (.restoreComplete r.slot 0 none) s fun t =>
    (t.dir r.slot).state = .parked ∧ (t.hdr r.slot).parkedNs = s.now ∧ t.snp.restores = [] ∧
    t.reg (Reg.tsmCnt 14) = s.reg (Reg.tsmCnt 14) + 1 ∧ OtherDirs s t r.slot ∧
    Follows s t r.slot .park c (s.hdr r.slot).handle := by
  obtain ⟨-, -, -, -, hcomp, hnow, -, hrestores, -, hypool, -⟩ := s.settling_keeps r.slot
  have hadopt : (s.settling r.slot).adopt r.slot = (0, s.settling r.slot) := by
    rw [State.adopt, hypool, if_pos hpool]
  obtain ⟨t, hexec, hdir, hhdr, hsnp, -, hreg, hfollows⟩ :=
    does_restoreComplete_settles hr hclaim hcmd hopen hadopt (hopen.settling r.slot) hcomp hnow
  refine ⟨t, hexec, ?_, ?_, ?_, ?_, fun n hn => ?_, ?_⟩
  · rw [hdir, State.dir_settling, if_pos rfl]
  · rw [hhdr, State.hdr_settling]
    rfl
  · rw [hsnp, hrestores]
  · rw [hreg _ (by simp [OffTrail, Reg.tsmCnt])]
    exact State.reg_restParked _ _ _
  · rw [hdir, State.dir_settling, if_neg hn]
  · rw [State.hdr_settling] at hfollows
    exact hfollows

/-- A directory that cannot be used ends the restore. -/
theorem does_restoreComplete_noDirectory (hpool : s.dirPool ≠ 0xFF) (hdir : s.dirCode ≠ 0) (halone : s.Alone r.slot) :
    Does (.restoreComplete r.slot 0 none) s fun t =>
      (t.dir r.slot).state = .free ∧ t.snp.restores = [] ∧ Answers s t c s.dirCode 0 0 := by
  obtain ⟨-, -, -, -, -, -, -, hrestores, hycode, hypool, -⟩ := s.settling_keeps r.slot
  have hlone : (s.settling r.slot).Alone r.slot := halone.settling
  have hadopt : (s.settling r.slot).adopt r.slot = (s.dirCode, (s.settling r.slot).freeAll r.slot none 0 0) := by
    rw [State.adopt, hypool, hycode, if_neg hpool, if_pos hdir]
  obtain ⟨hfree, -, -, -, hsnp, -⟩ := State.freeAll_freed hlone none 0 0
  have hfreed := (hopen.settling r.slot).freeAll hlone
  have hexec := exec_restoreComplete_built hr hclaim hopen.1
  rw [hadopt, State.restEnd,
    if_neg hdir, State.restoreReply, hcmd] at hexec
  generalize (s.settling r.slot).freeAll r.slot none 0 0 = y at hexec hfree hsnp hfreed
  let z : State := { y with hmp.empties := y.hmp.empties.filter fun e => some e.key ≠ r.claim }
  have hz : Underway s z c := hfreed.congr rfl rfl (List.prefix_refl _)
  have hkept : (z.complete c.id s.dirCode 0 0).hmp = z.hmp ∧ (z.complete c.id s.dirCode 0 0).snp = z.snp := by simp
  obtain ⟨hzhmp, hzsnp⟩ := hkept
  refine ⟨z.complete c.id s.dirCode 0 0, hexec, ?_, ?_, hz.answers s.dirCode_lt 0 0⟩
  · rw [State.dir_congr (s := y) (by rw [hzhmp]), hfree]
  · rw [hzsnp]
    exact (congrArg Snap.restores hsnp).trans hrestores

/-- A record that the pool holds becomes this module's, and names the restored hamper. -/
theorem does_restoreComplete_adopted {k p : Nat} (hpool : s.dirPool ≠ 0xFF) (hdir : s.dirCode = 0) (hself : s.self < 1024)
    (hfound : s.findRec (s.hdr r.slot).origin = .found k)
    (hrec : s.recCode (recAddrOf (k / 2 ^ 32) (k % 2 ^ 32)) = 0) (hheld : (s.rec_ k).state = .held)
    (hholder : (s.rec_ k).holder = .pool p) : Does (.restoreComplete r.slot 0 none) s fun t =>
      (t.dir r.slot).state = .parked ∧ (t.dir r.slot).tracked = true ∧ (t.rec_ k).holder = .module s.self ∧
      (t.rec_ k).custody = (s.rec_ k).custody + 1 ∧ (t.hdr r.slot).custody = (s.rec_ k).custody + 1 ∧
      (t.rec_ k).current = (s.hdr r.slot).handle ∧ Follows s t r.slot .park c (s.hdr r.slot).handle := by
  obtain ⟨hmem, hhost, hplat, hout, hcomp, hnow, hfab, -, hycode, hypool, hylog⟩ := s.settling_keeps r.slot
  have hyhdr := s.hdr_settling r.slot
  have hports (j : Nat) : (s.settling r.slot).reg (Reg.fabPort j) = s.reg (Reg.fabPort j) :=
    (s.unlisted r.slot).reg_restParked_other r.slot (s.restHdr r.slot) (by simp only [Reg.fabPort, Reg.tsmCnt]; omega)
  have hyrec : (s.settling r.slot).rec_ k = s.rec_ k := State.rec_of_mem hmem k
  have hyfound : (s.settling r.slot).findRec ((s.settling r.slot).hdr r.slot).origin = .found k := by
    rw [State.findRec_congr hylog hmem hypool, hyhdr]
    exact hfound
  have hadopt := State.adopt_pool (s := s.settling r.slot) (by rw [hypool]; exact hpool) (by rw [hycode]; exact hdir) hyfound
    (by rw [State.recCode_congr hcomp hfab hports]; exact hrec) (by rw [hyrec]; exact hheld) (by rw [hyrec]; exact hholder)
  obtain ⟨hzhost, hzplat, hzout, hzcomp, hznow⟩ := (s.settling r.slot).adoption_keeps r.slot k
  obtain ⟨hzdir, hzhdr, hzrec⟩ := (s.settling r.slot).adoption_facts r.slot k
  have hunder : Underway s ((s.settling r.slot).adoption r.slot k) c :=
    hopen.underway.congr (hzhost.trans hhost) (hzplat.trans hplat) (by rw [hzout, hout])
  obtain ⟨t, hexec, htdir, hthdr, -, htmem, -, hfollows⟩ := does_restoreComplete_settles hr hclaim hcmd hopen hadopt hunder
    (hzcomp.trans hcomp) (hznow.trans hnow)
  have hown : t.dir r.slot = { s.dir r.slot with state := .parked, lastNs := s.now, tracked := true } := by
    rw [htdir, hzdir, State.dir_settling, if_pos rfl]
  have hnew : t.rec_ k = keptRec { s.rec_ k with
      custody := (s.rec_ k).custody + 1, holder := .module s.self, current := (s.hdr r.slot).handle, changeNs := s.now } := by
    rw [State.rec_of_mem htmem, hzrec, State.swapped, State.ownRec, hyrec, hyhdr, State.self, hcomp, hnow]
    rfl
  have hhandle : (((s.settling r.slot).adoption r.slot k).hdr r.slot).handle = (s.hdr r.slot).handle := by
    rw [hzhdr, State.ownHdr, hyhdr]
    rfl
  refine ⟨t, hexec, by rw [hown], by rw [hown], ?_, by rw [hnew]; rfl, ?_, by rw [hnew]; rfl, hhandle ▸ hfollows⟩
  · rw [hnew]
    exact holder_ofCode_module hself
  · rw [hthdr, hzhdr, State.ownHdr, hyrec]

end complete

/-! ### Empty claims (R134) -/

/-- The cairn of an empty claim is restored under this item. -/
def State.claimItem (s : State) (e : EmptyClaim) (pool : PoolSeen) (slot : Nat) : Item :=
  let r := s.rec_ e.key
  let shards := (s.seePool pool).readCairn r.cairn pool
  let model := ((homeView (shards.getD []) r.origin).map fun x => x.2.model).getD 0
  { w1 := fld 35 32 5, w2 := r.cairn, w3 := r.origin
    w4 := fld 63 60 model ||| fld 59 56 1 ||| fld 55 52 r.tclass ||| fld 21 0 slot }

theorem State.restSlot_claimItem (s : State) (e : EmptyClaim) (pool : PoolSeen) {slot : Nat} (h : slot < 4194304) :
    restSlot (s.claimItem e pool slot) = slot := by
  simp [restSlot, State.claimItem, bits_or, bits_fld_same, bits_fld_other, Nat.mod_eq_of_lt h]

/-- What the pool shows bears on none of the checks of an empty claim. -/
theorem State.claim_keeps (s : State) (e : EmptyClaim) (pool : PoolSeen) :
    (s.seePool pool).recCode (recAddrOf (e.key / 2 ^ 32) (e.key % 2 ^ 32)) =
        s.recCode (recAddrOf (e.key / 2 ^ 32) (e.key % 2 ^ 32)) ∧
      (s.seePool pool).self = s.self ∧ (s.seePool pool).hmp.empties = s.hmp.empties := by
  obtain ⟨m, hm⟩ := s.seePool_keeps pool
  rw [hm]
  exact ⟨rfl, rfl, rfl⟩

/-- An empty claim with a cairn starts its restore. -/
theorem State.restoreClaim_cairn {s : State} {e : EmptyClaim} {pool : PoolSeen} {slot : Nat}
    (hcode : (s.seePool pool).recCode (recAddrOf (e.key / 2 ^ 32) (e.key % 2 ^ 32)) = 0) (hheld : (s.rec_ e.key).state = .held)
    (hholder : (s.rec_ e.key).holder = .module (s.seePool pool).self) (hcairn : (s.rec_ e.key).cairn ≠ 0)
    (hslot : (s.seePool pool).freeSlot = some slot) : s.restoreClaim e pool = (s.seePool pool).startRestore (s.claimItem e pool slot) []
      ((s.seePool pool).readCairn (s.rec_ e.key).cairn pool) none (some e.key) := by
  rw [State.restoreClaim]
  simp only [hcode, ne_eq, not_true_eq_false, if_false]
  rw [if_neg (by simp [hheld, hholder]), if_neg hcairn]
  simp only [hslot]
  rfl

section claim

variable {s : State} (hl : s.live = true) {e : EmptyClaim} (he : s.hmp.empties = [e])
  (hdue : e.sinceNs + s.custodyTimeout ≤ s.now) (hnone : s.snp.restores = []) (pool : PoolSeen)

include hl he hdue hnone

theorem exec_emptyClaimRestore :
    exec (.emptyClaimRestore (s.rec_ e.key).origin pool none) s = .next (s.restoreClaim e pool) := by
  show execEmptyClaimRestore _ pool none s = _
  rw [execEmptyClaimRestore, gate_live hl]
  simp [he, Nat.not_lt.2 hdue, hnone, State.seeOrigin]

variable (hrec : s.recCode (recAddrOf (e.key / 2 ^ 32) (e.key % 2 ^ 32)) = 0)

include hrec

theorem does_emptyClaimRestore_dropped (hother : (s.rec_ e.key).holder ≠ .module s.self) :
    Does (.emptyClaimRestore (s.rec_ e.key).origin pool none) s fun t => t = { s.seePool pool with hmp.empties := [] } := by
  obtain ⟨hcode, hself, hempties⟩ := s.claim_keeps e pool
  refine ⟨_, exec_emptyClaimRestore hl he hdue hnone pool, ?_⟩
  rw [State.restoreClaim]
  simp only [hcode, hrec, ne_eq, not_true_eq_false, if_false]
  simp [hself, hother, hempties, he]

theorem does_emptyClaimRestore_restoring {slot : Nat} {u : State} (hheld : (s.rec_ e.key).state = .held)
    (hholder : (s.rec_ e.key).holder = .module s.self) (hcairn : (s.rec_ e.key).cairn ≠ 0)
    (hslot : (s.seePool pool).freeSlot = some slot) (hlt : slot < 4194304) (hfree : (s.dir slot).state = .free)
    (hbuild : let w := (s.seePool pool).advanceGen slot
      (w.sendAll 5 (.words 6 { s.claimItem e pool slot with w0 := w.newHandle slot }.words)).buildShare (s.claimItem e pool slot) []
        ((s.seePool pool).readCairn (s.rec_ e.key).cairn pool) .home (w.newHandle slot) = .ok u) :
    Does (.emptyClaimRestore (s.rec_ e.key).origin pool none) s fun t =>
      (t.dir slot).state = .restoring ∧ ∃ x ∈ t.snp.restores, x.slot = slot ∧ x.claim = some e.key := by
  have hitem := s.restSlot_claimItem e pool hlt
  have hexec := exec_emptyClaimRestore hl he hdue hnone pool
  have hpfree : ((s.seePool pool).dir (restSlot (s.claimItem e pool slot))).state = .free := by
    obtain ⟨m, hm⟩ := s.seePool_keeps pool
    rw [hitem, hm]
    exact hfree
  have hsent : ((s.seePool pool).restSent (s.claimItem e pool slot)).buildShare (s.claimItem e pool slot) []
      ((s.seePool pool).readCairn (s.rec_ e.key).cairn pool) .home (restHandle (s.seePool pool) (s.claimItem e pool slot)) = .ok u := by
    rw [State.restSent, restHandle, hitem]
    exact hbuild
  rw [State.restoreClaim_cairn ((s.claim_keeps e pool).1.trans hrec) hheld (by rw [hholder, (s.claim_keeps e pool).2.1]) hcairn hslot,
    State.startRestore_ok hpfree none (some e.key) hsent] at hexec
  let x : Restoring :=
    { slot := restSlot (s.claimItem e pool slot), cmd := none, item := s.claimItem e pool slot, built := true, claim := some e.key }
  obtain ⟨hstate, -, -, -, -, -, hlisted⟩ := State.restoring_facts hsent none x
  refine ⟨_, hexec, ?_, x, ?_, hitem, rfl⟩
  · exact (congrArg (fun n => (State.dir _ n).state) hitem).symm.trans hstate
  rw [hlisted]
  exact List.mem_append_right _ (List.mem_singleton_self _)

end claim

/-- Settles O42: the command, the shards' items, the completion, and the restore of an empty claim. -/
theorem restores : Obligations.Restores := by
  intro s id c
  refine ⟨fun pool h owners => ⟨fun hcode => does_restore_refused h pool owners hcode, fun hcode hfree =>
      ⟨fun code hbuild => does_restore_failed h pool owners hcode hfree hbuild,
        fun u hbuild => does_restore_restoring h pool owners hcode hfree hbuild⟩⟩, fun hl => ⟨?_, ?_, ?_⟩⟩
  · exact fun i owners pool hout hfree => ⟨fun u hbuild => does_restoreItem_restoring hl hout hfree owners pool hbuild,
      fun code hbuild => does_restoreItem_failed hl hout hfree owners pool hbuild⟩
  · exact fun r hr hcmd hclaim hopen =>
      ⟨fun code seen h0 hsmall halone => does_restoreComplete_failed hr hcmd hopen h0 hsmall seen halone,
        fun hpool => does_restoreComplete_untracked hr hclaim hcmd hopen hpool,
        fun hpool hdir halone => does_restoreComplete_noDirectory hr hclaim hcmd hopen hpool hdir halone,
        fun k p hpool hdir hself hfound hrec hheld hholder =>
          does_restoreComplete_adopted hr hclaim hcmd hopen hpool hdir hself hfound hrec hheld hholder⟩
  · exact fun e pool he hdue hnone hrec => ⟨fun hother => does_emptyClaimRestore_dropped hl he hdue hnone pool hrec hother,
      fun slot u hheld hholder hcairn hslot hlt hfree hbuild =>
        does_emptyClaimRestore_restoring hl he hdue hnone pool hrec hheld hholder hcairn hslot hlt hfree hbuild⟩

end Sys2Proof.Machine
end

section
/-! ### Moves of spans and deferred reclamation (R162, R163, R171, R180) -/

namespace Sys2Proof.Machine

open Sys2Proof

/-! ### Span requests of one span -/

section oneSpan

variable {s : State} {it : Item} {op slot n : Nat} (h : OneSpan s it op slot n)

include h

/-- The request is worked at once, for the queue and tally its item names. -/
theorem OneSpan.spanGate (f : Origin → State → State) : spanGate op it s f = .next (f (spanOrigin it) (s.begin_ 6 it)) := by
  obtain ⟨hl, hop, -, -, -, -, hepoch, hasks, -⟩ := h
  have hnone : s.kvs.asks.find? (fun a => a.item = it) = none := by simpa using hasks
  have htake : (s.begin_ 6 it).takeAsk it = (spanOrigin it, s.begin_ 6 it) := by
    simp only [State.takeAsk, State.begin__frame, hnone]
  rw [Machine.spanGate, gate_live hl]
  dsimp only
  rw [htake, if_pos hop, State.byMap_of_current (s := s.begin_ 6 it) hepoch]

theorem OneSpan.spanList_eq : spanList it = [n] := by
  obtain ⟨-, -, -, hcount, -, hn, -⟩ := h
  rw [spanList, hcount, hn]
  rfl

end oneSpan

/-! ### PARK and FETCH (R162, R163) -/

/-- A span with an entry of its own rests on the span table alone. -/
theorem State.span_of_spans {s t : State} (hspans : t.kvs.spans = s.kvs.spans) {slot n : Nat} (hres : (s.span slot n).res ≠ .empty) :
    t.span slot n = s.span slot n := by
  unfold State.span at hres ⊢
  rw [hspans]
  cases hfound : SMap.lookup s.kvs.spans (spanKey slot n) with
  | none => simp [hfound] at hres
  | some e => rfl

theorem State.res_of_ferryable {s : State} {slot n : Nat} (h : s.ferryable slot n = true) : (s.span slot n).res ≠ .empty := by
  intro hempty
  simp [State.ferryable, hempty] at h

/-- What PARK or FETCH asks of the pages of its spans. -/
def spanWant (it : Item) (tier : Tier) : Want := { dest := tier, seg := bits it.w4 15 8, die := argSub it }

/-- A request of PARK or FETCH whose spans all qualify is listed: it waits for one ferry request. -/
def State.listFerry (s : State) (it : Item) (o : Origin) : State :=
  { s with
    kvs.nextId := s.kvs.nextId + 1
    kvs.reqs := s.kvs.reqs ++ [{ id := s.kvs.nextId, slot := hSlot it.w0, op := spanOp it, first := spanFirst it
                                 count := spanCount it, waiting := 1, origin := o }] }

/-- A request for one span that qualifies goes on as a ferry request for the pages of the span. -/
theorem OneSpan.ferrySpans_eq {s : State} {it : Item} {op slot n : Nat} (h : OneSpan s it op slot n) {tier : Tier}
    (htier : argTier it = some tier) (hok : s.ferryable slot n = true) {tiers : List Tier} (hmem : tier ∈ tiers) (o : Origin) :
    (s.begin_ 6 it).ferrySpans it o tiers =
      ((s.begin_ 6 it).listFerry it o).startFerry (.span s.kvs.nextId) (spanWant it tier) (s.spanPages slot n) := by
  have hlist := h.spanList_eq
  obtain ⟨-, -, hcode, -, rfl, -⟩ := h
  have hcode' : (s.begin_ 6 it).spanCode it = 0 := hcode
  have hok' : (s.begin_ 6 it).ferryable (hSlot it.w0) n = true := hok
  have hseg : (if bits it.w4 15 8 = 255 then 255 else bits it.w4 15 8) = bits it.w4 15 8 := by split <;> omega
  have htiers : (!tiers.contains tier) = false := by simpa using hmem
  unfold State.ferrySpans
  simp only [hcode', htier, htiers, hlist, hseg, hok', ne_eq, not_true_eq_false, Bool.false_eq_true, if_false, if_true, List.filter_cons,
    List.filter_nil, List.foldl_cons, List.foldl_nil, List.flatMap_cons, List.flatMap_nil, List.append_nil, Option.getD_some]
  rfl

/-- Page p of span n is claimed from s to t for a move to a home; the span's entry and every byte stay. -/
def SpanClaimed (s t : State) (slot n p : Nat) (dst : Tier) (loc : Nat) : Prop :=
  (t.leaf p).ferry = true ∧ (t.leaf p).tier = (s.leaf p).tier ∧ t.span slot n = s.span slot n ∧
    (∃ op, SMap.lookup t.tsm.ops p = some op ∧ op.dst = dst ∧ op.dstLoc = loc ∧ op.stage = .claim) ∧ t.mem = s.mem

/-- The ferry request of a span of one page that passes the checks has claimed the page. -/
theorem OneSpan.ferrySpans_claimed {s : State} {it : Item} {op slot n : Nat} (h : OneSpan s it op slot n) {tier : Tier}
    (htier : argTier it = some tier) (hok : s.ferryable slot n = true) {tiers : List Tier} (hmem : tier ∈ tiers) {p : Nat}
    (hpages : s.spanPages slot n = [p]) {dst : Tier} {loc : Nat} (hclaim : s.claimCheck p (spanWant it tier) = .claim dst loc) (o : Origin) :
    SpanClaimed s ((s.begin_ 6 it).ferrySpans it o tiers) slot n p dst loc := by
  let u : State := { (s.begin_ 6 it).listFerry it o with tsm.nextReq := s.tsm.nextReq + 1 }
  have hboot : u.inBoot p = false := State.inBoot_of_not_pin (State.not_pin_of_claim hclaim)
  obtain ⟨hleaf, -, -, ⟨op, hop, hstage, -, -, hdst, hloc⟩, -, -, hbytes⟩ :=
    State.claimPage_claimed hboot s.tsm.nextReq (spanWant it tier) dst loc
  obtain ⟨x, g, hkeeps⟩ := u.claimPage_keeps s.tsm.nextReq p (spanWant it tier) dst loc
  have hkvs : (u.claimPage s.tsm.nextReq p (spanWant it tier) dst loc).kvs.spans = s.kvs.spans := by rw [hkeeps]; rfl
  have htaken : ((u.claimPage s.tsm.nextReq p (spanWant it tier) dst loc).leaf p).tier = (s.leaf p).tier := by
    rw [hleaf]
    rfl
  rw [h.ferrySpans_eq htier hok hmem, hpages, State.startFerry_of_claim (s := (s.begin_ 6 it).listFerry it o) hclaim]
  exact ⟨congrArg Leaf.ferry hleaf, htaken, State.span_of_spans hkvs (State.res_of_ferryable hok),
    ⟨op, hop, hdst, hloc, hstage⟩, hbytes⟩

section ferries

variable {s : State} {it : Item} {slot n p : Nat} {tier dst : Tier} {loc : Nat} (htier : argTier it = some tier)
  (hok : s.ferryable slot n = true) (hpages : s.spanPages slot n = [p]) (hclaim : s.claimCheck p (spanWant it tier) = .claim dst loc)

include htier hok hpages hclaim

theorem does_spanPark (h : OneSpan s it 1 slot n) (hdest : tier = .pool ∨ tier = .sett) :
    Does (.spanPark it) s fun t => SpanClaimed s t slot n p dst loc :=
  ⟨(s.begin_ 6 it).ferrySpans it (spanOrigin it) [.pool, .sett], h.spanGate fun o s => s.ferrySpans it o [.pool, .sett],
    h.ferrySpans_claimed htier hok (by simpa using hdest) hpages hclaim _⟩

theorem does_spanFetch (h : OneSpan s it 2 slot n) (hdest : tier = .dram ∨ tier = .larder) :
    Does (.spanFetch it) s fun t => SpanClaimed s t slot n p dst loc :=
  ⟨(s.begin_ 6 it).ferrySpans it (spanOrigin it) [.dram, .larder], h.spanGate fun o s => s.ferrySpans it o [.dram, .larder],
    h.ferrySpans_claimed htier hok (by simpa using hdest) hpages hclaim _⟩

end ferries

/-! ### Deferred items (R171, R180) -/

theorem State.setDefer_tsm (s : State) (id : Nat) (f : DeferItem → DeferItem) : (s.setDefer id f).tsm = s.tsm := rfl

theorem State.deferred_setDefer {s : State} {d : DeferItem} (hlist : s.kvs.deferred = [d]) (f : DeferItem → DeferItem) :
    (s.setDefer d.id f).kvs.deferred = [f d] := by
  simp [State.setDefer, hlist]

theorem State.unmap_tsm (s : State) (p : Nat) : (s.unmap p).tsm = (s.setLeaf p {}).tsm := rfl

/-- A page of a deferred item that is neither claimed nor protected loses its home, and its shootdown starts. -/
theorem State.freePage_of_free {s : State} {p : Nat} (id : Nat) (hv : (s.leaf p).v = true) (hferry : (s.leaf p).ferry = false)
    (hwp : (s.leaf p).wp = false) : s.freePage id p =
      ((s.unmap p).shoot p (.released id (s.leaf p).tier (s.leaf p).loc)).setDefer id fun x => { x with shooting := x.shooting + 1 } := by
  simp only [State.freePage, hv, hferry, hwp, Bool.not_true, Bool.false_eq_true, if_false, Bool.or_self]

/-- The item is released, and counted (R186). -/
def State.release (s : State) (d : DeferItem) : State :=
  (s.setDefer d.id fun x => { x with released := true }).bump (Reg.kvsCnt 6)

theorem State.deferred_release {s : State} {d : DeferItem} (hlist : s.kvs.deferred = [d]) :
    (s.release d).kvs.deferred = [{ d with released := true }] := by
  rw [State.release, State.bump_kvs]
  exact State.deferred_setDefer hlist _

/-- An item with a shootdown in progress stays. -/
theorem State.endDefer_shooting {s : State} {d : DeferItem} (hlist : s.kvs.deferred = [d]) (hshoot : d.shooting ≠ 0) :
    s.endDefer d.id = s := by
  simp [State.endDefer, hlist, hshoot]

/-- The one deferred item waits for the caches of a page that is freed. -/
theorem State.freePage_listed {s : State} {d : DeferItem} {p : Nat} (hlist : s.kvs.deferred = [d]) (hboot : s.tsm.boot = false)
    (hv : (s.leaf p).v = true) (hferry : (s.leaf p).ferry = false) (hwp : (s.leaf p).wp = false) :
    let u := (s.freePage d.id p).endDefer d.id
    (u.leaf p).v = false ∧ u.kvs.deferred = [{ d with shooting := d.shooting + 1 }] ∧
      u.tsm.shoots = s.tsm.shoots ++ [⟨p, caches, .released d.id (s.leaf p).tier (s.leaf p).loc⟩] := by
  dsimp only
  rw [State.freePage_of_free d.id hv hferry hwp]
  generalize hw : (s.unmap p).shoot p (.released d.id (s.leaf p).tier (s.leaf p).loc) = w
  have hwlist : w.kvs.deferred = [d] := by
    rw [← hw]
    exact hlist
  have hshoots : w.tsm = { (s.setLeaf p {}).tsm with
      shoots := s.tsm.shoots ++ [⟨p, caches, .released d.id (s.leaf p).tier (s.leaf p).loc⟩] } := by
    rw [← hw, State.shoot, State.unmap_tsm]
    rfl
  have hleaf : w.leaf p = {} :=
    (State.leaf_congr (s := s.setLeaf p {}) (by rw [hshoots]) (by rw [hshoots]) p).trans (State.leaf_setLeaf_same s p {} hboot)
  have hdeferred := State.deferred_setDefer hwlist fun x => { x with shooting := x.shooting + 1 }
  generalize hu : (w.setDefer d.id fun x => { x with shooting := x.shooting + 1 }) = u at hdeferred ⊢
  have htsm : u.tsm = w.tsm := by rw [← hu, State.setDefer_tsm]
  have hend : u.endDefer d.id = u := State.endDefer_shooting (d := { d with shooting := d.shooting + 1 }) hdeferred (Nat.succ_ne_zero _)
  rw [hend, State.leaf_congr (congrArg _ htsm) (congrArg _ htsm), hleaf, htsm, hshoots]
  exact ⟨rfl, hdeferred, rfl⟩

section deferred

variable {s : State} {d : DeferItem} (hl : s.live = true) (hlist : s.kvs.deferred = [d])

include hl hlist

theorem ignored_deferredRelease (hstamps : s.stampsPassed d.stamps = false) : Ignored (.deferredRelease d.id) s := by
  show execDeferredRelease d.id s = _
  rw [execDeferredRelease, gate_live hl]
  simp [hlist, hstamps]

theorem exec_deferredRelease_home (hnew : d.released = false) (hstamps : s.stampsPassed d.stamps = true) {t : Tier} {loc : Nat}
    (hkind : d.kind = .home t loc) :
    exec (.deferredRelease d.id) s = .next (((s.release d).giveBack t loc).endDefer d.id) := by
  show execDeferredRelease d.id s = _
  rw [execDeferredRelease, gate_live hl]
  simp [hlist, hnew, hstamps, hkind, State.release]

theorem exec_deferredRelease_page (hnew : d.released = false) (hstamps : s.stampsPassed d.stamps = true) (hkind : d.kind = .pages)
    {p : Nat} (hpages : d.pages = [p]) :
    exec (.deferredRelease d.id) s = .next (((s.release d).freePage d.id p).endDefer d.id) := by
  show execDeferredRelease d.id s = _
  rw [execDeferredRelease, gate_live hl]
  simp [hlist, hnew, hstamps, hkind, hpages, State.release, freeLoop]

theorem does_deferredRelease_home (hnew : d.released = false) (hstamps : s.stampsPassed d.stamps = true) (hheld : s.kvs.held = [])
    {t : Tier} {loc : Nat} (hkind : d.kind = .home t loc) (ht : t ≠ .dram) (hbusy : d.busy = []) (hshoot : d.shooting = 0) :
    Does (.deferredRelease d.id) s fun u => SMap.lookup u.tsm.alloc (homeKey t loc) = none ∧ u.kvs.deferred = [] ∧
      u.reg (Reg.kvsCnt 6) = s.reg (Reg.kvsCnt 6) + 1 := by
  have hcount : (s.release d).reg (Reg.kvsCnt 6) = s.reg (Reg.kvsCnt 6) + 1 := State.reg_bump_same _ _
  have hdeferred := State.deferred_release hlist
  have hnone : (s.release d).kvs.held = [] := hheld
  refine ⟨_, exec_deferredRelease_home hl hlist hnew hstamps hkind, ?_⟩
  generalize s.release d = u at hcount hdeferred hnone ⊢
  have hback : u.giveBack t loc = { u with tsm.alloc := SMap.erase u.tsm.alloc (homeKey t loc) } := if_neg (by simp [ht])
  have hend : (u.giveBack t loc).endDefer d.id = { u.giveBack t loc with kvs.deferred := [] } := by
    simp [hback, State.endDefer, hdeferred, hbusy, hshoot, hkind, State.undefer, hnone]
  rw [hend]
  exact ⟨State.lookup_giveBack ht u loc, rfl, (State.reg_of_regs (by rw [hback]) _).trans hcount⟩

variable (hboot : s.tsm.boot = false) {p : Nat} (hv : (s.leaf p).v = true) (hferry : (s.leaf p).ferry = false)
  (hwp : (s.leaf p).wp = false)

include hboot hv hferry hwp

theorem does_deferredRelease_pages (hnew : d.released = false) (hstamps : s.stampsPassed d.stamps = true) (hkind : d.kind = .pages)
    (hpages : d.pages = [p]) : Does (.deferredRelease d.id) s fun u => (u.leaf p).v = false ∧
      u.tsm.shoots = s.tsm.shoots ++ [⟨p, caches, .released d.id (s.leaf p).tier (s.leaf p).loc⟩] := by
  obtain ⟨hleaf, -, hshoots⟩ := State.freePage_listed (State.deferred_release hlist) hboot hv hferry hwp
  exact ⟨_, exec_deferredRelease_page hl hlist hnew hstamps hkind hpages, hleaf, hshoots⟩

/-- A page whose drop was refused is tried again, for an item released or not. -/
theorem does_dropRetry (hbusy : d.busy = [p]) : Does (.dropRetry d.id p) s fun u => (u.leaf p).v = false ∧
    (∃ x ∈ u.kvs.deferred, x.id = d.id ∧ x.busy = []) ∧
    u.tsm.shoots = s.tsm.shoots ++ [⟨p, caches, .released d.id (s.leaf p).tier (s.leaf p).loc⟩] := by
  let v := s.setDefer d.id fun x => { x with busy := x.busy.erase p }
  have hdeferred : v.kvs.deferred = [{ d with busy := [] }] := by simp [v, State.setDefer, hlist, hbusy]
  obtain ⟨hleaf, hlisted, hshoots⟩ := State.freePage_listed hdeferred hboot hv hferry hwp
  refine ⟨(v.freePage d.id p).endDefer d.id, ?_, hleaf,
    ⟨{ d with busy := [], shooting := d.shooting + 1 }, ?_, rfl, rfl⟩, hshoots⟩
  · show execDropRetry d.id p s = _
    rw [execDropRetry, gate_live hl]
    simp [hlist, hbusy, v]
  · rw [hlisted]
    exact List.mem_singleton_self _

end deferred

/-- Settles O26: the claims of PARK and FETCH, then the stages of a deferred item. -/
theorem spanFerries : Obligations.SpanFerries := by
  refine ⟨fun s it slot n p tier dst loc => ?_, fun s d hl hlist hheld hboot => ⟨?_, fun hnew hstamps => ⟨?_, ?_⟩, ?_⟩⟩
  · exact fun htier hok hpages hclaim => ⟨does_spanPark htier hok hpages hclaim, does_spanFetch htier hok hpages hclaim⟩
  · exact fun _ hstamps => ignored_deferredRelease hl hlist hstamps
  · exact fun t loc hkind ht hbusy hshoot => does_deferredRelease_home hl hlist hnew hstamps hheld hkind ht hbusy hshoot
  · exact fun p hkind hpages hv hferry hwp => does_deferredRelease_pages hl hlist hboot hv hferry hwp hnew hstamps hkind hpages
  · exact fun p hbusy hv hferry hwp => does_dropRetry hl hlist hboot hv hferry hwp hbusy

end Sys2Proof.Machine
end

section
/-! ### Spans of a model slot outside the register file (R144, R162, R84) -/

namespace Sys2Proof.Machine

open Sys2Proof

/-- What is read of the state that a command answers. -/
def readAfter {α : Type} (c : Instr) (s : State) (f : State → α) : Option α :=
  match exec c s with
  | .next t => some (f t)
  | _ => none

theorem readAfter_of_next {α : Type} {c : Instr} {s t : State} (h : exec c s = .next t) (f : State → α) :
    readAfter c s f = some (f t) := by
  rw [readAfter, h]

/-- A request for one span of hamper 0, of the first generation. -/
def firstHamperItem (op n : Nat) : Item := { w0 := 1, w2 := fld 63 32 n ||| fld 31 0 1, w3 := fld 7 0 op }

/-- A live module with hamper 0 in use, of two spans, whose directory entry names a model slot. -/
def hamperOfModel (m : Nat) : State :=
  { State.reset with
    plat.rails := true
    plat.stage := 7
    comp.map := { modules := 1, peers := [0] }
    hmp.dir := [(0, { gen := 1, state := .active, kind := .home, model := m })]
    hmp.hdr := [(0, { handle := 1, spans := 2 })] }

/-- The model slot whose KVS.GEOMETRY number is that of TLY.CNT0. -/
def tallyModel : Nat := Reg.tlyCnt 0 - Reg.kvsGeometry 0

/-- The completion of a refused DROP raises a tally, which TLY.CNT0 counts: PAGES_PER_SPAN of the model slot is 1 more, and span 1, never
edited, begins one page later. -/
theorem base_after_refusedDrop :
    readAfter (.spanDrop (firstHamperItem 3 1)) (hamperOfModel tallyModel) (fun t => (t.span 0 1).base) =
      some (((hamperOfModel tallyModel).span 0 1).base + 1) := by
  decide +kernel

/-- Refutes O24: a model slot is any number in the model's directory entry, and the geometry of one beyond the sixteen of R144 may be a
counter that the request's own completion raises; a refused DROP then moves the reserved BASE of the span it refused. -/
theorem not_spanEdits : ¬ Obligations.SpanEdits := by
  rintro ⟨hedits, -⟩
  obtain ⟨-, -, -, hrefused⟩ := hedits (hamperOfModel tallyModel) (firstHamperItem 3 1) 0 1
  obtain ⟨t, ht, hspan, -⟩ := hrefused (by unfold OneSpan; decide +kernel) (by decide +kernel)
  have hbase := base_after_refusedDrop
  rw [readAfter_of_next ht, hspan] at hbase
  exact absurd (Option.some.inj hbase) (Nat.ne_of_lt (Nat.lt_succ_self _))

/-- The model slot whose TSM.RECOMP_COST number is that of KVS.CNT4, which counts completed recomputes. -/
def recomputeModel : Nat := Reg.kvsCnt 4 - Reg.tsmRecompCost 0

/-- Span 0 is in recompute; its model slot has no block. -/
def recomputing : State := (hamperOfModel recomputeModel).setSpan 0 0 { res := .dropped, recomp := true }

/-- SPANS_RECOMPUTED counts the request before the average is taken. -/
theorem cost_after_recompEnd :
    readAfter (.recompEnd (firstHamperItem 5 0) [1]) recomputing (fun t => t.field (Reg.tsmRecompCost recomputeModel) 31 0) = some 1 := by
  decide +kernel

/-- Refutes O25: for a model slot beyond the sixteen of R97 the cost register may be the counter of recomputes; the average of cost 0 and
1 ns of tile time is then 1 and not 0. -/
theorem not_recompute : ¬ Obligations.Recompute := by
  intro h
  obtain ⟨-, hend, -⟩ := h recomputing (firstHamperItem 5 0) 0 0 1
  obtain ⟨t, ht, -, -, -, -, hcost⟩ := hend (by unfold OneSpan; decide +kernel) (by decide +kernel) (by decide +kernel)
    (by decide +kernel)
  have hone := cost_after_recompEnd
  have hzero : min (2 ^ 32 - 1) ((7 * recomputing.field (Reg.tsmRecompCost recomputeModel) 31 0 + 1) / 8) = 0 := by decide +kernel
  rw [readAfter_of_next ht] at hone
  exact absurd ((Option.some.inj hone).symm.trans (hcost.trans hzero)) (by decide)

/-! ### A SPAN command with an outcome before it begins (R165) -/

/-- A SPAN command for PIN of span 1 of hamper 0 that has not begun and lists a refusal of span 0 already. -/
def spanCmdWithOutcome : HostCmd :=
  { id := 5, opcode := 0x19, session := 1, args := [(firstHamperItem 6 1).w2, (firstHamperItem 6 1).w3]
    spanRes := [(0, .failed Code.spanState, 0, 0)] }

/-- The command waits; the span queue has no depth. -/
def waitingWithOutcome : State := { hamperOfModel 0 with host.cmds := [spanCmdWithOutcome] }

/-- The codes of completion records. -/
def recordCodes (l : List Out) : List Nat :=
  l.filterMap fun
    | .completion x => some (bits x.r0 60 48)
    | _ => none

theorem mem_recordCodes_of_answers {s t : State} {c : HostCmd} {code : Nat} {detail data : Word} (h : Answers s t c code detail data) :
    code ∈ recordCodes t.out := by
  obtain ⟨-, l, x, hout, hx, -, -, hcode, -⟩ := h
  rw [hout]
  exact List.mem_filterMap.2 ⟨_, List.mem_append_right _ hx, congrArg some hcode⟩

/-- The lowest span that failed gives the code (R163): span 0, though the command does not name it. -/
theorem codes_after_span :
    readAfter (.span 5 []) waitingWithOutcome (fun t => recordCodes t.out) = some [Code.spanState] := by
  decide +kernel

/-- Refutes O44: a SPAN command is not asked to have no outcomes before it begins; one that has is answered with their code and not with
QUEUE_DISABLED. -/
theorem not_hostCommands : ¬ Obligations.HostCommands := by
  intro h
  obtain ⟨-, -, -, -, -, hspan, -⟩ := h waitingWithOutcome 5 spanCmdWithOutcome
  obtain ⟨-, -, hdisabled⟩ := hspan (by unfold Waits; decide +kernel)
  obtain ⟨t, ht, -, d1, d2, hanswers⟩ := hdisabled (by decide +kernel) (by decide +kernel) (by decide +kernel)
  have hcode := mem_recordCodes_of_answers hanswers
  rw [Option.some.inj ((readAfter_of_next ht _).symm.trans codes_after_span)] at hcode
  exact absurd hcode (by decide)

end Sys2Proof.Machine
end

section
/-! ### A segment that a code ends (R302, R314, R687) -/

namespace Sys2Proof.Machine

open Sys2Proof

/-- One state is the other but for bytes of the memory and the free values taken for them. -/
def State.BytesOnly (s t : State) : Prop := ∃ m f, t = { s with mem := m, free := f }

theorem State.BytesOnly.refl (s : State) : s.BytesOnly s := ⟨_, _, rfl⟩

theorem State.BytesOnly.trans {s t u : State} (h : s.BytesOnly t) (h' : t.BytesOnly u) : s.BytesOnly u := by
  obtain ⟨m, f, rfl⟩ := h
  obtain ⟨m', f', rfl⟩ := h'
  exact ⟨m', f', rfl⟩

theorem State.BytesOnly.foldl {α : Type} {g : State → α → State} (h : ∀ (s : State) x, s.BytesOnly (g s x)) (xs : List α)
    (s : State) : s.BytesOnly (xs.foldl g s) := by
  induction xs generalizing s with
  | nil => exact .refl s
  | cons x xs ih => exact (h s x).trans (ih _)

theorem State.BytesOnly.iff {s : State} {f : State → State} (h : s.BytesOnly (f s)) (b : Bool) : s.BytesOnly (s.iff b f) := by
  cases b
  · exact .refl s
  · exact h

theorem State.bytesOnly_undefRange (s : State) (r : Nat × Nat) : s.BytesOnly (s.undefRange r) := ⟨_, _, rfl⟩

theorem State.bytesOnly_undefState (s : State) (a n : Nat) : s.BytesOnly (s.undefState a n) := by
  unfold State.undefState
  split
  · exact .refl s
  · exact .foldl (fun u x => .iff (u.bytesOnly_undefRange _) _) _ _

theorem State.bytesOnly_undefInFlight (s : State) (die : Nat) (d : Die) : s.BytesOnly (s.undefInFlight die d) :=
  State.BytesOnly.trans (.foldl (fun u _ => u.bytesOnly_undefState _ _) _ _) (.foldl State.bytesOnly_undefRange _ _)

/-- Neither the compute dies and their lists of work nor the records of faults are in a table that stands at state addresses. -/
theorem State.putTab_cmp_flt (s : State) (r : TabRef) (ws : List Word) :
    (s.putTab r ws).cmp = s.cmp ∧ (s.putTab r ws).flt = s.flt := by
  cases r
  case req i =>
    unfold State.putTab State.putReqWords
    dsimp only
    split <;> exact ⟨rfl, rfl⟩
  all_goals exact ⟨rfl, rfl⟩  -- an update of the directory, a header, the log, a span, a side record or the page table

theorem State.setVbyte_cmp_flt (s : State) (a : Nat) (b : Byte) :
    (s.setVbyte a b).cmp = s.cmp ∧ (s.setVbyte a b).flt = s.flt := by
  unfold State.setVbyte
  split
  · exact State.putTab_cmp_flt _ _ _
  · exact ⟨rfl, rfl⟩

theorem State.setVbytes_cmp_flt (s : State) (a : Nat) (bs : List Byte) :
    (s.setVbytes a bs).cmp = s.cmp ∧ (s.setVbytes a bs).flt = s.flt := by
  unfold State.setVbytes
  split
  · refine List.foldlRecOn _ _ (motive := fun u : State => u.cmp = s.cmp ∧ u.flt = s.flt) ⟨rfl, rfl⟩ fun u hu x _ => ?_
    obtain ⟨hcmp, hflt⟩ := u.setVbyte_cmp_flt (a + x.2) x.1
    exact ⟨hcmp.trans hu.1, hflt.trans hu.2⟩
  · exact ⟨rfl, rfl⟩

theorem State.setTabWord_cmp_flt (s : State) (a : Nat) (v : Word) :
    (s.setTabWord a v).cmp = s.cmp ∧ (s.setTabWord a v).flt = s.flt := by
  unfold State.setTabWord
  split_ifs
  · exact s.setVbytes_cmp_flt _ _
  · exact ⟨rfl, rfl⟩
  · exact ⟨rfl, rfl⟩

theorem State.acctEnd_cmp_flt (s : State) (die : Nat) (d : Die) (saved ended : Bool) :
    (s.acctEnd die d saved ended).cmp = s.cmp ∧ (s.acctEnd die d saved ended).flt = s.flt := by
  unfold State.acctEnd
  split
  · exact ⟨rfl, rfl⟩
  · dsimp only
    split_ifs <;> exact State.setTabWord_cmp_flt _ _ _

/-- An item posted for a unit was not pushed by a stream, so no die waits for it to enter. -/
theorem State.post_cmp (s : State) (q : Nat) (i : Item) (t : Nat) : (s.post q i t).cmp = s.cmp := by
  unfold State.post State.hwPush State.pushed
  dsimp only
  split_ifs <;> simp

theorem State.bindTile_keeps (s : State) (die logical phys : Nat) :
    (s.bindTile die logical phys).cmp.dies = s.cmp.dies ∧
      (s.bindTile die logical phys).cmp.reductions = s.cmp.reductions ∧ (s.bindTile die logical phys).flt = s.flt := by
  unfold State.bindTile
  dsimp only
  split <;> exact ⟨rfl, rfl, rfl⟩

theorem State.boundary_keeps (s : State) (die : Nat) : (s.boundary die).cmp.dies = s.cmp.dies ∧
    (s.boundary die).cmp.reductions = s.cmp.reductions ∧ (s.boundary die).flt = s.flt := by
  unfold State.boundary
  refine List.foldlRecOn _ _ (motive := fun u : State => u.cmp.dies = s.cmp.dies ∧ u.cmp.reductions = s.cmp.reductions ∧
    u.flt = s.flt) ⟨rfl, rfl, rfl⟩ fun u hu x _ => ?_
  obtain ⟨hdies, hreds, hflt⟩ := hu
  obtain ⟨hdies', hreds', hflt'⟩ := u.bindTile_keeps die x.2.1 x.2.2
  exact ⟨hdies'.trans hdies, hreds'.trans hreds, hflt'.trans hflt⟩

theorem State.dropIssued_cmp_flt (s : State) (die : Nat) :
    (s.dropIssued die).cmp = s.cmp ∧ (s.dropIssued die).flt = s.flt := ⟨rfl, rfl⟩

/-- The part of `faultSegment` before the event record: the die is stopped and its discard noted, unless a resumed segment has run
no bundle and its save still stands. -/
def State.segmentStopped (s : State) (die code cause slot : Nat) : State :=
  let d := s.die die
  let s := (s.noteRefusal code).setReg (Reg.seqFault die)
    (fld 63 48 code ||| fld 47 44 cause ||| fld 43 38 (if slot < 48 then slot else 0) ||| fld 37 10 d.offset)
  let s := s.bump (if code = Code.overlap then Reg.seqCnt 6 else Reg.seqCnt 7)
  let s := (s.undefInFlight die d).dropIssued die
  let s := if d.first && d.save.any fun v => v.startNo = d.startNo then s else s.noteDiscard die d.item code
  s.setDie die d.stopped

theorem State.segmentStopped_keeps (s : State) (die code cause slot : Nat) :
    (s.segmentStopped die code cause slot).cmp = (s.setDie die (s.die die).stopped).cmp ∧
      ((s.die die).first = false → ∃ j, (s.segmentStopped die code cause slot).flt.discards =
        s.flt.discards ++ [⟨die, (s.die die).item, code, j⟩]) := by
  unfold State.segmentStopped
  dsimp only
  generalize hu : ((s.noteRefusal code).setReg _ _).bump _ = u
  obtain ⟨m, f, hbytes⟩ := u.bytesOnly_undefInFlight die (s.die die)
  rw [hbytes]
  generalize hw : ({ u with mem := m, free := f } : State).dropIssued die = w
  have hrefusal : (s.noteRefusal code).cmp = s.cmp ∧ (s.noteRefusal code).flt = s.flt := by
    unfold State.noteRefusal State.iff
    split <;> exact ⟨rfl, rfl⟩
  obtain ⟨hcmp, hflt⟩ : w.cmp = s.cmp ∧ w.flt = s.flt := by
    obtain ⟨hcmp, hflt⟩ := State.dropIssued_cmp_flt { u with mem := m, free := f } die
    rw [← hw, hcmp, hflt, ← hu]
    simpa only [State.bump_cmp, State.bump_flt, State.setReg_cmp, State.setReg_flt] using hrefusal
  refine ⟨?_, fun hfirst => ?_⟩
  · split <;> simp only [State.setDie, State.noteDiscard, hcmp]
  · rw [hfirst, ← hflt]
    exact ⟨_, rfl⟩

theorem State.faultSegment_eq (s : State) (die code cause slot : Nat) : ∃ u : State,
    s.faultSegment die code cause slot = u.boundary die ∧ u.cmp = (s.segmentStopped die code cause slot).cmp ∧
      u.flt = (s.segmentStopped die code cause slot).flt := by
  refine ⟨_, rfl, ?_⟩
  simp only [State.postSegment, State.post_cmp, State.post_frame, State.setAttn_frame, State.event_frame, State.bump_cmp,
    State.bump_flt, State.acctEnd_cmp_flt, State.putReclaim, State.putTally_frame]
  exact ⟨rfl, rfl⟩

/-- A code that ends a die's segment leaves the die idle, and the reductions as they were. -/
theorem State.faultSegment_idle (s : State) (die code cause slot : Nat) :
    ((s.faultSegment die code cause slot).die die).state = .idle ∧
      (s.faultSegment die code cause slot).cmp.reductions = s.cmp.reductions := by
  obtain ⟨u, hfault, hcmp, -⟩ := s.faultSegment_eq die code cause slot
  obtain ⟨hstop, -⟩ := s.segmentStopped_keeps die code cause slot
  obtain ⟨hdies, hreds, -⟩ := u.boundary_keeps die
  have hdie : (s.faultSegment die code cause slot).die die = (s.die die).stopped := by
    rw [hfault, State.die, hdies, hcmp, hstop]
    exact State.die_setDie_same s die _
  refine ⟨by rw [hdie]; rfl, ?_⟩
  rw [hfault, hreds, hcmp, hstop]
  rfl

/-- A segment that has run a bundle since it began or resumed is discarded with its item and the code. -/
theorem State.faultSegment_discards (s : State) (die code cause slot : Nat) (hfirst : (s.die die).first = false) :
    ∃ e, (s.faultSegment die code cause slot).flt.discards = s.flt.discards ++ [e] ∧ e.die = die ∧
      e.item = (s.die die).item ∧ e.code = code := by
  obtain ⟨u, hfault, -, hflt⟩ := s.faultSegment_eq die code cause slot
  obtain ⟨-, hnote⟩ := s.segmentStopped_keeps die code cause slot
  obtain ⟨-, -, hkept⟩ := u.boundary_keeps die
  obtain ⟨j, hdisc⟩ := hnote hfirst
  exact ⟨_, by rw [hfault, hkept, hflt, hdisc], rfl, rfl, rfl⟩

end Sys2Proof.Machine
end

section
/-! ### Rankings of spans (R486) -/

namespace Sys2Proof.Machine

open Sys2Proof

theorem seuGate_live {s : State} (hl : s.live = true) (hu : s.unitFailed 6 = false) (f : State → State) :
    seuGate s f = .next (f s) := by
  rw [seuGate, gate_live hl, hu, if_neg Bool.false_ne_true]

/-- A page served of a ranking leaves the ranking the only one of its die and number. -/
theorem State.find?_servePage (s : State) (r : Ranking) (n : Nat) :
    (s.servePage r n).seu.rankings.find? (fun x => x.die = r.die && x.id = r.id) =
      some { r with given := r.given + ((r.order.drop r.given).take n).length, page := (r.order.drop r.given).take n } := by
  rw [show (s.servePage r n).seu.rankings = (s.seu.rankings.filter fun x => !(x.die = r.die && x.id = r.id)) ++ [_] from rfl,
    List.find?_append, List.find?_eq_none.2 fun x hx => ?_, Option.none_or]
  · simp
  · simpa only [Bool.not_eq_true, Bool.not_eq_true'] using (List.mem_filter.1 hx).2

variable {s : State} {die : Fin 4} {id : Nat}

theorem does_rankRequest {slot layer head first tail newest commit k : Nat} {sketch : List Word} (hl : s.live = true)
    (hu : s.unitFailed 6 = false) (hroom : s.seu.rankings.length < 64) :
    Does (.rankRequest die id slot layer head first tail newest commit sketch k) s fun t =>
      ∃ r, t.seu.rankings.find? (fun x => x.die = die.val && x.id = id) = some r ∧
        r.order = s.rankOrder slot layer head first tail newest commit sketch ∧
        r.page = (s.rankOrder slot layer head first tail newest commit sketch).take (s.rankPage k) ∧ r.given = r.page.length ∧
        t.reg (Reg.seuCnt 5) = s.reg (Reg.seuCnt 5) + 1 ∧ t.mem = s.mem := by
  let r : Ranking := { die := die.val, id := id, order := s.rankOrder slot layer head first tail newest commit sketch }
  refine ⟨s.servePage r (s.rankPage k), ?_, _, s.find?_servePage r (s.rankPage k), rfl, rfl, ?_, State.reg_bump_same _ _, rfl⟩
  · show execRankRequest die id slot layer head first tail newest commit sketch k s = _
    rw [execRankRequest, seuGate_live hl hu]
    exact congrArg _ (if_neg (by omega))
  · exact Nat.zero_add _

theorem does_rankRequest_waits {slot layer head first tail newest commit k : Nat} {sketch : List Word} (hl : s.live = true)
    (hu : s.unitFailed 6 = false) (hfull : 64 ≤ s.seu.rankings.length) :
    Does (.rankRequest die id slot layer head first tail newest commit sketch k) s fun t =>
      t.seu.rankings = s.seu.rankings ∧ t.seu.rankWait.length = s.seu.rankWait.length + 1 := by
  let r : Ranking := { die := die.val, id := id, order := s.rankOrder slot layer head first tail newest commit sketch }
  refine ⟨{ s with seu.rankWait := s.seu.rankWait ++ [{ r with given := s.rankPage k }] }, ?_, rfl, ?_⟩
  · show execRankRequest die id slot layer head first tail newest commit sketch k s = _
    rw [execRankRequest, seuGate_live hl hu]
    exact congrArg _ (if_pos hfull)
  · exact List.length_append

theorem does_rankContinuation {k : Nat} (hl : s.live = true) (hu : s.unitFailed 6 = false) {r : Ranking}
    (hr : s.seu.rankings.find? (fun x => x.die = die.val && x.id = id) = some r) :
    Does (.rankContinuation die id k) s fun t =>
      ∃ x, t.seu.rankings.find? (fun x => x.die = die.val && x.id = id) = some x ∧ x.order = r.order ∧
        x.page = (r.order.drop r.given).take (s.rankPage k) ∧ x.given = r.given + x.page.length := by
  obtain ⟨hdie, hid⟩ : r.die = die.val ∧ r.id = id := by simpa using List.find?_some hr
  have hfind := s.find?_servePage r (s.rankPage k)
  rw [hdie, hid] at hfind
  refine ⟨s.servePage r (s.rankPage k), ?_, _, hfind, rfl, rfl, rfl⟩
  show execRankContinuation die id k s = _
  rw [execRankContinuation, seuGate_live hl hu, hr]

theorem does_rankRelease (hl : s.live = true) (hu : s.unitFailed 6 = false) (hwait : s.seu.rankWait = []) :
    Does (.rankRelease die id) s fun t =>
      t = { s with seu.rankings := s.seu.rankings.filter fun x => !(x.die = die.val && x.id = id) } := by
  refine ⟨_, ?_, rfl⟩
  show execRankRelease die id s = _
  rw [execRankRelease, seuGate_live hl hu]
  dsimp only
  rw [hwait]

end Sys2Proof.Machine
end

section
/-! ### What the attention engine reads and writes while it carries out an item (R192 to R202) -/

namespace Sys2Proof.Machine

open Sys2Proof

/-- A walk for a read changes the page table's state alone: caches and ages. -/
theorem State.translate_read_eq (s : State) (cache a : Nat) (data : Bool) :
    ∃ x, (s.translate cache a false data).2 = { s with tsm := x } := by
  have htouch (u : State) (p : Nat) : ∃ x, u.touch p = { u with tsm := x } := by
    unfold State.touch State.iff
    split <;> exact ⟨_, rfl⟩
  unfold State.translate
  split
  · exact ⟨_, rfl⟩
  · dsimp only
    split
    · exact htouch _ _
    · simp only [Bool.false_eq_true, if_false, Bool.false_and]
      split
      · exact ⟨_, rfl⟩
      · next l u hfilled =>
        obtain ⟨x, rfl⟩ : ∃ x, u = { s with tsm := x } := by
          split at hfilled
          · cases hfilled
            exact ⟨_, rfl⟩
          · split at hfilled
            · cases hfilled
            · cases hfilled
              exact ⟨_, rfl⟩
        exact htouch _ _

/-- Counters that an item's completion reads and nothing before it changes: KVS.CNT8, KVS.CNT9 and KVS.CNT13. -/
def ItemCounter (k : Nat) : Prop := k = Reg.kvsCnt 8 ∨ k = Reg.kvsCnt 9 ∨ k = Reg.kvsCnt 13

theorem ItemCounter.ne_kvsCnt {k i : Nat} (hk : ItemCounter k) (hi : i ≠ 8 ∧ i ≠ 9 ∧ i ≠ 13) : k ≠ Reg.kvsCnt i := by
  unfold ItemCounter Reg.kvsCnt at *
  omega

theorem ItemCounter.block {k : Nat} (hk : ItemCounter k) : k / 65536 = 3 := by
  unfold ItemCounter Reg.kvsCnt at hk
  omega

/-- A state on the way to an item's result: what the completion counts, raises and lists is still that of s. -/
structure State.SameItem (s t : State) (die : Nat) : Prop where
  regs : ∀ k, ItemCounter k → t.reg k = s.reg k
  tly : t.tly = s.tly
  lists : (t.die die).lists = (s.die die).lists

theorem State.SameItem.refl (s : State) (die : Nat) : s.SameItem s die := ⟨fun _ _ => rfl, rfl, rfl⟩

theorem State.SameItem.trans {s t u : State} {die : Nat} (h : s.SameItem t die) (h' : t.SameItem u die) : s.SameItem u die :=
  ⟨fun k hk => (h'.regs k hk).trans (h.regs k hk), h'.tly.trans h.tly, h'.lists.trans h.lists⟩

theorem State.SameItem.bumpBy (s : State) (die : Nat) {k : Nat} (h : ¬ ItemCounter k) (n : Nat) : s.SameItem (s.bumpBy k n) die :=
  ⟨fun _ hj => State.reg_bumpBy_other _ _ _ _ fun e => h (e ▸ hj), rfl, rfl⟩

theorem State.SameItem.iff {s : State} {die : Nat} {f : State → State} (h : s.SameItem (f s) die) (b : Bool) :
    s.SameItem (s.iff b f) die := by
  cases b
  · exact .refl s die
  · exact h

theorem State.BytesOnly.sameItem {s t : State} (h : s.BytesOnly t) (die : Nat) : s.SameItem t die := by
  obtain ⟨m, f, rfl⟩ := h
  exact ⟨fun _ _ => rfl, rfl, rfl⟩

theorem not_itemCounter_kvsCnt {i : Nat} (hi : i ≠ 8 ∧ i ≠ 9 ∧ i ≠ 13) : ¬ ItemCounter (Reg.kvsCnt i) :=
  fun h => h.ne_kvsCnt hi rfl

/-! ### Choice of spans, and the reading of their blocks -/

theorem State.sameItem_readEntry (s : State) (die slot n : Nat) : s.SameItem (s.readEntry die slot n).2.2 die := by
  refine ⟨fun _ _ => rfl, rfl, ?_⟩
  simp only [State.readEntry, State.die_setDie_same]

theorem State.sameItem_presence (s : State) (die slot n : Nat) : s.SameItem (s.presence die slot n).2 die := by
  have hread := s.sameItem_readEntry die slot n
  unfold State.presence
  dsimp only
  split
  · exact hread
  · exact hread
  · exact hread
  · split_ifs
    · exact hread
    · exact hread.trans (.bumpBy _ _ (not_itemCounter_kvsCnt (by decide)) 1)
    · exact hread

theorem sameItem_presentLoop (die slot : Nat) (ns : List Nat) (s : State) : s.SameItem (presentLoop die slot ns s).2.2 die := by
  induction ns generalizing s with
  | nil => exact .refl s die
  | cons n ns ih =>
    have h := (s.sameItem_presence die slot n).trans (ih _)
    unfold presentLoop
    dsimp only
    split <;> exact h

theorem State.sameItem_chooseExact (s : State) (die slot : Nat) (a : AttnItem) : s.SameItem (s.chooseExact die slot a).2.2 die :=
  sameItem_presentLoop _ _ _ _

theorem State.sameItem_readHalf (s : State) (die addr n : Nat) (again : Bool) : s.SameItem (s.readHalf die addr n again).2 die := by
  have htr : s.SameItem (s.translate die addr false true).2 die := by
    obtain ⟨x, hx⟩ := s.translate_read_eq die addr true
    rw [hx]
    exact ⟨fun _ _ => rfl, rfl, rfl⟩
  have hfab : ¬ ItemCounter (Reg.fabCnt 0) := fun h => absurd h.block (by decide)
  unfold State.readHalf
  split
  · next e => rwa [e] at htr
  · next e => rwa [e] at htr
  · next t l u e =>
    rw [e] at htr
    split_ifs
    · exact htr
    · exact htr
    · exact htr.trans (State.SameItem.iff (f := fun s => s.bumpBy (Reg.fabCnt 0) n) (.bumpBy _ _ hfab n) _)

theorem sameItem_readBlocks (die slot layer head : Nat) (fold : Bool) (ns : List Nat) (f : List (Nat × Nat)) (ks : List KeySrc)
    (s : State) : s.SameItem (readBlocks die slot layer head fold ns f ks s).2.2 die := by
  induction ns generalizing f ks s with
  | nil => exact .refl s die
  | cons n ns ih =>
    unfold readBlocks
    dsimp only
    generalize (fold && f.any fun x => decide (x.1 = s.blockAddr slot n layer head)) = again
    have hkey := s.sameItem_readHalf die (s.blockAddr slot n layer head) (256 * s.headDim (s.dir slot).model) again
    split
    · next e => rwa [e] at hkey
    · next k u e =>
      rw [e] at hkey
      have hval := u.sameItem_readHalf die (s.blockAddr slot n layer head + 256 * s.headDim (s.dir slot).model)
        (256 * s.headDim (s.dir slot).model) again
      split
      · next e' =>
        rw [e'] at hval
        exact hkey.trans hval
      · next v w e' =>
        rw [e'] at hval
        exact ((hkey.trans hval).trans ((State.SameItem.iff (.bumpBy _ _ (not_itemCounter_kvsCnt (by decide)) 1) _).trans
          (.iff (.bumpBy _ _ (not_itemCounter_kvsCnt (by decide)) 1) _))).trans (ih _ _ _)

/-! ### Rows -/

theorem bytesOnly_outRows (die dim grp c : Nat) (a : AttnItem) (kinds : List RowKind) (bs : List KBlock) (stats : Nat → Option Nat)
    (rs : List Nat) (s : State) : s.BytesOnly (outRows die dim grp c a kinds bs stats rs s) := by
  induction rs generalizing s with
  | nil => exact .refl s
  | cons r rs ih =>
    unfold outRows
    dsimp only
    refine State.BytesOnly.trans ?_ (ih _)
    split <;> exact ⟨_, _, rfl⟩

/-- An item without statistics or gradients: its rows are written over what it has read (R202, R204). -/
theorem State.applyItem_plain {s : State} {die slot c : Nat} {a : AttnItem} {ks : List KeySrc} (hstats : a.stats = false)
    (hback : a.back = false) : s.BytesOnly (s.applyItem die slot c a [] ks).2 ∧
      ∃ code nans, (s.applyItem die slot c a [] ks).1 = { code := code, read := srcSpans ks, nans := nans } ∧
        (code = 0 ∨ code = Code.attnEmpty) := by
  unfold State.applyItem
  simp only [hstats, hback, Bool.or_self, Bool.false_eq_true, if_false]
  refine ⟨bytesOnly_outRows _ _ _ _ _ _ _ _ _ _, _, _, rfl, ?_⟩
  split
  · exact .inr rfl
  · exact .inl rfl

/-! ### An item as a whole -/

section item

variable {s : State} {die : Nat} {a : AttnItem} {folded : List (Nat × Nat)}

theorem State.runItem_refused (hcode : s.attnCode a ≠ 0) :
    s.runItem die a folded = ({ code := s.attnCode a }, folded, s.noteStale (s.attnCode a)) := by
  unfold State.runItem
  exact if_pos hcode

variable (hcode : s.attnCode a = 0) (hcls : a.cls = 1) (hstats : a.stats = false) (hback : a.back = false)

include hcode hcls hstats hback

theorem State.runItem_absent {spans ms : List Nat} {m : Nat} {u : State}
    (hch : s.chooseExact die (hSlot a.session) a = (spans, m :: ms, u)) :
    s.runItem die a folded = ({ code := Code.attnAbsent, missed := m :: ms }, folded, u) := by
  unfold State.runItem
  simp [hcode, hcls, hstats, hback, hch]

theorem State.runItem_present {spans : List Nat} {u v : State} {ks : List KeySrc} {f : List (Nat × Nat)}
    (hch : s.chooseExact die (hSlot a.session) a = (spans, [], u))
    (hread : readBlocks die (hSlot a.session) a.layer a.head a.fold spans folded [] u = (.ok ks, f, v)) :
    ∃ code nans w, s.runItem die a folded = ({ code := code, read := srcSpans ks, nans := nans }, f, w) ∧
      (code = 0 ∨ code = Code.attnEmpty) ∧ v.BytesOnly w := by
  obtain ⟨hbytes, code, nans, hdone, hempty⟩ := State.applyItem_plain (s := v) (die := die) (slot := hSlot a.session)
    (c := (s.hdr (hSlot a.session)).commitLen) (ks := ks) hstats hback
  refine ⟨code, nans, _, ?_, hempty, hbytes⟩
  unfold State.runItem
  simp [hcode, hcls, hstats, hback, hch, hread, hdone]

end item

end Sys2Proof.Machine
end

section
/-! ### The completion of an attention item (R193, R199, R203, R289) -/

namespace Sys2Proof.Machine

open Sys2Proof

/-- The counts of an item's result: items, spans read, NaN rows, and absent spans of the recall class (R199). -/
def State.itemCounted (s : State) (a : AttnItem) (r : AttnDone) : State :=
  (((s.bump (Reg.kvsCnt 8)).bumpBy (Reg.kvsCnt 9) r.read).bumpBy (Reg.kvsCnt 15) r.nans).iff (a.cls = 0) fun s =>
    s.bumpBy (Reg.kvsCnt 11) r.absent.length

/-- What firmware and the event log learn of an item, and the count of failed ones. -/
def State.itemNoted (s : State) (a : AttnItem) (r : AttnDone) : State :=
  ((s.noteAbsent a r).noteReport r.code a.session 0).iff (r.code ≠ 0) fun s =>
    { s.bump (Reg.kvsCnt 13) with cmp.fails := s.cmp.fails ++ [(a.session, r.code)] }

/-- The list goes on to its next item, or is gone after its last. -/
def State.listAdvanced (s : State) (die i : Nat) (l : AttnList) (folded : List (Nat × Nat)) : State :=
  let d := s.die die
  let l' := { l with at_ := l.at_ + 64, left := l.left - 1, folded := folded }
  s.setDie die { d with lists := if l.left ≤ 1 then d.lists.eraseIdx i else d.lists.set i l' }

/-- The completion of an item that a die's list i has carried out. -/
def State.endItem (s : State) (die i : Nat) (l : AttnList) (a : AttnItem) (rows dim : Nat) (r : AttnDone)
    (folded : List (Nat × Nat)) : State :=
  let s := (s.rowState die l.tiles rows dim).writeWords (larderAddr die a.result) (resultWords r)
  (((s.itemCounted a r).itemNoted a r).listAdvanced die i l folded).raise a.tally

/-- The rows of a list need the spill area of its die (R203). -/
def State.listSpills (s : State) (die : Nat) (l : AttnList) : Bool :=
  rowsSpill l.tiles (s.listRows die l) (s.headDim (s.dir (hSlot (s.listItem die l 0).session)).model)

/-- A line of the die's spill area cannot be read (R694). -/
def State.spillLost (s : State) (die : Nat) : Bool := s.bodyLost (s.spillRange die).1 (s.spillRange die).2

/-- List i of a live module's die, with item a next, while the search unit serves. -/
structure State.NextItem (s : State) (die i : Nat) (l : AttnList) (a : AttnItem) : Prop where
  live : s.live = true
  unit : s.unitFailed 6 = false
  list : (s.die die).lists[i]? = some l
  item : s.listItem die l 0 = a

section command

variable {s : State} {die : Fin 4} {i : Nat} {l : AttnList} {a : AttnItem} (h : s.NextItem die i l a)

include h

theorem exec_attentionItemResult {u : State} {r : AttnDone} {f : List (Nat × Nat)}
    (hkept : (s.listSpills die l && s.spillLost die) = false) (hrun : s.runItem die a l.folded = (r, f, u))
    (hwaits : r.waits = false) : exec (.attentionItemResult die i) s =
      .next (u.endItem die i l a (s.listRows die l) (s.headDim (s.dir (hSlot a.session)).model) r f) := by
  obtain ⟨hl, hunit, hlist, rfl⟩ := h
  simp only [State.listSpills, State.spillLost] at hkept
  show execAttentionItemResult die i s = _
  rw [execAttentionItemResult, gate_live hl]
  simp only [hlist, hunit, Bool.and_false, Bool.false_eq_true, if_false, State.iff_false, hrun, hwaits, hkept]
  rfl

theorem exec_attentionItemResult_lost (hspills : s.listSpills die l = true) (hlost : s.spillLost die = true) :
    exec (.attentionItemResult die i) s = .next (s.faultSegment die Code.poisoned 0 slotP) := by
  obtain ⟨hl, hunit, hlist, rfl⟩ := h
  simp only [State.listSpills] at hspills
  simp only [State.spillLost] at hlost
  show execAttentionItemResult die i s = _
  rw [execAttentionItemResult, gate_live hl]
  simp only [hlist, hunit, Bool.and_false, Bool.false_eq_true, if_false, hspills, hlost, Bool.and_self, if_true]

end command

/-! ### What each stage leaves -/

theorem State.bytesOnly_rowState (s : State) (die : Nat) (tiles : List Nat) (rows dim : Nat) :
    s.BytesOnly (s.rowState die tiles rows dim) := by
  unfold State.rowState
  refine State.BytesOnly.trans (.foldl (fun u t => ?_) _ _) (State.BytesOnly.iff
    (f := fun u => u.undefState (u.spillRange die).1 (u.spillRange die).2) (State.bytesOnly_undefState _ _ _) _)
  split
  · exact u.bytesOnly_undefRange _
  · exact .refl u

theorem State.byte_undefRange_other (s : State) {a n b : Nat} (h : b < a ∨ a + n ≤ b) :
    (s.undefRange (a, n)).byte b = s.byte b := by
  have hlen : ((List.range n).map fun i => Config.undefByte (s.free + i)).length = n := by simp
  rw [State.undefRange, State.byte_writeBytes, if_neg (by rw [hlen]; omega)]
  rfl

theorem State.physTile_of_regs {s t : State} (h : t.regs = s.regs) (die k : Nat) : t.physTile die k = s.physTile die k := by
  unfold State.physTile State.field
  rw [State.reg_of_regs h]

/-- Rows that the accumulators hold change the accumulators of the list's tiles alone (R203). -/
theorem State.byte_rowState (s : State) {die : Nat} {tiles : List Nat} {rows dim b : Nat} (hfit : rowsSpill tiles rows dim = false)
    (hb : ∀ k ∈ tiles, ∀ p, s.physTile die k = some p → b < accAddr die p 0 ∨ accAddr die p 0 + accBytes ≤ b) :
    (s.rowState die tiles rows dim).byte b = s.byte b := by
  rw [State.rowState, hfit, State.iff_false]
  clear hfit
  induction tiles generalizing s with
  | nil => rfl
  | cons k ks ih =>
    have hk := hb k List.mem_cons_self
    have hks := fun j hj => hb j (List.mem_cons_of_mem _ hj)
    rw [List.foldl_cons]
    cases hphys : s.physTile die k with
    | none => exact ih s hks
    | some p =>
      refine (ih _ fun j hj q hq => hks j hj q ?_).trans (s.byte_undefRange_other (hk p hphys))
      rwa [State.physTile_of_regs rfl] at hq

theorem State.noteAbsent_eq (s : State) (a : AttnItem) (r : AttnDone) :
    ∃ k b, s.noteAbsent a r = { s with kvs := k, cmp.absent := b } := by
  unfold State.noteAbsent
  dsimp only
  split
  · refine List.foldlRecOn _ _ (motive := fun u : State => ∃ k b, u = { s with kvs := k, cmp.absent := b }) ⟨_, _, rfl⟩
      fun u hu n _ => ?_
    obtain ⟨k, b, rfl⟩ := hu
    exact ⟨_, _, rfl⟩
  · exact ⟨_, _, rfl⟩

theorem State.itemCounted_keeps (s : State) (a : AttnItem) (r : AttnDone) : (s.itemCounted a r).mem = s.mem ∧
    (s.itemCounted a r).tly = s.tly ∧ (s.itemCounted a r).cmp = s.cmp := by
  unfold State.itemCounted State.iff
  split <;> exact ⟨rfl, rfl, rfl⟩

theorem State.itemNoted_keeps (s : State) (a : AttnItem) (r : AttnDone) : (s.itemNoted a r).mem = s.mem ∧
    (s.itemNoted a r).tly = s.tly ∧ (s.itemNoted a r).cmp.dies = s.cmp.dies := by
  obtain ⟨k, b, hnote⟩ := s.noteAbsent_eq a r
  unfold State.itemNoted State.iff
  rw [hnote]
  split <;> simp

theorem State.lists_itemNoted (s : State) (a : AttnItem) (r : AttnDone) (die : Nat) :
    ((s.itemNoted a r).die die).lists = (s.die die).lists := by
  obtain ⟨-, -, hdies⟩ := s.itemNoted_keeps a r
  rw [State.die, hdies, State.die]

/-- Of the counts of a result, KVS.CNT8, KVS.CNT9 and KVS.CNT13. -/
theorem State.reg_itemCounted (s : State) (a : AttnItem) (r : AttnDone) {k : Nat} (hk : ItemCounter k) :
    (s.itemCounted a r).reg k = if k = Reg.kvsCnt 8 then s.reg k + 1
      else if k = Reg.kvsCnt 9 then s.reg k + BitVec.ofNat 64 r.read else s.reg k := by
  have h15 := hk.ne_kvsCnt (i := 15) (by decide)
  have h11 := hk.ne_kvsCnt (i := 11) (by decide)
  have hne : Reg.kvsCnt 8 ≠ Reg.kvsCnt 9 := by decide
  unfold State.itemCounted
  rw [State.reg_iff _ _ (State.reg_bumpBy_other _ _ _ _ h11), State.reg_bumpBy_other _ _ _ _ h15, State.bump]
  simp only [State.reg_bumpBy]
  split_ifs with h9 h8
  · exact absurd (h8.symm.trans h9) hne
  · rfl
  · rfl
  · rfl

theorem State.reg_itemNoted (s : State) (a : AttnItem) (r : AttnDone) {k : Nat} (hk : ItemCounter k) :
    (s.itemNoted a r).reg k = if r.code ≠ 0 ∧ k = Reg.kvsCnt 13 then s.reg k + 1 else s.reg k := by
  obtain ⟨x, b, hnote⟩ := s.noteAbsent_eq a r
  have hevent : ((s.noteAbsent a r).noteReport r.code a.session 0).reg k = s.reg k := by
    rw [State.noteReport, State.reg_iff _ _ (State.reg_event _ _ _ _ _ _ _ _ (by rw [hk.block]; decide)), hnote]
    rfl
  have hfail (v : State) (x : List (Word × Nat)) : ({ v.bump (Reg.kvsCnt 13) with cmp.fails := x } : State).reg k =
      (v.bump (Reg.kvsCnt 13)).reg k := State.reg_of_regs rfl k
  unfold State.itemNoted
  by_cases hcode : r.code = 0
  · rw [if_neg (by simp [hcode])]
    simpa only [hcode, ne_eq, not_true_eq_false, decide_false, State.iff_false] using hevent
  · simp only [hcode, ne_eq, not_false_eq_true, decide_true, State.iff_true, true_and]
    rw [hfail, State.bump, State.reg_bumpBy, hevent]
    rfl

/-! ### An item is done -/

/-- What the completion of a list's item shows (R193, R199, R289): the record at RESULT, the counters, the tally and the list. -/
structure State.ItemDone (s t : State) (die i : Nat) (l : AttnList) (a : AttnItem) (code read : Nat) : Prop where
  record : t.readWord (larderAddr die a.result) = (fld 63 48 code ||| fld 47 30 read ||| fld 29 12 0)
  items : t.reg (Reg.kvsCnt 8) = s.reg (Reg.kvsCnt 8) + 1
  spans : t.reg (Reg.kvsCnt 9) = s.reg (Reg.kvsCnt 9) + BitVec.ofNat 64 read
  failed : t.reg (Reg.kvsCnt 13) = s.reg (Reg.kvsCnt 13) + if code ≠ 0 then 1 else 0
  tally : a.tally % 1024 ≠ 1023 → t.tally a.tally = s.tally a.tally + 1
  next : 1 < l.left → ∃ l' : AttnList, (t.die die).lists[i]? = some l' ∧ l'.at_ = l.at_ + 64 ∧ l'.left = l.left - 1 ∧
    l'.tiles = l.tiles
  last : l.left ≤ 1 → (t.die die).lists = (s.die die).lists.eraseIdx i

theorem length_resultWords (r : AttnDone) : (resultWords r).length = 8 := by simp [resultWords]

section ends

variable {s u : State} {die i : Nat} {l : AttnList} {a : AttnItem} {rows dim : Nat} {r : AttnDone} {folded : List (Nat × Nat)}

/-- The bytes after a completion: those of its record over those of the rows' state. -/
theorem State.mem_endItem : (u.endItem die i l a rows dim r folded).mem =
    ((u.rowState die l.tiles rows dim).writeWords (larderAddr die a.result) (resultWords r)).mem := by
  have hlist (v : State) : (v.listAdvanced die i l folded).mem = v.mem := rfl
  simp only [State.endItem, State.raise_frame, hlist, State.itemNoted_keeps, State.itemCounted_keeps]

theorem State.byte_endItem_other {b : Nat} (h : b < larderAddr die a.result ∨ larderAddr die a.result + 64 ≤ b) :
    (u.endItem die i l a rows dim r folded).byte b = (u.rowState die l.tiles rows dim).byte b := by
  rw [State.byte, State.mem_endItem, ← State.byte]
  exact State.byte_writeWords_other _ (by rwa [length_resultWords])

theorem State.record_endItem : (u.endItem die i l a rows dim r folded).readWord (larderAddr die a.result) =
    (fld 63 48 r.code ||| fld 47 30 r.read ||| fld 29 12 r.absent.length) := by
  have hbyte (b : Nat) : (u.endItem die i l a rows dim r folded).byte b =
      ((u.rowState die l.tiles rows dim).writeWords (larderAddr die a.result) (resultWords r)).byte b := by
    rw [State.byte, State.mem_endItem, ← State.byte]
  rw [State.readWord, State.readNat_congr fun _ _ => hbyte _]
  have hfirst := State.readWord_writeWords (u.rowState die l.tiles rows dim) (larderAddr die a.result)
    (ws := resultWords r) (i := 0) (by rw [length_resultWords]; decide)
  rwa [Nat.mul_zero, Nat.add_zero] at hfirst

theorem State.reg_endItem {k : Nat} (hk : ItemCounter k) : (u.endItem die i l a rows dim r folded).reg k =
    ((u.itemCounted a r).itemNoted a r).reg k := by
  have hoff : OffQueues k := by
    have := hk.block
    unfold OffQueues
    omega
  have hlist (v : State) : (v.listAdvanced die i l folded).reg k = v.reg k := rfl
  have hrows : ((u.rowState die l.tiles rows dim).writeWords (larderAddr die a.result) (resultWords r)).reg k = u.reg k :=
    (State.reg_of_regs (State.writeWords_regs _ _ _) k).trans (((u.bytesOnly_rowState die l.tiles rows dim).sameItem die).regs k hk)
  rw [State.endItem, State.reg_raise _ _ hoff, hlist, State.reg_itemNoted _ _ _ hk, State.reg_itemCounted _ _ _ hk, hrows,
    State.reg_itemNoted _ _ _ hk, State.reg_itemCounted _ _ _ hk]

theorem State.tally_endItem (h : a.tally % 1024 ≠ 1023) :
    (u.endItem die i l a rows dim r folded).tally a.tally = u.tally a.tally + 1 := by
  have hrows := ((u.bytesOnly_rowState die l.tiles rows dim).sameItem die).tly
  have hlist (v : State) : (v.listAdvanced die i l folded).tly = v.tly := rfl
  rw [State.endItem, State.tally_raise _ (decide_eq_false h), State.tally, hlist, (State.itemNoted_keeps _ _ _).2.1,
    (State.itemCounted_keeps _ _ _).2.1, State.writeWords_tly, hrows, ← State.tally]

theorem State.lists_endItem : ((u.endItem die i l a rows dim r folded).die die).lists =
    if l.left ≤ 1 then (u.die die).lists.eraseIdx i
    else (u.die die).lists.set i { l with at_ := l.at_ + 64, left := l.left - 1, folded := folded } := by
  have hrows := ((u.bytesOnly_rowState die l.tiles rows dim).sameItem die).lists
  have hraise (v : State) : (v.raise a.tally).cmp = v.cmp := by simp only [State.raise_frame]
  have hcounted (v : State) : ((v.itemCounted a r).die die).lists = (v.die die).lists := by
    rw [State.die, (v.itemCounted_keeps a r).2.2, State.die]
  rw [State.endItem, State.die, hraise, ← State.die, State.listAdvanced, State.die_setDie_same]
  simp only [State.lists_itemNoted, hcounted]
  rw [State.die, State.writeWords_cmp, ← State.die, hrows]

theorem State.SameItem.itemDone (h : s.SameItem u die) (hlist : (s.die die).lists[i]? = some l) (habsent : r.absent = []) :
    s.ItemDone (u.endItem die i l a rows dim r folded) die i l a r.code r.read where
  record := by
    rw [State.record_endItem, habsent]
    rfl
  items := by
    have hk : ItemCounter (Reg.kvsCnt 8) := .inl rfl
    rw [State.reg_endItem hk, State.reg_itemNoted _ _ _ hk, State.reg_itemCounted _ _ _ hk, h.regs _ hk, if_pos rfl,
      if_neg fun e => absurd e.2 (by decide)]
  spans := by
    have hk : ItemCounter (Reg.kvsCnt 9) := .inr (.inl rfl)
    rw [State.reg_endItem hk, State.reg_itemNoted _ _ _ hk, State.reg_itemCounted _ _ _ hk, h.regs _ hk,
      if_neg fun e => absurd e.2 (by decide), if_neg (by decide), if_pos rfl]
  failed := by
    have hk : ItemCounter (Reg.kvsCnt 13) := .inr (.inr rfl)
    rw [State.reg_endItem hk, State.reg_itemNoted _ _ _ hk, State.reg_itemCounted _ _ _ hk, h.regs _ hk,
      if_neg (show ¬ Reg.kvsCnt 13 = Reg.kvsCnt 8 by decide), if_neg (show ¬ Reg.kvsCnt 13 = Reg.kvsCnt 9 by decide)]
    by_cases hcode : r.code = 0
    · simp [hcode]
    · simp [hcode]
  tally := fun hreclaim => by rw [State.tally_endItem hreclaim, State.tally, h.tly, ← State.tally]
  next := fun hleft => by
    obtain ⟨hi, -⟩ := List.getElem?_eq_some_iff.1 hlist
    refine ⟨{ l with at_ := l.at_ + 64, left := l.left - 1, folded := folded }, ?_, rfl, rfl, rfl⟩
    rw [State.lists_endItem, if_neg (by omega), h.lists, List.getElem?_set_self hi]
  last := fun hleft => by rw [State.lists_endItem, if_pos hleft, h.lists]

end ends

end Sys2Proof.Machine
end

section
/-! ### Attention items and rankings (R190 to R203, R289, R486, R694) -/

namespace Sys2Proof.Machine

open Sys2Proof

section list

variable {s : State} {die : Fin 4} {i : Nat} {l : AttnList} {a : AttnItem} (h : s.NextItem die i l a)

include h

/-- A spill area that the rows need and that cannot be read ends the segment (R203, R694). -/
theorem does_attentionItemResult_lost (hspills : s.listSpills die l = true) (hlost : s.spillLost die = true)
    (hfirst : (s.die die).first = false) : Does (.attentionItemResult die i) s fun t => (t.die die).state = .idle ∧
      ∃ e, t.flt.discards = s.flt.discards ++ [e] ∧ e.die = die.val ∧ e.item = (s.die die).item ∧ e.code = Code.poisoned :=
  ⟨_, exec_attentionItemResult_lost h hspills hlost, (s.faultSegment_idle _ _ _ _).1,
    s.faultSegment_discards _ _ _ _ hfirst⟩

variable (hkept : s.listSpills die l = false ∨ s.spillLost die = false)

include hkept

/-- A run of the item that is done shows its result; its bytes are the record, the accumulators and what the run has written. -/
theorem does_attentionItemResult {u : State} {r : AttnDone} {f : List (Nat × Nat)} (hrun : s.runItem die a l.folded = (r, f, u))
    (hwaits : r.waits = false) (habsent : r.absent = []) (hsame : s.SameItem u die) :
    Does (.attentionItemResult die i) s fun t => s.ItemDone t die i l a r.code r.read ∧ (s.listSpills die l = false → ∀ b,
      (b < larderAddr die a.result ∨ larderAddr die a.result + 64 ≤ b) →
        (∀ k ∈ l.tiles, ∀ p, u.physTile die k = some p → b < accAddr die p 0 ∨ accAddr die p 0 + accBytes ≤ b) →
          t.byte b = u.byte b) := by
  have hspill : (s.listSpills die l && s.spillLost die) = false := Bool.and_eq_false_iff.2 hkept
  refine ⟨_, exec_attentionItemResult h hspill hrun hwaits, hsame.itemDone h.list habsent, ?_⟩
  intro hfit b hrecord htiles
  rw [State.listSpills, h.item] at hfit
  rw [State.byte_endItem_other hrecord, State.byte_rowState _ hfit htiles]

/-- An item that fails its checks reads nothing, and writes its record and the accumulators alone (R192). -/
theorem does_attentionItemResult_refused (hcode : s.attnCode a ≠ 0) : Does (.attentionItemResult die i) s fun t =>
    s.ItemDone t die i l a (s.attnCode a) 0 ∧ (s.listSpills die l = false → ∀ b,
      (b < larderAddr die a.result ∨ larderAddr die a.result + 64 ≤ b) →
        (∀ k ∈ l.tiles, ∀ p, s.physTile die k = some p → b < accAddr die p 0 ∨ accAddr die p 0 + accBytes ≤ b) →
          t.byte b = s.byte b) := by
  have hrun := State.runItem_refused (die := die.val) (folded := l.folded) hcode
  have hsame : s.SameItem (s.noteStale (s.attnCode a)) die :=
    .iff (.bumpBy s _ (k := Reg.hmpCnt 7) (fun hk => absurd hk.block (by decide)) 1) _
  have hphys (k : Nat) : (s.noteStale (s.attnCode a)).physTile die k = s.physTile die k := by
    have hne : Reg.tileMap (4 * die + k / 8) ≠ Reg.hmpCnt 7 := by
      unfold Reg.tileMap Reg.hmpCnt
      omega
    unfold State.physTile State.field
    rw [State.noteStale, State.reg_iff _ _ (State.reg_bump_other _ _ _ hne)]
  have hbyte (b : Nat) : (s.noteStale (s.attnCode a)).byte b = s.byte b := by
    rw [State.byte, show (s.noteStale (s.attnCode a)).mem = s.mem by simp only [State.noteStale_frame], ← State.byte]
  obtain ⟨t, ht, hdone, hbytes⟩ := does_attentionItemResult h hkept hrun rfl rfl hsame
  refine ⟨t, ht, hdone, fun hfit b hrecord htiles => ?_⟩
  rw [hbytes hfit b hrecord fun k hk p hp => htiles k hk p (hphys k ▸ hp), hbyte]

variable (hcode : s.attnCode a = 0) (hcls : a.cls = 1) (hstats : a.stats = false) (hback : a.back = false)

include hcode hcls hstats hback

/-- An exact item whose spans are all present reads every one (R197, R201). -/
theorem does_attentionItemResult_present {spans : List Nat} {u v : State} {ks : List KeySrc} {f : List (Nat × Nat)}
    (hch : s.chooseExact die (hSlot a.session) a = (spans, [], u))
    (hread : readBlocks die (hSlot a.session) a.layer a.head a.fold spans l.folded [] u = (.ok ks, f, v)) :
    Does (.attentionItemResult die i) s fun t => s.ItemDone t die i l a 0 (srcSpans ks) ∨
      s.ItemDone t die i l a Code.attnEmpty (srcSpans ks) := by
  obtain ⟨code, nans, w, hrun, hempty, hbytes⟩ := State.runItem_present hcode hcls hstats hback hch hread
  have hchosen : s.SameItem u die := by
    have := s.sameItem_chooseExact die (hSlot a.session) a
    rwa [hch] at this
  have hblocks : u.SameItem v die := by
    have := sameItem_readBlocks die (hSlot a.session) a.layer a.head a.fold spans l.folded [] u
    rwa [hread] at this
  obtain ⟨t, ht, hdone, -⟩ :=
    does_attentionItemResult h hkept hrun rfl rfl ((hchosen.trans hblocks).trans (hbytes.sameItem die))
  refine ⟨t, ht, ?_⟩
  rcases hempty with rfl | rfl
  · exact .inl hdone
  · exact .inr hdone

/-- An exact item with an absent span fails without reading (R199). -/
theorem does_attentionItemResult_absent {spans ms : List Nat} {m : Nat} {u : State}
    (hch : s.chooseExact die (hSlot a.session) a = (spans, m :: ms, u)) :
    Does (.attentionItemResult die i) s fun t => s.ItemDone t die i l a Code.attnAbsent 0 := by
  have hchosen : s.SameItem u die := by
    have := s.sameItem_chooseExact die (hSlot a.session) a
    rwa [hch] at this
  obtain ⟨t, ht, hdone, -⟩ :=
    does_attentionItemResult h hkept (State.runItem_absent hcode hcls hstats hback hch) rfl rfl hchosen
  exact ⟨t, ht, hdone⟩

end list

/-- Settles O27: the item of a list refused, run over present spans, run over absent ones and lost, then the rankings. -/
theorem attentionAndRanking : Obligations.AttentionAndRanking := by
  unfold Obligations.AttentionAndRanking
  refine ⟨fun s die i l hl hu hlist => ?_, fun s die id slot layer head first tail newest commit k sketch hl hu => ?_⟩
  · have h : s.NextItem die i l (s.listItem die l 0) := ⟨hl, hu, hlist, rfl⟩
    refine ⟨fun hkept => ⟨fun hcode => ?_, fun hcode hcls hstats hback => ⟨fun spans u ks f v hch hread => ?_,
      fun spans m ms u hch => ?_⟩⟩, does_attentionItemResult_lost h⟩
    · obtain ⟨t, ht, hdone, hbytes⟩ := does_attentionItemResult_refused h hkept hcode
      have hfailed := hdone.failed
      rw [if_pos hcode] at hfailed
      exact ⟨t, ht, ⟨hdone.record, hdone.items, hdone.spans, hdone.tally, hdone.next, hdone.last⟩, hfailed, hbytes⟩
    · obtain ⟨t, ht, hdone⟩ := does_attentionItemResult_present h hkept hcode hcls hstats hback hch hread
      refine ⟨t, ht, hdone.imp ?_ ?_⟩
      · exact fun h => ⟨h.record, h.items, h.spans, h.tally, h.next, h.last⟩
      · exact fun h => ⟨h.record, h.items, h.spans, h.tally, h.next, h.last⟩
    · obtain ⟨t, ht, hdone⟩ := does_attentionItemResult_absent h hkept hcode hcls hstats hback hch
      exact ⟨t, ht, hdone.record, hdone.items, hdone.spans, hdone.tally, hdone.next, hdone.last⟩
  · exact ⟨does_rankRequest hl hu, does_rankRequest_waits hl hu, fun r hr => does_rankContinuation hl hu hr,
      does_rankRelease hl hu⟩

end Sys2Proof.Machine
end

section
/-! ### The composition map is only read by the units (R583)

No access to memory, end of a ferry or span request, or scatter changes the map. -/

namespace Sys2Proof.Machine

open Sys2Proof

theorem State.iff_comp {s : State} {f : State → State} (h : (f s).comp = s.comp) (b : Bool) : (s.iff b f).comp = s.comp := by
  cases b
  · rfl
  · exact h

/-! #### Ends of span and ferry requests -/

theorem State.postResult_comp (s : State) (q tally : Nat) (it : Item) : (s.postResult q tally it).comp = s.comp := by
  simp only [State.postResult, State.post_frame, State.noteReport_frame]

theorem State.mergeSpan_comp (s : State) (cmd ringPos : Nat) (r : SMap Outcome1) (base : Nat → Nat) :
    (s.mergeSpan cmd ringPos r base).comp = s.comp := by
  unfold State.mergeSpan
  dsimp only
  split
  · rfl
  · split
    · simp only [State.complete_frame, State.noteReport_frame]
    · rfl

theorem State.endSpanReq_comp (s : State) (r : SpanReq) : (s.endSpanReq r).comp = s.comp := by
  unfold State.endSpanReq
  dsimp only
  split
  · rw [State.postResult_comp]
  · rw [State.mergeSpan_comp]
  · rfl
  · rfl

theorem State.spanFerries_comp (s : State) (id : Nat) (pages : SMap Outcome1) : (s.spanFerries id pages).comp = s.comp := by
  unfold State.spanFerries
  split
  · rfl
  · next r _ =>
    obtain ⟨g, k, hfold⟩ := refreshRes_fold_keeps r.slot (((List.range r.count).map (r.first + ·)).filter fun n =>
      (SMap.lookup r.results n).isNone) s
    rw [State.endSpanReq_comp, hfold]

theorem State.reviveShare_comp (s : State) (slot : Nat) (pages : SMap Outcome1) : (s.reviveShare slot pages).comp = s.comp := by
  obtain ⟨g, k, hfold⟩ := refreshRes_fold_keeps slot (List.range (s.hdr slot).spans) s
  unfold State.reviveShare
  dsimp only
  rw [hfold]
  split
  · split <;> rfl
  · split
    · rfl
    · simp only [State.send_frame]
      split <;> rfl

theorem writeListPages_comp (n p : Nat) (ws : List Word) (s : State) : (writeListPages n p ws s).comp = s.comp := by
  induction n generalizing p ws s with
  | zero => rfl
  | succ n ih => exact ih _ _ _

theorem State.stamp_comp (s : State) (receiver : Nat) (it : Item) : (s.stamp receiver it).2.comp = s.comp := rfl

theorem State.pushTransfer_comp (s : State) (slot peer : Nat) (target : Word) : (s.pushTransfer slot peer target).comp = s.comp := by
  generalize hpush : s.pushTransfer slot peer target = t
  rw [State.pushTransfer] at hpush
  generalize (s.dir slot).header :: (s.dataPages slot).map (fun p => 65536 * p) = list at hpush
  generalize ceilDiv (8 * list.length) 65536 = k at hpush
  split at hpush
  · next u hu =>
    obtain ⟨x, m, rfl⟩ := mapRun_keeps hu
    have hlist := writeListPages_comp k s.tsm.nextVa (list.map fun a => BitVec.ofNat 64 a) { s with tsm := x, mem := m }
    generalize writeListPages k s.tsm.nextVa _ _ = v at hlist hpush
    dsimp only at hpush
    generalize hr : v.stamp _ _ = r at hpush
    have hstamp : r.2.comp = v.comp := by rw [← hr, State.stamp_comp]
    subst hpush
    simp only [State.hwPush_frame, hstamp, hlist]
  · subst hpush
    rfl

theorem State.endFerry_comp (s : State) (r : FerryReq) : (s.endFerry r).comp = s.comp := by
  unfold State.endFerry
  dsimp only
  split
  · rw [State.postResult_comp]
  · simp only [State.complete_frame, State.noteReport_frame]
  · rw [State.spanFerries_comp]
  · rw [State.reviveShare_comp]
  · split
    · rfl
    · rw [State.pushTransfer_comp]
  · rw [State.iff_comp rfl]
    split
    · rw [State.refreshRes, State.iff_comp rfl]
    · rfl
  · split <;> rfl
  · rfl

theorem State.endPage_comp (s : State) (req p : Nat) (o : Outcome1) : (s.endPage req p o).comp = s.comp := by
  have hbump : (s.iff (isAbandoned o) fun s => s.bump (Reg.tsmCnt 5)).comp = s.comp := State.iff_comp rfl _
  unfold State.endPage
  dsimp only
  split
  · exact hbump
  · split
    · rw [State.endFerry_comp, hbump]
    · exact hbump

theorem State.giveBack_comp (s : State) (t : Tier) (loc : Nat) : (s.giveBack t loc).comp = s.comp := by
  unfold State.giveBack
  split <;> rfl

theorem State.dropClaim_comp (s : State) (p : Nat) (o : Outcome1) (poison : Bool) : (s.dropClaim p o poison).comp = s.comp := by
  unfold State.dropClaim
  split
  · rfl
  · dsimp only
    rw [State.endPage_comp]
    split
    · rfl
    · rw [State.giveBack_comp]
      rfl

/-! #### Accesses -/

theorem State.intent_comp (s : State) (cache p : Nat) : (s.intent cache p).comp = s.comp := by
  have hcopy (u : State) : (u.askCopy p).comp = u.comp := by
    unfold State.askCopy
    split <;> rfl
  have hfill (u : State) : (u.fillTlb cache p).comp = u.comp := State.iff_comp rfl _
  have hprotected (u : State) : (if (u.leaf p).wp then u.askCopy p else u.fillTlb cache p).comp = u.comp := by
    split
    · exact hcopy u
    · exact hfill u
  unfold State.intent
  dsimp only
  rw [hprotected]
  split
  · exact s.dropClaim_comp _ _ _
  · rfl

theorem State.translate_comp (s : State) (cache addr : Nat) (write data : Bool) :
    (s.translate cache addr write data).2.comp = s.comp := by
  have htouch (u : State) (p : Nat) : (u.touch p).comp = u.comp := State.iff_comp rfl _
  unfold State.translate
  split
  · rfl
  · dsimp only
    split
    · exact htouch _ _
    · split
      · rfl
      · next l u hfilled =>
        have hu : u.comp = s.comp := by
          split at hfilled
          · cases hfilled
            rfl
          · split at hfilled
            · cases hfilled
            · cases hfilled
              rfl
        have hwrite : (if write = true then (u.touch (addr / 65536)).dropAhead (addr / 65536) else u.touch (addr / 65536)).comp =
            s.comp := by
          split
          · exact (htouch _ _).trans hu
          · exact (htouch _ _).trans hu
        split
        · rw [State.intent_comp, hwrite]
        · exact hwrite

theorem State.countPool_comp (s : State) (t : Tier) (w : Bool) (n : Nat) : (s.countPool t w n).comp = s.comp :=
  State.iff_comp rfl _

theorem readPieces_comp (cache : Nat) (ps : List (Nat × Nat × Nat)) (s : State) : (readPieces cache ps s).2.comp = s.comp := by
  induction ps generalizing s with
  | nil => rfl
  | cons p ps ih =>
    obtain ⟨a, off, n⟩ := p
    have htr := s.translate_comp cache a false true
    unfold readPieces
    split
    · next e => rwa [e] at htr
    · next e => rwa [e] at htr
    · next t loc u e =>
      rw [e] at htr
      have hrest : (readPieces cache ps (u.countPool t false n)).2.comp = s.comp := by
        rw [ih, State.countPool_comp, htr]
      dsimp only
      split
      · exact htr
      · split
        · exact htr
        · split
          · next e' => rwa [e'] at hrest
          · exact hrest

theorem State.getBytes_comp (s : State) (cache addr n : Nat) : (s.getBytes cache addr n).2.comp = s.comp := by
  unfold State.getBytes
  split
  · rfl
  · exact readPieces_comp _ _ _

/-! #### Scatters (R166 to R170) -/

theorem State.moverWrite_comp (s : State) (cache addr n : Nat) : (s.moverWrite cache addr n).2.comp = s.comp := by
  have hpart (u : State) (t : Tier) (off k : Nat) : (u.partWrite t off k).comp = u.comp := by
    unfold State.partWrite
    dsimp only
    split <;> rfl
  have htr := s.translate_comp cache addr true true
  unfold State.moverWrite
  split
  · next e => rwa [e] at htr
  · next e => rwa [e] at htr
  · next t loc u e =>
    rw [e] at htr
    split
    · exact htr
    · rw [hpart, State.countPool_comp, htr]

theorem rowLoop_comp (die base fmt dim i a : Nat) (e : Int) (js : List Nat) (n : Nat × Nat) (s : State) :
    (rowLoop die base fmt dim i a e js n s).2.comp = s.comp := by
  induction js generalizing n s with
  | nil => rfl
  | cons j js ih => exact ih _ _

theorem State.openBlock_comp (s : State) (die slot n : Nat) (d : Desc) (first count : Nat) :
    (s.openBlock die slot n d first count).comp = s.comp := State.setSide_comp _ _ _ _ _

theorem State.sketch_comp (s : State) (slot n layer head : Nat) : (s.sketch slot n layer head).2.comp = s.comp := by
  simp only [State.sketch, State.projBits]

theorem scatterRows_comp (die cache slot : Nat) (d : Desc) (is : List Nat) (s : State) :
    (scatterRows die cache slot d is s).2.comp = s.comp := by
  have hmove {u v : State} {addr n : Nat} {r : Except Nat Nat} (e : u.moverWrite cache addr n = (r, v)) : v.comp = u.comp := by
    rw [← State.moverWrite_comp u cache addr n, e]
  induction is generalizing s with
  | nil => rfl
  | cons i is ih =>
    unfold scatterRows
    dsimp only
    split
    · next e => exact hmove e
    · next u e =>
      have hopen (first count : Nat) : (if (d.pos + i) % 256 = 0 then
          u.openBlock die slot ((d.pos + i) / 256) d first count else u).comp = s.comp := by
        split
        · rw [State.openBlock_comp, hmove e]
        · exact hmove e
      split
      · next e' => exact (hmove e').trans (hopen _ _)
      · next v e' =>
        split
        · next e'' => exact (hmove e'').trans ((hmove e').trans (hopen _ _))
        · next w e'' =>
          have hw : w.comp = s.comp := (hmove e'').trans ((hmove e').trans (hopen _ _))
          rw [ih]
          split
          · simp only [State.setSide_comp, State.sketch_comp, State.bumpBy_comp, State.bump_comp, rowLoop_comp, hw]
          · simp only [State.setSide_comp, State.bumpBy_comp, State.bump_comp, rowLoop_comp, hw]

theorem readEntries_comp (die slot : Nat) (ns : List Nat) (s : State) : (readEntries die slot ns s).2.comp = s.comp := by
  induction ns generalizing s with
  | nil => rfl
  | cons n ns ih => exact ih _

theorem State.scatterOne_comp (s : State) (die at_ : Nat) (bad : Option Nat) : (s.scatterOne die at_ bad).comp = s.comp := by
  have hfailed (u : State) (d : Desc) (code : Nat) : (u.descFailed d code).comp = u.comp := by
    unfold State.descFailed
    split_ifs <;> rfl
  have hcode (d : Desc) : (s.descCode die d).2.comp = s.comp := by
    unfold State.descCode
    dsimp only
    split
    · rfl
    · exact readEntries_comp _ _ _ _
  have hword (u : State) (a : Nat) (w : Word) : (u.writeWord a w).comp = u.comp := rfl
  unfold State.scatterOne
  simp only [State.raise_frame, State.noteReport_frame, hfailed, hword]
  split
  · simp only [State.noteStale_frame, hcode]
  · split
    · exact hcode _
    · rw [scatterRows_comp, hcode]

theorem scatterLoop_comp (die at_ : Nat) (bad : Option (Nat × Nat)) (is : List Nat) (s : State) :
    (scatterLoop die at_ bad is s).comp = s.comp := by
  induction is generalizing s with
  | nil => rfl
  | cons i is ih => exact (ih _).trans (State.scatterOne_comp _ _ _ _)

end Sys2Proof.Machine
end

section
/-! ### Ring reductions (R207 to R210) -/

namespace Sys2Proof.Machine

open Sys2Proof

/-! #### Halves of a reduction -/

section half

variable (r : Reduction) (cw : Bool) (h : RedHalf)

theorem Reduction.half_setHalf_same : (r.setHalf cw h).half cw = h := by cases cw <;> rfl

theorem Reduction.half_setHalf_other : (r.setHalf cw h).half (!cw) = r.half (!cw) := by cases cw <;> rfl

theorem Reduction.id_setHalf : (r.setHalf cw h).id = r.id := by cases cw <;> rfl

end half

/-- A stage's chunk in each vector of a half (R208): in the first half of the stages the sum of the own and the received element, in
the second the received one. -/
theorem RedHalf.take_getElem? (h : RedHalf) (pos m : Nat) (vals : List F32) (now k : Nat) {y : List F32} (hy : h.y[k]? = some y) :
    let c := recvChunk pos m h.stage
    let own := chunkOf y m c
    (h.take pos m vals now).y[k]? = some (setChunk y m c ((List.range own.length).map fun i =>
      if h.stage + 1 < m then f32Add (own.getD i 0) (vals.getD (k * own.length + i) 0) else vals.getD (k * own.length + i) 0)) := by
  intro c own
  have hgot (n i : Nat) (hi : i < n) : ((vals.drop (k * n)).take n).getD i 0 = vals.getD (k * n + i) 0 := by
    rw [List.getD_eq_getElem?_getD, List.getElem?_take_of_lt hi, List.getElem?_drop, ← List.getD_eq_getElem?_getD]
  have hstage : (h.stage < m - 1) ↔ (h.stage + 1 < m) := by omega
  simp only [RedHalf.take, List.getElem?_map, List.getElem?_zipIdx, hy, Option.map_some, Nat.zero_add]
  refine congrArg (fun v => some (setChunk y m c v)) (List.map_congr_left fun i hi => ?_)
  rw [hgot own.length i (List.mem_range.1 hi)]
  simp only [hstage]
  rfl

/-! #### Chunks sent to a neighbour -/

theorem State.reg_sendFrames (s : State) (w : Word) (cls : Nat) (l : List FrameHead) {k : Nat} (hk : OffTrail k) :
    (s.sendFrames w cls l).reg k = s.reg k := by
  induction l generalizing s with
  | nil => rfl
  | cons f fs ih =>
    have htag (u : State) (flags : Nat) : (u.sendTagged f w cls flags).reg k = u.reg k := State.reg_sendFrame hk _ _
    cases fs with
    | nil => exact htag _ _
    | cons g gs => exact (ih _).trans (htag _ _)

theorem State.sendHalf_cmp (s : State) (r : Reduction) (cw : Bool) : (s.sendHalf r cw).cmp = s.cmp := by
  unfold State.sendHalf
  dsimp only
  split
  · rfl
  · simp only [State.sendChunk, State.sendFrames_frame]
    rfl

theorem State.reg_sendHalf (s : State) (r : Reduction) (cw : Bool) {k : Nat} (hk : OffTrail k) :
    (s.sendHalf r cw).reg k = s.reg k := by
  unfold State.sendHalf
  dsimp only
  split
  · rfl
  · exact State.reg_sendFrames (s.emit _) _ _ _ hk

/-! #### The list of reductions -/

theorem State.find?_setReduction (s : State) (r : Reduction) :
    (s.setReduction r).cmp.reductions.find? (fun x => x.id = r.id) = some r := by
  rw [show (s.setReduction r).cmp.reductions = (s.cmp.reductions.filter fun x => x.id ≠ r.id) ++ [r] from rfl, List.find?_append,
    List.find?_eq_none.2 fun x hx => by simpa using (List.mem_filter.1 hx).2]
  simp

theorem State.setReduction_only (s : State) {r x : Reduction} (hs : s.cmp.reductions = [r]) (hid : x.id = r.id) :
    (s.setReduction x).cmp.reductions = [x] := by
  rw [show (s.setReduction x).cmp.reductions = (s.cmp.reductions.filter fun y => y.id ≠ x.id) ++ [x] from rfl, hs]
  simp [hid]

theorem State.endReduction_cmp (s : State) (r : Reduction) : (s.endReduction r).cmp = s.cmp := rfl

theorem State.reg_endReduction (s : State) (r : Reduction) : (s.endReduction r).reg (Reg.kvsCnt 14) = s.reg (Reg.kvsCnt 14) + 1 := by
  have hwrite : (s.endReduction r).regs = (s.bump (Reg.kvsCnt 14)).regs := State.writeBytes_regs _ _ _
  rw [State.reg_of_regs hwrite, State.reg_bump_same]

/-! #### REDUCE_STAGE and REDUCE_TIMEOUT -/

section reduce

variable {s : State} {id : Nat} {die : Fin 4} (hl : s.live = true)

include hl

/-- A reduction starts over the module's own partial vectors, the larger half of the positions clockwise (R207, R208). -/
theorem does_reduceStage_start {positions width model rows proj dest : Nat} (hm : 2 ≤ s.comp.map.modules)
    (hmodel : model % s.comp.map.modules = 0) (hpos : 0 < positions) (hnew : ∀ x ∈ s.cmp.reductions, x.id ≠ id) :
    Does (.reduceStage id die (.start positions width model rows proj dest)) s fun t =>
      ∃ r, t.cmp.reductions.find? (fun x => x.id = id) = some r ∧ r.die = die.val ∧ r.pos = s.comp.map.ringPos ∧
        r.count = s.comp.map.modules ∧ r.started = true ∧ r.dest = dest ∧
        r.cw = { y := (s.partials die.val positions width model rows proj).take (positions - positions / 2), sinceNs := s.now } ∧
        r.ccw = { y := (s.partials die.val positions width model rows proj).drop (positions - positions / 2), sinceNs := s.now } := by
  let r : Reduction := {
    id := id, die := die.val, pos := s.comp.map.ringPos, count := s.comp.map.modules, started := true, dest := dest
    cw := { y := (s.partials die.val positions width model rows proj).take (positions - positions / 2), sinceNs := s.now }
    ccw := { y := (s.partials die.val positions width model rows proj).drop (positions - positions / 2), sinceNs := s.now } }
  have hfind : s.cmp.reductions.find? (fun x => x.id = id) = none := List.find?_eq_none.2 (by simpa using hnew)
  have hlen : (s.partials die.val positions width model rows proj).length = positions := by simp [State.partials]
  have hdone : r.done = false := by
    have hy : r.cw.y ≠ [] := List.ne_nil_of_length_pos (by rw [List.length_take, hlen]; omega)
    have hcw : r.cw.done r.count = false := by
      rw [RedHalf.done, List.isEmpty_eq_false_iff.2 hy, Bool.false_or]
      exact decide_eq_false (by show ¬ 2 * (s.comp.map.modules - 1) ≤ 0; omega)
    rw [Reduction.done, hcw, Bool.and_false, Bool.false_and]
  refine ⟨((({ s with free := s.free + positions * model } : State).setReduction r).sendHalf r true).sendHalf r false, ?_, r, ?_,
    rfl, rfl, rfl, rfl, rfl, rfl, rfl⟩
  · show execReduceStage id die (.start positions width model rows proj dest) s = _
    rw [execReduceStage, gate_live hl]
    dsimp only
    rw [hfind]
    simp only [hmodel, ne_eq, not_true_eq_false, decide_false, Option.any_none, Bool.or_self, Bool.false_eq_true, if_false,
      Option.map_none, Option.getD_none]
    exact congrArg _ (if_neg (Bool.eq_false_iff.1 hdone))
  · rw [State.sendHalf_cmp, State.sendHalf_cmp]
    exact State.find?_setReduction _ r

/-- A chunk that comes before the module's own partials is held (R208). -/
theorem does_reduceStage_early {cw : Bool} {vals : List F32} (hnone : s.cmp.reductions = []) :
    Does (.reduceStage id die (.chunk cw vals)) s fun t =>
      ∃ r, t.cmp.reductions = [r] ∧ r.id = id ∧ r.started = false ∧ r.inbox = [(cw, vals)] := by
  let r : Reduction := { id := id, die := die.val, pos := s.comp.map.ringPos, count := s.comp.map.modules, inbox := [(cw, vals)] }
  refine ⟨s.setReduction r, ?_, r, ?_, rfl, rfl, rfl⟩
  · show execReduceStage id die (.chunk cw vals) s = _
    rw [execReduceStage, gate_live hl]
    dsimp only
    rw [hnone]
    rfl
  · show (s.cmp.reductions.filter fun x => x.id ≠ r.id) ++ [r] = [r]
    rw [hnone]
    rfl

section one

variable {r : Reduction} (hone : s.cmp.reductions = [r]) (hid : r.id = id) (hstarted : r.started = true)

include hone hid hstarted

theorem exec_reduceStage_chunk (cw : Bool) (vals : List F32) :
    exec (.reduceStage id die (.chunk cw vals)) s = .next (s.reduceChunk r cw vals) := by
  show execReduceStage id die (.chunk cw vals) s = _
  rw [execReduceStage, gate_live hl]
  simp only [hone, hid, hstarted, List.find?_cons, decide_true, if_true]

/-- A stage's chunk joins its half, and the last stage of both halves counts the reduction (R208, R209). -/
theorem does_reduceStage_chunk {cw : Bool} {vals : List F32} (hdone : (r.half cw).done r.count = false) :
    Does (.reduceStage id die (.chunk cw vals)) s fun t => ∃ x, t.cmp.reductions = [x] ∧
      x.half cw = (r.half cw).take (ringPos r.pos r.count cw) r.count vals s.now ∧ x.half (!cw) = r.half (!cw) ∧
      t.reg (Reg.kvsCnt 14) = s.reg (Reg.kvsCnt 14) + (if x.done then 1 else 0) := by
  let x := r.setHalf cw ((r.half cw).take (ringPos r.pos r.count cw) r.count vals s.now)
  have hsent : ((s.setReduction x).sendHalf x cw).cmp.reductions = [x] := by
    rw [State.sendHalf_cmp]
    exact s.setReduction_only hone (r.id_setHalf cw _)
  have hreg : ((s.setReduction x).sendHalf x cw).reg (Reg.kvsCnt 14) = s.reg (Reg.kvsCnt 14) :=
    State.reg_sendHalf (s.setReduction x) x cw (k := Reg.kvsCnt 14) (by unfold OffTrail; decide)
  have hchunk : s.reduceChunk r cw vals = if x.done then ((s.setReduction x).sendHalf x cw).endReduction x
      else (s.setReduction x).sendHalf x cw := by
    unfold State.reduceChunk
    exact if_neg (by rw [hdone]; decide)
  refine ⟨_, exec_reduceStage_chunk hl hone hid hstarted cw vals, x, ?_, r.half_setHalf_same cw _, r.half_setHalf_other cw _, ?_⟩
  · rw [hchunk]
    split
    · rw [State.endReduction_cmp, hsent]
    · exact hsent
  · rw [hchunk]
    split
    · rw [State.reg_endReduction, hreg]
    · exact hreg.trans (BitVec.add_zero _).symm

/-- A chunk overdue ends the die's segment (R210). -/
theorem does_reduceTimeout (hlate : (r.cw.late r.count (usec (s.field Reg.kvsAttn 47 32)) s.now ||
    r.ccw.late r.count (usec (s.field Reg.kvsAttn 47 32)) s.now) = true) : Does (.reduceTimeout id) s fun t =>
      t.cmp.reductions = [] ∧ (t.die r.die).state = .idle ∧ ((s.die r.die).state ≠ .idle → (s.die r.die).first = false →
        ∃ e ∈ t.flt.discards, e.die = r.die ∧ e.code = Code.reduceTimeout) := by
  let u : State := { s with cmp.reductions := [] }
  have hexec : exec (.reduceTimeout id) s = .next (if (s.die r.die).state = .idle then u
      else u.faultSegment r.die Code.reduceTimeout 0 255) := by
    show execReduceTimeout id s = _
    rw [execReduceTimeout, gate_live hl]
    simp only [hone, hid, hstarted, hlate, List.find?_cons, List.filter_cons, decide_true, Bool.not_true, Bool.or_self,
      Bool.false_eq_true, if_false, ne_eq, not_true_eq_false, decide_false, List.filter_nil]
    rfl
  refine ⟨_, hexec, ?_⟩
  split
  · next hidle => exact ⟨rfl, hidle, fun hbusy => absurd hidle hbusy⟩
  · obtain ⟨hidle, hreds⟩ := u.faultSegment_idle r.die Code.reduceTimeout 0 255
    refine ⟨hreds, hidle, fun _ hfirst => ?_⟩
    obtain ⟨e, hdisc, hdie, -, hcode⟩ := u.faultSegment_discards r.die Code.reduceTimeout 0 255 hfirst
    exact ⟨e, by rw [hdisc]; exact List.mem_append_right _ (List.mem_singleton_self e), hdie, hcode⟩

end one

end reduce

end Sys2Proof.Machine
end

section
/-! ### Ring prefill (R211 to R217) -/

namespace Sys2Proof.Machine

open Sys2Proof

theorem State.nextModule_congr {s t : State} (h : t.comp = s.comp) : t.nextModule = s.nextModule := by
  rw [State.nextModule, h, State.nextModule]

theorem ringBlocks_comp (die slot layer : Nat) (xs : List ((Nat × Nat) × Nat × Nat)) (s : State) :
    (ringBlocks die slot layer xs s).2.comp = s.comp := by
  induction xs generalizing s with
  | nil => rfl
  | cons x xs ih =>
    obtain ⟨⟨n, h⟩, k, v⟩ := x
    have hget := s.getBytes_comp die (s.blockAddr slot n layer h) (512 * s.headDim (s.dir slot).model)
    unfold ringBlocks
    dsimp only
    split
    · next e => rwa [e] at hget
    · next bs u e =>
      rw [e] at hget
      have hrest : (ringBlocks die slot layer xs (u.writeBytes (larderAddr die k) bs)).2.comp = s.comp := by
        rw [ih, State.writeBytes_comp, hget]
      split
      · next e' => rwa [e'] at hrest
      · exact hrest

theorem State.ringSet_comp (s : State) (die slot layer round first : Nat) (e : BatchEntry) (set : List Word)
    (offs : List (Nat × Nat)) : (s.ringSet die slot layer round first e set offs).2.comp = s.comp := by
  unfold State.ringSet
  dsimp only
  split
  · rfl
  · have hblocks := ringBlocks_comp die slot layer
      ((s.oldBlocks (s.dir slot).model first e.pos).zip (offs.drop (s.newRows (s.dir slot).model e.pos e.qn).length)) s
    split
    · next e' => rwa [e'] at hblocks
    · exact hblocks

/-- The deposit of a set's rows (R215): the descriptors are written to the larder, and carried out. -/
def State.ringDeposited (s : State) (die at_ : Nat) (ds : List Item) : State :=
  scatterLoop die at_ none (List.range ds.length)
    (ds.zipIdx.foldl (fun s x => s.writeWords (larderAddr die (at_ + 64 * x.2)) x.1.words) s)

theorem State.ringDeposited_comp (s : State) (die at_ : Nat) (ds : List Item) : (s.ringDeposited die at_ ds).comp = s.comp := by
  rw [State.ringDeposited, scatterLoop_comp]
  exact List.foldlRecOn _ _ (motive := fun u : State => u.comp = s.comp) rfl fun u hu x _ => hu

/-- A visiting set leaves in frames of data, which change nothing of the compute dies or of the map. -/
theorem State.sendSet_keeps (s : State) (die model tally : Nat) (set : List Word) :
    (s.sendSet die model tally set).cmp = s.cmp ∧ (s.sendSet die model tally set).comp = s.comp := by
  have hput (u : State) (off n : Nat) : (u.sendRing true (8 * die) die (off / 128) tally (u.readBytes (larderAddr die off) n)).cmp =
      u.cmp ∧ (u.sendRing true (8 * die) die (off / 128) tally (u.readBytes (larderAddr die off) n)).comp = u.comp := by
    simp only [State.sendRing, State.sendFrames_frame]
    exact ⟨rfl, rfl⟩
  unfold State.sendSet
  refine List.foldlRecOn _ _ (motive := fun u : State => u.cmp = s.cmp ∧ u.comp = s.comp) ⟨rfl, rfl⟩ fun u hu e _ => ?_
  dsimp only
  split
  · exact ⟨((hput _ _ _).1.trans (hput _ _ _).1).trans hu.1, ((hput _ _ _).2.trans (hput _ _ _).2).trans hu.2⟩
  · exact ⟨(hput _ _ _).1.trans hu.1, (hput _ _ _).2.trans hu.2⟩

/-- A round deposits the set's rows for this module's heads, and the set goes on to the next module unless the round is the last
(R213, R215). -/
theorem does_ringPrefillRound {s u : State} {die : Fin 4} {slot layer round first tally : Nat} {set : List Word}
    {offs : List (Nat × Nat)} {la : BitVec 22} {r : StepRun} {e : BatchEntry} {got : List Word} (hl : s.live = true)
    (hcur : s.fw.cur = some r) (hentry : r.batch.find? (fun x => x.kind = .ring && hSlot x.session = slot) = some e)
    (hwhole : s.partLocal (s.dir slot).model = false) (hlayer : layer < s.layers (s.dir slot).model)
    (hround : round < s.comp.map.modules)
    (hnow : ((s.cmp.rings.find? fun x => x.slot = slot && x.layer = layer).map (·.round)).getD 0 = round)
    (hset : s.ringSet die.val slot layer round first e set offs = (.ok got, u)) :
    Does (.ringPrefillRound die slot layer round first tally set offs la) s fun t =>
      (⟨slot, layer, round + 1, got⟩ : RingRound) ∈ t.cmp.rings ∧ (round + 1 < s.comp.map.modules →
        Out.toModule s.nextModule 3 (.words 18 (e.session :: BitVec.ofNat 64 (layer * 256 + round + 1) :: got)) ∈ t.out) := by
  let model := (s.dir slot).model
  let v := u.ringDeposited die (128 * la.toNat) (u.deposits e.session model layer tally got)
  let w : State := { v with cmp.rings := (v.cmp.rings.filter fun x => !(x.slot = slot && x.layer = layer)) ++
    [⟨slot, layer, round + 1, got⟩] }
  have hexec : exec (.ringPrefillRound die slot layer round first tally set offs la) s =
      .next (if round + 1 = s.comp.map.modules then w else (w.sendSet die model tally got).send w.nextModule 3
        (.words 18 (e.session :: BitVec.ofNat 64 (layer * 256 + round + 1) :: got))) := by
    show execRingPrefillRound die slot layer round first tally set offs la s = _
    rw [execRingPrefillRound, gate_live hl]
    simp only [hcur, Option.bind_some, hentry, hwhole, hnow, hset, Nat.not_le.2 hlayer, Nat.not_le.2 hround, ne_eq,
      not_true_eq_false, decide_false, Bool.or_self, Bool.false_eq_true, if_false]
    rfl
  have hmem : (⟨slot, layer, round + 1, got⟩ : RingRound) ∈ w.cmp.rings := List.mem_append_right _ (List.mem_singleton_self _)
  have hnext : w.nextModule = s.nextModule := by
    refine State.nextModule_congr ((State.ringDeposited_comp u _ _ _).trans ?_)
    rw [← s.ringSet_comp die slot layer round first e set offs, hset]
  refine ⟨_, hexec, ?_⟩
  split
  · next hlast => exact ⟨hmem, fun hmore => absurd hlast (Nat.ne_of_lt hmore)⟩
  · have hsend (x : State) (m : Nat) (msg : Msg) : (x.send m 3 msg).cmp = x.cmp := by simp only [State.send_frame]
    refine ⟨?_, fun _ => hnext ▸ State.mem_out_send _ _ _ _⟩
    rw [hsend, (w.sendSet_keeps die model tally got).1]
    exact hmem

/-- Settles O28: the start of a reduction, a chunk before it, a chunk after it, an overdue one, and a round of a ring prefill. -/
theorem ringReductions : Obligations.RingReductions := by
  unfold Obligations.RingReductions
  intro s id die hl
  refine ⟨fun positions width model rows proj dest hm hmodel hpos hnew => does_reduceStage_start hl hm hmodel hpos hnew,
    fun cw vals hnone => does_reduceStage_early hl hnone, fun r cw vals hone hid hstarted hdone => ?_,
    fun r hone hid hstarted hlate => does_reduceTimeout hl hone hid hstarted hlate,
    fun slot layer round first tally set offs la r e got u hcur hentry hwhole hlayer hround hnow hset =>
      does_ringPrefillRound hl hcur hentry hwhole hlayer hround hnow hset⟩
  obtain ⟨t, ht, x, hreds, hhalf, hother, hcount⟩ := does_reduceStage_chunk hl hone hid hstarted hdone
  refine ⟨t, ht, x, hreds, ?_, ?_, hother, fun k y hy => ?_, hcount⟩
  · rw [hhalf]
    rfl
  · rw [hhalf]
    rfl
  · rw [hhalf]
    exact (r.half cw).take_getElem? _ _ _ _ _ hy

end Sys2Proof.Machine
end

section
/-! ### Remaps and fences of tiles (R253 to R255) -/

namespace Sys2Proof.Machine

open Sys2Proof

theorem bit_setBits_one (w : Word) {p q : Nat} (hp : p < 64) : bit (setBits w p p 1) q = (bit w q || q == p) := by
  unfold bit
  by_cases hq : q = p
  · subst hq
    simp [bits_setBits_same w q q 1 hp le_rfl]
  · rw [bits_setBits_other w p p 1 q q hp le_rfl le_rfl (Nat.lt_or_gt_of_ne hq)]
    simp [hq]

theorem State.tileFenced_fenceTile (s : State) (die : Nat) {p q : Nat} (hp : p < 64) :
    (s.fenceTile die p).tileFenced die q = (s.tileFenced die q || q == p) := by
  rw [State.tileFenced, State.fenceTile, State.setField, State.reg_setReg_same, bit_setBits_one _ hp, State.tileFenced]

section remap

variable {s : State} (hl : s.live = true) (die : Fin 4)
include hl

theorem exec_tileRemap (l : BitVec 5) (p : BitVec 6) :
    exec (.tileRemap die l p) s = .next (s.remap die.val l.toNat p.toNat) := by
  show execTileRemap die l p s = _
  exact gate_live hl _

theorem does_tileFence {p : BitVec 6} (hp : p.toNat < 34) : Does (.tileFence die p) s fun t =>
    (∀ q, q < 64 → t.tileFenced die.val q = (s.tileFenced die.val q || q == p.toNat)) ∧
    (∀ k, k ≠ Reg.tileStatus die.val → t.reg k = s.reg k) ∧ t.mem = s.mem := by
  have hexec : exec (.tileFence die p) s = .next (s.fenceTile die.val p.toNat) := by
    show execTileFence die p s = _
    rw [execTileFence, gate_live hl, State.fenceNamed, if_neg (Nat.not_le.2 hp)]
  exact ⟨_, hexec, fun q _ => s.tileFenced_fenceTile die.val (hp.trans (by decide)),
    fun k hk => State.reg_setReg_other _ _ _ _ hk, rfl⟩

end remap

end Sys2Proof.Machine
end

section
/-! ### Slot actions refused at issue (R270, R278, R282, R295, R297, R302) -/

namespace Sys2Proof.Machine

open Sys2Proof

/-- A die whose segment a code ends stands as `Die.stopped` leaves it. -/
theorem State.die_faultSegment (s : State) (die code cause slot : Nat) :
    (s.faultSegment die code cause slot).die die = (s.die die).stopped := by
  obtain ⟨u, hfault, hcmp, -⟩ := s.faultSegment_eq die code cause slot
  obtain ⟨hstop, -⟩ := s.segmentStopped_keeps die code cause slot
  obtain ⟨hdies, -, -⟩ := u.boundary_keeps die
  rw [hfault, State.die, hdies, hcmp, hstop]
  exact State.die_setDie_same s die _

/-- The bundle that is laid is no first bundle any more, so what ends its segment discards the segment. -/
theorem State.first_laid (s : State) (n : Nat) : ((s.laid n).die n).first = false := by
  unfold State.laid
  rw [State.die, State.bump_cmp, ← State.die, State.die_setDie_same]
  rfl

/-- A slot row ends the segment that runs on its die: no action is left there, and the segment is discarded with the code. -/
def EndsSegment (c : Instr) (s : State) (n code : Nat) : Prop :=
  Does c s fun t => (t.die n).state = .idle ∧ (t.die n).slots = [] ∧
    ∃ e, t.flt.discards = (s.laid n).flt.discards ++ [e] ∧ e.die = n ∧ e.item = ((s.laid n).die n).item ∧ e.code = code

theorem endsSegment_of_faultSegment {c : Instr} {s : State} (hl : s.live = true) {n code cause slot : Nat} {f : State → State}
    (hexec : exec c s = gate s f) (hf : f s = (s.laid n).faultSegment n code cause slot) : EndsSegment c s n code := by
  have hdie := (s.laid n).die_faultSegment n code cause slot
  exact ⟨_, hexec.trans ((gate_live hl f).trans (congrArg _ hf)), by rw [hdie]; rfl, by rw [hdie]; rfl,
    (s.laid n).faultSegment_discards n code cause slot (s.first_laid n)⟩

/-! #### What a slot row issues -/

section issue

variable {s : State} {n : Nat} (hrun : (s.die n).state = .running) {slot dur : Nat}
include hrun

/-- Operands that no action can have end the segment in the cycle of the bundle. -/
theorem State.issueOne_error (c : Nat) : s.issueOne n slot (.error c) dur = (s.laid n).faultSegment n c 0 slot := by
  rw [State.issueOne, if_neg (not_not_intro hrun)]

/-- An action that does not start ends the segment with the code and the cause it meets. -/
theorem State.issueOne_refused {op : SlotOp} {c cause : Nat} (h : (s.laid n).startAction n slot op dur = .error (c, cause)) :
    s.issueOne n slot (.ok op) dur = (s.laid n).faultSegment n c cause slot := by
  rw [State.issueOne, if_neg (not_not_intro hrun)]
  simp only [h]

/-- R297: a branch to no bundle of the segment's code. -/
theorem State.issueBranch_outside {b : BranchOp} {t : Nat} (htarget : branchTarget b = some t)
    (hbad : s.targetOk (s.die n) t = false) :
    s.issueBranch n b dur = (s.laid n).faultSegment n Code.branchRange 0 slotB := by
  rw [State.issueBranch, htarget]
  simp only [hbad, Bool.not_false, if_true]
  exact State.issueOne_error hrun _

end issue

/-- R301: a slot whose action has not expired takes no other. -/
theorem State.startAction_occupied {s : State} {n slot : Nat} (h : (SMap.lookup (s.die n).slots slot).isSome) (op : SlotOp)
    (dur : Nat) : s.startAction n slot op dur = .error (Code.overlap, 1) := by
  rw [State.startAction, if_pos h]

/-- An action of a free slot whose operands are out of order does not start. -/
theorem State.startAction_operands {s : State} {n slot : Nat} {op : SlotOp} {dur : Nat}
    (hfree : SMap.lookup (s.die n).slots slot = none) (hcode : s.operandCode n slot op dur (s.die n) ≠ 0) :
    s.startAction n slot op dur = .error (s.operandCode n slot op dur (s.die n), 0) := by
  rw [State.startAction, hfree]
  exact if_pos hcode

/-! #### The rows -/

section rows

variable {s : State} (hl : s.live = true) {die : Fin 4} (hrun : (s.die die.val).state = .running) (dur : BitVec 12)
include hl hrun

/-- A row that issues no action, for its operands are those of none. -/
theorem endsSegment_error {c : Instr} {slot code : Nat} {op : Except Nat SlotOp} (hop : op = .error code)
    (hexec : exec c s = gate s fun s => s.issueOne die.val slot op (cyclesOf dur)) : EndsSegment c s die.val code := by
  subst hop
  exact endsSegment_of_faultSegment hl hexec (State.issueOne_error hrun code)

/-- A row that issues a branch to no bundle. -/
theorem endsSegment_branch {c : Instr} {b : BranchOp} {t : Nat}
    (hexec : exec c s = gate s fun s => s.issueBranch die.val b (cyclesOf dur)) (htarget : branchTarget b = some t)
    (hbad : s.targetOk (s.die die.val) t = false) : EndsSegment c s die.val Code.branchRange :=
  endsSegment_of_faultSegment hl hexec (State.issueBranch_outside hrun htarget hbad)

/-- A row that issues an action whose operands are out of order. -/
theorem endsSegment_operands {c : Instr} {slot code : Nat} {op : SlotOp}
    (hexec : exec c s = gate s fun s => s.issueOne die.val slot (.ok op) (cyclesOf dur))
    (hfree : SMap.lookup ((s.laid die.val).die die.val).slots slot = none)
    (hcode : (s.laid die.val).operandCode die.val slot op (cyclesOf dur) ((s.laid die.val).die die.val) = code)
    (hbad : code ≠ 0) : EndsSegment c s die.val code := by
  subst hcode
  exact endsSegment_of_faultSegment hl hexec (State.issueOne_refused hrun (State.startAction_operands hfree hbad))

/-- A row that issues an action into a slot that holds one. -/
theorem endsSegment_occupied {c : Instr} {slot : Nat} {op : SlotOp}
    (hexec : exec c s = gate s fun s => s.issueOne die.val slot (.ok op) (cyclesOf dur))
    (hslot : (SMap.lookup ((s.laid die.val).die die.val).slots slot).isSome) : EndsSegment c s die.val Code.overlap :=
  endsSegment_of_faultSegment hl hexec (State.issueOne_refused hrun (State.startAction_occupied hslot _ _))

end rows

/-- R322: a reclamation tally takes no ADD and no SET of a stream. -/
theorem State.operandCode_reclaim (s : State) (n slot dur : Nat) (d : Die) {t : BitVec 12} (ht : t.toNat % 1024 = 1023)
    (i : BitVec 16) (rs : BitVec 5) : s.operandCode n slot (.tally (.add t i)) dur d = Code.invalidField ∧
      s.operandCode n slot (.tally (.set t rs)) dur d = Code.invalidField := by
  have hreclaim : isReclaim t.toNat = true := decide_eq_true ht
  exact ⟨if_pos hreclaim, if_pos hreclaim⟩

/-- Settles O15: remaps and fences, then the rows whose operands end the segment, one by one. -/
theorem tileRemapAndRefusals : Obligations.TileRemapAndRefusals := by
  unfold Obligations.TileRemapAndRefusals
  refine ⟨fun s die l p hl => ⟨fun hok => ⟨_, exec_tileRemap hl die l p, ?_⟩, fun hdenied => ?_, does_tileFence hl die⟩, ?_⟩
  · rw [State.remap, hok, if_neg Bool.false_ne_true]
  · rw [Ignored, exec_tileRemap hl, State.remap, if_pos hdenied]
  · intro s die tile mover y dur tally ra rl rs la x dst n16 target hl hrun
    refine ⟨fun hra => ⟨endsSegment_error hl hrun dur (if_pos hra) rfl, endsSegment_error hl hrun dur (if_pos hra) rfl⟩,
      endsSegment_error hl hrun dur (if_pos rfl) rfl, fun hbad => ?_, fun hfree ht => ?_,
      fun hfree hcode => endsSegment_operands hl hrun dur rfl hfree rfl hcode, endsSegment_occupied hl hrun dur rfl⟩
    · exact ⟨endsSegment_branch hl hrun dur rfl rfl hbad, endsSegment_branch hl hrun dur rfl rfl hbad,
        endsSegment_branch hl hrun dur rfl rfl hbad, endsSegment_branch hl hrun dur rfl rfl hbad⟩
    · obtain ⟨hadd, hset⟩ := (s.laid die.val).operandCode_reclaim die.val (44 + y.val) (cyclesOf dur)
        ((s.laid die.val).die die.val) ht n16 rs
      exact ⟨endsSegment_operands hl hrun dur rfl hfree hadd (by decide),
        endsSegment_operands hl hrun dur rfl hfree hset (by decide)⟩

end Sys2Proof.Machine
end

section
/-! ### What is due on a die, and what expires (R46, R234, R273) -/

namespace Sys2Proof.Machine

open Sys2Proof

/-- Nothing comes due before the cycle up to which nothing is due. -/
theorem Die.nextDue_before {d : Die} {c : Nat} (h : d.DueNext c) : (d.nextDue fun x => x.time < c) = none := by
  obtain ⟨hslots, hdrains⟩ := h
  have hlate : ∀ x ∈ (d.slots.map fun x => Due.act x.1 x.2) ++ d.drains.map Due.drain, ¬ x.time < c := by
    simp only [List.mem_append, List.mem_map]
    rintro _ (⟨x, hx, rfl⟩ | ⟨x, hx, rfl⟩)
    · exact Nat.not_lt.2 (hslots x hx)
    · exact Nat.not_lt.2 (hdrains x hx)
  refine List.foldlRecOn _ _ (motive := fun b : Option Due => b = none) rfl fun b hb x hx => ?_
  simp [hb, hlate x hx]

theorem runDue_of_none {s : State} {die : Nat} {p : Due → Bool} (h : (s.die die).nextDue p = none) (fuel : Nat) :
    runDue die p fuel s = s := by
  cases fuel with
  | zero => rfl
  | succ fuel => rw [runDue, h]

/-- An action that no other in progress meets on a tile finds the memories as they are. -/
theorem State.partly_eq_self {s : State} {die slot : Nat} {a : SlotAct}
    (h : ∀ x ∈ (s.die die).slots, s.crosses die a x.2 = false) : s.partly die slot a = s := by
  refine List.foldlRecOn _ _ (motive := fun u : State => u = s) rfl fun u hu x hx => ?_
  rw [hu, h x hx, Bool.and_false]
  rfl

/-- The state in which an action's effect takes place: it has left its slot. -/
def State.left (s : State) (die slot : Nat) (a : SlotAct) : State := s.setDie die ((s.die die).leave slot a)

theorem State.expire_apart {s : State} {die slot : Nat} {a : SlotAct}
    (h : ∀ x ∈ (s.die die).slots, s.crosses die a x.2 = false) :
    s.expire die slot a = (s.left die slot a).expireEffect die slot a := by
  have hslots : ((s.left die slot a).die die).slots = SMap.erase (s.die die).slots slot := by
    rw [State.left, State.die_setDie_same]
    rfl
  have hleft : (s.left die slot a).partly die slot a = s.left die slot a := by
    refine State.partly_eq_self fun x hx => ?_
    rw [hslots] at hx
    exact h x (List.mem_filter.1 hx).1
  exact congrArg (State.expireEffect · die slot a) hleft

section due

variable {s : State} (hl : s.live = true) {die : Fin 4}
include hl

theorem exec_slotExpire_clean {slot : Fin 48} {a : SlotAct} (hslot : SMap.lookup (s.die die.val).slots slot.val = some a)
    (hdue : (s.die die.val).DueNext a.expiry) (hapart : ∀ x ∈ (s.die die.val).slots, s.crosses die.val a x.2 = false) :
    exec (.slotExpire die slot .clean) s = .next ((s.left die.val slot.val a).expireEffect die.val slot.val a) := by
  show execSlotExpire die slot .clean s = _
  rw [execSlotExpire, gate_live hl]
  simp only [hslot, runDue_of_none (Die.nextDue_before hdue), State.expire_apart hapart]

theorem exec_mmaDrainComplete_clean {tile : Fin 32} {x : Drain}
    (hdrain : ((s.die die.val).drains.find? fun y => y.tile = tile.val) = some x) (hdue : (s.die die.val).DueNext x.done) :
    exec (.mmaDrainComplete die tile .clean) s = .next (s.endDrain die.val x) := by
  show execMmaDrainComplete die tile .clean s = _
  rw [execMmaDrainComplete, gate_live hl]
  simp only [hdrain, runDue_of_none (Die.nextDue_before hdue)]

end due

end Sys2Proof.Machine
end

section
/-! ### FP32 elements and rows in memory (R10, R230) -/

namespace Sys2Proof.Machine

open Sys2Proof

/-- Two states hold the same bytes in a range. -/
def State.SameRange (s t : State) (a n : Nat) : Prop := ∀ b, a ≤ b → b < a + n → t.byte b = s.byte b

theorem State.SameRange.refl (s : State) (a n : Nat) : s.SameRange s a n := fun _ _ _ => rfl

theorem State.SameRange.trans {s t u : State} {a n : Nat} (h : s.SameRange t a n) (h' : t.SameRange u a n) :
    s.SameRange u a n := fun b hlo hhi => (h' b hlo hhi).trans (h b hlo hhi)

theorem State.byte_writeBytes_other (s : State) {a b : Nat} {bs : List Byte} (h : b < a ∨ a + bs.length ≤ b) :
    (s.writeBytes a bs).byte b = s.byte b := by
  rw [State.byte_writeBytes, if_neg (by omega)]

theorem State.sameRange_writeBytes (s : State) {a n c : Nat} {bs : List Byte} (h : c + bs.length ≤ a ∨ a + n ≤ c) :
    s.SameRange (s.writeBytes c bs) a n := fun b hlo hhi => s.byte_writeBytes_other (by omega)

theorem State.SameRange.readBytes {s t : State} {a n : Nat} (h : s.SameRange t a n) : t.readBytes a n = s.readBytes a n :=
  List.map_congr_left fun i hi => h _ (Nat.le_add_right a i) (Nat.add_lt_add_left (List.mem_range.1 hi) a)

theorem State.readBytes_writeBytes (s : State) (a : Nat) (bs : List Byte) : (s.writeBytes a bs).readBytes a bs.length = bs := by
  refine List.ext_getElem (by simp [State.readBytes]) fun i hi hi' => ?_
  simp [State.readBytes, State.byte_writeBytes, hi']

theorem State.SameRange.read32 {s t : State} {a : Nat} (h : s.SameRange t a 4) : t.read32 a = s.read32 a := by
  rw [State.read32, State.read32, State.readNat_congr fun j hj => h _ (by omega) (by omega)]

theorem State.SameRange.row32 {s t : State} {a : Nat} (h : s.SameRange t a 512) : t.row32 a = s.row32 a := by
  refine List.map_congr_left fun i hi => State.SameRange.read32 fun b hlo hhi => h b (by omega) ?_
  have hlt := List.mem_range.1 hi
  omega

theorem State.read32_write32 (s : State) (a : Nat) (w : BitVec 32) : (s.write32 a w).read32 a = w := by
  have hread : (s.write32 a w).readNat a 4 = w.toNat % 256 ^ 4 := by
    refine State.readNat_of_bytes fun i hi => ?_
    rw [State.write32, State.byte_writeBytes, if_pos ⟨by omega, by rw [length_leBytes]; omega⟩, Nat.add_sub_cancel_left]
  rw [State.read32, hread]
  refine BitVec.eq_of_toNat_eq ?_
  have hlt := w.isLt
  rw [BitVec.toNat_ofNat]
  omega

theorem State.byte_write32_other (s : State) {a b : Nat} (w : BitVec 32) (h : b < a ∨ a + 4 ≤ b) :
    (s.write32 a w).byte b = s.byte b := s.byte_writeBytes_other (by rwa [length_leBytes])

theorem length_row32Bytes (r : List F32) : (row32Bytes r).length = 4 * r.length := by
  induction r with
  | nil => rfl
  | cons x r ih =>
    rw [row32Bytes, List.flatMap_cons, List.length_append, length_leBytes, ← row32Bytes, ih, List.length_cons]
    omega

end Sys2Proof.Machine
end

section
/-! ### Elementwise vector operations (R248, R249, R278, R279) -/

namespace Sys2Proof.Machine

open Sys2Proof

theorem VOperand.rowAddr_eq (o : VOperand) (die phys i : Nat) :
    o.rowAddr die phys 512 i = o.rowAddr die phys 512 0 + 512 * i := by
  cases o <;> simp only [VOperand.rowAddr, accAddr, storeAddr] <;> omega

/-- Two rows of one operand do not meet. -/
theorem VOperand.rowAddr_apart (o : VOperand) (die phys : Nat) {i j : Nat} (h : i ≠ j) :
    o.rowAddr die phys 512 i + 512 ≤ o.rowAddr die phys 512 j ∨
      o.rowAddr die phys 512 j + 512 ≤ o.rowAddr die phys 512 i := by
  rw [o.rowAddr_eq die phys i, o.rowAddr_eq die phys j]
  omega

/-- R277: an operation of one source takes nothing of the second. -/
theorem vecElem_oneSource {op : VecOp} (h : op.twoSources = false) (k : Int) (x y y' old free : F32) :
    vecElem op k x y old free = vecElem op k x y' old free := by
  cases op
  case abs | neg | scale2 | exp | log | rcp | rsqrt | maxr | sumr => rfl
  all_goals exact absurd h (by decide)

/-- What one vector action works on: its operation and scale, the tile, its operands, and the number of its first free value. -/
structure VecWork where
  op : VecOp
  scale : Int
  die : Nat
  phys : Nat
  dst : VOperand
  src1 : VOperand
  src2 : VOperand
  base : Nat

namespace VecWork

variable (v : VecWork)

def rowOf (o : VOperand) (i : Nat) : Nat := o.rowAddr v.die v.phys 512 i

/-- Row `i` of an elementwise result over the contents of a state. -/
def result (s : State) (i : Nat) : List F32 :=
  (List.range 128).map fun j => vecElem v.op v.scale ((s.row32 (v.rowOf v.src1 i)).getD j 0)
    ((s.row32 (v.rowOf v.src2 i)).getD j 0) ((s.row32 (v.rowOf v.dst i)).getD j 0) (vecFree v.op (v.base + 128 * i + j))

/-- Two states agree on what row `i` of an elementwise result depends on. -/
structure Agree (s t : State) (i : Nat) : Prop where
  dst : s.SameRange t (v.rowOf v.dst i) 512
  src1 : s.SameRange t (v.rowOf v.src1 i) 512
  src2 : v.op.twoSources = true → s.SameRange t (v.rowOf v.src2 i) 512

/-- R278: row `i` of the destination lies on no row of another number that a source reads. -/
def Clear (i j : Nat) : Prop :=
  (v.rowOf v.dst i + 512 ≤ v.rowOf v.src1 j ∨ v.rowOf v.src1 j + 512 ≤ v.rowOf v.dst i) ∧
    (v.op.twoSources = true → v.rowOf v.dst i + 512 ≤ v.rowOf v.src2 j ∨ v.rowOf v.src2 j + 512 ≤ v.rowOf v.dst i)

/-- The rows of an action in an order, each over the contents the free choice of R279 gives it. -/
def run (s0 : State) (is : List Nat) (s : State) : State :=
  vecLoop v.op v.scale v.die v.phys v.dst v.src1 v.src2 v.base s0 is s

variable {v}

theorem Agree.refl (s : State) (i : Nat) : v.Agree s s i := ⟨.refl _ _ _, .refl _ _ _, fun _ => .refl _ _ _⟩

theorem Agree.trans {s t u : State} {i : Nat} (h : v.Agree s t i) (h' : v.Agree t u i) : v.Agree s u i where
  dst := h.dst.trans h'.dst
  src1 := h.src1.trans h'.src1
  src2 htwo := (h.src2 htwo).trans (h'.src2 htwo)

theorem rowOf_apart (v : VecWork) (o : VOperand) {i j : Nat} (h : i ≠ j) :
    v.rowOf o i + 512 ≤ v.rowOf o j ∨ v.rowOf o j + 512 ≤ v.rowOf o i := o.rowAddr_apart v.die v.phys h

theorem Agree.result_eq {s t : State} {i : Nat} (h : v.Agree s t i) : v.result t i = v.result s i := by
  unfold result
  rw [h.dst.row32, h.src1.row32]
  cases htwo : v.op.twoSources with
  | false => exact List.map_congr_left fun j _ => vecElem_oneSource htwo _ _ _ _ _ _
  | true => rw [(h.src2 htwo).row32]

theorem length_row32Bytes_result (v : VecWork) (s : State) (i : Nat) : (row32Bytes (v.result s i)).length = 512 := by
  rw [length_row32Bytes, result, List.length_map, List.length_range]

/-- A row that is written leaves what a row of another number depends on. -/
theorem agree_writeBytes {i j : Nat} (hij : i ≠ j) (hclear : v.Clear i j) (s : State) {bs : List Byte} (hlen : bs.length = 512) :
    v.Agree s (s.writeBytes (v.rowOf v.dst i) bs) j where
  dst := s.sameRange_writeBytes (by rw [hlen]; exact v.rowOf_apart v.dst hij)
  src1 := s.sameRange_writeBytes (by rw [hlen]; exact hclear.1)
  src2 htwo := s.sameRange_writeBytes (by rw [hlen]; exact hclear.2 htwo)

section elementwise

variable (hred : v.op.reduces = false) (hrow : v.op.perRow = false)
include hred hrow

/-- The first row in the order is written, computed over the contents before the action or over those of now. -/
theorem run_cons (s0 s : State) (i : Nat) (is : List Nat) : ∃ src, (src = s0 ∨ src = s) ∧
    v.run s0 (i :: is) s = v.run s0 is (s.writeBytes (v.rowOf v.dst i) (row32Bytes (v.result src i))) := by
  have hstep (src : State) : vecRow v.op v.scale v.die v.phys v.dst v.src1 v.src2 i v.base src s =
      s.writeBytes (v.rowOf v.dst i) (row32Bytes (v.result src i)) := by
    simp only [vecRow, hred, hrow, Bool.false_eq_true, if_false]
    rfl
  refine ⟨if Config.choice (v.base + i) then s0 else s, ite_eq_or_eq _ _ _, ?_⟩
  rw [run, vecLoop, hstep, ← run]

theorem byte_run_other (s0 : State) {is : List Nat} {b : Nat}
    (hb : ∀ i ∈ is, b < v.rowOf v.dst i ∨ v.rowOf v.dst i + 512 ≤ b) (s : State) : (v.run s0 is s).byte b = s.byte b := by
  induction is generalizing s with
  | nil => rfl
  | cons i is ih =>
    obtain ⟨hi, his⟩ := List.forall_mem_cons.1 hb
    obtain ⟨src, -, hrun⟩ := run_cons hred hrow s0 s i is
    rw [hrun, ih his, State.byte_writeBytes_other]
    rwa [length_row32Bytes_result]

/-- In whatever order the rows are done, and whether each reads the contents before or after the rows done already, each destination
row ends as its result over the contents before. -/
theorem readBytes_run {s0 : State} {is : List Nat} (hnodup : is.Nodup)
    (hclear : ∀ i ∈ is, ∀ j ∈ is, i ≠ j → v.Clear i j) {s : State} (hs : ∀ i ∈ is, v.Agree s0 s i) :
    ∀ i ∈ is, (v.run s0 is s).readBytes (v.rowOf v.dst i) 512 = row32Bytes (v.result s0 i) := by
  induction is generalizing s with
  | nil => exact fun _ h => absurd h List.not_mem_nil
  | cons i is ih =>
    obtain ⟨hi, hnodup⟩ := List.nodup_cons.1 hnodup
    obtain ⟨hsi, hs⟩ := List.forall_mem_cons.1 hs
    have hne {j : Nat} (hj : j ∈ is) : i ≠ j := fun h => hi (h ▸ hj)
    obtain ⟨src, hsrc, hrun⟩ := run_cons hred hrow s0 s i is
    have hresult : v.result src i = v.result s0 i := by
      obtain rfl | rfl := hsrc
      · rfl
      · exact hsi.result_eq
    have hwritten := s.readBytes_writeBytes (v.rowOf v.dst i) (row32Bytes (v.result s0 i))
    rw [v.length_row32Bytes_result] at hwritten
    rw [hrun, hresult]
    refine List.forall_mem_cons.2 ⟨?_, ?_⟩
    · have hlater (u : State) : u.SameRange (v.run s0 is u) (v.rowOf v.dst i) 512 := by
        refine fun b hlo hhi => byte_run_other hred hrow s0 (fun j hj => ?_) u
        have hapart := v.rowOf_apart v.dst (hne hj)
        omega
      rw [(hlater _).readBytes, hwritten]
    · refine ih hnodup (fun j hj k hk => hclear j (List.mem_cons_of_mem _ hj) k (List.mem_cons_of_mem _ hk)) fun j hj => ?_
      have hij := hclear i List.mem_cons_self j (List.mem_cons_of_mem _ hj) (hne hj)
      exact (hs j hj).trans (agree_writeBytes (hne hj) hij s (v.length_row32Bytes_result s0 i))

end elementwise

end VecWork

/-- The work of a vector action whose slot expires on a die's tile. -/
def State.vecWork (s : State) (op : VecOp) (die phys : Nat) (dst x y : BitVec 14) (k : BitVec 9) : VecWork :=
  ⟨op, sext 9 k.toNat, die, phys, vOperand dst, vOperand x, vOperand y, s.free⟩

/-- The rows are done from the first to the last or from the last to the first. -/
theorem State.vector_eq_run (s : State) (op : VecOp) (die phys : Nat) (dst x y : BitVec 14) (k : BitVec 9) (n : Nat) :
    ∃ is f, (is = List.range n ∨ is = (List.range n).reverse) ∧ s.vector op die phys dst x y k n =
      (s.vecWork op die phys dst x y k).run { s with free := f } is { s with free := f } := by
  unfold State.vector
  dsimp only
  split
  · exact ⟨_, _, .inl rfl, rfl⟩
  · exact ⟨_, _, .inr rfl, rfl⟩

theorem State.vector_elementwise (s : State) {op : VecOp} (hred : op.reduces = false) (hrow : op.perRow = false) (die phys : Nat)
    (dst x y : BitVec 14) (k : BitVec 9) (n : Nat)
    (hclear : ∀ i j, i < n → j < n → i ≠ j → (s.vecWork op die phys dst x y k).Clear i j) :
    (∀ i, i < n → (s.vector op die phys dst x y k n).readBytes ((vOperand dst).rowAddr die phys 512 i) 512 =
      row32Bytes ((s.vecWork op die phys dst x y k).result s i)) ∧
    ∀ b, (∀ i, i < n → b < (vOperand dst).rowAddr die phys 512 i ∨ (vOperand dst).rowAddr die phys 512 i + 512 ≤ b) →
      (s.vector op die phys dst x y k n).byte b = s.byte b := by
  obtain ⟨is, f, hrows, hvector⟩ := s.vector_eq_run op die phys dst x y k n
  rw [hvector]
  have hmem (i : Nat) : i ∈ is ↔ i < n := by rcases hrows with rfl | rfl <;> simp
  have hnodup : is.Nodup := by rcases hrows with rfl | rfl <;> simp [List.nodup_range]
  refine ⟨fun i hi => ?_, fun b hb => VecWork.byte_run_other hred hrow _ (fun i hi => hb i ((hmem i).1 hi)) _⟩
  exact VecWork.readBytes_run hred hrow hnodup
    (fun i hi j hj => hclear i j ((hmem i).1 hi) ((hmem j).1 hj)) (fun i _ => .refl _ i) i ((hmem i).2 hi)

end Sys2Proof.Machine
end

section
/-! ### Drains of integer accumulations (R234, R247) -/

namespace Sys2Proof.Machine

open Sys2Proof

/-- What the element at an address becomes when a sum of a pass is added to it, or put in its place (R247). -/
def State.intElement (s : State) (accum : Bool) (a : Nat) (p : PSum) : BitVec 32 :=
  (intAccumulate (if accum then s.read32 a else 0) p).1

theorem drainLoop_int_cons (accum : Bool) (a : Nat) (p : PSum) (ps : List PSum) (i : Nat) (k : Nat × Nat × Nat) (s : State) :
    ∃ k', drainLoop true accum a (p :: ps) i k s =
      drainLoop true accum a ps (i + 1) k' (s.write32 (a + 4 * i) (s.intElement accum (a + 4 * i) p)) := ⟨_, rfl⟩

/-- The loop of a drain writes its elements and nothing else: four bytes each, from the first it is at. -/
theorem drainLoop_int_frame (accum : Bool) (a : Nat) (ps : List PSum) (i : Nat) (k : Nat × Nat × Nat) (s : State) :
    (drainLoop true accum a ps i k s).2.cmp = s.cmp ∧
      ∀ b, (b < a + 4 * i ∨ a + 4 * (i + ps.length) ≤ b) → (drainLoop true accum a ps i k s).2.byte b = s.byte b := by
  induction ps generalizing i k s with
  | nil => exact ⟨rfl, fun _ _ => rfl⟩
  | cons p ps ih =>
    obtain ⟨k', hstep⟩ := drainLoop_int_cons accum a p ps i k s
    obtain ⟨hcmp, hbyte⟩ := ih (i + 1) k' (s.write32 (a + 4 * i) (s.intElement accum (a + 4 * i) p))
    rw [hstep, List.length_cons]
    exact ⟨hcmp, fun b hb => (hbyte b (by omega)).trans (s.byte_write32_other _ (by omega))⟩

/-- Each element of the set becomes the saturated sum over what stood there before. -/
theorem drainLoop_int_element (accum : Bool) (a : Nat) (ps : List PSum) (i : Nat) (k : Nat × Nat × Nat) (s : State) {j : Nat}
    (hj : j < ps.length) : (drainLoop true accum a ps i k s).2.read32 (a + 4 * (i + j)) =
      s.intElement accum (a + 4 * (i + j)) (ps.getD j {}) := by
  induction ps generalizing i j k s with
  | nil => exact absurd hj (Nat.not_lt_zero _)
  | cons p ps ih =>
    obtain ⟨k', hstep⟩ := drainLoop_int_cons accum a p ps i k s
    rw [hstep]
    generalize hnew : s.intElement accum (a + 4 * i) p = new
    cases j with
    | zero =>
      obtain ⟨-, hkept⟩ := drainLoop_int_frame accum a ps (i + 1) k' (s.write32 (a + 4 * i) new)
      have hsame : (s.write32 (a + 4 * i) new).SameRange (drainLoop true accum a ps (i + 1) k' (s.write32 (a + 4 * i) new)).2
          (a + 4 * i) 4 := fun b _ hhi => hkept b (by omega)
      rw [Nat.add_zero i, hsame.read32, State.read32_write32, List.getD_cons_zero, hnew]
    | succ j =>
      have hold : s.SameRange (s.write32 (a + 4 * i) new) (a + 4 * (i + 1 + j)) 4 :=
        fun b hlo _ => s.byte_write32_other _ (by omega)
      rw [show i + (j + 1) = i + 1 + j by omega, ih (i + 1) k' _ (Nat.lt_of_succ_lt_succ hj), List.getD_cons_succ,
        State.intElement, hold.read32, State.intElement]

/-- What counts saturations and results leaves the bytes and the dies. -/
theorem State.drain_keeps (s : State) (die : Nat) (d : Drain) :
    let u := (drainLoop d.int d.accum (accAddr die d.phys (d.set * 65536)) d.sums 0 (0, 0, 0) s).2
    (s.drain die d).mem = u.mem ∧ (s.drain die d).cmp = u.cmp := by
  unfold State.drain State.iff
  dsimp only
  split <;> exact ⟨rfl, rfl⟩

theorem State.drain_int (s : State) (die : Nat) {d : Drain} (hint : d.int = true) :
    let base := accAddr die d.phys (d.set * 65536)
    (∀ i, i < d.sums.length → (s.drain die d).read32 (base + 4 * i) = s.intElement d.accum (base + 4 * i) (d.sums.getD i {})) ∧
    (∀ b, (b < base ∨ base + 4 * d.sums.length ≤ b) → (s.drain die d).byte b = s.byte b) ∧ (s.drain die d).cmp = s.cmp := by
  intro base
  obtain ⟨hmem, hcmp⟩ := s.drain_keeps die d
  rw [hint] at hmem hcmp
  have hbyte (b : Nat) : (s.drain die d).byte b = (drainLoop true d.accum base d.sums 0 (0, 0, 0) s).2.byte b := by
    rw [State.byte, hmem, ← State.byte]
  obtain ⟨hcmp', hkept⟩ := drainLoop_int_frame d.accum base d.sums 0 (0, 0, 0) s
  refine ⟨fun i hi => ?_, fun b hb => (hbyte b).trans (hkept b (by omega)), hcmp.trans hcmp'⟩
  have helem := drainLoop_int_element d.accum base d.sums 0 (0, 0, 0) s hi
  rw [Nat.zero_add] at helem
  rw [← helem, State.read32, State.read32, State.readNat_congr fun j _ => hbyte _]

end Sys2Proof.Machine
end

section
/-! ### Results of tiles (R234, R247 to R249, R279) -/

namespace Sys2Proof.Machine

open Sys2Proof

theorem does_slotExpire_elementwise {s : State} (hl : s.live = true) {die : Fin 4} {slot : Fin 48} {a : SlotAct} {op : VecOp}
    {dst x y : BitVec 14} {k : BitVec 9} (hslot : SMap.lookup (s.die die.val).slots slot.val = some a)
    (hdue : (s.die die.val).DueNext a.expiry) (hapart : ∀ z ∈ (s.die die.val).slots, s.crosses die.val a z.2 = false)
    (hop : a.op = .tile (.vec op dst x y k)) (hred : op.reduces = false) (hrow : op.perRow = false) {n : Nat}
    (hn : n = (a.expiry - a.start - 12) / op.rowCycles)
    (hclear : ∀ i j, i < n → j < n → i ≠ j → (s.vecWork op die.val a.phys dst x y k).Clear i j) :
    Does (.slotExpire die slot .clean) s fun t =>
      (∀ i, i < n → t.readBytes ((vOperand dst).rowAddr die.val a.phys 512 i) 512 =
        row32Bytes ((s.vecWork op die.val a.phys dst x y k).result s i)) ∧
      ∀ b, (∀ i, i < n → b < (vOperand dst).rowAddr die.val a.phys 512 i ∨
        (vOperand dst).rowAddr die.val a.phys 512 i + 512 ≤ b) → t.byte b = s.byte b := by
  have heffect : (s.left die.val slot.val a).expireEffect die.val slot.val a =
      (s.left die.val slot.val a).vector op die.val a.phys dst x y k n := by
    rw [State.expireEffect, hop, hn]
  exact ⟨_, (exec_slotExpire_clean hl hslot hdue hapart).trans (congrArg _ heffect),
    (s.left die.val slot.val a).vector_elementwise hred hrow die.val a.phys dst x y k n hclear⟩

theorem does_mmaDrainComplete_int {s : State} (hl : s.live = true) {die : Fin 4} {tile : Fin 32} {x : Drain}
    (hdrain : ((s.die die.val).drains.find? fun y => y.tile = tile.val) = some x) (hdue : (s.die die.val).DueNext x.done)
    (hint : x.int = true) : Does (.mmaDrainComplete die tile .clean) s fun t =>
      let base := accAddr die.val x.phys (x.set * 65536)
      (∀ i, i < x.sums.length → t.read32 (base + 4 * i) = s.intElement x.accum (base + 4 * i) (x.sums.getD i {})) ∧
      (∀ b, (b < base ∨ base + 4 * x.sums.length ≤ b) → t.byte b = s.byte b) ∧
      (t.die die.val).drains = (s.die die.val).drains.erase x := by
  obtain ⟨helem, hkept, hcmp⟩ := (s.setDie die.val { s.die die.val with
    drains := (s.die die.val).drains.erase x, cycle := max (s.die die.val).cycle x.done }).drain_int die.val hint
  refine ⟨_, exec_mmaDrainComplete_clean hl hdrain hdue, helem, hkept, ?_⟩
  rw [State.endDrain, State.die, hcmp, ← State.die, State.die_setDie_same]

/-- Settles O13: an elementwise operation over the state its action leaves, then a drain of integer sums. -/
theorem vectorAndDrainResults : Obligations.VectorAndDrainResults := by
  unfold Obligations.VectorAndDrainResults
  constructor
  · intro s die tile a op dst x y k hl hslot hdue hapart hop hred hrow n row hclear
    exact does_slotExpire_elementwise hl (slot := ⟨tile.val, by omega⟩) hslot hdue hapart hop hred hrow rfl hclear
  · intro s die tile x hl hdrain hdue hint base
    exact does_mmaDrainComplete_int hl hdrain hdue hint

end Sys2Proof.Machine
end

section
/-! ### What the start of a slot action leaves (R273, R276) -/

namespace Sys2Proof.Machine

open Sys2Proof

/-- The action stands in its slot, and the registers its bundle has written are listed. -/
def State.occupy (s : State) (n slot : Nat) (a : SlotAct) (wrote : List Nat) : State :=
  s.setDie n { s.die n with slots := SMap.put (s.die n).slots slot a, wrote := wrote }

theorem State.die_occupy (s : State) (n slot : Nat) (a : SlotAct) (w : List Nat) :
    (s.occupy n slot a w).die n = { s.die n with slots := SMap.put (s.die n).slots slot a, wrote := w } :=
  s.die_setDie_same n _

theorem State.die_occupy_other (s : State) {n m : Nat} (h : m ≠ n) (slot : Nat) (a : SlotAct) (w : List Nat) :
    (s.occupy n slot a w).die m = s.die m :=
  (s.die_setDie _ _ _).trans (if_neg h)

theorem State.occupy_frame (s : State) (n slot : Nat) (a : SlotAct) (w : List Nat) : (s.occupy n slot a w).mem = s.mem ∧
    (s.occupy n slot a w).regs = s.regs ∧ (s.occupy n slot a w).tly = s.tly ∧ (s.occupy n slot a w).hq = s.hq :=
  ⟨rfl, rfl, rfl, rfl⟩

/-- Once its checks are passed an action takes its slot, and its effect at issue begins from there. -/
theorem State.startAction_ok {s : State} {n slot dur : Nat} {op : SlotOp} (hfree : SMap.lookup (s.die n).slots slot = none)
    (hcode : s.operandCode n slot op dur (s.die n) = 0) (hover : s.overlapCause n slot (s.action n slot op dur) (s.die n) = 0)
    (hpush : s.pushCode n op = 0) : ∃ w, s.startAction n slot op dur =
      .ok ((s.occupy n slot (s.action n slot op dur) w).begin n slot op (s.action n slot op dur).phys) := by
  have hstart : s.startAction n slot op dur = .ok ((s.setDie n (Die.note
      { s.die n with slots := SMap.put (s.die n).slots slot (s.action n slot op dur) } op)).begin n slot op
        (s.action n slot op dur).phys) := by
    unfold State.startAction
    simp only [hfree, hcode, hover, hpush, ne_eq, not_true, if_false, Option.isSome_none, Bool.false_eq_true]
  rw [hstart, Die.note]
  cases opWrites op <;> exact ⟨_, rfl⟩

/-- What no start of an action but a QPUSH touches: the slots of its die, the other dies, the bytes, registers, tallies and
queues. -/
structure State.StartFrame (s t : State) (n : Nat) : Prop where
  slots : (t.die n).slots = (s.die n).slots
  dies : ∀ m, m ≠ n → t.die m = s.die m
  mem : t.mem = s.mem
  regs : t.regs = s.regs
  vals : t.tly.vals = s.tly.vals
  queues : t.hq.queues = s.hq.queues

theorem State.StartFrame.refl (s : State) (n : Nat) : s.StartFrame s n := ⟨rfl, fun _ _ => rfl, rfl, rfl, rfl, rfl⟩

theorem State.StartFrame.setDie (s : State) {n : Nat} {x : Die} (h : x.slots = (s.die n).slots) :
    s.StartFrame (s.setDie n x) n where
  slots := by rw [State.die_setDie_same, h]
  dies m hm := by rw [State.die_setDie, if_neg hm]
  mem := rfl
  regs := rfl
  vals := rfl
  queues := rfl

theorem State.StartFrame.iff {s : State} {n : Nat} {f : State → State} (h : s.StartFrame (f s) n) (b : Bool) :
    s.StartFrame (s.iff b f) n := by
  cases b
  · exact .refl s n
  · exact h

theorem Die.slots_put (d : Die) (r : BitVec 5) (v : Word) : (d.put r v).slots = d.slots := by
  unfold Die.put
  split <;> rfl

/-- The transfer of a mover's action, of the values its registers have. -/
def Die.xferOf (d : Die) (mover : Nat) (k : MoverKind) (ra rl : BitVec 5) (t : BitVec 12) (la : BitVec 22) (tag : Tag) : Xfer :=
  { mover := mover, kind := k, ra := d.val ra, rl := (d.val rl).toNat, tally := t.toNat, la := la.toNat, tag := tag }

/-- R282: a transfer is issued under a tag of its own. -/
theorem State.begin_mover (s : State) (n slot phys : Nat) {k : MoverKind} (hk : k ≠ .nop) (ra rl : BitVec 5) (t : BitVec 12)
    (la : BitVec 22) : ∃ f tag, s.begin n slot (.mover k ra rl t la) phys = ({ s with hq.sendSeq := f } : State).setDie n
      { s.die n with xfers := (s.die n).xfers ++ [(s.die n).xferOf (slot - 32) k ra rl t la tag] } := by
  cases k
  case nop => exact absurd rfl hk
  all_goals exact ⟨_, _, rfl⟩

theorem State.begin_mma (s : State) (n slot phys : Nat) (fa fb : Fmt) (x y : BitVec 14) (acc : BitVec 3) (accum sw ld : Bool) :
    s.begin n slot (.tile (.mma fa x acc accum sw ld fb y)) phys =
      s.iff sw fun s => s.setTileSt n phys (s.tileSt n phys).swap := rfl

theorem State.begin_bz (s : State) (n slot phys : Nat) (rs : BitVec 5) (t : BitVec 28) :
    s.begin n slot (.branch (.bz rs t)) phys =
      s.iff ((s.die n).val rs = 0) fun s' => s'.setDie n { s.die n with offset := t.toNat } := rfl

theorem State.begin_bnz (s : State) (n slot phys : Nat) (rs : BitVec 5) (t : BitVec 28) :
    s.begin n slot (.branch (.bnz rs t)) phys =
      s.iff ((s.die n).val rs ≠ 0) fun s' => s'.setDie n { s.die n with offset := t.toNat } := rfl

theorem State.begin_ppt (s : State) (n slot phys : Nat) (i : BitVec 16) :
    s.begin n slot (.branch (.ppt i)) phys = s.iff (s.field (Reg.seqPreempt n) 0 0 = 1 && (s.die n).save.isNone) fun s' =>
      s'.setDie n { s.die n with state := .saving, endStatus := i.toNat } := rfl

/-- A push is the one action whose start reaches beyond its die and the notices it sends. -/
def isPush : SlotOp → Bool
  | .tally (.qpush _ _ _) => true
  | _ => false

theorem State.pushCode_of_notPush {s : State} {n : Nat} {op : SlotOp} (h : isPush op = false) : s.pushCode n op = 0 := by
  unfold State.pushCode
  split
  · exact Bool.noConfusion h
  · rfl

theorem State.startFrame_begin (s : State) (n slot phys : Nat) {op : SlotOp} (h : isPush op = false) :
    s.StartFrame (s.begin n slot op phys) n := by
  cases op with
  | tile op =>
    cases op
    case mma =>
      rw [State.begin_mma]
      refine .iff ?_ _
      exact ⟨rfl, fun _ _ => rfl, rfl, rfl, rfl, rfl⟩
    all_goals exact .refl s n
  | mover k ra rl t la =>
    by_cases hk : k = .nop
    · subst hk
      exact .refl s n
    · obtain ⟨f, tag, hbegin⟩ := s.begin_mover n slot phys hk ra rl t la
      rw [hbegin]
      have hset := State.StartFrame.setDie ({ s with hq.sendSeq := f } : State) (n := n)
        (x := { s.die n with xfers := (s.die n).xfers ++ [(s.die n).xferOf (slot - 32) k ra rl t la tag] }) rfl
      exact ⟨hset.slots, hset.dies, rfl, rfl, rfl, rfl⟩
  | scalar op =>
    cases op
    case alu | addi | li | lih => exact .setDie s (Die.slots_put _ _ _)
    all_goals exact .refl s n
  | tally op =>
    cases op
    case nop => exact .refl s n
    case add | set => exact ⟨rfl, fun _ _ => rfl, rfl, rfl, rfl, rfl⟩
    case wait | read => exact .setDie s rfl
    case qpush => exact absurd h Bool.noConfusion
  | branch op =>
    cases op
    case nop | rdv => exact .refl s n
    case jmp | endSeg => exact .setDie s rfl
    case bz | bnz | ppt =>
      simp only [State.begin_bz, State.begin_bnz, State.begin_ppt]
      refine .iff ?_ _
      exact .setDie s rfl
    case loop rs t =>
      refine .setDie s ?_
      split <;> exact Die.slots_put _ _ _
  | port op =>
    cases op
    case attend => exact .setDie s rfl
    all_goals exact .refl s n

/-- An action that has begun stands in its slot; nothing but its die and what it sends differs from the state it began in. -/
theorem State.begin_occupied (s : State) (n slot phys : Nat) (a : SlotAct) (w : List Nat) {op : SlotOp} (hop : isPush op = false) :
    let t := (s.occupy n slot a w).begin n slot op phys
    SMap.lookup (t.die n).slots slot = some a ∧ t.mem = s.mem ∧ t.regs = s.regs ∧ t.tly.vals = s.tly.vals ∧
      t.hq.queues = s.hq.queues ∧ ∀ m, m ≠ n → t.die m = s.die m := by
  obtain ⟨hmem, hregs, htly, hhq⟩ := s.occupy_frame n slot a w
  obtain ⟨hslots, hdies, hmem', hregs', hvals, hqueues⟩ := (s.occupy n slot a w).startFrame_begin n slot phys hop
  refine ⟨?_, hmem'.trans hmem, hregs'.trans hregs, by rw [hvals, htly], by rw [hqueues, hhq],
    fun m hm => (hdies m hm).trans (s.die_occupy_other hm slot a w)⟩
  rw [hslots, State.die_occupy]
  exact SMap.lookup_put_same _ _ _

/-! #### A row whose action fits -/

section fits

variable {s : State} {n slot dur : Nat} {op : SlotOp} (hfits : s.Fits n slot op dur)
include hfits

theorem State.Fits.issueOne (hpush : (s.laid n).pushCode n op = 0) : ∃ w, s.issueOne n slot (.ok op) dur =
    ((s.laid n).occupy n slot ((s.laid n).action n slot op dur) w).begin n slot op ((s.laid n).action n slot op dur).phys := by
  obtain ⟨-, hrun, hfree, hcode, hover⟩ := hfits
  obtain ⟨w, hstart⟩ := State.startAction_ok hfree hcode hover hpush
  refine ⟨w, ?_⟩
  rw [State.issueOne, if_neg (not_not_intro hrun)]
  simp only [hstart]

/-- A row issues an action that fits: what the action's start does to the laid state with the slot taken holds of the next state. -/
theorem State.Fits.does {c : Instr} {v : State} (hexec : exec c v = .next (s.issueOne n slot (.ok op) dur))
    (hop : isPush op = false) {P : State → Prop}
    (hP : ∀ w, P (((s.laid n).occupy n slot ((s.laid n).action n slot op dur) w).begin n slot op
      ((s.laid n).action n slot op dur).phys)) :
    Does c v fun t => Occupies s t n slot op dur ∧ P t := by
  obtain ⟨w, hissue⟩ := hfits.issueOne (State.pushCode_of_notPush hop)
  rw [hissue] at hexec
  exact ⟨_, hexec, (s.laid n).begin_occupied n slot _ _ w hop, hP w⟩

theorem State.Fits.does_occupies {c : Instr} {v : State} (hexec : exec c v = .next (s.issueOne n slot (.ok op) dur))
    (hop : isPush op = false) : Does c v fun t => Occupies s t n slot op dur := by
  obtain ⟨t, ht, hocc, -⟩ := hfits.does hexec hop (P := fun _ => True) fun _ => trivial
  exact ⟨t, ht, hocc⟩

/-- A slot row of a live module, from the row's own equation. -/
theorem State.Fits.exec_eq {c : Instr} (hrow : exec c s = gate s fun s => s.issueOne n slot (.ok op) dur) :
    exec c s = .next (s.issueOne n slot (.ok op) dur) :=
  hrow.trans (gate_live hfits.1 _)

end fits

end Sys2Proof.Machine
end

section
/-! ### Rows of the tile, mover and port slots (R273, R277, R282 to R284, R286, R289) -/

namespace Sys2Proof.Machine

open Sys2Proof

/-- A tile slot's action has the physical tile its logical tile is mapped to. -/
theorem State.phys_action (s : State) (n : Nat) {slot p : Nat} (hslot : slot < 32) (hp : s.physTile n slot = some p)
    (op : SlotOp) (dur : Nat) : (s.action n slot op dur).phys = p := by
  simp only [State.action, if_pos hslot, hp, Option.getD_some]

theorem State.tileSt_setTileSt_same (s : State) (n p : Nat) (x : TileSt) : (s.setTileSt n p x).tileSt n p = x :=
  SMap.get_set_same _ _ _ _

/-- R235: SWAP makes the other stationary register the active one. -/
theorem State.active_begin_mma (s : State) (n slot p : Nat) (a : SlotAct) (w : List Nat) (fa fb : Fmt) (x y : BitVec 14)
    (acc : BitVec 3) (accum sw ld : Bool) :
    (((s.occupy n slot a w).begin n slot (.tile (.mma fa x acc accum sw ld fb y)) p).tileSt n p).active =
      if sw then 1 - (s.tileSt n p).active else (s.tileSt n p).active := by
  rw [State.begin_mma]
  cases sw
  · rfl
  · exact congrArg TileSt.active ((s.occupy n slot a w).tileSt_setTileSt_same n p _)

theorem State.xfers_begin_mover (s : State) (n slot phys : Nat) (a : SlotAct) (w : List Nat) {k : MoverKind} (hk : k ≠ .nop)
    (ra rl : BitVec 5) (t : BitVec 12) (la : BitVec 22) :
    ∃ tag, (((s.occupy n slot a w).begin n slot (.mover k ra rl t la) phys).die n).xfers =
      (s.die n).xfers ++ [(s.die n).xferOf (slot - 32) k ra rl t la tag] := by
  obtain ⟨f, tag, hbegin⟩ := (s.occupy n slot a w).begin_mover n slot phys hk ra rl t la
  refine ⟨tag, ?_⟩
  rw [hbegin, State.die_setDie_same, State.die_occupy]
  rfl

theorem State.xfers_begin_mnop (s : State) (n slot phys : Nat) (a : SlotAct) (w : List Nat) :
    (((s.occupy n slot a w).begin n slot (.mover .nop 0 0 0 0) phys).die n).xfers = (s.die n).xfers := by
  show ((s.occupy n slot a w).die n).xfers = _
  rw [State.die_occupy]

/-- R289: the list of an ATTEND holds the tiles its register names. -/
theorem State.held_begin_attend (s : State) (n slot phys : Nat) (a : SlotAct) (w : List Nat) (rm : BitVec 5) (count : BitVec 12)
    (la : BitVec 22) : (((s.occupy n slot a w).begin n slot (.port (.attend rm count la)) phys).die n).held =
      (s.die n).held ++ maskTiles ((s.die n).val rm) := by
  have hbegin : (s.occupy n slot a w).begin n slot (.port (.attend rm count la)) phys = (s.occupy n slot a w).setDie n
      { (s.occupy n slot a w).die n with lists := ((s.occupy n slot a w).die n).lists ++
        [{ tiles := maskTiles (((s.occupy n slot a w).die n).val rm), at_ := 128 * la.toNat, left := count.toNat + 1 }] } := rfl
  rw [hbegin, State.die_setDie_same, State.die_occupy, Die.held, List.flatMap_append, List.flatMap_singleton]
  rfl

section rows

variable {s : State} {die : Fin 4} (dur : BitVec 12)

theorem does_scale2 {tile : Fin 32} {dst x : BitVec 14} {k : BitVec 9} (hk : k ≠ 256)
    (hfits : s.Fits die.val tile.val (.tile (.vec .scale2 dst x 0 k)) (cyclesOf dur)) :
    Does (.vscale2 die tile dur dst x k) s fun t =>
      Occupies s t die.val tile.val (.tile (.vec .scale2 dst x 0 k)) (cyclesOf dur) := by
  refine hfits.does_occupies (hfits.exec_eq ?_) rfl
  show execVscale2 die tile dur dst x k s = _
  rw [execVscale2, if_neg hk]

theorem does_mma {tile : Fin 32} {fa fb : Fmt} {x y : BitVec 14} {acc : BitVec 3} {accum swap ld : Bool}
    (hfits : s.Fits die.val tile.val (.tile (.mma fa x acc accum swap ld fb y)) (cyclesOf dur)) :
    Does (.mma die tile dur fa x acc accum swap ld fb y) s fun t =>
      Occupies s t die.val tile.val (.tile (.mma fa x acc accum swap ld fb y)) (cyclesOf dur) ∧
      ∀ p, (s.laid die.val).physTile die.val tile.val = some p → (t.tileSt die.val p).active =
        if swap then 1 - ((s.laid die.val).tileSt die.val p).active else ((s.laid die.val).tileSt die.val p).active := by
  refine hfits.does (hfits.exec_eq rfl) rfl fun w p hp => ?_
  rw [State.phys_action _ _ tile.isLt hp, State.active_begin_mma]

theorem does_mover {c : Instr} {mover : Fin 8} {k : MoverKind} {ra rl : BitVec 5} {tally : BitVec 12} {la : BitVec 22}
    (hk : k ≠ .nop) (hrow : exec c s = gate s fun s =>
      s.issueOne die.val (32 + mover.val) (.ok (.mover k ra rl tally la)) (cyclesOf dur))
    (hfits : s.Fits die.val (32 + mover.val) (.mover k ra rl tally la) (cyclesOf dur)) :
    Does c s fun t => Occupies s t die.val (32 + mover.val) (.mover k ra rl tally la) (cyclesOf dur) ∧
      ∃ tag, (t.die die.val).xfers = ((s.laid die.val).die die.val).xfers ++
        [((s.laid die.val).die die.val).xferOf mover.val k ra rl tally la tag] := by
  refine hfits.does (hfits.exec_eq hrow) rfl fun w => ?_
  obtain ⟨tag, hxfers⟩ := (s.laid die.val).xfers_begin_mover die.val (32 + mover.val) _ _ w hk ra rl tally la
  rw [Nat.add_sub_cancel_left] at hxfers
  exact ⟨tag, hxfers⟩

theorem does_mnop {mover : Fin 8} (hfits : s.Fits die.val (32 + mover.val) (.mover .nop 0 0 0 0) (cyclesOf dur)) :
    Does (.mnop die mover dur) s fun t => Occupies s t die.val (32 + mover.val) (.mover .nop 0 0 0 0) (cyclesOf dur) ∧
      (t.die die.val).xfers = ((s.laid die.val).die die.val).xfers :=
  hfits.does (hfits.exec_eq rfl) rfl fun w => (s.laid die.val).xfers_begin_mnop die.val (32 + mover.val) _ _ w

theorem does_attend {rm : BitVec 5} {count : BitVec 12} {la : BitVec 22}
    (hfits : s.Fits die.val slotP (.port (.attend rm count la)) (cyclesOf dur)) :
    Does (.attend die dur rm count la) s fun t => Occupies s t die.val slotP (.port (.attend rm count la)) (cyclesOf dur) ∧
      (t.die die.val).held =
        ((s.laid die.val).die die.val).held ++ maskTiles (((s.laid die.val).die die.val).val rm) :=
  hfits.does (hfits.exec_eq rfl) rfl fun w => (s.laid die.val).held_begin_attend die.val slotP _ _ w rm count la

end rows

/-- Settles O9: every row is the issue of one action, which stands in its slot once its checks are passed. -/
theorem actionsIssue : Obligations.ActionsIssue := by
  unfold Obligations.ActionsIssue
  constructor
  · intro s die tile dur dst x y fa fb acc accum swap ld sat k
    refine ⟨fun p hp hfits => ?_, fun hk hfits => does_scale2 dur hk hfits, fun hfits => does_mma dur hfits⟩
    refine hfits.does_occupies (hfits.exec_eq ?_) rfl
    clear hfits
    fin_cases hp <;> rfl
  · intro s die mover dur ra rl rm tally count la b op14
    refine ⟨fun p hp hfits => ?_, fun hfits => does_mnop dur hfits, fun p hp hfits => ?_, fun hfits => does_attend dur hfits⟩
    · have hrow : p.2.1 ≠ .nop ∧ exec p.1 s = gate s fun s =>
          s.issueOne die.val (32 + mover.val) (.ok (.mover p.2.1 p.2.2 rl tally la)) (cyclesOf dur) := by
        clear hfits
        fin_cases hp <;> exact ⟨nofun, rfl⟩
      exact does_mover dur hrow.1 hrow.2 hfits
    · refine hfits.does_occupies (hfits.exec_eq ?_) rfl
      clear hfits
      fin_cases hp <;> rfl

end Sys2Proof.Machine
end

section
/-! ### Rows of the scalar slots (R290) -/

namespace Sys2Proof.Machine

open Sys2Proof

theorem Die.get_regs_put (d : Die) (rd : BitVec 5) (v : Word) (r : Nat) :
    SMap.get 0 (d.put rd v).regs r = if rd ≠ 0 ∧ r = rd.toNat then v else SMap.get 0 d.regs r := by
  unfold Die.put
  by_cases hrd : rd = 0
  · simp [hrd]
  · rw [if_neg hrd]
    exact (SMap.get_set _ _ _ _ _).trans (if_congr (and_iff_right hrd).symm rfl rfl)

/-! #### Results as numbers -/

theorem aluValue_shl (a b : Word) : aluValue .shl a b = BitVec.ofNat 64 (a.toNat * 2 ^ (b.toNat % 64)) := by
  refine BitVec.eq_of_toNat_eq ?_
  rw [aluValue, BitVec.toNat_shiftLeft, Nat.shiftLeft_eq, BitVec.toNat_ofNat]

theorem aluValue_shr (a b : Word) : aluValue .shr a b = BitVec.ofNat 64 (a.toNat / 2 ^ (b.toNat % 64)) := by
  refine BitVec.eq_of_toNat_eq ?_
  rw [aluValue, BitVec.toNat_ushiftRight, Nat.shiftRight_eq_div_pow, BitVec.toNat_ofNat,
    Nat.mod_eq_of_lt ((Nat.div_le_self _ _).trans_lt a.isLt)]

theorem aluValue_sra (a b : Word) : aluValue .sra a b = BitVec.ofInt 64 (a.toInt / 2 ^ (b.toNat % 64)) := by
  rw [aluValue, BitVec.sshiftRight, Int.shiftRight_eq_div_pow]
  norm_cast

theorem aluValue_mul (a b : Word) : aluValue .mul a b = BitVec.ofNat 64 (a.toNat * b.toNat) := by
  refine BitVec.eq_of_toNat_eq ?_
  rw [aluValue, BitVec.toNat_mul, BitVec.toNat_ofNat]

/-- LIH keeps the low half and puts the immediate in the high half. -/
theorem setBits_high (w : Word) (i : BitVec 32) :
    setBits w 63 32 i.toNat = BitVec.ofNat 64 (2 ^ 32 * i.toNat + w.toNat % 2 ^ 32) := by
  refine BitVec.eq_of_getLsbD_eq fun j hj => ?_
  rw [setBits_getLsbD _ _ _ _ _ (by decide) (by decide), BitVec.getLsbD_ofNat,
    Nat.testBit_two_pow_mul_add _ (Nat.mod_lt _ (by decide)), Nat.testBit_mod_two_pow, BitVec.getLsbD]
  by_cases hlow : j < 32
  · simp [hlow, hj, Nat.not_le.2 hlow]
  · simp [hlow, hj, Nat.not_lt.1 hlow, Nat.le_of_lt_succ hj]

/-! #### The rows -/

/-- A one-cycle operation puts its value into RD. -/
def OneCycle (op : ScalarOp) (rd : BitVec 5) : Prop :=
  ∀ (s : State) (n slot phys : Nat), s.begin n slot (.scalar op) phys = s.setDie n ((s.die n).put rd (scalarValue op (s.die n)))

theorem scalarValue_occupy (s : State) (n slot : Nat) (a : SlotAct) (w : List Nat) (op : ScalarOp) :
    scalarValue op ((s.occupy n slot a w).die n) = scalarValue op (s.die n) := by
  rw [State.die_occupy]
  cases op <;> rfl

theorem OneCycle.get_regs {op : ScalarOp} {rd : BitVec 5} (h : OneCycle op rd) (s : State) (n slot phys : Nat) (a : SlotAct)
    (w : List Nat) (r : Nat) : SMap.get 0 (((s.occupy n slot a w).begin n slot (.scalar op) phys).die n).regs r =
      if rd ≠ 0 ∧ r = rd.toNat then scalarValue op (s.die n) else SMap.get 0 (s.die n).regs r := by
  rw [h, State.die_setDie_same, Die.get_regs_put, scalarValue_occupy, State.die_occupy]

/-- R290: a row of a one-cycle operation writes its value to RD and to no other register. -/
theorem OneCycle.does {s : State} {die slot : Fin 4} {dur : BitVec 12} {c : Instr} {op : ScalarOp} {rd : BitVec 5} {v : Word}
    (h : OneCycle op rd) (hrow : exec c s = gate s fun s => s.issueOne die.val (40 + slot.val) (.ok (.scalar op)) (cyclesOf dur))
    (hv : scalarValue op ((s.laid die.val).die die.val) = v)
    (hfits : s.Fits die.val (40 + slot.val) (.scalar op) (cyclesOf dur)) :
    Does c s fun t => Occupies s t die.val (40 + slot.val) (.scalar op) (cyclesOf dur) ∧
      ∀ r, SMap.get 0 (t.die die.val).regs r =
        if rd ≠ 0 ∧ r = rd.toNat then v else SMap.get 0 ((s.laid die.val).die die.val).regs r := by
  subst hv
  exact hfits.does (hfits.exec_eq hrow) rfl fun w r => h.get_regs (s.laid die.val) die.val (40 + slot.val) _ _ w r

/-- Settles O10: each row is that of a one-cycle operation; its value is the opcode's result. -/
theorem scalarResults : Obligations.ScalarResults := by
  unfold Obligations.ScalarResults
  intro s die slot dur rd ra rb i29 i39 i32 d a b p hp hfits
  have hrow : OneCycle p.2.1 rd ∧ exec p.1 s = (gate s fun s =>
      s.issueOne die.val (40 + slot.val) (.ok (.scalar p.2.1)) (cyclesOf dur)) ∧ scalarValue p.2.1 d = p.2.2 := by
    clear hfits
    clear_value d
    fin_cases hp
    all_goals refine ⟨fun _ _ _ _ => rfl, rfl, ?_⟩
    -- in the order of the rows: all but SHL, SHR, SRA, MUL and LIH are stated as the model computes them
    exacts [rfl, rfl, rfl, rfl, rfl, aluValue_shl _ _, aluValue_shr _ _, aluValue_sra _ _, rfl, rfl, aluValue_mul _ _, rfl, rfl,
      setBits_high _ _]
  obtain ⟨hone, hexec, hvalue⟩ := hrow
  exact hone.does hexec hvalue hfits

end Sys2Proof.Machine
end

section
/-! ### Loads, stores, tally actions and pushes of a stream (R290 to R295, R327) -/

namespace Sys2Proof.Machine

open Sys2Proof

/-! #### Notices and stall points -/

theorem State.tly_begin_ynop (s : State) (n slot phys : Nat) (a : SlotAct) (w : List Nat) :
    ((s.occupy n slot a w).begin n slot (.tally .nop) phys).tly = s.tly := rfl

theorem State.sent_begin_add (s : State) (n slot phys : Nat) (a : SlotAct) (w : List Nat) (t : BitVec 12) (i : BitVec 16) :
    ((s.occupy n slot a w).begin n slot (.tally (.add t i)) phys).tly.sent =
      s.tly.sent ++ [⟨n, t.toNat, false, BitVec.ofNat 32 (i.toNat + 1)⟩] := rfl

theorem State.sent_begin_set (s : State) (n slot phys : Nat) (a : SlotAct) (w : List Nat) (t : BitVec 12) (rs : BitVec 5) :
    ((s.occupy n slot a w).begin n slot (.tally (.set t rs)) phys).tly.sent =
      s.tly.sent ++ [⟨n, t.toNat, true, ((s.die n).val rs).setWidth 32⟩] := by
  show s.tly.sent ++ [⟨n, t.toNat, true, (((s.occupy n slot a w).die n).val rs).setWidth 32⟩] = _
  rw [State.die_occupy]
  rfl

/-- R293: a YWAIT stalls its die until the tally is at or beyond RS + IMM. -/
theorem State.stalls_begin_wait (s : State) (n slot phys : Nat) (a : SlotAct) (w : List Nat) (t : BitVec 12) (rs : BitVec 5)
    (i : BitVec 16) : let d := ((s.occupy n slot a w).begin n slot (.tally (.wait t rs i)) phys).die n
      d.state = .stalled ∧ d.stalls = (s.die n).stalls ++
        [.wait t.toNat (((s.die n).val rs).setWidth 32 + BitVec.ofNat 32 i.toNat)] := by
  intro d
  have hd : d = ((s.occupy n slot a w).die n).stall s.now
      (.wait t.toNat ((((s.occupy n slot a w).die n).val rs).setWidth 32 + BitVec.ofNat 32 i.toNat)) :=
    State.die_setDie_same _ _ _
  rw [hd, State.die_occupy]
  exact ⟨rfl, rfl⟩

theorem State.stalls_begin_read (s : State) (n slot phys : Nat) (a : SlotAct) (w : List Nat) (t : BitVec 12) (rd : BitVec 5) :
    let d := ((s.occupy n slot a w).begin n slot (.tally (.read t rd)) phys).die n
    d.state = .stalled ∧ d.stalls = (s.die n).stalls ++ [.read t.toNat rd.toNat] := by
  intro d
  have hd : d = ((s.occupy n slot a w).die n).stall s.now (.read t.toNat rd.toNat) := State.die_setDie_same _ _ _
  rw [hd, State.die_occupy]
  exact ⟨rfl, rfl⟩

/-! #### Pushes -/

/-- R327: an item that finds room enters its queue behind the others; no other queue and no byte changes. -/
structure State.EntersBehind (s t : State) (q : Nat) (e : QEntry) : Prop where
  items : (t.queue q).items = (s.queue q).items ++ [e]
  others : ∀ p, p ≠ q → t.queue p = s.queue p
  mem : t.mem = s.mem

theorem State.entersBehind_enter (s : State) (q : Nat) (e : QEntry) : s.EntersBehind (s.enter q e) q e where
  items := s.items_enter q e
  others p hp := by
    rw [State.queue, State.enter_hq]
    exact (s.queue_setQueue q p _).trans (if_neg hp)
  mem := by simp only [State.enter_frame]

theorem State.EntersBehind.hwPush {s : State} {q : Nat} (hroom : (s.queue q).items.length < s.qDepth q) (w : WaitPush) :
    s.EntersBehind (s.hwPush q w) q ⟨w.prio, w.item, false⟩ := by
  have hpush : s.hwPush q w = (s.enter q ⟨w.prio, w.item, false⟩).pushed w := by
    rw [State.hwPush, if_neg (Nat.ne_of_gt (Nat.zero_lt_of_lt hroom)), if_pos hroom]
  obtain ⟨hitems, hothers, hmem⟩ := s.entersBehind_enter q ⟨w.prio, w.item, false⟩
  have hqueue (p : Nat) : (s.hwPush q w).queue p = (s.enter q ⟨w.prio, w.item, false⟩).queue p := by
    rw [hpush, State.queue, State.queue]
    simp only [State.pushed_frame]
  refine ⟨(congrArg Queue.items (hqueue q)).trans hitems, fun p hp => (hqueue p).trans (hothers p hp), ?_⟩
  rw [hpush]
  simpa only [State.pushed_frame] using hmem

/-- R292: a QPUSH that is no duplicate pushes the item at LA. -/
theorem State.begin_qpush (s : State) (n slot phys : Nat) (q : BitVec 9) (p : BitVec 3) (la : BitVec 22) {it : Item}
    (hit : s.pushItem n la.toNat = it)
    (hnew : s.duplicate (seqKey (dieSender n) (s.qReader q.toNat) (tagClass it.w1)) it.w1 = false) :
    s.begin n slot (.tally (.qpush q p la)) phys = ((s.setDie n ((s.die n).stall s.now (.push q.toNat p.toNat it))).noteSeq
      (seqKey (dieSender n) (s.qReader q.toNat) (tagClass it.w1)) it.w1).hwPush q.toNat
        { prio := p.toNat, item := it, die := some n } := by
  subst hit
  rw [State.begin]
  exact if_neg (Bool.eq_false_iff.1 hnew)

theorem State.entersBehind_begin_qpush (s : State) (n slot phys : Nat) (q : BitVec 9) (p : BitVec 3) (la : BitVec 22) {it : Item}
    (hit : s.pushItem n la.toNat = it)
    (hnew : s.duplicate (seqKey (dieSender n) (s.qReader q.toNat) (tagClass it.w1)) it.w1 = false)
    (hroom : (s.queue q.toNat).items.length < s.qDepth q.toNat) :
    s.EntersBehind (s.begin n slot (.tally (.qpush q p la)) phys) q.toNat ⟨p.toNat, it, false⟩ := by
  rw [s.begin_qpush n slot phys q p la hit hnew]
  obtain ⟨hitems, hothers, hmem⟩ := State.EntersBehind.hwPush
    (s := (s.setDie n ((s.die n).stall s.now (.push q.toNat p.toNat it))).noteSeq
      (seqKey (dieSender n) (s.qReader q.toNat) (tagClass it.w1)) it.w1) hroom { prio := p.toNat, item := it, die := some n }
  exact ⟨hitems, hothers, hmem⟩

theorem State.entersBehind_begin_occupied (s : State) (n slot phys : Nat) (a : SlotAct) (w : List Nat) (q : BitVec 9)
    (p : BitVec 3) (la : BitVec 22) {it : Item} (hit : s.pushItem n la.toNat = it)
    (hnew : s.duplicate (seqKey (dieSender n) (s.qReader q.toNat) (tagClass it.w1)) it.w1 = false)
    (hroom : (s.queue q.toNat).items.length < s.qDepth q.toNat) :
    s.EntersBehind ((s.occupy n slot a w).begin n slot (.tally (.qpush q p la)) phys) q.toNat ⟨p.toNat, it, false⟩ := by
  obtain ⟨hitems, hothers, hmem⟩ := (s.occupy n slot a w).entersBehind_begin_qpush n slot phys q p la hit hnew hroom
  exact ⟨hitems, hothers, hmem⟩

section rows

variable {s : State} {die : Fin 4} {y : Fin 2} {dur tally : BitVec 12}

theorem does_qpush {queue : BitVec 9} {prio : BitVec 3} {la : BitVec 22} {it : Item}
    (hit : (s.laid die.val).pushItem die.val la.toNat = it)
    (hfits : s.Fits die.val (44 + y.val) (.tally (.qpush queue prio la)) (cyclesOf dur))
    (hok : (s.laid die.val).refusalOf queue.toNat it = 0)
    (hnew : (s.laid die.val).duplicate
      (seqKey (dieSender die.val) ((s.laid die.val).qReader queue.toNat) (tagClass it.w1)) it.w1 = false)
    (hroom : ((s.laid die.val).queue queue.toNat).items.length < (s.laid die.val).qDepth queue.toNat) :
    Does (.qpush die y dur queue prio la) s fun t => (s.laid die.val).EntersBehind t queue.toNat ⟨prio.toNat, it, false⟩ := by
  have hpush : (s.laid die.val).pushCode die.val (.tally (.qpush queue prio la)) = 0 := by
    rw [State.pushCode, hit, hok]
  obtain ⟨w, hissue⟩ := hfits.issueOne hpush
  exact ⟨_, (hfits.exec_eq rfl).trans (congrArg _ hissue),
    (s.laid die.val).entersBehind_begin_occupied die.val (44 + y.val) _ _ w queue prio la hit hnew hroom⟩

end rows

/-- Settles O11: each row's notice or stall point is that of its action's start; a QPUSH that finds room enters its item. -/
theorem loadStoreAndTallyActions : Obligations.LoadStoreAndTallyActions := by
  unfold Obligations.LoadStoreAndTallyActions
  intro s die slot y dur tally rd ra rs w la n16 queue prio u d
  refine ⟨fun p hp hfits => ?_, fun hfits => ?_, fun hfits => ?_, fun hfits => ?_, fun hfits => ?_, fun hfits => ?_, ?_⟩
  · refine hfits.does_occupies (hfits.exec_eq ?_) rfl
    clear hfits
    fin_cases hp <;> rfl
  · exact hfits.does (hfits.exec_eq rfl) rfl fun w => u.tly_begin_ynop die.val (44 + y.val) _ _ w
  · exact hfits.does (hfits.exec_eq rfl) rfl fun w => u.sent_begin_add die.val (44 + y.val) _ _ w tally n16
  · exact hfits.does (hfits.exec_eq rfl) rfl fun w => u.sent_begin_set die.val (44 + y.val) _ _ w tally rs
  · exact hfits.does (hfits.exec_eq rfl) rfl fun w => u.stalls_begin_wait die.val (44 + y.val) _ _ w tally rs n16
  · exact hfits.does (hfits.exec_eq rfl) rfl fun w => u.stalls_begin_read die.val (44 + y.val) _ _ w tally rd
  · intro it hfits hok hnew hroom
    obtain ⟨t, ht, hitems, hothers, hmem⟩ := does_qpush rfl hfits hok hnew hroom
    exact ⟨t, ht, hitems, hothers, hmem⟩

end Sys2Proof.Machine
end

section
/-! ### Rows of the branch slot (R296 to R299, R304) -/

namespace Sys2Proof.Machine

open Sys2Proof

theorem State.issueBranch_untargeted {b : BranchOp} (h : branchTarget b = none) (s : State) (n dur : Nat) :
    s.issueBranch n b dur = s.issueOne n slotB (.ok (.branch b)) dur := by
  rw [State.issueBranch, h]
  rfl

theorem State.issueBranch_targeted {s : State} {n : Nat} {b : BranchOp} {t : Nat} (h : branchTarget b = some t)
    (hok : s.targetOk (s.die n) t = true) (dur : Nat) :
    s.issueBranch n b dur = s.issueOne n slotB (.ok (.branch b)) dur := by
  rw [State.issueBranch, h]
  simp only [hok, Bool.not_true, Bool.false_eq_true, if_false]

theorem State.Fits.exec_branch {s : State} {die : Fin 4} {dur : BitVec 12} {c : Instr} {b : BranchOp}
    (hfits : s.Fits die.val slotB (.branch b) (cyclesOf dur))
    (hrow : exec c s = gate s fun s => s.issueBranch die.val b (cyclesOf dur))
    (hok : ∀ t, branchTarget b = some t → s.targetOk (s.die die.val) t = true) :
    exec c s = .next (s.issueOne die.val slotB (.ok (.branch b)) (cyclesOf dur)) := by
  rw [hrow, gate_live hfits.1]
  cases htarget : branchTarget b with
  | none => rw [State.issueBranch_untargeted htarget]
  | some t => rw [State.issueBranch_targeted htarget (hok t htarget)]

theorem Die.offset_put (d : Die) (r : BitVec 5) (v : Word) : (d.put r v).offset = d.offset := by
  unfold Die.put
  split <;> rfl

/-! #### Where the next bundle is, and what starts to end -/

section start

variable (s : State) (n slot phys : Nat) (a : SlotAct) (w : List Nat)

theorem State.offset_begin_bnop :
    (((s.occupy n slot a w).begin n slot (.branch .nop) phys).die n).offset = (s.die n).offset := by
  show ((s.occupy n slot a w).die n).offset = _
  rw [State.die_occupy]

theorem State.offset_begin_jmp (t : BitVec 28) :
    (((s.occupy n slot a w).begin n slot (.branch (.jmp t)) phys).die n).offset = t.toNat := by
  show (((s.occupy n slot a w).setDie n { (s.occupy n slot a w).die n with offset := t.toNat }).die n).offset = _
  rw [State.die_setDie_same]

theorem State.die_iff_setDie (u : State) (b : Bool) (x : Die) :
    ((u.iff b fun v => v.setDie n x).die n) = if b then x else u.die n := by
  cases b
  · rfl
  · exact u.die_setDie_same n x

theorem State.val_occupy (r : BitVec 5) : ((s.occupy n slot a w).die n).val r = (s.die n).val r := by
  rw [State.die_occupy]
  rfl

theorem State.offset_begin_bz (rs : BitVec 5) (t : BitVec 28) :
    (((s.occupy n slot a w).begin n slot (.branch (.bz rs t)) phys).die n).offset =
      if (s.die n).val rs = 0 then t.toNat else (s.die n).offset := by
  rw [State.begin_bz, State.die_iff_setDie, State.val_occupy]
  by_cases h : (s.die n).val rs = 0
  · rw [if_pos (decide_eq_true h), if_pos h]
  · rw [if_neg (by simpa using h), if_neg h, State.die_occupy]

theorem State.offset_begin_bnz (rs : BitVec 5) (t : BitVec 28) :
    (((s.occupy n slot a w).begin n slot (.branch (.bnz rs t)) phys).die n).offset =
      if (s.die n).val rs = 0 then (s.die n).offset else t.toNat := by
  rw [State.begin_bnz, State.die_iff_setDie, State.val_occupy]
  by_cases h : (s.die n).val rs = 0
  · rw [if_neg (by simpa using h), if_pos h, State.die_occupy]
  · rw [if_pos (decide_eq_true h), if_neg h]

/-- R296: LOOP counts its register down and falls through at 0. -/
theorem State.begin_loop (rs : BitVec 5) (t : BitVec 28) :
    let d := ((s.occupy n slot a w).begin n slot (.branch (.loop rs t)) phys).die n
    d.offset = (if (s.die n).val rs = 1 then (s.die n).offset else t.toNat) ∧ ∀ r, SMap.get 0 d.regs r =
      if rs ≠ 0 ∧ r = rs.toNat then (s.die n).val rs - 1 else SMap.get 0 (s.die n).regs r := by
  intro d
  have hd : d = if (s.die n).val rs - 1 ≠ 0
      then { ((s.occupy n slot a w).die n).put rs ((s.die n).val rs - 1) with offset := t.toNat }
      else ((s.occupy n slot a w).die n).put rs ((s.die n).val rs - 1) := by
    rw [← s.val_occupy n slot a w rs]
    exact State.die_setDie_same _ _ _
  have hregs (r : Nat) := Die.get_regs_put ((s.occupy n slot a w).die n) rs ((s.die n).val rs - 1) r
  have hoffset := Die.offset_put ((s.occupy n slot a w).die n) rs ((s.die n).val rs - 1)
  rw [State.die_occupy] at hregs hoffset
  rw [hd, State.die_occupy]
  by_cases hlast : (s.die n).val rs = 1
  · rw [if_neg (not_not_intro (sub_eq_zero.2 hlast)), if_pos hlast]
    exact ⟨hoffset, hregs⟩
  · rw [if_pos (fun h => hlast (sub_eq_zero.1 h)), if_neg hlast]
    exact ⟨rfl, hregs⟩

theorem State.ending_begin_endSeg (st : BitVec 16) :
    let d := ((s.occupy n slot a w).begin n slot (.branch (.endSeg st)) phys).die n
    d.state = .ending ∧ d.endStatus = st.toNat := by
  intro d
  have hd : d = { (s.occupy n slot a w).die n with state := .ending, endStatus := st.toNat } := State.die_setDie_same _ _ _
  rw [hd]
  exact ⟨rfl, rfl⟩

/-- R304, R399: a requested point stops issue until the save, unless a save is held. -/
theorem State.state_begin_ppt (i : BitVec 16) :
    (((s.occupy n slot a w).begin n slot (.branch (.ppt i)) phys).die n).state =
      if s.field (Reg.seqPreempt n) 0 0 = 1 ∧ (s.die n).save = none then .saving else (s.die n).state := by
  have hsave : ((s.occupy n slot a w).die n).save = (s.die n).save := by rw [State.die_occupy]
  have hfield : (s.occupy n slot a w).field (Reg.seqPreempt n) 0 0 = s.field (Reg.seqPreempt n) 0 0 := rfl
  rw [State.begin_ppt, State.die_iff_setDie, hsave, hfield]
  by_cases h : s.field (Reg.seqPreempt n) 0 0 = 1 ∧ (s.die n).save = none
  · rw [if_pos h, if_pos (by simpa using h)]
  · rw [if_neg h, if_neg (by simpa using h), State.die_occupy]

end start

/-- R299: the rendezvous bundle issues over the state in which all that it names has ended. -/
theorem does_rdv {s : State} {die : Fin 4} {dur : BitVec 12} {all : Bool} {rm : BitVec 5} (hl : s.live = true)
    (hrun : (s.die die.val).state = .running) {mask : Nat} (hmask : (SMap.get 0 (s.die die.val).regs rm.toNat).toNat = mask)
    {v : State} (hv : s.runRdv die.val ((s.die die.val).rdvTime all mask) all mask = v)
    (hfits : v.Fits die.val slotB (.branch (.rdv all rm)) (cyclesOf dur)) :
    Does (.rdv die dur all rm) s fun t => Occupies v t die.val slotB (.branch (.rdv all rm)) (cyclesOf dur) := by
  refine hfits.does_occupies ?_ rfl
  show execRdv die dur all rm s = _
  rw [execRdv, gate_live hl]
  dsimp only
  rw [if_neg (not_not_intro hrun), hmask, hv, State.issueBranch_untargeted rfl]

end Sys2Proof.Machine
end

section
/-! ### What a unit reads of a larder that nothing writes (R46) -/

namespace Sys2Proof.Machine

open Sys2Proof

theorem SMap.lookup_map_sub {α : Type} (a i : Nat) {m : SMap α} (h : ∀ c ∈ m, a ≤ c.1) :
    SMap.lookup (m.map fun c => (c.1 - a, c.2)) i = SMap.lookup m (a + i) := by
  induction m with
  | nil => rfl
  | cons c m ih =>
    obtain ⟨hc, hm⟩ := List.forall_mem_cons.1 h
    have hkey : c.1 - a = i ↔ c.1 = a + i := by omega
    rw [List.map_cons, SMap.lookup, SMap.lookup, ih hm]
    exact if_congr hkey rfl rfl

theorem get_cellsOf (m : List Host.Cell) (a : Nat) {n i : Nat} (hi : i < n) :
    SMap.get (0 : Byte) (cellsOf m a n) i = SMap.get 0 m (a + i) := by
  have hin : (decide (a ≤ a + i) && decide (a + i < a + n)) = true := by simpa using hi
  have hfilter := SMap.lookup_filter_key (fun k => decide (a ≤ k) && decide (k < a + n)) m (a + i)
  rw [if_pos hin] at hfilter
  refine congrArg (Option.getD · 0) ((SMap.lookup_map_sub a i fun c hc => ?_).trans hfilter)
  exact of_decide_eq_true (Bool.and_eq_true_iff.1 (List.mem_filter.1 hc).2).1

theorem cellBytes_cellsOf (s : State) (a n : Nat) : cellBytes (cellsOf s.mem a n) n = s.readBytes a n :=
  List.map_congr_left fun _ hi => get_cellsOf s.mem a (List.mem_range.1 hi)

theorem State.readBytes_succ (s : State) (a n : Nat) : s.readBytes a (n + 1) = s.byte a :: s.readBytes (a + 1) n := by
  rw [State.readBytes, List.range_succ_eq_map, List.map_cons, List.map_map, State.readBytes]
  refine congrArg _ (List.map_congr_left fun i _ => ?_)
  rw [Function.comp_apply, Nat.add_assoc, Nat.add_comm 1 i]

/-- R10: the bytes of a number, each by its weight. -/
theorem State.sum_readBytes (s : State) (n : Nat) : ∀ a k z, (((s.readBytes a n).zipIdx k).map fun x =>
    x.1.toNat * 256 ^ x.2).foldl (· + ·) z = z + 256 ^ k * s.readNat a n := by
  induction n with
  | zero => exact fun a k z => (Nat.add_zero z).symm
  | succ n ih =>
    intro a k z
    rw [State.readBytes_succ, List.zipIdx_cons, List.map_cons, List.foldl_cons, ih, State.readNat, Nat.pow_succ]
    ring

theorem cellWord_cellsOf (s : State) (a : Nat) : cellWord (cellsOf s.mem a 8) = s.readWord a := by
  rw [cellWord, cellBytes_cellsOf, s.sum_readBytes 8 a 0 0, Nat.zero_add, Nat.pow_zero, Nat.one_mul, State.readWord]

theorem State.readWord_writeWord (s : State) (a : Nat) (w : Word) : (s.writeWord a w).readWord a = w := by
  have h := s.readWord_writeWords a (ws := [w]) (i := 0) Nat.one_pos
  rwa [State.writeWords, List.flatMap_singleton] at h

theorem State.seen_still {s : State} {n : Nat} (h : (s.die n).writesLarder = false) (off k : Nat) :
    s.seen n off k = (cellsOf s.mem (larderAddr n off) k, s) := by
  rw [State.seen, h]
  rfl

end Sys2Proof.Machine
end

section
/-! ### Actions at their expiry (R234, R273, R288, R291) -/

namespace Sys2Proof.Machine

open Sys2Proof

theorem State.die_left (s : State) (n slot : Nat) (a : SlotAct) : (s.left n slot a).die n = (s.die n).leave slot a :=
  s.die_setDie_same n _

/-- An action that leaves its slot begins no write of the larder. -/
theorem Die.writesLarder_leave {d : Die} (h : d.writesLarder = false) (slot : Nat) (a : SlotAct) :
    (d.leave slot a).writesLarder = false := by
  obtain ⟨hxfers, hslots⟩ := Bool.or_eq_false_iff.1 h
  refine Bool.or_eq_false_iff.2 ⟨hxfers, List.any_eq_false.2 fun x hx => List.any_eq_false.1 hslots x ?_⟩
  exact (List.mem_filter.1 hx).1

/-! #### The effect of an action that has left its slot -/

section effect

variable {s : State} {n slot : Nat} {a : SlotAct}

/-- R291: an LDS puts the larder word into its register. -/
theorem State.expireEffect_lds {rd ra : BitVec 5} {w : BitVec 4} {la : BitVec 22} (hop : a.op = .scalar (.lds rd ra w la))
    (hstill : (s.die n).writesLarder = false) :
    s.expireEffect n slot a = s.setDie n ((s.die n).put rd (s.readWord (larderAddr n a.vb.toNat))) := by
  rw [State.expireEffect, hop]
  simp only [State.seen_still hstill, cellWord_cellsOf]

theorem State.expireEffect_sts {rs ra : BitVec 5} {w : BitVec 4} {la : BitVec 22} (hop : a.op = .scalar (.sts rs ra w la)) :
    s.expireEffect n slot a = s.writeWord (larderAddr n a.vb.toNat) a.va := by
  rw [State.expireEffect, hop]

/-- The drain that an MMA's rows, once they have entered, leave to do. -/
def State.mmaDrain (s : State) (n slot : Nat) (a : SlotAct) (fa : Fmt) (x : BitVec 14) (acc : BitVec 3) (accum : Bool) : Drain :=
  { tile := slot, phys := a.phys, set := acc.toNat, int := fa = .int8, accum := accum
    rows := (a.expiry - a.start) / rowRate fa, done := a.expiry + 136
    sums := s.passSums n a.phys fa x (s.tileSt n a.phys).activeFmt (s.tileSt n a.phys).active ((a.expiry - a.start) / rowRate fa) }

/-- R234: the rows of an MMA have entered; its set drains, and its cycles are counted. -/
theorem State.expireEffect_mma {fa fb : Fmt} {x y : BitVec 14} {acc : BitVec 3} {accum sw : Bool}
    (hop : a.op = .tile (.mma fa x acc accum sw false fb y)) :
    let t := s.expireEffect n slot a
    t.die n = { s.die n with drains := (s.die n).drains ++ [s.mmaDrain n slot a fa x acc accum] } ∧ t.mem = s.mem ∧
      t.reg (Reg.tileCnt 0) = s.reg (Reg.tileCnt 0) + BitVec.ofNat 64 (a.expiry - a.start) := by
  have heffect : s.expireEffect n slot a = (s.setDie n { s.die n with
      drains := (s.die n).drains ++ [s.mmaDrain n slot a fa x acc accum] }).bumpBy (Reg.tileCnt 0) (a.expiry - a.start) := by
    rw [State.expireEffect, hop]
    rfl
  rw [heffect]
  exact ⟨s.die_setDie_same n _, rfl, State.reg_bumpBy_same _ _ _⟩

/-- An operation that leaves nothing behind it at its expiry. -/
def NoResult (op : SlotOp) : Prop :=
  (∃ k, op = .branch k) ∨ (∃ k, op = .tally k) ∨ (∃ k x y u v, op = .mover k x y u v) ∨ op = .tile .nop ∨ op = .port .nop

theorem State.expireEffect_noResult (hop : NoResult a.op) : s.expireEffect n slot a = s := by
  rw [State.expireEffect]
  rcases hop with ⟨k, h⟩ | ⟨k, h⟩ | ⟨k, x, y, u, v, h⟩ | h | h <;> rw [h]

end effect

/-! #### SLOT_EXPIRE -/

section expire

variable {s : State} (hl : s.live = true) {die : Fin 4} {slot : Fin 48} {a : SlotAct}
  (hslot : SMap.lookup (s.die die.val).slots slot.val = some a) (hdue : (s.die die.val).DueNext a.expiry)
  (hapart : ∀ x ∈ (s.die die.val).slots, s.crosses die.val a x.2 = false)
include hl hslot hdue hapart

/-- R273: the slot of an expired action is free, if its effect leaves the slots as they are. -/
theorem does_slotExpire {u : State} (heffect : (s.left die.val slot.val a).expireEffect die.val slot.val a = u)
    (hslots : (u.die die.val).slots = ((s.left die.val slot.val a).die die.val).slots) {P : State → Prop} (hP : P u) :
    Does (.slotExpire die slot .clean) s fun t => SMap.lookup (t.die die.val).slots slot.val = none ∧ P t := by
  refine ⟨u, (exec_slotExpire_clean hl hslot hdue hapart).trans (congrArg _ heffect), ?_, hP⟩
  rw [hslots, State.die_left]
  exact SMap.lookup_erase_same _ _

theorem does_slotExpire_lds {rd ra : BitVec 5} {w : BitVec 4} {la : BitVec 22} (hstill : (s.die die.val).writesLarder = false)
    (hop : a.op = .scalar (.lds rd ra w la)) : Does (.slotExpire die slot .clean) s fun t =>
      SMap.lookup (t.die die.val).slots slot.val = none ∧ t.mem = s.mem ∧ ∀ r, SMap.get 0 (t.die die.val).regs r =
        if rd ≠ 0 ∧ r = rd.toNat then s.readWord (larderAddr die.val a.vb.toNat) else SMap.get 0 (s.die die.val).regs r := by
  have hleft : ((s.left die.val slot.val a).die die.val).writesLarder = false := by
    rw [State.die_left]
    exact Die.writesLarder_leave hstill _ _
  refine does_slotExpire hl hslot hdue hapart (State.expireEffect_lds hop hleft) ?_ ⟨rfl, fun r => ?_⟩
  · rw [State.die_setDie_same, Die.slots_put]
  · rw [State.die_setDie_same, Die.get_regs_put, State.die_left]
    rfl

theorem does_slotExpire_sts {rs ra : BitVec 5} {w : BitVec 4} {la : BitVec 22} (hop : a.op = .scalar (.sts rs ra w la)) :
    Does (.slotExpire die slot .clean) s fun t =>
      SMap.lookup (t.die die.val).slots slot.val = none ∧ t.readWord (larderAddr die.val a.vb.toNat) = a.va ∧
      ∀ b, (b < larderAddr die.val a.vb.toNat ∨ larderAddr die.val a.vb.toNat + 8 ≤ b) → t.byte b = s.byte b :=
  does_slotExpire hl hslot hdue hapart (State.expireEffect_sts hop) rfl
    ⟨State.readWord_writeWord _ _ _, fun _ hb => State.byte_writeBytes_other _ (by rwa [length_leBytes])⟩

theorem does_slotExpire_mma {fa fb : Fmt} {x y : BitVec 14} {acc : BitVec 3} {accum sw : Bool}
    (hop : a.op = .tile (.mma fa x acc accum sw false fb y)) : Does (.slotExpire die slot .clean) s fun t =>
      SMap.lookup (t.die die.val).slots slot.val = none ∧ t.mem = s.mem ∧
      t.reg (Reg.tileCnt 0) = s.reg (Reg.tileCnt 0) + BitVec.ofNat 64 (a.expiry - a.start) ∧
      ∃ x, (t.die die.val).drains = (s.die die.val).drains ++ [x] ∧ x.phys = a.phys ∧ x.set = acc.toNat ∧ x.accum = accum ∧
        x.done = a.expiry + 136 ∧ x.rows = (a.expiry - a.start) / rowRate fa := by
  obtain ⟨hdie, hmem, hcount⟩ := (s.left die.val slot.val a).expireEffect_mma (n := die.val) (slot := slot.val) hop
  refine does_slotExpire hl hslot hdue hapart rfl (by rw [hdie]) ⟨hmem, hcount,
    (s.left die.val slot.val a).mmaDrain die.val slot.val a fa x acc accum, ?_, rfl, rfl, rfl, rfl, rfl⟩
  rw [hdie, State.die_left]
  rfl

theorem does_slotExpire_noResult (hop : NoResult a.op) : Does (.slotExpire die slot .clean) s fun t =>
    SMap.lookup (t.die die.val).slots slot.val = none ∧ t.mem = s.mem ∧ t.regs = s.regs :=
  does_slotExpire hl hslot hdue hapart (State.expireEffect_noResult hop) rfl ⟨rfl, rfl⟩

end expire

/-- Settles O12: the branch rows by their actions' starts, then what each action leaves behind it in the state without it. -/
theorem branchesAndExpiry : Obligations.BranchesAndExpiry := by
  unfold Obligations.BranchesAndExpiry
  constructor
  · intro s die dur rs rm target st all u d
    refine ⟨fun hfits => ?_, fun hok => ?_, fun hfits => ?_, fun hfits => ?_, ?_⟩
    · exact hfits.does (hfits.exec_branch rfl nofun) rfl fun w => u.offset_begin_bnop die.val slotB _ _ w
    · have htarget {b : BranchOp} (hb : branchTarget b = some target.toNat) (t : Nat) (ht : branchTarget b = some t) :
          s.targetOk (s.die die.val) t = true := by
        obtain rfl := Option.some.inj (hb.symm.trans ht)
        exact hok
      refine ⟨fun hfits => ?_, fun hfits => ?_, fun hfits => ?_, fun hfits => ?_⟩
      · exact hfits.does (hfits.exec_branch rfl (htarget rfl)) rfl fun w => u.offset_begin_jmp die.val slotB _ _ w target
      · exact hfits.does (hfits.exec_branch rfl (htarget rfl)) rfl fun w => u.offset_begin_bz die.val slotB _ _ w rs target
      · exact hfits.does (hfits.exec_branch rfl (htarget rfl)) rfl fun w => u.offset_begin_bnz die.val slotB _ _ w rs target
      · exact hfits.does (hfits.exec_branch rfl (htarget rfl)) rfl fun w => u.begin_loop die.val slotB _ _ w rs target
    · exact hfits.does (hfits.exec_branch rfl nofun) rfl fun w => u.ending_begin_endSeg die.val slotB _ _ w st
    · exact hfits.does (hfits.exec_branch rfl nofun) rfl fun w => u.state_begin_ppt die.val slotB _ _ w st
    · intro hl hrun mask v hfits
      exact does_rdv hl hrun rfl rfl hfits
  · intro s die slot a hl hslot hdue hapart
    exact ⟨fun rd ra w la hstill hop => does_slotExpire_lds hl hslot hdue hapart hstill hop,
      fun rs ra w la hop => does_slotExpire_sts hl hslot hdue hapart hop,
      fun fa sa acc accum sw fb sb hop => does_slotExpire_mma hl hslot hdue hapart hop,
      fun hop => does_slotExpire_noResult hl hslot hdue hapart hop⟩

end Sys2Proof.Machine
end

section
/-! ### A save at whose boundary a remap takes effect (R254, R304, R401) -/

namespace Sys2Proof.Machine

open Sys2Proof

/-- Die 0 of a live module has come to a requested preemption point. A remap of its logical tile 0 to the spare tile 33 waits for the
die's next segment boundary, and the store of the tile it replaces holds a byte. -/
def savingWithRemap : State :=
  { State.reset with
    plat.rails := true
    plat.stage := 7
    mem := [(storeAddr 0 0 0 0, 1)]
    cmp.dies := [(0, { state := .saving })]
    cmp.remaps := [(0, 0, 33)] }

/-- The save ends at a segment boundary: the replaced tile loses its contents. -/
theorem mem_after_preemptSave : readAfter (.preemptSave 0 .clean) savingWithRemap (fun t => t.mem) = some [] := by
  decide +kernel

/-- The module has no save area, so a save writes no byte. -/
theorem mem_writeSave_savingWithRemap (v : Save) (regs : SMap Word) :
    (savingWithRemap.writeSave 0 v regs).mem = [(storeAddr 0 0 0 0, 1)] := rfl

/-- Refutes O14: a preemption save is not asked to have no remap waiting; where one waits, the memory after it is not that of the
save, for the boundary clears the store and the accumulators of the tile that the remap replaces. -/
theorem not_segments : ¬ Obligations.Segments := by
  rintro ⟨-, -, hends⟩
  obtain ⟨-, hsave, -⟩ := hends savingWithRemap 0 (by decide +kernel)
  obtain ⟨t, ht, -, v, -, -, -, -, -, -, hmem⟩ := hsave rfl rfl rfl rfl
  have hcleared := mem_after_preemptSave
  rw [readAfter_of_next ht, hmem rfl rfl] at hcleared
  exact List.cons_ne_nil _ _ ((mem_writeSave_savingWithRemap v _).symm.trans (Option.some.inj hcleared))

end Sys2Proof.Machine
end

section
/-! ### Tallies and waits at their homes (R317 to R322, R337, R338) -/

namespace Sys2Proof.Machine

open Sys2Proof

/-! #### A core's outcome (R337) -/

/-- TLY.RESULTc once an outcome is present. -/
def doneWord (status : Nat) (v : BitVec 32) : Word := fld 63 63 1 ||| fld 47 32 status ||| fld 31 0 v.toNat

@[simp] theorem State.reg_coreResult (s : State) (c status : Nat) (v : BitVec 32) :
    (s.coreResult c status v).reg (Reg.tlyResult c) = doneWord status v := State.reg_setReg_same _ _ _

/-! #### The rows -/

section rows

variable {s : State} (hl : s.live = true)

include hl

theorem exec_tallyAdd (i : Issuer) (tally : BitVec 12) (n : BitVec 32) :
    exec (.tallyAdd i tally n) s = .next (s.opAdd i tally.toNat n) := gate_live hl fun s => s.opAdd i tally.toNat n

theorem exec_tallySet (i : Issuer) (tally : BitVec 12) (v : BitVec 32) :
    exec (.tallySet i tally v) s = .next (s.opSet i tally.toNat v) := gate_live hl fun s => s.opSet i tally.toNat v

theorem exec_tallyRead (i : Issuer) (tally : BitVec 12) : exec (.tallyRead i tally) s = .next (s.opRead i tally.toNat) :=
  gate_live hl fun s => s.opRead i tally.toNat

theorem exec_tallyWait (i : Issuer) (tally : BitVec 12) (target : BitVec 32) :
    exec (.tallyWait i tally target) s = .next (s.opWait i tally.toNat target) :=
  gate_live hl fun s => s.opWait i tally.toNat target

theorem exec_tallyCancel (i : Issuer) (tally : BitVec 12) :
    exec (.tallyCancel i tally) s = .next (s.opCancel i tally.toNat) := gate_live hl fun s => s.opCancel i tally.toNat

theorem exec_clearPeak (die : Fin 4) : exec (.clearPeak die) s = .next (s.clearPeak die.val) :=
  gate_live hl fun s => s.clearPeak die.val

/-- R321: a core that waits takes the value of a wake on its way to it. -/
theorem exec_tallyWake_core {c : Fin 4} {tally : BitVec 12} {w : Wake}
    (hfind : (s.tly.wakes.find? fun w => w.issuer = .core c && w.tally = tally.toNat) = some w)
    (hwaiting : bit (s.reg (Reg.tlyResult c.val)) 62 = true) : exec (.tallyWake (.core c) tally) s =
      .next (State.coreResult { s with tly.wakes := s.tly.wakes.erase w } c.val 0 w.value) := by
  have hrow : exec (.tallyWake (.core c) tally) s = execTallyWake (.core c) tally s := rfl
  have hbit : bit (State.reg { s with tly.wakes := s.tly.wakes.erase w } (Reg.tlyResult c.val)) 62 = true := hwaiting
  rw [hrow, execTallyWake, gate_live hl]
  simp only [hfind, hbit, State.iff_true, State.satisfied]

/-- R320: the poll that finds a value at or beyond its target ends a core's wait. -/
theorem exec_waitPoll_core {c : Fin 4} {tally : BitVec 12} {w : WaitEntry}
    (hfind : (s.tly.polled.find? fun w => w.issuer = .core c && w.tally = tally.toNat) = some w)
    (htest : reached (s.tally tally.toNat) w.target = true) : exec (.waitPoll (.core c) tally) s =
      .next (State.coreResult { s.bump (Reg.tlyCnt 2) with tly.polled := s.tly.polled.erase w } c.val 0
        (s.tally tally.toNat)) := by
  have hrow : exec (.waitPoll (.core c) tally) s = execWaitPoll (.core c) tally s := rfl
  have htest' : reached ((s.bump (Reg.tlyCnt 2)).tally tally.toNat) w.target = true := htest
  rw [hrow, execWaitPoll, gate_live hl]
  simp only [hfind, htest', if_true, State.satisfied]
  rfl

end rows

/-! #### The test of a wait (R318) -/

theorem reached_of_le {v t : BitVec 32} (h : (v - t).toNat ≤ 2 ^ 31 - 1) : reached v t = true := decide_eq_true h

theorem reached_of_ge {v t : BitVec 32} (h : 2 ^ 31 ≤ (v - t).toNat) : reached v t = false :=
  decide_eq_false (by omega)

theorem isReclaim_of_ne {t : Nat} (h : t % 1024 ≠ 1023) : isReclaim t = false := decide_eq_false h

theorem isReclaim_of_eq {t : Nat} (h : t % 1024 = 1023) : isReclaim t = true := decide_eq_true h

/-! #### ADD and SET -/

theorem State.addTally_of_free (s : State) {t : Nat} (h : isReclaim t = false) (n : BitVec 32) :
    s.addTally t n = (s.putTally t (s.tally t + n)).bump (Reg.tlyCnt 0) := by
  rw [State.addTally, h, if_neg Bool.false_ne_true]

theorem State.setTally_of_free (s : State) {t : Nat} (h : isReclaim t = false) (v : BitVec 32) :
    s.setTally t v = (s.putTally t v).bump (Reg.tlyCnt 1) := by
  rw [State.setTally, h, if_neg Bool.false_ne_true]

theorem State.opAdd_core (s : State) {t : Nat} (h : isReclaim t = false) (c : Fin 4) (n : BitVec 32) :
    s.opAdd (.core c) t n =
      ((s.putTally t (s.tally t + n)).bump (Reg.tlyCnt 0)).coreResult c.val 0 (s.tally t) := by
  simp only [State.opAdd, State.arrive, State.answer, State.addTally_of_free s h, h, Bool.false_eq_true, if_false]

theorem State.opSet_core (s : State) {t : Nat} (h : isReclaim t = false) (c : Fin 4) (v : BitVec 32) :
    s.opSet (.core c) t v = ((s.putTally t v).bump (Reg.tlyCnt 1)).coreResult c.val 0 (s.tally t) := by
  simp only [State.opSet, State.arrive, State.answer, State.setTally_of_free s h, h, Bool.false_eq_true, if_false]

theorem State.opSet_unit (s : State) {t : Nat} (h : isReclaim t = false) (v : BitVec 32) :
    s.opSet .unit t v = (s.putTally t v).bump (Reg.tlyCnt 1) := by
  simp only [State.opSet, State.arrive, State.answer, State.setTally_of_free s h]

/-- R322: a reclamation tally takes no ADD. -/
theorem State.opAdd_core_reclaim (s : State) {t : Nat} (h : isReclaim t = true) (c : Fin 4) (n : BitVec 32) :
    s.opAdd (.core c) t n = (s.bump (Reg.tlyCnt 7)).coreResult c.val Code.invalidField 0 := by
  simp only [State.opAdd, State.arrive, State.answer, State.addTally, h, if_true]

/-- R317: a value put at a tally's home stands there, no other tally and no byte changes, and the issuing core reads `old`. -/
theorem State.coreResult_putTally (s : State) (t : Nat) (v old : BitVec 32) (cnt c : Nat) :
    let u := ((s.putTally t v).bump cnt).coreResult c 0 old
    u.tally t = v ∧ (∀ j, j ≠ t → u.tally j = s.tally j) ∧ u.mem = s.mem ∧
      u.reg (Reg.tlyResult c) = doneWord 0 old :=
  ⟨(s.tally_putTally t t v).trans (if_pos rfl), fun j hj => (s.tally_putTally t j v).trans (if_neg hj), rfl,
    State.reg_coreResult _ _ _ _⟩

/-- R318: the value that a listed wait was for takes it off the list, and its wake is on its way. -/
theorem State.putTally_wakes {s : State} {t : Nat} {i : Issuer} {target v : BitVec 32} (hw : s.tly.waits = [⟨t, i, target⟩])
    (hv : reached v target = true) :
    (s.putTally t v).tly.waits = [] ∧ (s.putTally t v).tly.wakes = s.tly.wakes ++ [⟨t, i, v⟩] := by
  simp [State.putTally, hw, hv]

/-! #### WAIT (R318, R320, R321) -/

/-- The state in which a WAIT is tested: the waits it replaces are cancelled (R321). -/
def State.cancelled (s : State) (i : Issuer) (t : Nat) : State :=
  (s.dropWaits (replaces i t)).bumpBy (Reg.tlyCnt 6) ((s.tly.waits ++ s.tly.polled).filter (replaces i t)).length

/-- A WAIT that replaces none leaves the lists of waits. -/
theorem State.cancelled_lists {s : State} {i : Issuer} {t : Nat} (h : ∀ x ∈ s.tly.waits ++ s.tly.polled, replaces i t x = false) :
    (s.cancelled i t).tly.waits = s.tly.waits ∧ (s.cancelled i t).tly.polled = s.tly.polled := by
  have keep {l : List WaitEntry} (hl : ∀ x ∈ l, replaces i t x = false) : l.filter (fun w => !replaces i t w) = l :=
    List.filter_eq_self.2 fun x hx => by rw [hl x hx, Bool.not_false]
  exact ⟨keep fun x hx => h x (List.mem_append_left _ hx), keep fun x hx => h x (List.mem_append_right _ hx)⟩

theorem State.NoWaits.replaces {s : State} (h : s.NoWaits) (i : Issuer) (t : Nat) :
    ∀ x ∈ s.tly.waits ++ s.tly.polled, Machine.replaces i t x = false := by
  obtain ⟨hwaits, hpolled⟩ := h
  simp [hwaits, hpolled]

theorem State.NoWaits.cancelled {s : State} (h : s.NoWaits) (i : Issuer) (t : Nat) : (s.cancelled i t).NoWaits := by
  obtain ⟨hwaits, hpolled⟩ := State.cancelled_lists (h.replaces i t)
  exact ⟨hwaits.trans h.1, hpolled.trans h.2⟩

theorem State.opWait_reached {s : State} {t : Nat} {target : BitVec 32} (i : Issuer) (h : reached (s.tally t) target = true) :
    s.opWait i t target = (s.cancelled i t).satisfied i (s.tally t) := if_pos h

/-- The state of a core's WAIT whose test fails, before it is listed or polled. -/
def State.coreHeld (s : State) (c : Fin 4) (t : Nat) : State := (s.cancelled (.core c) t).coreWaiting c.val

theorem State.opWait_listed {s : State} {t : Nat} {target : BitVec 32} {c : Fin 4} (h : reached (s.tally t) target = false)
    (hroom : (s.cancelled (.core c) t).poolUsed (t / 1024) < 4096) :
    s.opWait (.core c) t target = (({ s.coreHeld c t with
      tly.waits := (s.coreHeld c t).tly.waits ++ [WaitEntry.mk t (.core c) target] }).bump (Reg.tlyCnt 3)).notePeak (t / 1024) :=
  (if_neg (Bool.eq_false_iff.1 h)).trans (if_pos hroom)

theorem State.opWait_polled {s : State} {t : Nat} {target : BitVec 32} {c : Fin 4} (h : reached (s.tally t) target = false)
    (hfull : 4096 ≤ (s.cancelled (.core c) t).poolUsed (t / 1024)) :
    s.opWait (.core c) t target = ({ s.coreHeld c t with
      tly.polled := (s.coreHeld c t).tly.polled ++ [WaitEntry.mk t (.core c) target] }).bump (Reg.tlyCnt 5) :=
  (if_neg (Bool.eq_false_iff.1 h)).trans (if_neg (Nat.not_lt.2 hfull))

theorem State.tly_notePeak (s : State) (die : Nat) : (s.notePeak die).tly = s.tly := by
  unfold State.notePeak State.iff
  dsimp only
  split <;> rfl

theorem State.reg_notePeak (s : State) (die : Nat) {k : Nat} (h : k ≠ Reg.tlyPool die) : (s.notePeak die).reg k = s.reg k :=
  State.reg_iff s _ (State.reg_setReg_other _ _ _ _ h)

section waits

variable {s : State} {c : Fin 4} {tally : BitVec 12} {target v : BitVec 32}

/-- A wait that is satisfied at once is not listed. -/
theorem does_tallyWait_reached (hl : s.live = true) (hnone : s.NoWaits) (h : (s.tally tally.toNat - target).toNat ≤ 2 ^ 31 - 1) :
    Does (.tallyWait (.core c) tally target) s fun t => t.NoWaits ∧
      t.reg (Reg.tlyResult c.val) = doneWord 0 (s.tally tally.toNat) := by
  refine ⟨_, exec_tallyWait hl _ _ _, ?_⟩
  rw [State.opWait_reached _ (reached_of_le h)]
  exact ⟨hnone.cancelled (.core c) tally.toNat, State.reg_coreResult _ _ _ _⟩

/-- A wait whose test fails is listed alone in an empty pool. -/
theorem does_tallyWait_listed (hl : s.live = true) (hnone : s.NoWaits) (h : 2 ^ 31 ≤ (s.tally tally.toNat - target).toNat) :
    Does (.tallyWait (.core c) tally target) s fun t => t.tly.waits = [⟨tally.toNat, .core c, target⟩] ∧ t.tly.polled = [] ∧
      t.reg (Reg.tlyResult c.val) = fld 62 62 1 ∧ t.tly.vals = s.tly.vals := by
  obtain ⟨hwaits, hpolled⟩ := hnone.cancelled (.core c) tally.toNat
  have hroom : (s.cancelled (.core c) tally.toNat).poolUsed (tally.toNat / 1024) < 4096 := by
    rw [State.poolUsed, hwaits]
    exact Nat.zero_lt_succ _
  refine ⟨_, exec_tallyWait hl _ _ _, ?_⟩
  rw [State.opWait_listed (reached_of_ge h) hroom]
  beta_reduce
  rw [State.tly_notePeak]
  refine ⟨congrArg (· ++ [_]) hwaits, hpolled, ?_, rfl⟩
  have htally : tally.toNat < 4096 := tally.isLt
  have hpool : Reg.tlyResult c.val ≠ Reg.tlyPool (tally.toNat / 1024) := by
    unfold Reg.tlyResult Reg.tlyPool
    omega
  have hcnt : Reg.tlyResult c.val ≠ Reg.tlyCnt 3 := by
    unfold Reg.tlyResult Reg.tlyCnt
    omega
  rw [State.reg_notePeak _ _ hpool, State.reg_bump_other _ _ _ hcnt]
  exact State.reg_setReg_same _ _ _

/-- A wait whose test fails is polled where its die's pool is full. -/
theorem does_tallyWait_polled (hl : s.live = true) (h : 2 ^ 31 ≤ (s.tally tally.toNat - target).toNat)
    (hothers : ∀ x ∈ s.tly.waits ++ s.tly.polled, x.issuer ≠ .core c) (hfull : 4096 ≤ s.poolUsed (tally.toNat / 1024)) :
    Does (.tallyWait (.core c) tally target) s fun t =>
      t.tly.waits = s.tly.waits ∧ t.tly.polled = s.tly.polled ++ [⟨tally.toNat, .core c, target⟩] := by
  obtain ⟨hwaits, hpolled⟩ := State.cancelled_lists (i := .core c) (t := tally.toNat) fun x hx => decide_eq_false (hothers x hx)
  have hused : 4096 ≤ (s.cancelled (.core c) tally.toNat).poolUsed (tally.toNat / 1024) := by rwa [State.poolUsed, hwaits]
  refine ⟨_, exec_tallyWait hl _ _ _, ?_⟩
  rw [State.opWait_polled (reached_of_ge h) hused]
  exact ⟨hwaits, congrArg (· ++ [_]) hpolled⟩

/-- R321, R337: a wake ends the wait of its core, whose result holds the value. -/
theorem does_tallyWake (hl : s.live = true) (hwakes : s.tly.wakes = [⟨tally.toNat, .core c, v⟩])
    (hwaiting : bit (s.reg (Reg.tlyResult c.val)) 62 = true) : Does (.tallyWake (.core c) tally) s fun t =>
      t.tly.wakes = [] ∧ t.reg (Reg.tlyResult c.val) = doneWord 0 v := by
  have hfind : (s.tly.wakes.find? fun w => w.issuer = .core c && w.tally = tally.toNat) = some ⟨tally.toNat, .core c, v⟩ := by
    simp [hwakes]
  refine ⟨_, exec_tallyWake_core hl hfind hwaiting, ?_, State.reg_coreResult _ _ _ _⟩
  show s.tly.wakes.erase _ = []
  simp [hwakes]

/-- R321: a cancelled wait is gone; the values stay. -/
theorem does_tallyCancel (hl : s.live = true) (hwaits : s.tly.waits = [⟨tally.toNat, .core c, target⟩])
    (hpolled : s.tly.polled = []) : Does (.tallyCancel (.core c) tally) s fun t => t.NoWaits ∧
      t.reg (Reg.tlyResult c.val) = doneWord 0 0 ∧ t.tly.vals = s.tly.vals := by
  refine ⟨_, exec_tallyCancel hl _ _, ⟨?_, ?_⟩, State.reg_coreResult _ _ _ _, rfl⟩
  · show s.tly.waits.filter _ = []
    simp [hwaits]
  · show s.tly.polled.filter _ = []
    rw [hpolled, List.filter_nil]

/-- R320: an unlisted wait ends at the poll that finds its value. -/
theorem does_waitPoll (hl : s.live = true) (hpolled : s.tly.polled = [⟨tally.toNat, .core c, target⟩])
    (h : (s.tally tally.toNat - target).toNat ≤ 2 ^ 31 - 1) : Does (.waitPoll (.core c) tally) s fun t => t.tly.polled = [] ∧
      t.reg (Reg.tlyResult c.val) = doneWord 0 (s.tally tally.toNat) := by
  have hfind : (s.tly.polled.find? fun w => w.issuer = .core c && w.tally = tally.toNat) =
      some ⟨tally.toNat, .core c, target⟩ := by
    simp [hpolled]
  refine ⟨_, exec_waitPoll_core hl hfind (reached_of_le h), ?_, State.reg_coreResult _ _ _ _⟩
  show s.tly.polled.erase _ = []
  simp [hpolled]

end waits

/-- Settles O16: ADD and SET by the value they put, WAIT by the outcome of its test, and the ways a wait ends. -/
theorem talliesAndWaits : Obligations.TalliesAndWaits := by
  unfold Obligations.TalliesAndWaits
  constructor
  · intro s c tally n hl k done
    refine ⟨fun hk => ⟨_, exec_tallyAdd hl _ _ _, ?_⟩, fun hk => ⟨_, exec_tallySet hl _ _ _, ?_⟩,
      fun hk => ⟨_, exec_tallyAdd hl _ _ _, ?_⟩, ⟨_, exec_tallyRead hl _ _, rfl, rfl, State.reg_coreResult _ _ _ _⟩,
      ⟨_, exec_clearPeak hl _, s.field_clearPeak c.val, rfl⟩⟩
    · rw [s.opAdd_core (isReclaim_of_ne hk) c n]
      exact s.coreResult_putTally k (s.tally k + n) (s.tally k) _ c.val
    · rw [s.opSet_core (isReclaim_of_ne hk) c n]
      exact s.coreResult_putTally k n (s.tally k) _ c.val
    · rw [s.opAdd_core_reclaim (isReclaim_of_eq hk) c n]
      refine ⟨fun j => rfl, State.reg_coreResult _ _ _ _, ?_⟩
      have hcnt : Reg.tlyCnt 7 ≠ Reg.tlyResult c.val := by
        unfold Reg.tlyCnt Reg.tlyResult
        omega
      exact (State.reg_setReg_other _ _ _ _ hcnt).trans (State.reg_bump_same _ _)
  · intro s c tally target n hl k w done
    refine ⟨fun hnone h => does_tallyWait_reached hl hnone h, fun hnone h => does_tallyWait_listed hl hnone h,
      fun h hothers hfull => does_tallyWait_polled hl h hothers hfull, fun hwaits hk h => ⟨_, exec_tallySet hl _ _ _, ?_⟩,
      fun hwakes hwaiting => does_tallyWake hl hwakes hwaiting, fun hwaits hpolled => does_tallyCancel hl hwaits hpolled,
      fun hpolled h => does_waitPoll hl hpolled h⟩
    rw [s.opSet_unit (isReclaim_of_ne hk) n]
    obtain ⟨hgone, hwake⟩ := State.putTally_wakes hwaits (reached_of_le h)
    exact ⟨(s.tally_putTally _ _ n).trans (if_pos rfl), hgone, hwake⟩

end Sys2Proof.Machine
end

section
/-! ### Entries, pops and flushes of hardware queues (R324 to R334) -/

namespace Sys2Proof.Machine

open Sys2Proof

/-! #### Registers that entries leave -/

/-- A register that no item's entry changes: not ENTERED, not in the block TLY, whose counters notify tallies raise, and not in
the block SEQ, whose counters hold the stalls that an entry ends. -/
def OffEntries (k : Nat) : Prop := k ≠ Reg.hqCnt 0 ∧ k / 65536 ≠ 15 ∧ k / 65536 ≠ 5

theorem OffEntries.of_hq {k : Nat} (hblock : k / 65536 = 16) (hcnt : k ≠ Reg.hqCnt 0) : OffEntries k := by
  refine ⟨hcnt, ?_, ?_⟩ <;> omega

theorem hqQcfg_lt_hqFlush {q : Nat} (h : q < 512) : Reg.hqQcfg q < Reg.hqFlush := by
  unfold Reg.hqQcfg Reg.hqFlush
  omega

theorem OffEntries.hqQcfg {q : Nat} (h : q < 512) : OffEntries (Reg.hqQcfg q) := by
  refine .of_hq ?_ (Nat.ne_of_lt ((hqQcfg_lt_hqFlush h).trans (by decide)))
  unfold Reg.hqQcfg
  omega

section registers

variable (s : State) {k : Nat} (hk : OffEntries k)

include hk

theorem State.reg_raise_offEntries (t : Nat) : (s.raise t).reg k = s.reg k := by
  obtain ⟨-, htly, -⟩ := hk
  have hcnt {i : Nat} (hi : i < 8) : k ≠ Reg.tlyCnt i := by
    unfold Reg.tlyCnt
    omega
  unfold State.raise State.addTally
  split
  · exact State.reg_bump_other _ _ _ (hcnt (by decide))
  · rw [State.reg_bump_other _ _ _ (hcnt (by decide)), State.reg_putTally _ _ _ (hcnt (by decide))]

theorem State.reg_enter_offEntries (q : Nat) (e : QEntry) : (s.enter q e).reg k = s.reg k := by
  have hentered (x : Queue) : ((s.setQueue q x).bump (Reg.hqCnt 0)).reg k = s.reg k := State.reg_bump_other _ _ _ hk.1
  exact (State.reg_iff _ _ (State.reg_raise_offEntries _ hk _)).trans (hentered _)

theorem State.reg_unstall_offEntries (die : Nat) (d : Die) (left : List Stall) : (s.unstall die d left).reg k = s.reg k := by
  obtain ⟨-, -, hseq⟩ := hk
  have hcnt : k ≠ Reg.seqCnt 2 := by
    unfold Reg.seqCnt
    omega
  have hrun : (s.runStall die d).2.reg k = s.reg k := by
    unfold State.runStall
    split
    · rfl
    · exact State.reg_bumpBy_other _ _ _ _ hcnt
  unfold State.unstall
  split
  · exact hrun
  · rfl

theorem State.reg_pushed (w : WaitPush) : (s.pushed w).reg k = s.reg k := by
  obtain ⟨prio, item, after, die, port⟩ := w
  have hraise : (match after with | some t => s.raise t | none => s).reg k = s.reg k := by
    cases after
    · rfl
    · exact s.reg_raise_offEntries hk _
  have hcredits (u : State) : (match port with | some p => u.giveCredits p 0 2 | none => u).reg k = u.reg k := by
    cases port
    · rfl
    · exact State.reg_of_regs (by simp only [State.giveCredits_frame]) k
  cases die
  · exact (hcredits _).trans hraise
  · exact (State.reg_unstall_offEntries _ hk _ _ _).trans ((hcredits _).trans hraise)

theorem reg_admitLoop (q : Nat) (ws : List WaitPush) (u : State) : (admitLoop q ws u).reg k = u.reg k := by
  induction ws generalizing u with
  | nil => rfl
  | cons w ws ih =>
    rw [admitLoop]
    split
    · rw [ih, State.reg_pushed _ hk, State.reg_enter_offEntries _ hk]
      rfl
    · rfl

theorem State.reg_letIn (q : Nat) : (s.letIn q).reg k = s.reg k := reg_admitLoop hk q _ s

end registers

/-! #### Queues after an entry -/

theorem State.queue_of_hq {s u : State} (h : u.hq = s.hq) (q : Nat) : u.queue q = s.queue q := by
  rw [State.queue, h, State.queue]

theorem State.queue_enter (s : State) (q r : Nat) (e : QEntry) : (s.enter q e).queue r =
    if r = q then { s.queue q with items := (s.queue q).items ++ [e] } else s.queue r :=
  (State.queue_of_hq (s.enter_hq q e) r).trans (s.queue_setQueue q r _)

theorem State.queue_pushed (s : State) (w : WaitPush) (q : Nat) : (s.pushed w).queue q = s.queue q :=
  State.queue_of_hq (by simp only [State.pushed_frame]) q

/-- The readers' hands stay as they are while pushes enter. -/
theorem hand_admitLoop (q : Nat) (ws : List WaitPush) (s : State) : (admitLoop q ws s).hq.hand = s.hq.hand := by
  induction ws generalizing s with
  | nil => rfl
  | cons w ws ih =>
    rw [admitLoop]
    split
    · rw [ih]
      simp only [State.pushed_frame, State.enter_hq]
      rfl
    · rfl

/-- What a waiting push becomes as it enters. -/
def WaitPush.entry (w : WaitPush) : QEntry := ⟨w.prio, w.item, false⟩

/-- R327: where all waiting pushes find room, all enter in the order in which they arrived. -/
theorem queue_admitLoop {q : Nat} (hq : q < 512) (ws : List WaitPush) (s : State) (hws : (s.queue q).waiting = ws)
    (hroom : (s.queue q).items.length + ws.length ≤ s.qDepth q) :
    (admitLoop q ws s).queue q = { items := (s.queue q).items ++ ws.map WaitPush.entry, waiting := [] } := by
  induction ws generalizing s with
  | nil => rw [admitLoop, List.map_nil, List.append_nil, ← hws]
  | cons w ws ih =>
    rw [List.length_cons] at hroom
    rw [admitLoop, if_pos (by omega)]
    dsimp only
    generalize hu : ((s.setQueue q { s.queue q with waiting := ws }).enter q ⟨w.prio, w.item, false⟩).pushed w = u
    have hqueue : u.queue q = { items := (s.queue q).items ++ [w.entry], waiting := ws } := by
      rw [← hu, State.queue_pushed, State.queue_enter, if_pos rfl, State.queue_setQueue_same]
      rfl
    have hdepth : u.qDepth q = s.qDepth q := by
      rw [State.qDepth, State.field, ← hu, State.reg_pushed _ (.hqQcfg hq), State.reg_enter_offEntries _ (.hqQcfg hq)]
      rfl
    rw [ih u (by rw [hqueue]) (by rw [hqueue, hdepth, List.length_append, List.length_singleton]; omega), hqueue,
      List.map_cons, List.append_assoc, List.singleton_append]

theorem State.letIn_of_none {s : State} {q : Nat} (h : (s.queue q).waiting = []) : s.letIn q = s := by
  rw [State.letIn, h, admitLoop]

/-! #### GO and BUSY (R332) -/

/-- The state in which the operation of a GO field takes effect: the field is BUSY. -/
def State.going (s : State) (k ns : Nat) : State := { s with hq.busy := SMap.set 0 s.hq.busy k (s.now + ns) }

theorem State.go_of_free {s : State} {k : Nat} (h : s.isBusy k = false) (ns : Nat) (f : State → State) :
    s.go k ns f = f (s.going k ns) := if_neg (Bool.eq_false_iff.1 h)

theorem State.go_of_busy {s : State} {k : Nat} (h : s.isBusy k = true) (ns : Nat) (f : State → State) :
    s.go k ns f = s.bump (Reg.hqCnt 7) := if_pos h

section rows

variable {s : State} (hl : s.live = true)

include hl

theorem exec_hqPush (c : Fin 4) (q : BitVec 9) (p : BitVec 3) (ns : Nat) : exec (.hqPush c q p ns) s =
    .next (s.go (busyPush c.val) (min ns 150) fun s => s.corePush c.val q.toNat p.toNat) :=
  gate_live hl fun s => s.go (busyPush c.val) (min ns 150) fun s => s.corePush c.val q.toNat p.toNat

theorem exec_hqPop (c : Fin 4) (q : BitVec 9) (ns : Nat) :
    exec (.hqPop c q ns) s = .next (s.go (busyPop c.val) (min ns 150) fun s => s.corePop c.val q.toNat) :=
  gate_live hl fun s => s.go (busyPop c.val) (min ns 150) fun s => s.corePop c.val q.toNat

theorem exec_hqFlush (q : BitVec 9) (ns : Nat) :
    exec (.hqFlush q ns) s = .next (s.go busyFlush (min ns 100) fun s => s.coreFlush q.toNat) :=
  gate_live hl fun s => s.go busyFlush (min ns 100) fun s => s.coreFlush q.toNat

/-- A push, pop or flush whose field is not BUSY does what its home does. -/
theorem does_hqPush {c : Fin 4} {q : BitVec 9} {p : BitVec 3} {ns : Nat} {P : State → Prop}
    (hfree : s.isBusy (busyPush c.val) = false)
    (h : P ((s.going (busyPush c.val) (min ns 150)).corePush c.val q.toNat p.toNat)) : Does (.hqPush c q p ns) s P :=
  ⟨_, (exec_hqPush hl c q p ns).trans (congrArg _ (State.go_of_free hfree _ _)), h⟩

theorem does_hqPop {c : Fin 4} {q : BitVec 9} {ns : Nat} {P : State → Prop} (hfree : s.isBusy (busyPop c.val) = false)
    (h : P ((s.going (busyPop c.val) (min ns 150)).corePop c.val q.toNat)) : Does (.hqPop c q ns) s P :=
  ⟨_, (exec_hqPop hl c q ns).trans (congrArg _ (State.go_of_free hfree _ _)), h⟩

theorem does_hqFlush {q : BitVec 9} {ns : Nat} {P : State → Prop} (hfree : s.isBusy busyFlush = false)
    (h : P ((s.going busyFlush (min ns 100)).coreFlush q.toNat)) : Does (.hqFlush q ns) s P :=
  ⟨_, (exec_hqFlush hl q ns).trans (congrArg _ (State.go_of_free hfree _ _)), h⟩

end rows

/-! #### Flushes (R333) -/

/-- A flush before waiting pushes enter: the queue's items are gone and counted. -/
def State.emptied (s : State) (q : Nat) : State :=
  ((s.setQueue q { s.queue q with items := [] }).bumpBy (Reg.hqCnt 2) (s.queue q).items.length).setField Reg.hqFlush 8 0 q

theorem State.coreFlush_eq (s : State) (q : Nat) : s.coreFlush q = (s.emptied q).letIn q := rfl

theorem State.queue_emptied (s : State) (q r : Nat) :
    (s.emptied q).queue r = if r = q then { s.queue q with items := [] } else s.queue r :=
  s.queue_setQueue q r _

theorem State.queue_emptied_same (s : State) (q : Nat) : (s.emptied q).queue q = { s.queue q with items := [] } :=
  (s.queue_emptied q q).trans (if_pos rfl)

/-- Where no push waits, a flush is over with the items gone. -/
theorem State.coreFlush_of_none {s : State} {q : Nat} (h : (s.queue q).waiting = []) : s.coreFlush q = s.emptied q :=
  State.letIn_of_none ((congrArg Queue.waiting (s.queue_emptied_same q)).trans h)

theorem State.reg_emptied (s : State) (q : Nat) {k : Nat} (hcnt : k ≠ Reg.hqCnt 2) (hflush : k ≠ Reg.hqFlush) :
    (s.emptied q).reg k = s.reg k :=
  (State.reg_setReg_other _ _ _ _ hflush).trans (State.reg_bumpBy_other _ _ _ _ hcnt)

/-- FLUSHED grows by the items discarded. -/
theorem State.reg_flushed_emptied (s : State) (q : Nat) :
    (s.emptied q).reg (Reg.hqCnt 2) = s.reg (Reg.hqCnt 2) + BitVec.ofNat 64 (s.queue q).items.length :=
  (State.reg_setReg_other _ _ _ _ (by decide)).trans (State.reg_bumpBy_same _ _ _)

/-- R333: a flush leaves readers' hands, pop latches, UNDERRUN and ECC_LOST, and counts the items it discards. -/
structure State.FlushKeeps (s t : State) (q : Nat) : Prop where
  hand : t.hq.hand = s.hq.hand
  latch : ∀ i < 32, t.reg (Reg.hqLatch i) = s.reg (Reg.hqLatch i)
  flags : bits (t.reg (Reg.hqQstat q)) 47 46 = bits (s.reg (Reg.hqQstat q)) 47 46
  flushed : t.reg (Reg.hqCnt 2) = s.reg (Reg.hqCnt 2) + BitVec.ofNat 64 (s.queue q).items.length

theorem State.flushKeeps_coreFlush (s : State) {q : Nat} (hq : q < 512) : s.FlushKeeps (s.coreFlush q) q := by
  have keep {k : Nat} (hblock : k / 65536 = 16) (hlt : k < Reg.hqFlush) : (s.coreFlush q).reg k = s.reg k := by
    have hcnt {i : Nat} (hi : Reg.hqFlush < Reg.hqCnt i) : k ≠ Reg.hqCnt i := Nat.ne_of_lt (hlt.trans hi)
    exact (State.reg_letIn _ (.of_hq hblock (hcnt (by decide))) q).trans
      (s.reg_emptied q (hcnt (by decide)) (Nat.ne_of_lt hlt))
  refine ⟨hand_admitLoop _ _ _, fun i hi => keep ?_ ?_, congrArg (bits · 47 46) (keep ?_ ?_), ?_⟩
  · unfold Reg.hqLatch
    omega
  · unfold Reg.hqLatch Reg.hqFlush
    omega
  · unfold Reg.hqQstat
    omega
  · unfold Reg.hqQstat Reg.hqFlush
    omega
  · exact (State.reg_letIn _ (.of_hq (by decide) (by decide)) q).trans (s.reg_flushed_emptied q)

/-- R333: the waiting pushes that find room stand in a flushed queue in their order of arrival. -/
theorem State.queue_coreFlush {s : State} {q : Nat} (hq : q < 512) (h : (s.queue q).waiting.length ≤ s.qDepth q) :
    (s.coreFlush q).queue q = { items := (s.queue q).waiting.map WaitPush.entry, waiting := [] } := by
  have hqueue := s.queue_emptied_same q
  have hwaiting : ((s.emptied q).queue q).waiting = (s.queue q).waiting := by rw [hqueue]
  have hdepth : (s.emptied q).qDepth q = s.qDepth q := by
    have hcfg : (s.emptied q).reg (Reg.hqQcfg q) = s.reg (Reg.hqQcfg q) :=
      s.reg_emptied q (Nat.ne_of_lt ((hqQcfg_lt_hqFlush hq).trans (by decide))) (Nat.ne_of_lt (hqQcfg_lt_hqFlush hq))
    rw [State.qDepth, State.field, hcfg, State.qDepth, State.field]
  have hroom : ((s.emptied q).queue q).items.length + (s.queue q).waiting.length ≤ (s.emptied q).qDepth q := by
    rw [hqueue, hdepth, List.length_nil, Nat.zero_add]
    exact h
  rw [State.coreFlush_eq, State.letIn, hwaiting, queue_admitLoop hq _ _ hwaiting hroom, hqueue, List.nil_append]

theorem State.count_qstat (s : State) (q : Nat) : bits (s.qstat q) 12 0 = (s.queue q).items.length % 2 ^ 13 :=
  bits_setBits_same _ 12 0 _ (by decide) (by decide)

/-- Settles O60: with no push waiting the flushed queue is empty, and pushes that wait and fit are all that stands in it; what a
flush keeps is the same in both cases. -/
theorem flushDiscardsTheQueue : Obligations.FlushDiscardsTheQueue := by
  unfold Obligations.FlushDiscardsTheQueue
  intro s queue ns hl hfree q x
  have hq : q < 512 := queue.isLt
  obtain ⟨hhand, hlatch, hflags, hflushed⟩ := (s.going busyFlush (min ns 100)).flushKeeps_coreFlush hq
  refine ⟨fun hwait => does_hqFlush hl hfree ?_, fun hroom => does_hqFlush hl hfree ?_⟩
  · have hend : (s.going busyFlush (min ns 100)).coreFlush q = (s.going busyFlush (min ns 100)).emptied q :=
      State.coreFlush_of_none hwait
    have hitems : (((s.going busyFlush (min ns 100)).coreFlush q).queue q).items = [] := by
      rw [hend, State.queue_emptied_same]
    refine ⟨hitems, ?_, hhand, hlatch, ?_, hflags, hflushed⟩
    · rw [State.count_qstat, hitems]
      rfl
    · rw [hend]
      rfl
  · have hqueue := State.queue_coreFlush (s := s.going busyFlush (min ns 100)) hq hroom
    exact ⟨congrArg Queue.items hqueue, congrArg Queue.waiting hqueue, hhand, hlatch, hflags, hflushed⟩

end Sys2Proof.Machine
end

section
/-! ### Arrivals, pops and pushes at a queue's home (R325 to R332) -/

namespace Sys2Proof.Machine

open Sys2Proof

/-! #### Arrivals (R325, R327) -/

theorem State.wake_of_awake {s : State} (h : s.plat.parkedSince = none) : s.wake = s := by
  rw [State.wake, h, Option.isSome_none, State.iff_false]

theorem State.refusalOf_eq_zero {s : State} {q : Nat} {it : Item} (hbad : tagBad it.w1 = false)
    (hepoch : s.epochCode (tagEpoch it.w1) = 0) (hdepth : s.qDepth q ≠ 0) : s.refusalOf q it = 0 := by
  simp only [State.refusalOf, hbad, hepoch, hdepth, Bool.false_eq_true, ne_eq, not_true_eq_false, if_false]

/-- On a module that is not parked an item that nothing refuses is pushed under its SEQ. -/
theorem State.arriveItem_of_ok {s : State} {q p sender : Nat} {it : Item} (hawake : s.plat.parkedSince = none)
    (hok : s.refusalOf q it = 0) (hnew : s.duplicate (seqKey sender (s.qReader q) (tagClass it.w1)) it.w1 = false) :
    s.arriveItem q p sender it false none =
      (0, (s.noteSeq (seqKey sender (s.qReader q) (tagClass it.w1)) it.w1).hwPush q { prio := p, item := it }) := by
  have hwake : s.iff (s.qReader q ≠ 0) State.wake = s := by
    rw [State.iff, State.wake_of_awake hawake, ite_self]
  simp only [State.arriveItem, hok, hnew, hwake, Option.isSome_none, Bool.and_false, Bool.false_and, Bool.false_eq_true,
    if_false, ne_eq, not_true_eq_false]

theorem exec_queueItemArrival {s : State} (hl : s.live = true) {q : BitVec 9} {p : BitVec 3} {sender : Nat} {it : Item}
    (hawake : s.plat.parkedSince = none) (hok : s.refusalOf q.toNat it = 0)
    (hnew : s.duplicate (seqKey sender (s.qReader q.toNat) (tagClass it.w1)) it.w1 = false) :
    exec (.queueItemArrival q p sender it false) s = .next ((s.noteSeq (seqKey sender (s.qReader q.toNat) (tagClass it.w1))
      it.w1).hwPush q.toNat { prio := p.toNat, item := it }) := by
  have hrow : exec (.queueItemArrival q p sender it false) s = execQueueItemArrival q p sender it false s := rfl
  rw [hrow, execQueueItemArrival, gate_live hl, State.arriveItem_of_ok hawake hok hnew]
  rfl

/-- R327: a hardware push that finds its queue full waits behind those that wait, and is counted. -/
theorem State.hwPush_full {s : State} {q : Nat} (hdepth : 0 < s.qDepth q) (hfull : s.qDepth q ≤ (s.queue q).items.length)
    (w : WaitPush) : ((s.hwPush q w).queue q).items = (s.queue q).items ∧
      ((s.hwPush q w).queue q).waiting = (s.queue q).waiting ++ [w] ∧
      (s.hwPush q w).reg (Reg.hqCnt 4) = s.reg (Reg.hqCnt 4) + 1 := by
  rw [State.hwPush, if_neg (Nat.ne_of_gt hdepth), if_neg (Nat.not_lt.2 hfull)]
  have hqueue := s.queue_setQueue_same q { s.queue q with waiting := (s.queue q).waiting ++ [w] }
  exact ⟨(congrArg Queue.items hqueue).trans rfl, (congrArg Queue.waiting hqueue).trans rfl, State.reg_bump_same _ _⟩

section arrival

variable {s : State} {q : BitVec 9} {sender : Nat} {it : Item} (hl : s.live = true) (hawake : s.plat.parkedSince = none)
  (hbad : tagBad it.w1 = false) (hepoch : s.epochCode (tagEpoch it.w1) = 0)
  (hnew : s.duplicate (seqKey sender (s.qReader q.toNat) (tagClass it.w1)) it.w1 = false)

include hl hawake hbad hepoch hnew

theorem does_queueItemArrival_room (p : BitVec 3) (hroom : (s.queue q.toNat).items.length < s.qDepth q.toNat) :
    Does (.queueItemArrival q p sender it false) s fun t => s.EntersBehind t q.toNat ⟨p.toNat, it, false⟩ := by
  have hok := State.refusalOf_eq_zero hbad hepoch (Nat.ne_of_gt (Nat.zero_lt_of_lt hroom))
  obtain ⟨hitems, hothers, hmem⟩ := State.EntersBehind.hwPush
    (s := s.noteSeq (seqKey sender (s.qReader q.toNat) (tagClass it.w1)) it.w1) hroom { prio := p.toNat, item := it }
  exact ⟨_, exec_queueItemArrival hl hawake hok hnew, hitems, hothers, hmem⟩

theorem does_queueItemArrival_full (p : BitVec 3) (hdepth : 0 < s.qDepth q.toNat)
    (hfull : s.qDepth q.toNat ≤ (s.queue q.toNat).items.length) :
    Does (.queueItemArrival q p sender it false) s fun t => (t.queue q.toNat).items = (s.queue q.toNat).items ∧
      (t.queue q.toNat).waiting = (s.queue q.toNat).waiting ++ [{ prio := p.toNat, item := it }] ∧
      t.reg (Reg.hqCnt 4) = s.reg (Reg.hqCnt 4) + 1 := by
  have hok := State.refusalOf_eq_zero hbad hepoch (Nat.ne_of_gt hdepth)
  obtain ⟨hitems, hwaiting, hcnt⟩ := State.hwPush_full
    (s := s.noteSeq (seqKey sender (s.qReader q.toNat) (tagClass it.w1)) it.w1) hdepth hfull { prio := p.toNat, item := it }
  exact ⟨_, exec_queueItemArrival hl hawake hok hnew, hitems, hwaiting, hcnt⟩

end arrival

/-! #### The order of pops (R326) -/

theorem mem_of_takeLevel {p : Nat} {l rest : List QEntry} {e : QEntry} (h : takeLevel p l = some (e, rest)) : e ∈ l := by
  induction l generalizing rest with
  | nil => cases h
  | cons x l ih =>
    rw [takeLevel] at h
    split at h
    · cases h
      exact List.mem_cons_self
    · obtain ⟨⟨y, rest'⟩, hy, heq⟩ := Option.map_eq_some_iff.1 h
      cases heq
      exact List.mem_cons_of_mem _ (ih hy)

theorem minNat?_eq_min? (l : List Nat) : minNat? l = l.min? := by cases l <;> rfl

/-- The level of an item below which the queue holds none is the one a pop takes from. -/
theorem lowestLevel_of_mem {l : List QEntry} {e : QEntry} (he : e ∈ l) (hlow : ∀ y ∈ l, e.prio ≤ y.prio) :
    lowestLevel l = some e.prio := by
  rw [lowestLevel, minNat?_eq_min?, List.min?_eq_some_iff]
  exact ⟨List.mem_map_of_mem he, fun b hb => by
    obtain ⟨y, hy, rfl⟩ := List.mem_map.1 hb
    exact hlow y hy⟩

/-- A pop takes the oldest item of the lowest level, where that item is good, and loses none. -/
theorem popGood_oldest {l rest : List QEntry} {e : QEntry} (htake : takeLevel e.prio l = some (e, rest))
    (hlow : ∀ y ∈ l, e.prio ≤ y.prio) (hgood : e.bad = false) :
    popGood l.length l = (some e, rest, 0) ∧ lostItems l.length l = [] := by
  have he := mem_of_takeLevel htake
  obtain ⟨n, hn⟩ := Nat.exists_eq_add_one_of_ne_zero (Nat.ne_of_gt (List.length_pos_of_mem he))
  have hlevel := lowestLevel_of_mem he hlow
  rw [hn, popGood, lostItems]
  simp only [hlevel, htake, hgood, Bool.false_eq_true, if_false, and_self]

theorem State.noteLost_nil (s : State) (q : Nat) : s.noteLost q [] = s := rfl

/-- The state after a pop that loses no item where no push waits: the queue holds `items`. -/
def State.popped (s : State) (q : Nat) (items : List QEntry) : State := s.setQueue q { s.queue q with items := items }

theorem State.queue_popped (s : State) (q : Nat) (items : List QEntry) :
    (s.popped q items).queue q = { s.queue q with items := items } := State.queue_setQueue_same s q _

theorem State.popQueue_oldest {s : State} {q : Nat} {e : QEntry} {rest : List QEntry}
    (htake : takeLevel e.prio (s.queue q).items = some (e, rest)) (hlow : ∀ y ∈ (s.queue q).items, e.prio ≤ y.prio)
    (hgood : e.bad = false) (hwait : (s.queue q).waiting = []) :
    s.popQueue q = (some e, (s.popped q rest).bump (Reg.hqCnt 1)) := by
  obtain ⟨hpop, hlost⟩ := popGood_oldest htake hlow hgood
  have hnone : (((s.popped q rest).bump (Reg.hqCnt 1)).queue q).waiting = [] :=
    (congrArg Queue.waiting (s.queue_popped q rest)).trans hwait
  rw [State.popQueue]
  simp only [hpop, hlost, State.noteLost_nil]
  exact congrArg (Prod.mk _) (State.letIn_of_none hnone)

theorem State.popQueue_empty {s : State} {q : Nat} (hitems : (s.queue q).items = []) (hwait : (s.queue q).waiting = []) :
    s.popQueue q = (none, s.popped q []) := by
  have hnone : ((s.popped q []).queue q).waiting = [] := (congrArg Queue.waiting (s.queue_popped q [])).trans hwait
  rw [State.popQueue]
  simp only [hitems, List.length_nil, popGood, lostItems, State.noteLost_nil]
  exact congrArg (Prod.mk _) (State.letIn_of_none hnone)

/-! #### Pop latches (R331) -/

theorem State.hq_fillLatch (s : State) (c i : Nat) (ws : List Word) : (s.fillLatch c i ws).hq = s.hq := by
  induction ws generalizing s i with
  | nil => rfl
  | cons w ws ih => exact (ih _ _).trans rfl

/-- Filling a latch from a word on leaves the words before it. -/
theorem State.reg_fillLatch_before (s : State) (c : Nat) {i j : Nat} (h : j < i) (ws : List Word) :
    (s.fillLatch c i ws).reg (Reg.hqLatch (8 * c + j)) = s.reg (Reg.hqLatch (8 * c + j)) := by
  induction ws generalizing s i with
  | nil => rfl
  | cons w ws ih =>
    rw [State.fillLatch, ih _ (Nat.lt_succ_of_lt h)]
    refine State.reg_setReg_other _ _ _ _ ?_
    unfold Reg.hqLatch
    omega

/-- Word `j` of what fills a latch stands in the latch's word `j`. -/
theorem State.reg_fillLatch (s : State) (c i : Nat) {ws : List Word} {j : Nat} (h : j < ws.length) :
    (s.fillLatch c i ws).reg (Reg.hqLatch (8 * c + (i + j))) = ws[j] := by
  induction ws generalizing s i j with
  | nil => exact absurd h (Nat.not_lt_zero _)
  | cons w ws ih =>
    rw [State.fillLatch]
    cases j with
    | zero => exact (State.reg_fillLatch_before _ c (Nat.lt_succ_self i) ws).trans (State.reg_setReg_same _ _ _)
    | succ j =>
      rw [List.getElem_cons_succ, ← ih (s.setReg (Reg.hqLatch (8 * c + i)) w) (i + 1) (Nat.lt_of_succ_lt_succ h), Nat.add_assoc,
        Nat.add_comm 1 j]

/-! #### Pops (R326, R328, R331) -/

theorem State.corePop_some {s u : State} {c q : Nat} {e : QEntry} (hreader : s.qReader q = 0)
    (hpop : s.popQueue q = (some e, u)) :
    s.corePop c q = (u.fillLatch c 0 e.item.words).setReg (Reg.hqPop c) (fld 11 9 e.prio ||| fld 8 0 q) := by
  rw [State.corePop, if_neg (not_not.2 hreader), hpop]

/-- A core's pop of an empty queue: EMPTY and UNDERRUN are set, and UNDERRUNS counts. -/
theorem State.corePop_none {s u : State} {c q : Nat} (hreader : s.qReader q = 0) (hpop : s.popQueue q = (none, u)) :
    s.corePop c q = (((u.setField (Reg.hqPop c) 61 61 1).setField (Reg.hqPop c) 8 0 q).setField (Reg.hqQstat q) 47 47 1).bump
      (Reg.hqCnt 3) := by
  rw [State.corePop, if_neg (not_not.2 hreader), hpop]

/-- R331: what a core's pop of an item leaves: the item in the latch, its level in PRIO. -/
theorem State.corePop_item {s u : State} {c : Fin 4} {q : Nat} {e : QEntry} (hreader : s.qReader q = 0)
    (hpop : s.popQueue q = (some e, u)) :
    (s.corePop c.val q).queue q = u.queue q ∧ (s.corePop c.val q).reg (Reg.hqPop c.val) = (fld 11 9 e.prio ||| fld 8 0 q) ∧
      ∀ j (hj : j < e.item.words.length), (s.corePop c.val q).reg (Reg.hqLatch (8 * c.val + j)) = e.item.words[j] := by
  rw [State.corePop_some hreader hpop]
  refine ⟨State.queue_of_hq ((State.setReg_hq _ _ _).trans (u.hq_fillLatch c.val 0 e.item.words)) q, State.reg_setReg_same _ _ _,
    fun j hj => ?_⟩
  have hoff : Reg.hqLatch (8 * c.val + j) ≠ Reg.hqPop c.val := by
    unfold Reg.hqLatch Reg.hqPop
    omega
  have hword := u.reg_fillLatch c.val 0 hj
  rw [Nat.zero_add] at hword
  rw [State.reg_setReg_other _ _ _ _ hoff, hword]

/-- R331: what a core's pop of an empty queue leaves: EMPTY and UNDERRUN are 1, and its latch and every other keep their words. -/
theorem State.corePop_empty {s u : State} {c : Fin 4} {q : Nat} (hq : q < 512) (hreader : s.qReader q = 0)
    (hpop : s.popQueue q = (none, u)) (hregs : u.regs = s.regs) :
    (s.corePop c.val q).field (Reg.hqPop c.val) 61 61 = 1 ∧ (s.corePop c.val q).field (Reg.hqQstat q) 47 47 = 1 ∧
      ∀ j < 32, (s.corePop c.val q).reg (Reg.hqLatch j) = s.reg (Reg.hqLatch j) := by
  rw [State.corePop_none hreader hpop]
  have hpopCnt : Reg.hqPop c.val ≠ Reg.hqCnt 3 := by
    unfold Reg.hqPop Reg.hqCnt
    omega
  have hstatCnt : Reg.hqQstat q ≠ Reg.hqCnt 3 := by
    unfold Reg.hqQstat Reg.hqCnt
    omega
  have hpopStat : Reg.hqPop c.val ≠ Reg.hqQstat q := by
    unfold Reg.hqQstat Reg.hqPop
    omega
  refine ⟨?_, ?_, fun j hj => ?_⟩
  · rw [State.field, State.reg_bump_other _ _ _ hpopCnt, State.setField, State.reg_setReg_other _ _ _ _ hpopStat, State.setField,
      State.reg_setReg_same, bits_setBits_other _ _ _ _ _ _ (by decide) (by decide) (by decide) (by decide)]
    exact State.field_setField_same u _ 61 61 1 (by decide) (by decide)
  · rw [State.field, State.reg_bump_other _ _ _ hstatCnt]
    exact State.field_setField_same _ _ 47 47 1 (by decide) (by decide)
  · have hoff {k : Nat} (hk : k < Reg.hqLatch 0 ∨ Reg.hqFlush < k) : Reg.hqLatch j ≠ k := by
      unfold Reg.hqLatch Reg.hqFlush at *
      omega
    have hlatchPop : Reg.hqLatch j ≠ Reg.hqPop c.val := hoff (.inl (by unfold Reg.hqPop Reg.hqLatch; omega))
    have hlatchStat : Reg.hqLatch j ≠ Reg.hqQstat q := hoff (.inl (by unfold Reg.hqQstat Reg.hqLatch; omega))
    rw [State.reg_bump_other _ _ _ (hoff (.inr (by decide))), State.setField, State.reg_setReg_other _ _ _ _ hlatchStat,
      State.setField, State.reg_setReg_other _ _ _ _ hlatchPop, State.setField, State.reg_setReg_other _ _ _ _ hlatchPop]
    exact State.reg_of_regs hregs _

/-- R328: a working hardware reader takes the item into its hand. -/
theorem exec_hwPop_item {s u : State} {q : BitVec 9} {e : QEntry} (hl : s.live = true)
    (hreads : s.readsQueue (s.qReader q.toNat) q.toNat = true) (hworks : s.readerFailed (s.qReader q.toNat) = false)
    (hnolost : lostItems (s.queue q.toNat).items.length (s.queue q.toNat).items = [])
    (hpop : s.popQueue q.toNat = (some e, u)) :
    exec (.hwPop q) s = .next { u with
      hq.hand := SMap.set [] u.hq.hand (s.qReader q.toNat) (SMap.get [] u.hq.hand (s.qReader q.toNat) ++ [e.item]) } := by
  have hrow : exec (.hwPop q) s = execHwPop q s := rfl
  rw [hrow, execHwPop, gate_live hl]
  simp only [hreads, hworks, hnolost, hpop, List.isEmpty_nil, Bool.not_true, Bool.false_eq_true, if_false, if_true]

/-! #### Pushes of a core (R330, R335) -/

/-- STATUS, PRIO and QUEUE of HQ.PUSHc after a push. -/
def pushWord (q p st : Nat) : Word := fld 47 32 st ||| fld 11 9 p ||| fld 8 0 q

theorem State.hq_noteRefusal (s : State) (code : Nat) : (s.noteRefusal code).hq = s.hq := by
  unfold State.noteRefusal State.iff
  split <;> rfl

theorem State.reg_noteRefusal (s : State) (code : Nat) {k : Nat} (h : k ≠ Reg.fabCnt 4) : (s.noteRefusal code).reg k = s.reg k :=
  State.reg_iff s _ (State.reg_bump_other _ _ _ h)

section push

variable {s : State} {c : Fin 4} {q p : Nat}

/-- A refused push leaves the queue and reports its code. -/
theorem State.corePush_refused (h : s.refusalOf q (s.pushBuffer c.val) ≠ 0) : (s.corePush c.val q p).queue q = s.queue q ∧
    (s.corePush c.val q p).reg (Reg.hqPush c.val) = pushWord q p (s.refusalOf q (s.pushBuffer c.val)) := by
  have hpush : s.corePush c.val q p = (s.setReg (Reg.hqPush c.val)
      (pushWord q p (s.refusalOf q (s.pushBuffer c.val)))).noteRefusal (s.refusalOf q (s.pushBuffer c.val)) := by
    rw [State.corePush]
    simp only [h, ne_eq, not_false_eq_true, if_true]
    rfl
  have hoff : Reg.hqPush c.val ≠ Reg.fabCnt 4 := by
    unfold Reg.hqPush Reg.fabCnt
    omega
  rw [hpush]
  exact ⟨State.queue_of_hq ((State.hq_noteRefusal _ _).trans (State.setReg_hq _ _ _)) q,
    (State.reg_noteRefusal _ _ hoff).trans (State.reg_setReg_same _ _ _)⟩

variable (hok : s.refusalOf q (s.pushBuffer c.val) = 0)
  (hnew : s.duplicate (seqKey 0 (s.qReader q) (tagClass (s.pushBuffer c.val).w1)) (s.pushBuffer c.val).w1 = false)

include hok hnew

/-- A push that finds room enters its item behind the others. -/
theorem State.corePush_entered (hroom : s.noRoom q = false) :
    ((s.corePush c.val q p).queue q).items = (s.queue q).items ++ [⟨p, s.pushBuffer c.val, false⟩] ∧
      (s.corePush c.val q p).reg (Reg.hqPush c.val) = pushWord q p 0 := by
  have hpush : s.corePush c.val q p = ((s.noteSeq (seqKey 0 (s.qReader q) (tagClass (s.pushBuffer c.val).w1))
      (s.pushBuffer c.val).w1).enter q ⟨p, s.pushBuffer c.val, false⟩).setReg (Reg.hqPush c.val) (pushWord q p 0) := by
    rw [State.corePush]
    simp only [hok, hnew, hroom, ne_eq, not_true_eq_false, Bool.false_eq_true, if_false]
    rfl
  rw [hpush]
  exact ⟨State.items_enter _ _ _, State.reg_setReg_same _ _ _⟩

/-- R327: a push that finds no room is refused with QUEUE_FULL and counted. -/
theorem State.corePush_full (hfull : s.noRoom q = true) : (s.corePush c.val q p).queue q = s.queue q ∧
    (s.corePush c.val q p).reg (Reg.hqPush c.val) = pushWord q p Code.queueFull ∧
      (s.corePush c.val q p).reg (Reg.hqCnt 5) = s.reg (Reg.hqCnt 5) + 1 := by
  have hpush : s.corePush c.val q p =
      (s.setReg (Reg.hqPush c.val) (pushWord q p Code.queueFull)).bump (Reg.hqCnt 5) := by
    rw [State.corePush]
    simp only [hok, hnew, hfull, ne_eq, not_true_eq_false, Bool.false_eq_true, if_false, if_true]
    rfl
  have hoff : Reg.hqPush c.val ≠ Reg.hqCnt 5 := by
    unfold Reg.hqPush Reg.hqCnt
    omega
  rw [hpush]
  refine ⟨rfl, (State.reg_bump_other _ _ _ hoff).trans (State.reg_setReg_same _ _ _), ?_⟩
  rw [State.reg_bump_same, State.reg_setReg_other _ _ _ _ hoff.symm]

end push

/-! #### The rows -/

/-- A GO write while BUSY is 1 is ignored and counted (R332). -/
theorem does_go_busy {s : State} (hl : s.live = true) {c : Fin 4} {q : BitVec 9} {p : BitVec 3} {ns : Nat} {y : Instr × Nat}
    (hy : y ∈ ([(.hqPush c q p ns, busyPush c.val), (.hqPop c q ns, busyPop c.val), (.hqFlush q ns, busyFlush)] :
      List (Instr × Nat))) (hbusy : s.isBusy y.2 = true) : Does y.1 s fun t => t = s.bump (Reg.hqCnt 7) := by
  simp only [List.mem_cons, List.not_mem_nil, or_false] at hy
  rcases hy with rfl | rfl | rfl
  · exact ⟨_, exec_hqPush hl c q p ns, State.go_of_busy hbusy _ _⟩
  · exact ⟨_, exec_hqPop hl c q ns, State.go_of_busy hbusy _ _⟩
  · exact ⟨_, exec_hqFlush hl q ns, State.go_of_busy hbusy _ _⟩

/-- Settles O17: each row by what its home does: an arrival, a pop by a core or a unit, a core's push, a flush, and a GO write
while BUSY is 1. -/
theorem queueOrder : Obligations.QueueOrder := by
  unfold Obligations.QueueOrder
  intro s q p sender ns it c e rest hl x
  have hq : q.toNat < 512 := q.isLt
  refine ⟨fun hawake hbad hepoch hnew => ⟨fun hroom => ?room, fun hdepth hfull =>
      does_queueItemArrival_full hl hawake hbad hepoch hnew p hdepth hfull⟩,
    fun htake hlow hgood hwait => ⟨fun hreader hfree => does_hqPop hl hfree ?core, fun hreads hworks => ?unit⟩,
    fun hreader hitems hwait hfree => does_hqPop hl hfree ?empty, ?push, fun hfree hwait => does_hqFlush hl hfree ?flush,
    fun y hy hbusy => does_go_busy hl hy hbusy⟩
  case room =>
    obtain ⟨t, ht, hitems, hothers, hmem⟩ := does_queueItemArrival_room hl hawake hbad hepoch hnew p hroom
    exact ⟨t, ht, hitems, hothers, hmem⟩
  case core =>
    let g := s.going (busyPop c.val) (min ns 150)
    have hpop : g.popQueue q.toNat = (some e, (g.popped q.toNat rest).bump (Reg.hqCnt 1)) :=
      State.popQueue_oldest htake hlow hgood hwait
    obtain ⟨hqueue, hreg, hlatch⟩ := State.corePop_item (s := g) (c := c) hreader hpop
    exact ⟨congrArg Queue.items (hqueue.trans (g.queue_popped _ rest)), hreg, hlatch 0 (Nat.zero_lt_succ _),
      hlatch 7 (Nat.lt_succ_self _)⟩
  case unit =>
    exact ⟨_, exec_hwPop_item hl hreads hworks (popGood_oldest htake hlow hgood).2
      (State.popQueue_oldest htake hlow hgood hwait), congrArg Queue.items (s.queue_popped _ rest), SMap.get_set_same _ _ _ _⟩
  case empty =>
    let g := s.going (busyPop c.val) (min ns 150)
    obtain ⟨hempty, hunderrun, hlatch⟩ :=
      State.corePop_empty (s := g) (c := c) hq hreader (State.popQueue_empty hitems hwait) rfl
    exact ⟨hempty, hunderrun, fun i => hlatch (8 * c.val + i % 8) (by omega)⟩
  case push =>
    intro b put hfree
    let g := s.going (busyPush c.val) (min ns 150)
    exact ⟨fun hcode => does_hqPush hl hfree (State.corePush_refused (s := g) hcode), fun hok hnew =>
      ⟨fun hroom => does_hqPush hl hfree (State.corePush_entered (s := g) hok hnew hroom),
        fun hfull => does_hqPush hl hfree (State.corePush_full (s := g) hok hnew hfull)⟩⟩
  case flush =>
    let g := s.going busyFlush (min ns 100)
    have hend : g.coreFlush q.toNat = g.emptied q.toNat := State.coreFlush_of_none hwait
    rw [hend]
    exact ⟨congrArg Queue.items (g.queue_emptied_same _), fun r hr => (g.queue_emptied _ r).trans (if_neg hr), rfl,
      g.reg_flushed_emptied _⟩

end Sys2Proof.Machine
end

section
/-! ### Words written to tables at state addresses (R57, R58, R104, R110 to R112, R152, R156, R349) -/

namespace Sys2Proof.Machine

open Sys2Proof

/-- One state is the other but for memory bytes and entries of the decoded tables. -/
def State.TablesOnly (s t : State) : Prop := ∃ x d h l k q u m, t = { s with
  tsm := x, hmp.dir := d, hmp.hdr := h, hmp.log := l, kvs := k, fw.reqs := q, fw.uses := u, mem := m }

theorem State.TablesOnly.refl (s : State) : s.TablesOnly s := ⟨_, _, _, _, _, _, _, _, rfl⟩

theorem State.TablesOnly.trans {s t u : State} (h : s.TablesOnly t) (h' : t.TablesOnly u) : s.TablesOnly u := by
  obtain ⟨_, _, _, _, _, _, _, _, rfl⟩ := h
  obtain ⟨_, _, _, _, _, _, _, _, rfl⟩ := h'
  exact ⟨_, _, _, _, _, _, _, _, rfl⟩

theorem State.tablesOnly_putTab (s : State) (r : TabRef) (ws : List Word) : s.TablesOnly (s.putTab r ws) := by
  cases r
  case req i =>
    unfold State.putTab State.putReqWords
    dsimp only
    split <;> exact ⟨_, _, _, _, _, _, _, _, rfl⟩
  all_goals exact ⟨_, _, _, _, _, _, _, _, rfl⟩  -- an update of the directory, a header, the log, a span, a side record or the page table

theorem State.tablesOnly_setVbyte (s : State) (a : Nat) (b : Byte) : s.TablesOnly (s.setVbyte a b) := by
  unfold State.setVbyte
  split
  · exact s.tablesOnly_putTab _ _
  · exact ⟨_, _, _, _, _, _, _, _, rfl⟩

theorem State.tablesOnly_setVbytes (s : State) (a : Nat) (bs : List Byte) : s.TablesOnly (s.setVbytes a bs) := by
  unfold State.setVbytes
  split
  · exact List.foldlRecOn _ _ (motive := s.TablesOnly) (.refl s) fun u hu x _ => hu.trans (u.tablesOnly_setVbyte _ _)
  · exact ⟨_, _, _, _, _, _, _, _, rfl⟩

theorem State.tablesOnly_setTabWord (s : State) (a : Nat) (v : Word) : s.TablesOnly (s.setTabWord a v) := by
  unfold State.setTabWord
  split_ifs
  · exact s.tablesOnly_setVbytes _ _
  · exact ⟨_, _, _, _, _, _, _, _, rfl⟩
  · exact .refl s

theorem State.tablesOnly_setGramEntry (s : State) (n : Nat) (e : GramEntry) : s.TablesOnly (s.setGramEntry n e) :=
  (s.tablesOnly_setTabWord _ _).trans (State.tablesOnly_setTabWord _ _ _)

theorem State.tablesOnly_closeGrammar (s : State) (slot : Nat) : s.TablesOnly (s.closeGrammar slot) := by
  unfold State.closeGrammar
  split
  · exact .refl s
  · exact (s.tablesOnly_setGramEntry _ _).trans ⟨_, _, _, _, _, _, _, _, rfl⟩

/-! #### A free request record stays free -/

/-- The tables of the page table hold no request record. -/
theorem State.tableRef_ne_req (s : State) (d off i k : Nat) : s.tableRef d off ≠ some (.req i, k) := by
  unfold State.tableRef
  dsimp only
  repeat' split
  all_goals simp

theorem State.slotRef_ne_req (s : State) (slot a i k : Nat) : s.slotRef slot a ≠ some (.req i, k) := by
  unfold State.slotRef
  dsimp only
  split_ifs <;> simp

/-- Where the bytes of the request records lie. -/
theorem State.tabRef_eq_req {s : State} {a i k : Nat} : s.tabRef a = some (.req i, k) ↔
    (s.hmp.dirBase ≠ 0 && s.hmp.dirBase ≤ a && a < s.hmp.dirBase + 32 * 2 ^ 22) = false ∧
    (s.hmp.headerBase ≠ 0 && s.hmp.headerBase ≤ a && a < s.hmp.headerBase + 4096 * 2 ^ 22) = false ∧
    (s.reqBase ≠ 0 && s.reqBase ≤ a && a < s.reqBase + s.reqBytes) = true ∧
    i = (a - s.reqBase) / 128 ∧ k = (a - s.reqBase) % 128 / 8 := by
  have hslots : (s.hmp.hdr.map (·.1)).findSome? (fun slot => s.slotRef slot a) ≠ some (.req i, k) := fun h => by
    obtain ⟨_, slot, _, _, h, -⟩ := List.findSome?_eq_some_iff.1 h
    exact s.slotRef_ne_req slot a i k h
  unfold State.tabRef
  dsimp only
  generalize (s.hmp.dirBase ≠ 0 && s.hmp.dirBase ≤ a && a < s.hmp.dirBase + 32 * 2 ^ 22 : Bool) = dir
  generalize (s.hmp.headerBase ≠ 0 && s.hmp.headerBase ≤ a && a < s.hmp.headerBase + 4096 * 2 ^ 22 : Bool) = hdr
  generalize (s.reqBase ≠ 0 && s.reqBase ≤ a && a < s.reqBase + s.reqBytes : Bool) = req
  cases dir
  case true => simp
  case false =>
    cases hdr
    case true => simp
    case false =>
      cases req
      case true => simp [eq_comm]
      case false =>
        have hpage : ¬ (if ((s.leaf (a / 65536)).pin && decide ((s.leaf (a / 65536)).tier = .dram)) = true then
            s.tableRef (s.leaf (a / 65536)).loc (a % 65536)
            else (s.hmp.hdr.map (·.1)).findSome? fun slot => s.slotRef slot a) = some (.req i, k) := by
          split
          · exact s.tableRef_ne_req _ _ _ _
          · exact hslots
        simpa using hpage

theorem State.TablesOnly.tabRef_req {s t : State} (h : s.TablesOnly t) {a i k : Nat} (ht : t.tabRef a = some (.req i, k)) :
    s.tabRef a = some (.req i, k) := by
  obtain ⟨_, _, _, _, _, _, _, _, rfl⟩ := h
  have hplace := State.tabRef_eq_req.1 ht
  exact State.tabRef_eq_req.2 hplace

/-- The state field of a free record's words. -/
theorem State.reqWords_free {s : State} {i : Nat} (h : SMap.lookup s.fw.reqs i = none) :
    (s.reqWords i).length = 16 ∧ bits ((s.reqWords i).getD 8 0) 31 28 = 0 := by
  unfold State.reqWords
  rw [h]
  refine ⟨rfl, ?_⟩
  exact bits_fld_other 63 32 _ 31 28 (by decide) (by decide) (by decide) (by decide)

/-- Replacing a byte of a word leaves its field 31:28 zero, if the byte put over that field has a zero half there. -/
theorem bits_setBits_byte {w : Word} (hw : bits w 31 28 = 0) {m b : Nat} (hm : m < 8) (hb : m = 3 → b < 16) :
    bits (setBits w (8 * m + 7) (8 * m) b) 31 28 = 0 := by
  by_cases h3 : m = 3
  · subst h3
    refine Nat.eq_of_testBit_eq fun i => ?_
    rw [bits_testBit, setBits_getLsbD _ _ _ _ _ (by decide) (by decide), Nat.zero_testBit]
    by_cases hi : i < 4
    · have hbit : b.testBit (28 + i - 24) = false := by
        have hsmall : b < 2 ^ 4 := hb rfl
        exact Nat.testBit_lt_two_pow (hsmall.trans_le (Nat.pow_le_pow_right (by decide) (by omega)))
      have hin : 8 * 3 ≤ 28 + i ∧ 28 + i ≤ 8 * 3 + 7 := by omega
      simp [hin, hbit]
    · simp [hi]
  · rw [bits_setBits_other _ _ _ _ _ _ (by omega) (by omega) (by decide) (by omega), hw]

theorem State.lookup_setVbyte_none {s : State} {a i : Nat} {b : Byte} (h : SMap.lookup s.fw.reqs i = none)
    (hb : s.tabRef a = some (.req i, 8) → a % 8 = 3 → b.toNat < 16) : SMap.lookup (s.setVbyte a b).fw.reqs i = none := by
  unfold State.setVbyte
  split
  · next r k hr =>
    cases r
    case req j =>
      unfold State.putTab State.putReqWords
      dsimp only
      by_cases hj : j = i
      · subst hj
        obtain ⟨hlen, hfree⟩ := State.reqWords_free h
        have hstate : bits (((s.tabWords (.req j)).set k (setBits ((s.tabWords (.req j)).getD k 0) (8 * (a % 8) + 7) (8 * (a % 8))
            b.toNat)).getD 8 0) 31 28 = 0 := by
          show bits (((s.reqWords j).set k _).getD 8 0) 31 28 = 0
          by_cases hk : k = 8
          · subst hk
            rw [List.getD_eq_getElem?_getD, List.getElem?_set_self (by omega), Option.getD_some]
            exact bits_setBits_byte hfree (Nat.mod_lt _ (by decide)) (hb hr)
          · rw [List.getD_eq_getElem?_getD, List.getElem?_set_ne hk, ← List.getD_eq_getElem?_getD, hfree]
        rw [if_pos hstate]
        exact SMap.lookup_erase_same _ _
      · split
        · rw [SMap.lookup_erase, if_neg (Ne.symm hj), h]
        · rw [SMap.lookup_put, if_neg (Ne.symm hj), h]
    all_goals exact h
  · exact h

/-- A record stays free under a write of bytes that leaves its field of states zero. -/
theorem State.lookup_setVbytes_none {s : State} {a i : Nat} {bs : List Byte} (h : SMap.lookup s.fw.reqs i = none)
    (hb : ∀ j (hj : j < bs.length), s.tabled (a / 65536) = true → s.tabRef (a + j) = some (.req i, 8) → (a + j) % 8 = 3 →
      bs[j].toNat < 16) : SMap.lookup (s.setVbytes a bs).fw.reqs i = none := by
  unfold State.setVbytes
  split
  · next htab =>
    have hfold : s.TablesOnly (bs.zipIdx.foldl (fun s x => s.setVbyte (a + x.2) x.1) s) ∧
        SMap.lookup (bs.zipIdx.foldl (fun s x => s.setVbyte (a + x.2) x.1) s).fw.reqs i = none := by
      refine List.foldlRecOn _ _ (motive := fun u : State => s.TablesOnly u ∧ SMap.lookup u.fw.reqs i = none) ⟨.refl s, h⟩
        fun u hu x hx => ⟨hu.1.trans (u.tablesOnly_setVbyte _ _), State.lookup_setVbyte_none hu.2 fun href hmod => ?_⟩
      obtain ⟨hj, hx⟩ := List.mem_zipIdx' hx
      rw [hx]
      exact hb _ hj htab (hu.1.tabRef_req href) hmod
    exact hfold.2
  · exact h

/-! #### Words as their bytes (R10) -/

theorem leBytes_leWord (bs : List Byte) : leBytes (leWord bs) bs.length = bs := by
  induction bs with
  | nil => rfl
  | cons b bs ih =>
    have hb := b.isLt
    have hfirst : BitVec.ofNat 8 (b.toNat + 256 * leWord bs) = b := by
      refine BitVec.eq_of_toNat_eq ?_
      rw [BitVec.toNat_ofNat]
      omega
    have hrest : (b.toNat + 256 * leWord bs) / 256 = leWord bs := by omega
    rw [leWord, List.length_cons, leBytes, hfirst, hrest, ih]

theorem leWord_lt (bs : List Byte) : leWord bs < 256 ^ bs.length := by
  induction bs with
  | nil => exact Nat.one_pos
  | cons b bs ih =>
    have hb := b.isLt
    rw [leWord, List.length_cons, Nat.pow_succ']
    omega

theorem foldl_zipIdx_eq_leWord (bs : List Byte) (k acc : Nat) :
    ((bs.zipIdx k).map fun x => x.1.toNat * 256 ^ x.2).foldl (· + ·) acc = acc + 256 ^ k * leWord bs := by
  induction bs generalizing k acc with
  | nil => rfl
  | cons b bs ih =>
    rw [List.zipIdx_cons, List.map_cons, List.foldl_cons, ih, leWord, Nat.pow_succ]
    ring

/-- The word of a table is the word its bytes spell. -/
theorem State.leBytes_tabWord {s : State} {a : Nat} (hv : (s.leaf (a / 65536)).v = true) (htab : s.tabled (a / 65536) = true) :
    leBytes (s.tabWord a).toNat 8 = (List.range 8).map fun i => s.vbyte (a + i) := by
  have hbytes (bs : List Byte) (hlen : bs.length = 8) : leBytes (BitVec.ofNat 64 (leWord bs)).toNat 8 = bs := by
    have hlt := leWord_lt bs
    rw [hlen] at hlt
    have hmod : (BitVec.ofNat 64 (leWord bs)).toNat = leWord bs := Nat.mod_eq_of_lt (by omega)
    rw [hmod, ← hlen, leBytes_leWord]
  unfold State.tabWord State.vbytes
  rw [if_pos hv, if_pos htab, if_pos htab, foldl_zipIdx_eq_leWord, Nat.pow_zero, Nat.one_mul, Nat.zero_add]
  exact hbytes _ (by simp)

/-! #### Closing a grammar frees no record that is free -/

/-- The byte of a free record that holds its state. -/
theorem State.vbyte_free_state {s : State} {a i : Nat} (h : SMap.lookup s.fw.reqs i = none) (href : s.tabRef a = some (.req i, 8))
    (hmod : a % 8 = 3) : (s.vbyte a).toNat < 16 := by
  obtain ⟨-, hfree⟩ := State.reqWords_free h
  have hbyte : s.vbyte a = BitVec.ofNat 8 (((s.reqWords i).getD 8 0).toNat / 2 ^ (8 * (a % 8))) := by
    unfold State.vbyte
    rw [href]
    rfl
  rw [bits] at hfree
  rw [hbyte, hmod, BitVec.toNat_ofNat]
  omega

theorem State.lookup_setTabWord_none {s : State} {a i : Nat} {v : Word} (h : SMap.lookup s.fw.reqs i = none)
    (hb : ∀ j, j < 8 → (s.leaf (a / 65536)).v = true → s.tabled (a / 65536) = true → s.tabRef (a + j) = some (.req i, 8) →
      (a + j) % 8 = 3 → ((leBytes v.toNat 8).getD j 0).toNat < 16) : SMap.lookup (s.setTabWord a v).fw.reqs i = none := by
  unfold State.setTabWord
  split_ifs with hv htab
  · refine State.lookup_setVbytes_none h fun j hj _ href hmod => ?_
    have hbyte := hb j (by rwa [length_leBytes] at hj) hv htab href hmod
    rwa [List.getD_eq_getElem _ _ hj] at hbyte
  · exact h
  · exact h

/-- A word written back to its place. -/
theorem State.lookup_rewrite_none {s : State} {i : Nat} (h : SMap.lookup s.fw.reqs i = none) (a : Nat) :
    SMap.lookup (s.setTabWord a (s.tabWord a)).fw.reqs i = none := by
  refine State.lookup_setTabWord_none h fun j hj hv htab href hmod => ?_
  have hbyte : (leBytes (s.tabWord a).toNat 8).getD j 0 = s.vbyte (a + j) := by
    rw [State.leBytes_tabWord hv htab, List.getD_eq_getElem _ _ (by simpa using hj), List.getElem_map, List.getElem_range]
  rw [hbyte]
  exact State.vbyte_free_state h href hmod

/-- The second word of an entry of 16 bytes meets no record's word 8. -/
theorem State.lookup_oddWord_none {s : State} {a i : Nat} (h : SMap.lookup s.fw.reqs i = none) (ha : a % 16 = 8) (v : Word) :
    SMap.lookup (s.setTabWord a v).fw.reqs i = none := by
  refine State.lookup_setTabWord_none h fun j hj _ _ href _ => ?_
  obtain ⟨-, -, hin, -, hword⟩ := State.tabRef_eq_req.1 href
  have hlo : s.reqBase ≤ a + j := by simp only [Bool.and_eq_true, decide_eq_true_eq] at hin; exact hin.1.2
  unfold State.reqBase at hword hlo
  omega

theorem State.lookup_closeGrammar_none {s : State} {i : Nat} (h : SMap.lookup s.fw.reqs i = none) (slot : Nat) :
    SMap.lookup (s.closeGrammar slot).fw.reqs i = none := by
  unfold State.closeGrammar
  split
  · exact h
  · next n _ _ =>
    have haddr : BitVec.ofNat 64 (s.gramEntry n).addr = s.tabWord (s.gramAt n) := BitVec.ofNat_toNat _ _ |>.trans (by simp)
    have hodd : (s.gramAt n + 8) % 16 = 8 := by
      unfold State.gramAt
      omega
    show SMap.lookup (((s.setTabWord (s.gramAt n) (BitVec.ofNat 64 (s.gramEntry n).addr)).setTabWord (s.gramAt n + 8) _)).fw.reqs i = none
    rw [haddr]
    exact State.lookup_oddWord_none (State.lookup_rewrite_none h _) hodd _

end Sys2Proof.Machine
end

section
/-! ### Commands on sessions and requests (R352, R361, R371, R668 to R671) -/

namespace Sys2Proof.Machine

open Sys2Proof

/-! #### The sampler and the adapter bindings -/

theorem does_setSampler {s : State} {id : Nat} {c : HostCmd} (h : Waits s id 0x16 c) (hcode : s.homeCode c.session = 0)
    (hidle : s.openReq? (hSlot c.session) = none) (ws : List Word) : Does (.setSampler id (some ws)) s fun t =>
      t.hdr (hSlot c.session) = { s.hdr (hSlot c.session) with sampler := samplerClean ws } ∧
        (∀ n, n ≠ hSlot c.session → t.hdr n = s.hdr n) ∧ t.hmp.dir = s.hmp.dir ∧ Answers s t c 0 0 0 := by
  generalize hslot : hSlot c.session = slot at hidle ⊢
  let u : State := s.setHdr slot { s.hdr slot with sampler := samplerClean ws }
  have hexec : exec (.setSampler id (some ws)) s = .next (u.complete c.id 0 0 0) := by
    show execSetSampler id (some ws) s = _
    rw [execSetSampler, h.hostCmd]
    simp [hcode, hslot, hidle, u]
  have hhdr (n : Nat) : (u.complete c.id 0 0 0).hdr n = u.hdr n := State.hdr_congr (by simp) n
  refine ⟨_, hexec, ?_, fun n hn => ?_, by simp [u], (h.is_open.underway.congr (v := u) rfl rfl (List.prefix_refl _)).answers
    (by decide) 0 0⟩
  · rw [hhdr, State.hdr_setHdr_same]
  · rw [hhdr, State.hdr_setHdr, if_neg hn]

/-- The binding of one adapter as BIND_ADAPTER leaves it: enable bit and entry of the argument, the version as it was (R371). -/
def boundWord (arg : Word) (hi : Nat) (old : Word) : Word :=
  fld 63 32 (bits old 63 32) ||| fld 31 31 (bits arg 63 63) ||| fld hi 0 (bits arg hi 0)

theorem boundWord_reads (arg old : Word) {hi : Nat} (h : hi < 30) : bit (boundWord arg hi old) 31 = bit arg 63 ∧
    bits (boundWord arg hi old) hi 0 = bits arg hi 0 ∧ bit (boundWord arg hi old) 30 = false ∧
    bits (boundWord arg hi old) 63 32 = bits old 63 32 := by
  have hver := bits_lt old 63 32
  have hbit := bits_lt arg 63 63
  have hent := bits_lt arg hi 0
  have hread (hi' lo' : Nat) : bits (boundWord arg hi old) hi' lo' = bits (fld 63 32 (bits old 63 32)) hi' lo' |||
      bits (fld 31 31 (bits arg 63 63)) hi' lo' ||| bits (fld hi 0 (bits arg hi 0)) hi' lo' := by
    rw [boundWord, bits_or, bits_or]
  refine ⟨?_, ?_, ?_, ?_⟩
  · rw [bit, bit, hread, bits_fld_other _ _ _ _ _ (by decide) (by decide) (by decide) (by decide),
      bits_fld_same _ _ _ (by decide) (by decide), bits_fld_other _ _ _ _ _ (by omega) (by omega) (by omega) (by omega),
      Nat.mod_eq_of_lt hbit, Nat.zero_or, Nat.or_zero]
  · rw [hread, bits_fld_other 63 32 _ _ _ (by decide) (by decide) (by omega) (by omega),
      bits_fld_other 31 31 _ _ _ (by decide) (by decide) (by omega) (by omega), bits_fld_same _ _ _ (by omega) (by omega),
      Nat.mod_eq_of_lt hent, Nat.zero_or, Nat.zero_or]
  · rw [bit, hread, bits_fld_other 63 32 _ _ _ (by decide) (by decide) (by decide) (by omega),
      bits_fld_other 31 31 _ _ _ (by decide) (by decide) (by decide) (by omega),
      bits_fld_other hi 0 _ _ _ (by omega) (by omega) (by decide) (by omega)]
    rfl
  · rw [hread, bits_fld_same 63 32 _ (by decide) (by decide), bits_fld_other 31 31 _ _ _ (by decide) (by decide) (by decide) (by omega),
      bits_fld_other hi 0 _ _ _ (by omega) (by omega) (by decide) (by omega), Nat.mod_eq_of_lt hver, Nat.or_zero, Nat.or_zero]

/-- The bindings of a session after BIND_ADAPTER. -/
def boundAdapters (c : HostCmd) (l : List Word) : List Word :=
  [boundWord (c.arg 0) 17 (l.getD 0 0), l.getD 1 0, boundWord (c.arg 1) 5 (l.getD 2 0), l.getD 3 0]

theorem exec_bindAdapter {s : State} {id slot : Nat} {c : HostCmd} (h : Waits s id 0x17 c) (hcode : s.homeCode c.session = 0)
    (hslot : hSlot c.session = slot) (hfree : ∀ x, s.openReq? slot = some x → x.2.item.pinAdapter = false) :
    exec (.bindAdapter id) s = .next
      ((s.setHdr slot { s.hdr slot with adapter := boundAdapters c (s.hdr slot).adapter }).complete c.id 0 0 0) := by
  have hpin : (match s.openReq? slot with
      | some (_, r) => r.item.pinAdapter
      | none => false) = false := by
    split
    · next e => exact hfree _ e
    · rfl
  show execBindAdapter id s = _
  rw [execBindAdapter, h.hostCmd]
  subst hslot
  simp only [hcode, ne_eq, not_true_eq_false, if_false]
  refine congrArg Host.Outcome.next (if_neg ?_)
  rw [Bool.not_eq_true]
  exact hpin

theorem does_bindAdapter {s : State} {id : Nat} {c : HostCmd} (h : Waits s id 0x17 c) (hcode : s.homeCode c.session = 0)
    (hfree : ∀ x, s.openReq? (hSlot c.session) = some x → x.2.item.pinAdapter = false) : Does (.bindAdapter id) s fun t =>
      (t.hdr (hSlot c.session)).adapter = boundAdapters c (s.hdr (hSlot c.session)).adapter ∧
        (∀ n, n ≠ hSlot c.session → t.hdr n = s.hdr n) ∧ Answers s t c 0 0 0 := by
  generalize hslot : hSlot c.session = slot at hfree ⊢
  let u : State := s.setHdr slot { s.hdr slot with adapter := boundAdapters c (s.hdr slot).adapter }
  have hhdr (n : Nat) : (u.complete c.id 0 0 0).hdr n = u.hdr n := State.hdr_congr (by simp) n
  refine ⟨_, exec_bindAdapter h hcode hslot hfree, ?_, fun n hn => ?_,
    (h.is_open.underway.congr (v := u) rfl rfl (List.prefix_refl _)).answers (by decide) 0 0⟩
  · rw [hhdr, State.hdr_setHdr_same]
  · rw [hhdr, State.hdr_setHdr, if_neg hn]

/-! #### SUBMIT_REQUEST -/

/-- The item of a SUBMIT_REQUEST (R668). -/
def submittedItem (c : HostCmd) : Item :=
  { w0 := c.session, w1 := fld 44 44 (bnat c.reissue) ||| fld 35 32 1 ||| fld 15 0 c.epoch.toNat
    w2 := c.arg 0, w4 := c.arg 1, w5 := c.arg 2, w6 := c.arg 3 }

/-- The command has begun and is among those in progress. -/
theorem Waits.mem_began {s : State} {id op : Nat} {c : HostCmd} (h : Waits s id op c) :
    ∃ d ∈ (s.began c.id).host.cmds, d.id = id ∧ d.began = true := by
  have hid := h.id_eq
  obtain ⟨-, hfind, -⟩ := h
  refine ⟨{ c with began := true, sinceNs := s.now }, ?_, hid, rfl⟩
  refine List.mem_map.2 ⟨c, List.mem_of_find?_eq_some hfind, if_pos rfl⟩

section submit

variable {s : State} {id : Nat} {c : HostCmd} {es : List (BitVec 32)} (h : Waits s id 0x20 c)
  (hlen : es.length = bits (c.arg 1) 63 32)

include h hlen

theorem exec_submitRequest : exec (.submitRequest id (some es)) s = .next
    (if es.any (s.badInput (s.hdr (hSlot c.session)).vocab c.ctrlTokens) = true then s.complete c.id Code.invalidField 0 0
     else { s.began c.id with fw.posted := s.fw.posted ++ [Posted.mk (submittedItem c) (some es) (some c.id) none] }) := by
  show execSubmitRequest id (some es) s = _
  rw [execSubmitRequest, h.hostCmd]
  exact congrArg Host.Outcome.next (if_neg (not_not.2 hlen))

theorem does_submitRequest (hgood : es.any (s.badInput (s.hdr (hSlot c.session)).vocab c.ctrlTokens) = false) :
    Does (.submitRequest id (some es)) s fun t =>
      t.fw.posted = s.fw.posted ++ [Posted.mk (submittedItem c) (some es) (some id) none] ∧
        (∃ d ∈ t.host.cmds, d.id = id ∧ d.began = true) ∧ t.fw.reqs = s.fw.reqs ∧ t.hmp = s.hmp := by
  refine ⟨_, exec_submitRequest h hlen, ?_⟩
  rw [if_neg (by rw [hgood]; exact Bool.false_ne_true)]
  exact ⟨by rw [h.id_eq], h.mem_began, rfl, rfl⟩

theorem does_submitRequest_refused (hbad : es.any (s.badInput (s.hdr (hSlot c.session)).vocab c.ctrlTokens) = true) :
    Does (.submitRequest id (some es)) s fun t => t.fw = s.fw ∧ t.hmp = s.hmp ∧ Answers s t c Code.invalidField 0 0 := by
  refine ⟨_, exec_submitRequest h hlen, ?_⟩
  rw [if_pos hbad]
  exact ⟨by simp, by simp, h.is_open.underway.answers (by decide) 0 0⟩

end submit

/-! #### Ends of requests -/

/-- A cancelled request sends no output (R352). -/
def ReqRec.atEnd (r : ReqRec) (code : Nat) : ReqRec := if code = Code.reqCancelled then { r with outBytes := [], outToks := 0 } else r

/-- A request has been answered and counted, and its record is free. -/
def State.freedReq (s : State) (i : Nat) (r : ReqRec) (code : Nat) : State :=
  let s := s.reply r.cmd code (fld 63 32 (reqId i r.use).toNat ||| fld 31 0 r.newDone)
    (fld 63 32 r.firstOut ||| fld 31 0 (s.hdr r.slot).commitLen)
  let s := (if r.net.isSome then s.postResponse (r.response code true) else s).bump (Reg.ctlCnt (if code = 0 then 1 else 2))
  { s with fw.reqs := SMap.erase s.fw.reqs i, fw.uses := SMap.put s.fw.uses i (r.use + 1) }

/-- The session of a request that has ended keeps no grammar, pin or held output of it. -/
def State.leftBy (s : State) (r : ReqRec) : State :=
  if (s.dir r.slot).state = .free || (s.dir r.slot).kind ≠ .home then s
  else
    let s := s.iff (r.item.grammarNo ≠ 0xFFFF) fun s => s.closeGrammar r.slot
    s.setHdr r.slot ((s.hdr r.slot).unpinAdapters.setHold [])

theorem State.endReq_eq (s : State) (i : Nat) (r : ReqRec) (code : Nat) :
    s.endReq i r code = (s.freedReq i (r.atEnd code) code).leftBy (r.atEnd code) := rfl

theorem State.tablesOnly_leftBy (s : State) (r : ReqRec) : s.TablesOnly (s.leftBy r) := by
  have hset (u : State) : u.TablesOnly (u.setHdr r.slot ((u.hdr r.slot).unpinAdapters.setHold [])) := ⟨_, _, _, _, _, _, _, _, rfl⟩
  unfold State.leftBy State.iff
  dsimp only
  split
  · exact .refl s
  · split
    · exact (s.tablesOnly_closeGrammar _).trans (hset _)
    · exact hset s

/-- The record of a request that has ended is free. -/
theorem State.lookup_endReq (s : State) (i : Nat) (r : ReqRec) (code : Nat) :
    SMap.lookup (s.endReq i r code).fw.reqs i = none := by
  have hfree : SMap.lookup (s.freedReq i (r.atEnd code) code).fw.reqs i = none := SMap.lookup_erase_same _ _
  rw [State.endReq_eq]
  generalize s.freedReq i (r.atEnd code) code = u at hfree
  unfold State.leftBy State.iff
  dsimp only
  split
  · exact hfree
  · split
    · exact State.lookup_closeGrammar_none hfree _
    · exact hfree

/-- The end of a request that no host command opened leaves the host port and sends nothing to another module. -/
theorem State.endReq_keeps (s : State) (i : Nat) {r : ReqRec} (hcmd : r.cmd = none) (code : Nat) :
    (s.endReq i r code).host = s.host ∧ (s.endReq i r code).plat = s.plat ∧ (s.endReq i r code).out = s.out := by
  have hnone : (r.atEnd code).cmd = none := by
    unfold ReqRec.atEnd
    split <;> exact hcmd
  have hfreed : (s.freedReq i (r.atEnd code) code).host = s.host ∧ (s.freedReq i (r.atEnd code) code).plat = s.plat ∧
      (s.freedReq i (r.atEnd code) code).out = s.out := by
    unfold State.freedReq
    rw [hnone, State.reply]
    cases (r.atEnd code).net.isSome <;> exact ⟨rfl, rfl, rfl⟩
  obtain ⟨_, _, _, _, _, _, _, _, hleft⟩ := (s.freedReq i (r.atEnd code) code).tablesOnly_leftBy (r.atEnd code)
  rw [State.endReq_eq, hleft]
  exact hfreed

/-! #### CANCEL -/

theorem State.cancelReq_inStep (s : State) (i : Nat) {r : ReqRec} (h : r.inStep = true) :
    s.cancelReq i r = s.setReq i { r with cancel := true } := by
  have hput : SMap.lookup (s.setReq i { r with cancel := true }).fw.reqs i = some { r with cancel := true } :=
    SMap.lookup_put_same _ _ _
  rw [State.cancelReq, State.closeReq, hput]
  exact if_pos h

/-- Outside a step a request that has not failed ends at its CANCEL (R352). -/
theorem State.cancelReq_between (s : State) (i : Nat) {r : ReqRec} (h : r.inStep = false) (hfailed : r.failed = 0) :
    s.cancelReq i r = (s.setReq i { r with cancel := true }).endReq i { r with cancel := true } Code.reqCancelled := by
  have hput : SMap.lookup (s.setReq i { r with cancel := true }).fw.reqs i = some { r with cancel := true } :=
    SMap.lookup_put_same _ _ _
  rw [State.cancelReq, State.closeReq, hput]
  simp [h, hfailed]

section cancel

variable {s : State} {id : Nat} {c : HostCmd} (h : Waits s id 0x21 c)

include h

theorem does_cancel {r : ReqRec} (hr : SMap.lookup s.fw.reqs (bits (c.arg 0) 31 16) = some r)
    (huse : r.use.toNat = bits (c.arg 0) 15 0) (hfailed : r.failed = 0) (hcmd : r.cmd = none) :
    Does (.cancel id) s fun t => Answers s t c 0 0 0 ∧
      (r.inStep = true → SMap.lookup t.fw.reqs (bits (c.arg 0) 31 16) = some { r with cancel := true }) ∧
      (r.inStep = false → SMap.lookup t.fw.reqs (bits (c.arg 0) 31 16) = none) := by
  generalize hi : bits (c.arg 0) 31 16 = i at hr ⊢
  have hexec : exec (.cancel id) s = .next ((s.cancelReq i r).complete c.id 0 0 0) := by
    show execCancel id s = _
    rw [execCancel, h.hostCmd]
    dsimp only
    rw [hi, hr]
    simp [huse]
  have hfw (u : State) : (u.complete c.id 0 0 0).fw = u.fw := by simp
  by_cases hstep : r.inStep = true
  case pos =>
    rw [State.cancelReq_inStep s i hstep] at hexec
    refine ⟨_, hexec, (h.is_open.underway.congr (v := s.setReq i { r with cancel := true }) rfl rfl (List.prefix_refl _)).answers
      (by decide) 0 0, fun _ => ?_, fun hfalse => absurd hstep (by simp [hfalse])⟩
    rw [hfw]
    exact SMap.lookup_put_same _ _ _
  case neg =>
    rw [State.cancelReq_between s i (Bool.eq_false_iff.2 hstep) hfailed] at hexec
    obtain ⟨hhost, hplat, hout⟩ := (s.setReq i { r with cancel := true }).endReq_keeps i (r := { r with cancel := true }) hcmd
      Code.reqCancelled
    refine ⟨_, hexec, (h.is_open.underway.congr hhost hplat (hout ▸ List.prefix_refl _)).answers (by decide) 0 0,
      fun htrue => absurd htrue hstep, fun _ => ?_⟩
    rw [hfw]
    exact State.lookup_endReq _ _ _ _

theorem does_cancel_refused (hr : ∀ r, SMap.lookup s.fw.reqs (bits (c.arg 0) 31 16) = some r → r.use.toNat ≠ bits (c.arg 0) 15 0) :
    Does (.cancel id) s fun t => t.fw = s.fw ∧ Answers s t c Code.reqState 0 0 := by
  refine ⟨s.complete c.id Code.reqState 0 0, ?_, by simp, h.is_open.underway.answers (by decide) 0 0⟩
  show execCancel id s = _
  rw [execCancel, h.hostCmd]
  dsimp only
  split
  · rfl
  · next r e => rw [if_pos (hr r e)]

end cancel

/-! #### READ_OUTPUT -/

theorem State.out_prefix_complete (s : State) (id code : Nat) (detail data : Word) :
    s.out <+: (s.complete id code detail data).out := by
  unfold State.complete
  split
  · exact List.prefix_refl _
  · dsimp only
    split
    · exact List.prefix_refl _
    · split
      · exact List.prefix_refl _
      · exact List.prefix_append _ _

section output

variable {s : State} {id : Nat} {c : HostCmd} (h : Waits s id 0x22 c) (hcode : s.homeCode c.session = 0)

include h hcode

theorem does_readOutput_refused {top : Nat}
    (htop : top = (s.hdr (hSlot c.session)).commitLen + bnat (s.hdr (hSlot c.session)).next.isSome)
    (hrange : top < bits (c.arg 0) 63 32 + bits (c.arg 0) 31 0) :
    Does (.readOutput id true) s fun t => Answers s t c Code.outputRange 0 0 := by
  refine ⟨s.complete c.id Code.outputRange 0 0, ?_, h.is_open.underway.answers (by decide) 0 0⟩
  subst htop
  show execReadOutput id true s = _
  rw [execReadOutput, h.hostCmd]
  simp [hcode, hrange]

theorem does_readOutput {lo n a : Nat} (hlo : bits (c.arg 0) 63 32 = lo) (hn : bits (c.arg 0) 31 0 = n)
    (ha : (s.hdr (hSlot c.session)).tokenLog = a)
    (hrange : lo + n ≤ (s.hdr (hSlot c.session)).commitLen + bnat (s.hdr (hSlot c.session)).next.isSome)
    (hpages : ∀ p, (a + 4 * lo) / 65536 ≤ p → p ≤ (a + 4 * (lo + n) - 1) / 65536 →
      (s.leaf p).tier ≠ .sett ∧ (s.leaf p).poison = false) :
    Does (.readOutput id true) s fun t =>
      Out.hostWrite c.fn (c.arg 1) (packEntries ((List.range n).map fun i => s.logEntry (hSlot c.session) (lo + i))) ∈ t.out ∧
        t.hmp = s.hmp ∧ t.mem = s.mem ∧ Answers s t c 0 0 (BitVec.ofNat 64 (s.hdr (hSlot c.session)).commitLen) := by
  have hgood : ∀ p ∈ pageRun ((a + 4 * lo) / 65536) ((a + 4 * (lo + n) - 1) / 65536 + 1 - (a + 4 * lo) / 65536),
      (s.leaf p).tier ≠ .sett ∧ (s.leaf p).poison = false := fun p hp => by
    obtain ⟨j, hj, rfl⟩ := List.mem_map.1 hp
    have hj := List.mem_range.1 hj
    exact hpages _ (Nat.le_add_right _ _) (by omega)
  have hnear : ((pageRun ((a + 4 * lo) / 65536) ((a + 4 * (lo + n) - 1) / 65536 + 1 - (a + 4 * lo) / 65536)).any fun p =>
      (s.leaf p).tier = .sett && (s.leaf p).v) = false := by
    refine List.any_eq_false.2 fun p hp => ?_
    simp [(hgood p hp).1]
  have hsound : ((pageRun ((a + 4 * lo) / 65536) ((a + 4 * (lo + n) - 1) / 65536 + 1 - (a + 4 * lo) / 65536)).any fun p =>
      (s.leaf p).poison) = false := by
    refine List.any_eq_false.2 fun p hp => ?_
    simp [(hgood p hp).2]
  generalize hlist : packEntries ((List.range n).map fun i => s.logEntry (hSlot c.session) (lo + i)) = ws
  have hexec : exec (.readOutput id true) s = .next ((s.emit (.hostWrite c.fn (c.arg 1) ws)).complete c.id 0 0
      (BitVec.ofNat 64 (s.hdr (hSlot c.session)).commitLen)) := by
    show execReadOutput id true s = _
    rw [execReadOutput, h.hostCmd]
    simp only [hcode, hlo, hn, ha, hnear, hsound, hlist, Nat.not_lt.2 hrange, ne_eq, not_true_eq_false, Bool.false_eq_true, if_false]
    rfl
  have hans := (h.is_open.underway.congr (v := s.emit (.hostWrite c.fn (c.arg 1) ws)) rfl rfl (s.out_prefix_emit _)).answers
    (code := 0) (by decide) 0 (BitVec.ofNat 64 (s.hdr (hSlot c.session)).commitLen)
  exact ⟨_, hexec, (State.out_prefix_complete _ _ _ _ _).subset (List.mem_append_right _ (List.mem_singleton_self _)), by simp,
    by simp, hans⟩

end output

/-- Settles O30: each command by its own rule. -/
theorem requestCommands : Obligations.RequestCommands := by
  refine fun s id c => ⟨fun ws h hcode hidle => does_setSampler h hcode hidle ws, fun h hcode hfree => ?_, fun es h hlen =>
    ⟨fun hgood => ?_, does_submitRequest_refused h hlen⟩, fun h => ⟨fun r hr huse hfailed hcmd => does_cancel h hr huse hfailed hcmd,
    does_cancel_refused h⟩, fun h hcode => ⟨does_readOutput_refused h hcode rfl, does_readOutput h hcode rfl rfl rfl⟩⟩
  · obtain ⟨t, ht, hadapter, hother, hans⟩ := does_bindAdapter h hcode hfree
    obtain ⟨hen, hentry, hpin, hver⟩ := boundWord_reads (c.arg 0) ((s.hdr (hSlot c.session)).adapter.getD 0 0) (hi := 17) (by decide)
    obtain ⟨hen', hentry', hpin', hver'⟩ := boundWord_reads (c.arg 1) ((s.hdr (hSlot c.session)).adapter.getD 2 0) (hi := 5) (by decide)
    refine ⟨t, ht, ?_⟩
    dsimp only
    rw [hadapter]
    exact ⟨hen, hentry, hpin, hver, hen', hentry', hpin', hver', hother, hans⟩
  · obtain ⟨t, ht, hposted, hbegan, hreqs, hhmp⟩ := does_submitRequest h hlen hgood
    exact ⟨t, ht, ⟨_, hposted, rfl, rfl, rfl, rfl, rfl, rfl, rfl⟩, hbegan, hreqs, hhmp⟩

end Sys2Proof.Machine
end

section
/-! ### A request that ends while the grammar directory stands on the session directory (R351, R352, R458) -/

namespace Sys2Proof.Machine

open Sys2Proof

/-- A CANCEL for session 1. -/
def cancelItem : Item := { w0 := 1, w2 := fld 31 28 2 }

/-- Hamper 0 is ACTIVE, has an open request outside any step and uses grammar 1. The session directory and the grammar directory
both begin at 65,536, so that grammar 1's entry is the second half of slot 0's entry and its REFS the top of LAST_NS. -/
def overlaidDirectory : State :=
  { State.reset with
    plat.rails := true
    plat.stage := 7
    tsm.leaf := [(1, { v := true })]
    regs := [(Reg.txtGrammar, fld 35 0 1)]
    comp.map := { modules := 1, peers := [0] }
    hmp.dirBase := 65536
    hmp.dir := [(0, { gen := 1, state := .active, kind := .home, lastNs := 5 })]
    hmp.hdr := [(0, { handle := 1, grammar := [fld 63 63 1 ||| fld 59 48 1] })]
    fw.reqs := [(0, {})] }

/-- LAST_NS of hamper 0 after a command. -/
def lastNsAfter (c : Instr) (s : State) : Option Nat :=
  match exec c s with
  | .next t => some (t.dir 0).lastNs
  | _ => none

/-- The request ends and closes its grammar, whose entry is written back over LAST_NS. -/
theorem lastNsAfter_overlaidDirectory : lastNsAfter (.requestCancel cancelItem) overlaidDirectory = some 0 := by
  decide +kernel

/-- Refutes O29: a CANCEL outside a step changes the session directory when the entry of the request's grammar lies in it. -/
theorem not_requestsOpen : ¬ Obligations.RequestsOpen := by
  intro h
  obtain ⟨-, -, hcancel⟩ := h overlaidDirectory cancelItem (by decide +kernel)
  obtain ⟨-, hends⟩ := hcancel 0 {} rfl (by decide +kernel) (by decide +kernel) (by decide +kernel)
  obtain ⟨t, ht, -, -, -, hdir, -⟩ := hends rfl rfl
  have hzero := lastNsAfter_overlaidDirectory
  rw [lastNsAfter, ht] at hzero
  have hfive : (t.dir 0).lastNs = 5 := by
    rw [State.dir_congr hdir]
    decide +kernel
  exact absurd ((Option.some.inj hzero).symm.trans hfive) (by decide)

end Sys2Proof.Machine
end

section
/-! ### A ration read after its meter counts, with a MODEL outside the register file (R144, R156, R379) -/

namespace Sys2Proof.Machine

open Sys2Proof

/-- RATION_ADD of 1 for customer 0. -/
def addOne : HostCmd := { id := 5, opcode := 0x31, args := [0, 1] }

/-- The ration table stands on page 2, which holds no entry of a decoded table: hamper 0's span table fills page 1, and the side
array after it has no bytes, since its model has no layer. That model's number lies outside the 16 model slots, where its geometry
register is the meter's counter 6, which holds one head and 2^28 − 1. -/
def strayModel : State :=
  { State.reset with
    plat.rails := true
    plat.stage := 7
    tsm.leaf := [(2, { v := true })]
    regs := [(Reg.mtrCnt 6, fld 39 36 1 ||| fld 27 0 (2 ^ 28 - 1)), (Reg.ctlRationTable, fld 35 0 2)]
    hmp.dir := [(0, { model := 524295 })]
    hmp.hdr := [(0, { spanTable := 65536, spans := 1024 })]
    host.cmds := [addOne] }

/-- The balance of customer 0 after a command. -/
def balanceAfter (c : Instr) (s : State) : Option Word :=
  match exec c s with
  | .next t => some (t.tabWord (s.rationAddr 0))
  | _ => none

/-- The count of the update gives the model a layer, so that the side array comes to fill page 2: the balance is then read from a
side record. -/
theorem balanceAfter_strayModel : balanceAfter (.rationAdd 5) strayModel = some 0 := by
  decide +kernel

theorem waits_strayModel : Waits strayModel 5 0x31 addOne := by
  unfold Waits
  decide +kernel

/-- Refutes O31: the statement takes every state, also one whose hamper names a model outside the register file; there RATION_ADD's
own count can put a side array over the ration table, and the balance does not read as added to. -/
theorem not_rationsAndAdapters : ¬ Obligations.RationsAndAdapters := by
  intro h
  obtain ⟨hadd, -⟩ := h strayModel 5 addOne
  obtain ⟨t, ht, hsum, -⟩ := hadd waits_strayModel (by decide +kernel) (by decide +kernel)
  have hread := balanceAfter_strayModel
  rw [balanceAfter, ht] at hread
  have hone : strayModel.tabWord (strayModel.rationAddr 0) + addOne.arg 1 = 1 := by decide +kernel
  exact absurd ((Option.some.inj hread).symm.trans (hsum.trans hone)) (by decide)

end Sys2Proof.Machine
end

section
/-! ### What the preparation of a step finds again (R354 to R357, R382) -/

namespace Sys2Proof.Machine

open Sys2Proof

/-- What the firmware's work between two steps looks at again: the time, the composition, the number of the step, what has been sent
and received for the next one, the step in progress, and CTL.STEP. -/
def State.stepView (s : State) :
    Nat × Comp × BitVec 32 × Option (BitVec 32 × Nat) × List SubBatch × Option StepRun × Word :=
  (s.now, s.comp, s.fw.step, s.fw.sent, s.fw.subs, s.fw.cur, s.reg Reg.ctlStep)

theorem State.stepView_of {s t : State} (hnow : t.now = s.now) (hcomp : t.comp = s.comp) (hfw : t.fw = s.fw)
    (hreg : t.reg Reg.ctlStep = s.reg Reg.ctlStep) : t.stepView = s.stepView := by
  rw [State.stepView, hnow, hcomp, hfw, hreg, State.stepView]

theorem State.stepView_iff {s : State} {f : State → State} (h : (f s).stepView = s.stepView) (b : Bool) :
    (s.iff b f).stepView = s.stepView := by
  cases b
  · rfl
  · exact h

theorem stepView_foldl {α : Type} {f : State → α → State} (h : ∀ s x, (f s x).stepView = s.stepView) (l : List α) (s : State) :
    (l.foldl f s).stepView = s.stepView := by
  induction l generalizing s with
  | nil => rfl
  | cons x l ih => exact (ih _).trans (h s x)

theorem State.stepView_bumpBy (s : State) {k : Nat} (h : Reg.ctlStep ≠ k) (n : Nat) : (s.bumpBy k n).stepView = s.stepView :=
  State.stepView_of rfl rfl rfl (State.reg_bumpBy_other _ _ _ _ h)

theorem State.stepView_bump (s : State) {k : Nat} (h : Reg.ctlStep ≠ k) : (s.bump k).stepView = s.stepView :=
  s.stepView_bumpBy h 1

theorem State.TablesOnly.stepView {s t : State} (h : s.TablesOnly t) : t.stepView = s.stepView := by
  obtain ⟨_, _, _, _, _, _, _, _, rfl⟩ := h
  rfl

/-! #### Answers, events and messages -/

theorem State.stepView_complete (s : State) (id code : Nat) (detail data : Word) :
    (s.complete id code detail data).stepView = s.stepView :=
  State.stepView_of (by simp) (by simp) (by simp) (State.reg_of_regs (by simp) _)

theorem State.stepView_reply (s : State) (a : Option Nat) (code : Nat) (detail data : Word) :
    (s.reply a code detail data).stepView = s.stepView := by
  cases a
  · rfl
  · exact s.stepView_complete _ _ _ _

theorem State.stepView_setAttn (s : State) (v : Nat) : (s.setAttn v).stepView = s.stepView :=
  State.stepView_of (by simp) (by simp) (by simp) (State.reg_of_regs (by simp) _)

theorem State.stepView_event (s : State) (code domain die unit step : Nat) (h d : Word) :
    (s.event code domain die unit step h d).stepView = s.stepView :=
  State.stepView_of (by simp) (by simp) (by simp) (State.reg_event _ _ _ _ _ _ _ _ (by decide))

theorem offTrail_ctlStep : OffTrail Reg.ctlStep := by
  unfold OffTrail
  decide

theorem State.stepView_send (s : State) (m cls : Nat) (x : Msg) : (s.send m cls x).stepView = s.stepView :=
  State.stepView_of (by simp) (by simp) (by simp) (State.reg_send offTrail_ctlStep s m cls x)

theorem State.stepView_sendAll (s : State) (cls : Nat) (x : Msg) : (s.sendAll cls x).stepView = s.stepView :=
  State.stepView_of (by simp) (by simp) (by simp) (State.reg_sendAll offTrail_ctlStep s cls x)

/-! #### Ends of requests (R349, R351) -/

theorem State.stepView_freedReq (s : State) (i : Nat) (r : ReqRec) (code : Nat) : (s.freedReq i r code).stepView = s.stepView := by
  have hcnt : Reg.ctlStep ≠ Reg.ctlCnt (if code = 0 then 1 else 2) := by split <;> decide
  have hpost (u : State) : (if r.net.isSome then u.postResponse (r.response code true) else u).stepView = u.stepView := by
    split <;> rfl
  exact (State.stepView_bump _ hcnt).trans ((hpost _).trans (s.stepView_reply _ _ _ _))

theorem State.stepView_endReq (s : State) (i : Nat) (r : ReqRec) (code : Nat) : (s.endReq i r code).stepView = s.stepView := by
  rw [State.endReq_eq]
  exact (State.tablesOnly_leftBy _ _).stepView.trans (s.stepView_freedReq _ _ _)

theorem State.stepView_closeReq (s : State) (i : Nat) : (s.closeReq i).stepView = s.stepView := by
  unfold State.closeReq
  split
  · rfl
  · split_ifs
    · rfl
    · exact s.stepView_endReq _ _ _
    · exact s.stepView_endReq _ _ _
    · exact s.stepView_endReq _ _ _
    · rfl

theorem State.stepView_failReq (s : State) (slot code : Nat) : (s.failReq slot code).stepView = s.stepView := by
  obtain ⟨_, hfail⟩ := s.failReq_keeps slot code
  rw [hfail]
  rfl

/-! #### Hampers that go to FREE (R107, R133) -/

theorem State.stepView_follow (s : State) (slot : Nat) (w : Word) (k : ChangeKind) (x : ShardShare) (a : Option Nat) (code : Nat)
    (data : Word) : (s.follow slot w k x a code data).stepView = s.stepView := by
  by_cases hp : s.peers = []
  · rw [State.follow_alone hp]
    exact s.stepView_reply _ _ _ _
  · rw [State.follow_peers hp]
    exact s.stepView_sendAll _ _

theorem State.stepView_freeOne (s : State) (slot : Nat) : (s.freeOne slot).stepView = s.stepView := by
  have hdefer (b : Bool) (u : State) : (u.iff b fun u => u.defer .pages (s.hamperPages slot) [] none).stepView = u.stepView := by
    refine State.stepView_iff ?_ _
    obtain ⟨x, hx⟩ := u.defer_keeps .pages (s.hamperPages slot) [] none
    rw [hx]
    rfl
  obtain ⟨k, hk⟩ := unshareLoop_keeps slot (List.range (s.hdr slot).spans) s
  have hunshared := hdefer (!(s.hamperPages slot).isEmpty) { s with kvs.spans := k }
  unfold State.freeOne
  dsimp only
  rw [hk]
  generalize State.iff _ _ _ = u at hunshared ⊢
  exact hunshared

theorem State.stepView_toFree (s : State) (slot : Nat) : (s.toFree slot).stepView = s.stepView := by
  unfold State.toFree
  dsimp only
  split
  · exact (State.stepView_freeOne _ _).trans (s.stepView_freeOne slot)
  · exact s.stepView_freeOne slot

theorem State.stepView_freeAll (s : State) (slot : Nat) (a : Option Nat) (code : Nat) (data : Word) :
    (s.freeAll slot a code data).stepView = s.stepView := by
  have hfree : (s.freeHamper slot).stepView = s.stepView :=
    (State.stepView_toFree ((s.closeGrammar slot).releaseText slot) slot).trans (s.tablesOnly_closeGrammar slot).stepView
  exact (State.stepView_follow _ _ _ _ _ _ _ _).trans hfree

theorem State.stepView_custodyLost (s : State) (slot : Nat) : (s.custodyLost slot).stepView = s.stepView :=
  (State.stepView_freeAll _ _ _ _ _).trans ((State.stepView_bump _ (by decide)).trans (s.stepView_failReq _ _))

theorem State.stepView_custodyCheck (s : State) (slot : Nat) : (s.custodyCheck slot).2.stepView = s.stepView := by
  have hreport : (s.reportCustody Code.custodyCorrupt (s.hdr slot).handle (s.hdr slot).origin).stepView = s.stepView :=
    (State.stepView_setAttn _ _).trans (s.stepView_event _ _ _ _ _ _ _)
  unfold State.custodyCheck
  dsimp only
  generalize s.reportCustody Code.custodyCorrupt (s.hdr slot).handle (s.hdr slot).origin = u at hreport ⊢
  split_ifs
  · rfl
  · rfl
  · rfl
  · exact s.stepView_custodyLost slot
  · split
    · split_ifs
      · exact hreport
      · exact (State.stepView_send _ _ _ _).trans hreport
    · exact hreport

/-! #### Revives (R106, R120) -/

theorem State.stepView_reviveFail (s : State) (slot : Nat) (a : Option Nat) (code : Nat) :
    (s.reviveFail slot a code).stepView = s.stepView :=
  (State.stepView_reply _ _ _ _ _).trans (State.stepView_failReq { s.endChange slot with hmp.revives := SMap.erase s.hmp.revives slot } _ _)

theorem State.stepView_reviveShare (s : State) (slot : Nat) (pages : SMap Outcome1) :
    (s.reviveShare slot pages).stepView = s.stepView := by
  obtain ⟨g, k, hfold⟩ := refreshRes_fold_keeps slot (List.range (s.hdr slot).spans) s
  unfold State.reviveShare
  dsimp only
  rw [hfold]
  split_ifs
  · split <;> rfl
  · rfl
  all_goals exact (State.stepView_send _ _ _ _).trans rfl

theorem offEviction_ctlStep : OffEviction Reg.ctlStep := by
  unfold OffEviction
  decide

theorem State.stepView_startFerry_revive (s : State) (slot : Nat) (w : Want) (ps : List Nat) :
    (s.startFerry (.revive slot) w ps).stepView = s.stepView := by
  have hclaims := reg_claimLoop s.tsm.nextReq w ps { s with tsm.nextReq := s.tsm.nextReq + 1 } offEviction_ctlStep
  obtain ⟨x, g, hloop⟩ := claimLoop_keeps s.tsm.nextReq w ps { s with tsm.nextReq := s.tsm.nextReq + 1 }
  have hview : (claimLoop s.tsm.nextReq w ps { s with tsm.nextReq := s.tsm.nextReq + 1 }).2.2.stepView = s.stepView :=
    State.stepView_of (by rw [hloop]) (by rw [hloop]) (by rw [hloop]) hclaims
  unfold State.startFerry
  dsimp only
  split
  · exact (State.stepView_reviveShare _ _ _).trans hview
  · exact hview

theorem State.stepView_reviveGo (s : State) (slot : Nat) (a : Option Nat) : (s.reviveGo slot a).stepView = s.stepView := by
  unfold State.reviveGo
  split
  · exact s.stepView_reviveFail _ _ _
  · next d _ =>
    dsimp only
    rw [State.stepView_startFerry_revive]
    obtain ⟨k, hwant⟩ := State.wantDropped_keeps _ slot
    rw [hwant]
    exact State.stepView_sendAll _ _ _

theorem State.stepView_startRevive (s : State) (slot : Nat) (a : Option Nat) : (s.startRevive slot a).stepView = s.stepView := by
  have hcheck := s.stepView_custodyCheck slot
  unfold State.startRevive
  dsimp only
  split_ifs
  · exact (State.stepView_reviveFail _ _ _ _).trans hcheck
  · exact hcheck
  · exact (State.stepView_reviveGo _ _ _).trans hcheck

/-! #### The work on open requests at a step boundary (R351, R372, R378, R410) -/

theorem State.stepView_setReq (s : State) (i : Nat) (r : ReqRec) : (s.setReq i r).stepView = s.stepView := rfl

theorem State.stepView_startReq (s : State) (i : Nat) (r : ReqRec) : (s.startReq i r).stepView = s.stepView := by
  unfold State.startReq
  dsimp only
  split
  · exact State.stepView_bump _ (by decide)
  · rfl

theorem State.stepView_settleReq (s : State) (i : Nat) : (s.settleReq i).stepView = s.stepView := by
  unfold State.settleReq
  split
  · rfl
  · split
    · rfl
    · split
      · exact s.stepView_startReq _ _
      · split
        · rfl
        · exact State.stepView_startRevive _ _ _
      · rfl

theorem State.stepView_rationReq (s : State) (i : Nat) : (s.rationReq i).stepView = s.stepView := by
  unfold State.rationReq
  split
  · rfl
  · dsimp only
    split_ifs
    · exact State.stepView_bump _ (by decide)
    all_goals rfl

theorem State.stepView_unitReq (s : State) (i : Nat) : (s.unitReq i).stepView = s.stepView := by
  unfold State.unitReq
  split
  · rfl
  · dsimp only
    split <;> rfl

theorem State.stepView_monitor (s : State) (i : Nat) : (s.monitor i).stepView = s.stepView := by
  unfold State.monitor
  split
  · rfl
  · dsimp only
    split_ifs
    · rfl
    · rfl
    · rfl
    · rfl
    · exact State.stepView_bump _ (by decide)
    · exact State.stepView_bump _ (by decide)

theorem State.stepView_prepReq (away : List (Nat × Nat)) (s : State) (i : Nat) : (State.prepReq away s i).stepView = s.stepView := by
  unfold State.prepReq
  split
  · rfl
  · split_ifs
    · rfl
    · exact stepView_foldl (f := fun s n => s.wantSpan true _ n) (fun _ _ => rfl) _ _
    · split
      · rfl
      · next u hu =>
        have hbound : u.stepView = s.stepView := by
          unfold State.bindAdapters at hu
          dsimp only at hu
          split at hu <;> cases hu
          rfl
        dsimp only
        split
        · exact hbound
        · exact hbound

theorem State.stepView_eachReq {f : State → Nat → State} (h : ∀ s i, (f s i).stepView = s.stepView) (s : State) :
    (s.eachReq f).stepView = s.stepView := stepView_foldl h _ _

theorem State.stepView_boundaryWork (s : State) (away : List (Nat × Nat)) : (s.boundaryWork away).stepView = s.stepView := by
  unfold State.boundaryWork
  rw [State.stepView_eachReq State.stepView_closeReq, State.stepView_eachReq (State.stepView_prepReq away),
    State.stepView_eachReq State.stepView_monitor, State.stepView_eachReq State.stepView_closeReq,
    State.stepView_eachReq State.stepView_rationReq, State.stepView_eachReq State.stepView_settleReq,
    State.stepView_eachReq State.stepView_unitReq]

end Sys2Proof.Machine
end

section
/-! ### The sub-batch of a step boundary (R354, R355, R358) -/

namespace Sys2Proof.Machine

open Sys2Proof

/-! #### The span request before a ring prefill (R211) -/

theorem offEntries_ctlStep : OffEntries Reg.ctlStep := by
  unfold OffEntries
  decide

theorem State.stepView_hwPush (s : State) (q : Nat) (w : WaitPush) (b : Bool) : (s.hwPush q w b).stepView = s.stepView := by
  have hcredits (u : State) : (match w.port with | some p => u.giveCredits p 0 2 | none => u).reg Reg.ctlStep = u.reg Reg.ctlStep := by
    split
    · exact State.reg_of_regs (by simp) _
    · rfl
  refine State.stepView_of (by simp) (by simp) (by simp) ?_
  unfold State.hwPush
  dsimp only
  split
  · split
    · exact (State.reg_raise_offEntries _ offEntries_ctlStep _).trans (hcredits s)
    · exact hcredits s
  · split
    · exact (State.reg_pushed _ offEntries_ctlStep _).trans (State.reg_enter_offEntries _ offEntries_ctlStep _ _)
    · exact State.reg_bump_other _ _ _ (by decide)

theorem State.stepView_askSpan (s : State) (it : Item) : (s.askSpan it .none).stepView = s.stepView := by
  unfold State.askSpan
  dsimp only
  split
  · rfl
  · exact State.stepView_hwPush _ _ _ _

theorem State.stepView_include (s : State) (x : Nat × BatchEntry) : (s.include_ x).stepView = s.stepView := by
  unfold State.include_
  split
  · rfl
  · next r _ =>
    refine (State.stepView_iff ?_ _).trans (s.stepView_setReq x.1 { r with inStep := true })
    exact (State.stepView_askSpan _ _).trans (State.stepView_sendAll _ _ _)

/-! #### The budget -/

theorem sumNat_cons (a : Nat) (l : List Nat) : sumNat (a :: l) = a + sumNat l := by
  have hfold (l : List Nat) (k : Nat) : l.foldl (· + ·) k = k + l.foldl (· + ·) 0 := by
    induction l generalizing k with
    | nil => rfl
    | cons x l ih => rw [List.foldl_cons, ih, List.foldl_cons, ih (0 + x)]; omega
  rw [sumNat, List.foldl_cons, hfold, Nat.zero_add, sumNat]

theorem State.assembleLoop_le (s : State) (xs : List (Nat × ReqRec)) (budget : Nat) :
    sumNat ((s.assembleLoop xs budget).map fun x => x.2.qn) ≤ budget := by
  induction xs generalizing budget with
  | nil => exact Nat.zero_le _
  | cons x xs ih =>
    unfold State.assembleLoop
    dsimp only
    split
    · exact ih budget
    · have hrest := ih (budget - (s.entryOf x.2).qn)
      rw [List.map_cons, sumNat_cons]
      dsimp only
      omega

/-- A sub-batch is a ring prefill alone, or its positions stay within the budget (R355, R358). -/
theorem State.assemble_le (s : State) : s.assemble.length = 1 ∨
    sumNat (s.assemble.map fun x => x.2.qn) ≤ s.field Reg.ctlStep 47 32 := by
  unfold State.assemble
  split
  · exact .inr (Nat.zero_le _)
  · split
    · exact .inl rfl
    · exact .inr (s.assembleLoop_le _ _)

/-! #### STEP_BOUNDARY -/

theorem State.stepView_parts {s t : State} (h : t.stepView = s.stepView) : t.now = s.now ∧ t.comp = s.comp ∧
    t.fw.step = s.fw.step ∧ t.fw.sent = s.fw.sent ∧ t.fw.subs = s.fw.subs ∧ t.fw.cur = s.fw.cur ∧
    t.reg Reg.ctlStep = s.reg Reg.ctlStep := by
  simpa only [State.stepView, Prod.mk.injEq] using h

/-- The sub-batch is assembled at a state u, and sent on the way to a state v. -/
theorem exec_stepBoundary {s : State} (hl : s.live = true) (hb : s.atBoundary = true) :
    ∃ u v : State, u.stepView = s.stepView ∧ v.stepView = s.stepView ∧ exec (.stepBoundary [] []) s = .next { v with
      fw.sent := some (u.fw.step + 1, v.now)
      fw.subs := v.fw.subs ++ [SubBatch.mk (u.fw.step + 1) v.self (u.assemble.map (·.2)) true] } := by
  have hwork := s.stepView_boundaryWork []
  generalize hu : s.boundaryWork [] = u at hwork
  have hinclude := (stepView_foldl State.stepView_include u.assemble u).trans hwork
  generalize hv : u.assemble.foldl State.include_ u = v at hinclude
  let out := u.assemble.filter fun x => !v.partLocal (v.dir (hSlot x.2.session)).model
  let items := subItems (u.fw.step + 1) (out.map (·.2))
  have hitems := (stepView_foldl (f := fun s m => s.sendAll 7 m) (fun s m => s.stepView_sendAll 7 m) items v).trans hinclude
  have hparams := (stepView_foldl (f := fun s x => s.sendAll 7 (s.paramsOf (u.fw.step + 1) x.1))
    (fun s x => s.stepView_sendAll 7 _) out _).trans hitems
  refine ⟨u, _, hwork, hparams, ?_⟩
  show execStepBoundary [] [] s = _
  rw [execStepBoundary, gate_live hl]
  simp only [hb, Bool.not_true, Bool.false_eq_true, if_false, State.seeOrigins, List.foldl_nil, hu, hv]
  rfl

theorem does_stepBoundary {s : State} (hl : s.live = true) (hb : s.atBoundary = true) : Does (.stepBoundary [] []) s fun t =>
    t.fw.sent = some (s.fw.step + 1, s.now) ∧ t.fw.step = s.fw.step ∧ t.fw.cur = none ∧
      ∃ b ∈ t.fw.subs, b.step = s.fw.step + 1 ∧ b.module = s.self ∧ b.whole = true ∧
        (b.entries.length = 1 ∨ sumNat (b.entries.map (·.qn)) ≤ s.field Reg.ctlStep 47 32) := by
  obtain ⟨u, v, hu, hv, hexec⟩ := exec_stepBoundary hl hb
  obtain ⟨-, -, hstep, -, -, -, hreg⟩ := State.stepView_parts hu
  obtain ⟨hnow, hcomp, hstep', -, -, hcur, -⟩ := State.stepView_parts hv
  have hidle : s.fw.cur = none := by
    simp only [State.atBoundary, Bool.and_eq_true, Option.isNone_iff_eq_none] at hb
    exact hb.1.1.1.1
  have hfit := u.assemble_le
  rw [State.field, hreg] at hfit
  refine ⟨_, hexec, by rw [← hstep, ← hnow], hstep', hcur.trans hidle, _, List.mem_append_right _ (List.mem_singleton_self _),
    by rw [← hstep], ?_, rfl, ?_⟩
  · show v.self = s.self
    rw [State.self, hcomp, State.self]
  · dsimp only
    rw [List.length_map, List.map_map]
    exact hfit

/-! #### Sub-batches and parameters of other modules (R354, R355, R763) -/

theorem does_subBatch {s : State} (hl : s.live = true) {n : BitVec 32} {m : Nat} (hnew : newer s.fw.step n = true)
    (hother : m ≠ s.self) (hpart : m ∈ s.parts) (hfirst : ∀ b ∈ s.fw.subs, b.step ≠ n ∨ b.module ≠ m) (es : List BatchEntry)
    (last : Bool) :
    Does (.subBatch n m es last) s fun t => t = { s with fw.subs := s.fw.subs ++ [SubBatch.mk n m es last] } := by
  have hnone : (s.fw.subs.find? fun b => b.step = n && b.module = m) = none :=
    List.find?_eq_none.2 fun b hb => by simpa [imp_iff_not_or] using hfirst b hb
  refine ⟨_, ?_, rfl⟩
  show execSubBatch n m es last s = _
  rw [execSubBatch, gate_live hl]
  simp [hnew, hother, hpart, hnone]

theorem does_sessionParameters {s : State} (hl : s.live = true) {n : BitVec 32} {p : StepParams} (hnew : newer s.fw.step n = true)
    (hfirst : (n, p) ∉ s.fw.params) :
    Does (.sessionParameters n p) s fun t => t = { s with fw.params := s.fw.params ++ [(n, p)] } := by
  refine ⟨_, ?_, rfl⟩
  show execSessionParameters n p s = _
  rw [execSessionParameters, gate_live hl]
  simp [hnew, hfirst]

/-! #### A list that does not come in time (R357) -/

theorem does_listTimeout {s : State} (hl : s.live = true) {n : BitVec 32} {t0 : Nat} (hsent : s.fw.sent = some (n, t0))
    (hdue : t0 + usec (s.field Reg.ctlStep 63 48) ≤ s.now) (hmissing : s.batchReady n = false) (hfirst : s.fw.stalled = false) :
    Does .listTimeout s fun t => t.fw.stalled = true ∧ t.fw.sent = s.fw.sent ∧ t.fw.cur = s.fw.cur ∧
      (t.fn 0).attn.getLsbD 3 = true ∧ (t.fn 1).attn.getLsbD 3 = true := by
  let u : State := { s with fw.stalled := true, flt.stallSince := some (s.flt.stallSince.getD s.now) }
  have hexec : exec .listTimeout s = .next (u.setAttn 3) := by
    show execListTimeout s = _
    rw [execListTimeout, gate_live hl]
    dsimp only
    split
    · next e => exact absurd (hsent.symm.trans e) (by simp)
    · next e =>
      cases hsent.symm.trans e
      rw [if_neg (by simp [hmissing, hdue]), hfirst]
      rfl
  have hfw : (u.setAttn 3).fw = u.fw := by simp
  obtain ⟨h0, h1⟩ := u.attn_setAttn 3
  refine ⟨_, hexec, ?_⟩
  dsimp only
  rw [hfw, h0, h1]
  refine ⟨rfl, rfl, rfl, ?_, ?_⟩ <;> rw [BitVec.getLsbD_or] <;> exact Bool.or_true _

end Sys2Proof.Machine
end

section
/-! ### Steps begin (R354, R356, R357, R364, R365, R763) -/

namespace Sys2Proof.Machine

open Sys2Proof

/-! #### The order of a batch (R356) -/

theorem entryBefore_total (a b : BatchEntry) : entryBefore a b = true ∨ entryBefore b a = true := by
  simp only [entryBefore, Bool.or_eq_true, Bool.and_eq_true, decide_eq_true_eq]
  omega

theorem entryBefore_trans {a b c : BatchEntry} (hab : entryBefore a b = true) (hbc : entryBefore b c = true) :
    entryBefore a c = true := by
  simp only [entryBefore, Bool.or_eq_true, Bool.and_eq_true, decide_eq_true_eq] at hab hbc ⊢
  omega

theorem insertEntry_eq (x : BatchEntry) (l : List BatchEntry) :
    insertEntry x l = l.orderedInsert (fun a b => entryBefore a b = true) x := by
  induction l with
  | nil => rfl
  | cons y l ih => rw [insertEntry, List.orderedInsert_cons, ih]

theorem mergeBatch_eq (l : List BatchEntry) : mergeBatch l = l.insertionSort (fun a b => entryBefore a b = true) := by
  induction l with
  | nil => rfl
  | cons x l ih => rw [List.insertionSort_cons, ← ih, ← insertEntry_eq]; rfl

theorem mem_mergeBatch {e : BatchEntry} {l : List BatchEntry} : e ∈ mergeBatch l ↔ e ∈ l := by
  rw [mergeBatch_eq]
  exact (List.perm_insertionSort _ l).mem_iff

theorem mergeBatch_pairwise (l : List BatchEntry) : (mergeBatch l).Pairwise fun a b => entryBefore a b = true := by
  have : Std.Total fun a b => entryBefore a b = true := ⟨entryBefore_total⟩
  have : IsTrans BatchEntry fun a b => entryBefore a b = true := ⟨fun _ _ _ => entryBefore_trans⟩
  rw [mergeBatch_eq]
  exact List.pairwise_insertionSort _ l

/-! #### Entries begin (R360, R364, R365) -/

theorem State.stepView_install {s u : State} {slot model maxTokens tclass customer vocab : Nat} {kind : HKind} {st : HState}
    {w o : Word} (h : s.install slot model maxTokens tclass customer vocab kind st w o = some u) : u.stepView = s.stepView := by
  unfold State.install at h
  dsimp only at h
  split at h
  · cases h
  · next b v hv =>
    obtain ⟨y, hy, hyv⟩ := Option.map_eq_some_iff.1 hv
    obtain ⟨x, m, rfl⟩ := mapRun_keeps hy
    cases hyv
    cases h
    rfl

theorem State.stepView_openCompanion (s : State) (slot : Nat) : (s.openCompanion slot).stepView = s.stepView := by
  unfold State.openCompanion
  split
  · dsimp only
    split
    · rfl
    · next u hu =>
      have hview := State.stepView_install hu
      exact hview
  · rfl

theorem State.stepView_onCompanion (s : State) (slot : Nat) (f : Header → Header) :
    (s.onCompanion slot f).stepView = s.stepView := by
  unfold State.onCompanion
  split <;> rfl

theorem State.stepView_draftPasses (s : State) (slot pos k : Nat) : (s.draftPasses slot pos k).stepView = s.stepView := by
  unfold State.draftPasses
  dsimp only
  rw [State.stepView_onCompanion]
  split
  · rfl
  · rw [State.stepView_onCompanion, State.stepView_openCompanion]

theorem stepView_putEntries (slot p : Nat) (es : List (BitVec 32)) (s : State) : (putEntries slot p es s).stepView = s.stepView := by
  induction es generalizing p s with
  | nil => rfl
  | cons e es ih => exact ih _ _

theorem State.stepView_beginEntry (n : BitVec 32) (drafts : List (Word × List Nat)) (s : State) (e : BatchEntry) :
    (s.beginEntry n drafts e).stepView = s.stepView := by
  unfold State.beginEntry
  dsimp only
  split
  · rfl
  · split
    · rfl
    · split
      · rfl
      · rw [State.stepView_setReq, State.stepView_bumpBy _ (by decide), stepView_putEntries,
          State.stepView_iff (State.stepView_draftPasses _ _ _ _)]
        rfl

/-! #### The step runs, or ends at once where this module has no part in it -/

/-- The step's record as it begins: the entries homed here are open. -/
def StepRun.begun (r : StepRun) (self : Nat) (plans : List AttnPlan) (shards : List Word) : StepRun :=
  { r with
    plans := plans, open_ := (r.batch.filter fun e => hModule e.session = self).map (·.session), shards := shards, reports := []
    logits := [], acks := [], aborted := false }

theorem State.runStep_begun (s : State) (r : StepRun) (drafts : List (Word × List Nat)) : ∃ (u : State) (b : List Nat)
    (plans : List AttnPlan) (shards : List Word), u.stepView = s.stepView ∧
      s.runStep r drafts = { u with fw.step := r.n, hmp.batch := b, fw.cur := some (r.begun s.self plans shards) } := by
  have hview := stepView_foldl (f := fun s e => s.beginEntry r.n drafts e) (State.stepView_beginEntry r.n drafts) r.batch s
  unfold State.runStep
  generalize r.batch.foldl (fun s e => s.beginEntry r.n drafts e) s = u at hview ⊢
  have hself : u.self = s.self := by
    obtain ⟨-, hcomp, -⟩ := State.stepView_parts hview
    rw [State.self, hcomp, State.self]
  refine ⟨u, r.batch.map fun e => hSlot e.session, r.batch.map (u.planOf r.n),
    (r.batch.filter fun e => hModule e.session ≠ u.self && u.handleCode e.session = 0).map (·.session), hview, ?_⟩
  rw [← hself]
  rfl

theorem State.stepView_sendOutput (s : State) (i : Nat) (r : ReqRec) : (s.sendOutput i r).stepView = s.stepView := by
  unfold State.sendOutput
  dsimp only
  split <;> rfl

theorem State.stepView_leaveStep (s : State) (i : Nat) : (s.leaveStep i).stepView = s.stepView := by
  unfold State.leaveStep
  split
  · rfl
  · dsimp only
    split_ifs
    · rfl
    · exact State.stepView_closeReq _ _
    · exact State.stepView_sendOutput _ _ _

theorem State.stepView_parked (s : State) (slot : Nat) : (s.parked slot).stepView = s.stepView := by
  have hbump (u : State) : (u.bump (Reg.hmpCnt 0)).stepView = u.stepView := u.stepView_bump (by decide)
  have htick (u : State) (k : Nat) : (u.startTick k).stepView = u.stepView := rfl
  exact (htick _ _).trans (hbump _)

theorem State.stepView_parkNow (s : State) (slot : Nat) (a : Option Nat) : (s.parkNow slot a).stepView = s.stepView := by
  rw [State.parkNow_eq, State.stepView_follow]
  exact s.stepView_parked slot

theorem State.stepView_doParks (s : State) : s.doParks.stepView = s.stepView := by
  refine stepView_foldl (f := fun s x => if (s.dir x.1).state = .active then s.parkNow x.1 x.2 else s.reply x.2 0 0 0)
    (fun s x => ?_) s.hmp.parks { s with hmp.parks := [] }
  split
  · exact s.stepView_parkNow _ _
  · exact s.stepView_reply _ _ _ _

theorem State.stepView_smoothEst (ns : Nat) (s : State) (m : Nat) : (s.smoothEst ns m).stepView = s.stepView := by
  refine State.stepView_of rfl rfl rfl (State.reg_setReg_other _ _ _ _ ?_)
  unfold Reg.ctlStep Reg.ctlStepEst
  omega

theorem State.stepEnd_counted (r : StepRun) {s v : State} (hview : v.stepView = s.stepView) :
    let t := (State.eachReq { v with
      fw.cur := none, hmp.batch := [], fw.params := v.fw.params.filter fun p => p.1 ≠ r.n } State.leaveStep).doParks
    t.fw.step = s.fw.step ∧ t.fw.sent = s.fw.sent ∧ t.fw.subs = s.fw.subs := by
  obtain ⟨-, -, hstep, hsent, hsubs, -, -⟩ := State.stepView_parts hview
  obtain ⟨-, -, hstep', hsent', hsubs', -, -⟩ := State.stepView_parts
    ((State.stepView_doParks _).trans (State.stepView_eachReq State.stepView_leaveStep { v with
      fw.cur := none, hmp.batch := [], fw.params := v.fw.params.filter fun p => p.1 ≠ r.n }))
  exact ⟨hstep'.trans hstep, hsent'.trans hsent, hsubs'.trans hsubs⟩

/-- The end of a step leaves its number and what the next one waits for. -/
theorem State.stepEnd_keeps (s : State) (r : StepRun) : (s.stepEnd r).fw.step = s.fw.step ∧ (s.stepEnd r).fw.sent = s.fw.sent ∧
    (s.stepEnd r).fw.subs = s.fw.subs := by
  have hsmooth := stepView_foldl (f := fun u m => u.smoothEst (u.now - r.sentNs) m) (fun u => u.stepView_smoothEst _)
    (s.batchModels r.batch) s
  have hcount (u : State) : (u.iff (!r.batch.isEmpty) fun u => u.bump (Reg.ctlCnt 3)).stepView = u.stepView :=
    State.stepView_iff (u.stepView_bump (by decide)) _
  exact State.stepEnd_counted r ((hcount _).trans hsmooth)

theorem State.stepProgress_keeps (s : State) (r : StepRun) : (s.stepProgress r).fw.step = s.fw.step ∧
    (s.stepProgress r).fw.sent = s.fw.sent ∧ (s.stepProgress r).fw.subs = s.fw.subs := by
  unfold State.stepProgress
  split
  · exact s.stepEnd_keeps r
  · exact ⟨rfl, rfl, rfl⟩

theorem State.stepProgress_of_open (s : State) {r : StepRun} {h : Word} (hopen : h ∈ r.open_) :
    s.stepProgress r = { s with fw.cur := some r } := by
  have hne : r.open_.isEmpty = false := by
    rw [List.isEmpty_eq_false_iff]
    exact List.ne_nil_of_mem hopen
  rw [State.stepProgress, hne]
  rfl

theorem StepRun.mem_open_begun {r : StepRun} {self : Nat} {plans : List AttnPlan} {shards : List Word} {h : Word} :
    h ∈ (r.begun self plans shards).open_ ↔ hModule h = self ∧ ∃ e ∈ r.batch, e.session = h := by
  show h ∈ (r.batch.filter fun e => hModule e.session = self).map (·.session) ↔ _
  simp only [List.mem_map, List.mem_filter, decide_eq_true_eq]
  constructor
  · rintro ⟨e, ⟨he, hself⟩, rfl⟩
    exact ⟨hself, e, he, rfl⟩
  · rintro ⟨hself, e, he, rfl⟩
    exact ⟨e, ⟨he, hself⟩, rfl⟩

/-- The batch of step n: the entries of every sub-batch for it, in the order of R356. -/
def State.batchOf (s : State) (n : BitVec 32) : List BatchEntry :=
  mergeBatch ((s.fw.subs.filter fun b => b.step = n).flatMap (·.entries))

theorem State.mem_batchOf {s : State} {n : BitVec 32} {e : BatchEntry} :
    e ∈ s.batchOf n ↔ ∃ b ∈ s.fw.subs, b.step = n ∧ e ∈ b.entries := by
  simp only [State.batchOf, mem_mergeBatch, List.mem_flatMap, List.mem_filter, decide_eq_true_eq, and_assoc]

theorem exec_stepBegin {s : State} (hl : s.live = true) {n : BitVec 32} {t0 : Nat} (hsent : s.fw.sent = some (n, t0))
    (hidle : s.fw.cur = none) (hready : s.batchReady n = true) (drafts : List (Word × List Nat)) :
    ∃ (v : State) (plans : List AttnPlan) (shards : List Word), v.fw.step = n ∧ v.fw.sent = none ∧
      v.fw.subs = (s.fw.subs.filter fun b => b.step ≠ n) ∧ exec (.stepBegin drafts) s =
        .next (v.stepProgress (StepRun.begun { n := n, batch := s.batchOf n, sentNs := t0 } s.self plans shards)) := by
  obtain ⟨u, b, plans, shards, hview, hrun⟩ := State.runStep_begun
    { s with fw.sent := none, fw.subs := s.fw.subs.filter fun b => b.step ≠ n, fw.stalled := false }
    { n := n, batch := s.batchOf n, sentNs := t0 } drafts
  obtain ⟨-, -, -, hsent', hsubs, -, -⟩ := State.stepView_parts hview
  refine ⟨{ u with fw.step := n, hmp.batch := b, fw.cur := some (StepRun.begun { n := n, batch := s.batchOf n, sentNs := t0 }
    s.self plans shards) }, plans, shards, rfl, hsent', hsubs, ?_⟩
  show execStepBegin drafts s = _
  rw [execStepBegin, gate_live hl]
  dsimp only
  split
  · next e => exact absurd (hsent.symm.trans e) (by simp)
  · next e =>
    cases hsent.symm.trans e
    rw [if_neg (by simp [hidle, hready])]
    unfold State.batchOf at hrun
    rw [hrun]
    rfl

theorem does_stepBegin {s : State} (hl : s.live = true) {n : BitVec 32} {t0 : Nat} (hsent : s.fw.sent = some (n, t0))
    (hidle : s.fw.cur = none) (hready : s.batchReady n = true) (drafts : List (Word × List Nat)) :
    Does (.stepBegin drafts) s fun t => t.fw.step = n ∧ t.fw.sent = none ∧ (∀ b ∈ t.fw.subs, b.step ≠ n) ∧
      ((∃ b ∈ s.fw.subs, b.step = n ∧ ∃ e ∈ b.entries, hModule e.session = s.self) →
        ∃ r, t.fw.cur = some r ∧ r.n = n ∧ r.reports = [] ∧ r.aborted = false ∧
          (∀ e, e ∈ r.batch ↔ ∃ b ∈ s.fw.subs, b.step = n ∧ e ∈ b.entries) ∧
          r.batch.Pairwise (fun a b => entryBefore a b = true) ∧
          (∀ h, h ∈ r.open_ ↔ hModule h = s.self ∧ ∃ e ∈ r.batch, e.session = h)) := by
  obtain ⟨v, plans, shards, hn, hnone, hsubs, hexec⟩ := exec_stepBegin hl hsent hidle hready drafts
  generalize hr : StepRun.begun { n := n, batch := s.batchOf n, sentNs := t0 } s.self plans shards = r at hexec
  obtain ⟨hstep, hsent', hsubs'⟩ := v.stepProgress_keeps r
  refine ⟨_, hexec, hstep.trans hn, hsent'.trans hnone, ?_, ?_⟩
  · intro b hb
    rw [hsubs', hsubs, List.mem_filter] at hb
    exact of_decide_eq_true hb.2
  · rintro ⟨b, hb, hbn, e, he, hlocal⟩
    have hopen : e.session ∈ r.open_ := hr ▸ StepRun.mem_open_begun.2 ⟨hlocal, e, State.mem_batchOf.2 ⟨b, hb, hbn, he⟩, rfl⟩
    rw [v.stepProgress_of_open hopen]
    subst hr
    exact ⟨_, rfl, rfl, rfl, rfl, fun e => State.mem_batchOf, mergeBatch_pairwise _, fun h => StepRun.mem_open_begun⟩

/-- Settles O32: a boundary, a list that comes, a list that is late, and the step that begins once all lists are here. -/
theorem stepsBegin : Obligations.StepsBegin := by
  refine fun s hl => ⟨does_stepBoundary hl, ?_, ?_, ?_, ?_⟩
  · exact fun n m es last hnew hother hpart hfirst => does_subBatch hl hnew hother hpart hfirst es last
  · exact fun n p => does_sessionParameters hl
  · exact fun n t0 drafts hsent hidle hready => does_stepBegin hl hsent hidle hready drafts
  · exact fun n t0 => does_listTimeout hl

end Sys2Proof.Machine
end

section
/-! ### The power governor, the sensors and parking (R395, R603, R730, R731, R737, R739, R743, R745 to R748) -/

namespace Sys2Proof.Machine

open Sys2Proof

/-! #### What the governor reads -/

/-- The governor's registers and targets decide the cap, the targets of the dies, and the orders in which they step. -/
theorem State.governor_congr {s t : State} (hgov : t.reg Reg.pltGov = s.reg Reg.pltGov)
    (hrole : t.reg Reg.ctlDieRole = s.reg Reg.ctlDieRole) (hpower : t.plat.powerTarget = s.plat.powerTarget)
    (htherm : t.plat.thermTarget = s.plat.thermTarget) :
    t.capW = s.capW ∧ t.dvfsTarget = s.dvfsTarget ∧ t.dieService = s.dieService ∧ t.downOrder = s.downOrder := by
  have hdie : t.dieRole = s.dieRole := by
    funext d
    rw [State.dieRole, State.dieRole, State.field, State.field, hrole]
  refine ⟨?_, ?_, ?_, ?_⟩
  · rw [State.capW, State.capW, State.field, State.field, hgov]
  · funext d
    rw [State.dvfsTarget, State.dvfsTarget, hpower, htherm]
  · funext d
    rw [State.dieService, State.dieService, hrole]
  · rw [State.downOrder, State.downOrder, hdie]

section governor

variable {s : State}

theorem not_bnot_governs (hg : s.governs = true) : ¬ (!s.governs) = true := by simp [hg]

theorem State.rails_of_governs (hg : s.governs = true) : s.plat.rails = true := by
  simp only [State.governs, State.live, Bool.and_eq_true] at hg
  obtain ⟨⟨⟨⟨hrails, -⟩, -⟩, -⟩, -⟩ := hg
  exact hrails

/-! #### Steps of a die -/

/-- A die above its lowest step goes one step down. -/
theorem State.dvfsTarget_thermDown {d : Nat} (h : 0 < s.dvfsTarget d) :
    (s.thermDown d).dvfsTarget d = s.dvfsTarget d - 1 := by
  have hle : s.dvfsTarget d ≤ SMap.get 3 s.plat.powerTarget d := Nat.min_le_left _ _
  rw [State.thermDown, if_neg (Nat.ne_of_gt h), State.dvfsTarget]
  simp only [State.setAttn_frame, State.bump_plat, SMap.get_put_same]
  omega

/-! #### GOV_POWER_SAMPLE -/

/-- The state once a power sample is recorded, before any die steps (R731, R737). -/
def State.powerNoted (s : State) (w : Nat) : State :=
  let s := s.setReg (Reg.pltSensor 2) (fld 31 0 w)
  let late := s.plat.overCap + bnat (s.capW < w)
  let low := w + s.field Reg.pltGov 43 32 < s.capW
  { s with
    plat.lastPower := w
    plat.overCap := late
    plat.belowSince := if low then some (s.plat.belowSince.getD s.now) else none }.setReg (Reg.pltCnt 4)
      (BitVec.ofNat 64 (late / 10))

/-- A die steps down for power: its target, the time of the step, its count and the attention (R731, R737). -/
def State.powerDown (s : State) (d : Nat) : State :=
  ({ s with
      plat.powerTarget := SMap.put s.plat.powerTarget d (s.dvfsTarget d - 1)
      plat.lastPowerDown := some s.now }.bump (Reg.pltCnt 0)).setAttn 5

theorem State.powerDown_target (s : State) (d : Nat) :
    (s.powerDown d).dvfsTarget d = s.dvfsTarget d - 1 ∧ (s.powerDown d).plat.lastPowerDown = some s.now := by
  have hle : s.dvfsTarget d ≤ SMap.get 3 s.plat.thermTarget d := Nat.min_le_right _ _
  refine ⟨?_, by simp [State.powerDown]⟩
  rw [State.dvfsTarget]
  simp only [State.powerDown, State.setAttn_frame, State.bump_plat, SMap.get_put_same]
  omega

theorem State.powerNoted_governor (s : State) (w : Nat) : (s.powerNoted w).capW = s.capW ∧
    (s.powerNoted w).dvfsTarget = s.dvfsTarget ∧ (s.powerNoted w).dieService = s.dieService ∧
    (s.powerNoted w).downOrder = s.downOrder := by
  have hreg (k : Nat) (h2 : k ≠ Reg.pltSensor 2) (h4 : k ≠ Reg.pltCnt 4) : (s.powerNoted w).reg k = s.reg k :=
    (State.reg_setReg_other _ _ _ _ h4).trans (State.reg_setReg_other _ _ _ _ h2)
  exact State.governor_congr (hreg _ (by decide) (by decide)) (hreg _ (by decide) (by decide)) rfl rfl

/-- 10 ms have passed since a die last stepped down for power. -/
def State.powerDownDue (s : State) : Bool :=
  match s.plat.lastPowerDown with
  | none => true
  | some n => n + msec 10 ≤ s.now

/-- The die that steps down for power (R395). -/
def State.powerPick (s : State) : Option Nat := s.downOrder.find? fun d => 0 < s.dvfsTarget d && !s.dieService d

theorem State.powerPick_powerNoted (s : State) (w : Nat) : (s.powerNoted w).powerPick = s.powerPick := by
  obtain ⟨-, htarget, hservice, horder⟩ := s.powerNoted_governor w
  rw [State.powerPick, State.powerPick, htarget, hservice, horder]

/-- A sample at or above the cap steps the picked die down when a step is due. -/
theorem exec_govPowerSample (hg : s.governs = true) (w : Nat) :
    exec (.govPowerSample w) s = .next (if w < s.capW || !s.powerDownDue then s.powerNoted w
      else match s.powerPick with
        | none => s.powerNoted w
        | some d => (s.powerNoted w).powerDown d) := by
  obtain ⟨hcap, -⟩ := s.powerNoted_governor w
  rw [← s.powerPick_powerNoted w, ← hcap]
  exact congrArg Host.Outcome.next (if_neg (not_bnot_governs hg))

theorem does_govPowerSample_first (hg : s.governs = true) {w d : Nat} (hlast : s.plat.lastPowerDown = none)
    (hw : s.capW ≤ w) (hd : s.powerPick = some d) :
    Does (.govPowerSample w) s fun t => t.dvfsTarget d = s.dvfsTarget d - 1 ∧ t.plat.lastPowerDown = some s.now := by
  have hdue : s.powerDownDue = true := by rw [State.powerDownDue, hlast]
  obtain ⟨-, htarget, -⟩ := s.powerNoted_governor w
  obtain ⟨hstep, hnow⟩ := (s.powerNoted w).powerDown_target d
  refine ⟨_, (exec_govPowerSample hg w).trans (congrArg Host.Outcome.next (if_neg (by simp [hdue, hw]))), ?_⟩
  rw [hd]
  exact ⟨hstep.trans (by rw [htarget]), hnow⟩

theorem does_govPowerSample_below (hg : s.governs = true) {w : Nat} (hw : w < s.capW) :
    Does (.govPowerSample w) s fun t => t.plat.powerTarget = s.plat.powerTarget :=
  ⟨_, (exec_govPowerSample hg w).trans (congrArg Host.Outcome.next (if_pos (by simp [hw]))), rfl⟩

/-! #### GOV_CURRENT_SAMPLE -/

theorem State.stretchOf_setStretch (s : State) (d e k : Nat) :
    (s.setStretch d k).stretchOf e = if e = d then k else s.stretchOf e := by
  simp only [State.stretchOf, State.setStretch, SMap.get_set, State.runStall_frame]

/-- Each die takes the stretch it is given. -/
theorem State.stretchOf_setStretches (s : State) (f : Nat → Nat) {d : Nat} (hd : d < 4) :
    ([0, 1, 2, 3].foldl (fun s d => s.setStretch d (f d)) s).stretchOf d = f d := by
  simp only [List.foldl_cons, List.foldl_nil, State.stretchOf_setStretch]
  interval_cases d <;> rfl

/-- The stretch that a die takes at a current sample (R731, R739). -/
def State.nextStretch (s : State) (w m d : Nat) : Nat :=
  if 105 * s.capW < 100 * w || 40000 < m then (if s.dieService d then s.stretchOf d else min 8 (s.stretchOf d + 1))
  else if w ≤ s.capW then s.stretchOf d - 1 else s.stretchOf d

theorem does_govCurrentSample (hg : s.governs = true) (w m : Nat) :
    Does (.govCurrentSample w m) s fun t => ∀ d < 4, t.stretchOf d = s.nextStretch w m d :=
  ⟨_, congrArg Host.Outcome.next (if_neg (not_bnot_governs hg)),
    fun _ hd => State.stretchOf_setStretches _ (s.nextStretch w m) hd⟩

theorem State.nextStretch_high {w m : Nat} (h : 105 * s.capW < 100 * w ∨ 40000 < m) (d : Nat) :
    s.nextStretch w m d = if s.dieService d then s.stretchOf d else min 8 (s.stretchOf d + 1) :=
  if_pos (by simpa using h)

theorem State.nextStretch_low {w m : Nat} (hw : w ≤ s.capW) (hm : m ≤ 40000) (d : Nat) :
    s.nextStretch w m d = s.stretchOf d - 1 := by
  have hlow : ¬ (105 * s.capW < 100 * w ∨ 40000 < m) := by omega
  exact (if_neg (by simpa using hlow)).trans (if_pos hw)

/-! #### GOV_JUNCTION_SAMPLE -/

theorem does_govJunctionSample_trip (hg : s.governs = true) (i : Fin 10) {v : Int} (hv : 1100 ≤ v) :
    Does (.govJunctionSample i v) s fun t =>
      t.host.fatal = true ∧ t.host.fatalCode = Code.thermalTrip ∧ t.plat.tripped = true :=
  ⟨_, congrArg Host.Outcome.next ((if_neg (not_bnot_governs hg)).trans (if_pos hv)), rfl, rfl, rfl⟩

theorem junctionReg_ne_pltGov (i : Fin 10) : Reg.pltGov ≠ junctionReg i.val := by
  unfold Reg.pltGov junctionReg Reg.pltSensor
  omega

/-- A C-die at or above THROTTLE_C steps down at its first hot sample. -/
theorem does_govJunctionSample_first (hg : s.governs = true) {i : Fin 10} (hi : i.val < 4) {v : Int} (hv : v < 1100)
    (hhot : ((10 * s.field Reg.pltGov 51 44 : Nat) : Int) ≤ v) (hlast : SMap.lookup s.plat.lastThermDown i.val = none)
    (hstep : 0 < s.dvfsTarget i.val) :
    Does (.govJunctionSample i v) s fun t => t.dvfsTarget i.val = s.dvfsTarget i.val - 1 := by
  have hthrottle : ((10 * (s.setReg (junctionReg i.val) (fld 31 0 (BitVec.ofInt 32 v).toNat)).field Reg.pltGov 51 44 : Nat) : Int)
      ≤ v := by rwa [State.field_setReg_other _ _ _ _ (junctionReg_ne_pltGov i)]
  have hdue : (match SMap.lookup s.plat.lastThermDown i.val with
      | none => true
      | some t => decide (t + msec 10 ≤ s.now)) = true := by rw [hlast]
  exact ⟨_, congrArg Host.Outcome.next ((if_neg (not_bnot_governs hg)).trans ((if_neg (Int.not_le.2 hv)).trans
    ((if_neg (Nat.not_le.2 hi)).trans ((if_neg (Int.not_lt.2 hthrottle)).trans (if_pos hdue))))),
    State.dvfsTarget_thermDown hstep⟩

/-! #### GOV_STEP_UP -/

/-- A die steps up: neither target holds it below its next step, and the wait for the next step begins (R731). -/
def State.stepUp (s : State) (d : Nat) : State :=
  { s with
    plat.powerTarget := SMap.put s.plat.powerTarget d (max (s.dvfsTarget d + 1) (s.powerT d))
    plat.thermTarget := SMap.put s.plat.thermTarget d (max (s.dvfsTarget d + 1) (s.thermT d))
    plat.belowSince := some s.now }.bump (Reg.pltCnt 2)

theorem State.dvfsTarget_stepUp (s : State) (d : Nat) : (s.stepUp d).dvfsTarget d = s.dvfsTarget d + 1 := by
  have hmin : s.dvfsTarget d = min (s.powerT d) (s.thermT d) := rfl
  rw [State.dvfsTarget]
  simp only [State.stepUp, State.bump_plat, SMap.get_put_same]
  omega

theorem exec_govStepUp (hg : s.governs = true) {n d : Nat} (hsince : s.plat.belowSince = some n) (hcool : s.plat.hotDies = [])
    (hdram : s.plat.dramHot = false) (hdue : n + msec (s.field Reg.pltGov 31 16) ≤ s.now)
    (hd : (s.upOrder.find? fun d => s.dvfsTarget d < 3) = some d) : exec .govStepUp s = .next (s.stepUp d) := by
  show execGovStepUp s = _
  rw [execGovStepUp, hsince]
  dsimp only
  rw [if_neg (by simp [hg, hcool, hdram, hdue]), hd]
  rfl

/-! #### Temperatures of DRAM and sensors -/

/-- The hottest of one reading and a table of readings is within a bound when all of them are. -/
theorem foldl_max_le_iff (m : SMap Int) (a b : Int) :
    m.foldl (fun (a : Int) x => max a x.2) a ≤ b ↔ a ≤ b ∧ ∀ x ∈ m, x.2 ≤ b := by
  induction m generalizing a with
  | nil => simp
  | cons x m ih => simp [ih, and_assoc]

/-- Beside readings that are in the normal range, a new reading alone decides how hot DRAM is. -/
theorem hottest_le_iff {m : SMap Int} (hm : ∀ x ∈ m, x.2 ≤ 85) (d : Nat) (c : Int) {b : Int} (hb : 85 ≤ b) :
    (SMap.put m d c).foldl (fun (a : Int) x => max a x.2) c ≤ b ↔ c ≤ b := by
  rw [foldl_max_le_iff]
  refine and_iff_left_of_imp fun hc x hx => ?_
  rcases SMap.mem_put.1 hx with rfl | ⟨hmem, -⟩
  · exact hc
  · exact (hm x hmem).trans hb

theorem does_mr4Read (hg : s.governs = true) {d : Nat} {c : Int} (hcool : ∀ x ∈ s.plat.dramTemps, x.2 ≤ 85) (hc : c ≤ 105) :
    Does (.mr4Read d c) s fun t =>
      t.field Reg.dramStatus 2 2 = (if 85 < c then 1 else 0) ∧ t.plat.thermTarget = s.plat.thermTarget := by
  have hhot : 85 < (SMap.put s.plat.dramTemps d c).foldl (fun (a : Int) x => max a x.2) c ↔ 85 < c := by
    rw [← Int.not_le, hottest_le_iff hcool d c le_rfl, Int.not_le]
  refine ⟨_, congrArg Host.Outcome.next ((if_neg (not_bnot_governs hg)).trans
    (if_pos ((hottest_le_iff hcool d c (by decide)).2 hc))), ?_, ?_⟩
  · refine (congrArg (bits · 2 2) (State.reg_iff _ _ (State.reg_bump_other _ _ _ (by decide)))).trans
      ((State.field_setField_same _ _ _ _ _ (by decide) (by decide)).trans ?_)
    simp only [hhot, bnat, decide_eq_true_eq]
    split <;> rfl
  · unfold State.iff
    split <;> rfl

theorem does_sensorSample (hrails : s.plat.rails = true) (i : Fin 23) (v : BitVec 32) :
    Does (.sensorSample i v) s fun t => t.reg (Reg.pltSensor i.val) = fld 31 0 v.toNat ∧
      t.plat.inhibit = if i.val = 0 ∧ 44000 ≤ v.toNat then false else s.plat.inhibit := by
  by_cases h : i.val = 0 ∧ 44000 ≤ v.toNat
  · exact ⟨_, congrArg Host.Outcome.next ((if_neg (by simp [hrails])).trans (if_pos (by simpa using h))),
      State.reg_setReg_same _ _ _, (if_pos h).symm⟩
  · exact ⟨_, congrArg Host.Outcome.next ((if_neg (by simp [hrails])).trans (if_neg (by simpa using h))),
      State.reg_setReg_same _ _ _, (if_neg h).symm⟩

/-! #### Parking (R745 to R748) -/

/-- The module enters PARKED once it has been idle for PARK_IDLE_MS and no upkeep holds it awake. -/
theorem does_parkEntry (hl : s.live = true) {ms : Nat} (hstage : s.plat.stage = 7) (hpark : s.plat.parkedSince = none)
    (hup : s.plat.upkeepSince = none) (hen : bit (s.reg Reg.pltPwr) 32 = true) (hms : s.field Reg.pltPwr 31 16 ≤ ms)
    (hidle : s.idleNow = true) :
    Does (.parkEntry ms) s fun t => t.plat.parkedSince = some s.now ∧ t.field Reg.dramStatus 1 1 = 1 ∧
      t.field Reg.pltPwr 15 0 = (s.field Reg.pltPwr 15 0 + 1) % 65536 := by
  have hexec : exec (.parkEntry ms) s = .next (({ s with plat.parkedSince := some s.now, plat.upkeepSince := none }.setField
      Reg.pltPwr 15 0 (s.field Reg.pltPwr 15 0 + 1)).setField Reg.dramStatus 1 1 1) := by
    show execParkEntry ms s = _
    rw [execParkEntry, gate_live hl]
    simp only [hstage, hpark, hup, hen, hms, hidle]
    rfl
  refine ⟨_, hexec, rfl, State.field_setField_same _ _ _ _ _ (by decide) (by decide), ?_⟩
  rw [State.setField, State.field_setReg_other _ _ _ _ (by decide), State.field_setField_same _ _ _ _ _ (by decide) (by decide)]
  norm_num

@[simp] theorem State.undefRange_plat (s : State) (r : Nat × Nat) : (s.undefRange r).plat = s.plat := rfl

theorem State.unpark_parked (s : State) : s.unpark.plat.parkedSince = none ∧ s.unpark.field Reg.dramStatus 1 1 = 0 := by
  refine ⟨?_, State.field_setField_same _ _ _ _ _ (by decide) (by decide)⟩
  simp only [State.unpark, State.setField_plat, State.ungate, State.undefRange_plat]

theorem does_parkExit (hl : s.live = true) (hpark : s.plat.parkedSince.isSome) :
    Does .parkExit s fun t => t.plat.parkedSince = none ∧ t.field Reg.dramStatus 1 1 = 0 :=
  ⟨_, (gate_live hl _).trans (congrArg Host.Outcome.next (if_pos hpark)), s.unpark_parked⟩

theorem does_parkUpkeepExit (hl : s.live = true) (hpark : s.plat.parkedSince.isSome) :
    Does .parkUpkeepExit s fun t => t.plat.parkedSince = none ∧ t.plat.upkeepSince = some s.now ∧
      t.field Reg.dramStatus 1 1 = 0 := by
  refine ⟨_, (gate_live hl _).trans (congrArg Host.Outcome.next (if_pos hpark)), ?_⟩
  obtain ⟨hawake, hdram⟩ := s.unpark_parked
  generalize s.unpark = u at hawake hdram ⊢
  exact ⟨hawake, rfl, hdram⟩

end governor

/-- Settles O8: the samples of power, current and temperature, the step up, and the entry to and the exits from parking. -/
theorem governorAndParking : Obligations.GovernorAndParking := by
  refine ⟨fun s hg => ?_, fun s hl => ⟨fun ms => does_parkEntry hl, does_parkExit hl, does_parkUpkeepExit hl⟩⟩
  refine ⟨fun w d => does_govPowerSample_first hg, fun w => does_govPowerSample_below hg, fun w m h => ?_,
    fun w m hw hm => ?_, fun i v => does_govJunctionSample_trip hg i, fun i hi v hv => does_govJunctionSample_first hg hi hv,
    fun n d hsince hcool hdram hdue hd => ⟨_, exec_govStepUp hg hsince hcool hdram hdue hd, s.dvfsTarget_stepUp d⟩,
    fun d c => does_mr4Read hg, does_sensorSample (State.rails_of_governs hg)⟩
  · obtain ⟨t, ht, hstretch⟩ := does_govCurrentSample hg w m
    exact ⟨t, ht, fun d hd => (hstretch d hd).trans (State.nextStretch_high h d)⟩
  · obtain ⟨t, ht, hstretch⟩ := does_govCurrentSample hg w m
    exact ⟨t, ht, fun d hd => (hstretch d hd).trans (State.nextStretch_low hw hm d)⟩

end Sys2Proof.Machine
end

section
/-! ### A preemption asked for by the segment that is pushed (R396, R398) -/

namespace Sys2Proof.Machine

open Sys2Proof

/-- Two jobs without weight windows. Die 0 runs a segment of job 0, which is preemptible and of level 1; a segment of job 1, of
level 0, is ready for the die. Bits 31:24 of job 0's attributes are the one byte of the job table, on page 0, that is not 0. -/
def urgentReady : State :=
  { State.reset with
    plat.rails := true
    plat.stage := 7
    tsm.leaf := [(0, { v := true })]
    mem := [(homeAddr ({} : Leaf).tier ({} : Leaf).loc 11, 3)]
    regs := [(Reg.ctlSched, fld 7 4 4), (Reg.ctlDieRole, 0), (Reg.ctlJobTable, fld 42 36 2), (Reg.hqQcfg 0, fld 41 29 8)]
    cmp.dies := [(0, { state := .running })]
    fw.jobs := [(0, { pushed := [({}, 0, 0)] })]
    fw.ready := [{ job := 1 }] }

/-- Firmware asks for the preemption of job 0 in favour of job 1, whose segment it pushes. -/
theorem req_after_segmentPick :
    readAfter (.segmentPick 0 [] {}) urgentReady (fun t => bit (t.reg (Reg.seqPreempt 0)) 0) = some true := by
  decide +kernel

/-- Nothing is left to ask for once the segment of job 1 is in the die's queue. -/
theorem no_request_after_feed :
    ((urgentReady.feed 0 {}).asksPreempt 0 || bit (urgentReady.reg (Reg.seqPreempt 0)) 0) = false := by
  decide +kernel

/-- Refutes O34: REQ is said to be asked for by what is ready behind the push, but SEGMENT_PICK asks for the segment that it
pushes; where that one alone is ready, REQ is set and nothing behind the push asks for it. -/
theorem not_jobsAndService : ¬ Obligations.JobsAndService := by
  intro h
  obtain ⟨hpick, -⟩ := h urgentReady 0 (by decide +kernel)
  obtain ⟨-, -, -, -, hfeed, -⟩ := hpick [] {} 1 { job := 1 } rfl rfl (by decide +kernel) (by decide +kernel) (by decide +kernel)
  obtain ⟨t, ht, -, -, hreq, -⟩ := hfeed (.inl (by decide +kernel)) (by decide +kernel)
  have hset := req_after_segmentPick
  rw [readAfter_of_next ht] at hset
  exact absurd (hreq.symm.trans (Option.some.inj hset)) (ne_true_of_eq_false no_request_after_feed)

end Sys2Proof.Machine
end

section
/-! ### The block as a whole: steps, reset and modules that are not live (R696, R708, R709, R714) -/

namespace Sys2Proof.Machine

open Sys2Proof

theorem step_cons (c : Instr) (rest : List Instr) (s : State) :
    step { s with pending := c :: rest } = exec c { s with pending := rest } := rfl

theorem step_of_empty {s : State} (h : s.pending = []) : step s = .next { s with now := s.now + 1 } := by
  simp only [step, h, State.idle]

/-- Settles O1: `step` takes its command from the front of the queue. -/
theorem stepRunsFront : Obligations.StepRunsFront := ⟨step_cons, fun _ => step_of_empty⟩

/-- Settles O4: the reset state lists nothing, so every table reads its default; its rails are off. -/
theorem resetValues : Obligations.ResetValues :=
  ⟨⟨fun _ => rfl, fun _ => rfl, fun _ => rfl, fun _ => rfl, fun _ => rfl, fun _ => rfl, rfl, rfl⟩, rfl, fun _ h => nomatch h⟩

/-- Settles O6: both resets leave `State.cleared`; only their cause and their rails differ. -/
theorem resetClears : Obligations.ResetClears := fun _ =>
  ⟨fun hlow => ⟨_, congrArg Host.Outcome.next (if_pos hlow), State.cleared_cleared _ _ _ _, rfl, rfl, rfl⟩,
    fun hrails => ⟨_, congrArg Host.Outcome.next (if_pos hrails), State.cleared_cleared _ _ _ _, rfl, rfl, rfl, rfl⟩⟩

theorem exec_govStepUp_of_not_governs {s : State} (h : s.governs = false) : exec .govStepUp s = .next s := by
  show execGovStepUp s = _
  unfold execGovStepUp
  cases s.plat.belowSince with
  | none => rfl
  | some n => simp [h]

/-- A command wakes the module, or is held back by the gate of a live module: the governor's rows by `State.governs`. -/
theorem wakes_or_exec_of_dead {s : State} (h : s.live = false) (c : Instr) : c.wakes = true ∨ exec c s = .next s := by
  have hlive : ¬ s.live = true := Bool.eq_false_iff.1 h
  have hgov : s.governs = false := by simp [State.governs, h]
  cases c
  case registerWrite r v same ns =>
    cases r with
    | block k => exact .inr (congrArg Host.Outcome.next (if_neg hlive))
    | bar f off => exact .inl rfl
  case govPowerSample | govCurrentSample | govJunctionSample | mr4Read =>
    exact .inr (congrArg Host.Outcome.next (if_pos (by rw [hgov]; rfl)))
  case govStepUp => exact .inr (exec_govStepUp_of_not_governs hgov)
  all_goals first | exact .inl rfl | exact .inr (congrArg Host.Outcome.next (if_neg hlive))

theorem exec_of_dead {s : State} (h : s.live = false) {c : Instr} (hc : c.wakes = false) : exec c s = .next s :=
  (wakes_or_exec_of_dead h c).resolve_left (Bool.eq_false_iff.1 hc)

/-- Settles O3: a step of a sleeping module only drops its front command, or lets a nanosecond pass. -/
theorem asleepStaysAsleep : Obligations.AsleepStaysAsleep := by
  rintro s t ⟨hdead, hquiet⟩ hstep
  cases hp : s.pending with
  | nil =>
    rw [step_of_empty hp] at hstep
    cases hstep
    refine ⟨⟨hdead, hquiet⟩, ?_⟩
    simp only [hp, List.tail_nil, if_true]
  | cons c rest =>
    have hdead' : ({ s with pending := rest } : State).live = false := hdead
    have hexec : step s = .next { s with pending := rest } := by
      rw [step, hp]
      exact exec_of_dead hdead' (hquiet c (hp ▸ List.mem_cons_self))
    rw [hexec] at hstep
    cases hstep
    exact ⟨⟨hdead', fun d hd => hquiet d (hp ▸ List.mem_cons_of_mem _ hd)⟩, rfl⟩

end Sys2Proof.Machine
end

section
/-! ### Host rings and command fetch (R661, R681, R746) -/

namespace Sys2Proof.Machine

open Sys2Proof

/-! #### Writes of HOST.QCFG -/

theorem State.qp_setPair (s : State) (f q : Nat) (g : QPair → QPair) :
    ((s.setPair f q g).fn f).qp q = g ((s.fn f).qp q) := by
  simp only [State.setPair, State.fn_setFn_same, HostFn.qp, HostFn.setQp, SMap.get_set_same]

theorem exec_qcfgWrite {s : State} (h : s.portUp = true) (f : Fin 2) (q : Fin 16) (v : Word) :
    exec (.qcfgWrite f q v) s = .next (s.writeQcfg f.val q.val v) :=
  congrArg Host.Outcome.next (if_pos h)

theorem ringSizeOk_iff (n : Nat) : ringSizeOk n = true ↔ 16 ≤ n ∧ n ≤ 4096 ∧ n % 16 = 0 := by
  simp [ringSizeOk, and_assoc]

/-- Setting EN of a pair that is off enables it, or sets ERROR where a size is not one of R681. -/
theorem State.writeQcfg_enable (s : State) {f q : Nat} {v : Word} (hen : bit v 63 = true) (hoff : ((s.fn f).qp q).en = false) :
    s.writeQcfg f q v =
      if ringSizeOk (bits v 12 0) && ringSizeOk (bits v 28 16) then
        s.setPair f q fun p => { p with en := true, sqSize := bits v 12 0, cqSize := bits v 28 16, sqHead := 0, cqTail := 0, phase := true }
      else s.setPair f q fun p => { p with sqSize := bits v 12 0, cqSize := bits v 28 16, error := true } := by
  simp only [State.writeQcfg, hen, hoff, if_true, Bool.false_eq_true, if_false]

/-- Settles O59: both sizes good enables the pair, any other size sets ERROR and leaves it off. -/
theorem ringSizesAreChecked : Obligations.RingSizesAreChecked := by
  intro s f q v hport hen p ok hoff
  have hexec := exec_qcfgWrite hport f q v
  rw [s.writeQcfg_enable hen hoff] at hexec
  constructor
  · intro hbad
    rw [if_neg (by rw [Bool.and_eq_true, ringSizeOk_iff, ringSizeOk_iff]; exact hbad)] at hexec
    exact ⟨_, hexec, by rw [State.qp_setPair], by rw [State.qp_setPair]; exact hoff⟩
  · intro hsq hcq
    rw [if_pos (by rw [Bool.and_eq_true, ringSizeOk_iff, ringSizeOk_iff]; exact ⟨hsq, hcq⟩)] at hexec
    exact ⟨_, hexec, by rw [State.qp_setPair], by rw [State.qp_setPair]⟩

/-! #### A fetch while PARKED -/

/-- A PARKED module, its DRAM in self-refresh, with a command waiting in an enabled ring. -/
def parkedWithCommand : State :=
  { State.reset with
    plat.rails := true
    plat.stage := 7
    plat.parkedSince := some 0
    regs := [(Reg.dramStatus, fld 1 1 1)]
    host.ready := true
    host.fns := [(0, { enable := true, qps := [(0, { en := true, sqSize := 16, cqSize := 16, tail := 1 })] })] }

/-- A fetch writes no register but those of leaving PARKED. -/
theorem regs_of_commandFetch {s t : State} {f : Fin 2} {q : Fin 16} {r : Item} (hl : s.live = true)
    (hmay : s.mayFetch f.val q.val = true) (h : exec (.commandFetch f q (some r)) s = .next t) : t.regs = s.wake.regs := by
  have hexec : exec (.commandFetch f q (some r)) s = execCommandFetch f q (some r) s := rfl
  rw [hexec, execCommandFetch, gate_live hl] at h
  injection h with h
  subst h
  simp only [hmay, Bool.not_true, Bool.false_eq_true, if_false]
  split <;> simp [State.setPair]

/-- Refutes O43: a fetch is work that wakes a PARKED module (R746), and leaving PARKED writes DRAM.STATUS, so that not every register
stays. -/
theorem not_hostPort : ¬ Obligations.HostPort := by
  intro h
  obtain ⟨-, -, hfetch, -⟩ := h parkedWithCommand 0 0 0
  obtain ⟨-, hrecord⟩ := hfetch (by decide) (by decide) (by decide)
  obtain ⟨t, ht, -, -, -, -, -, -, -, hregs, -⟩ := (hrecord {}).1 (by decide)
  have hsame : t.field Reg.dramStatus 1 1 = 1 := by
    rw [State.field, State.reg_of_regs hregs]
    decide
  have hleft : t.field Reg.dramStatus 1 1 = 0 := by
    rw [State.field, State.reg_of_regs (regs_of_commandFetch (by decide) (by decide) ht)]
    exact parkedWithCommand.unpark_parked.2
  exact absurd (hleft.symm.trans hsame) (by decide)

end Sys2Proof.Machine
end

section
/-! ### A meter record read after METER_SET counts, with a MODEL outside the register file (R144, R156, R553) -/

namespace Sys2Proof.Machine

open Sys2Proof

/-- METER_SET of customer 0. -/
def setMeter : HostCmd := { id := 5, opcode := 0x32, args := [0] }

/-- Only CIR is not 0. -/
def cirRecord : Item := { w1 := 1 }

/-- The meter table stands on page 2. The model of hamper 0, whose span table fills page 1, has MTR.CNT7 as its geometry register. -/
def strayMeterModel : State :=
  { strayModel with
    regs := [(Reg.mtrTable, fld 35 0 2), (Reg.mtrCnt 7, fld 39 36 1 ||| fld 27 0 (2 ^ 28 - 1))]
    hmp.dir := [(0, { model := Reg.mtrCnt 7 - Reg.kvsGeometry 0 })]
    host.cmds := [setMeter] }

/-- Refutes O58: the statement takes every state, also one whose hamper names a model outside the register file. There METER_SET's own
count gives the model a layer, so that the side array comes to fill page 2: word 1 of the record is then read from a side record, and
not as set. -/
theorem not_meterSetReplacesAndClamps : ¬ Obligations.MeterSetReplacesAndClamps := by
  intro h
  have hwaits : Waits strayMeterModel 5 0x32 setMeter := by
    unfold Waits
    decide
  have hread : readAfter (.meterSet 5 (some cirRecord)) strayMeterModel (fun t => (t.meterRec 0).w1) = some 0 := by
    decide
  obtain ⟨t, ht, -, hcir, -⟩ :=
    h strayMeterModel 5 setMeter cirRecord hwaits (by decide) (by decide) (by decide)
  rw [readAfter_of_next ht] at hread
  exact absurd ((Option.some.inj hread).symm.trans hcir) (by decide)

end Sys2Proof.Machine
end

section
/-! ### A grammar entry read after its item's completion counts, with a MODEL outside the register file (R144, R156, R449, R458) -/

namespace Sys2Proof.Machine

open Sys2Proof

/-- GRAMMAR_CLOSE of hamper 0. -/
def closeGrammarItem : Item := { w0 := 1, w3 := fld 31 28 5, w5 := fld 31 16 0xFFFF ||| fld 15 0 0xFFFF }

/-- Hamper 0 holds grammar 0, whose directory entry, on page 2, counts two sessions. Its span table fills page 1, and its model has
TLY.CNT0 as its geometry register. -/
def strayGrammarModel : State :=
  { hamperOfModel tallyModel with
    tsm.leaf := [(2, { v := true })]
    regs := [(Reg.tlyCnt 0, fld 39 36 1 ||| fld 27 0 (2 ^ 28 - 1)), (Reg.txtGrammar, fld 48 36 1 ||| fld 35 0 2)]
    hmp.hdr := [(0, ({ handle := 1, spanTable := 65536, spans := 1024 } : Header).setGram 0 {})]
    mem := [(dramAddr 0 14, 2)] }

/-- Refutes O36: the statement takes every state, also one whose hamper names a model outside the register file. There the raise of the
completion's tally gives the model a layer, so that the side array comes to fill page 2: REFS is then read from a side record, and not
as one less. -/
theorem not_textGrammars : ¬ Obligations.TextGrammars := by
  intro h
  have hready : strayGrammarModel.TextReady closeGrammarItem := by
    unfold State.TextReady
    decide
  have hfirst : (strayGrammarModel.hdr 0).gram.map (·.1) = some 0 := by decide
  have hread : readAfter (.grammarClose closeGrammarItem) strayGrammarModel (fun t => (t.gramEntry 0).refs) = some 0 := by
    decide
  obtain ⟨-, hitems⟩ := h strayGrammarModel closeGrammarItem (by decide)
  obtain ⟨-, hclose, -⟩ := hitems hready
  obtain ⟨⟨n, p⟩, hgram, hn⟩ := Option.map_eq_some_iff.1 hfirst
  obtain rfl : n = 0 := hn
  have hplain : (strayGrammarModel.leaf (strayGrammarModel.gramAt 0 / 65536)).v = true ∧
      strayGrammarModel.tabled (strayGrammarModel.gramAt 0 / 65536) = false := by decide
  obtain ⟨t, ht, -, -, hrefs, -⟩ := hclose (by decide) fun m q hm => by
    obtain rfl : m = 0 := congrArg Prod.fst (Option.some.inj (hm.symm.trans hgram))
    exact hplain
  rw [readAfter_of_next ht, hrefs 0 p hgram] at hread
  have htwo : (strayGrammarModel.gramEntry 0).refs = 2 := by decide
  rw [htwo] at hread
  exact absurd (Option.some.inj hread) (by decide)

end Sys2Proof.Machine
end

section
/-! ### A table read after its old body retires, with a MODEL outside the register file (R144, R156, R495) -/

namespace Sys2Proof.Machine

open Sys2Proof

/-- The publish of table 0 awaits the retirement of its old body; the table directory stands on page 2, and BASE is 1. The model of
hamper 0, whose span table fills page 1, has SEU.CNT11 as its geometry register. -/
def strayTableModel : State :=
  { strayModel with
    regs := [(Reg.seuTableDir, fld 44 36 1 ||| fld 35 0 2), (Reg.seuCnt 11, fld 39 36 1 ||| fld 27 0 (2 ^ 28 - 1))]
    hmp.dir := [(0, { model := Reg.seuCnt 11 - Reg.kvsGeometry 0 })]
    seu.tables := [({}, 7)]
    mem := [(dramAddr 0 0, 1)] }

/-- Refutes O38: the statement takes every state, also one whose hamper names a model outside the register file. There the count of
TABLE_RETIRE gives the model a layer, so that the side array comes to fill page 2: BASE is then read from a side record, and not as
before. -/
theorem not_lookupsAndTables : ¬ Obligations.LookupsAndTables := by
  rintro ⟨-, h⟩
  obtain ⟨-, -, -, hretire, -⟩ := h strayTableModel {} (by decide) (by decide)
  obtain ⟨t, ht, -, -, hbase, -⟩ :=
    hretire 7 (by decide) (by decide) (by decide) (by decide) (by decide)
  have hread : readAfter .tableRetire strayTableModel (fun t => (t.table (pubObject {})).base) = some 0 := by decide
  rw [readAfter_of_next ht, hbase] at hread
  have hone : (strayTableModel.table (pubObject {})).base = 1 := by decide
  rw [hone] at hread
  exact absurd (Option.some.inj hread) (by decide)

end Sys2Proof.Machine
end

section
/-! ### A page of the boot region in a cut (R512, R717) -/

namespace Sys2Proof.Machine

open Sys2Proof

/-- A cut of no sessions that has pages 0 and 1 left to copy. -/
def bootCut : SnapCut := { epoch := 1, phase := .copying, todo := [0, 1] }

/-- The cut runs while the boot region is mapped, with 100 pages of staging region. -/
def bootCutState : State :=
  { State.reset with
    plat.rails := true
    plat.stage := 7
    tsm.boot := true
    regs := [(Reg.tsmSnapStage, fld 51 36 100)]
    snp.cur := some bootCut }

/-- What the statement stages for page 0 of the cut. -/
def bootStaged : State :=
  bootCutState.stagePage bootCut.staged (bootCutState.physOf (0 * 65536)) (bootCutState.snapDests bootCut 0)

/-- A page of the boot region keeps its fixed leaf entry, whose COW_EPOCH is 0, whatever a command does that leaves the region
mapped. -/
theorem bootLeaf_cow {s : State} {p : Nat} (hboot : s.tsm.boot = true) (hp : p < bootPages) : (s.leaf p).cow = 0 := by
  simp [State.leaf, hboot, hp]

/-- Refutes O39: the statement takes every page of a cut, also one of the boot region, whose leaf entry stays fixed: after its copy
COW_EPOCH is 0 and not the cut's epoch. -/
theorem not_snapshotCuts : ¬ Obligations.SnapshotCuts := by
  intro h
  obtain ⟨-, hlive⟩ := h bootCutState 0 default bootCut
  obtain ⟨-, -, hcopy⟩ := hlive (by decide)
  obtain ⟨t, ht, -, -, hcow, -⟩ := hcopy 0 1 bootStaged (by decide) (by decide) (by decide) (by decide)
    (by decide) (by decide) rfl
  have hread : readAfter (.pageCopyComplete 0 false) bootCutState (fun t => t.tsm.boot) = some true := by decide
  rw [readAfter_of_next ht] at hread
  have hboot : t.tsm.boot = true := Option.some.inj hread
  rw [bootLeaf_cow hboot (by decide)] at hcow
  exact absurd hcow (by decide)

end Sys2Proof.Machine
end

section
/-! ### Checkpoint groups and the extents of their cairns (R503, R506) -/

namespace Sys2Proof.Machine

open Sys2Proof

/-! ### The extent bitmap (R506) -/

theorem State.setExtent_keeps (s : State) (g : CkGroup) (b : Bool) (e : Nat) :
    ∃ m rs, s.setExtent g b e = { s with mem := m, regs := rs } := by
  unfold State.setExtent State.countCas State.iff
  split <;> exact ⟨_, _, rfl⟩

theorem State.mem_setExtent (s : State) (g : CkGroup) (b : Bool) (e : Nat) :
    (s.setExtent g b e).mem =
      (s.writeWords (g.bitWord e) [setBits (s.readWord (g.bitWord e)) (e % 64) (e % 64) (bnat b)]).mem := by
  simp [State.setExtent, State.countCas, State.writeWord, State.writeWords]

theorem State.readWord_congr {s t : State} {a : Nat} (h : ∀ i, i < 8 → t.byte (a + i) = s.byte (a + i)) :
    t.readWord a = s.readWord a := by
  rw [State.readWord, State.readWord, State.readNat_congr h]

theorem State.readWord_of_mem {s t : State} (h : t.mem = s.mem) (a : Nat) : t.readWord a = s.readWord a :=
  State.readWord_congr fun i _ => congrArg (fun m => SMap.get 0 m (a + i)) h

theorem State.extentUsed_of_mem {s t : State} (h : t.mem = s.mem) (g : CkGroup) (e : Nat) :
    t.extentUsed g e = s.extentUsed g e := by
  rw [State.extentUsed, State.extentUsed, State.readWord_of_mem h]

/-- The extents of one word of the map share it, and no other does. -/
theorem State.readWord_setExtent (s : State) (g : CkGroup) (b : Bool) (e j : Nat) :
    (s.setExtent g b e).readWord (g.bitWord j) =
      if j / 64 = e / 64 then setBits (s.readWord (g.bitWord e)) (e % 64) (e % 64) (bnat b) else s.readWord (g.bitWord j) := by
  rw [State.readWord_of_mem (s.mem_setExtent g b e)]
  split_ifs with hword
  · have hplace : g.bitWord j = g.bitWord e + 8 * 0 := by simp [CkGroup.bitWord, hword]
    rw [hplace, State.readWord_writeWords _ _ (by simp)]
    rfl
  · refine State.readWord_congr fun i hi => State.byte_writeWords_other _ ?_
    simp only [CkGroup.bitWord, poolAddr, List.length_singleton]
    omega

theorem bit_setBits_zero (w : Word) {p q : Nat} (hp : p < 64) : bit (setBits w p p 0) q = (bit w q && !(q == p)) := by
  unfold bit
  by_cases hq : q = p
  · subst hq
    simp [bits_setBits_same w q q 0 hp le_rfl]
  · rw [bits_setBits_other w p p 0 q q hp le_rfl le_rfl (Nat.lt_or_gt_of_ne hq)]
    simp [hq]

theorem State.extentUsed_free (s : State) (g : CkGroup) {e : Nat} (he : e ≠ 0) (j : Nat) :
    (s.setExtent g false e).extentUsed g j = (s.extentUsed g j && !(j == e)) := by
  by_cases hj : j = 0
  · subst hj
    simpa [State.extentUsed] using Ne.symm he
  rw [State.extentUsed, State.readWord_setExtent, State.extentUsed]
  simp only [hj, decide_false, Bool.false_or]
  split_ifs with hword
  · have hbit : (j % 64 == e % 64) = (j == e) := by
      rw [Bool.eq_iff_iff, beq_iff_eq, beq_iff_eq]
      omega
    have hplace : g.bitWord j = g.bitWord e := by simp [CkGroup.bitWord, hword]
    rw [bnat, if_neg Bool.false_ne_true, bit_setBits_zero _ (Nat.mod_lt _ (by decide)), hbit, hplace]
  · have hne : j ≠ e := fun h => hword (by rw [h])
    simp [hne]

theorem State.freeExtents_cons (s : State) (g : CkGroup) (e : Nat) (es : List Nat) :
    s.freeExtents g (e :: es) = (if e = 0 then s else s.setExtent g false e).freeExtents g es := rfl

theorem State.freeExtents_keeps (s : State) (g : CkGroup) (es : List Nat) :
    ∃ m rs, s.freeExtents g es = { s with mem := m, regs := rs } := by
  induction es generalizing s with
  | nil => exact ⟨_, _, rfl⟩
  | cons e es ih =>
    rw [State.freeExtents_cons]
    split_ifs with he
    · exact ih s
    · obtain ⟨m, rs, hset⟩ := s.setExtent_keeps g false e
      rw [hset]
      exact ih _

/-- Freeing takes exactly the listed extents out of use; extent 0 stays. -/
theorem State.extentUsed_freeExtents (s : State) (g : CkGroup) (es : List Nat) {j : Nat} (hj : j ≠ 0) :
    (s.freeExtents g es).extentUsed g j = (s.extentUsed g j && !es.contains j) := by
  induction es generalizing s with
  | nil => simp [State.freeExtents]
  | cons e es ih =>
    rw [State.freeExtents_cons, ih]
    split_ifs with he
    · subst he
      simp [hj]
    · rw [State.extentUsed_free s g he, List.contains_cons, Bool.not_or, Bool.and_assoc]

/-- The bits of a freed list, and the answer of the command that freed it. -/
theorem Underway.freed {s u : State} {c : HostCmd} (h : Underway s u c) (g : CkGroup) (es : List Nat) :
    (∀ j, j ≠ 0 → ((u.freeExtents g es).complete c.id 0 0 0).extentUsed g j = (u.extentUsed g j && !es.contains j)) ∧
      Answers s ((u.freeExtents g es).complete c.id 0 0 0) c 0 0 0 := by
  refine ⟨fun j hj => ?_, ?_⟩
  · rw [State.extentUsed_of_mem (s := u.freeExtents g es) (by simp), State.extentUsed_freeExtents u g es hj]
  · obtain ⟨m, rs, hfree⟩ := u.freeExtents_keeps g es
    rw [hfree]
    exact (h.congr (v := { u with mem := m, regs := rs }) rfl rfl (List.prefix_refl _)).answers (by decide) 0 0

/-- A command that only ends with a code. -/
theorem Underway.ends {s u : State} {c : HostCmd} (h : Underway s u c) {code : Nat} (hcode : code < 8192) :
    (u.complete c.id code 0 0).mem = u.mem ∧ Answers s (u.complete c.id code 0 0) c code 0 0 :=
  ⟨by simp, h.answers hcode 0 0⟩

/-! ### CAIRN_RETIRE and GROUP_SCRUB -/

/-- What the pool shows leaves the command under way. -/
theorem Waits.underway_seePool {s : State} {id op : Nat} {c : HostCmd} (h : Waits s id op c) (pool : PoolSeen) :
    Underway s (s.seePool pool) c := by
  obtain ⟨m, hm⟩ := s.seePool_keeps pool
  rw [hm]
  exact h.is_open.underway.congr rfl rfl (List.prefix_refl _)

theorem does_cairnRetire_refused {s : State} {id : Nat} {c : HostCmd} {pool : PoolSeen} (h : Waits s id 0x42 c)
    (hbad : (s.seePool pool).groupOk (bits (c.arg 0) 47 40) = false ∨ (s.seePool pool).cairnExtents (c.arg 0) pool = none) :
    Does (.cairnRetire id pool) s fun t => t.mem = (s.seePool pool).mem ∧ Answers s t c Code.snapRef 0 0 := by
  have hexec : exec (.cairnRetire id pool) s = .next ((s.seePool pool).complete c.id Code.snapRef 0 0) := by
    show execCairnRetire id pool s = _
    rw [execCairnRetire, h.hostCmd]
    dsimp only
    rcases hbad with hok | hnone
    · rw [hok]
      rfl
    · rw [hnone]
      exact congrArg Host.Outcome.next (ite_self _)
  exact ⟨_, hexec, (h.underway_seePool pool).ends (by decide)⟩

theorem does_cairnRetire {s : State} {id : Nat} {c : HostCmd} {pool : PoolSeen} (h : Waits s id 0x42 c) {es : List Nat}
    (hok : (s.seePool pool).groupOk (bits (c.arg 0) 47 40) = true) (hes : (s.seePool pool).cairnExtents (c.arg 0) pool = some es) :
    Does (.cairnRetire id pool) s fun t =>
      (∀ e, e ≠ 0 → t.extentUsed ((s.seePool pool).ckGroup (bits (c.arg 0) 47 40)) e =
        ((s.seePool pool).extentUsed ((s.seePool pool).ckGroup (bits (c.arg 0) 47 40)) e &&
          !(es.contains e && e < ((s.seePool pool).ckGroup (bits (c.arg 0) 47 40)).extents))) ∧ Answers s t c 0 0 0 := by
  have hunder := h.underway_seePool pool
  generalize hu : s.seePool pool = u at *
  generalize hk : u.ckGroup (bits (c.arg 0) 47 40) = k
  have hexec : exec (.cairnRetire id pool) s =
      .next ((u.freeExtents k (es.filter fun e => e < k.extents)).complete c.id 0 0 0) := by
    show execCairnRetire id pool s = _
    rw [execCairnRetire, h.hostCmd]
    dsimp only
    rw [hu, hok, hes, hk]
    rfl
  obtain ⟨hused, hans⟩ := hunder.freed k (es.filter fun e => e < k.extents)
  refine ⟨_, hexec, fun e he => ?_, hans⟩
  rw [hused e he]
  congr 2
  rw [Bool.eq_iff_iff]
  simp

/-- What GROUP_SCRUB does with the list of references it read. -/
def State.scrubbed (s : State) (c : HostCmd) (r : Option (Option (List Nat))) : State :=
  let k := s.ckGroup (bits (c.arg 0) 7 0)
  match r with
  | none => s.complete c.id Code.hostDma 0 0
  | some none => s.complete c.id Code.snapRef 0 0
  | some (some ks) =>
    (s.freeExtents k ((List.range k.extents).filter fun e =>
      s.extentUsed k e && !ks.contains e && !(s.heldExtents (bits (c.arg 0) 7 0)).contains e)).complete c.id 0 0 0

theorem exec_groupScrub {s : State} {id : Nat} {c : HostCmd} (h : Waits s id 0x43 c) (pool : PoolSeen)
    (hok : (s.seePool pool).groupOk (bits (c.arg 0) 7 0) = true) (kept : Option (List Word)) :
    exec (.groupScrub id kept pool) s = .next ((s.seePool pool).scrubbed c
      (kept.map fun (rs : List Word) => (s.seePool pool).keptExtents pool (rs.take (c.arg 2).toNat))) := by
  show execGroupScrub id kept pool s = _
  rw [execGroupScrub, h.hostCmd]
  dsimp only
  rw [hok]
  rfl

theorem Underway.scrubbed {s u : State} {c : HostCmd} (h : Underway s u c) (ks : List Nat) :
    (∀ e, e ≠ 0 → e < (u.ckGroup (bits (c.arg 0) 7 0)).extents →
      (u.scrubbed c (some (some ks))).extentUsed (u.ckGroup (bits (c.arg 0) 7 0)) e =
        (u.extentUsed (u.ckGroup (bits (c.arg 0) 7 0)) e &&
          (ks.contains e || (u.heldExtents (bits (c.arg 0) 7 0)).contains e))) ∧
      Answers s (u.scrubbed c (some (some ks))) c 0 0 0 := by
  unfold State.scrubbed
  dsimp only
  generalize u.ckGroup (bits (c.arg 0) 7 0) = k
  obtain ⟨hused, hans⟩ := h.freed k ((List.range k.extents).filter fun e =>
    u.extentUsed k e && !ks.contains e && !(u.heldExtents (bits (c.arg 0) 7 0)).contains e)
  refine ⟨fun e he hlt => ?_, hans⟩
  rw [hused e he, Bool.eq_iff_iff]
  simp only [Bool.and_eq_true, Bool.not_eq_true', Bool.or_eq_true, List.contains_eq_mem, decide_eq_true_eq, decide_eq_false_iff_not,
    List.mem_filter, List.mem_range]
  tauto

/-! ### CHECKPOINT_GROUP (R503) -/

section checkpoint

variable {s : State} {id : Nat} {c : HostCmd} (h : Waits s id 0x40 c) (hdir : s.dirPool ≠ 0xFF)
  (hvalid : (s.seg s.dirPool).valid = true) (hlayout : bits (c.arg 1) 63 62 ≤ 1) (hfirst : bits (c.arg 2) 7 0 = bits (c.arg 0) 7 0)

include h hdir hvalid hlayout hfirst

theorem does_checkpointGroup_used (hhead : (s.ckGroup (bits (c.arg 0) 7 0)).head ≠ 0) :
    Does (.checkpointGroup id) s fun t => t.mem = s.mem ∧ Answers s t c Code.segInUse 0 0 := by
  have hexec : exec (.checkpointGroup id) s = .next (s.complete c.id Code.segInUse 0 0) := by
    show execCheckpointGroup id s = _
    rw [execCheckpointGroup, h.hostCmd]
    have hrange : (s.dirPool = 0xFF || !(s.seg s.dirPool).valid) = false := by simp [hdir, hvalid]
    have hfield : (1 < bits (c.arg 1) 63 62 || bits (c.arg 2) 7 0 ≠ bits (c.arg 0) 7 0) = false := by
      simp [hlayout, hfirst]
    have huse : ((s.ckGroup (bits (c.arg 0) 7 0)).head ≠ 0 || s.cutInto (bits (c.arg 0) 7 0)) = true := by
      rw [decide_eq_true hhead, Bool.true_or]
    exact congrArg Host.Outcome.next ((if_neg (Bool.not_eq_true _ ▸ hrange)).trans
      ((if_neg (Bool.not_eq_true _ ▸ hfield)).trans (if_pos huse)))
  exact ⟨_, hexec, h.is_open.underway.ends (by decide)⟩

/-- The words of the entry that CHECKPOINT_GROUP writes. -/
def groupItem (c : HostCmd) : Item :=
  { w0 := 0, w1 := setBits (c.arg 1) 47 32 0, w2 := c.arg 2, w3 := c.arg 3, w4 := c.arg 4, w5 := c.arg 5, w6 := 0, w7 := 0 }

variable (hhead : (s.ckGroup (bits (c.arg 0) 7 0)).head = 0) (hcut : s.cutInto (bits (c.arg 0) 7 0) = false)
  (hsegs : ∀ j < 256, (s.seg j).valid = true) (hport : (s.segPort s.dirPool 0).isSome = true)

include hhead hcut hsegs hport

theorem exec_checkpointGroup : exec (.checkpointGroup id) s =
    .next (((s.countPool .pool true 64).writeWords (poolAddr (s.groupFab (bits (c.arg 0) 7 0)).toNat)
      (groupItem c).words).complete c.id 0 0 0) := by
  show execCheckpointGroup id s = _
  rw [execCheckpointGroup, h.hostCmd]
  dsimp only
  have hrange : (s.dirPool = 0xFF || !(s.seg s.dirPool).valid) = false := by simp [hdir, hvalid]
  have hfield : (1 < bits (c.arg 1) 63 62 || bits (c.arg 2) 7 0 ≠ bits (c.arg 0) 7 0) = false := by simp [hlayout, hfirst]
  have huse : ((s.ckGroup (bits (c.arg 0) 7 0)).head ≠ 0 || s.cutInto (bits (c.arg 0) 7 0)) = false := by
    rw [decide_eq_false (not_not.2 hhead), hcut, Bool.or_false]
  have hnamed : ∀ (n : Nat) (l : List Nat), (∀ k ∈ l, k < 256) →
      ((if n = 1 then l else l.take 2).any fun k => !(s.seg k).valid) = false := by
    intro n l hl
    have hmem : ∀ k ∈ (if n = 1 then l else l.take 2), k < 256 := by
      split
      · exact hl
      · exact fun k hk => hl k (List.mem_of_mem_take hk)
    simpa using fun k hk => hsegs k (hmem k hk)
  have hlisted : ∀ k ∈ (List.range 8).map (fun k => bits (c.arg 2) (8 * k + 7) (8 * k)) ++ [bits (c.arg 3) 7 0, bits (c.arg 3) 15 8],
      k < 256 := by
    have hbyte : ∀ w n, bits w (n + 7) n < 256 := fun w n => by
      rw [bits, Nat.add_sub_cancel_left]
      exact Nat.mod_lt _ (by decide)
    intro k hk
    rcases List.mem_append.1 hk with hk | hk
    · obtain ⟨n, -, rfl⟩ := List.mem_map.1 hk
      exact hbyte _ _
    · rcases List.mem_pair.1 hk with rfl | rfl
      · exact hbyte _ 0
      · exact hbyte _ 8
  have hup : ¬(s.segPort s.dirPool 0).isNone = true := by
    rw [← Option.not_isSome, hport]
    decide
  exact congrArg Host.Outcome.next ((if_neg (Bool.not_eq_true _ ▸ hrange)).trans ((if_neg (Bool.not_eq_true _ ▸ hfield)).trans
    ((if_neg (Bool.not_eq_true _ ▸ huse)).trans ((if_neg (Bool.not_eq_true _ ▸ hnamed _ _ hlisted)).trans (if_neg hup)))))

theorem does_checkpointGroup : Does (.checkpointGroup id) s fun t =>
    let g := bits (c.arg 0) 7 0
    let k := t.ckGroup g
    k.head = 0 ∧ k.epoch = 0 ∧ k.layout = bits (c.arg 1) 63 62 ∧ k.dataPages = bits (c.arg 1) 31 0 ∧
    k.segs = (List.range 8).map (fun j => bits (c.arg 2) (8 * j + 7) (8 * j)) ++ [bits (c.arg 3) 7 0, bits (c.arg 3) 15 8] ∧
    k.extentMap = c.arg 4 ∧ k.dataBase = bits (c.arg 5) 31 0 ∧
    (∀ a, (a < poolAddr (s.groupFab g).toNat ∨ poolAddr (s.groupFab g).toNat + 64 ≤ a) → t.byte a = s.byte a) ∧
    Answers s t c 0 0 0 := by
  refine ⟨_, exec_checkpointGroup h hdir hvalid hlayout hfirst hhead hcut hsegs hport, ?_⟩
  dsimp only
  generalize bits (c.arg 0) 7 0 = g
  generalize hu : (s.countPool .pool true 64).writeWords (poolAddr (s.groupFab g).toNat) (groupItem c).words = u
  have hmem : (u.complete c.id 0 0 0).mem = u.mem := by simp
  have hregs : (u.complete c.id 0 0 0).regs = u.regs := by simp
  have hpool : (u.complete c.id 0 0 0).dirPool = s.dirPool := by
    unfold State.dirPool State.field
    rw [State.reg_of_regs hregs, ← hu]
    exact congrArg (fun w => bits w 39 32) (State.reg_bumpBy_other s (Reg.fabCnt 1) Reg.hmpCustody 64 (by decide))
  have hitem : (u.complete c.id 0 0 0).readItem (poolAddr ((u.complete c.id 0 0 0).groupFab g).toNat) = groupItem c := by
    rw [State.groupFab, hpool, ← State.groupFab, State.readItem_congr (s := u) (t := u.complete c.id 0 0 0)
      fun b _ _ => congrArg (fun m => SMap.get 0 m b) hmem, ← hu, State.readItem_writeWords]
  have hunder : Underway s u c := hu ▸ h.is_open.underway.congr rfl rfl (List.prefix_refl _)
  unfold State.ckGroup
  rw [hitem]
  refine ⟨rfl, ?_, ?_, ?_, rfl, rfl, rfl, fun a ha => ?_, hunder.answers (by decide) 0 0⟩
  · show BitVec.ofNat 16 (bits (setBits (c.arg 1) 47 32 0) 47 32) = 0
    rw [bits_setBits_same _ _ _ _ (by decide) (by decide)]
    rfl
  · exact bits_setBits_other _ _ _ _ _ _ (by decide) (by decide) (by decide) (by decide)
  · exact bits_setBits_other _ _ _ _ _ _ (by decide) (by decide) (by decide) (by decide)
  · rw [State.byte, hmem, ← hu]
    exact State.byte_writeWords_other (s.countPool .pool true 64) ha

end checkpoint

/-- Settles O41: the three commands by their answers, the bitmap by what freeing a list of extents leaves in use. -/
theorem checkpointGroups : Obligations.CheckpointGroups := by
  intro s id c
  refine ⟨fun h hdir hvalid hlayout hfirst hcut => ⟨?_, ?_⟩, fun pool h => ⟨?_, ?_⟩, fun pool h hok => ⟨?_, ?_, ?_⟩⟩
  · exact does_checkpointGroup_used h hdir hvalid hlayout hfirst
  · exact fun hhead hsegs hport => does_checkpointGroup h hdir hvalid hlayout hfirst hhead hcut hsegs hport
  · exact does_cairnRetire_refused h
  · exact fun es hok hes => does_cairnRetire h hok hes
  · exact ⟨_, exec_groupScrub h pool hok none, (h.underway_seePool pool).ends (by decide)⟩
  · intro rs hnone
    refine ⟨_, exec_groupScrub h pool hok (some rs), ?_⟩
    rw [Option.map_some, hnone]
    exact (h.underway_seePool pool).ends (by decide)
  · intro rs ks hsome
    refine ⟨_, exec_groupScrub h pool hok (some rs), ?_⟩
    rw [Option.map_some, hsome]
    have hheld : (s.seePool pool).heldExtents (bits (c.arg 0) 7 0) = s.heldExtents (bits (c.arg 0) 7 0) := by
      obtain ⟨m, hm⟩ := s.seePool_keeps pool
      rw [hm]
      rfl
    have hscrub := (h.underway_seePool pool).scrubbed ks
    rw [hheld] at hscrub
    exact hscrub

end Sys2Proof.Machine
end

section
/-! ### A cut's accesses hold a port choice (R522, R579, R582) -/

namespace Sys2Proof.Machine

open Sys2Proof

/-- The recorded home session, in slot 0. -/
def lastSess : SnapSess := { home := true }

/-- A cut of epoch 1 whose shard is done. -/
def doneCut : SnapCut := { epoch := 1, lead := 1, phase := .done, sessions := [lastSess] }

/-- The notice of the cut's cairn. -/
def doneRef : Word := fld 63 48 1

/-- Segment 0 holds the session's record. No port of it is up any more; an access of the cut still holds the choice of port 0. -/
def heldPortState : State :=
  { State.reset with
    plat.rails := true
    plat.stage := 7
    snp.cur := some doneCut
    hmp.dir := [(0, { state := .parked, kind := .home, tracked := true })]
    comp.map.segs := [(0, { valid := true, pages := 16, atomic := true, ports := 1 })]
    fab.accs := [{ use := .snap 1, issued := true }]
    fab.choice := [(0, [0])] }

/-- Refutes O40: the statement asks only that the record can be swapped before the notice; when an access of the cut holds the last
port choice of the record's segment, the end of the module's part drops the access, no port is left for the swap, and the record keeps
its old cairn. -/
theorem not_snapshotCommits : ¬ Obligations.SnapshotCommits := by
  intro h
  obtain ⟨-, -, -, -, hnotice, -⟩ := h heldPortState doneCut (by decide)
  obtain ⟨-, hcommit⟩ := hnotice doneRef [] (by decide) (by decide) (by decide) (by decide)
  obtain ⟨t, ht, -, -, -, -, hcairn⟩ := hcommit lastSess (by decide) (by decide) (by decide) (by decide)
    (by decide) (by decide) (by decide)
  have hread : readAfter (.commitNotice doneRef 0 []) heldPortState
      (fun t => (t.rec_ (recKey (heldPortState.hdr 0).recAddr)).cairn) = some 0 := by decide
  rw [readAfter_of_next ht] at hread
  have hold : (heldPortState.rec_ (recKey (heldPortState.hdr 0).recAddr)).cairn = lastSess.cairnSeen := by decide
  have hnew : (t.rec_ (recKey (heldPortState.hdr 0).recAddr)).cairn = doneRef := hcairn.trans (if_pos hold)
  rw [hnew] at hread
  exact absurd (Option.some.inj hread) (by decide)

end Sys2Proof.Machine
end

section
/-! ### The search unit's items and their completions (R54, R467, R468, R690) -/

namespace Sys2Proof.Machine

open Sys2Proof

/-! ### Completions -/

theorem State.seuDone_posts (s : State) (i : Item) (code out short widened : Nat) (old : Word) (err : Nat) :
    Posts s (s.seuDone i code out short widened old err) (bits i.w6 40 32) (seuAnswer i code out short widened old err)
      (bits i.w6 11 0) := by
  have hq : bits i.w6 40 32 < 512 := bits_lt i.w6 40 32
  have hnote := s.noteReport_samePort code i.w0 (BitVec.ofNat 64 err) hq
  unfold State.seuDone
  generalize s.noteReport code i.w0 (BitVec.ofNat 64 err) = u at hnote
  have hport : s.SamePort (({ u with seu.bound := u.seu.bound.filter fun x => x.1 ≠ i } : State).begin_ seuReader i) (bits i.w6 40 32) :=
    hnote.trans ⟨rfl, rfl, rfl⟩
  dsimp only
  generalize ({ u with seu.bound := u.seu.bound.filter fun x => x.1 ≠ i } : State).begin_ seuReader i = v at hport ⊢
  exact .of_samePort hport (v.posts_post hq (seuAnswer i code out short widened old err) (bits i.w6 11 0))

theorem State.seuDone_keeps (s : State) (i : Item) (code out short widened : Nat) (old : Word) (err : Nat) :
    (s.seuDone i code out short widened old err).mem = s.mem ∧ (s.seuDone i code out short widened old err).hmp = s.hmp ∧
      (s.seuDone i code out short widened old err).seu = { s.seu with bound := s.seu.bound.filter fun x => x.1 ≠ i } := by
  simp [State.seuDone]

/-- A completion without an error leaves every register but those of the queues and tallies. -/
theorem State.reg_seuDone (s : State) (i : Item) (out short widened : Nat) (old : Word) (err : Nat) {k : Nat} (h : OffQueues k) :
    (s.seuDone i 0 out short widened old err).reg k = s.reg k := by
  rw [State.seuDone, State.reg_post _ _ _ _ h]
  rfl

theorem SeuFails.of_seuFail {s u v : State} {c : Instr} {i : Item} {code err : Nat} (h : exec c s = .next (v.seuFail i code err))
    (hp : u.SamePort v (bits i.w6 40 32)) (hh : v.hmp = u.hmp) : SeuFails s u c i code err := by
  obtain ⟨-, hhmp, -⟩ := v.seuDone_keeps i code 0 0 0 0 err
  exact ⟨_, h, .of_samePort hp (v.seuDone_posts i code 0 0 0 0 err), hhmp.trans hh⟩

theorem SeuFails.here {s u : State} {c : Instr} {i : Item} {code err : Nat} (h : exec c s = .next (u.seuFail i code err)) :
    SeuFails s u c i code err := .of_seuFail h ⟨rfl, rfl, rfl⟩ rfl

/-! ### The checks before an operation -/

theorem exec_of_mem_seuItems {i : Item} {x : Instr × Nat} (hx : x ∈ seuItems i) (s : State) :
    ∃ run, exec x.1 s = seuItem x.2 i s run := by
  simp only [seuItems, List.mem_cons, List.not_mem_nil, or_false] at hx
  rcases hx with rfl | rfl | rfl | rfl | rfl | rfl <;> exact ⟨_, rfl⟩

/-- The three ways in which an item fails before its work begins. -/
theorem seuItem_fails {s : State} {i : Item} {x : Instr × Nat} (hx : x ∈ seuItems i) (hl : s.live = true)
    (hop : seuOp i = x.2 ∨ seuReserved i = true) :
    (s.unitFailed 6 = true → SeuFails s s x.1 i Code.unitFailed noIndex) ∧
    (s.unitFailed 6 = false → seuReserved i = true → SeuFails s s x.1 i Code.invalidField noIndex) ∧
    (s.unitFailed 6 = false → seuReserved i = false → i.w0 ≠ 0 → s.handleCode i.w0 ≠ 0 →
      SeuFails s s x.1 i (s.handleCode i.w0) noIndex) := by
  obtain ⟨run, hrun⟩ := exec_of_mem_seuItems hx s
  rw [seuItem, gate_live hl] at hrun
  dsimp only at hrun
  refine ⟨fun hfail => ?_, fun hfail hres => ?_, fun hfail hres h0 hcode => ?_⟩
  · have hown : (decide (seuOp i = x.2) || seuReserved i) = true := by simpa using hop
    rw [if_pos hfail, if_pos hown] at hrun
    exact .here hrun
  · rw [if_neg (by rw [hfail]; decide), if_pos hres] at hrun
    exact .here hrun
  · have hown : seuOp i = x.2 := hop.resolve_right (by rw [hres]; decide)
    rw [if_neg (by rw [hfail]; decide), if_neg (by rw [hres]; decide), if_neg (not_not.2 hown), if_neg h0, if_pos hcode] at hrun
    exact .of_seuFail hrun (s.noteStale_samePort _ (bits_lt i.w6 40 32)) (by simp)

theorem SeuRuns.runs {s : State} {i : Item} {op : Nat} (h : SeuRuns s i op) (run : State → State) :
    seuItem op i s run = .next (run s) := by
  obtain ⟨hl, hfail, hop, hres, hw0, hsnap, hold, htag⟩ := h
  have hcode : (if i.w0 = 0 then 0 else s.handleCode i.w0) = 0 := by
    rcases hw0 with h0 | h0
    · exact if_pos h0
    · rw [h0, ite_self]
  rw [seuItem, gate_live hl]
  dsimp only
  rw [hcode, if_neg (by rw [hfail]; decide), if_neg (by rw [hres]; decide), if_neg (not_not.2 hop), if_neg (not_not.2 rfl),
    if_neg (by rw [hsnap]; decide), State.underCfg_of_fresh hold, State.byMap_of_current htag]

/-! ### Candidates (R479) -/

theorem candBefore_trans_false {a b c : SeuCand} (hab : candBefore b a = false) (hbc : candBefore c b = false) :
    candBefore c a = false := by
  simp only [candBefore, Bool.or_eq_false_iff, Bool.and_eq_false_iff, decide_eq_false_iff_not] at *
  omega

theorem candBefore_asymm {a b : SeuCand} (h : candBefore a b = true) : candBefore b a = false := by
  simp only [candBefore, Bool.or_eq_false_iff, Bool.and_eq_false_iff, decide_eq_false_iff_not, Bool.or_eq_true, Bool.and_eq_true,
    decide_eq_true_eq] at *
  omega

theorem mem_insertSeu {a b : SeuCand} {l : List SeuCand} : b ∈ insertSeu a l ↔ b = a ∨ b ∈ l := by
  induction l with
  | nil => simp [insertSeu]
  | cons c l ih =>
    rw [insertSeu]
    split
    · rw [List.mem_cons]
    · rw [List.mem_cons, ih, List.mem_cons, or_left_comm]

/-- Candidates in their order: none stands before one it should follow. -/
def CandsInOrder (l : List SeuCand) : Prop := l.Pairwise fun a b => candBefore b a = false

theorem CandsInOrder.insertSeu {l : List SeuCand} (h : CandsInOrder l) (a : SeuCand) : CandsInOrder (insertSeu a l) := by
  induction l with
  | nil => exact List.pairwise_singleton _ _
  | cons b l ih =>
    obtain ⟨hb, hl⟩ := List.pairwise_cons.1 h
    rw [Machine.insertSeu]
    split
    · next hlt =>
      have hab := candBefore_asymm hlt
      refine List.pairwise_cons.2 ⟨fun c hc => ?_, h⟩
      rcases List.mem_cons.1 hc with rfl | hc
      · exact hab
      · exact candBefore_trans_false hab (hb c hc)
    · next hge =>
      refine List.pairwise_cons.2 ⟨fun c hc => ?_, ih hl⟩
      rcases mem_insertSeu.1 hc with rfl | hc
      · exact Bool.not_eq_true _ ▸ hge
      · exact hb c hc

/-- A query's candidates are at most e, and in order. -/
def Query.Kept (e : Nat) (q : Query) : Prop := q.cands.length ≤ e ∧ CandsInOrder q.cands

theorem State.kept_scanList (s : State) (x : Index) (terms : List (Word × Word)) (e l : Nat) {q : Query} (h : q.Kept e) :
    (s.scanList x terms e l q).Kept e := by
  refine List.foldlRecOn _ _ (motive := Query.Kept e) h fun p hp i _ => ?_
  obtain ⟨hlen, hord⟩ := hp
  dsimp only
  split_ifs
  · exact ⟨hlen, hord⟩
  · exact ⟨hlen, hord⟩
  · exact ⟨List.length_take_le _ _, (hord.insertSeu _).sublist (List.take_sublist _ _)⟩

/-- As many queries as were asked, each with at most e candidates in order. -/
def QueriesKept (n e : Nat) (qs : List Query) : Prop := qs.length = n ∧ ∀ q ∈ qs, q.Kept e

theorem QueriesKept.map_zip {α : Type} {n e : Nat} {qs : List Query} (h : QueriesKept n e qs) {l : List α} (hl : l.length = n)
    {f : Query × α → Query} (hf : ∀ y, y.1.Kept e → (f y).Kept e) : QueriesKept n e ((qs.zip l).map f) := by
  obtain ⟨hlen, hkept⟩ := h
  refine ⟨by simp [hlen, hl], fun q hq => ?_⟩
  obtain ⟨y, hy, rfl⟩ := List.mem_map.1 hq
  exact hf y (hkept _ (List.of_mem_zip hy).1)

theorem State.kept_scanUnion (s : State) (x : Index) (terms : List (Word × Word)) {n e : Nat} {news : List (List Nat)}
    (hnews : news.length = n) (ls : List Nat) {r : List Query × ScanCount} (h : QueriesKept n e r.1) :
    QueriesKept n e (s.scanUnion x terms e news ls r).1 := by
  induction ls generalizing r with
  | nil => exact h
  | cons l ls ih =>
    refine ih (h.map_zip hnews fun y hy => ?_)
    split
    · exact s.kept_scanList x terms e l hy
    · exact hy

theorem State.kept_widenLoop (s : State) (x : Index) (terms : List (Word × Word)) {k e : Nat} (ef top fuel n : Nat)
    {r : List Query × ScanCount} (h : QueriesKept k e r.1) : QueriesKept k e (s.widenLoop x terms e ef top fuel n r).1 := by
  induction fuel generalizing n r with
  | zero => exact h
  | succ fuel ih =>
    rw [State.widenLoop]
    dsimp only
    split
    · exact h
    · have hlen := h.1
      refine ih _ (s.kept_scanUnion x terms (by simp [hlen]) _ (h.map_zip (by simp [hlen]) fun y hy => ?_))
      split <;> exact hy

/-- A search gives each query at most E candidates in their order (R479). -/
theorem State.kept_searchRun (s : State) (x : Index) (t : SearchItem) (terms : List (Word × Word)) :
    QueriesKept t.qn t.e (s.searchRun x t terms).1 := by
  rw [State.searchRun]
  generalize hqs : ((List.range t.qn).map fun q =>
    let row := s.peekRow (t.src + 4 * q * x.dim) x.dim
    let w := s.graphWalk x row t.nprobe t.ef
    (w.1, ({ row := row, sketch := s.querySketchOf x row, seen := w.2 } : Query))) = qs
  have hlen : qs.length = t.qn := by rw [← hqs, List.length_map, List.length_range]
  have hstart : QueriesKept t.qn t.e (qs.map (·.2)) := by
    refine ⟨by rw [List.length_map, hlen], fun q hq => ?_⟩
    rw [← hqs] at hq
    obtain ⟨y, hy, rfl⟩ := List.mem_map.1 hq
    obtain ⟨k, -, rfl⟩ := List.mem_map.1 hy
    exact ⟨Nat.zero_le _, List.Pairwise.nil⟩
  have hscan : QueriesKept t.qn t.e (s.scanNew x terms t.e (qs.map (·.2), {}) (qs.map (·.1))).1 :=
    s.kept_scanUnion x terms (by rw [List.length_map, hlen]) _ hstart
  split
  · exact hscan
  · exact s.kept_widenLoop x terms _ _ _ _ hscan

end Sys2Proof.Machine
end

section
/-! ### Searches, list publication and graph edits (R467 to R485) -/

namespace Sys2Proof.Machine

open Sys2Proof

/-! ### SEARCH -/

theorem SeuFails.of_searchFail {s : State} {c : Instr} {i : Item} {code err : Nat} (h : exec c s = .next (s.searchFail i code err)) :
    SeuFails s s c i code err := by
  obtain ⟨hregs, hhq, htly, hhmp⟩ := s.undefState_keeps (SearchItem.ofItem i).dst
    (searchBytes (SearchItem.ofItem i) (s.index (SearchItem.ofItem i).slot).dim)
  exact .of_seuFail h ⟨by rw [hhq], State.reg_of_regs hregs _, htly⟩ hhmp

/-- The counters of a search, and its completion. -/
def State.searchEnd (s : State) (i : Item) (t : SearchItem) (r : List Query × ScanCount) : State :=
  let short := (r.1.filter fun q => q.passed < t.e).length
  let wide := (r.1.filter fun q => q.widened).length
  let s := ((s.bumpBy (Reg.seuCnt 0) t.qn).bumpBy (Reg.seuCnt 1) r.2.scans).bumpBy (Reg.seuCnt 2) r.2.saved
  ((s.bumpBy (Reg.seuCnt 3) wide).bumpBy (Reg.seuCnt 4) short).seuDone i 0 t.qn short wide 0 noIndex

theorem offQueues_seuCnt {n : Nat} (hn : n < 16) : OffQueues (Reg.seuCnt n) := by
  unfold OffQueues Reg.seuCnt
  omega

theorem State.searchEnd_keeps (s : State) (i : Item) (t : SearchItem) (r : List Query × ScanCount) :
    (s.searchEnd i t r).mem = s.mem ∧ (s.searchEnd i t r).hmp = s.hmp ∧
      (s.searchEnd i t r).reg (Reg.seuCnt 0) = s.reg (Reg.seuCnt 0) + BitVec.ofNat 64 t.qn ∧
      (s.searchEnd i t r).reg (Reg.seuCnt 1) = s.reg (Reg.seuCnt 1) + BitVec.ofNat 64 r.2.scans ∧
      Posts s (s.searchEnd i t r) (bits i.w6 40 32) (seuAnswer i 0 t.qn (r.1.filter fun q => q.passed < t.e).length
        (r.1.filter fun q => q.widened).length 0 noIndex) (bits i.w6 11 0) := by
  have hq : bits i.w6 40 32 < 512 := bits_lt i.w6 40 32
  have hbump (u : State) (k n : Nat) (hk : k / 65536 ≠ 16) : u.SamePort (u.bumpBy k n) (bits i.w6 40 32) := .bumpBy u hk hq n
  unfold State.searchEnd
  dsimp only
  generalize (r.1.filter fun q => q.passed < t.e).length = short
  generalize (r.1.filter fun q => q.widened).length = wide
  generalize hu : ((((s.bumpBy (Reg.seuCnt 0) t.qn).bumpBy (Reg.seuCnt 1) r.2.scans).bumpBy (Reg.seuCnt 2) r.2.saved).bumpBy
    (Reg.seuCnt 3) wide).bumpBy (Reg.seuCnt 4) short = u
  obtain ⟨hmem, hhmp, -⟩ := u.seuDone_keeps i 0 t.qn short wide 0 noIndex
  have hport : s.SamePort u (bits i.w6 40 32) := by
    rw [← hu]
    exact (((((hbump _ _ _ (by decide)).trans (hbump _ _ _ (by decide))).trans (hbump _ _ _ (by decide))).trans
      (hbump _ _ _ (by decide))).trans (hbump _ _ _ (by decide)))
  refine ⟨hmem.trans ?_, hhmp.trans ?_, ?_, ?_, .of_samePort hport (u.seuDone_posts ..)⟩
  · rw [← hu]; rfl
  · rw [← hu]; rfl
  · rw [State.reg_seuDone _ _ _ _ _ _ _ (offQueues_seuCnt (by decide)), ← hu, State.reg_bumpBy_other _ _ _ _ (by decide),
      State.reg_bumpBy_other _ _ _ _ (by decide), State.reg_bumpBy_other _ _ _ _ (by decide),
      State.reg_bumpBy_other _ _ _ _ (by decide), State.reg_bumpBy_same]
  · rw [State.reg_seuDone _ _ _ _ _ _ _ (offQueues_seuCnt (by decide)), ← hu, State.reg_bumpBy_other _ _ _ _ (by decide),
      State.reg_bumpBy_other _ _ _ _ (by decide), State.reg_bumpBy_other _ _ _ _ (by decide), State.reg_bumpBy_same,
      State.reg_bumpBy_other _ _ _ _ (by decide)]

theorem State.searchOut_of_done {s y : State} {i : Item} {t : SearchItem} {x : Index} {r : List Query × ScanCount}
    (h : s.seuWrite ((t.dst, r.1.flatMap (s.queryRecord x t.e)) ::
      if t.rerank then [(t.dst + up128 (t.qn * (16 + 16 * t.e)), r.1.flatMap (s.gatherRows x t.e))] else []) = .done y) :
    s.searchOut i t x r = y.searchEnd i t r := by
  unfold State.searchOut
  dsimp only
  rw [h]
  rfl

theorem does_search {s : State} {i : Item} (h : SeuRuns s i 0) :
    let t := SearchItem.ofItem i
    let x := s.index t.slot
    (t.terms ≤ 8 → x.valid = false → SeuFails s s (.search i) i Code.seuIndex noIndex) ∧
    (∀ u w y, t.terms ≤ 8 → x.valid = true →
      readAll ((t.filter, 16 * t.terms, noIndex) :: (x.params, 8 * x.dim, noIndex) ::
        (List.range t.qn).map fun q => (t.src + 4 * q * x.dim, 4 * x.dim, q)) s = (none, u) →
      let terms := (List.range t.terms).map fun j => (u.tabWord (t.filter + 16 * j), u.tabWord (t.filter + 16 * j + 8))
      let r := u.searchRun x t terms
      terms.all termOk = true → terms.getLast?.any (fun v => bit v.1 48) = false →
      readAll (u.searchReads x t r.1) u = (none, w) →
      w.seuWrite ((t.dst, r.1.flatMap (w.queryRecord x t.e)) ::
        if t.rerank then [(t.dst + up128 (t.qn * (16 + 16 * t.e)), r.1.flatMap (w.gatherRows x t.e))] else []) = .done y →
      exec (.search i) s = .next (y.searchEnd i t r)) := by
  dsimp only
  refine ⟨fun hterms hvalid => .of_searchFail ?_, fun u w y hterms hvalid hread hok hlast hreads hwrite => ?_⟩
  · show execSearch i s = _
    rw [execSearch, h.runs]
    refine congrArg Host.Outcome.next ((if_neg (Nat.not_lt.2 hterms)).trans (if_pos ?_))
    rw [hvalid]
    rfl
  · have hgood : ¬((!((List.range (SearchItem.ofItem i).terms).map fun j => (u.tabWord ((SearchItem.ofItem i).filter + 16 * j),
        u.tabWord ((SearchItem.ofItem i).filter + 16 * j + 8))).all termOk) ||
        (((List.range (SearchItem.ofItem i).terms).map fun j => (u.tabWord ((SearchItem.ofItem i).filter + 16 * j),
          u.tabWord ((SearchItem.ofItem i).filter + 16 * j + 8))).getLast?.any fun v => bit v.1 48)) = true := by
      rw [hok, hlast]
      decide
    show execSearch i s = _
    rw [execSearch, h.runs]
    dsimp only
    rw [if_neg (Nat.not_lt.2 hterms), hvalid, hread]
    dsimp only
    rw [if_neg hgood, hreads]
    refine congrArg Host.Outcome.next (Eq.trans (if_neg ?_) (State.searchOut_of_done hwrite))
    decide

/-! ### Accesses leave the publishes that wait (R483) -/

theorem State.iff_seu {s : State} {f : State → State} (h : (f s).seu = s.seu) (b : Bool) : (s.iff b f).seu = s.seu := by
  cases b
  · rfl
  · exact h

theorem State.endSpanReq_seu (s : State) (r : SpanReq) : (s.endSpanReq r).seu = s.seu := by
  have hmerge (u : State) (cmd ringPos : Nat) (m : SMap Outcome1) (base : Nat → Nat) : (u.mergeSpan cmd ringPos m base).seu = u.seu := by
    unfold State.mergeSpan
    dsimp only
    split
    · rfl
    · split
      · simp only [State.complete_frame, State.noteReport_frame]
      · rfl
  unfold State.endSpanReq
  dsimp only
  split
  · simp only [State.postResult, State.post_frame, State.noteReport_frame]
  · rw [hmerge]
  · rfl
  · rfl

theorem State.spanFerries_seu (s : State) (id : Nat) (pages : SMap Outcome1) : (s.spanFerries id pages).seu = s.seu := by
  unfold State.spanFerries
  split
  · rfl
  · next r _ =>
    obtain ⟨g, k, hfold⟩ := refreshRes_fold_keeps r.slot (((List.range r.count).map (r.first + ·)).filter fun n =>
      (SMap.lookup r.results n).isNone) s
    rw [State.endSpanReq_seu, hfold]

theorem State.reviveShare_seu (s : State) (slot : Nat) (pages : SMap Outcome1) : (s.reviveShare slot pages).seu = s.seu := by
  obtain ⟨g, k, hfold⟩ := refreshRes_fold_keeps slot (List.range (s.hdr slot).spans) s
  unfold State.reviveShare
  dsimp only
  rw [hfold]
  split_ifs
  · split <;> rfl
  · rfl
  all_goals simp only [State.send_frame, State.setHState, State.setDir]

theorem writeListPages_seu (n p : Nat) (ws : List Word) (s : State) : (writeListPages n p ws s).seu = s.seu := by
  induction n generalizing p ws s with
  | zero => rfl
  | succ n ih => exact ih _ _ _

theorem State.pushTransfer_seu (s : State) (slot peer : Nat) (target : Word) : (s.pushTransfer slot peer target).seu = s.seu := by
  have hstamp (u : State) (k : Nat) (it : Item) : (u.stamp k it).2.seu = u.seu := rfl
  generalize hpush : s.pushTransfer slot peer target = t
  rw [State.pushTransfer] at hpush
  generalize (s.dir slot).header :: (s.dataPages slot).map (fun p => 65536 * p) = list at hpush
  generalize ceilDiv (8 * list.length) 65536 = k at hpush
  split at hpush
  · next u hu =>
    obtain ⟨x, m, rfl⟩ := mapRun_keeps hu
    have hlist := writeListPages_seu k s.tsm.nextVa (list.map fun a => BitVec.ofNat 64 a) { s with tsm := x, mem := m }
    generalize writeListPages k s.tsm.nextVa _ _ = v at hlist hpush
    dsimp only at hpush
    have hnext := hstamp v
    subst hpush
    simp only [State.hwPush_frame, hnext, hlist]
  · subst hpush
    rfl

theorem State.endFerry_seu (s : State) (r : FerryReq) : (s.endFerry r).seu = s.seu := by
  unfold State.endFerry
  dsimp only
  split
  · simp only [State.postResult, State.post_frame, State.noteReport_frame]
  · simp only [State.complete_frame, State.noteReport_frame]
  · rw [State.spanFerries_seu]
  · rw [State.reviveShare_seu]
  · split
    · rfl
    · rw [State.pushTransfer_seu]
  · rw [State.iff_seu rfl]
    split
    · rw [State.refreshRes, State.iff_seu rfl]
    · rfl
  · split <;> rfl
  · rfl

theorem State.dropClaim_seu (s : State) (p : Nat) (o : Outcome1) (poison : Bool) : (s.dropClaim p o poison).seu = s.seu := by
  have hpage (u : State) (id : Nat) : (u.endPage id p o).seu = u.seu := by
    have hbump : (u.iff (isAbandoned o) fun s => s.bump (Reg.tsmCnt 5)).seu = u.seu := State.iff_seu rfl _
    unfold State.endPage
    dsimp only
    split
    · exact hbump
    · split
      · rw [State.endFerry_seu, hbump]
      · exact hbump
  unfold State.dropClaim
  split
  · rfl
  · dsimp only
    rw [hpage]
    split
    · rfl
    · unfold State.giveBack
      split <;> rfl

theorem State.intent_seu (s : State) (cache p : Nat) : (s.intent cache p).seu = s.seu := by
  have hcopy (u : State) : (u.askCopy p).seu = u.seu := by
    unfold State.askCopy
    split <;> rfl
  have hfill (u : State) : (u.fillTlb cache p).seu = u.seu := State.iff_seu rfl _
  have hprotected (u : State) : (if (u.leaf p).wp then u.askCopy p else u.fillTlb cache p).seu = u.seu := by
    split
    · exact hcopy u
    · exact hfill u
  unfold State.intent
  dsimp only
  rw [hprotected]
  split
  · exact s.dropClaim_seu _ _ _
  · rfl

theorem State.translate_seu (s : State) (cache addr : Nat) (write data : Bool) : (s.translate cache addr write data).2.seu = s.seu := by
  have htouch (u : State) (p : Nat) : (u.touch p).seu = u.seu := State.iff_seu rfl _
  unfold State.translate
  split
  · rfl
  · dsimp only
    split
    · exact htouch _ _
    · split
      · rfl
      · next l u hfilled =>
        have hu : u.seu = s.seu := by
          split at hfilled
          · cases hfilled
            rfl
          · split at hfilled
            · cases hfilled
            · cases hfilled
              rfl
        have hwrite : (if write = true then (u.touch (addr / 65536)).dropAhead (addr / 65536) else u.touch (addr / 65536)).seu =
            s.seu := by
          split <;> exact (htouch _ _).trans hu
        split
        · rw [State.intent_seu, hwrite]
        · exact hwrite

theorem readPieces_seu (cache : Nat) (ps : List (Nat × Nat × Nat)) (s : State) : (readPieces cache ps s).2.seu = s.seu := by
  induction ps generalizing s with
  | nil => rfl
  | cons p ps ih =>
    obtain ⟨a, off, n⟩ := p
    have htr := s.translate_seu cache a false true
    unfold readPieces
    split
    · next e => rwa [e] at htr
    · next e => rwa [e] at htr
    · next t loc u e =>
      rw [e] at htr
      have hrest : (readPieces cache ps (u.countPool t false n)).2.seu = s.seu :=
        (ih _).trans ((State.iff_seu rfl _).trans htr)
      dsimp only
      split
      · exact htr
      · split
        · exact htr
        · split
          · next e' => rwa [e'] at hrest
          · exact hrest

theorem readAll_seu (rs : List (Nat × Nat × Nat)) (s : State) : (readAll rs s).2.seu = s.seu := by
  induction rs generalizing s with
  | nil => rfl
  | cons r rs ih =>
    obtain ⟨a, n, err⟩ := r
    have hget : (s.getBytes seuCache a n).2.seu = s.seu := by
      unfold State.getBytes
      split
      · rfl
      · exact readPieces_seu _ _ _
    unfold readAll
    split
    · next e => rwa [e] at hget
    · next e =>
      rw [e] at hget
      exact (ih _).trans hget

/-- The state a move leaves, however it ended. -/
def Moved.state : Moved → State
  | .done s => s
  | .wait s => s
  | .fault _ s => s

theorem claimWrites_seu (ps : List (Nat × Nat × Nat)) (s : State) : (claimWrites ps s).state.seu = s.seu := by
  induction ps generalizing s with
  | nil => rfl
  | cons p ps ih =>
    obtain ⟨a, off, n⟩ := p
    have htr := s.translate_seu seuCache a true true
    unfold claimWrites
    split
    · next e => rwa [e] at htr
    · next e => rwa [e] at htr
    · next e =>
      rw [e] at htr
      exact (ih _).trans htr

theorem writePieces_seu (cache : Nat) (bs : List Byte) (ps : List (Nat × Nat × Nat)) (s : State) :
    (writePieces cache bs ps s).state.seu = s.seu := by
  induction ps generalizing s with
  | nil => rfl
  | cons p ps ih =>
    obtain ⟨a, off, n⟩ := p
    have htr := s.translate_seu cache a true true
    have hpart (u : State) (t : Tier) (o k : Nat) : (u.partWrite t o k).seu = u.seu := by
      unfold State.partWrite
      dsimp only
      split <;> rfl
    have hmend (u : State) : (u.mend a n).seu = u.seu := by
      unfold State.mend
      split <;> rfl
    have hput (u : State) (d : List Byte) (t : Tier) (loc : Nat) : (if u.tabled (a / 65536) then u.setVbytes a d
        else u.writeBytes (homeAddr t loc (a % 65536)) d).seu = u.seu := by
      split
      · obtain ⟨_, _, _, _, _, _, _, _, heq⟩ := u.tablesOnly_setVbytes a d
        rw [heq]
      · rfl
    unfold writePieces
    split
    · next e => rwa [e] at htr
    · next e => rwa [e] at htr
    · next t loc u e =>
      rw [e] at htr
      dsimp only
      split
      · exact htr
      · split
        · exact htr
        · rw [ih, hpart, State.countPool, State.iff_seu rfl, hmend, hput]
          exact htr

theorem State.seuWrite_seu {s y : State} {ws : List (Nat × List Byte)} (h : s.seuWrite ws = .done y) : y.seu = s.seu := by
  have hclaim := claimWrites_seu (ws.flatMap fun w => if w.2.isEmpty then [] else pagePieces w.1 w.2.length) s
  unfold State.seuWrite at h
  split at h
  · next u e =>
    rw [e] at hclaim
    obtain rfl := Moved.done.inj h
    refine (List.foldlRecOn ws _ (motive := fun v : State => v.seu = u.seu) rfl fun v hv w _ => ?_).trans hclaim
    have hput : (v.putBytes seuCache w.1 w.2).state.seu = v.seu := by
      unfold State.putBytes
      split
      · rfl
      · exact writePieces_seu _ _ _ _
    refine Eq.trans ?_ hv
    split <;> next e' => rwa [e'] at hput
  · next hno => exact absurd h (hno y)

/-! ### LIST_PUBLISH and GRAPH_EDIT -/

theorem ignored_listPublish {s : State} {i : Item} (h : SeuRuns s i 1) (hwait : s.publishWaits i = true) :
    Ignored (.listPublish i) s := by
  show execListPublish i s = _
  rw [execListPublish, h.runs]
  exact congrArg Host.Outcome.next (if_pos hwait)

section edits

variable {s : State} {i : Item} (hobj : pubObject i < 64) (hvalid : (s.index (pubObject i)).valid = true)

include hobj hvalid

theorem does_listPublish (h : SeuRuns s i 1) (hwait : s.publishWaits i = false) :
    let x := s.index (pubObject i)
    (x.lists ≤ pubNumber i → SeuFails s s (.listPublish i) i Code.seuRange noIndex) ∧
      (∀ u, pubNumber i < x.lists → readAll [(x.listDir + 16 * pubNumber i, 16, noIndex)] s = (none, u) →
        (newer (u.listVersion x (pubNumber i)) (pubVersion i) = false → SeuFails s u (.listPublish i) i Code.seuVersion noIndex) ∧
        (∀ y, newer (u.listVersion x (pubNumber i)) (pubVersion i) = true →
          u.seuWrite [(x.listDir + 16 * pubNumber i, leBytes i.w3.toNat 8 ++ leBytes i.w4.toNat 8)] = .done y →
          Does (.listPublish i) s fun z => z.mem = y.mem ∧ z.hq.queues = y.hq.queues ∧
            z.seu.lists = s.seu.lists ++ [(i, BitVec.ofNat 64 (u.listBase x (pubNumber i)))])) := by
  have hexec : exec (.listPublish i) s = execListPublish i s := rfl
  rw [execListPublish, h.runs] at hexec
  dsimp only at hexec ⊢
  rw [if_neg (by rw [hwait]; decide), if_neg (Nat.not_le.2 hobj), if_neg (by rw [hvalid]; decide)] at hexec
  generalize s.index (pubObject i) = x at hexec ⊢
  refine ⟨fun hrange => ?_, fun u hrange hread => ?_⟩
  · rw [if_pos hrange] at hexec
    exact .here hexec
  · rw [if_neg (Nat.not_le.2 hrange), hread] at hexec
    dsimp only at hexec
    refine ⟨fun hold => ?_, fun y hnew hwrite => ?_⟩
    · rw [if_pos (by rw [hold]; decide)] at hexec
      exact .here hexec
    · rw [if_neg (by rw [hnew]; decide), hwrite] at hexec
      have hseu : y.seu = s.seu := by
        rw [State.seuWrite_seu hwrite, ← readAll_seu [(x.listDir + 16 * pubNumber i, 16, noIndex)] s, hread]
      exact ⟨_, hexec, rfl, rfl, congrArg (fun e => e.lists ++ [(i, BitVec.ofNat 64 (u.listBase x (pubNumber i)))]) hseu⟩

theorem does_graphEdit (h : SeuRuns s i 2) {u : State} (hread : readAll [(i.w5.toNat, 256, noIndex)] s = (none, u)) :
    let x := s.index (pubObject i)
    let bs := u.tabBytes i.w5.toNat 256
    let deg := bits (bytesWord bs) 37 32
    let good := deg ≤ x.maxDeg ∧ ∀ k < deg, leWord ((bs.drop (8 + 4 * k)).take 4) < x.lists
    (¬good → SeuFails s u (.graphEdit i) i Code.invalidField noIndex) ∧
      (good → x.lists ≤ pubNumber i → SeuFails s u (.graphEdit i) i Code.seuRange noIndex) ∧
      (∀ y, good → pubNumber i < x.lists → u.seuWrite [(x.graph + 256 * pubNumber i, bs)] = .done y →
        Does (.graphEdit i) s fun z => z.mem = y.mem ∧ z.seu.lists = y.seu.lists ∧ z.seu.tables = y.seu.tables ∧
          z.seu.store = y.seu.store ∧
          Posts y z (bits i.w6 40 32) (seuAnswer i 0 0 0 0 0 noIndex) (bits i.w6 11 0)) := by
  have hexec : exec (.graphEdit i) s = execGraphEdit i s := rfl
  rw [execGraphEdit, h.runs] at hexec
  dsimp only at hexec ⊢
  rw [if_neg (Nat.not_le.2 hobj), if_neg (by rw [hvalid]; decide), hread] at hexec
  dsimp only at hexec
  generalize s.index (pubObject i) = x at hexec ⊢
  generalize u.tabBytes i.w5.toNat 256 = bs at hexec ⊢
  generalize bits (bytesWord bs) 37 32 = deg at hexec ⊢
  have hbad : (decide (x.maxDeg < deg) || (List.range deg).any fun k => decide (x.lists ≤ leWord ((bs.drop (8 + 4 * k)).take 4))) = true ↔
      ¬(deg ≤ x.maxDeg ∧ ∀ k < deg, leWord ((bs.drop (8 + 4 * k)).take 4) < x.lists) := by
    simp only [Bool.or_eq_true, decide_eq_true_eq, List.any_eq_true, List.mem_range, not_and_or, not_le, not_forall, not_lt,
      exists_prop]
  refine ⟨fun hno => ?_, fun hgood hrange => ?_, fun y hgood hrange hwrite => ?_⟩
  · rw [if_pos (hbad.2 hno)] at hexec
    exact .here hexec
  · rw [if_neg (mt hbad.1 (not_not.2 hgood)), if_pos hrange] at hexec
    exact .here hexec
  · rw [if_neg (mt hbad.1 (not_not.2 hgood)), if_neg (Nat.not_le.2 hrange), hwrite] at hexec
    obtain ⟨hmem, -, hseu⟩ := y.seuDone_keeps i 0 0 0 0 0 noIndex
    exact ⟨y.seuDone i 0 0 0 0 0 noIndex, hexec, hmem, (congrArg Seu.lists hseu :), (congrArg Seu.tables hseu :),
      (congrArg Seu.store hseu :), y.seuDone_posts ..⟩

end edits

theorem does_listPublishComplete {s : State} {i : Item} {old : Word} {l : List (Item × Word)} (hl : s.live = true)
    (hu : s.unitFailed 6 = false) (hlists : s.seu.lists = (i, old) :: l) : Does .listPublishComplete s fun z =>
      z.seu.lists = l ∧ z.reg (Reg.seuCnt 11) = s.reg (Reg.seuCnt 11) + 1 ∧ z.mem = s.mem ∧
      Posts s z (bits i.w6 40 32) (seuAnswer i 0 0 0 0 old noIndex) (bits i.w6 11 0) := by
  have hexec : exec .listPublishComplete s =
      .next (({ s with seu.lists := l }.bump (Reg.seuCnt 11)).seuDone i 0 0 0 0 old noIndex) := by
    show execListPublishComplete s = _
    rw [execListPublishComplete, seuGate, gate_live hl, if_neg (by rw [hu]; decide), hlists]
  have hport : s.SamePort ({ s with seu.lists := l }.bump (Reg.seuCnt 11)) (bits i.w6 40 32) :=
    .trans (u := { s with seu.lists := l }) ⟨rfl, rfl, rfl⟩ (.bumpBy _ (by decide) (bits_lt i.w6 40 32) 1)
  obtain ⟨hmem, -, hseu⟩ := ({ s with seu.lists := l }.bump (Reg.seuCnt 11)).seuDone_keeps i 0 0 0 0 old noIndex
  refine ⟨_, hexec, congrArg Seu.lists hseu, ?_, hmem, .of_samePort hport (State.seuDone_posts ..)⟩
  rw [State.reg_seuDone _ _ _ _ _ _ _ (offQueues_seuCnt (by decide)), State.reg_bump_same]
  rfl

/-- Settles O37: an item's checks in order, then each operation by the state its reads and its write leave. -/
theorem searchesAndEdits : Obligations.SearchesAndEdits := by
  intro s i hl
  refine ⟨fun x hx hop => seuItem_fails hx hl hop, fun h => ?_, fun hobj hvalid => ⟨?_, ?_, ?_⟩, ?_⟩
  · obtain ⟨hindex, hsearch⟩ := does_search h
    refine ⟨hindex, fun u w y hterms hvalid hread hok hlast hreads hwrite => ?_⟩
    obtain ⟨hlen, hkept⟩ := u.kept_searchRun _ (SearchItem.ofItem i) _
    exact ⟨hlen, hkept, _, hsearch u w y hterms hvalid hread hok hlast hreads hwrite, y.searchEnd_keeps ..⟩
  · exact ignored_listPublish
  · exact does_listPublish hobj hvalid
  · exact fun h u hread => does_graphEdit hobj hvalid h hread
  · exact fun old l hu hlists => does_listPublishComplete hl hu hlists

end Sys2Proof.Machine
end

section
/-! ### Messages sent again, with a MODEL outside the register file (R144, R156, R541, R542) -/

namespace Sys2Proof.Machine

open Sys2Proof

/-- Two messages wait for their acknowledgement from peer 0, whose entry in the peer table, on page 2, has the address 1. The model
of hamper 0, whose span table fills page 1, has NET.CNT2 as its geometry register. -/
def strayPeer : State :=
  { strayModel with
    regs := [(Reg.netCnt 2, fld 39 36 1 ||| fld 27 0 (2 ^ 28 - 1)), (Reg.netPort 0, fld 63 63 1), (Reg.netRoce, fld 35 0 2)]
    hmp.dir := [(0, { model := Reg.netCnt 2 - Reg.kvsGeometry 0 })]
    net.qps := [(0, { unacked := [(1, .nak), (1, .nak)] })]
    mem := [(dramAddr 0 0, 1)] }

/-- Refutes O53: the statement takes every state, also one whose hamper names a model outside the register file. There the count of
the first frame sent again gives the model a layer, so that the side array comes to fill page 2: the second frame goes to an address
read from a side record. -/
theorem not_queuePairs : ¬ Obligations.QueuePairs := by
  intro h
  obtain ⟨-, -, -, hresend, -⟩ := h strayPeer 0 (by decide) (by decide) (by decide)
  obtain ⟨t, ht, -, -, -, hout⟩ := hresend (by decide) (by decide) (by decide)
  have hpeer : strayPeer.peerEntry 0 = [1, 0, 0, 0] := by decide
  have hread : readAfter (.roceAckTimeout 0) strayPeer (fun t => t.out) =
      some [.net 0 (.roce 0 [1, 0, 0, 0] .nak), .net 0 (.roce 0 [0, 0, 0, 0] .nak)] := by decide
  rw [readAfter_of_next ht, hout 0 (by decide), hpeer] at hread
  exact absurd (Option.some.inj hread) (by decide)

end Sys2Proof.Machine
end

section
/-! ### The management endpoint (R590, R715, R725 to R731, R735, R737) -/

namespace Sys2Proof.Machine

open Sys2Proof

/-! #### What a management command does -/

theorem ignored_of_mgmt {c : Instr} {s t : State} (hc : exec c s = .next (if s.answers then t else s)) (ha : s.answers = false) :
    Ignored c s :=
  hc.trans (congrArg Host.Outcome.next (if_neg (by simp [ha])))

theorem does_of_mgmt {c : Instr} {s t : State} {P : State → Prop} (hc : exec c s = .next (if s.answers then t else s))
    (ha : s.answers = true) (h : P t) : Does c s P :=
  ⟨t, hc.trans (congrArg Host.Outcome.next (if_pos ha)), h⟩

theorem does_as_mgmt {c : Instr} {s u t : State} {P : State → Prop} (hc : exec c s = .next (if s.answers then u else s))
    (ha : s.answers = true) (hu : u = t) (h : P t) : Does c s P :=
  does_of_mgmt hc ha (hu ▸ h)

theorem replies_of_mgmt {c : Instr} {s t : State} {code : Nat} {ws : List Word}
    (hc : exec c s = .next (if s.answers then t else s)) (ha : s.answers = true) (h : t = s.respond code ws) : Replies c s code ws :=
  does_of_mgmt hc ha h

/-! #### Control, terminus and types -/

theorem mctpControl_unsupported {s : State} (ha : s.answers = true) {c : Nat} (a : Nat) (hc : c = 0 ∨ 5 < c) :
    Replies (.mctpControl c a) s 5 [] := by
  refine replies_of_mgmt rfl ha ?_
  match c, hc with
  | 0, _ => rfl
  | _ + 6, _ => rfl

theorem setTid_reserved {s : State} (ha : s.answers = true) {v : BitVec 8} (h : v = 0 ∨ v = 0xFF) : Replies (.setTid v) s 2 [] :=
  replies_of_mgmt rfl ha (by exact if_pos (by simpa using h))

theorem setTid_sets {s : State} (ha : s.answers = true) {v : BitVec 8} (h0 : v ≠ 0) (h1 : v ≠ 0xFF) :
    Does (.setTid v) s fun t => t = { s with plat.tid := v.toNat }.respond 0 [] :=
  does_of_mgmt rfl ha (by exact if_neg (by simpa using ⟨h0, h1⟩))

theorem pldmType_known {s : State} (ha : s.answers = true) {k : Nat} (h : k ∈ pldmTypes) :
    Replies (.getPldmVersion k) s 0 [nat64 k] ∧ Replies (.getPldmCommands k) s 0 ((pldmCommands k).map nat64) :=
  have hk : pldmTypes.contains k = true := by simpa using h
  ⟨replies_of_mgmt rfl ha (by exact if_pos hk), replies_of_mgmt rfl ha (by exact if_pos hk)⟩

theorem pldmType_unknown {s : State} (ha : s.answers = true) {k : Nat} (h : k ∉ pldmTypes) :
    Replies (.getPldmVersion k) s 0x83 [] ∧ Replies (.getPldmCommands k) s 0x83 [] :=
  have hk : ¬ pldmTypes.contains k = true := by simpa using h
  ⟨replies_of_mgmt rfl ha (by exact if_neg hk), replies_of_mgmt rfl ha (by exact if_neg hk)⟩

theorem pldmCommands_ne_nil {k : Nat} (h : k ∈ pldmTypes) : pldmCommands k ≠ [] := by
  simp only [pldmTypes, List.mem_cons, List.not_mem_nil, or_false] at h
  rcases h with rfl | rfl | rfl | rfl <;> decide

/-! #### Sensors, the effecter and charging records -/

theorem State.sensor_register {s : State} {i : Nat} (h : i < 17) : s.sensor i = s.reg (Reg.pltSensor i) := by
  have h1 : ¬ (decide (17 ≤ i) && decide (i ≤ 20)) = true := by simp; omega
  rw [State.sensor, if_neg h1, if_neg (by omega), if_neg (by omega)]

theorem State.sensor_live {s : State} {n : Nat} (h : 18 ≤ n) (h' : n ≤ 23) :
    s.sensor (n - 1) = if n ≤ 21 then nat64 (s.field (Reg.seqStatus (n - 18)) 7 4) else if n = 22 then nat64 s.plat.stage
      else nat64 s.host.fatalCode := by
  have hsub : n - 1 - 17 = n - 18 := by omega
  by_cases h21 : n ≤ 21
  · have h1 : (decide (17 ≤ n - 1) && decide (n - 1 ≤ 20)) = true := by simp; omega
    rw [State.sensor, if_pos h1, if_pos h21, hsub]
  · have h1 : ¬ (decide (17 ≤ n - 1) && decide (n - 1 ≤ 20)) = true := by simp; omega
    rw [State.sensor, if_neg h1, if_neg h21]
    by_cases h22 : n = 22
    · rw [if_pos (by omega), if_pos h22]
    · rw [if_neg (by omega), if_pos (by omega), if_neg h22]

theorem getSensorReading_described {s : State} (ha : s.answers = true) {n : Nat} (h : 1 ≤ n) (h' : n ≤ 23) :
    Replies (.getSensorReading n) s 0 [s.sensor (n - 1)] :=
  replies_of_mgmt rfl ha (by exact if_pos (by simp [h, h']))

theorem getStateSensorReadings_described {s : State} (ha : s.answers = true) {n : Nat} (h : 18 ≤ n) (h' : n ≤ 23) :
    Replies (.getStateSensorReadings n) s 0 [s.sensor (n - 1)] :=
  replies_of_mgmt rfl ha (by exact if_pos (by simp [h, h']))

theorem sensor_unknown {s : State} (ha : s.answers = true) {n : Nat} (h : n = 0 ∨ 23 < n) :
    Replies (.getSensorReading n) s 0x80 [] ∧ Replies (.getStateSensorReadings n) s 0x80 [] :=
  ⟨replies_of_mgmt rfl ha (by exact if_neg (by simp; omega)), replies_of_mgmt rfl ha (by exact if_neg (by simp; omega))⟩

theorem getPdr_described {s : State} (ha : s.answers = true) {n : Nat} (h : 1 ≤ n ∧ n ≤ 24) :
    Replies (.getPdr n) s 0 [nat64 n] :=
  replies_of_mgmt rfl ha (by exact if_pos (by simpa using h))

theorem getPdr_unknown {s : State} (ha : s.answers = true) {n : Nat} (h : n = 0 ∨ 24 < n) : Replies (.getPdr n) s 0x82 [] :=
  replies_of_mgmt rfl ha (by exact if_neg (by simp; omega))

/-- CAP_W takes a value of at least 600. -/
theorem setEffecter_cap {s : State} (ha : s.answers = true) {v : BitVec 16} (h : 600 ≤ v.toNat) :
    Does (.setNumericEffecterValue 1 v) s fun t =>
      t.field Reg.pltGov 15 0 = v.toNat ∧ (∀ k, k ≠ Reg.pltGov → t.reg k = s.reg k) ∧ t.mem = s.mem ∧
      t.out = s.out ++ [.mgmt s.staticAddress [0]] := by
  refine does_as_mgmt (t := (s.setField Reg.pltGov 15 0 v.toNat).respond 0 []) rfl ha
    (by exact (if_neg (by simp)).trans (if_neg (by omega)))
    ⟨?_, fun k hk => s.reg_setReg_other _ _ _ hk, rfl, rfl⟩
  exact (s.field_setField_same Reg.pltGov 15 0 _ (by decide) (by decide)).trans (Nat.mod_eq_of_lt v.isLt)

theorem setEffecter_low {s : State} (ha : s.answers = true) {v : BitVec 16} (h : v.toNat < 600) :
    Replies (.setNumericEffecterValue 1 v) s 2 [] :=
  replies_of_mgmt rfl ha (by exact (if_neg (by simp)).trans (if_pos h))

theorem effecter_unknown {s : State} (ha : s.answers = true) {e : Nat} (v : BitVec 16) (h : e ≠ 1) :
    Replies (.setNumericEffecterValue e v) s 0x80 [] ∧ Replies (.getNumericEffecterValue e) s 0x80 [] :=
  ⟨replies_of_mgmt rfl ha (by exact if_pos h), replies_of_mgmt rfl ha (by exact if_neg h)⟩

theorem getFirmwareParameters_versions {s : State} (ha : s.answers = true) :
    Replies .getFirmwareParameters s 0 [nat64 (fwVersion (s.bank s.plat.activeBank).control).toNat,
      ((s.plat.tryBank.map fun b => nat64 (fwVersion (s.bank b).control).toNat).getD 0)] := by
  refine replies_of_mgmt rfl ha ?_
  beta_reduce
  cases s.plat.tryBank <;> rfl

/-- Settles O55: a reply is a value of the state, a SET command changes the one value it names, and any other number or value is
answered with its error. -/
theorem managementReads : Obligations.ManagementReads := by
  intro s
  constructor
  · intro ha c hc
    simp only [List.mem_cons, List.not_mem_nil, or_false] at hc
    rcases hc with rfl | rfl | rfl | rfl | rfl | rfl | rfl | rfl | rfl <;> exact ignored_of_mgmt rfl ha
  intro ha
  refine ⟨fun _ => does_of_mgmt rfl ha rfl, fun _ => replies_of_mgmt rfl ha rfl, fun _ => replies_of_mgmt rfl ha rfl,
    fun _ a hc => mctpControl_unsupported ha a hc, replies_of_mgmt rfl ha rfl, fun _ h => setTid_reserved ha h,
    fun _ h0 h1 => setTid_sets ha h0 h1, replies_of_mgmt rfl ha rfl,
    fun k hk => ⟨(pldmType_known ha hk).1, _, by simpa using pldmCommands_ne_nil hk, (pldmType_known ha hk).2⟩,
    fun k hk => pldmType_unknown ha hk, fun n => ⟨fun h => getPdr_described ha h, fun h => getPdr_unknown ha h⟩, ?_, ?_,
    fun n h => sensor_unknown ha h, fun v h => setEffecter_cap ha h, fun v h => setEffecter_low ha h,
    fun e v h => effecter_unknown ha v h, replies_of_mgmt rfl ha (by exact if_pos rfl),
    fun k hk => replies_of_mgmt rfl ha (by exact if_pos hk), fun k hk => replies_of_mgmt rfl ha (by exact if_neg (by omega)),
    replies_of_mgmt rfl ha rfl, getFirmwareParameters_versions ha, replies_of_mgmt rfl ha rfl⟩
  · intro n h h'
    have hr := getSensorReading_described ha h (show n ≤ 23 by omega)
    rwa [State.sensor_register (by omega)] at hr
  · intro n h h'
    have hr := getSensorReading_described ha (show 1 ≤ n by omega) h'
    have hs := getStateSensorReadings_described ha h h'
    rw [State.sensor_live h h'] at hr hs
    exact ⟨hr, hs⟩

end Sys2Proof.Machine
end

section
/-! ### Attestation (R725, R726, R737) -/

namespace Sys2Proof.Machine

open Sys2Proof

/-! #### Connections -/

theorem portIdx_injective {p q : SpdmPort} (h : portIdx p = portIdx q) : p = q := by
  cases p with
  | mctp =>
    cases q with
    | mctp => rfl
    | doe f => simp only [portIdx] at h; omega
  | doe f =>
    cases q with
    | mctp => simp only [portIdx] at h; omega
    | doe g => rw [Fin.ext (show f.val = g.val by simp only [portIdx] at h; omega)]

@[simp] theorem State.conn_setConn_same (s : State) (p : SpdmPort) (c : SpdmConn) : (s.setConn p c).conn p = c :=
  SMap.get_set_same _ _ _ _

theorem State.conn_setConn_other (s : State) {p q : SpdmPort} (c : SpdmConn) (h : q ≠ p) : (s.setConn p c).conn q = s.conn q :=
  SMap.get_set_other _ _ _ _ _ _ fun hi => h (portIdx_injective hi)

/-- A request that changes the connection of its transport changes no other connection, session or register. -/
theorem does_setConn {s u : State} {c : Instr} {p : SpdmPort} {k : SpdmConn} {code : Nat} {ws : List Word}
    (hc : exec c s = .next (if s.answers then u else s)) (ha : s.answers = true) (hu : u = (s.setConn p k).respond code ws) :
    Does c s fun t => (t.conn p = k ∧ (∀ q, q ≠ p → t.conn q = s.conn q) ∧ t.plat.sessions = s.plat.sessions ∧ t.regs = s.regs) ∧
      t.out = s.out ++ [.mgmt s.staticAddress (BitVec.ofNat 64 code :: ws)] :=
  does_as_mgmt hc ha hu ⟨⟨s.conn_setConn_same p k, fun _ hq => s.conn_setConn_other k hq, rfl, rfl⟩, rfl⟩

/-- The same, of the reply nothing is said. -/
theorem does_setConn' {s u : State} {c : Instr} {p : SpdmPort} {k : SpdmConn} {code : Nat} {ws : List Word}
    (hc : exec c s = .next (if s.answers then u else s)) (ha : s.answers = true) (hu : u = (s.setConn p k).respond code ws) :
    Does c s fun t => t.conn p = k ∧ (∀ q, q ≠ p → t.conn q = s.conn q) ∧ t.plat.sessions = s.plat.sessions ∧ t.regs = s.regs :=
  let ⟨t, ht, h, _⟩ := does_setConn hc ha hu
  ⟨t, ht, h⟩

theorem State.negotiated_early {s : State} {p : SpdmPort} {f : State → State} (h : (s.conn p).algs = false) :
    s.negotiated p f = s.respond 0x7F [4] :=
  if_neg (by simp [h])

theorem State.negotiated_of_algs {s : State} {p : SpdmPort} {f : State → State} (h : (s.conn p).algs = true) :
    s.negotiated p f = f s :=
  if_pos h

/-- A signed reply takes one fresh value and changes nothing of the platform. -/
theorem does_spdmCrypto {s u : State} {c : Instr} {code : Nat} {ws : List Word}
    (hc : exec c s = .next (if s.answers then u else s)) (ha : s.answers = true) (hu : u = s.spdmCrypto code ws) :
    Does c s fun t => t.plat = s.plat ∧ t.free = s.free + 1 ∧
      ∃ w : Word, t.out = s.out ++ [.mgmt s.staticAddress (BitVec.ofNat 64 code :: (ws ++ [w]))] :=
  does_as_mgmt hc ha hu ⟨rfl, rfl, Config.crypto s.free, rfl⟩

/-! #### Sessions -/

/-- The session a request names stands in the list, established or not. -/
def State.hasSession (s : State) (p : SpdmPort) (n : Nat) (done : Bool) : Bool :=
  s.plat.sessions.any fun x => x.port = p && x.id = n && x.finished = done

theorem State.hasSession_congr {s : State} {p : SpdmPort} {n : Nat} {f : SpdmSession → Bool} {done : Bool}
    (h : ∀ x : SpdmSession, f x = decide (x.finished = done)) :
    (s.plat.sessions.any fun x => x.port = p && x.id = n && f x) = s.hasSession p n done :=
  congrArg (List.any s.plat.sessions) (funext fun x => by simp [h x])

/-- The sessions after a change of the one named. -/
def State.changeSession (s : State) (p : SpdmPort) (n : Nat) (f : SpdmSession → SpdmSession) : State :=
  { s with plat.sessions := s.plat.sessions.map fun (x : SpdmSession) => if x.port = p && x.id = n then f x else x }

theorem State.session_of_has {s : State} {p : SpdmPort} {n : Nat} {done : Bool} (f : SpdmSession → SpdmSession) (code : Nat)
    (h : s.hasSession p n done = true) : s.session p n done f code = (s.changeSession p n f).respond code [] :=
  if_pos h

theorem State.session_of_not {s : State} {p : SpdmPort} {n : Nat} {done : Bool} (f : SpdmSession → SpdmSession) (code : Nat)
    (h : s.hasSession p n done = false) : s.session p n done f code = s.respond 0x7F [2] :=
  if_neg (by simp only [State.hasSession] at h; simp [h])

/-- Every session named holds what the change gives it. -/
theorem State.changeSession_named {s : State} {p : SpdmPort} {n : Nat} {f : SpdmSession → SpdmSession} {P : SpdmSession → Prop}
    (hf : ∀ x, P (f x)) : ∀ x ∈ (s.changeSession p n f).plat.sessions, x.port = p → x.id = n → P x := by
  intro x hx hp hn
  obtain ⟨y, _, rfl⟩ := List.mem_map.mp hx
  by_cases hy : (decide (y.port = p) && decide (y.id = n)) = true
  · simp only [if_pos hy]; exact hf y
  · simp only [if_neg hy] at hp hn
    exact absurd (by simp [hp, hn]) hy

theorem State.changeSession_sessions (s : State) (p : SpdmPort) (n : Nat) (f : SpdmSession → SpdmSession) :
    (s.changeSession p n f).plat.sessions = s.plat.sessions.map fun (x : SpdmSession) => if x.port = p ∧ x.id = n then f x else x :=
  congrArg (fun g => s.plat.sessions.map g) (funext fun x => by simp)

theorem finish_opens {s : State} (ha : s.answers = true) {p : SpdmPort} {n : Nat} (h : s.hasSession p n false = true) :
    Does (.finish p n) s fun t => t.reg (Reg.pltCnt 6) = s.reg (Reg.pltCnt 6) + 1 ∧
      t.plat.sessions.length = s.plat.sessions.length ∧ ∀ x ∈ t.plat.sessions, x.port = p → x.id = n → x.finished = true := by
  have hnew : (s.plat.sessions.any fun x => x.port = p && x.id = n && !x.finished) = true :=
    (State.hasSession_congr fun x => by cases x.finished <;> rfl).trans h
  have hu : (s.iff (s.plat.sessions.any fun x => x.port = p && x.id = n && !x.finished) fun s => s.bump (Reg.pltCnt 6)).session
      p n false (fun x => { x with finished := true }) 0x65 =
      ((s.bump (Reg.pltCnt 6)).changeSession p n fun x => { x with finished := true }).respond 0x65 [] := by
    rw [hnew, State.iff_true]
    exact State.session_of_has _ _ h
  refine does_as_mgmt rfl ha hu ⟨s.reg_bump_same _, List.length_map _, ?_⟩
  exact State.changeSession_named (P := fun x => x.finished = true) fun _ => rfl

theorem finish_unknown {s : State} (ha : s.answers = true) {p : SpdmPort} {n : Nat} (h : s.hasSession p n false = false) :
    Replies (.finish p n) s 0x7F [2] := by
  have hnew : (s.plat.sessions.any fun x => x.port = p && x.id = n && !x.finished) = false :=
    (State.hasSession_congr fun x => by cases x.finished <;> rfl).trans h
  have hu : (s.iff (s.plat.sessions.any fun x => x.port = p && x.id = n && !x.finished) fun s => s.bump (Reg.pltCnt 6)).session
      p n false (fun x => { x with finished := true }) 0x65 = s.respond 0x7F [2] := by
    rw [hnew, State.iff_false]
    exact State.session_of_not _ _ h
  exact replies_of_mgmt rfl ha hu

theorem endSession_ends {s : State} (ha : s.answers = true) {p : SpdmPort} {n : Nat} (h : s.hasSession p n true = true) :
    Does (.endSession p n) s fun t => t.plat.sessions = s.plat.sessions.filter fun (x : SpdmSession) =>
      decide (¬ (x.port = p ∧ x.id = n)) := by
  have hany : (s.plat.sessions.any fun x => x.port = p && x.id = n && x.finished) = true :=
    (State.hasSession_congr fun x => by cases x.finished <;> rfl).trans h
  refine does_as_mgmt rfl ha (by exact if_pos hany) ?_
  exact congrArg (fun g => s.plat.sessions.filter g) (funext fun x => by simp)

theorem endSession_unknown {s : State} (ha : s.answers = true) {p : SpdmPort} {n : Nat} (h : s.hasSession p n true = false) :
    Replies (.endSession p n) s 0x7F [2] := by
  have hany : (s.plat.sessions.any fun x => x.port = p && x.id = n && x.finished) = false :=
    (State.hasSession_congr fun x => by cases x.finished <;> rfl).trans h
  exact replies_of_mgmt rfl ha (by exact if_neg (by simp [hany]))

/-- What an established session takes. -/
theorem established_takes {s : State} (ha : s.answers = true) {p : SpdmPort} {n : Nat} (h : s.hasSession p n true = true) :
    (Does (.keyUpdate p n) s fun t => t.plat.sessions = s.plat.sessions.map fun (x : SpdmSession) =>
      if x.port = p ∧ x.id = n then { x with keyGen := x.keyGen + 1 } else x) ∧
    (Does (.heartbeat p n) s fun t => ∀ x ∈ t.plat.sessions, x.port = p → x.id = n → x.beatNs = s.now) :=
  ⟨does_as_mgmt (t := (s.changeSession p n fun x => { x with keyGen := x.keyGen + 1 }).respond 0x69 []) rfl ha
      (by exact State.session_of_has _ _ h) (s.changeSession_sessions p n _),
    does_as_mgmt (t := (s.changeSession p n fun x => { x with beatNs := s.now }).respond 0x68 []) rfl ha
      (by exact State.session_of_has _ _ h) (State.changeSession_named (P := fun x => x.beatNs = s.now) fun _ => rfl)⟩

theorem not_established {s : State} (ha : s.answers = true) {p : SpdmPort} {n : Nat} (h : s.hasSession p n true = false) :
    Replies (.keyUpdate p n) s 0x7F [2] ∧ Replies (.heartbeat p n) s 0x7F [2] ∧ Replies (.endSession p n) s 0x7F [2] :=
  ⟨replies_of_mgmt rfl ha (by exact State.session_of_not _ _ h), replies_of_mgmt rfl ha (by exact State.session_of_not _ _ h),
    endSession_unknown ha h⟩

/-! #### Requests that need the algorithms -/

theorem early_without_algs {s : State} (ha : s.answers = true) {p : SpdmPort} (h : (s.conn p).algs = false) (n : Nat) :
    Replies (.getDigests p) s 0x7F [4] ∧ Replies (.getCertificate p n) s 0x7F [4] ∧ Replies (.challenge p n) s 0x7F [4] ∧
      Replies (.getMeasurements p n) s 0x7F [4] ∧ Replies (.keyExchange p) s 0x7F [4] :=
  ⟨replies_of_mgmt rfl ha (by exact State.negotiated_early h), replies_of_mgmt rfl ha (by exact State.negotiated_early h),
    replies_of_mgmt rfl ha (by exact State.negotiated_early h), replies_of_mgmt rfl ha (by exact State.negotiated_early h),
    replies_of_mgmt rfl ha (by exact State.negotiated_early h)⟩

theorem slot_unknown {s : State} (ha : s.answers = true) {p : SpdmPort} (h : (s.conn p).algs = true) {n : Nat} (hn : n ≠ 0) :
    Replies (.getCertificate p n) s 0x7F [1] ∧ Replies (.challenge p n) s 0x7F [1] :=
  ⟨replies_of_mgmt rfl ha (by exact (State.negotiated_of_algs h).trans (if_neg hn)),
    replies_of_mgmt rfl ha (by exact (State.negotiated_of_algs h).trans (if_neg hn))⟩

theorem getMeasurements_register {s : State} (ha : s.answers = true) {p : SpdmPort} (h : (s.conn p).algs = true) {n : Nat}
    (h1 : 1 ≤ n) (h8 : n ≤ 8) :
    Does (.getMeasurements p n) s fun t => t.plat = s.plat ∧ t.free = s.free + 1 ∧ ∃ w : Word, t.out = s.out ++
      [.mgmt s.staticAddress (BitVec.ofNat 64 0x60 :: (measWords (SMap.get 0 s.plat.meas (n - 1)) ++ [w]))] :=
  does_spdmCrypto rfl ha (by exact (State.negotiated_of_algs h).trans ((if_neg (by omega)).trans (if_pos h8)))

theorem getMeasurements_unknown {s : State} (ha : s.answers = true) {p : SpdmPort} (h : (s.conn p).algs = true) {n : Nat}
    (h8 : 8 < n) (h16 : n ≠ 16) : Replies (.getMeasurements p n) s 0x7F [1] :=
  replies_of_mgmt rfl ha (by
    exact (State.negotiated_of_algs h).trans ((if_neg (by omega)).trans ((if_neg (by omega)).trans (if_neg h16))))

theorem keyExchange_full {s : State} (ha : s.answers = true) {p : SpdmPort} (h : (s.conn p).algs = true)
    (hu : portSessions p ≤ (s.plat.sessions.filter fun x => x.port = p).length) : Replies (.keyExchange p) s 0x7F [0x0B] :=
  replies_of_mgmt rfl ha (by exact (State.negotiated_of_algs h).trans (if_pos hu))

theorem keyExchange_begins {s : State} (ha : s.answers = true) {p : SpdmPort} (h : (s.conn p).algs = true)
    (hu : (s.plat.sessions.filter fun x => x.port = p).length < portSessions p) :
    Does (.keyExchange p) s fun t => ∃ x, t.plat.sessions = s.plat.sessions ++ [x] ∧ x.port = p ∧ x.finished = false ∧
      x.id = s.plat.nextSession ∧ t.plat.nextSession = s.plat.nextSession + 1 :=
  does_as_mgmt rfl ha (by exact (State.negotiated_of_algs h).trans (if_neg (by omega)))
    ⟨SpdmSession.mk p s.plat.nextSession false 0 s.now, rfl, rfl, rfl, rfl, rfl⟩

/-- Settles O57: each request is answered by the connection's and the sessions' state alone, and changes only its own part. -/
theorem attestation : Obligations.Attestation := by
  intro s p ha k one early mine free
  have hdone : ∀ {n : Nat} {done b : Bool}, mine n done = b → s.hasSession p n done = b := fun h => h
  refine ⟨does_setConn rfl ha rfl,
    fun hv => does_setConn' rfl ha (by exact if_neg hv), fun hv => replies_of_mgmt rfl ha (by exact if_pos hv),
    fun hc => does_setConn' rfl ha (by exact if_neg (by simp only [k] at hc; simp [hc])),
    fun hc => replies_of_mgmt rfl ha (by exact if_pos (by simp only [k] at hc; simp [hc])),
    fun h n => early_without_algs ha h n, fun h => ?_, fun n => ?_⟩
  · exact ⟨does_spdmCrypto rfl ha (by exact State.negotiated_of_algs h),
      does_spdmCrypto rfl ha (by exact (State.negotiated_of_algs h).trans (if_pos rfl)),
      does_spdmCrypto rfl ha (by exact (State.negotiated_of_algs h).trans (if_pos rfl)),
      fun n hn => slot_unknown ha h hn,
      does_spdmCrypto rfl ha (by exact (State.negotiated_of_algs h).trans (if_pos rfl)),
      fun n h1 h8 => getMeasurements_register ha h h1 h8, fun n h8 h16 => getMeasurements_unknown ha h h8 h16,
      fun hu => keyExchange_full ha h hu, fun hu => keyExchange_begins ha h hu⟩
  · refine ⟨fun hm => finish_opens ha (hdone hm), fun hm => finish_unknown ha (hdone hm), fun hm => ?_,
      fun hm => not_established ha (hdone hm)⟩
    obtain ⟨hkey, hbeat⟩ := established_takes ha (hdone hm)
    exact ⟨hkey, hbeat, endSession_ends ha (hdone hm)⟩

end Sys2Proof.Machine
end

section
/-! ### Firmware update, fuses and debug sessions (R712, R720, R721, R723, R724, R728, R729, R737) -/

namespace Sys2Proof.Machine

open Sys2Proof

/-! #### Banks -/

theorem State.bank_setBank_same (s : State) (b : Nat) (k : Bank) : (s.setBank b k).bank b = k := by
  by_cases h : b = 0
  · simp [State.setBank, State.bank, h]
  · simp [State.setBank, State.bank, h]

/-- Two bank numbers name different banks when one of them is 0 and the other is not. -/
theorem State.bank_setBank_other (s : State) {b c : Nat} (k : Bank) (h : (c = 0) ≠ (b = 0)) : (s.setBank b k).bank c = s.bank c := by
  by_cases hb : b = 0
  · have hc : c ≠ 0 := fun hc => h (propext (iff_of_true hc hb))
    simp [State.setBank, State.bank, hb, hc]
  · have hc : c = 0 := by
      by_contra hc
      exact h (propext (iff_of_false hc hb))
    simp [State.setBank, State.bank, hb, hc]

theorem State.setBank_plat_keeps (s : State) (b : Nat) (k : Bank) :
    (s.setBank b k).plat.activeBank = s.plat.activeBank ∧ (s.setBank b k).plat.tryBank = s.plat.tryBank ∧
    (s.setBank b k).plat.updBank = s.plat.updBank ∧ (s.setBank b k).plat.updComp = s.plat.updComp ∧
    (s.setBank b k).plat.upd = s.plat.upd ∧ (s.setBank b k).plat.updOffset = s.plat.updOffset ∧
    (s.setBank b k).plat.updSize = s.plat.updSize ∧ (s.setBank b k).plat.updDone = s.plat.updDone := by
  by_cases h : b = 0
  · simp [State.setBank, h]
  · simp [State.setBank, h]

theorem Bank.image_setImage (k : Bank) (c : Nat) (bs : List Byte) : (k.setImage c bs).image c = bs := by
  by_cases h : c = 0
  · simp [Bank.setImage, Bank.image, h]
  · simp [Bank.setImage, Bank.image, h]

theorem State.updImage_setUpdImage (s : State) (bs : List Byte) : (s.setUpdImage bs).updImage = bs := by
  obtain ⟨-, -, hb, hc, -⟩ := s.setBank_plat_keeps s.plat.updBank ((s.bank s.plat.updBank).setImage s.plat.updComp bs)
  rw [State.updImage, State.setUpdImage, hb, hc, State.bank_setBank_same, Bank.image_setImage]

/-! #### Updates -/

theorem requestUpdate_begins {s : State} (ha : s.answers = true) (hen : s.updateAllowed = true) (hidle : s.plat.upd = .idle) :
    Does .requestUpdate s fun t =>
      t.plat = { s.plat with upd := .learn, updBank := 1 - s.plat.activeBank, updDone := [] } ∧
        t.out = s.out ++ [.mgmt s.staticAddress [0]] :=
  does_as_mgmt rfl ha (by exact (if_neg (by simp [hen])).trans (if_neg (by simp [hidle]))) ⟨rfl, rfl⟩

theorem updateComponent_begins {s : State} (ha : s.answers = true) (k : Fin 2) {n : Nat} (h : s.plat.upd = .ready)
    (h0 : 0 < n) (hn : n ≤ 8388608) :
    Does (.updateComponent k n) s fun t =>
      t.plat.upd = .download ∧ t.plat.updComp = k.val ∧ t.plat.updBank = s.plat.updBank ∧ t.plat.updOffset = 0 ∧
      t.plat.updSize = n ∧ t.updImage = [] ∧ t.plat.activeBank = s.plat.activeBank ∧ t.plat.tryBank = s.plat.tryBank ∧
      ∀ b < 2, (b = 0) ≠ (s.plat.updBank = 0) → t.bank b = s.bank b := by
  refine does_as_mgmt rfl ha (by exact (if_neg (by simp [h])).trans (if_neg (by simp; omega))) ?_
  generalize hd : ({ s with plat.upd := .download, plat.updComp := k.val, plat.updOffset := 0, plat.updSize := n } : State) = d
  obtain ⟨hact, htry, hub, huc, hupd, hoff, hsz, -⟩ := d.setBank_plat_keeps d.plat.updBank
    ((d.bank d.plat.updBank).setImage d.plat.updComp [])
  have himg := d.updImage_setUpdImage []
  have hoth : ∀ b < 2, (b = 0) ≠ (d.plat.updBank = 0) → (d.setUpdImage []).bank b = d.bank b :=
    fun b _ hb => d.bank_setBank_other _ hb
  subst hd
  exact ⟨hupd, huc, hub, hoff, hsz, himg, hact, htry, hoth⟩

theorem requestFirmwareData_takes {s : State} (ha : s.answers = true) {off : Nat} {bs : List Byte} (h : s.plat.upd = .download)
    (ho : off = s.plat.updOffset) (hbs : bs ≠ []) (hn : off + bs.length ≤ s.plat.updSize) :
    Does (.requestFirmwareData off bs) s fun t =>
      t.plat.updOffset = off + bs.length ∧ t.plat.upd = .download ∧ t.updImage = s.updImage ++ bs ∧
      t.plat.activeBank = s.plat.activeBank ∧ t.plat.tryBank = s.plat.tryBank ∧
      ∀ b < 2, (b = 0) ≠ (s.plat.updBank = 0) → t.bank b = s.bank b := by
  have hlen : bs.length ≠ 0 := fun hl => hbs (List.eq_nil_of_length_eq_zero hl)
  refine does_as_mgmt rfl ha (by exact (if_neg (by simp [h])).trans (if_neg (by simp [ho] at hn ⊢; exact ⟨hbs, hn⟩))) ?_
  generalize hd : ({ s with plat.updOffset := off + bs.length } : State) = d
  obtain ⟨hact, htry, -, -, hupd, hoff, -, -⟩ := d.setBank_plat_keeps d.plat.updBank
    ((d.bank d.plat.updBank).setImage d.plat.updComp (s.updImage ++ bs))
  have himg := d.updImage_setUpdImage (s.updImage ++ bs)
  have hoth : ∀ b < 2, (b = 0) ≠ (d.plat.updBank = 0) → (d.setUpdImage (s.updImage ++ bs)).bank b = d.bank b :=
    fun b _ hb => d.bank_setBank_other _ hb
  subst hd
  exact ⟨hoff, hupd.trans h, himg, hact, htry, hoth⟩

theorem requestFirmwareData_refuses {s : State} (ha : s.answers = true) {off : Nat} {bs : List Byte} (h : s.plat.upd = .download)
    (hbad : off ≠ s.plat.updOffset ∨ bs = [] ∨ s.plat.updSize < off + bs.length) :
    Replies (.requestFirmwareData off bs) s 0x82 [] :=
  replies_of_mgmt rfl ha (by exact (if_neg (by simp [h])).trans (if_pos (by simpa [or_assoc] using hbad)))

theorem transferComplete_verifies {s : State} (ha : s.answers = true) (h : s.plat.upd = .download)
    (hall : s.plat.updOffset = s.plat.updSize) :
    Does .transferComplete s fun t => t.plat = { s.plat with upd := .verify } :=
  does_as_mgmt rfl ha (by exact if_pos (by simp [h, hall])) rfl

theorem verifyComplete_passes {s : State} (ha : s.answers = true) (h : s.plat.upd = .verify)
    (hok : s.imageOk (s.plat.updComp + 1) s.updImage = true) (hsvn : s.svnFused ≤ fwSvn s.updImage) :
    Does .verifyComplete s fun t => t.plat = { s.plat with upd := .apply } :=
  does_as_mgmt rfl ha (by exact (if_neg (by simp [h])).trans (if_pos (by simp [hok, hsvn]))) rfl

theorem verifyComplete_fails {s : State} (ha : s.answers = true) (h : s.plat.upd = .verify)
    (hbad : s.imageOk (s.plat.updComp + 1) s.updImage = false ∨ fwSvn s.updImage < s.svnFused) :
    Does .verifyComplete s fun t => t.plat = { s.plat with upd := .ready } ∧
      t.out = s.out ++ [.mgmt s.staticAddress [BitVec.ofNat 64 Code.fwUpdateRefused]] := by
  have hno : ¬ (s.imageOk (s.plat.updComp + 1) s.updImage && decide (s.svnFused ≤ fwSvn s.updImage)) = true := by
    rcases hbad with hb | hb
    · simp [hb]
    · simp only [Bool.and_eq_true, decide_eq_true_eq]; omega
  exact does_as_mgmt rfl ha (by exact (if_neg (by simp [h])).trans (if_neg hno)) ⟨rfl, rfl⟩

theorem applyComplete_applies {s : State} (ha : s.answers = true) (h : s.plat.upd = .apply) :
    Does .applyComplete s fun t => t.plat.upd = .ready ∧ t.plat.updDone = s.plat.updDone ++ [s.plat.updComp] ∧
      (t.bank s.plat.updBank).copies = [true, true, true, true] ∧ t.updImage = s.updImage ∧
      t.plat.activeBank = s.plat.activeBank ∧ t.plat.tryBank = s.plat.tryBank ∧
      ∀ b < 2, (b = 0) ≠ (s.plat.updBank = 0) → t.bank b = s.bank b := by
  refine does_as_mgmt rfl ha (by exact if_neg (by simp [h])) ?_
  generalize hk : ({ s.bank s.plat.updBank with copies := [true, true, true, true] } : Bank) = k
  obtain ⟨hact, htry, hub, huc, -⟩ := s.setBank_plat_keeps s.plat.updBank k
  have hsame := s.bank_setBank_same s.plat.updBank k
  have himg : (s.setBank s.plat.updBank k).updImage = s.updImage := by
    rw [State.updImage, hub, huc, hsame, ← hk]; rfl
  have hoth : ∀ b < 2, (b = 0) ≠ (s.plat.updBank = 0) → (s.setBank s.plat.updBank k).bank b = s.bank b :=
    fun b _ hb => s.bank_setBank_other k hb
  subst hk
  exact ⟨rfl, rfl, congrArg Bank.copies hsame, himg, hact, htry, hoth⟩

theorem activateFirmware_names {s : State} (ha : s.answers = true) (h : s.plat.upd = .ready) (hd : s.plat.updDone ≠ []) :
    Does .activateFirmware s fun t => t.plat.tryBank = some s.plat.updBank ∧ t.plat.upd = .idle ∧
      t.plat.activeBank = s.plat.activeBank ∧ t.reg (Reg.pltCnt 7) = s.reg (Reg.pltCnt 7) + 1 :=
  does_as_mgmt (t := (({ s with plat.tryBank := some s.plat.updBank, plat.upd := .idle }).bump (Reg.pltCnt 7)).respond 0 []) rfl ha
    (by exact if_neg (by simp [h, hd])) ⟨rfl, rfl, rfl, State.reg_bump_same _ (Reg.pltCnt 7)⟩

theorem cancelUpdateComponent_cancels {s : State} (ha : s.answers = true)
    (h : s.plat.upd = .download ∨ s.plat.upd = .verify ∨ s.plat.upd = .apply) :
    Does .cancelUpdateComponent s fun t => t.plat = { s.plat with upd := .ready } :=
  does_as_mgmt rfl ha (by exact if_pos (by simpa [or_assoc] using h)) rfl

theorem cancelUpdate_cancels {s : State} (ha : s.answers = true) (h : s.plat.upd ≠ .idle) :
    Does .cancelUpdate s fun t => t.plat = { s.plat with upd := .idle, updDone := [] } :=
  does_as_mgmt rfl ha (by exact if_neg h) rfl

theorem idle_refuses {s : State} (ha : s.answers = true) (h : s.plat.upd = .idle) :
    Replies .passComponentTable s 0x84 [] ∧ Replies .transferComplete s 0x84 [] ∧
      Replies .verifyComplete s 0x84 [] ∧ Replies .applyComplete s 0x84 [] ∧ Replies .activateFirmware s 0x84 [] ∧
      Replies .cancelUpdateComponent s 0x84 [] ∧ Replies .cancelUpdate s 0x80 [] :=
  ⟨replies_of_mgmt rfl ha (by exact if_neg (by simp [h])), replies_of_mgmt rfl ha (by exact if_neg (by simp [h])),
    replies_of_mgmt rfl ha (by exact if_pos (by simp [h])), replies_of_mgmt rfl ha (by exact if_pos (by simp [h])),
    replies_of_mgmt rfl ha (by exact if_pos (by simp [h])), replies_of_mgmt rfl ha (by exact if_neg (by simp [h])),
    replies_of_mgmt rfl ha (by exact if_pos h)⟩

/-! #### Measurements, fuses and debug -/

theorem State.extend_full {s : State} (reg kind : Nat) (d : BitVec 384) (h : 256 ≤ s.plat.measLog.length) :
    s.extend reg kind d = none :=
  if_pos h

/-- The state after an event enters the measurement log (R724). -/
def State.measured (s : State) (reg kind : Nat) (d : BitVec 384) : State :=
  { s with plat.meas := SMap.put s.plat.meas reg
             (Config.sha384 (leBytes (SMap.get 0 s.plat.meas reg).toNat 48 ++ leBytes d.toNat 48))
           plat.measLog := s.plat.measLog ++ [MeasEvent.mk reg kind d] }

theorem State.extend_room {s : State} (reg kind : Nat) (d : BitVec 384) (h : s.plat.measLog.length < 256) :
    s.extend reg kind d = some (s.measured reg kind d) :=
  if_neg (by omega)

theorem State.meas_measured_same (s : State) (reg kind : Nat) (d : BitVec 384) :
    SMap.get 0 (s.measured reg kind d).plat.meas reg =
      Config.sha384 (leBytes (SMap.get 0 s.plat.meas reg).toNat 48 ++ leBytes d.toNat 48) :=
  SMap.get_put_same _ _ _ _

theorem State.meas_measured_other (s : State) {reg r : Nat} (kind : Nat) (d : BitVec 384) (h : r ≠ reg) :
    SMap.get 0 (s.measured reg kind d).plat.meas r = SMap.get 0 s.plat.meas r :=
  (SMap.get_put _ _ _ _ _).trans (if_neg h)

/-- Bit i of an array of fuses. -/
def fuseBit (a : SMap Word) (i : Nat) : Bool := bit (SMap.get 0 a (i / 64)) (i % 64)

theorem fuseBit_blow (a : SMap Word) (i j : Nat) :
    fuseBit (SMap.set 0 a (i / 64) (setBits (SMap.get 0 a (i / 64)) (i % 64) (i % 64) 1)) j = (fuseBit a j || j == i) := by
  by_cases hw : j / 64 = i / 64
  · have hji : (j % 64 == i % 64) = (j == i) := by
      rw [Bool.eq_iff_iff, beq_iff_eq, beq_iff_eq]; omega
    rw [fuseBit, hw, SMap.get_set_same, bit_setBits_one _ (by omega), hji, fuseBit, hw]
  · have hji : (j == i) = false := by
      rw [beq_eq_false_iff_ne]; rintro rfl; exact hw rfl
    rw [fuseBit, SMap.get_set_other _ _ _ _ _ _ hw, hji, Bool.or_false, fuseBit]

theorem fuseBit_blowBits (bs : List Nat) : ∀ (a : SMap Word) (i : Nat),
    fuseBit (blowBits a bs) i = (fuseBit a i || bs.contains i) := by
  induction bs with
  | nil => intro a i; simp [blowBits]
  | cons b bs ih =>
    intro a i
    have hcons : blowBits a (b :: bs) = blowBits (SMap.set 0 a (b / 64) (setBits (SMap.get 0 a (b / 64)) (b % 64) (b % 64) 1)) bs := rfl
    rw [hcons, ih, fuseBit_blow, List.contains_cons, Bool.or_assoc]

theorem fuseProgram_denied {s : State} (ha : s.answers = true) (ses : Option Nat) (bs : List Nat) (sig : List Byte)
    (h : s.secured ses = false ∨ 256 ≤ s.plat.measLog.length) : Replies (.fuseProgram ses bs sig) s Code.fuseDenied [] := by
  refine replies_of_mgmt rfl ha ?_
  beta_reduce
  cases hs : s.secured ses with
  | false => simp only [Bool.false_and, Bool.not_false, if_true]
  | true =>
    have hfull : 256 ≤ s.plat.measLog.length := h.resolve_left fun hno => Bool.noConfusion (hs.symm.trans hno)
    simp only [State.extend_full _ _ _ hfull, ite_self]

/-- Permitted bits are blown, and the command is measured into register 6 (R721, R723). -/
theorem fuseProgram_blows {s : State} (ha : s.answers = true) {ses : Option Nat} {bs : List Nat} (sig : List Byte)
    (hsec : s.secured ses = true) (hroom : s.plat.measLog.length < 256) (hprov : s.arrayBit 932 = false)
    (hmade : s.plat.secretMade = true)
    (hfree : (bs.all fun i => i < 4096 && !(384 ≤ i && i < 640) && !s.arrayBit i) = true) :
    Does (.fuseProgram ses bs sig) s fun t =>
      (∀ i < 4096, t.arrayBit i = (s.arrayBit i || bs.contains i)) ∧ t.plat.fuses = s.plat.fuses ∧
      (∃ e, t.plat.measLog = s.plat.measLog ++ [e] ∧ e.reg = 6) ∧
      (∀ r, r ≠ 6 → SMap.get 0 t.plat.meas r = SMap.get 0 s.plat.meas r) := by
  let m := s.measured 6 6 (Config.sha384 (bs.flatMap fun i => leBytes i 2))
  refine does_as_mgmt (t := State.respond { m with plat.array := blowBits s.plat.array bs } 0 []) rfl ha ?_
    ⟨fun i _ => ?_, rfl, ⟨⟨6, 6, _⟩, rfl, rfl⟩, fun r hr => s.meas_measured_other 6 _ hr⟩
  · have hmade' : m.plat.secretMade = true := hmade
    have hroom' : s.extend 6 6 (Config.sha384 (bs.flatMap fun i => leBytes i 2)) = some m := State.extend_room _ _ _ hroom
    simp only [hsec, hprov, hfree, Bool.and_self, Bool.not_true, Bool.false_eq_true, if_false, hroom', hmade', if_true]
    rfl
  · exact fuseBit_blowBits bs s.plat.array i

theorem jtagSession_ignored {s : State} (d : BitVec 384)
    (h : s.plat.rails = false ∨ s.plat.stage = 0 ∨ s.fuse 931 = true ∨ 256 ≤ s.plat.measLog.length) :
    Ignored (.jtagSession d) s := by
  refine congrArg Host.Outcome.next ?_
  split
  next => rfl
  next hno =>
    have hfull : 256 ≤ s.plat.measLog.length := by
      simp only [Bool.or_eq_true, not_or, Bool.not_eq_true', decide_eq_true_eq] at hno
      obtain ⟨⟨hr, hs⟩, hf⟩ := hno
      rcases h with h | h | h | h
      · exact absurd h hr
      · exact absurd h hs
      · exact absurd h hf
      · exact h
    rw [State.extend_full _ _ _ hfull]

theorem jtagSession_opens {s : State} (d : BitVec 384) (hr : s.plat.rails = true) (hs : s.plat.stage ≠ 0)
    (hf : s.fuse 931 = false) (hroom : s.plat.measLog.length < 256) :
    exec (.jtagSession d) s = .next { s.measured 6 7 d with plat.jtagOpen := true } := by
  refine congrArg Host.Outcome.next ?_
  rw [if_neg (by simp [hr, hs, hf]), State.extend_room _ _ _ hroom]

/-- Settles O56: each command of the update flow acts in its own state only, and writes the bank that is not ACTIVE; fuses and debug
sessions need room in the measurement log. -/
theorem updatesAndFuses : Obligations.UpdatesAndFuses := by
  intro s
  refine ⟨fun ha => ?_, fun d h => jtagSession_ignored d h,
    fun d hr hs hf hroom => ⟨_, jtagSession_opens d hr hs hf hroom, rfl, ⟨⟨6, 7, d⟩, rfl, rfl, rfl⟩, s.meas_measured_same 6 7 d⟩⟩
  exact ⟨fun hen => replies_of_mgmt rfl ha (by exact if_pos (by simp [hen])),
    fun hen hidle => requestUpdate_begins ha hen hidle,
    fun h => does_as_mgmt rfl ha (by exact if_pos h) rfl,
    fun k n h h0 hn => updateComponent_begins ha k h h0 hn,
    fun off bs h => ⟨fun hbad => requestFirmwareData_refuses ha h hbad, fun ho hbs hn => requestFirmwareData_takes ha h ho hbs hn⟩,
    fun h hall => transferComplete_verifies ha h hall,
    fun h => ⟨fun hok hsvn => verifyComplete_passes ha h hok hsvn, fun hbad => verifyComplete_fails ha h hbad⟩,
    fun h => applyComplete_applies ha h,
    fun h hd => activateFirmware_names ha h hd,
    fun h => cancelUpdateComponent_cancels ha h,
    fun h => cancelUpdate_cancels ha h,
    fun h => idle_refuses ha h,
    fun ses bs sig h => fuseProgram_denied ha ses bs sig h,
    fun ses bs sig hsec hroom hprov hmade hfree => fuseProgram_blows ha sig hsec hroom hprov hmade hfree⟩

end Sys2Proof.Machine
end

section
/-! ### Responses and the shaper (R540, R551, R552) -/

namespace Sys2Proof.Machine

open Sys2Proof

/-! #### The network unit's gate -/

section gated

variable {s t u : State} {c : Instr} (hc : exec c s = .next (if s.live then if s.unitFailed 1 then s else u else s))
  (hl : s.live = true) (hu : s.unitFailed 1 = false)
include hc hl hu

/-- What the network unit does while it works and its module is live. -/
theorem exec_of_netGate : exec c s = .next u :=
  hc.trans (congrArg Host.Outcome.next ((if_pos hl).trans (if_neg (by simp [hu]))))

theorem does_of_netGate {P : State → Prop} (ht : u = t) (h : P t) : Does c s P :=
  ⟨u, exec_of_netGate hc hl hu, ht ▸ h⟩

theorem ignored_of_netGate (ht : u = s) : Ignored c s := (exec_of_netGate hc hl hu).trans (congrArg Host.Outcome.next ht)

end gated

/-! #### Fragments -/

/-- Pieces of k laid end to end are the list. -/
theorem flatMap_pieces {α : Type} (l : List α) (k : Nat) : ∀ n : Nat,
    ((List.range n).flatMap fun i => (l.drop (k * i)).take k) = l.take (k * n) := by
  intro n
  induction n with
  | zero => simp
  | succ n ih =>
    rw [List.range_succ, List.flatMap_append, ih, List.flatMap_singleton, Nat.mul_succ, List.take_add]

theorem le_mul_ceilDiv (n : Nat) {k : Nat} (hk : 0 < k) : n ≤ k * ceilDiv n k := by
  have hmod : (n + k - 1) % k < k := Nat.mod_lt _ hk
  have hdiv := Nat.div_add_mod (n + k - 1) k
  simp only [ceilDiv]
  omega

/-- A fragment's header is its first 32 bytes. -/
theorem responseFrags_bytes (now id : Nat) (r : NetResp) : ∀ f ∈ responseFrags now id r, ∃ i hdr,
    f.bytes = hdr ++ ((responseBody r).drop (9088 * i)).take 9088 ∧ hdr.length = 32 ∧ f.customer = r.customer ∧ f.dest = r.net := by
  intro f hf
  obtain ⟨i, -, rfl⟩ := List.mem_map.mp hf
  exact ⟨i, _, rfl, by simp only [List.length_append, length_leBytes], rfl, rfl⟩

theorem responseFrags_bodies (now id : Nat) (r : NetResp) :
    (responseFrags now id r).flatMap (fun f => f.bytes.drop 32) = responseBody r := by
  have hbody : ∀ i, List.drop 32 (leBytes (fld 63 48 0x6D73 ||| fld 47 40 1 ||| fld 39 36 1 ||| fld 31 0 (responseBody r).length).toNat 8 ++
      leBytes r.session.toNat 8 ++ leBytes (fld 63 32 r.clientRef ||| fld 19 0 r.customer).toNat 8 ++
      leBytes (fld 63 32 (9088 * i) ||| fld 15 0 id).toNat 8 ++ ((responseBody r).drop (9088 * i)).take 9088) =
      ((responseBody r).drop (9088 * i)).take 9088 := fun i =>
    List.drop_left' (by simp only [List.length_append, length_leBytes])
  rw [responseFrags, List.flatMap_map]
  simp only [hbody]
  rw [flatMap_pieces, List.take_of_length_le (le_mul_ceilDiv _ (by decide))]

/-! #### Writes of meter records -/

theorem State.tablesOnly_growCredit (s : State) (cu : Nat) (w : Bool) : s.TablesOnly (s.growCredit cu w) :=
  (s.tablesOnly_setTabWord _ _).trans (State.tablesOnly_setTabWord _ _ _)

theorem State.tablesOnly_chargeShaper (s : State) (cu : Nat) (n : Int) : s.TablesOnly (s.chargeShaper cu n) :=
  s.tablesOnly_setTabWord _ _

/-- What a write of tables leaves of the edge. -/
theorem State.TablesOnly.edge {s t : State} (h : s.TablesOnly t) :
    t.regs = s.regs ∧ t.out = s.out ∧ t.net = s.net ∧ t.now = s.now ∧ t.fw.responses = s.fw.responses ∧ t.fw.posted = s.fw.posted := by
  obtain ⟨_, _, _, _, _, _, _, _, rfl⟩ := h
  exact ⟨rfl, rfl, rfl, rfl, rfl, rfl⟩

/-! #### Responses -/

theorem responseItem_full {s : State} (hl : s.live = true) (hu : s.unitFailed 1 = false) {r : NetResp} {rs : List NetResp}
    (hr : s.fw.responses = r :: rs) (hfull : s.field Reg.netControl 23 16 * 2 ^ 20 ≤ s.egressBytes) :
    (s.net.stopped = true → Ignored .responseItem s) ∧
    (s.net.stopped = false → Does .responseItem s fun t => t.net = { s.net with stopped := true } ∧ t.fw = s.fw ∧
      t.reg (Reg.mtrCnt 5) = s.reg (Reg.mtrCnt 5) + 1) := by
  constructor
  · intro hs
    refine ignored_of_netGate rfl hl hu ?_
    simp only [hr, if_pos hfull, hs, if_true]
  · intro hs
    refine does_of_netGate (t := ({ s with net.stopped := true } : State).bump (Reg.mtrCnt 5)) rfl hl hu ?_
      ⟨rfl, rfl, State.reg_bump_same _ (Reg.mtrCnt 5)⟩
    simp only [hr, if_pos hfull, hs, Bool.false_eq_true, if_false]

theorem responseItem_enters {s : State} (hl : s.live = true) (hu : s.unitFailed 1 = false) {r : NetResp} {rs : List NetResp}
    (hr : s.fw.responses = r :: rs) (hroom : s.egressBytes < s.field Reg.netControl 23 16 * 2 ^ 20) :
    Does .responseItem s fun t =>
      t.fw.responses = rs ∧ t.net.shaper = s.net.shaper ++ responseFrags s.now s.net.nextMsg r ∧
      t.net.nextMsg = (s.net.nextMsg + 1) % 65536 ∧ t.net.stopped = false ∧ t.regs = s.regs ∧ t.out = s.out := by
  obtain ⟨hregs, hout, hnet, hnow, -⟩ := (s.tablesOnly_growCredit r.customer (s.waitsFor r.customer)).edge
  generalize hu' : s.growCredit r.customer (s.waitsFor r.customer) = u at *
  refine does_of_netGate (t := ({ u with
      fw.responses := rs
      net.shaper := u.net.shaper ++ responseFrags u.now u.net.nextMsg r
      net.nextMsg := (u.net.nextMsg + 1) % 65536
      net.stopped := false } : State)) rfl hl hu ?_ ⟨rfl, ?_, ?_, rfl, hregs, hout⟩
  · simp only [hr, if_neg (show ¬ s.field Reg.netControl 23 16 * 2 ^ 20 ≤ s.egressBytes by omega), hu']
  · change u.net.shaper ++ responseFrags u.now u.net.nextMsg r = _
    rw [hnet, hnow]
  · change (u.net.nextMsg + 1) % 65536 = _
    rw [hnet]

/-! #### Release -/

theorem State.sendPort_congr {s t : State} (hp : ∀ p < 2, t.reg (Reg.netPort p) = s.reg (Reg.netPort p))
    (hpause : t.net.pauses = s.net.pauses) (hnow : t.now = s.now) : t.sendPort = s.sendPort := by
  have hmay : ∀ p < 2, t.maySend 0 p = s.maySend 0 p := fun p hlt => by rw [State.maySend, State.maySend, hp p hlt, hpause, hnow]
  rw [State.sendPort, State.sendPort, List.find?_cons, List.find?_cons, List.find?_cons, List.find?_cons, hmay 0 (by decide),
    hmay 1 (by decide), List.find?_nil, List.find?_nil]

/-- A frame leaves on the port, and is counted. -/
theorem State.netSend_of_port {s : State} {p : Nat} (h : s.sendPort = some p) (m : NetOut) :
    s.netSend m = (s.emit (.net p m)).bump (Reg.netCnt 2) := by
  rw [State.netSend, h]

theorem shaperRelease_waits {s : State} (hl : s.live = true) (hu : s.unitFailed 1 = false)
    (h : s.sendPort = none ∨ s.shaperOrder.find? s.permits = none) : Ignored .shaperRelease s := by
  refine ignored_of_netGate rfl hl hu ?_
  rcases h with h | h
  · simp only [h]
  · cases hp : s.sendPort <;> simp only [hp, h]

/-- The wait of a fragment is counted when it leaves (R554). -/
def State.countWait (s : State) (f : ShapedFrag) : State :=
  if s.now ≤ f.sinceNs then s else (s.bump (Reg.mtrCnt 3)).bumpBy (Reg.mtrCnt 4) (s.now - f.sinceNs)

theorem State.countWait_keeps (s : State) (f : ShapedFrag) :
    (s.countWait f).net = s.net ∧ (s.countWait f).out = s.out ∧ (s.countWait f).now = s.now ∧
      ∀ k, k ≠ Reg.mtrCnt 3 → k ≠ Reg.mtrCnt 4 → (s.countWait f).reg k = s.reg k := by
  rw [State.countWait]
  split
  next => exact ⟨rfl, rfl, rfl, fun _ _ _ => rfl⟩
  next => exact ⟨rfl, rfl, rfl, fun k h3 h4 => (State.reg_bumpBy_other _ _ _ _ h4).trans (State.reg_bump_other _ _ _ h3)⟩

/-- The credit a fragment takes from its customer (R551). -/
def State.payFor (s : State) (c : Nat) (size : Int) : State :=
  if s.shRate c = 0 then s else (s.growCredit c true).chargeShaper c size

theorem State.tablesOnly_payFor (s : State) (c : Nat) (size : Int) : s.TablesOnly (s.payFor c size) := by
  rw [State.payFor]
  split
  next => exact .refl s
  next => exact (s.tablesOnly_growCredit c true).trans (State.tablesOnly_chargeShaper _ _ _)

theorem shaperRelease_sends {s : State} (hl : s.live = true) (hu : s.unitFailed 1 = false) {p c : Nat} {f : ShapedFrag}
    (hp : s.sendPort = some p) (hc : s.shaperOrder.find? s.permits = some c)
    (hf : (s.net.shaper.find? fun x => x.customer = c) = some f) :
    Does .shaperRelease s fun t =>
      t.net.shaper = s.net.shaper.erase f ∧ t.net.lastCust = c ∧ t.out = s.out ++ [.net p (.response f.dest f.bytes)] ∧
      t.reg (Reg.netCnt 2) = s.reg (Reg.netCnt 2) + 1 := by
  generalize hsize : (if !bit (s.meterRec c).w0 59 then ((f.ipLen : Nat) : Int) + sext 8 (bits (s.meterRec c).w0 46 39)
    else if bits (bytesWord (f.bytes.drop 24)) 63 32 = 0 then ((f.tokens : Nat) : Int) + sext 8 (bits (s.meterRec c).w0 46 39)
    else 0) = size
  obtain ⟨hregs, hout, hnet, hnow, -⟩ := (s.tablesOnly_payFor c size).edge
  obtain ⟨hnet', hout', hnow', hreg'⟩ := (s.payFor c size).countWait_keeps f
  generalize hw : (s.payFor c size).countWait f = w at *
  let v : State := { w with net.shaper := w.net.shaper.erase f, net.lastCust := c }
  have hvreg : ∀ k, k ≠ Reg.mtrCnt 3 → k ≠ Reg.mtrCnt 4 → v.reg k = s.reg k := fun k h3 h4 =>
    (hreg' k h3 h4).trans (State.reg_of_regs hregs k)
  have hport : v.sendPort = some p := by
    rw [State.sendPort_congr (s := s) (fun q _ => hvreg _ (by simp only [Reg.netPort, Reg.mtrCnt]; omega)
      (by simp only [Reg.netPort, Reg.mtrCnt]; omega)) (show w.net.pauses = _ from congrArg Net.pauses (hnet'.trans hnet)) (hnow'.trans hnow), hp]
  refine does_of_netGate (t := (v.emit (.net p (.response f.dest f.bytes))).bump (Reg.netCnt 2)) rfl hl hu ?_ ⟨?_, rfl, ?_, ?_⟩
  · rw [← State.netSend_of_port hport]
    simp only [hp, hc, hf]
    rw [hsize]
    change State.netSend { (s.payFor c size).countWait f with
      net.shaper := ((s.payFor c size).countWait f).net.shaper.erase f, net.lastCust := c } _ = _
    rw [hw]
  · exact congrArg (fun n : Net => n.shaper.erase f) (hnet'.trans hnet)
  · exact congrArg (· ++ _) (hout'.trans hout)
  · exact (State.reg_bump_same _ _).trans (congrArg (· + 1) (hvreg _ (by decide) (by decide)))

/-- Settles O52: a response's fragments are pieces of its body behind a 32-byte header, and a release is of the customer's first. -/
theorem egressAndMeter : Obligations.EgressAndMeter := by
  constructor
  · intro now n r
    refine ⟨responseFrags_bodies now n r, fun f hf => ?_⟩
    obtain ⟨i, hdr, hbytes, hlen, hcu, hdest⟩ := responseFrags_bytes now n r f hf
    refine ⟨?_, hcu, hdest⟩
    rw [hbytes, List.length_append, hlen, List.length_take]
    omega
  intro s hl
  refine ⟨fun hu => ⟨fun hr => ignored_of_netGate rfl hl hu (by simp only [hr]), fun r rs hr =>
      ⟨fun hfull => responseItem_full hl hu hr hfull, fun hroom => responseItem_enters hl hu hr hroom⟩,
    fun h => shaperRelease_waits hl hu h, fun p c f hp hc hf => shaperRelease_sends hl hu hp hc hf⟩, fun id c hw => ?_⟩
  have hexec : ∀ r, exec (.meterSet id r) s = execMeterSet id r s := fun _ => rfl
  constructor
  · exact ⟨s.complete c.id Code.hostDma 0 0, by rw [hexec, execMeterSet, hw.hostCmd], hw.is_open.underway.ends (by decide)⟩
  · intro r halg
    refine ⟨s.complete c.id Code.invalidField 0 0, ?_, hw.is_open.underway.ends (by decide)⟩
    rw [hexec, execMeterSet, hw.hostCmd]
    exact congrArg Host.Outcome.next (if_pos halg)

end Sys2Proof.Machine
end

section
/-! ### Frames, reassembly and requests at the network edge (R532 to R539, R549, R550, R555) -/

namespace Sys2Proof.Machine

open Sys2Proof

/-! #### Ports -/

theorem exec_of_gate {s u : State} {c : Instr} (hc : exec c s = .next (if s.live then u else s)) (hl : s.live = true) :
    exec c s = .next u :=
  hc.trans (congrArg Host.Outcome.next (if_pos hl))

theorem bit_setBits_bnat_same (w : Word) {p : Nat} (v : Bool) (hp : p < 64) : bit (setBits w p p (bnat v)) p = v := by
  cases v with
  | false => exact (bit_setBits_zero w hp).trans (by simp)
  | true => exact (bit_setBits_one w hp).trans (by simp)

theorem bit_setBits_bnat_other (w : Word) {p q : Nat} (v : Bool) (hp : p < 64) (h : q ≠ p) :
    bit (setBits w p p (bnat v)) q = bit w q := by
  cases v with
  | false => exact (bit_setBits_zero w hp).trans (by simp [h])
  | true => exact (bit_setBits_one w hp).trans (by simp [h])

theorem does_ethLinkState {s : State} (hl : s.live = true) (p : Fin 2) (up bad : Bool) :
    Does (.ethLinkState p up bad) s fun t =>
      bit (t.reg (Reg.netPort p.val)) 63 = up ∧
      bit (t.reg (Reg.netPort p.val)) 62 = (bad || bit (s.reg (Reg.netPort p.val)) 62) ∧
      (∀ k, k ≠ Reg.netPort p.val → t.reg k = s.reg k) ∧ t.net = s.net ∧ t.out = s.out := by
  refine ⟨_, exec_of_gate rfl hl, ?_⟩
  have hup := bit_setBits_bnat_same (s.reg (Reg.netPort p.val)) (p := 63) up (by decide)
  have hbad := bit_setBits_bnat_other (s.reg (Reg.netPort p.val)) (p := 63) (q := 62) up (by decide) (by decide)
  cases bad with
  | false =>
    simp only [State.iff_false, State.setField, State.reg_setReg_same, Bool.false_or]
    exact ⟨hup, hbad, fun k hk => s.reg_setReg_other _ _ _ hk, rfl, rfl⟩
  | true =>
    simp only [State.iff_true, State.setField, State.reg_setReg_same, Bool.true_or]
    refine ⟨?_, bit_setBits_bnat_same _ true (by decide), fun k hk => ?_, rfl, rfl⟩
    · exact (bit_setBits_bnat_other _ true (by decide) (by decide)).trans hup
    · exact (State.reg_setReg_other _ _ _ _ hk).trans (s.reg_setReg_other _ _ _ hk)

/-- A state whose port has been paused (R534). -/
def State.paused (s : State) (p q n : Nat) : State :=
  { s with net.pauses := SMap.put s.net.pauses (8 * p + q) (s.now + n) }

theorem State.maySend_paused_same (s : State) (p q n : Nat) :
    (s.paused p q n).maySend q p = (bit (s.reg (Reg.netPort p)) 63 && decide (n = 0)) := by
  have hget : SMap.get 0 (s.paused p q n).net.pauses (8 * p + q) = s.now + n := SMap.get_put_same _ _ _ _
  have hdec : decide (s.now + n ≤ s.now) = decide (n = 0) := decide_eq_decide.mpr (by omega)
  rw [State.maySend, hget]
  exact congrArg _ hdec

theorem State.maySend_paused_other (s : State) {p q p' q' : Nat} (n : Nat) (h : 8 * p' + q' ≠ 8 * p + q) :
    (s.paused p q n).maySend q' p' = s.maySend q' p' := by
  have hget : SMap.get 0 (s.paused p q n).net.pauses (8 * p' + q') = SMap.get 0 s.net.pauses (8 * p' + q') :=
    (SMap.get_put _ _ _ _ _).trans (if_neg h)
  rw [State.maySend, hget]
  rfl

theorem exec_pfcRx {s : State} (hl : s.live = true) (hu : s.unitFailed 1 = false) (p : Fin 2) (q : Fin 8) (n : Nat) :
    exec (.pfcRx p q n) s = .next (s.wake.paused p.val q.val n) :=
  exec_of_netGate rfl hl hu

theorem State.wake_parked {s : State} (h : s.plat.parkedSince.isSome = true) : s.wake = s.unpark := by
  rw [State.wake, h, State.iff_true]

theorem pfcRx_wakes {s : State} (hl : s.live = true) (hu : s.unitFailed 1 = false) (hp : s.plat.parkedSince.isSome = true)
    (p : Fin 2) (q : Fin 8) (n : Nat) :
    Does (.pfcRx p q n) s fun t => t.plat.parkedSince = none ∧
      t.maySend q.val p.val = (bit (s.reg (Reg.netPort p.val)) 63 && decide (n = 0)) := by
  refine ⟨_, exec_pfcRx hl hu p q n, ?_, ?_⟩
  · rw [State.wake_parked hp]
    exact s.unpark_parked.1
  · have hreg : s.unpark.reg (Reg.netPort p.val) = s.reg (Reg.netPort p.val) :=
      (State.reg_setReg_other _ _ _ _ (by simp only [Reg.netPort, Reg.dramStatus]; omega)).trans
        rfl
    rw [State.wake_parked hp, State.maySend_paused_same, hreg]

/-! #### Refusals -/

theorem State.noteStale_of_ne (s : State) {code : Nat} (h : code ≠ Code.staleHandle) : s.noteStale code = s := by
  rw [State.noteStale, decide_eq_false h, State.iff_false]

theorem State.refuseMsg_refuses {s u : State} (m : NetMsg) (code : Nat) (hpost : u.fw.posted = s.fw.posted)
    (hresp : u.fw.responses = s.fw.responses) (htext : u.net.toText.length ≤ s.net.toText.length) :
    Refuses s (u.refuseMsg m code) m code := by
  have hfw : (u.noteStale code).fw = u.fw := by simp
  have hnet : (u.noteStale code).net = u.net := by simp
  refine ⟨?_, ?_, { net := m.src, session := m.w1, clientRef := m.clientRef, customer := m.customer, status := code, final := true },
    ?_, rfl, rfl, rfl, rfl⟩
  · exact (congrArg Fw.posted hfw).trans hpost
  · exact (congrArg (fun n : Net => n.toText.length) hnet).trans_le htext
  · exact congrArg (· ++ _) ((congrArg Fw.responses hfw).trans hresp)

theorem State.refuseMsg_net (u : State) (m : NetMsg) (code : Nat) : (u.refuseMsg m code).net = u.net :=
  show (u.noteStale code).net = u.net by simp

theorem State.reg_refuseMsg (u : State) (m : NetMsg) {code : Nat} (h : code ≠ Code.staleHandle) (k : Nat) :
    (u.refuseMsg m code).reg k = u.reg k :=
  show (u.noteStale code).reg k = u.reg k by rw [State.noteStale_of_ne u h]

/-! #### Frames -/

/-- A pause that goes out changes only what leaves. -/
theorem State.iff_emit_eq (s : State) (b : Bool) (o : Out) : ∃ l, (s.iff b fun s => s.emit o) = { s with out := l } := by
  cases b with
  | false => exact ⟨s.out, rfl⟩
  | true => exact ⟨_, rfl⟩

theorem ethFrameRx_drops {s : State} (hl : s.live = true) (hu : s.unitFailed 1 = false) (hp : s.plat.parkedSince = none)
    {p : Fin 2} {f : EthFrame} (hd : s.dropsFrame p.val f = true) :
    Does (.ethFrameRx p f) s fun t => t.net = s.net ∧ t.fw = s.fw ∧ t.reg (Reg.netCnt 1) = s.reg (Reg.netCnt 1) + 1 := by
  obtain ⟨l, hout⟩ := s.iff_emit_eq
    ((bit (s.reg Reg.netControl) 12 && f.prio = s.field Reg.netControl 15 13) && f.room ≠ .room) (.net p.val (.pfc f.prio))
  refine does_of_netGate (t := ({ s with out := l } : State).bump (Reg.netCnt 1)) rfl hl hu ?_
    ⟨rfl, rfl, State.reg_bump_same _ (Reg.netCnt 1)⟩
  beta_reduce
  rw [State.wake_of_awake hp]
  have hd' : ({ s with out := l } : State).dropsFrame p.val f = true := hd
  simp only [hout, hd', if_true]

/-- The message that a first fragment begins. -/
def NetMsg.first (f : EthFrame) (now : Nat) : NetMsg where
  src := f.src
  dscp := f.dscp
  w0 := bytesWord (f.payload.take 32)
  w1 := bytesWord ((f.payload.take 32).drop 8)
  w2 := bytesWord ((f.payload.take 32).drop 16)
  id := bits (bytesWord ((f.payload.take 32).drop 24)) 15 0
  sinceNs := now

/-- Bytes laid from an offset upward. -/
def bytesFrom : Nat → List Byte → SMap Byte
  | _, [] => []
  | off, b :: bs => (off, b) :: bytesFrom (off + 1) bs

theorem bytesFrom_length (bs : List Byte) : ∀ off, (bytesFrom off bs).length = bs.length := by
  induction bs with
  | nil => exact fun _ => rfl
  | cons b bs ih => exact fun off => congrArg (· + 1) (ih (off + 1))

theorem lt_of_mem_bytesFrom (bs : List Byte) : ∀ off, ∀ x ∈ bytesFrom off bs, x.1 < off + bs.length := by
  induction bs with
  | nil => intro off x hx; cases hx
  | cons b bs ih =>
    intro off x hx
    rw [List.length_cons]
    rcases List.mem_cons.mp hx with rfl | hx
    · exact Nat.lt_add_of_pos_right (Nat.succ_pos _)
    · have hlt := ih (off + 1) x hx; omega

theorem lookup_bytesFrom (bs : List Byte) : ∀ off i, SMap.lookup (bytesFrom off bs) (off + i) = bs[i]? := by
  induction bs with
  | nil => intro off i; rfl
  | cons b bs ih =>
    intro off i
    cases i with
    | zero => exact if_pos rfl
    | succ i =>
      refine (if_neg (by omega)).trans ?_
      rw [show off + (i + 1) = off + 1 + i by omega, ih, List.getElem?_cons_succ]

theorem SMap.lookup_none_of_lt {α : Type} (m : SMap α) {k : Nat} (h : ∀ x ∈ m, x.1 < k) : SMap.lookup m k = none := by
  induction m with
  | nil => rfl
  | cons x m ih =>
    have hx := h x (List.mem_cons_self ..)
    exact (if_neg (by omega)).trans (ih fun y hy => h y (List.mem_cons_of_mem _ hy))

theorem SMap.put_of_lt {α : Type} (m : SMap α) {k : Nat} (v : α) (h : ∀ x ∈ m, x.1 < k) : SMap.put m k v = m ++ [(k, v)] := by
  have herase : SMap.erase m k = m := List.filter_eq_self.mpr fun x hx => by
    have hlt := h x hx
    simpa using (by omega : x.1 ≠ k)
  rw [SMap.put, herase]
  clear herase
  induction m with
  | nil => rfl
  | cons x m ih =>
    have hx := h x (List.mem_cons_self ..)
    exact (if_neg (by omega)).trans (congrArg (x :: ·) (ih fun y hy => h y (List.mem_cons_of_mem _ hy)))

/-- Bytes above all that are here are laid after them. -/
theorem addBytes_above (bs : List Byte) : ∀ (off : Nat) (m : SMap Byte), (∀ x ∈ m, x.1 < off) →
    addBytes off bs m = some (m ++ bytesFrom off bs) := by
  induction bs with
  | nil => intro off m _; rw [addBytes, bytesFrom, List.append_nil]
  | cons b bs ih =>
    intro off m hm
    rw [addBytes, SMap.lookup_none_of_lt m hm]
    refine (ih (off + 1) (SMap.put m off b) fun x hx => ?_).trans ?_
    · rw [SMap.put_of_lt m b hm, List.mem_append, List.mem_singleton] at hx
      rcases hx with hx | rfl
      · exact Nat.lt_succ_of_lt (hm x hx)
      · exact Nat.lt_succ_self off
    · rw [SMap.put_of_lt m b hm, List.append_assoc]
      rfl

theorem NetMsg.whole_bytesFrom {m : NetMsg} {bs : List Byte} (hlen : m.bodyLen = bs.length) (hb : m.bytes = bytesFrom 0 bs) :
    m.whole = true := by
  have hall : m.bytes.filter (fun b => b.1 < m.bodyLen) = m.bytes := List.filter_eq_self.mpr fun x hx => by
    have hlt := lt_of_mem_bytesFrom bs 0 x (hb ▸ hx)
    simp only [decide_eq_true_eq]
    omega
  rw [NetMsg.whole, hall, hb, bytesFrom_length, hlen, decide_eq_true rfl]

theorem NetMsg.take_bytesFrom {m : NetMsg} {bs : List Byte} (hb : m.bytes = bytesFrom 0 bs) : m.take 0 bs.length = bs := by
  refine List.ext_getElem (by simp [NetMsg.take]) fun i hi hi' => ?_
  have hlook := lookup_bytesFrom bs 0 i
  rw [List.getElem?_eq_getElem hi'] at hlook
  simp only [NetMsg.take, List.getElem_map, List.getElem_range]
  rw [hb, SMap.get, hlook]
  rfl

theorem bytesWord_take {l : List Byte} {n : Nat} (h : 8 ≤ n) : bytesWord (l.take n) = bytesWord l := by
  rw [bytesWord, List.take_take, Nat.min_eq_left h, bytesWord]

section fragment

variable {v : State} {f : EthFrame} (hr : v.net.reasm = [])
include hr

theorem State.fragment_over (hbig : v.field Reg.netControl 31 24 * 2 ^ 20 < (f.payload.drop 32).length) :
    v.fragment f = v.dropMsg (NetMsg.first f v.now) Code.netReasm := by
  have hbytes : v.reasmBytes = 0 := by rw [State.reasmBytes, hr]; rfl
  unfold State.fragment
  simp only [hr, List.find?_nil, Option.getD_none, hbytes, Nat.zero_add, if_pos hbig]
  rfl

theorem State.fragment_whole (hroom : (f.payload.drop 32).length ≤ v.field Reg.netControl 31 24 * 2 ^ 20)
    (hoff : bits (bytesWord (f.payload.drop 24)) 63 32 = 0) (hlen : bits (bytesWord f.payload) 31 0 = (f.payload.drop 32).length) :
    ∃ m, v.fragment f = { v with net.reasm := [], net.ready := v.net.ready ++ [m] } ∧ m.src = f.src ∧ m.doneNs = v.now ∧
      m.take 0 (f.payload.drop 32).length = f.payload.drop 32 := by
  have hbytes : v.reasmBytes = 0 := by rw [State.reasmBytes, hr]; rfl
  have hdrop : bytesWord ((f.payload.take 32).drop 24) = bytesWord (f.payload.drop 24) := by
    rw [List.drop_take]; exact bytesWord_take (by decide)
  let m : NetMsg := { NetMsg.first f v.now with
    id := bits (bytesWord (f.payload.drop 24)) 15 0, bytes := bytesFrom 0 (f.payload.drop 32), lens := [f.ipLen] }
  have hwhole : m.whole = true :=
    NetMsg.whole_bytesFrom (show bits (bytesWord (f.payload.take 32)) 31 0 = _ by rw [bytesWord_take (by decide), hlen]) rfl
  have hadd : addBytes 0 (f.payload.drop 32) [] = some (bytesFrom 0 (f.payload.drop 32)) :=
    addBytes_above _ 0 [] fun x hx => by cases hx
  refine ⟨{ m with doneNs := v.now }, ?_, rfl, rfl, NetMsg.take_bytesFrom rfl⟩
  unfold State.fragment
  simp only [hr, List.find?_nil, Option.getD_none, hbytes, Nat.zero_add, if_neg (Nat.not_lt.mpr hroom), hdrop, hoff, hadd,
    List.filter_nil]
  exact if_pos hwhole

end fragment

theorem ethFrameRx_fragment {s : State} (hl : s.live = true) (hu : s.unitFailed 1 = false) (hp : s.plat.parkedSince = none)
    {p : Fin 2} {f : EthFrame} (hd : s.dropsFrame p.val f = false) (hport : f.dstPort ≠ 4791) (hroom : f.room = .room) :
    exec (.ethFrameRx p f) s = .next ((s.bump (Reg.netCnt 0)).fragment f) := by
  refine (exec_of_netGate rfl hl hu).trans (congrArg Host.Outcome.next ?_)
  beta_reduce
  rw [State.wake_of_awake hp]
  simp only [hroom, ne_eq, not_true, decide_false, Bool.and_false, State.iff_false, hd, Bool.false_eq_true, if_false, if_neg hport]

theorem State.dropMsg_refuses (s : State) (m : NetMsg) (code : Nat) : Refuses s (s.dropMsg m code) m code :=
  State.refuseMsg_refuses m code rfl rfl le_rfl

theorem State.dropMsg_ready (s : State) (m : NetMsg) (code : Nat) : (s.dropMsg m code).net.ready = s.net.ready :=
  (congrArg Net.ready (State.refuseMsg_net
    (({ s with net.reasm := s.net.reasm.filter fun x => !x.sameKey m } : State).bump (Reg.netCnt 4)) m code) :)

theorem State.dropMsg_reasm (s : State) (m : NetMsg) (code : Nat) :
    (s.dropMsg m code).net.reasm = s.net.reasm.filter fun x => !x.sameKey m :=
  congrArg Net.reasm (State.refuseMsg_net _ m code)

theorem State.reg_dropMsg (s : State) (m : NetMsg) {code : Nat} (h : code ≠ Code.staleHandle) :
    (s.dropMsg m code).reg (Reg.netCnt 4) = s.reg (Reg.netCnt 4) + 1 :=
  (State.reg_refuseMsg _ _ h _).trans (State.reg_bump_same _ _)

theorem ethFrameRx_over {s : State} (hl : s.live = true) (hu : s.unitFailed 1 = false) (hp : s.plat.parkedSince = none)
    {p : Fin 2} {f : EthFrame} (hd : s.dropsFrame p.val f = false) (hport : f.dstPort ≠ 4791) (hroom : f.room = .room)
    (hr : s.net.reasm = []) (hbig : s.field Reg.netControl 31 24 * 2 ^ 20 < (f.payload.drop 32).length) :
    Does (.ethFrameRx p f) s fun t => t.net.ready = s.net.ready ∧ t.net.reasm = [] ∧
      t.reg (Reg.netCnt 4) = s.reg (Reg.netCnt 4) + 1 ∧
      ∃ r, t.fw.responses = s.fw.responses ++ [r] ∧ r.status = Code.netReasm ∧ r.net = f.src := by
  have hfield : (s.bump (Reg.netCnt 0)).field Reg.netControl 31 24 = s.field Reg.netControl 31 24 :=
    congrArg (bits · 31 24) (s.reg_bump_other _ _ (by decide))
  refine ⟨_, ethFrameRx_fragment hl hu hp hd hport hroom, ?_⟩
  rw [State.fragment_over (v := s.bump (Reg.netCnt 0)) hr (by rwa [hfield])]
  obtain ⟨-, -, r, hresp, hstatus, hnet, -⟩ := (s.bump (Reg.netCnt 0)).dropMsg_refuses (NetMsg.first f s.now) Code.netReasm
  refine ⟨State.dropMsg_ready _ _ _, ?_, ?_, r, hresp, hstatus, hnet⟩
  · refine (State.dropMsg_reasm _ _ _).trans ?_
    change List.filter _ s.net.reasm = []
    rw [hr, List.filter_nil]
  · exact (State.reg_dropMsg _ _ (by decide)).trans (congrArg (· + 1) (s.reg_bump_other _ _ (by decide)))

theorem ethFrameRx_whole {s : State} (hl : s.live = true) (hu : s.unitFailed 1 = false) (hp : s.plat.parkedSince = none)
    {p : Fin 2} {f : EthFrame} (hd : s.dropsFrame p.val f = false) (hport : f.dstPort ≠ 4791) (hroom : f.room = .room)
    (hr : s.net.reasm = []) (hcap : (f.payload.drop 32).length ≤ s.field Reg.netControl 31 24 * 2 ^ 20)
    (hoff : bits (bytesWord (f.payload.drop 24)) 63 32 = 0) (hlen : bits (bytesWord f.payload) 31 0 = (f.payload.drop 32).length) :
    Does (.ethFrameRx p f) s fun t => t.net.reasm = [] ∧ t.fw = s.fw ∧ t.reg (Reg.netCnt 0) = s.reg (Reg.netCnt 0) + 1 ∧
      ∃ m, t.net.ready = s.net.ready ++ [m] ∧ m.src = f.src ∧ m.doneNs = s.now ∧
        m.take 0 (f.payload.drop 32).length = f.payload.drop 32 := by
  have hfield : (s.bump (Reg.netCnt 0)).field Reg.netControl 31 24 = s.field Reg.netControl 31 24 :=
    congrArg (bits · 31 24) (s.reg_bump_other _ _ (by decide))
  obtain ⟨m, hm, hsrc, hdone, htake⟩ :=
    State.fragment_whole (v := s.bump (Reg.netCnt 0)) (f := f) hr (by rwa [hfield]) hoff hlen
  refine ⟨_, ethFrameRx_fragment hl hu hp hd hport hroom, ?_⟩
  rw [hm]
  exact ⟨rfl, rfl, s.reg_bump_same _, m, rfl, hsrc, hdone, htake⟩

theorem reasmTimeout_drops {s : State} (hl : s.live = true) (hu : s.unitFailed 1 = false) {m : NetMsg}
    (h : (s.net.reasm.find? fun m => m.sinceNs + msec (bits (m.netReg s Reg.netControl) 47 32) ≤ s.now) = some m) :
    Does .reasmTimeout s fun t => Refuses s t m Code.netReasm ∧ (∀ x ∈ t.net.reasm, x.sameKey m = false) ∧
      t.net.ready = s.net.ready := by
  refine does_of_netGate (t := s.dropMsg m Code.netReasm) rfl hl hu (by simp only [h]) ⟨s.dropMsg_refuses m _, fun x hx => ?_,
    s.dropMsg_ready m _⟩
  rw [State.dropMsg_reasm] at hx
  simpa using (List.mem_filter.mp hx).2

/-! #### Requests -/

theorem State.police_keeps (s : State) (reg : Nat → Word) (cu dscp : Nat) (b : Int) :
    (s.police reg cu dscp b).2.net = s.net ∧ (s.police reg cu dscp b).2.fw.posted = s.fw.posted ∧
      (s.police reg cu dscp b).2.fw.responses = s.fw.responses := by
  have hset := fun (u : State) i w => u.tablesOnly_setTabWord (u.meterAddr cu + 8 * i) w
  obtain ⟨-, -, hnet, -, hresp, hpost⟩ := ((hset s 3 _).trans (hset _ 4 _)).edge
  exact ⟨hnet, hpost, hresp⟩

/-- The post of a message: its item, with its entries, from its sender. -/
theorem State.postMsg_posts (s : State) (m : NetMsg) (es : List (BitVec 32)) :
    ∃ p, (s.postMsg m es).fw.posted = s.fw.posted ++ [p] ∧ p.net = some m.src ∧ p.entries = some es ∧ p.item.w0 = m.w1 :=
  ⟨_, rfl, rfl, rfl, rfl⟩

section request

variable {s : State} (hl : s.live = true) (hu : s.unitFailed 1 = false) {m : NetMsg} {ms : List NetMsg}
  (hr : s.net.ready = m :: ms)
include hl hu hr

theorem requestMessage_format (hf : m.formatOk = false) :
    Does .requestMessage s fun t => t.net.ready = ms ∧ Refuses s t m Code.netFormat := by
  let v : State := { s with net.ready := ms }
  refine does_of_netGate (t := v.refuseMsg m Code.netFormat) rfl hl hu ?_
    ⟨congrArg Net.ready (v.refuseMsg_net m _), State.refuseMsg_refuses m _ rfl rfl le_rfl⟩
  simp only [hr, hf, Bool.not_false, if_true]
  rfl

variable (hf : m.formatOk = true)
include hf

theorem requestMessage_denied (hsrc : s.sourceOk m.src.ip m.customer = false) :
    Does .requestMessage s fun t => t.net.ready = ms ∧ Refuses s t m Code.netDenied ∧
      t.reg (Reg.netCnt 5) = s.reg (Reg.netCnt 5) + 1 := by
  let v : State := { s with net.ready := ms }
  have hsrc' : v.sourceOk m.src.ip m.customer = false := hsrc
  refine does_of_netGate (t := (v.bump (Reg.netCnt 5)).refuseMsg m Code.netDenied) rfl hl hu ?_
    ⟨congrArg Net.ready (State.refuseMsg_net _ _ _), State.refuseMsg_refuses m _ rfl rfl le_rfl,
      (State.reg_refuseMsg _ _ (by decide) _).trans (v.reg_bump_same _)⟩
  simp only [hr, hf, Bool.not_true, Bool.false_eq_true, if_false]
  exact if_pos (by rw [hsrc']; rfl)

variable (hsrc : s.sourceOk m.src.ip m.customer = true)
include hsrc

theorem requestMessage_cancel (hc : m.isCancel = true) :
    Does .requestMessage s fun t => t.net.ready = ms ∧ t.net.toText = s.net.toText ∧
      ∃ p, t.fw.posted = s.fw.posted ++ [p] ∧ p.net = some m.src ∧ p.entries = some [] ∧ p.item.w0 = m.w1 := by
  let v : State := { s with net.ready := ms }
  have hsrc' : v.sourceOk m.src.ip m.customer = true := hsrc
  refine does_of_netGate (t := v.postMsg m []) rfl hl hu ?_ ⟨rfl, rfl, v.postMsg_posts m []⟩
  simp only [hr, hf, hc, Bool.not_true, Bool.false_eq_true, if_false, if_true]
  exact if_neg (by rw [hsrc']; decide)

variable (hc : m.isCancel = false)
include hc

theorem requestMessage_toText (htok : s.polTokens m.customer = true) :
    Does .requestMessage s fun t => t = { s with net.ready := ms, net.toText := s.net.toText ++ [m] } := by
  let v : State := { s with net.ready := ms }
  have hsrc' : v.sourceOk m.src.ip m.customer = true := hsrc
  have htok' : v.polTokens m.customer = true := htok
  refine does_of_netGate (t := { v with net.toText := v.net.toText ++ [m] }) rfl hl hu ?_ rfl
  simp only [hr, hf, hc, Bool.not_true, Bool.false_eq_true, if_false]
  exact (if_neg (by rw [hsrc']; decide)).trans (if_pos htok')

/-- The units of a message whose unit is the byte (R549). -/
def NetMsg.units (m : NetMsg) (s : State) : Int :=
  m.lens.foldl (fun (a : Int) n => a + (n : Nat) + s.polOverhead m.customer) 0

theorem requestMessage_red (htok : s.polTokens m.customer = false)
    (hred : (s.police (m.netReg s) m.customer m.dscp (m.units s)).1 = .red) :
    Does .requestMessage s fun t => t.net.ready = ms ∧ Refuses s t m Code.meterRed := by
  let v : State := { s with net.ready := ms }
  have hsrc' : v.sourceOk m.src.ip m.customer = true := hsrc
  have htok' : v.polTokens m.customer = false := htok
  have hred' : (v.police (m.netReg v) m.customer m.dscp (m.units v)).1 = .red := hred
  obtain ⟨hnet, hpost, hresp⟩ := v.police_keeps (m.netReg v) m.customer m.dscp (m.units v)
  refine does_of_netGate (t := (v.police (m.netReg v) m.customer m.dscp (m.units v)).2.refuseMsg m Code.meterRed) rfl hl hu ?_
    ⟨congrArg Net.ready ((State.refuseMsg_net _ _ _).trans hnet),
      State.refuseMsg_refuses m _ hpost hresp (congrArg (fun n : Net => n.toText.length) hnet).le⟩
  simp only [hr, hf, hc, Bool.not_true, Bool.false_eq_true, if_false]
  exact (if_neg (by rw [hsrc']; decide)).trans ((if_neg (by rw [htok']; decide)).trans (if_pos hred'))

theorem requestMessage_passes (htok : s.polTokens m.customer = false)
    (hred : (s.police (m.netReg s) m.customer m.dscp (m.units s)).1 ≠ .red) :
    Does .requestMessage s fun t => t.net.ready = ms ∧ t.fw.posted = s.fw.posted ∧ t.fw.responses = s.fw.responses ∧
      t.net.toText = s.net.toText ++
        [{ m with yellow := decide ((s.police (m.netReg s) m.customer m.dscp (m.units s)).1 = .yellow) }] := by
  let v : State := { s with net.ready := ms }
  have hsrc' : v.sourceOk m.src.ip m.customer = true := hsrc
  have htok' : v.polTokens m.customer = false := htok
  have hred' : (v.police (m.netReg v) m.customer m.dscp (m.units v)).1 ≠ .red := hred
  obtain ⟨hnet, hpost, hresp⟩ := v.police_keeps (m.netReg v) m.customer m.dscp (m.units v)
  let w := v.police (m.netReg v) m.customer m.dscp (m.units v)
  refine does_of_netGate (t := { w.2 with net.toText := w.2.net.toText ++ [{ m with yellow := decide (w.1 = .yellow) }] })
    rfl hl hu ?_ ⟨congrArg Net.ready hnet, hpost, hresp, congrArg (fun n : Net => n.toText ++ [{ m with yellow := decide (w.1 = .yellow) }]) (hnet.trans rfl)⟩
  simp only [hr, hf, hc, Bool.not_true, Bool.false_eq_true, if_false]
  exact (if_neg (by rw [hsrc']; decide)).trans ((if_neg (by rw [htok']; decide)).trans (if_neg hred'))

end request

theorem State.cacheText_keeps (s : State) (slot : Nat) : (s.cacheText slot).net = s.net ∧ (s.cacheText slot).fw = s.fw := by
  obtain ⟨l, hl⟩ := s.cacheText_eq slot
  rw [hl]
  exact ⟨rfl, rfl⟩

/-- TOKENIZE of a message changes nothing of the edge or of what firmware waits for. -/
theorem State.tokenizeMsg_keeps {s u : State} {m : NetMsg} {es : List (BitVec 32)} (h : s.tokenizeMsg m = .ok (es, u)) :
    u.net = s.net ∧ u.fw = s.fw := by
  unfold State.tokenizeMsg at h
  dsimp only at h
  split at h
  next => cases h
  next =>
    split at h
    next => cases h
    next =>
      split at h
      next => cases h
      next =>
        split at h
        next => cases h
        next =>
          split at h
          next => cases h
          next =>
            injection h with h
            injection h with _ hu
            rw [← hu]
            simp only [State.bumpBy_net, State.bumpBy_fw, State.setHdr_net, State.setHdr_fw]
            exact s.cacheText_keeps (hSlot m.w1)

section tokenized

variable {s : State} (hl : s.live = true) (hu : s.unitFailed 1 = false) {m : NetMsg} {ms : List NetMsg}
  (hr : s.net.toText = m :: ms)
include hl hu hr

theorem requestTokenized_fails {code : Nat} (h : ({ s with net.toText := ms } : State).tokenizeMsg m = .error code) :
    Does .requestTokenized s fun t => t.net.toText = ms ∧ Refuses s t m code := by
  let v : State := { s with net.toText := ms }
  let w : State := v.iff (code = Code.textControl) fun s => s.bump (Reg.txtCnt 6)
  have hw : w.net = v.net ∧ w.fw = v.fw := by
    by_cases hc : code = Code.textControl <;> simp [w, hc]
  refine does_of_netGate (t := w.refuseMsg m code) rfl hl hu ?_ ⟨congrArg Net.toText ((w.refuseMsg_net m code).trans hw.1),
    State.refuseMsg_refuses m code (congrArg Fw.posted hw.2) (congrArg Fw.responses hw.2) ?_⟩
  · simp only [hr, h]
    rfl
  · rw [hw.1, hr]
    exact Nat.le_succ _

variable {es : List (BitVec 32)} {u : State} (h : ({ s with net.toText := ms } : State).tokenizeMsg m = .ok (es, u))
include h

theorem requestTokenized_posts (htok : u.polTokens m.customer = false) :
    Does .requestTokenized s fun t => t.net.toText = ms ∧
      ∃ p, t.fw.posted = s.fw.posted ++ [p] ∧ p.net = some m.src ∧ p.entries = some es ∧ p.item.w0 = m.w1 := by
  obtain ⟨hnet, hfw⟩ := State.tokenizeMsg_keeps h
  obtain ⟨p, hp, hp'⟩ := u.postMsg_posts m es
  refine does_of_netGate (t := u.postMsg m es) rfl hl hu ?_ ⟨congrArg Net.toText hnet, p, hfw ▸ hp, hp'⟩
  simp only [hr, h, htok, Bool.not_false, if_true]

/-- The units of a message whose unit is the token (R549). -/
def NetMsg.tokenUnits (m : NetMsg) (es : List (BitVec 32)) (u : State) : Int :=
  ((es.length + bits (m.word 0) 63 32 : Nat) : Int) + u.polOverhead m.customer

theorem requestTokenized_red (htok : u.polTokens m.customer = true)
    (hred : (u.police (m.netReg u) m.customer m.dscp (m.tokenUnits es u)).1 = .red) :
    Does .requestTokenized s fun t => t.net.toText = ms ∧ Refuses s t m Code.meterRed := by
  obtain ⟨hnet, hfw⟩ := State.tokenizeMsg_keeps h
  obtain ⟨hnet', hpost, hresp⟩ := u.police_keeps (m.netReg u) m.customer m.dscp (m.tokenUnits es u)
  refine does_of_netGate (t := (u.police (m.netReg u) m.customer m.dscp (m.tokenUnits es u)).2.refuseMsg m Code.meterRed)
    rfl hl hu ?_ ⟨congrArg Net.toText ((State.refuseMsg_net _ _ _).trans (hnet'.trans hnet)),
      State.refuseMsg_refuses m _ (hpost.trans (congrArg Fw.posted hfw)) (hresp.trans (congrArg Fw.responses hfw)) ?_⟩
  · simp only [hr, h, htok, Bool.not_true, Bool.false_eq_true, if_false]
    exact if_pos hred
  · rw [hnet', hnet, hr]
    exact Nat.le_succ _

theorem requestTokenized_passes (htok : u.polTokens m.customer = true)
    (hred : (u.police (m.netReg u) m.customer m.dscp (m.tokenUnits es u)).1 ≠ .red) :
    Does .requestTokenized s fun t => t.net.toText = ms ∧
      ∃ p, t.fw.posted = s.fw.posted ++ [p] ∧ p.net = some m.src ∧ p.entries = some es := by
  obtain ⟨hnet, hfw⟩ := State.tokenizeMsg_keeps h
  obtain ⟨hnet', hpost, -⟩ := u.police_keeps (m.netReg u) m.customer m.dscp (m.tokenUnits es u)
  let w := u.police (m.netReg u) m.customer m.dscp (m.tokenUnits es u)
  obtain ⟨p, hp, hsrc, hes, -⟩ := w.2.postMsg_posts { m with yellow := decide (w.1 = .yellow) } es
  refine does_of_netGate (t := w.2.postMsg { m with yellow := decide (w.1 = .yellow) } es)
    rfl hl hu ?_ ⟨congrArg Net.toText (hnet'.trans hnet), p, ?_, hsrc, hes⟩
  · simp only [hr, h, htok, Bool.not_true, Bool.false_eq_true, if_false]
    exact if_neg hred
  · rw [hp, hpost, hfw]

end tokenized

/-- Settles O51: each of the edge's commands is one of its cases, told apart by the checks of R538 in order. -/
theorem networkEdge : Obligations.NetworkEdge := by
  intro s hl
  refine ⟨fun p up bad => does_ethLinkState hl p up bad, fun hu => ⟨fun hp p q n => pfcRx_wakes hl hu hp p q n, fun hp => ⟨?_,
    fun p f hd => ethFrameRx_drops hl hu hp hd, fun p f hd hport hroom hr => ⟨fun hbig => ethFrameRx_over hl hu hp hd hport hroom hr hbig,
      fun hcap hoff hlen => ethFrameRx_whole hl hu hp hd hport hroom hr hcap hoff hlen⟩⟩,
    ⟨fun h => ignored_of_netGate rfl hl hu (by simp only [h]), fun m h => reasmTimeout_drops hl hu h⟩,
    fun hr => ignored_of_netGate rfl hl hu (by simp only [hr]), fun m ms hr => ?_,
    fun hr => ignored_of_netGate rfl hl hu (by simp only [hr]), fun m ms hr => ?_⟩⟩
  · intro p q n
    have hexec := exec_pfcRx hl hu p q n
    rw [State.wake_of_awake hp] at hexec
    exact ⟨_, hexec, s.maySend_paused_same _ _ _, fun p' q' hne => s.maySend_paused_other n hne, rfl, rfl⟩
  · exact ⟨fun hf => requestMessage_format hl hu hr hf, fun hf hsrc => requestMessage_denied hl hu hr hf hsrc, fun hf hsrc =>
      ⟨fun hc => requestMessage_cancel hl hu hr hf hsrc hc, fun hc htok => requestMessage_toText hl hu hr hf hsrc hc htok,
        fun hc htok => ⟨fun hred => requestMessage_red hl hu hr hf hsrc hc htok hred,
          fun hred => requestMessage_passes hl hu hr hf hsrc hc htok hred⟩⟩⟩
  · exact ⟨fun code h => requestTokenized_fails hl hu hr h, fun es u h => ⟨fun htok => requestTokenized_posts hl hu hr h htok,
      fun htok => ⟨fun hred => requestTokenized_red hl hu hr h htok hred, fun hred => requestTokenized_passes hl hu hr h htok hred⟩⟩⟩

end Sys2Proof.Machine
end

section
/-! ### The sett (R619 to R626, R743) -/

namespace Sys2Proof.Machine

open Sys2Proof

/-- What a command does that acts while the module is live. -/
theorem does_of_gate {s t u : State} {c : Instr} {P : State → Prop} (hc : exec c s = .next (if s.live then u else s))
    (hl : s.live = true) (ht : u = t) (h : P t) : Does c s P :=
  ⟨u, exec_of_gate hc hl, ht ▸ h⟩

theorem ignored_of_gate {s u : State} {c : Instr} (hc : exec c s = .next (if s.live then u else s)) (hl : s.live = true)
    (hu : u = s) : Ignored c s :=
  (exec_of_gate hc hl).trans (congrArg Host.Outcome.next hu)

/-! #### Fields of SETT.STATUS -/

theorem State.field_settCode (s : State) {c : Nat} (h : c < 65536) : (s.settCode c).field Reg.settStatus 47 32 = c :=
  (s.field_setField_same _ _ _ _ (by decide) (by decide)).trans (Nat.mod_eq_of_lt h)

theorem State.reg_noteSpares (s : State) {k : Nat} (h : k ≠ Reg.settStatus) : s.noteSpares.reg k = s.reg k :=
  (State.reg_setReg_other _ _ _ _ h).trans (s.reg_setReg_other _ _ _ h)

theorem State.noteSpares_keeps (s : State) : s.noteSpares.sett = s.sett ∧ s.noteSpares.mem = s.mem := ⟨rfl, rfl⟩

/-! #### Pages -/

theorem settAddr_page (page o : Nat) : settAddr page o = settAddr page 0 + o := by
  simp only [settAddr, Nat.add_zero]

/-- A page without a place whose bytes are all zero. -/
def State.settZero (s : State) (page : Nat) : Prop :=
  (∀ o < 65536, s.byte (settAddr page o) = 0) ∧ SMap.lookup s.sett.place page = none

theorem State.trim_zero (s : State) (page : Nat) : (s.trim page).settZero page := by
  refine ⟨fun o ho => ?_, SMap.lookup_erase_same _ _⟩
  have hin := settAddr_page page o
  rw [State.trim, State.byte_zeroRange, if_pos (by omega)]

theorem State.trim_outside (s : State) {page a : Nat} (h : a < settAddr page 0 ∨ settAddr page 0 + 65536 ≤ a) :
    (s.trim page).byte a = s.byte a := by
  rw [State.trim, State.byte_zeroRange, if_neg (by omega)]
  rfl

theorem State.trim_place_other (s : State) {page q : Nat} (h : q ≠ page) :
    SMap.lookup (s.trim page).sett.place q = SMap.lookup s.sett.place q :=
  (SMap.lookup_erase _ _ _).trans (if_neg h)

theorem State.sett_countSett (s : State) (n : Nat) : (s.countSett n).sett = s.sett := rfl

section up

variable {s : State} {page : Nat} (hl : s.live = true) (hup : s.settUp = true) (hpage : page < 805306368)
include hl hup hpage

theorem does_settRead : Does (.settRead page) s fun t => t = { s with sett.reads := s.sett.reads ++ [SettRead.mk page
    (SMap.lookup s.sett.place page).isSome (if s.sett.lost.contains page then none else some (s.settData page))] } :=
  does_of_gate rfl hl (by exact if_neg (by simp [hup, hpage])) rfl

omit hup hpage in
theorem settProgram_inhibited (d : List (Nat × Byte)) (h : s.plat.inhibit = true) : Ignored (.settProgram page d) s :=
  ignored_of_gate rfl hl (by exact if_pos (by simp [h]))

theorem settProgram_starts (d : List (Nat × Byte)) (hin : s.plat.inhibit = false) (hworn : bit (s.reg Reg.settStatus) 60 = false) :
    Does (.settProgram page d) s fun t =>
      t.sett = { s.sett with progs := s.sett.progs ++ [SettProg.mk page d false] } ∧ t.mem = s.mem ∧
      (s.settClaimed page = true → t.regs = s.regs ∧ t.tsm = s.tsm) ∧
      (s.settClaimed page = false → t.reg Reg.tsmSettUsed = BitVec.ofNat 64 (s.settUsed + 65536) ∧
        SMap.get 0 t.tsm.bins s.tsm.bin = SMap.get 0 s.tsm.bins s.tsm.bin + 65536) := by
  have hgo : ¬ (!s.settUp || decide (805306368 ≤ page) || s.plat.inhibit) = true := by simp [hup, hpage, hin]
  let v := s.iff (!s.settClaimed page) fun s => s.countSett 65536
  have hv : v.sett = s.sett ∧ v.mem = s.mem := by
    simp only [v]
    cases s.settClaimed page with
    | false => exact ⟨s.sett_countSett 65536, (s.countSett_keeps 65536).2⟩
    | true => exact ⟨rfl, rfl⟩
  refine does_of_gate (t := { v with sett.progs := v.sett.progs ++ [SettProg.mk page d false] }) rfl hl
    (by exact (if_neg hgo).trans (if_neg (by simp [hworn]))) ⟨?_, hv.2, fun hc => ?_, fun hc => ?_⟩
  · exact congrArg (fun x : Sett => { x with progs := x.progs ++ [SettProg.mk page d false] }) hv.1
  · have hvs : v = s := by simp only [v, hc, Bool.not_true, State.iff_false]
    exact ⟨(congrArg State.regs hvs :), (congrArg State.tsm hvs :)⟩
  · have hvs : v = s.countSett 65536 := by simp only [v, hc, Bool.not_false, State.iff_true]
    refine ⟨?_, ?_⟩
    · exact (congrArg (State.reg · Reg.tsmSettUsed) hvs).trans (State.reg_setReg_same _ _ _)
    · exact (congrArg (fun x : State => SMap.get 0 x.tsm.bins s.tsm.bin) hvs).trans
        (SMap.get_set_same 0 s.tsm.bins s.tsm.bin (SMap.get 0 s.tsm.bins s.tsm.bin + 65536) :)

theorem settProgram_worn (d : List (Nat × Byte)) (hin : s.plat.inhibit = false) (hworn : bit (s.reg Reg.settStatus) 60 = true) :
    Does (.settProgram page d) s fun t => t.sett = s.sett ∧ t.field Reg.settStatus 47 32 = Code.settWorn := by
  have hgo : ¬ (!s.settUp || decide (805306368 ≤ page) || s.plat.inhibit) = true := by simp [hup, hpage, hin]
  exact does_of_gate (t := s.settCode Code.settWorn) rfl hl (by exact (if_neg hgo).trans (if_pos hworn)) ⟨rfl, s.field_settCode (by decide)⟩

theorem does_settTrim (h : ∀ x ∈ s.sett.progs, x.page ≠ page) : Does (.settTrim page) s fun t => t.settZero page ∧
    (∀ a, (a < settAddr page 0 ∨ settAddr page 0 + 65536 ≤ a) → t.byte a = s.byte a) ∧
    ∀ q, q ≠ page → SMap.lookup t.sett.place q = SMap.lookup s.sett.place q := by
  have hnone : ¬ (s.sett.progs.any fun x => x.page = page) = true := by simpa using h
  exact does_of_gate (t := s.trim page) rfl hl (by exact (if_pos (by simp [hup, hpage])).trans (if_neg hnone))
    ⟨s.trim_zero page, fun a ha => s.trim_outside ha, fun q hq => s.trim_place_other hq⟩

theorem does_trimAll : Does .trimAll s fun t => t.sett.place = [] ∧ t.settZero page ∧ (∀ x ∈ t.sett.progs, x.trim = true) ∧
    ∀ a, a < settAddr 0 0 → t.byte a = s.byte a := by
  refine does_of_gate (t := s.trimAll) rfl hl (by exact if_pos hup) ⟨rfl, ⟨fun o ho => ?_, rfl⟩, fun x hx => ?_, fun a ha => ?_⟩
  · rw [State.trimAll, State.byte_zeroRange, if_pos (by simp only [settAddr]; omega)]
  · obtain ⟨y, _, rfl⟩ := List.mem_map.mp hx
    rfl
  · rw [State.trimAll, State.byte_zeroRange, if_neg (by omega)]
    rfl

end up

theorem sett_down {s : State} (hl : s.live = true) (h : s.settUp = false) (page : Nat) (d : List (Nat × Byte)) :
    Ignored (.settRead page) s ∧ Ignored (.settProgram page d) s ∧ Ignored (.settTrim page) s ∧ Ignored .trimAll s :=
  ⟨ignored_of_gate rfl hl (by exact if_pos (by simp [h])), ignored_of_gate rfl hl (by exact if_pos (by simp [h])),
    ignored_of_gate rfl hl (by exact if_neg (by simp [h])), ignored_of_gate rfl hl (by exact if_neg (by simp [h]))⟩

/-! #### The end of a read -/

theorem countReads_eq (retry : Bool) (bs : List Nat) : ∀ s : State, ∃ x, countReads retry bs s = { s with sett.blocks := x } := by
  induction bs with
  | nil => exact fun s => ⟨s.sett.blocks, rfl⟩
  | cons b bs ih =>
    intro s
    obtain ⟨x, hx⟩ := ih (s.setBlock b { s.block b with reads := (s.block b).reads + 1, retry := (s.block b).retry || retry })
    exact ⟨x, hx⟩

/-- The state in which a read's contents are looked at: the read is off the list and counted. -/
def State.readEnds (s : State) (r : SettRead) (page retries rebuilt : Nat) : State :=
  let v := { s with sett.reads := s.sett.reads.erase r }.bump (Reg.settCnt 0)
  let v := (v.bumpBy (Reg.settCnt 3) retries).bumpBy (Reg.settCnt 4) rebuilt
  countReads (0 < retries) (SMap.get [] v.sett.place page) v

theorem State.readEnds_keeps (s : State) (r : SettRead) (page retries rebuilt : Nat) :
    (s.readEnds r page retries rebuilt).reg (Reg.settCnt 0) = s.reg (Reg.settCnt 0) + 1 ∧
    (s.readEnds r page retries rebuilt).reg (Reg.settCnt 3) = s.reg (Reg.settCnt 3) + BitVec.ofNat 64 retries ∧
    (s.readEnds r page retries rebuilt).mem = s.mem ∧ (s.readEnds r page retries rebuilt).tsm = s.tsm ∧
    (s.readEnds r page retries rebuilt).sett.reads = s.sett.reads.erase r := by
  let a : State := { s with sett.reads := s.sett.reads.erase r }
  let v := ((a.bump (Reg.settCnt 0)).bumpBy (Reg.settCnt 3) retries).bumpBy (Reg.settCnt 4) rebuilt
  obtain ⟨x, hx⟩ := countReads_eq (0 < retries) (SMap.get [] v.sett.place page) v
  have hends : s.readEnds r page retries rebuilt = { v with sett.blocks := x } := hx
  have h0 : v.reg (Reg.settCnt 0) = s.reg (Reg.settCnt 0) + 1 :=
    (State.reg_bumpBy_other _ _ _ _ (by decide)).trans ((State.reg_bumpBy_other _ _ _ _ (by decide)).trans (a.reg_bump_same _))
  have h3 : v.reg (Reg.settCnt 3) = s.reg (Reg.settCnt 3) + BitVec.ofNat 64 retries :=
    (State.reg_bumpBy_other _ _ _ _ (by decide)).trans ((State.reg_bumpBy_same _ _ _).trans
      (congrArg (· + _) (a.reg_bump_other _ _ (by decide))))
  rw [hends]
  exact ⟨h0, h3, rfl, rfl, rfl⟩

theorem exec_settReadDone {s : State} (hl : s.live = true) {r : SettRead} (hr : s.sett.reads = [r]) (lost : Bool)
    (retries rebuilt : Nat) :
    exec (.settReadDone r.page lost retries rebuilt) s = .next (
      let v := s.readEnds r r.page retries rebuilt
      match r.data with
      | none => v.settUe r.page
      | some d => if lost && r.mapped then v.settUe r.page else { v with sett.staged := SMap.put v.sett.staged r.page d }) := by
  have hfind : (s.sett.reads.find? fun x => x.page = r.page) = some r := by
    rw [hr, List.find?_cons_of_pos (by simp)]
  refine (exec_of_gate rfl hl).trans (congrArg Host.Outcome.next ?_)
  simp only [hfind]
  rfl

theorem settReadDone_stages {s : State} (hl : s.live = true) {r : SettRead} (hr : s.sett.reads = [r]) (retries rebuilt : Nat)
    {d : List (Nat × Byte)} (hd : r.data = some d) : Does (.settReadDone r.page false retries rebuilt) s fun t =>
      SMap.lookup t.sett.staged r.page = some d ∧ t.sett.reads = [] ∧ t.reg (Reg.settCnt 0) = s.reg (Reg.settCnt 0) + 1 ∧
      t.reg (Reg.settCnt 3) = s.reg (Reg.settCnt 3) + BitVec.ofNat 64 retries ∧ t.mem = s.mem := by
  obtain ⟨h0, h3, hmem, -, hreads⟩ := s.readEnds_keeps r r.page retries rebuilt
  have hexec := exec_settReadDone hl hr false retries rebuilt
  simp only [hd, Bool.false_and, Bool.false_eq_true, if_false] at hexec
  refine ⟨_, hexec, SMap.lookup_put_same _ _ _, hreads.trans (by rw [hr, List.erase_cons_head]), h0, h3, hmem⟩

theorem settReadDone_unreadable {s : State} (hl : s.live = true) {r : SettRead} (hr : s.sett.reads = [r]) (retries rebuilt : Nat)
    (hd : r.data = none) (hhome : s.pageAtSett r.page = none) : Does (.settReadDone r.page false retries rebuilt) s fun t =>
      t.settZero r.page ∧ t.field Reg.settStatus 47 32 = Code.settUe ∧ t.sett.reads = [] := by
  obtain ⟨-, -, -, htsm, hreads⟩ := s.readEnds_keeps r r.page retries rebuilt
  have hexec := exec_settReadDone hl hr false retries rebuilt
  simp only [hd] at hexec
  generalize s.readEnds r r.page retries rebuilt = v at *
  let w := v.iff (!v.sett.lost.contains r.page) fun s => s.bump (Reg.settCnt 7)
  have hw : w.tsm = s.tsm ∧ w.sett = v.sett := by
    simp only [w]
    cases v.sett.lost.contains r.page <;> exact ⟨htsm, rfl⟩
  have hnone : w.pageAtSett r.page = none := by rw [State.pageAtSett, hw.1]; exact hhome
  let x := (w.settCode Code.settUe).event Code.settUe 0 5 7 0 0 (BitVec.ofNat 64 r.page)
  have hue : v.settUe r.page = x.trim r.page := by
    unfold State.settUe
    simp only [show (v.iff (!v.sett.lost.contains r.page) fun s => s.bump (Reg.settCnt 7)).pageAtSett r.page = none from hnone]
    rfl
  rw [hue] at hexec
  refine ⟨_, hexec, x.trim_zero r.page, ?_, ?_⟩
  · exact (congrArg (bits · 47 32) (State.reg_event _ _ _ _ _ _ _ _ (by decide))).trans (w.field_settCode (by decide))
  · have hx : x.sett = v.sett := (by simp [x] : x.sett = (w.settCode Code.settUe).sett).trans hw.2
    exact (congrArg Sett.reads hx).trans (hreads.trans (by rw [hr, List.erase_cons_head]))

/-! #### The end of a program -/

theorem dateBlocks_eq (bs : List Nat) : ∀ s : State, ∃ x, dateBlocks bs s = { s with sett.blocks := x } := by
  induction bs with
  | nil => exact fun s => ⟨s.sett.blocks, rfl⟩
  | cons b bs ih =>
    intro s
    obtain ⟨x, hx⟩ := ih (s.setBlock b { s.block b with writtenNs := (s.block b).writtenNs.or (some (s.now : Int)) })
    exact ⟨x, hx⟩

/-- Byte o of a page's new contents: the last given for it. -/
def lastByte (data : List (Nat × Byte)) (o : Nat) : Option Byte := ((data.filter fun x => x.1 = o).getLast?).map (·.2)

theorem lastByte_append (data : List (Nat × Byte)) (x : Nat × Byte) (o : Nat) :
    lastByte (data ++ [x]) o = if x.1 = o then some x.2 else lastByte data o := by
  by_cases h : x.1 = o
  · simp [lastByte, List.filter_append, h]
  · simp [lastByte, List.filter_append, h]

/-- The cells after a page's bytes are laid down one by one. -/
def layPage (page : Nat) (data : List (Nat × Byte)) (m : List Host.Cell) : List Host.Cell :=
  data.foldl (fun m x => if x.1 < 65536 then SMap.set 0 m (settAddr page x.1) x.2 else m) m

theorem get_layPage_inside (page : Nat) {o : Nat} (ho : o < 65536) (m : List Host.Cell) (data : List (Nat × Byte)) :
    SMap.get (0 : Byte) (layPage page data m) (settAddr page o) = (lastByte data o).getD (SMap.get 0 m (settAddr page o)) := by
  induction data using List.reverseRecOn with
  | nil => rfl
  | append_singleton data x ih =>
    rw [layPage, List.foldl_append, List.foldl_cons, List.foldl_nil, ← layPage, lastByte_append]
    by_cases hx : x.1 = o
    · rw [if_pos hx, if_pos (by omega), hx, SMap.get_set_same, Option.getD_some]
    · rw [if_neg hx]
      split
      next => rw [SMap.get_set_other _ _ _ _ _ _ (by simp only [settAddr]; omega), ih]
      next => exact ih

theorem get_layPage_outside (page : Nat) {a : Nat} (ha : a < settAddr page 0 ∨ settAddr page 0 + 65536 ≤ a) (m : List Host.Cell)
    (data : List (Nat × Byte)) : SMap.get (0 : Byte) (layPage page data m) a = SMap.get 0 m a := by
  induction data using List.reverseRecOn with
  | nil => rfl
  | append_singleton data x ih =>
    rw [layPage, List.foldl_append, List.foldl_cons, List.foldl_nil, ← layPage]
    split
    next hx => rw [SMap.get_set_other _ _ _ _ _ _ (by rw [settAddr_page page x.1]; omega), ih]
    next => exact ih

theorem State.byte_setSettData_inside (s : State) (page : Nat) (data : List (Nat × Byte)) {o : Nat} (ho : o < 65536) :
    (s.setSettData page data).byte (settAddr page o) = (lastByte data o).getD 0 := by
  refine (get_layPage_inside page ho _ data).trans (congrArg _ ?_)
  have hin := settAddr_page page o
  exact (s.byte_zeroRange _ _ _).trans (if_pos (by omega))

theorem State.byte_setSettData_outside (s : State) (page : Nat) (data : List (Nat × Byte)) {a : Nat}
    (ha : a < settAddr page 0 ∨ settAddr page 0 + 65536 ≤ a) : (s.setSettData page data).byte a = s.byte a :=
  (get_layPage_outside page ha _ data).trans ((s.byte_zeroRange _ _ _).trans (if_neg (by omega)))

section program

variable {s : State} (hl : s.live = true) {p : SettProg} (hp : s.sett.progs = [p]) (htrim : p.trim = false)

/-- The state after a program's end has reached the ferry and the list of programs. -/
def State.programEnds (s : State) (p : SettProg) (page : Nat) (ok : Bool) (bytes : Nat) : State :=
  let v := (s.noteProgram page ok).bumpBy (Reg.settCnt 2) bytes
  { v with sett.progs := v.sett.progs.erase p }

include hl hp htrim

theorem settProgramDone_keeps (blocks : List Nat) (n : Nat) :
    exec (.settProgramDone p.page false blocks n) s = .next (s.programEnds p p.page false n) := by
  have hfind : (s.sett.progs.find? fun x => x.page = p.page) = some p := by rw [hp, List.find?_cons_of_pos (by simp)]
  refine (exec_of_gate rfl hl).trans (congrArg Host.Outcome.next ?_)
  simp only [hfind, htrim, Bool.false_eq_true, if_false]
  rfl

/-- The page has its new contents, place and date. -/
def State.programmed (s : State) (p : SettProg) (page : Nat) (blocks : List Nat) (bytes : Nat) : State :=
  let v := ((s.programEnds p page true bytes).bump (Reg.settCnt 1)).setSettData page p.data
  dateBlocks blocks { v with
    sett.place := SMap.put v.sett.place page blocks, sett.lost := v.sett.lost.filter fun q => q ≠ page }

theorem settProgramDone_programs (blocks : List Nat) (n : Nat) :
    exec (.settProgramDone p.page true blocks n) s = .next (s.programmed p p.page blocks n) := by
  have hfind : (s.sett.progs.find? fun x => x.page = p.page) = some p := by rw [hp, List.find?_cons_of_pos (by simp)]
  refine (exec_of_gate rfl hl).trans (congrArg Host.Outcome.next ?_)
  simp only [hfind, htrim, Bool.false_eq_true, if_false, Bool.not_true]
  rfl

omit hl hp htrim in
theorem State.programmed_eq (p : SettProg) (page : Nat) (blocks : List Nat) (n : Nat) :
    ∃ x, s.programmed p page blocks n =
      let v := ((s.programEnds p page true n).bump (Reg.settCnt 1)).setSettData page p.data
      { v with sett.place := SMap.put v.sett.place page blocks, sett.lost := v.sett.lost.filter (fun q => q ≠ page), sett.blocks := x } :=
  dateBlocks_eq blocks _

theorem does_settProgramDone_ok (blocks : List Nat) (n : Nat) : Does (.settProgramDone p.page true blocks n) s fun t =>
    SMap.lookup t.sett.place p.page = some blocks ∧ t.sett.progs = [] ∧
    (∀ o < 65536, t.byte (settAddr p.page o) = (lastByte p.data o).getD 0) ∧
    (∀ a, (a < settAddr p.page 0 ∨ settAddr p.page 0 + 65536 ≤ a) → t.byte a = s.byte a) ∧
    t.reg (Reg.settCnt 1) = s.reg (Reg.settCnt 1) + 1 := by
  refine ⟨_, settProgramDone_programs hl hp htrim blocks n, ?_⟩
  obtain ⟨x, hx⟩ := State.programmed_eq (s := s) p p.page blocks n
  let v := (s.programEnds p p.page true n).bump (Reg.settCnt 1)
  have hbyte : ∀ a, (s.programmed p p.page blocks n).byte a = (v.setSettData p.page p.data).byte a := fun a =>
    (congrArg (fun u : State => SMap.get (0 : Byte) u.mem a) hx :)
  refine ⟨?_, ?_, fun o ho => (hbyte _).trans (v.byte_setSettData_inside p.page p.data ho),
    fun a ha => (hbyte a).trans (v.byte_setSettData_outside p.page p.data ha), ?_⟩
  · rw [hx]
    exact SMap.lookup_put_same _ _ _
  · rw [hx]
    change s.sett.progs.erase p = []
    rw [hp, List.erase_cons_head]
  · have hreg : (s.programmed p p.page blocks n).reg (Reg.settCnt 1) = v.reg (Reg.settCnt 1) :=
      State.reg_of_regs (congrArg State.regs hx) _
    refine hreg.trans ((State.reg_bump_same _ _).trans (congrArg (· + 1) ((s.noteProgram p.page true).reg_bumpBy_other _ _ _ (by decide))))

theorem does_settProgramDone_failed (blocks : List Nat) (n : Nat) : Does (.settProgramDone p.page false blocks n) s fun t =>
    t.mem = s.mem ∧ t.sett.place = s.sett.place ∧ t.sett.progs = [] ∧ t.reg (Reg.settCnt 1) = s.reg (Reg.settCnt 1) := by
  refine ⟨_, settProgramDone_keeps hl hp htrim blocks n, rfl, rfl, ?_,
    (s.noteProgram p.page false).reg_bumpBy_other _ _ _ (by decide)⟩
  change s.sett.progs.erase p = []
  rw [hp, List.erase_cons_head]

/-- The end of the program reaches the move that waits for it, whether it succeeded or not (R68). -/
theorem does_settProgramDone_op (blocks : List Nat) (n k : Nat) {op : PageOp} (ok : Bool) (hop : SMap.lookup s.tsm.ops k = some op)
    (hd : op.isDrop = false) (hdst : op.dst = .sett) (hloc : op.dstLoc = p.page) (hst : op.stage = .write ∨ op.stage = .verify) :
    Does (.settProgramDone p.page ok blocks n) s fun t => SMap.lookup t.tsm.ops k = some { op with prog := some ok } := by
  have hnote : SMap.lookup (s.noteProgram p.page ok).tsm.ops k = some { op with prog := some ok } := by
    refine (SMap.lookup_map (fun y : PageOp => if !y.isDrop && y.dst = .sett && y.dstLoc = p.page &&
      (y.stage = .write || y.stage = .verify) then { y with prog := some ok } else y) _ _).trans ?_
    rw [hop, Option.map_some, if_pos (by rcases hst with hst | hst <;> simp [hd, hdst, hloc, hst])]
  cases ok with
  | false => exact ⟨_, settProgramDone_keeps hl hp htrim blocks n, hnote⟩
  | true =>
    refine ⟨_, settProgramDone_programs hl hp htrim blocks n, ?_⟩
    obtain ⟨x, hx⟩ := State.programmed_eq (s := s) p p.page blocks n
    rw [hx]
    exact hnote

end program

/-! #### Upkeep -/

theorem State.block_setBlock_same (s : State) (b : Nat) (x : SettBlock) : (s.setBlock b x).block b = x := SMap.get_set_same _ _ _ _
theorem State.block_setBlock_other (s : State) {b c : Nat} (x : SettBlock) (h : c ≠ b) : (s.setBlock b x).block c = s.block c :=
  SMap.get_set_other _ _ _ _ _ _ h

/-- The valid pages of a block have moved to another one, and count. -/
def State.MovedPages (s t : State) (b dest : Nat) : Prop :=
  t.sett.place = s.sett.place.map (fun x => (x.1, x.2.map fun y => if y = b then dest else y)) ∧
    t.mem = s.mem ∧ t.reg (Reg.settCnt 5) = s.reg (Reg.settCnt 5) + BitVec.ofNat 64 (s.blockPages b).length

theorem State.mem_setBlock (s : State) (b : Nat) (x : SettBlock) : (s.setBlock b x).mem = s.mem := rfl
theorem State.mem_noteLife (s : State) : s.noteLife.mem = s.mem := rfl
theorem State.place_noteLife (s : State) : s.noteLife.sett.place = s.sett.place := rfl

theorem State.relocate_moved (s : State) (b dest n : Nat) : s.MovedPages (s.relocate b dest n) b dest :=
  ⟨rfl, rfl, (State.reg_bumpBy_other _ _ _ _ (by decide)).trans (State.reg_bumpBy_same _ _ _)⟩

/-- The state after a block is retired: a spare less (R625). -/
def State.retireBlock (s : State) (b : Nat) : State :=
  let w := (s.setBlock b { s.block b with retired := true }).bump (Reg.settCnt 6)
  { w with sett.spares := w.sett.spares - 1 }.noteSpares

theorem State.retireBlock_retires (s : State) (b : Nat) :
    (s.retireBlock b).sett.place = s.sett.place ∧ (s.retireBlock b).mem = s.mem ∧
    (s.retireBlock b).sett.spares = s.sett.spares - 1 ∧ (s.retireBlock b).reg (Reg.settCnt 5) = s.reg (Reg.settCnt 5) ∧
    (s.retireBlock b).reg (Reg.settCnt 6) = s.reg (Reg.settCnt 6) + 1 ∧ (s.retireBlock b).blockOpen b = false := by
  let w := (s.setBlock b { s.block b with retired := true }).bump (Reg.settCnt 6)
  let x : State := { w with sett.spares := w.sett.spares - 1 }
  have hret : x.block b = { s.block b with retired := true } := s.block_setBlock_same b _
  have h5 : x.reg (Reg.settCnt 5) = s.reg (Reg.settCnt 5) := (s.setBlock b _).reg_bump_other _ _ (by decide)
  have h6 : x.reg (Reg.settCnt 6) = s.reg (Reg.settCnt 6) + 1 := (s.setBlock b _).reg_bump_same _
  exact ⟨rfl, rfl, rfl, (State.reg_noteSpares x (by decide)).trans h5, (State.reg_noteSpares x (by decide)).trans h6,
    congrArg (fun y : SettBlock => !y.retired) hret⟩

section upkeep

variable {s : State} {b dest : Nat} (hne : dest ≠ b) (n : Nat)
include hne

theorem State.block_relocate_from : (s.relocate b dest n).block b = { s.block b with retry := false } := by
  refine (State.block_setBlock_same _ _ _).trans ?_
  exact congrArg (fun x : SettBlock => { x with retry := false }) (State.block_setBlock_other _ _ hne.symm)

theorem State.block_relocate_to : (s.relocate b dest n).block dest = { s.block dest with writtenNs := some (s.now : Int) } :=
  (State.block_setBlock_other _ _ hne).trans (State.block_setBlock_same _ _ _)

variable (hl : s.live = true) (hup : s.upkeeps = true) (hd : s.blockOpen dest = true)
include hl hup hd

theorem readDisturb_moves (h : 200000 ≤ (s.block b).reads) : Does (.readDisturb b dest n) s fun t => s.MovedPages t b dest ∧
    (t.block b).erases = (s.block b).erases + 1 ∧ (t.block b).reads = 0 := by
  let v := s.relocate b dest n
  have hmoved := s.relocate_moved b dest n
  have hb : (v.eraseBlock b).block b = { v.block b with erases := (v.block b).erases + 1, reads := 0, writtenNs := none, retry := false } :=
    v.block_setBlock_same b _
  refine does_of_gate (t := v.eraseBlock b) rfl hl (by exact if_pos (by simp [hup, h, hd, hne])) ⟨?_, ?_, ?_⟩
  · obtain ⟨hplace, hmem, hreg⟩ := hmoved
    exact ⟨(State.place_noteLife _).trans hplace, (State.mem_noteLife _).trans ((v.mem_setBlock b _).trans hmem),
      (State.reg_setReg_other _ _ _ _ (by decide)).trans hreg⟩
  · rw [hb]
    exact (congrArg (fun x : SettBlock => x.erases + 1) (State.block_relocate_from (s := s) hne n) :)
  · rw [hb]

theorem retention_moves
    (h : (s.block b).retry = true ∨ ∃ w, (s.block b).writtenNs = some w ∧ w + 30 * 24 * 3600 * 10 ^ 9 ≤ (s.now : Int)) :
    Does (.retention b dest n) s fun t => s.MovedPages t b dest ∧ (t.block b).retry = false ∧
      (t.block dest).writtenNs = some (s.now : Int) := by
  have hold : ((s.block b).retry || decide ((s.block b).written + 30 * 24 * 3600 * 10 ^ 9 ≤ (s.now : Int))) = true := by
    rcases h with h | ⟨w, hw, hage⟩
    · rw [h, Bool.true_or]
    · have hwr : (s.block b).written = w := by rw [SettBlock.written, hw]; rfl
      rw [hwr, decide_eq_true hage, Bool.or_true]
  refine does_of_gate (t := s.relocate b dest n) rfl hl ?_ ⟨s.relocate_moved b dest n, ?_, ?_⟩
  · exact if_pos (by rw [hup, hold, hd]; simpa using hne)
  · rw [State.block_relocate_from hne]
  · rw [State.block_relocate_to hne]

theorem grownDefect_moves (hb : s.blockOpen b = true) : Does (.grownDefect b dest n) s fun t => s.MovedPages t b dest ∧
    t.blockOpen b = false ∧ t.sett.spares = s.sett.spares - 1 ∧ t.reg (Reg.settCnt 6) = s.reg (Reg.settCnt 6) + 1 := by
  obtain ⟨hplace, hmem, hreg⟩ := s.relocate_moved b dest n
  have h6 : (s.relocate b dest n).reg (Reg.settCnt 6) = s.reg (Reg.settCnt 6) :=
    (State.reg_bumpBy_other _ _ _ _ (by decide)).trans (State.reg_bumpBy_other _ _ _ _ (by decide))
  have hspares : (s.relocate b dest n).sett.spares = s.sett.spares := rfl
  obtain ⟨hplace', hmem', hspares', h5', h6', hclosed⟩ := (s.relocate b dest n).retireBlock_retires b
  exact does_of_gate (t := (s.relocate b dest n).retireBlock b) rfl hl (by exact if_pos (by simp [hup, hb, hd, hne]))
    ⟨⟨hplace'.trans hplace, hmem'.trans hmem, h5'.trans hreg⟩, hclosed, by rw [hspares', hspares], by rw [h6', h6]⟩

omit hd in
theorem wearLevelling_moves {least : Nat} (hleast : s.blockFree least = true) (hdest : s.blockFree dest = true)
    (hspread : (s.block least).erases + 200 < (s.block dest).erases) (hcold : s.coldest b = true) :
    Does (.wearLevelling least dest b n) s fun t => s.MovedPages t b dest ∧ (t.block dest).writtenNs = some (s.now : Int) := by
  refine does_of_gate (t := s.relocate b dest n) rfl hl ?_ ⟨s.relocate_moved b dest n, ?_⟩
  · exact if_pos (by simp [hup, hleast, hdest, hspread, hcold]; omega)
  · rw [State.block_relocate_to hne]

end upkeep

/-! #### Dies -/

/-- The state with a failed die noted (R625). -/
def State.dieFails (s : State) (d : Nat) : State :=
  let v := { s with sett.rebuilding := s.sett.rebuilding ++ [d], sett.failedDies := s.sett.failedDies + 1 }
  (v.setField Reg.settStatus 62 62 1).setField Reg.settStatus 9 0 v.sett.failedDies

theorem bit_setBits_above (w : Word) {hi lo v p : Nat} (hh : hi < 64) (hl : lo ≤ hi) (hp : hi < p ∨ p < lo) :
    bit (setBits w hi lo v) p = bit w p := by
  unfold bit
  rw [bits_setBits_other w hi lo v p p hh hl le_rfl (by omega)]

theorem State.dieFails_rebuilding (s : State) (d : Nat) : bit ((s.dieFails d).reg Reg.settStatus) 62 = true := by
  simp only [State.dieFails, State.setField, State.reg_setReg_same]
  rw [bit_setBits_above _ (by decide) (by decide) (by decide), bit_setBits_one _ (by decide)]
  simp

/-- Pages with stripes on a failed die and on another of its parity set (R625). -/
def State.goneWith (s : State) (d : Nat) (other : List Nat) : List Nat :=
  ((d :: other).flatMap s.diePages).eraseDups.filter fun p => !s.sett.lost.contains p

theorem State.mem_goneWith {s : State} {d e q : Nat} {other : List Nat} (he : e = d ∨ e ∈ other) (hq : q ∈ s.diePages e) :
    q ∈ s.sett.lost ++ s.goneWith d other := by
  by_cases hlost : q ∈ s.sett.lost
  · exact List.mem_append_left _ hlost
  · refine List.mem_append_right _ (List.mem_filter.mpr ⟨?_, by simpa using hlost⟩)
    exact List.mem_eraseDups.mpr (List.mem_flatMap.mpr ⟨e, List.mem_cons.mpr he, hq⟩)

theorem does_dieFailure {s : State} (hl : s.live = true) (die : Fin 1024) (hup : s.settUp = true)
    (hd : die.val ∉ s.sett.rebuilding) : Does (.dieFailure die) s fun t =>
      t.sett.rebuilding = s.sett.rebuilding ++ [die.val] ∧ bit (t.reg Reg.settStatus) 62 = true ∧
      t.sett.failedDies = s.sett.failedDies + 1 ∧
      ((∀ e ∈ s.sett.rebuilding, e / 16 ≠ die.val / 16) → t.sett.lost = s.sett.lost) ∧
      (∀ e ∈ s.sett.rebuilding, e / 16 = die.val / 16 → ∀ q, q ∈ s.diePages die.val ∨ q ∈ s.diePages e → q ∈ t.sett.lost) := by
  have hgo : ¬ (!s.settUp || s.sett.rebuilding.contains die.val) = true := by simp [hup, hd]
  let other := s.sett.rebuilding.filter fun e => e / 16 = die.val / 16
  have hother : ∀ e, e ∈ other ↔ e ∈ s.sett.rebuilding ∧ e / 16 = die.val / 16 := fun e => by simp [other]
  let v := s.dieFails die.val
  by_cases hnone : other = []
  · refine does_of_gate (t := v) rfl hl (by exact (if_neg hgo).trans (if_pos (by rw [List.isEmpty_iff]; exact hnone)))
      ⟨rfl, s.dieFails_rebuilding _, rfl, fun _ => rfl, fun e he hset => ?_⟩
    exact absurd ((hother e).mpr ⟨he, hset⟩) (by rw [hnone]; exact List.not_mem_nil)
  · let gone := s.goneWith die.val other
    let w : State := { v with sett.lost := v.sett.lost ++ gone }
    refine does_of_gate (t := (w.bumpBy (Reg.settCnt 7) gone.length).setField Reg.settStatus 61 61 1) rfl hl
      (by exact (if_neg hgo).trans (if_neg (by rw [List.isEmpty_iff]; exact hnone))) ⟨rfl, ?_, rfl, fun hno => ?_, fun e he hset q hq => ?_⟩
    · rw [State.setField, State.reg_setReg_same, bit_setBits_above _ (by decide) (by decide) (by decide),
        State.reg_bumpBy_other _ _ _ _ (by decide), State.reg_of_regs (show w.regs = v.regs from rfl)]
      exact s.dieFails_rebuilding _
    · obtain ⟨e, he⟩ := List.exists_mem_of_ne_nil other hnone
      exact absurd ((hother e).mp he).2 (hno e ((hother e).mp he).1)
    · change q ∈ s.sett.lost ++ s.goneWith die.val other
      rcases hq with hq | hq
      · exact State.mem_goneWith (.inl rfl) hq
      · exact State.mem_goneWith (.inr ((hother e).mpr ⟨he, hset⟩)) hq

theorem does_rebuildComplete {s : State} (hl : s.live = true) (die : Fin 1024) (hup : s.upkeeps = true)
    (hr : s.sett.rebuilding = [die.val]) (cw n : Nat) : Does (.rebuildComplete die [] cw n) s fun t =>
      t.sett.rebuilding = [] ∧ bit (t.reg Reg.settStatus) 62 = false ∧
      t.reg (Reg.settCnt 4) = s.reg (Reg.settCnt 4) + BitVec.ofNat 64 cw := by
  have hgo : ¬ (!s.upkeeps || !s.sett.rebuilding.contains die.val) = true := by simp [hup, hr]
  have hempty : (s.sett.rebuilding.filter fun d => d ≠ die.val) = [] := by rw [hr]; simp
  let v : State := State.noteSpares { s with
    sett.rebuilding := s.sett.rebuilding.filter fun d => d ≠ die.val
    sett.spares := s.sett.spares - 0 }
  let w := (v.bumpBy (Reg.settCnt 4) cw).bumpBy (Reg.settCnt 2) n
  have hv4 : v.reg (Reg.settCnt 4) = s.reg (Reg.settCnt 4) := State.reg_noteSpares _ (by decide)
  refine does_of_gate (t := w.setField Reg.settStatus 62 62 (bnat (!w.sett.rebuilding.isEmpty))) rfl hl
    (by exact if_neg hgo) ⟨hempty, ?_, ?_⟩
  · have hw : w.sett.rebuilding = [] := hempty
    rw [State.setField, State.reg_setReg_same, hw]
    exact bit_setBits_bnat_same _ false (by decide)
  · exact (State.reg_setReg_other _ _ _ _ (by decide)).trans ((State.reg_bumpBy_other _ _ _ _ (by decide)).trans
      ((State.reg_bumpBy_same _ _ _).trans (congrArg (· + _) hv4)))

/-- Settles O49: what each operation of the translation layer does to pages, blocks and dies, and what it leaves. -/
theorem settOperations : Obligations.SettOperations := by
  intro s page hl
  refine ⟨fun h d => sett_down hl h page d, fun hup hpage => ⟨does_settRead hl hup hpage,
      fun d hin => settProgram_inhibited hl d hin, fun d hin hworn => settProgram_starts hl hup hpage d hin hworn,
      fun d hin hworn => settProgram_worn hl hup hpage d hin hworn, fun h => does_settTrim hl hup hpage h,
      does_trimAll hl hup hpage⟩, ?_, ?_, ?_, ?_⟩
  · rintro r hr rfl retries rebuilt
    exact ⟨fun d hd => settReadDone_stages hl hr retries rebuilt hd,
      fun hd hhome => settReadDone_unreadable hl hr retries rebuilt hd hhome⟩
  · rintro p blocks n hp rfl htrim
    exact ⟨does_settProgramDone_ok hl hp htrim blocks n, does_settProgramDone_failed hl hp htrim blocks n,
      fun k op ok hop hd hdst hloc hst => does_settProgramDone_op hl hp htrim blocks n k ok hop hd hdst hloc hst⟩
  · intro b dest n hup hb hd hne
    exact ⟨fun h => readDisturb_moves hne n hl hup hd h, fun h => ignored_of_gate rfl hl (by exact if_neg (by simp; omega)),
      fun h => retention_moves hne n hl hup hd h, grownDefect_moves hne n hl hup hd hb,
      fun least hleast hdest hspread hcold => wearLevelling_moves hne n hl hup hleast hdest hspread hcold⟩
  · intro die
    exact ⟨fun hup hd => does_dieFailure hl die hup hd, fun hup hr cw n => does_rebuildComplete hl die hup hr cw n⟩

end Sys2Proof.Machine
end

section
/-! ### Patrol scrub (R604 to R607, R612 to R617, R629) -/

namespace Sys2Proof.Machine

open Sys2Proof

/-! #### Powers in GF(2^8) -/

/-- b · α^(-1). -/
def gfHalf (b : Byte) : Byte := if b.getLsbD 0 then ((b ^^^ 0x1D#8) >>> 1) ||| 0x80#8 else b >>> 1

theorem gfHalf_gfDouble : ∀ b : Byte, gfHalf (gfDouble b) = b := by decide

/-- α has no order below 36. -/
theorem gfPow_ne_self : ∀ v : Byte, v ≠ 0 → ∀ i < 36, i ≠ 0 → gfPow v i ≠ v := by decide +kernel

theorem gfPow_injective {a b : Byte} : ∀ i, gfPow a i = gfPow b i → a = b
  | 0, h => h
  | i + 1, h => gfPow_injective i (by rw [← gfHalf_gfDouble (gfPow a i), ← gfHalf_gfDouble (gfPow b i)]; exact congrArg gfHalf h)

theorem gfPow_add (b : Byte) (i : Nat) : ∀ j, gfPow b (i + j) = gfPow (gfPow b i) j
  | 0 => rfl
  | j + 1 => congrArg gfDouble (gfPow_add b i j)

theorem gfPow_lt_ne {v : Byte} (hv : v ≠ 0) {p q : Nat} (hpq : p < q) (hq : q < 36) : gfPow v q ≠ gfPow v p := by
  intro h
  rw [show q = (q - p) + p by omega, gfPow_add] at h
  exact gfPow_ne_self v hv (q - p) (by omega) (by omega) (gfPow_injective p h)

theorem gfPow_eq_iff {v : Byte} (hv : v ≠ 0) {p q : Nat} (hp : p < 36) (hq : q < 36) : gfPow v q = gfPow v p ↔ q = p := by
  refine ⟨fun h => ?_, fun h => by rw [h]⟩
  rcases Nat.lt_trichotomy p q with hlt | heq | hlt
  · exact absurd h (gfPow_lt_ne hv hlt hq)
  · exact heq.symm
  · exact absurd h.symm (gfPow_lt_ne hv hlt hp)

/-! #### A line with one wrong symbol (R605 to R607) -/

theorem byteOfSymbol_symbolOf : ∀ b < 288, byteOfSymbol (symbolOf b).1 (symbolOf b).2 = b := by
  intro b hb
  unfold symbolOf
  split <;> simp only [byteOfSymbol] <;> split <;> omega

theorem symbolOf_lt {b : Nat} (h : b < 288) : (symbolOf b).1 < 8 ∧ (symbolOf b).2 < 36 := by
  rw [symbolOf]
  split <;> constructor <;> dsimp only <;> omega

/-- The one number of a range that a test holds of is found. -/
theorem find?_range_single {n i : Nat} {f : Nat → Bool} (hi : i < n) (hf : ∀ j < n, f j = true ↔ j = i) :
    (List.range n).find? f = some i := by
  rw [List.find?_range_eq_some]
  refine ⟨(hf i hi).mpr rfl, List.mem_range.mpr hi, fun j hj => ?_⟩
  rw [Bool.not_eq_true']
  exact Bool.eq_false_iff.mpr fun h => absurd ((hf j (by omega)).mp h) (by omega)

theorem filterMap_range_single {α : Type} {n i : Nat} {f : Nat → Option α} {x : α} (hi : i < n) (hx : f i = some x)
    (hf : ∀ j < n, j ≠ i → f j = none) : (List.range n).filterMap f = [x] := by
  induction n with
  | zero => exact absurd hi (by omega)
  | succ n ih =>
    rw [List.range_succ, List.filterMap_append]
    by_cases hin : i = n
    · subst hin
      have hbelow : (List.range i).filterMap f = [] :=
        List.filterMap_eq_nil_iff.mpr fun j hj => hf j (by have := List.mem_range.mp hj; omega) (by have := List.mem_range.mp hj; omega)
      rw [hbelow, List.filterMap_cons_some hx, List.filterMap_nil, List.nil_append]
    · rw [ih (by omega) fun j hj => hf j (by omega), List.filterMap_cons_none (hf n (by omega) (Ne.symm hin)), List.filterMap_nil,
        List.append_nil]

section single

variable {b : Nat} {v : Byte} (hb : b < 288) (hv : v ≠ 0)

theorem syndrome_single_same (b : Nat) (v : Byte) (m : Nat) :
    syndrome [(b, v)] (symbolOf b).1 m = gfPow v (m * (symbolOf b).2) := by
  rw [syndrome, List.foldl_cons, List.foldl_nil, if_pos rfl]
  exact BitVec.zero_xor

theorem syndrome_single_other (b : Nat) (v : Byte) {j : Nat} (h : j ≠ (symbolOf b).1) (m : Nat) : syndrome [(b, v)] j m = 0 := by
  rw [syndrome, List.foldl_cons, List.foldl_nil, if_neg (Ne.symm h)]

theorem decodeWord_single_other (b : Nat) (v : Byte) {j : Nat} (h : j ≠ (symbolOf b).1) : decodeWord [(b, v)] j = .clean := by
  simp only [decodeWord, syndrome_single_other b v h]
  rfl

include hb hv

theorem decodeWord_single_same : decodeWord [(b, v)] (symbolOf b).1 = .corrected (symbolOf b).2 v := by
  have hp := (symbolOf_lt hb).2
  simp only [decodeWord, syndrome_single_same, Nat.zero_mul, Nat.one_mul]
  generalize (symbolOf b).2 = p at *
  have hfind : ((List.range 36).find? fun q => gfPow v p = gfPow v q && gfPow v (2 * p) = gfPow (gfPow v p) q &&
      gfPow v (3 * p) = gfPow (gfPow v (2 * p)) q) = some p := by
    refine find?_range_single hp fun q hq => ?_
    simp only [Bool.and_eq_true, decide_eq_true_eq]
    refine ⟨fun h => ((gfPow_eq_iff hv hp hq).mp h.1.1.symm), ?_⟩
    rintro rfl
    rw [← gfPow_add, ← gfPow_add]
    exact ⟨⟨rfl, by rw [Nat.two_mul]⟩, by rw [show 3 * q = 2 * q + q by omega]⟩
  change decodeSyndromes v (gfPow v p) (gfPow v (2 * p)) (gfPow v (3 * p)) = _
  rw [decodeSyndromes, if_neg (by simp only [Bool.and_eq_true, decide_eq_true_eq]; exact fun h => hv h.1.1.1), if_neg hv, hfind]

theorem lineEcc_single : lineEcc [(b, v)] = (.corrected, (symbolOf b).1) := by
  have hj := (symbolOf_lt hb).1
  have hnone : ((List.range 8).find? fun j => decodeWord [(b, v)] j = .uncorrectable) = none := by
    refine List.find?_eq_none.mpr fun j _ => ?_
    by_cases h : j = (symbolOf b).1
    · simp [h, decodeWord_single_same hb hv]
    · simp [decodeWord_single_other b v h]
  have hsome : ((List.range 8).find? fun j => (decodeWord [(b, v)] j).corrects) = some (symbolOf b).1 := by
    refine find?_range_single hj fun j _ => ⟨fun h => ?_, ?_⟩
    · by_contra hne
      rw [decodeWord_single_other b v hne] at h
      exact absurd h (by decide)
    · rintro rfl
      rw [decodeWord_single_same hb hv]
      rfl
  rw [lineEcc, hnone, hsome]

/-- The correction of one wrong symbol is that symbol's difference. -/
theorem residue_single : residue [(b, v)] = [(b, v), (b, v)] := by
  refine congrArg ([(b, v)] ++ ·) (filterMap_range_single (symbolOf_lt hb).1 ?_ fun j _ hne => ?_)
  · simp only [decodeWord_single_same hb hv, byteOfSymbol_symbolOf b hb]
  · simp only [decodeWord_single_other b v hne]

end single

/-! #### Places of lines (R604) -/

theorem placeOf_lineOf {c : Nat} (hc : c < 128) (l : Nat) : placeOf (lineOf c l) = (c, l) := by
  have hx : (c ^^^ ((l % 128) ^^^ (l / 128 % 128))) < 2 ^ 7 :=
    Nat.xor_lt_two_pow hc (Nat.xor_lt_two_pow (Nat.mod_lt _ (by decide)) (Nat.mod_lt _ (by decide)))
  have hdiv : lineOf c l / 128 = l := by
    change (l * 128 + (c ^^^ ((l % 128) ^^^ (l / 128 % 128)))) / 128 = l
    omega
  have hmod : lineOf c l % 128 = c ^^^ ((l % 128) ^^^ (l / 128 % 128)) := by
    change (l * 128 + (c ^^^ ((l % 128) ^^^ (l / 128 % 128)))) % 128 = _
    omega
  have hdiv2 : lineOf c l / 16384 = l / 128 := by rw [show 16384 = 128 * 128 from rfl, ← Nat.div_div_eq_div_mul, hdiv]
  refine Prod.ext ?_ hdiv
  change (lineOf c l % 128 ^^^ ((lineOf c l / 128 % 128) ^^^ (lineOf c l / 16384 % 128))) = c
  rw [hmod, hdiv, hdiv2, Nat.xor_assoc, Nat.xor_self, Nat.xor_zero]

/-! #### What a read changes -/

theorem State.changeLine_eq (s : State) (n : Nat) (diff : List (Nat × Byte)) : ∃ m, s.changeLine n diff = { s with mem := m } :=
  List.foldlRecOn _ _ (motive := fun u : State => ∃ m, u = { s with mem := m }) ⟨s.mem, rfl⟩ fun u hu _ _ => by
    obtain ⟨m, rfl⟩ := hu
    exact ⟨_, rfl⟩

theorem State.changeLine_outside (s : State) {n a : Nat} (diff : List (Nat × Byte))
    (ha : a < dramAddr 0 (256 * n) ∨ dramAddr 0 (256 * n) + 256 ≤ a) : (s.changeLine n diff).byte a = s.byte a :=
  List.foldlRecOn _ _ (motive := fun u : State => u.byte a = s.byte a) rfl fun u hu e he => by
    have hlt : e.1 < 256 := by simpa using (List.mem_filter.mp he).2
    rw [State.byte_setByte, if_neg (by simp only [dramAddr] at *; omega), hu]

/-- A difference laid on a line twice leaves it. -/
theorem State.byte_changeLine_twice (s : State) (n b : Nat) (v : Byte) (a : Nat) :
    (s.changeLine n [(b, v), (b, v)]).byte a = s.byte a := by
  by_cases hb : b < 256
  · have hdata : [(b, v), (b, v)].filter (fun e : Nat × Byte => e.1 < 256) = [(b, v), (b, v)] := by simp [hb]
    rw [State.changeLine, hdata, List.foldl_cons, List.foldl_cons, List.foldl_nil]
    dsimp only
    rw [State.byte_setByte]
    split
    next h => rw [State.byte_setByte, if_pos rfl, BitVec.xor_assoc, BitVec.xor_self, BitVec.xor_zero, h]
    next h => rw [State.byte_setByte, if_neg h]
  · have hnone : [(b, v), (b, v)].filter (fun e : Nat × Byte => e.1 < 256) = [] := by simp [hb]
    rw [State.changeLine, hnone, List.foldl_nil]

/-- The retirement of a page changes its lists, the tier manager's state and its registers. -/
theorem State.retirePage_keeps (s : State) (d : Nat) :
    (s.retirePage d).dram.scrubPos = s.dram.scrubPos ∧
      ∀ k, OffEviction k → k ≠ Reg.dramCnt 5 → k ≠ Reg.dramStatus → (s.retirePage d).reg k = s.reg k := by
  rw [State.retirePage]
  dsimp only
  split
  next => exact ⟨rfl, fun k _ h5 _ => State.reg_bump_other _ _ _ h5⟩
  next =>
    split
    next => exact ⟨rfl, fun k _ h5 _ => State.reg_bump_other _ _ _ h5⟩
    next p _ =>
      split
      next => exact ⟨rfl, fun k _ h5 _ => State.reg_bump_other _ _ _ h5⟩
      next =>
        generalize hu : ({ s with tsm.retired := s.tsm.retired ++ [d], tsm.retiring := s.tsm.retiring ++ [d] } : State) = u
        have hus : u.dram = s.dram ∧ u.regs = s.regs := by subst hu; exact ⟨rfl, rfl⟩
        obtain ⟨hdram, hregs⟩ := hus
        let u' : State := { u with tsm.nextReq := u.tsm.nextReq + 1 }
        obtain ⟨x, g, hclaim⟩ := claimLoop_keeps u.tsm.nextReq { dest := .dram, retire := true } [p] u'
        have hclaimed : ∀ k, OffEviction k →
            (claimLoop u.tsm.nextReq { dest := .dram, retire := true } [p] u').2.2.reg k = s.reg k := fun k hk =>
          (reg_claimLoop _ _ _ u' hk).trans (State.reg_of_regs hregs k)
        rw [State.startFerry]
        change _ ∧ ∀ k, _
        have hpos : (claimLoop u.tsm.nextReq { dest := .dram, retire := true } [p] u').2.2.dram = s.dram := by
          rw [hclaim]; exact hdram
        generalize claimLoop u.tsm.nextReq { dest := .dram, retire := true } [p] u' = r at *
        dsimp only
        split
        next =>
          simp only [State.endFerry]
          split
          next => exact ⟨congrArg Dram.scrubPos hpos, fun k hk _ hst => (State.reg_setReg_other _ _ _ _ hst).trans (hclaimed k hk)⟩
          next => exact ⟨congrArg Dram.scrubPos hpos, fun k hk _ _ => hclaimed k hk⟩
        next => exact ⟨congrArg Dram.scrubPos hpos, fun k hk _ _ => hclaimed k hk⟩

theorem State.correctedPage_keeps (s : State) (page : Nat) :
    (s.correctedPage page).dram.scrubPos = s.dram.scrubPos ∧
      ∀ k, OffEviction k → k ≠ Reg.dramCnt 5 → k ≠ Reg.dramStatus → (s.correctedPage page).reg k = s.reg k := by
  unfold State.correctedPage
  dsimp only
  generalize (decide (0 < s.field Reg.dramScrub 23 16) && _ && _ && _) = c
  cases c with
  | false => exact ⟨rfl, fun _ _ _ _ => rfl⟩
  | true => exact (s.noteCe page).2.retirePage_keeps page

/-- With RETIRE_CE at 0 no page is retired. -/
theorem State.correctedPage_off (s : State) (page : Nat) (h : s.field Reg.dramScrub 23 16 = 0) :
    s.correctedPage page = (s.noteCe page).2 := by
  unfold State.correctedPage
  simp only [h, Nat.lt_irrefl, decide_false, Bool.false_and, State.iff_false]

/-! #### The read of a scrub -/

/-- The state in which a scrub's line is decoded: the channel's next line, counted. -/
def State.scrubs (s : State) (c : Nat) : State :=
  State.bump { s with dram.scrubPos := SMap.put s.dram.scrubPos c ((SMap.get 0 s.dram.scrubPos c + 1) % 2 ^ 26) } (Reg.dramCnt 3)

theorem State.scrubs_frame (s : State) (c : Nat) : (s.scrubs c).tsm = s.tsm ∧ (s.scrubs c).mem = s.mem := ⟨rfl, rfl⟩

theorem State.reg_scrubs_other (s : State) (c : Nat) {k : Nat} (h : k ≠ Reg.dramCnt 3) : (s.scrubs c).reg k = s.reg k :=
  State.reg_bump_other _ _ _ h

/-- The line a scrub of the channel reads. -/
def State.scrubLine (s : State) (c : Nat) : Nat := lineOf c (SMap.get 0 s.dram.scrubPos c)

/-- A corrected line after its count and its log. -/
def State.logsCorrected (s : State) (c : Nat) (errs : List (Nat × Byte)) : State :=
  ((s.scrubs c).bump (Reg.dramCnt 0)).setReg Reg.dramCelog (lineLog c (lineEcc errs).2 (SMap.get 0 s.dram.scrubPos c))

/-- The same, with what the decoder left of the difference. -/
def State.corrects (s : State) (c : Nat) (errs : List (Nat × Byte)) (wrote : Bool) : State :=
  (s.logsCorrected c errs).iff (!wrote) fun s' => s'.changeLine (s.scrubLine c) (residue errs)

/-- An uncorrectable line after its count and its log. -/
def State.ruins (s : State) (c : Nat) (errs : List (Nat × Byte)) : State :=
  ((s.scrubs c).bump (Reg.dramCnt 1)).setReg Reg.dramErrlog (lineLog c (lineEcc errs).2 (SMap.get 0 s.dram.scrubPos c))

section decoded

variable (v : State) (n : Nat) {errs : List (Nat × Byte)} (keep : Bool)

theorem State.lineRead_clean (h : (lineEcc errs).1 = .clean) :
    v.lineRead n errs keep = (.clean, v.iff keep fun s => s.changeLine n (residue errs)) := by
  rw [State.lineRead]
  simp only [h]

theorem State.lineRead_corrected (h : (lineEcc errs).1 = .corrected) :
    v.lineRead n errs keep = (.corrected,
      ((((v.bump (Reg.dramCnt 0)).setReg Reg.dramCelog (lineLog (placeOf n).1 (lineEcc errs).2 (placeOf n).2)).iff keep
        fun s => s.changeLine n (residue errs))).correctedPage (n / 256)) := by
  rw [State.lineRead]
  simp only [h]

theorem State.lineRead_uncorrectable (h : (lineEcc errs).1 = .uncorrectable) :
    v.lineRead n errs keep = (.uncorrectable,
      let s := (v.bump (Reg.dramCnt 1)).setReg Reg.dramErrlog (lineLog (placeOf n).1 (lineEcc errs).2 (placeOf n).2)
      match s.pageAtDram (n / 256) with
      | none => s
      | some p => s.loseHome p n Code.dramUe) := by
  rw [State.lineRead]
  simp only [h] <;> rfl

end decoded

section scrub

variable {s : State} (hl : s.live = true) (hp : s.plat.parkedSince = none) (ch : Fin 128)

include hl hp

theorem exec_scrubRead (errs : List (Nat × Byte)) (wrote : Bool) :
    exec (.scrubRead ch errs wrote) s = .next (
      let r := (s.scrubs ch.val).lineRead (s.scrubLine ch.val) errs !wrote
      r.2.iff (r.1 = .corrected && !wrote) fun s => s.bump (Reg.dramCnt 4)) := by
  have hexec : exec (.scrubRead ch errs wrote) s = execScrubRead ch errs wrote s := rfl
  have hawake : s.plat.parkedSince.isSome = false := by rw [hp]; rfl
  rw [hexec, execScrubRead, gate_live hl]
  simp only [hawake, Bool.false_eq_true, if_false, State.scrubs, State.scrubLine]
  rfl

theorem exec_scrubRead_clean {errs : List (Nat × Byte)} (wrote : Bool) (h : (lineEcc errs).1 = .clean) :
    exec (.scrubRead ch errs wrote) s =
      .next ((s.scrubs ch.val).iff (!wrote) fun s' => s'.changeLine (s.scrubLine ch.val) (residue errs)) := by
  rw [exec_scrubRead hl hp ch errs wrote]
  simp only [State.lineRead_clean _ _ _ h, reduceCtorEq, decide_false, Bool.false_and, State.iff_false]

theorem exec_scrubRead_corrected {errs : List (Nat × Byte)} (wrote : Bool) (h : (lineEcc errs).1 = .corrected) :
    exec (.scrubRead ch errs wrote) s = .next (((s.corrects ch.val errs wrote).correctedPage (s.scrubLine ch.val / 256)).iff
      (!wrote) fun s => s.bump (Reg.dramCnt 4)) := by
  have hplace : placeOf (s.scrubLine ch.val) = (ch.val, SMap.get 0 s.dram.scrubPos ch.val) := placeOf_lineOf ch.isLt _
  rw [exec_scrubRead hl hp ch errs wrote]
  simp only [State.lineRead_corrected _ _ _ h, hplace, decide_true, Bool.true_and, State.corrects, State.logsCorrected]

theorem exec_scrubRead_uncorrectable {errs : List (Nat × Byte)} (wrote : Bool) (h : (lineEcc errs).1 = .uncorrectable) :
    exec (.scrubRead ch errs wrote) s = .next (
      match (s.ruins ch.val errs).pageAtDram (s.scrubLine ch.val / 256) with
      | none => s.ruins ch.val errs
      | some p => (s.ruins ch.val errs).loseHome p (s.scrubLine ch.val) Code.dramUe) := by
  have hplace : placeOf (s.scrubLine ch.val) = (ch.val, SMap.get 0 s.dram.scrubPos ch.val) := placeOf_lineOf ch.isLt _
  rw [exec_scrubRead hl hp ch errs wrote]
  simp only [State.lineRead_uncorrectable _ _ _ h, hplace, reduceCtorEq, decide_false, Bool.false_and, State.iff_false, State.ruins]

end scrub

theorem State.reg_withMem (u : State) (m : List Host.Cell) (k : Nat) : ({ u with mem := m } : State).reg k = u.reg k := rfl

theorem State.iff_changeLine_eq (s : State) (b : Bool) (n : Nat) (diff : List (Nat × Byte)) :
    ∃ m, (s.iff b fun s => s.changeLine n diff) = { s with mem := m } := by
  cases b with
  | false => exact ⟨s.mem, rfl⟩
  | true => exact s.changeLine_eq n diff

theorem State.byte_iff_changeLine_outside (s : State) (b : Bool) {n a : Nat} (diff : List (Nat × Byte))
    (ha : a < dramAddr 0 (256 * n) ∨ dramAddr 0 (256 * n) + 256 ≤ a) : (s.iff b fun s => s.changeLine n diff).byte a = s.byte a := by
  cases b with
  | false => rfl
  | true => exact s.changeLine_outside diff ha

theorem State.iff_bump_keeps (s : State) (b : Bool) (k : Nat) :
    (s.iff b fun s => s.bump k).dram = s.dram ∧ (s.iff b fun s => s.bump k).mem = s.mem ∧ (s.iff b fun s => s.bump k).tsm = s.tsm ∧
    (s.iff b fun s => s.bump k).reg k = s.reg k + (if b then 1 else 0) ∧
    ∀ j, j ≠ k → (s.iff b fun s => s.bump k).reg j = s.reg j := by
  cases b with
  | false => exact ⟨rfl, rfl, rfl, (BitVec.add_zero _).symm, fun _ _ => rfl⟩
  | true => exact ⟨rfl, rfl, rfl, s.reg_bump_same k, fun j hj => s.reg_bump_other k j hj⟩

/-- The scrub has gone on to the channel's next line, and counted the read (R612, R613). -/
def State.ScrubbedOn (s t : State) (c : Nat) : Prop :=
  SMap.get 0 t.dram.scrubPos c = (SMap.get 0 s.dram.scrubPos c + 1) % 2 ^ 26 ∧
    t.reg (Reg.dramCnt 3) = s.reg (Reg.dramCnt 3) + 1

theorem State.scrubs_scrubbedOn (s : State) (c : Nat) : s.ScrubbedOn (s.scrubs c) c :=
  ⟨SMap.get_put_same _ _ _ _, State.reg_bump_same _ _⟩

theorem State.scrubbedOn_of {s t : State} {c : Nat} (hpos : t.dram.scrubPos = (s.scrubs c).dram.scrubPos)
    (hreg : t.reg (Reg.dramCnt 3) = (s.scrubs c).reg (Reg.dramCnt 3)) : s.ScrubbedOn t c := by
  obtain ⟨h1, h2⟩ := s.scrubs_scrubbedOn c
  exact ⟨by rw [hpos, h1], by rw [hreg, h2]⟩

theorem State.logsCorrected_frame (s : State) (c : Nat) (errs : List (Nat × Byte)) :
    (s.logsCorrected c errs).dram = (s.scrubs c).dram ∧ (s.logsCorrected c errs).tsm = s.tsm ∧
      (s.logsCorrected c errs).mem = s.mem := by
  simp [State.logsCorrected, s.scrubs_frame c]

/-- What a corrected line holds before its page is looked at. -/
theorem State.corrects_keeps (s : State) (c : Nat) (errs : List (Nat × Byte)) (wrote : Bool) :
    (s.corrects c errs wrote).dram.scrubPos = (s.scrubs c).dram.scrubPos ∧ (s.corrects c errs wrote).tsm = s.tsm ∧
    (s.corrects c errs wrote).reg Reg.dramCelog = lineLog c (lineEcc errs).2 (SMap.get 0 s.dram.scrubPos c) ∧
    (s.corrects c errs wrote).reg (Reg.dramCnt 0) = s.reg (Reg.dramCnt 0) + 1 ∧
    (∀ k, k ≠ Reg.dramCelog → k ≠ Reg.dramCnt 0 → (s.corrects c errs wrote).reg k = (s.scrubs c).reg k) ∧
    ∀ a, (a < dramAddr 0 (256 * s.scrubLine c) ∨ dramAddr 0 (256 * s.scrubLine c) + 256 ≤ a) →
      (s.corrects c errs wrote).byte a = s.byte a := by
  obtain ⟨hdram, htsm, hmem⟩ := s.logsCorrected_frame c errs
  obtain ⟨m, hm⟩ := (s.logsCorrected c errs).iff_changeLine_eq (!wrote) (s.scrubLine c) (residue errs)
  have hcorr : s.corrects c errs wrote = { s.logsCorrected c errs with mem := m } := hm
  have hreg : ∀ k, (s.corrects c errs wrote).reg k = (s.logsCorrected c errs).reg k := fun k => by
    rw [hcorr, State.reg_withMem]
  refine ⟨by rw [hcorr]; exact congrArg Dram.scrubPos hdram, by rw [hcorr]; exact htsm, ?_, ?_, fun k hlog h0 => ?_, fun a ha => ?_⟩
  · rw [hreg]
    exact State.reg_setReg_same _ _ _
  · rw [hreg]
    exact (State.reg_setReg_other _ _ _ _ (by decide)).trans ((State.reg_bump_same _ _).trans
      (congrArg (· + 1) (s.reg_scrubs_other c (by decide))))
  · rw [hreg]
    exact (State.reg_setReg_other _ _ _ _ hlog).trans (State.reg_bump_other _ _ _ h0)
  · refine (State.byte_iff_changeLine_outside _ (!wrote) (residue errs) ha).trans ?_
    rw [State.byte, hmem, State.byte]

/-- The loss of a home reaches no register of DRAM, and not the scrub. -/
theorem State.loseHome_keeps (s : State) (p line code : Nat) :
    (s.loseHome p line code).dram.scrubPos = s.dram.scrubPos ∧
      ∀ k, k / 65536 ≠ 18 → (s.loseHome p line code).reg k = s.reg k := by
  have hbump : ∀ k, k / 65536 ≠ 18 → (s.bump (Reg.fltCnt 6)).reg k = s.reg k := fun k hk =>
    s.reg_bump_other _ _ (by rintro rfl; exact hk (by decide))
  have hfault : ∀ (u : State) (c : Nat) (d : Word), (u.moduleFault c d).dram = u.dram ∧
      ∀ k, k / 65536 ≠ 18 → (u.moduleFault c d).reg k = u.reg k := fun u c d =>
    ⟨by simp, fun k hk => (State.reg_of_regs (by simp [State.moduleFault]) k).trans (u.reg_event c 4 4 255 0 0 d hk)⟩
  have hdram : (s.bump (Reg.fltCnt 6)).dram = s.dram := rfl
  unfold State.loseHome
  dsimp only
  generalize s.bump (Reg.fltCnt 6) = u at *
  split
  next => exact ⟨congrArg Dram.scrubPos hdram, hbump⟩
  next =>
    split
    next => exact ⟨congrArg Dram.scrubPos ((hfault u _ _).1.trans hdram), fun k hk => ((hfault u _ _).2 k hk).trans (hbump k hk)⟩
    next =>
      split
      next => exact ⟨congrArg Dram.scrubPos ((hfault u _ _).1.trans hdram), fun k hk => ((hfault u _ _).2 k hk).trans (hbump k hk)⟩
      next =>
        split
        next => exact ⟨congrArg Dram.scrubPos hdram, hbump⟩
        next => exact ⟨(congrArg Dram.scrubPos hdram :), hbump⟩

/-- What an uncorrectable line holds before its page is looked at. -/
theorem State.ruins_keeps (s : State) (c : Nat) (errs : List (Nat × Byte)) :
    (s.ruins c errs).dram.scrubPos = (s.scrubs c).dram.scrubPos ∧ (s.ruins c errs).tsm = s.tsm ∧ (s.ruins c errs).mem = s.mem ∧
    (s.ruins c errs).reg Reg.dramErrlog = lineLog c (lineEcc errs).2 (SMap.get 0 s.dram.scrubPos c) ∧
    (s.ruins c errs).reg (Reg.dramCnt 1) = s.reg (Reg.dramCnt 1) + 1 ∧
    ∀ k, k ≠ Reg.dramErrlog → k ≠ Reg.dramCnt 1 → (s.ruins c errs).reg k = (s.scrubs c).reg k := by
  have hv : (s.ruins c errs).dram = (s.scrubs c).dram ∧ (s.ruins c errs).tsm = s.tsm ∧ (s.ruins c errs).mem = s.mem := by
    simp [State.ruins, s.scrubs_frame c]
  refine ⟨congrArg Dram.scrubPos hv.1, hv.2.1, hv.2.2, State.reg_setReg_same _ _ _, ?_, fun k hlog h1 => ?_⟩
  · exact (State.reg_setReg_other _ _ _ _ (by decide)).trans ((State.reg_bump_same _ _).trans
      (congrArg (· + 1) (s.reg_scrubs_other c (by decide))))
  · exact (State.reg_setReg_other _ _ _ _ hlog).trans (State.reg_bump_other _ _ _ h1)

section read

variable {s : State} (hl : s.live = true) (hp : s.plat.parkedSince = none) (ch : Fin 128) {errs : List (Nat × Byte)} (wrote : Bool)
include hl hp

theorem scrubRead_clean (h : (lineEcc errs).1 = .clean) : Does (.scrubRead ch errs wrote) s fun t => s.ScrubbedOn t ch.val ∧
    (∀ a, (a < dramAddr 0 (256 * s.scrubLine ch.val) ∨ dramAddr 0 (256 * s.scrubLine ch.val) + 256 ≤ a) → t.byte a = s.byte a) ∧
    t.tsm = s.tsm ∧ t.reg (Reg.dramCnt 0) = s.reg (Reg.dramCnt 0) := by
  have hbyte := fun a ha => (s.scrubs ch.val).byte_iff_changeLine_outside (!wrote) (n := s.scrubLine ch.val) (a := a) (residue errs) ha
  obtain ⟨m, hm⟩ := (s.scrubs ch.val).iff_changeLine_eq (!wrote) (s.scrubLine ch.val) (residue errs)
  refine ⟨_, exec_scrubRead_clean hl hp ch wrote h, ?_, fun a ha => hbyte a ha, ?_, ?_⟩
  · rw [hm]
    exact State.scrubbedOn_of rfl rfl
  · rw [hm]
    rfl
  · rw [hm]
    exact s.reg_scrubs_other ch.val (k := Reg.dramCnt 0) (by decide)

theorem scrubRead_as_written : Does (.scrubRead ch [] wrote) s fun t => s.ScrubbedOn t ch.val ∧ t.mem = s.mem := by
  have hres : residue [] = [] := by decide
  refine ⟨_, exec_scrubRead_clean hl hp ch wrote (by decide), ?_⟩
  have hsame : ((s.scrubs ch.val).iff (!wrote) fun s' => s'.changeLine (s.scrubLine ch.val) (residue [])) = s.scrubs ch.val := by
    rw [hres]
    cases wrote <;> rfl
  rw [hsame]
  exact ⟨s.scrubs_scrubbedOn _, rfl⟩

theorem scrubRead_corrected (h : (lineEcc errs).1 = .corrected) : Does (.scrubRead ch errs wrote) s fun t => s.ScrubbedOn t ch.val ∧
    t.reg Reg.dramCelog = lineLog ch.val (lineEcc errs).2 (SMap.get 0 s.dram.scrubPos ch.val) ∧
    t.reg (Reg.dramCnt 0) = s.reg (Reg.dramCnt 0) + 1 ∧
    t.reg (Reg.dramCnt 4) = s.reg (Reg.dramCnt 4) + (if wrote then 0 else 1) ∧
    (s.field Reg.dramScrub 23 16 = 0 → t.tsm = s.tsm ∧
      ∀ a, (a < dramAddr 0 (256 * s.scrubLine ch.val) ∨ dramAddr 0 (256 * s.scrubLine ch.val) + 256 ≤ a) → t.byte a = s.byte a) := by
  obtain ⟨hpos, htsm, hlog, h0, hreg, hbyte⟩ := s.corrects_keeps ch.val errs wrote
  refine ⟨_, exec_scrubRead_corrected hl hp ch wrote h, ?_⟩
  generalize s.corrects ch.val errs wrote = u at *
  obtain ⟨hpos', hreg'⟩ := u.correctedPage_keeps (s.scrubLine ch.val / 256)
  obtain ⟨hdram, hmem, htsm', h4, hother⟩ := (u.correctedPage (s.scrubLine ch.val / 256)).iff_bump_keeps (!wrote) (Reg.dramCnt 4)
  refine ⟨State.scrubbedOn_of ?_ ?_, ?_, ?_, ?_, fun hlim => ?_⟩
  · rw [hdram, hpos', hpos]
  · rw [hother _ (by decide), hreg' _ (by unfold OffEviction; decide) (by decide) (by decide), hreg _ (by decide) (by decide)]
  · rw [hother _ (by decide), hreg' _ (by unfold OffEviction; decide) (by decide) (by decide), hlog]
  · rw [hother _ (by decide), hreg' _ (by unfold OffEviction; decide) (by decide) (by decide), h0]
  · rw [h4, hreg' _ (by unfold OffEviction; decide) (by decide) (by decide), hreg _ (by decide) (by decide),
      s.reg_scrubs_other ch.val (by decide)]
    cases wrote <;> rfl
  · have hoff : u.field Reg.dramScrub 23 16 = 0 := by
      rw [State.field, hreg _ (by decide) (by decide), s.reg_scrubs_other ch.val (by decide)]
      exact hlim
    rw [u.correctedPage_off _ hoff] at hmem htsm' ⊢
    refine ⟨htsm'.trans htsm, fun a ha => ?_⟩
    exact (congrArg (SMap.get (0 : Byte) · a) hmem).trans (hbyte a ha)

/-- One wrong symbol leaves every byte: the correction undoes it. -/
theorem scrubRead_single {b : Nat} {v : Byte} (hb : b < 288) (hv : v ≠ 0) (hlim : s.field Reg.dramScrub 23 16 = 0) :
    Does (.scrubRead ch [(b, v)] wrote) s fun t => ∀ a, t.byte a = s.byte a := by
  obtain ⟨-, -, -, -, hreg, -⟩ := s.corrects_keeps ch.val [(b, v)] wrote
  have hbyte : ∀ a, (s.corrects ch.val [(b, v)] wrote).byte a = s.byte a := by
    intro a
    rw [State.corrects, residue_single hb hv]
    have hmem : (s.logsCorrected ch.val [(b, v)]).byte a = s.byte a := by
      rw [State.byte, (s.logsCorrected_frame ch.val _).2.2, State.byte]
    cases wrote with
    | false => exact (State.byte_changeLine_twice _ _ _ _ _).trans hmem
    | true => exact hmem
  refine ⟨_, exec_scrubRead_corrected hl hp ch wrote (by rw [lineEcc_single hb hv]), fun a => ?_⟩
  generalize s.corrects ch.val [(b, v)] wrote = u at *
  obtain ⟨-, hmem, -⟩ := (u.correctedPage (s.scrubLine ch.val / 256)).iff_bump_keeps (!wrote) (Reg.dramCnt 4)
  have hoff : u.field Reg.dramScrub 23 16 = 0 := by
    rw [State.field, hreg _ (by decide) (by decide), s.reg_scrubs_other ch.val (by decide)]
    exact hlim
  rw [u.correctedPage_off _ hoff] at hmem ⊢
  exact (congrArg (SMap.get (0 : Byte) · a) hmem).trans (hbyte a)

theorem scrubRead_uncorrectable (h : (lineEcc errs).1 = .uncorrectable) : Does (.scrubRead ch errs wrote) s fun t =>
    s.ScrubbedOn t ch.val ∧ t.reg Reg.dramErrlog = lineLog ch.val (lineEcc errs).2 (SMap.get 0 s.dram.scrubPos ch.val) ∧
    t.reg (Reg.dramCnt 1) = s.reg (Reg.dramCnt 1) + 1 ∧
    (s.pageAtDram (s.scrubLine ch.val / 256) = none → t.tsm = s.tsm ∧ t.mem = s.mem) ∧
    (∀ p, s.pageAtDram (s.scrubLine ch.val / 256) = some p → (s.leaf p).pin = false → t.leaf p = { s.leaf p with poison := true } ∧
      (∀ q, q ≠ p → t.leaf q = s.leaf q) ∧ t.reg (Reg.fltCnt 6) = s.reg (Reg.fltCnt 6) + 1) := by
  obtain ⟨hpos, htsm, hmem, hlog, h1, hreg⟩ := s.ruins_keeps ch.val errs
  have hexec := exec_scrubRead_uncorrectable hl hp ch wrote h
  generalize s.ruins ch.val errs = u at *
  have hpage : u.pageAtDram (s.scrubLine ch.val / 256) = s.pageAtDram (s.scrubLine ch.val / 256) := by
    rw [State.pageAtDram, htsm, State.pageAtDram]
  rw [hpage] at hexec
  cases hhome : s.pageAtDram (s.scrubLine ch.val / 256) with
  | none =>
    rw [hhome] at hexec
    refine ⟨u, hexec, State.scrubbedOn_of hpos (hreg _ (by decide) (by decide)), hlog, h1, fun _ => ⟨htsm, hmem⟩, fun p hno => ?_⟩
    exact absurd hno (by simp)
  | some p =>
    rw [hhome] at hexec
    dsimp only at hexec
    obtain ⟨hpos', hreg'⟩ := u.loseHome_keeps p (s.scrubLine ch.val) Code.dramUe
    refine ⟨u.loseHome p (s.scrubLine ch.val) Code.dramUe, hexec, State.scrubbedOn_of (hpos'.trans hpos) ?_, ?_, ?_, fun hno => absurd hno (by simp), ?_⟩
    · exact (hreg' _ (by decide)).trans (hreg _ (by decide) (by decide))
    · exact (hreg' _ (by decide)).trans hlog
    · exact (hreg' _ (by decide)).trans h1
    · rintro _ ⟨⟩ hpin
      have hbleaf : ∀ q, (u.bump (Reg.fltCnt 6)).leaf q = s.leaf q := fun q => by
        rw [State.leaf, State.bump_tsm, htsm, State.leaf]
      have hlose : u.loseHome p (s.scrubLine ch.val) Code.dramUe = (u.bump (Reg.fltCnt 6)).setLeaf p
          { (u.bump (Reg.fltCnt 6)).leaf p with poison := true } := if_pos (by rw [hbleaf p, hpin]; rfl)
      rw [hlose]
      have hboot : (u.bump (Reg.fltCnt 6)).inBoot p = false := by
        by_contra hb
        rw [Bool.not_eq_false] at hb
        have hpinned : (s.leaf p).pin = true := by rw [← hbleaf p]; exact congrArg Leaf.pin (if_pos hb)
        exact absurd (hpin.symm.trans hpinned) (by decide)
      refine ⟨?_, fun q hq => ?_, ?_⟩
      · rw [State.leaf_setLeaf_self hboot, hbleaf]
      · exact (State.leaf_setLeaf_of_ne _ hq _).trans (hbleaf q)
      · refine (State.reg_of_regs (by simp) _).trans ((u.reg_bump_same _).trans (congrArg (· + 1) ?_))
        exact (hreg _ (by decide) (by decide)).trans (s.reg_scrubs_other _ (by decide))

end read

theorem does_oscillatorCheck {s : State} (hl : s.live = true) (ch : Fin 128) (drifted : Bool) :
    Does (.oscillatorCheck ch drifted) s fun t =>
      t = if drifted = true ∧ s.plat.parkedSince = none ∧ ch.val < s.field Reg.dramStatus 15 8 then s.bump (Reg.dramCnt 6) else s := by
  refine ⟨_, exec_of_gate rfl hl, ?_⟩
  by_cases h : drifted = true ∧ s.plat.parkedSince = none ∧ ch.val < s.field Reg.dramStatus 15 8
  · rw [if_pos h]
    obtain ⟨hd, hp, hlt⟩ := h
    beta_reduce
    rw [hd, hp, decide_eq_true hlt]
    rfl
  · rw [if_neg h]
    have hno : (drifted && s.plat.parkedSince.isNone && decide (ch.val < s.field Reg.dramStatus 15 8)) = false := by
      rw [Bool.eq_false_iff]
      intro hyes
      simp only [Bool.and_eq_true, Option.isNone_iff_eq_none, decide_eq_true_eq, and_assoc] at hyes
      exact h hyes
    beta_reduce
    rw [hno, State.iff_false]

/-- Settles O48: a scrub's line is clean, corrected or lost as the decoder of R607 finds it, and a single wrong symbol is always
corrected back. -/
theorem dramScrub : Obligations.DramScrub := by
  intro s ch errs wrote drifted hl
  refine ⟨fun hp => ignored_of_gate rfl hl (by exact if_pos hp), fun hp => ⟨scrubRead_as_written hl hp ch wrote,
    fun b v hb hv => ⟨lineEcc_single hb hv, fun hlim => scrubRead_single hl hp ch wrote hb hv hlim⟩,
    fun h => scrubRead_clean hl hp ch wrote h, fun h => scrubRead_corrected hl hp ch wrote h,
    fun h => scrubRead_uncorrectable hl hp ch wrote h⟩, does_oscillatorCheck hl ch drifted⟩

end Sys2Proof.Machine
end

section
/-! ### Fabric accesses, prefetch, charging and composition maps (R579 to R590, R597, R668, R693) -/

namespace Sys2Proof.Machine

open Sys2Proof

/-! #### The tracker -/

theorem State.issueAcc_keeps (s : State) (a : FabAcc) :
    ∃ q l, s.issueAcc a = { s with hq := q, fab.accs := l } ∧ l.map (·.id) = s.fab.accs.map (·.id) := by
  refine ⟨_, _, rfl, ?_⟩
  rw [List.map_map]
  refine List.map_congr_left fun x _ => ?_
  rw [Function.comp_apply]
  split <;> rfl

/-- Issuing accesses changes their marks and the sequence numbers alone. -/
theorem State.pumpFab_keeps (s : State) :
    ∃ q l, s.pumpFab = { s with hq := q, fab.accs := l } ∧ l.map (·.id) = s.fab.accs.map (·.id) := by
  refine List.foldlRecOn _ _ (motive := fun u : State => ∃ q l, u = { s with hq := q, fab.accs := l } ∧
    l.map (·.id) = s.fab.accs.map (·.id)) ⟨_, _, rfl, rfl⟩ fun u hu a _ => ?_
  obtain ⟨q, l, rfl, hids⟩ := hu
  split
  next =>
    obtain ⟨q', l', hissue, hids'⟩ := State.issueAcc_keeps { s with hq := q, fab.accs := l } a
    exact ⟨q', l', hissue, hids'.trans hids⟩
  next => exact ⟨q, l, rfl, hids⟩

theorem State.dropAccs_keeps (s : State) (p : FabAcc → Bool) :
    ∃ q l, s.dropAccs p = { s with hq := q, fab.accs := l } ∧
      l.map (·.id) = (s.fab.accs.filter fun a => !p a).map (·.id) := by
  obtain ⟨q, l, hpump, hids⟩ := State.pumpFab_keeps { s with fab.accs := s.fab.accs.filter fun a => !p a }
  exact ⟨q, l, hpump, hids⟩

/-- No access has the number. -/
def State.NoAcc (s : State) (i : Nat) : Prop := ∀ x ∈ s.fab.accs, x.id ≠ i

theorem State.noAcc_iff {s : State} {i : Nat} : s.NoAcc i ↔ i ∉ s.fab.accs.map (·.id) := by
  simp only [State.NoAcc, List.mem_map, not_exists, not_and]

theorem State.noAcc_dropAccs_id (s : State) (i : Nat) : (s.dropAccs fun x => x.id = i).NoAcc i := by
  obtain ⟨q, l, hdrop, hids⟩ := s.dropAccs_keeps fun x => x.id = i
  rw [State.noAcc_iff, hdrop]
  change i ∉ l.map (·.id)
  rw [hids]
  simp

theorem State.NoAcc.dropAccs {s : State} {i : Nat} (h : s.NoAcc i) (p : FabAcc → Bool) : (s.dropAccs p).NoAcc i := by
  obtain ⟨q, l, hdrop, hids⟩ := s.dropAccs_keeps p
  rw [State.noAcc_iff] at h ⊢
  rw [hdrop]
  change i ∉ l.map (·.id)
  rw [hids]
  exact fun hi => h ((List.filter_sublist.map _).subset hi)

theorem State.NoAcc.congr {s t : State} {i : Nat} (h : s.NoAcc i) (hf : t.fab = s.fab) : t.NoAcc i := by
  rw [State.NoAcc, hf]; exact h

theorem State.fillAhead_keeps (s : State) (a : FabAcc) : ∃ m, s.fillAhead a = { s with fab.ahead := m } := by
  unfold State.fillAhead
  split
  next =>
    dsimp only
    split
    next => exact ⟨_, rfl⟩
    next => exact ⟨s.fab.ahead, rfl⟩
  next => exact ⟨s.fab.ahead, rfl⟩

section access

variable {s : State} (hl : s.live = true) {a : FabAcc} (ha : s.fab.accs.find? (fun x => x.id = a.id && x.issued) = some a)
include hl ha

/-- The access has left the tracker, and its bytes are counted (R579, R600). -/
theorem fabricCompletion_ok : Does (.fabricCompletion a.id true) s fun t =>
    t.fab.accs.map (·.id) = (s.fab.accs.filter fun x => x.id ≠ a.id).map (·.id) ∧
    t.reg (Reg.fabCnt (if a.write then 1 else 0)) = s.reg (Reg.fabCnt (if a.write then 1 else 0)) + 65536 := by
  let u := s.dropAccs fun x => x.id = a.id
  refine does_of_gate (t := (u.countPool .pool a.write 65536).fillAhead a) rfl hl (by simp only [ha]; rfl) ?_
  obtain ⟨m, hfill⟩ := (u.countPool .pool a.write 65536).fillAhead_keeps a
  obtain ⟨q, l, hdrop, hids⟩ := s.dropAccs_keeps fun x => x.id = a.id
  have hu : u = { s with hq := q, fab.accs := l } := hdrop
  have hcount : u.countPool .pool a.write 65536 = u.bumpBy (Reg.fabCnt (if a.write then 1 else 0)) 65536 := rfl
  have hword : (65536 : Word) = BitVec.ofNat 64 65536 := rfl
  rw [hfill, hcount, hu, hword]
  let w : State := { s with hq := q, fab.accs := l }
  have hreg : ∀ k n, ({ w.bumpBy k n with fab.ahead := m } : State).reg k = s.reg k + BitVec.ofNat 64 n := fun k n =>
    w.reg_bumpBy_same k n
  refine ⟨?_, hreg _ _⟩
  refine hids.trans (congrArg (List.map _) (congrArg (fun p => List.filter p s.fab.accs) (funext fun x => ?_)))
  simp

end access

/-! #### The end of a cut that an access fails (R526, R582) -/

theorem State.setInSnap_keeps (s : State) (m : Nat × Nat) (b : Bool) :
    (s.setInSnap m b).fab = s.fab ∧ (s.setInSnap m b).snp = s.snp := by
  unfold State.setInSnap
  split
  next => exact ⟨rfl, rfl⟩
  next => simp

theorem State.sweepInSnap_keeps (s : State) (c : SnapCut) : (s.sweepInSnap c).fab = s.fab ∧ (s.sweepInSnap c).snp = s.snp := by
  refine List.foldlRecOn _ _ (motive := fun u : State => u.fab = s.fab ∧ u.snp = s.snp) ⟨rfl, rfl⟩ fun u hu x _ => ?_
  refine List.foldlRecOn _ _ (motive := fun u : State => u.fab = s.fab ∧ u.snp = s.snp) hu fun v hv y _ => ?_
  split
  next => exact hv
  next => exact ⟨(v.setInSnap_keeps y.mark false).1.trans hv.1, (v.setInSnap_keeps y.mark false).2.trans hv.2⟩

theorem unmarkAll_keeps (ps : List Nat) (s : State) :
    (ps.foldl (fun s p => s.unmark p) s).fab = s.fab ∧ (ps.foldl (fun s p => s.unmark p) s).snp = s.snp :=
  List.foldlRecOn _ _ (motive := fun u : State => u.fab = s.fab ∧ u.snp = s.snp) ⟨rfl, rfl⟩ fun _ hu _ _ => hu

/-- The end of a cut leaves none, takes accesses out of the tracker and puts none in. -/
theorem State.endCut_ends (s : State) (c : SnapCut) :
    (s.endCut c false).snp = { s.snp with cur := none } ∧ ∀ i, s.NoAcc i → (s.endCut c false).NoAcc i := by
  obtain ⟨hf1, hs1⟩ := unmarkAll_keeps c.todo s
  obtain ⟨hf2, hs2⟩ := (c.todo.foldl (fun s p => s.unmark p) s).sweepInSnap_keeps { c with todo := [] }
  unfold State.endCut
  dsimp only
  generalize State.sweepInSnap _ _ = v at *
  obtain ⟨m, rs, hfree⟩ := v.freeExtents_keeps (v.ckGroup c.group) c.extents
  simp only [Bool.false_eq_true, if_false]
  rw [hfree]
  have hsnp : v.snp = s.snp := hs2.trans hs1
  let w : State := { v with mem := m, regs := rs, snp.cur := none }
  obtain ⟨q, l, hdrop, -⟩ := w.dropAccs_keeps fun a => a.use = FabUse.snap c.epoch.toNat
  refine ⟨?_, fun i hi => ?_⟩
  · change (State.setField (w.dropAccs _) _ _ _ _).snp = _
    rw [hdrop]
    exact congrArg (fun x : Snap => { x with cur := none }) hsnp
  · have hw : w.NoAcc i := hi.congr (show v.fab = s.fab from hf2.trans hf1)
    exact (hw.dropAccs _).congr rfl

theorem State.leadReply_keeps (s : State) (l : SnapLead) (code : Nat) (data : Word) :
    (s.leadReply l code data).fab = s.fab ∧ (s.leadReply l code data).snp = s.snp := by
  unfold State.leadReply
  dsimp only
  split
  next => simp
  next =>
    split
    next => simp
    next => simp [State.endChange]

/-- A failed shard's report to its lead starts no cut and no access. -/
theorem State.shardReport_keeps {s : State} (c : SnapCut) (r : ShardRec) {code : Nat} (hcode : code ≠ 0) (hcur : s.snp.cur = none) :
    (s.shardReport c r code).snp.cur = none ∧ (s.shardReport c r code).fab = s.fab := by
  unfold State.shardReport
  dsimp only
  have hpost : ∀ q it n, ((s.iff (c.item ≠ {}) fun s => s.post q it n).snp = s.snp ∧ (s.iff (c.item ≠ {}) fun s => s.post q it n).fab = s.fab) := by
    intro q it n
    generalize decide (c.item ≠ {}) = b
    cases b <;> simp
  generalize hu : (s.iff (decide (c.item ≠ {})) _) = u
  obtain ⟨hsnp, hfab⟩ : u.snp = s.snp ∧ u.fab = s.fab := hu ▸ hpost _ _ _
  split
  next =>
    unfold State.leadShard
    split
    next => exact ⟨by rw [hsnp, hcur], hfab⟩
    next l _ =>
      rw [if_pos hcode]
      unfold State.failCut
      split
      next => exact ⟨by rw [hsnp, hcur], hfab⟩
      next l _ =>
        dsimp only
        have hsend : ∀ m : Msg, (({ u with snp.lead := none } : State).sendAll 5 m).snp = { u.snp with lead := none } ∧
            (({ u with snp.lead := none } : State).sendAll 5 m).fab = u.fab := fun m => by simp
        obtain ⟨hsnp', hfab'⟩ := hsend (.words 4 [fld 63 48 l.epoch.toNat ||| fld 47 40 l.group, BitVec.ofNat 64 code])
        generalize State.sendAll _ _ _ = v at *
        have hnone : v.snp.cur = none := by rw [hsnp', hsnp, hcur]
        rw [hnone]
        obtain ⟨hf, hs⟩ := v.leadReply_keeps l code 0
        exact ⟨by rw [hs, hnone], hf.trans (hfab'.trans hfab)⟩
  next =>
    have hsend : ∀ d n (m : Msg), (u.send d n m).snp = u.snp ∧ (u.send d n m).fab = u.fab := fun d n m => by simp
    exact ⟨by rw [(hsend _ _ _).1, hsnp, hcur], (hsend _ _ _).2.trans hfab⟩

theorem State.abortCut_aborts {s : State} {c : SnapCut} (hcur : s.snp.cur = some c) (hphase : c.phase ≠ .done) {code : Nat}
    (hcode : code ≠ 0) : (s.abortCut code).snp.cur = none ∧ ∀ i, s.NoAcc i → (s.abortCut code).NoAcc i := by
  have habort : s.abortCut code = ((s.endCut c false).bump (Reg.tsmCnt 9)).shardReport c { module := s.self } code := by
    unfold State.abortCut
    simp only [hcur, if_neg hphase]
  obtain ⟨hsnp, hno⟩ := s.endCut_ends c
  have hnone : ((s.endCut c false).bump (Reg.tsmCnt 9)).snp.cur = none := congrArg Snap.cur hsnp
  obtain ⟨hcur', hfab⟩ := State.shardReport_keeps c { module := s.self } hcode hnone
  rw [habort]
  exact ⟨hcur', fun i hi => (hno i hi).congr (hfab.trans rfl)⟩

section failed

variable {s : State} (hl : s.live = true) {a : FabAcc} (ha : s.fab.accs.find? (fun x => x.id = a.id && x.issued) = some a)
include hl ha

omit hl ha in
theorem State.accessFailed_snap {c : SnapCut} {e : Nat} (hcur : s.snp.cur = some c) (hphase : c.phase ≠ .done)
    (huse : a.use = .snap e) :
    ((s.dropAccs fun x => x.id = a.id).accessFailed a).snp.cur = none ∧
      ∀ x ∈ ((s.dropAccs fun x => x.id = a.id).accessFailed a).fab.accs, x.id ≠ a.id := by
  obtain ⟨q, l, hdrop, -⟩ := s.dropAccs_keeps fun x => x.id = a.id
  have hcur' : (s.dropAccs fun x => x.id = a.id).snp.cur = some c := by rw [hdrop]; exact hcur
  obtain ⟨hnone, hno⟩ := State.abortCut_aborts hcur' hphase (code := Code.snapPool) (by decide)
  have hfail : (s.dropAccs fun x => x.id = a.id).accessFailed a = (s.dropAccs fun x => x.id = a.id).abortCut Code.snapPool := by
    unfold State.accessFailed
    rw [huse]
  rw [hfail]
  exact ⟨hnone, hno _ (s.noAcc_dropAccs_id a.id)⟩

theorem fabricCompletion_failed {c : SnapCut} {e : Nat} (hcur : s.snp.cur = some c) (hphase : c.phase ≠ .done)
    (huse : a.use = .snap e) :
    Does (.fabricCompletion a.id false) s fun t => t.snp.cur = none ∧ ∀ x ∈ t.fab.accs, x.id ≠ a.id :=
  does_of_gate (t := (s.dropAccs fun x => x.id = a.id).accessFailed a) rfl hl
    (by simp only [ha, Bool.false_eq_true, if_false]) (State.accessFailed_snap hcur hphase huse)

theorem fabricTimeout_late {c : SnapCut} {e : Nat} (hcur : s.snp.cur = some c) (hphase : c.phase ≠ .done)
    (huse : a.use = .snap e) (hlate : a.sinceNs + usec (s.field Reg.fabControl 63 48) ≤ s.now) :
    Does (.fabricTimeout a.id) s fun t => t.snp.cur = none ∧ ∀ x ∈ t.fab.accs, x.id ≠ a.id :=
  does_of_gate (t := (s.dropAccs fun x => x.id = a.id).accessFailed a) rfl hl
    (by simp only [ha, if_neg (Nat.not_lt.mpr hlate)]) (State.accessFailed_snap hcur hphase huse)

theorem fabricTimeout_early (h : s.now < a.sinceNs + usec (s.field Reg.fabControl 63 48)) : Ignored (.fabricTimeout a.id) s :=
  ignored_of_gate rfl hl (by simp only [ha, if_pos h])

end failed

/-! #### Swaps, links and the prefetch depth -/

theorem fabricCasComplete_swaps {s : State} (hl : s.live = true) {addr : Word} (expected value old : Word)
    (hc : s.casCode addr = 0) : Does (.fabricCasComplete addr expected value old) s fun t =>
      t.readWord (poolAddr addr.toNat) = (if old = expected then value else old) ∧
      t.reg (Reg.fabCnt 2) = s.reg (Reg.fabCnt 2) + 1 ∧
      t.reg (Reg.fabCnt 3) = s.reg (Reg.fabCnt 3) + (if old = expected then 0 else 1) := by
  let w := s.writeWord (poolAddr addr.toNat) (if old = expected then value else old)
  obtain ⟨-, hmem, -, h3, hother⟩ := (w.bump (Reg.fabCnt 2)).iff_bump_keeps (!decide (old = expected)) (Reg.fabCnt 3)
  refine does_of_gate (t := w.countCas (decide (old = expected))) rfl hl
    (by simp only [hc, ne_eq, not_true, if_false, w]) ⟨?_, ?_, ?_⟩
  · refine (State.readWord_congr (s := w) fun i _ => congrArg (SMap.get (0 : Byte) · _) hmem).trans ?_
    exact s.readWord_writeWord _ _
  · exact (hother _ (by decide)).trans (w.reg_bump_same _)
  · refine h3.trans ?_
    rw [w.reg_bump_other _ _ (by decide)]
    by_cases hold : old = expected <;> simp [hold, w] <;> rfl

/-- A record of an event takes a register of FLT.EVENT, and its count one field of FLT.LOG. -/
theorem State.reg_event_other (s : State) (code domain die unit step : Nat) (h d : Word) {k : Nat} (hlog : k ≠ Reg.fltLog)
    (hev : ∀ i < 1024, k ≠ Reg.fltEvent i) : (s.event code domain die unit step h d).reg k = s.reg k := by
  have hput (u : State) (n i : Nat) (w : Word) (hi : i < 4) (hn : n < 256) : (u.putEvent n i w).reg k = u.reg k :=
    State.reg_setReg_other _ _ _ _ (hev _ (by omega))
  have hfield (u : State) (v : Nat) : (u.setField Reg.fltLog 63 32 v).reg k = u.reg k := State.reg_setReg_other _ _ _ _ hlog
  have hn : s.field Reg.fltLog 63 32 % 256 < 256 := Nat.mod_lt _ (by decide)
  have hattn (u : State) : (u.setAttn 1).reg k = u.reg k := State.reg_of_regs (by simp) k
  simp only [State.event, State.eventWords, hattn, hfield, hput _ _ _ _ (by decide : 0 < 4) hn, hput _ _ _ _ (by decide : 1 < 4) hn,
    hput _ _ _ _ (by decide : 2 < 4) hn, hput _ _ _ _ (by decide : 3 < 4) hn]

theorem State.field_fltLog_event (s : State) (code domain die unit step : Nat) (h d : Word) :
    (s.event code domain die unit step h d).field Reg.fltLog 63 32 = (s.field Reg.fltLog 63 32 + 1) % 2 ^ 32 := by
  have hattn (u : State) : (u.setAttn 1).field Reg.fltLog 63 32 = u.field Reg.fltLog 63 32 :=
    congrArg (bits · 63 32) (State.reg_of_regs (by simp) _)
  rw [State.event, hattn]
  exact State.field_setField_same _ _ _ _ _ (by decide) (by decide)

theorem fabricLinkDown_falls {s : State} (hl : s.live = true) (port : Fin 4) (hup : bit (s.reg (Reg.fabPort port.val)) 63 = true) :
    Does (.fabricLinkDown port) s fun t => bit (t.reg (Reg.fabPort port.val)) 63 = false ∧
      t.reg (Reg.fltCnt 5) = s.reg (Reg.fltCnt 5) + 1 ∧ t.field Reg.fltLog 63 32 = (s.field Reg.fltLog 63 32 + 1) % 2 ^ 32 := by
  have hp := port.isLt
  let u := (s.setField (Reg.fabPort port.val) 63 63 0).bump (Reg.fltCnt 5)
  refine does_of_gate (t := u.event Code.fabError 3 (4 + port.val / 2) (24 + port.val) 0 0 (BitVec.ofNat 64 port.val)) rfl hl
    (by exact if_pos hup) ⟨?_, ?_, ?_⟩
  · have hreg : u.reg (Reg.fabPort port.val) = setBits (s.reg (Reg.fabPort port.val)) 63 63 0 :=
      (State.reg_bump_other _ _ _ (by simp only [Reg.fabPort, Reg.fltCnt]; omega)).trans (State.reg_setReg_same _ _ _)
    rw [State.reg_event _ _ _ _ _ _ _ _ (by simp only [Reg.fabPort]; omega), hreg, bit_setBits_zero _ (by decide)]
    simp
  · rw [State.reg_event_other _ _ _ _ _ _ _ _ (by decide) (fun i hi => by simp only [Reg.fltCnt, Reg.fltEvent]; omega)]
    exact (State.reg_bump_same _ _).trans (congrArg (· + 1)
      (State.reg_setReg_other _ _ _ _ (by simp only [Reg.fabPort, Reg.fltCnt]; omega)))
  · rw [State.field_fltLog_event]
    have hreg : u.reg Reg.fltLog = s.reg Reg.fltLog :=
      (State.reg_bump_other _ _ _ (by decide)).trans (State.reg_setReg_other _ _ _ _ (by simp only [Reg.fabPort, Reg.fltLog]; omega))
    rw [State.field, hreg, State.field]

theorem fabricLinkUp_rises {s : State} (hl : s.live = true) (port : Fin 4) (w : Fin 3) (slow : Bool) :
    Does (.fabricLinkUp port w slow) s fun t => bit (t.reg (Reg.fabPort port.val)) 63 = true ∧
      t.field (Reg.fabPort port.val) 62 61 = w.val ∧ bit (t.reg (Reg.fabPort port.val)) 60 = slow ∧
      ∀ j, j ≠ Reg.fabPort port.val → t.reg j = s.reg j := by
  have hw := w.isLt
  refine does_of_gate rfl hl rfl ⟨?_, ?_, ?_, fun j hj => State.reg_setReg_other _ _ _ _ hj⟩
  · rw [State.reg_setReg_same, bit_setBits_above _ (by decide) (by decide) (by decide), bit_setBits_above _ (by decide) (by decide)
      (by decide), bit_setBits_one _ (by decide)]
    simp
  · rw [State.field, State.reg_setReg_same, bits_setBits_other _ _ _ _ _ _ (by decide) (by decide) (by decide) (by decide),
      bits_setBits_same _ _ _ _ (by decide) (by decide)]
    omega
  · rw [State.reg_setReg_same]
    exact bit_setBits_bnat_same _ slow (by decide)

theorem State.prefetchDepth_lt (s : State) (ns : Nat) : s.prefetchDepth ns < 256 := by
  unfold State.prefetchDepth
  dsimp only
  split
  · exact bits_lt _ 39 32
  · exact (Nat.min_le_left _ _).trans_lt (bits_lt _ 23 16)

theorem prefetchInterval_sets {s : State} (hl : s.live = true) (port : Fin 4) (ns : Nat)
    (hdue : s.due (tickPrefetch + port.val) 100000) :
    Does (.prefetchInterval port ns) s fun t => t.field (Reg.fabPort port.val) 7 0 = s.prefetchDepth ns ∧
      (s.field (Reg.fabPort port.val) 7 0 ≠ s.prefetchDepth ns → t.reg (Reg.fabCnt 7) = s.reg (Reg.fabCnt 7) + 1) := by
  have hp := port.isLt
  let u : State := { s with ticks := SMap.set 0 s.ticks (tickPrefetch + port.val) s.now }
  let v := (u.setField (Reg.fabPort port.val) 7 0 (s.prefetchDepth ns)).bump (Reg.fabCnt 7)
  by_cases hsame : s.field (Reg.fabPort port.val) 7 0 = s.prefetchDepth ns
  · refine does_of_gate (t := u) rfl hl (by exact (if_pos hdue).trans (if_pos hsame)) ⟨hsame, fun hne => absurd hsame hne⟩
  · obtain ⟨q, l, hpump, -⟩ := v.pumpFab_keeps
    have hregs : ∀ k, v.pumpFab.reg k = v.reg k := fun k => State.reg_of_regs (by rw [hpump]) k
    refine does_of_gate (t := v.pumpFab) rfl hl (by exact (if_pos hdue).trans (if_neg hsame)) ⟨?_, fun _ => ?_⟩
    · rw [State.field, hregs, State.reg_bump_other _ _ _ (by simp only [Reg.fabPort, Reg.fabCnt]; omega)]
      exact (State.field_setField_same _ _ _ _ _ (by decide) (by decide)).trans (Nat.mod_eq_of_lt (s.prefetchDepth_lt ns))
    · rw [hregs]
      exact (State.reg_bump_same _ _).trans (congrArg (· + 1)
        (u.reg_setReg_other _ _ _ (by simp only [Reg.fabPort, Reg.fabCnt]; omega)))

end Sys2Proof.Machine
end

section
/-! ### Charging and composition maps (R583 to R590, R599, R668) -/

namespace Sys2Proof.Machine

open Sys2Proof

/-! #### Charge records -/

theorem State.chargeKey_of_reg {s t : State} (h : t.reg Reg.pltCharge = s.reg Reg.pltCharge) (i : Nat) :
    t.chargeKey i = s.chargeKey i := by
  rw [State.chargeKey, State.field, h, State.chargeKey, State.field]

theorem State.chargeKey_ne (s : State) (i : Nat) : s.chargeKey i ≠ Reg.pltCharge := by
  simp only [State.chargeKey, Reg.pltChargeRec, Reg.pltCharge]
  omega

theorem State.chargeKey_injective {s : State} {i j : Nat} (h : s.chargeKey i = s.chargeKey j) : i = j := by
  simp only [State.chargeKey, Reg.pltChargeRec] at h
  omega

theorem State.chargeKey_setReg (s : State) {k : Nat} (w : Word) (h : k ≠ Reg.pltCharge) (i : Nat) :
    (s.setReg k w).chargeKey i = s.chargeKey i :=
  State.chargeKey_of_reg (s.reg_setReg_other _ _ _ h.symm) i

/-- One millisecond counted into the open record: the time, the pages held, the modules reached (R590). -/
def State.countCharge (u : State) (pages modules : Nat) : State :=
  ((u.bump (u.chargeKey 3)).bumpBy (u.chargeKey 4) pages).bumpBy (u.chargeKey 5) modules

theorem State.countCharge_counts (u : State) (pages modules : Nat) :
    (u.countCharge pages modules).reg (u.chargeKey 3) = u.reg (u.chargeKey 3) + 1 ∧
    (u.countCharge pages modules).reg (u.chargeKey 5) = u.reg (u.chargeKey 5) + BitVec.ofNat 64 modules := by
  have hne : ∀ {i j : Nat}, i ≠ j → u.chargeKey i ≠ u.chargeKey j := fun h h' => h (State.chargeKey_injective h')
  constructor
  · rw [State.countCharge, State.reg_bumpBy_other _ _ _ _ (hne (by decide)), State.reg_bumpBy_other _ _ _ _ (hne (by decide)),
      State.reg_bump_same]
  · rw [State.countCharge, State.reg_bumpBy_same, State.reg_bumpBy_other _ _ _ _ (hne (by decide)),
      State.reg_bump_other _ _ _ (hne (by decide))]

/-- What chargeTick counts for the map in effect. -/
def State.chargeMs (s : State) : State :=
  s.countCharge (sumNat ((s.comp.map.segs.filter fun x => x.2.valid).map fun x => x.2.pages)) (s.comp.map.modules - 1)

theorem execChargeTick_eq (s : State) :
    execChargeTick s = gate s fun s => if !s.loaded then s else s.periodic tickCharge 1000000 State.chargeMs := rfl

theorem chargeTick_counts {s : State} (hl : s.live = true) (hload : s.loaded = true) (hdue : s.due tickCharge 1000000) :
    Does .chargeTick s fun t => t.reg (s.chargeKey 3) = s.reg (s.chargeKey 3) + 1 ∧
      t.reg (s.chargeKey 5) = s.reg (s.chargeKey 5) + BitVec.ofNat 64 (s.comp.map.modules - 1) := by
  have hexec : exec .chargeTick s = .next ({ s with ticks := SMap.set 0 s.ticks tickCharge s.now } : State).chargeMs := by
    have hrun : exec .chargeTick s = execChargeTick s := rfl
    rw [hrun, execChargeTick_eq, gate_live hl, hload, Bool.not_true, if_neg Bool.false_ne_true]
    exact congrArg _ (if_pos hdue)
  exact ⟨_, hexec, State.countCharge_counts _ _ _⟩

/-- Words laid into the record HEAD names, from word n upward. -/
def layCharge (ws : List Word) (n : Nat) (s : State) : State :=
  (ws.zipIdx n).foldl (fun s x => s.setReg (s.chargeKey x.2) x.1) s

theorem layCharge_lays (ws : List Word) : ∀ (n : Nat) (s : State),
    (layCharge ws n s).reg Reg.pltCharge = s.reg Reg.pltCharge ∧ (∃ rs, layCharge ws n s = { s with regs := rs }) ∧
    ∀ j, (layCharge ws n s).reg (s.chargeKey j) =
      if n ≤ j ∧ j < n + ws.length then ws.getD (j - n) 0 else s.reg (s.chargeKey j) := by
  induction ws with
  | nil =>
    intro n s
    exact ⟨rfl, ⟨_, rfl⟩, fun j => (if_neg (by simp only [List.length_nil]; omega)).symm⟩
  | cons w ws ih =>
    intro n s
    obtain ⟨hcharge, ⟨rs, hrs⟩, hword⟩ := ih (n + 1) (s.setReg (s.chargeKey n) w)
    have hcons : layCharge (w :: ws) n s = layCharge ws (n + 1) (s.setReg (s.chargeKey n) w) := rfl
    refine ⟨?_, ⟨rs, by rw [hcons, hrs]; rfl⟩, fun j => ?_⟩
    · rw [hcons, hcharge, State.reg_setReg_other _ _ _ _ (s.chargeKey_ne n).symm]
    · have hkey := s.chargeKey_setReg w (s.chargeKey_ne n) j
      rw [hcons, ← hkey, hword j, hkey, List.length_cons]
      by_cases hj : j = n
      · subst hj
        rw [if_neg (by omega), if_pos (by omega), State.reg_setReg_same, Nat.sub_self]
        rfl
      · rw [State.reg_setReg_other _ _ _ _ fun h => hj (State.chargeKey_injective h)]
        by_cases hin : n + 1 ≤ j ∧ j < n + 1 + ws.length
        · rw [if_pos hin, if_pos (by omega), show j - n = (j - (n + 1)) + 1 by omega]
          rfl
        · rw [if_neg hin, if_neg (by omega)]

/-- The record opened for the map in effect: its epoch stands in word 0, the time in word 1 (R590, R599). -/
theorem State.turnCharge_turns (s : State) :
    (∃ rs, s.turnCharge = { s with regs := rs }) ∧ s.turnCharge.field Reg.pltCharge 3 0 = (s.field Reg.pltCharge 3 0 + 1) % 16 ∧
    bits (s.turnCharge.reg (s.turnCharge.chargeKey 0)) 63 48 = s.comp.map.epoch.toNat ∧
    s.turnCharge.reg (s.turnCharge.chargeKey 1) = BitVec.ofNat 64 s.now := by
  let u := s.setReg (s.chargeKey 2) (BitVec.ofNat 64 s.now)
  let v := u.setField Reg.pltCharge 3 0 (u.field Reg.pltCharge 3 0 + 1)
  let ws : List Word := [fld 63 48 s.comp.map.epoch.toNat ||| fld 35 32 s.comp.map.modules ||| fld 31 0 s.comp.map.chargeId.toNat,
    BitVec.ofNat 64 s.now, 0, 0, 0, 0, 0, 0]
  have hturn : s.turnCharge = layCharge ws 0 v := rfl
  obtain ⟨hcharge, ⟨rs, hrs⟩, hword⟩ := layCharge_lays ws 0 v
  have hkey : ∀ i, s.turnCharge.chargeKey i = v.chargeKey i := fun i => State.chargeKey_of_reg (hturn ▸ hcharge) i
  have hu : u.field Reg.pltCharge 3 0 = s.field Reg.pltCharge 3 0 :=
    congrArg (bits · 3 0) (s.reg_setReg_other _ _ _ (s.chargeKey_ne 2).symm)
  refine ⟨⟨rs, by rw [hturn, hrs]; rfl⟩, ?_, ?_, ?_⟩
  · rw [hturn, State.field, hcharge]
    exact (u.field_setField_same Reg.pltCharge 3 0 _ (by decide) (by decide)).trans (by rw [hu]; rfl)
  · rw [hkey, hturn, hword 0, if_pos (by simp [ws])]
    change bits (fld 63 48 s.comp.map.epoch.toNat ||| fld 35 32 s.comp.map.modules ||| fld 31 0 s.comp.map.chargeId.toNat) 63 48 = _
    rw [bits_or, bits_or, bits_fld_same _ _ _ (by decide) (by decide), bits_fld_other 35 32 _ 63 48 (by decide) (by decide) (by decide)
      (by decide), bits_fld_other 31 0 _ 63 48 (by decide) (by decide) (by decide) (by decide), Nat.or_zero, Nat.or_zero]
    exact Nat.mod_eq_of_lt s.comp.map.epoch.isLt
  · rw [hkey, hturn, hword 1, if_pos (by simp [ws])]
    rfl

/-! #### Maps -/

theorem State.mapCode_lt (s : State) (m : CompMap) : s.mapCode m < 8192 := by
  unfold State.mapCode
  split
  · decide
  · split
    · decide
    · split <;> decide

section recompose

variable {s : State} {id : Nat} {c : HostCmd} (hw : Waits s id 0x05 c) (hnext : s.comp.next = none) (bs : List Byte)
include hw hnext

theorem recompose_accepts (hcode : s.mapCode (CompMap.ofBytes bs) = 0) : Does (.recompose id (some bs)) s fun t =>
    t.comp.next = some (CompMap.ofBytes bs) ∧ t.comp.nextCmd = some id ∧ t.comp.map = s.comp.map ∧
    ∃ d ∈ t.host.cmds, d.id = id ∧ d.began = true := by
  refine ⟨{ s.began c.id with comp.next := some (CompMap.ofBytes bs), comp.nextBytes := bs.take 65536, comp.nextCmd := some c.id }, ?_,
    rfl, congrArg some hw.id_eq, rfl, hw.mem_began⟩
  have hexec : exec (.recompose id (some bs)) s = execRecompose id (some bs) s := rfl
  rw [hexec, execRecompose, hw.hostCmd]
  simp only [hnext, Option.isSome_none, Bool.false_eq_true, if_false, hcode, ne_eq, not_true]

theorem recompose_refuses (hcode : s.mapCode (CompMap.ofBytes bs) ≠ 0) : Does (.recompose id (some bs)) s fun t =>
    t.comp = s.comp ∧ Answers s t c (s.mapCode (CompMap.ofBytes bs)) 0 0 := by
  refine ⟨s.complete c.id (s.mapCode (CompMap.ofBytes bs)) 0 0, ?_, by simp,
    hw.is_open.underway.answers (s.mapCode_lt _) 0 0⟩
  have hexec : exec (.recompose id (some bs)) s = execRecompose id (some bs) s := rfl
  rw [hexec, execRecompose, hw.hostCmd]
  simp only [hnext, Option.isSome_none, Bool.false_eq_true, if_false, if_pos hcode]

end recompose

theorem State.mend_keeps (s : State) (a n : Nat) : ∃ b, s.mend a n = { s with dram.bad := b } := by
  unfold State.mend
  split
  · exact ⟨s.dram.bad, rfl⟩
  · exact ⟨_, rfl⟩

/-- What a write of a table by firmware leaves. -/
theorem State.setTabBytes_keeps (s : State) (a : Nat) (bs : List Byte) :
    (s.setTabBytes a bs).host = s.host ∧ (s.setTabBytes a bs).plat = s.plat ∧ (s.setTabBytes a bs).out = s.out ∧
    (s.setTabBytes a bs).comp = s.comp ∧ (s.setTabBytes a bs).regs = s.regs ∧ (s.setTabBytes a bs).now = s.now := by
  unfold State.setTabBytes
  split
  next => exact ⟨rfl, rfl, rfl, rfl, rfl, rfl⟩
  next =>
    refine List.foldlRecOn _ _ (motive := fun u : State => u.host = s.host ∧ u.plat = s.plat ∧ u.out = s.out ∧ u.comp = s.comp ∧
      u.regs = s.regs ∧ u.now = s.now) ⟨rfl, rfl, rfl, rfl, rfl, rfl⟩ fun u hu x _ => ?_
    generalize (u.leaf (x.1 / 65536)).v = v
    cases v with
    | false => exact hu
    | true =>
      obtain ⟨b, hb⟩ := (u.setVbytes x.1 ((bs.drop x.2.1).take x.2.2)).mend_keeps x.1 x.2.2
      obtain ⟨_, _, _, _, _, _, _, _, htab⟩ := u.tablesOnly_setVbytes x.1 ((bs.drop x.2.1).take x.2.2)
      rw [State.iff_true, hb, htab]
      exact hu

/-- The marks of ports that MISWIRE locked fall (R572). -/
theorem unlockPorts_keeps (ps : List Nat) (s : State) : ∃ rs, ps.foldl (fun s p => s.setField (Reg.trlPort p) 61 61 0) s = { s with regs := rs } ∧
    ∀ k, (∀ p ∈ ps, k ≠ Reg.trlPort p) → ({ s with regs := rs } : State).reg k = s.reg k := by
  refine List.foldlRecOn _ _ (motive := fun u : State => ∃ rs, u = { s with regs := rs } ∧
    ∀ k, (∀ p ∈ ps, k ≠ Reg.trlPort p) → ({ s with regs := rs } : State).reg k = s.reg k) ⟨s.regs, rfl, fun _ _ => rfl⟩ fun u hu p hp => ?_
  obtain ⟨rs, rfl, hreg⟩ := hu
  exact ⟨_, rfl, fun k hk => (State.reg_setReg_other { s with regs := rs } _ _ _ (hk p hp)).trans (hreg k hk)⟩

/-- The state in which a waiting map has taken effect: the former one drains (R585). -/
def State.inEffect (s : State) (m : CompMap) (w : Word) : State :=
  let u := s.setTabBytes (65536 * s.field Reg.fabControl 35 0) s.comp.nextBytes
  let v := { u with
    comp.map := m
    comp.nextBytes := []
    comp.old := some u.comp.map
    comp.drainSince := u.now
    comp.drainNs := msec (u.field Reg.fabControl 47 42)
    comp.next := none
    comp.nextCmd := none
    comp.held := [] }
  (List.range 8).foldl (fun s p => s.setField (Reg.trlPort p) 61 61 0) (v.readDir w)

theorem State.inEffect_keeps (s : State) (m : CompMap) (w : Word) :
    (s.inEffect m w).host = s.host ∧ (s.inEffect m w).plat = s.plat ∧ (s.inEffect m w).out = s.out ∧ (s.inEffect m w).now = s.now ∧
    (∀ k, (∀ p ∈ List.range 8, k ≠ Reg.trlPort p) → (s.inEffect m w).reg k = s.reg k) ∧
    (s.inEffect m w).comp = { s.comp with
      map := m, nextBytes := [], old := some s.comp.map, drainSince := s.now, drainNs := msec (s.field Reg.fabControl 47 42)
      next := none, nextCmd := none, held := [] } := by
  unfold State.inEffect
  dsimp only
  obtain ⟨hhost, hplat, hout, hcomp, hregs, hnow⟩ :=
    s.setTabBytes_keeps (65536 * s.field Reg.fabControl 35 0) s.comp.nextBytes
  generalize s.setTabBytes (65536 * s.field Reg.fabControl 35 0) s.comp.nextBytes = u at *
  have hfield : u.field Reg.fabControl 47 42 = s.field Reg.fabControl 47 42 := congrArg (bits · 47 42) (State.reg_of_regs hregs _)
  generalize hv : State.readDir _ w = v
  obtain ⟨rs, hunlock, hreg⟩ := unlockPorts_keeps (List.range 8) v
  rw [hunlock]
  subst hv
  refine ⟨hhost, hplat, hout, hnow, fun k hk => (hreg k hk).trans (State.reg_of_regs hregs k), ?_⟩
  change ({ u.comp with
      map := m, nextBytes := [], old := some u.comp.map, drainSince := u.now, drainNs := msec (u.field Reg.fabControl 47 42)
      next := none, nextCmd := none, held := [] } : Comp) = _
  rw [hcomp, hnow, hfield]

/-- A map that leaves the neighbours takes effect without a port going down; the command that brought it ends (R587). -/
theorem mapInstall_installs {s : State} (hl : s.live = true) {m : CompMap} {c : HostCmd} (w : Word) (hnext : s.comp.next = some m)
    (hcur : s.fw.cur = none) (hheld : s.comp.held = []) (hcmd : s.comp.nextCmd = some c.id) (hopen : Open s c)
    (hnear : ({ s with comp.map := m }.neighbour true, { s with comp.map := m }.neighbour false) =
      (s.neighbour true, s.neighbour false)) :
    Does (.mapInstall w) s fun t => t.comp.map = m ∧ t.comp.old = some s.comp.map ∧ t.comp.drainSince = s.now ∧
      t.comp.drainNs = msec (s.field Reg.fabControl 47 42) ∧ t.comp.next = none ∧
      t.field Reg.pltCharge 3 0 = (s.field Reg.pltCharge 3 0 + 1) % 16 ∧
      bits (t.reg (t.chargeKey 0)) 63 48 = m.epoch.toNat ∧ t.reg (t.chargeKey 1) = BitVec.ofNat 64 s.now ∧
      Answers s t c 0 (BitVec.ofNat 64 m.epoch.toNat) 0 := by
  obtain ⟨hhost, hplat, hout, hnow, hreg, hcomp⟩ := s.inEffect_keeps m w
  have hnear' : ((s.inEffect m w).neighbour true, (s.inEffect m w).neighbour false) = (s.neighbour true, s.neighbour false) := by
    rw [← hnear]
    simp only [State.neighbour, hcomp]
  have hexec : exec (.mapInstall w) s =
      .next ((s.inEffect m w).turnCharge.complete c.id 0 (BitVec.ofNat 64 m.epoch.toNat) 0) := by
    refine (exec_of_gate rfl hl).trans (congrArg Host.Outcome.next ?_)
    simp only [hnext, hcur, Option.isSome_none, Bool.false_eq_true, if_false, hheld, hcmd]
    exact congrArg (fun u : State => (rearrive [] u).turnCharge.reply (some c.id) 0 (BitVec.ofNat 64 m.epoch.toNat) 0)
      (if_neg (not_not.mpr hnear'))
  refine ⟨_, hexec, ?_⟩
  generalize s.inEffect m w = v at *
  obtain ⟨⟨rs, hturn⟩, hhead, hepoch, htime⟩ := v.turnCharge_turns
  have hunder : Underway s v.turnCharge c := hopen.underway.congr (by rw [hturn]; exact hhost) (by rw [hturn]; exact hplat)
    (by rw [hturn]; exact ⟨[], by rw [List.append_nil]; exact hout.symm⟩)
  have hdone : (v.turnCharge.complete c.id 0 (BitVec.ofNat 64 m.epoch.toNat) 0).comp = v.comp ∧
      (v.turnCharge.complete c.id 0 (BitVec.ofNat 64 m.epoch.toNat) 0).regs = v.turnCharge.regs :=
    ⟨by simp only [State.complete_frame]; rw [hturn], by simp⟩
  have hregs : ∀ k, (v.turnCharge.complete c.id 0 (BitVec.ofNat 64 m.epoch.toNat) 0).reg k = v.turnCharge.reg k := fun k =>
    State.reg_of_regs hdone.2 k
  have hkey : ∀ i, (v.turnCharge.complete c.id 0 (BitVec.ofNat 64 m.epoch.toNat) 0).chargeKey i = v.turnCharge.chargeKey i :=
    State.chargeKey_of_reg (hregs _)
  have hfield : (v.turnCharge.complete c.id 0 (BitVec.ofNat 64 m.epoch.toNat) 0).field Reg.pltCharge 3 0 =
      v.turnCharge.field Reg.pltCharge 3 0 := congrArg (bits · 3 0) (hregs _)
  have hold : v.field Reg.pltCharge 3 0 = s.field Reg.pltCharge 3 0 :=
    congrArg (bits · 3 0) (hreg _ fun p hp => by have := List.mem_range.mp hp; simp only [Reg.pltCharge, Reg.trlPort]; omega)
  have hcompt := hdone.1.trans hcomp
  refine ⟨congrArg Comp.map hcompt, congrArg Comp.old hcompt, congrArg Comp.drainSince hcompt, congrArg Comp.drainNs hcompt,
    congrArg Comp.next hcompt, by rw [hfield, hhead, hold], ?_, ?_, hunder.answers (by decide) _ _⟩
  · rw [hkey, hregs, hepoch, hcomp]
  · rw [hkey, hregs, htime, hnow]

theorem drainEnd_ends {s : State} (hl : s.live = true) (h : s.comp.drainSince + s.comp.drainNs ≤ s.now) :
    Does .drainEnd s fun t => t = { s with comp.old := none } :=
  does_of_gate rfl hl (by exact if_pos h) rfl

theorem State.refuseHeld_comp (s : State) (h : HeldItem) : (s.refuseHeld h).comp = s.comp := by
  unfold State.refuseHeld
  split
  next => rfl
  next p => simp [State.reportTag, State.giveCredits]

theorem heldItemTimeout_drops {s : State} (hl : s.live = true) :
    Does .heldItemTimeout s fun t => t.comp.held = s.comp.held.filter fun h => s.now < h.untilNs := by
  refine does_of_gate rfl hl rfl ?_
  exact List.foldlRecOn _ _ (motive := fun u : State => u.comp.held = s.comp.held.filter fun h => s.now < h.untilNs) rfl
    fun u hu h _ => (congrArg Comp.held (u.refuseHeld_comp h)).trans hu

/-- Settles O46: accesses, swaps, links, prefetch, charging and maps, each by what its command changes. -/
theorem fabricAndMaps : Obligations.FabricAndMaps := by
  intro s port hl
  refine ⟨fun a ha => ⟨fabricCompletion_ok hl ha, fun c e hcur hphase huse => ⟨fabricCompletion_failed hl ha hcur hphase huse,
      fun hlate => fabricTimeout_late hl ha hcur hphase huse hlate⟩, fun h => fabricTimeout_early hl ha h⟩,
    fun addr expected value old hc => fabricCasComplete_swaps hl expected value old hc,
    fun hup => fabricLinkDown_falls hl port hup, fun hdown => ignored_of_gate rfl hl (by exact if_neg (by simp [hdown])),
    fun w slow => fabricLinkUp_rises hl port w slow, fun ns hdue => prefetchInterval_sets hl port ns hdue,
    fun hload hdue => chargeTick_counts hl hload hdue,
    fun id c bs hw hnext => ⟨fun hcode => recompose_accepts hw hnext bs hcode, fun hcode => recompose_refuses hw hnext bs hcode⟩,
    fun m c w hnext hcur hheld hcmd hopen hnear => mapInstall_installs hl w hnext hcur hheld hcmd hopen hnear,
    fun h => drainEnd_ends hl h, fun h => ignored_of_gate rfl hl (by exact if_neg (by omega)), heldItemTimeout_drops hl⟩

end Sys2Proof.Machine
end

section
/-! ### Trail links: bring-up, loss and flits (R568 to R573, R593) -/

namespace Sys2Proof.Machine

open Sys2Proof

/-! #### The ports' records and registers -/

theorem State.trailPort_setTrl_same (s : State) (p : Nat) (x : TrailPort) : (s.setTrl p x).trailPort p = x :=
  SMap.get_set_same _ _ _ _

theorem State.trailPort_setTrl_other (s : State) (p : Nat) (x : TrailPort) {j : Nat} (h : j ≠ p) :
    (s.setTrl p x).trailPort j = s.trailPort j :=
  SMap.get_set_other _ _ _ _ _ _ h

theorem State.trlState_of_reg {s t : State} {p : Nat} (h : t.reg (Reg.trlPort p) = s.reg (Reg.trlPort p)) :
    t.trlState p = s.trlState p :=
  congrArg (bits · 63 62) h

/-- The counters of flits and of frames dropped are the registers that the sending of frames changes. -/
def OffSends (k : Nat) : Prop := k ≠ Reg.trlCnt 0 ∧ k ≠ Reg.trlCnt 6

theorem reg_pumpLoop_offSends {k : Nat} (hk : OffSends k) (p n : Nat) (s : State) : (pumpLoop p n s).reg k = s.reg k := by
  induction n generalizing s with
  | zero => rfl
  | succ n ih =>
    unfold pumpLoop
    split
    · rfl
    next t h =>
      rw [ih]
      simp only [State.nextFlit] at h
      split at h
      · cases h
      · obtain ⟨vc, -, rfl⟩ := Option.map_eq_some_iff.1 h
        exact State.reg_bump_other _ _ _ hk.1

theorem State.reg_sendFrame_offSends {k : Nat} (hk : OffSends k) (s : State) (f : FrameHead) : (s.sendFrame f).reg k = s.reg k := by
  unfold State.sendFrame
  split
  · exact State.reg_bump_other _ _ _ hk.2
  · dsimp only
    split
    · rfl
    · exact reg_pumpLoop_offSends hk _ _ _

/-- A port with nothing in progress and nothing waiting sends no flit. -/
theorem State.pump_of_idle {s : State} {p : Nat} (hwaiting : (s.trailPort p).waiting = []) (hcur : (s.trailPort p).cur = []) :
    s.pump p = s := by
  have hready : ∀ vc, (s.trailPort p).ready vc = false := fun vc => by
    simp [TrailPort.ready, TrailPort.next, hwaiting, hcur, SMap.lookup]
  have hpick : (s.trailPort p).pick = none := by simp [TrailPort.pick, hready]
  have hnext : s.nextFlit p = none := by simp [State.nextFlit, hpick]
  simp only [State.pump, pumpLoop, hnext]

/-! #### Flits without frames (R568) -/

/-- A flit that carries no frame leaves with its type and its CRC; the port's rotation of credit totals moves on. -/
theorem State.ctlFlit_sends (s : State) (p : Nat) {k : Nat} (payload : List Word) (hk : k < 16) (hlen : payload.length ≤ 30) :
    SentFlit s (s.ctlFlit p k payload) p k payload ∧
    (s.ctlFlit p k payload).trailPort p = { s.trailPort p with rot := ((s.trailPort p).rot + 1) % 3 } ∧
    (∀ j, j ≠ p → (s.ctlFlit p k payload).trailPort j = s.trailPort j) ∧ (s.ctlFlit p k payload).regs = s.regs := by
  have hpad : (payload ++ List.replicate (30 - payload.length) (0 : Word)).length = 30 := by
    rw [List.length_append, List.length_replicate]
    omega
  refine ⟨⟨_, _, rfl, ?_, ?_, ?_, ?_⟩, s.trailPort_setTrl_same p _, fun j hj => s.trailPort_setTrl_other p _ hj, rfl⟩
  · have hctl := (s.trailPort p)
    simp only [TrailPort.ctl, bits_or]
    rw [bits_fld_same _ _ _ (by decide) (by decide), bits_fld_other 59 58 _ 63 60 (by decide) (by decide) (by decide) (by decide),
      bits_fld_other 57 46 _ 63 60 (by decide) (by decide) (by decide) (by decide),
      bits_fld_other 45 34 _ 63 60 (by decide) (by decide) (by decide) (by decide),
      bits_fld_other 33 32 _ 63 60 (by decide) (by decide) (by decide) (by decide),
      bits_fld_other 31 20 _ 63 60 (by decide) (by decide) (by decide) (by decide)]
    simp only [Nat.or_zero]
    exact Nat.mod_eq_of_lt hk
  · rw [List.length_append, hpad]
    rfl
  · rw [List.take_append_of_le_length hpad.ge, List.take_of_length_le hpad.le]
  · rw [List.take_append_of_le_length hpad.ge, List.take_of_length_le hpad.le, List.getD_append_right _ _ _ _ hpad.le, hpad]
    exact (bits_fld_same 31 0 _ (by decide) (by decide)).trans (Nat.mod_eq_of_lt (BitVec.isLt _))

/-! #### Bring-up (R571, R572) -/

theorem State.bringUp_starts (s : State) (p : Nat) :
    ((s.bringUp p).trailPort p).fec = (s.trailPort p).fec ∧ (∀ j, j ≠ p → (s.bringUp p).trailPort j = s.trailPort j) ∧
    (s.bringUp p).trlState p = (if s.trlState p = 0 ∧ s.trlEnabled p = true ∧ s.miswired p = false ∧ 2 ≤ s.comp.map.modules then 1
      else s.trlState p) := by
  by_cases h : s.trlState p = 0 ∧ s.trlEnabled p = true ∧ s.miswired p = false ∧ 2 ≤ s.comp.map.modules
  · have hup : s.bringUp p =
        (s.setField (Reg.trlPort p) 63 62 1).setTrl p { s.trailPort p with sentDone := false, gotDone := false } :=
      if_pos (by simp [h])
    rw [hup, if_pos h]
    refine ⟨by rw [State.trailPort_setTrl_same], fun j hj => State.trailPort_setTrl_other _ _ _ hj, ?_⟩
    exact s.field_setField_same _ _ _ _ (by decide) (by decide)
  · have hup : s.bringUp p = s := if_neg fun h' => h (by simpa [and_assoc] using h')
    rw [hup, if_neg h]
    exact ⟨rfl, fun _ _ => rfl, rfl⟩

/-- The port comes up once both sides have sent INIT_DONE. -/
theorem State.portUpIf_ups (s : State) (p : Nat) (hsent : (s.trailPort p).sentDone = true) :
    ((s.portUpIf p).trailPort p).sentDone = true ∧ ((s.portUpIf p).trailPort p).grants = (s.trailPort p).grants ∧
    (s.portUpIf p).reg (Reg.trlPort p) =
      if (s.trailPort p).gotDone then setBits (s.reg (Reg.trlPort p)) 63 62 2 else s.reg (Reg.trlPort p) := by
  cases hgot : (s.trailPort p).gotDone with
  | true =>
    have hup : s.portUpIf p = (s.setField (Reg.trlPort p) 63 62 2).setTrl p
        { fec := (s.trailPort p).fec, sentDone := true, gotDone := true, grants := (s.trailPort p).grants
          waiting := (s.trailPort p).waiting } := if_pos (by rw [hsent, hgot]; rfl)
    rw [hup, State.trailPort_setTrl_same, if_pos rfl]
    exact ⟨rfl, rfl, s.reg_setReg_same _ _⟩
  | false =>
    have hup : s.portUpIf p = s := if_neg (by rw [hgot, Bool.and_false]; exact Bool.false_ne_true)
    rw [hup, if_neg Bool.false_ne_true]
    exact ⟨hsent, rfl, rfl⟩

theorem fecLock_locks {s : State} (hl : s.live = true) (port : Fin 8) :
    Does (.fecLock port) s fun t => (t.trailPort port.val).fec = true ∧ (∀ j, j ≠ port.val → t.trailPort j = s.trailPort j) ∧
      t.trlState port.val = (if s.trlState port.val = 0 ∧ s.trlEnabled port.val = true ∧ s.miswired port.val = false ∧
        2 ≤ s.comp.map.modules then 1 else s.trlState port.val) := by
  let u := s.setTrl port.val { s.trailPort port.val with fec := true }
  obtain ⟨hfec, hothers, hstate⟩ := u.bringUp_starts port.val
  exact does_of_gate (t := u.bringUp port.val) rfl hl rfl ⟨hfec.trans (congrArg TrailPort.fec (s.trailPort_setTrl_same _ _)),
    fun j hj => (hothers j hj).trans (s.trailPort_setTrl_other _ _ hj), hstate⟩

theorem retrain_starts {s : State} (hl : s.live = true) (port : Fin 8) (hdown : s.trlState port.val = 0)
    (hon : s.trlEnabled port.val = true) (hwired : s.miswired port.val = false) (hmany : 2 ≤ s.comp.map.modules)
    (hdue : (s.trailPort port.val).downNs + msec (s.field Reg.trlControl 39 24) ≤ s.now) :
    Does (.retrain port) s fun t => t.trlState port.val = 1 ∧ ∀ j, j ≠ port.val → t.trailPort j = s.trailPort j := by
  obtain ⟨-, hothers, hstate⟩ := s.bringUp_starts port.val
  exact does_of_gate rfl hl (by exact if_pos hdue) ⟨hstate.trans (if_pos ⟨hdown, hon, hwired, hmany⟩), hothers⟩

section bringUp

variable {s : State} (hl : s.live = true) (port : Fin 8) (hinit : s.trlState port.val = 1) (hfec : (s.trailPort port.val).fec = true)
include hl hinit hfec

theorem initSend_sends : Does (.initSend port) s fun t =>
    SentFlit s t port.val 3 (s.initPayload port.val) ∧ ∀ j, j ≠ port.val → t.trailPort j = s.trailPort j := by
  obtain ⟨hsent, -, hothers, -⟩ := s.ctlFlit_sends port.val (s.initPayload port.val) (k := 3) (by decide) (by simp [State.initPayload])
  exact does_of_gate rfl hl (by exact if_pos (by simp [hinit, hfec])) ⟨hsent, hothers⟩

theorem initDoneRx_ups (hsent : (s.trailPort port.val).sentDone = true) :
    Does (.initDoneRx port) s fun t => t.trlState port.val = 2 := by
  let x : TrailPort := { s.trailPort port.val with gotDone := true }
  let u := s.setTrl port.val x
  have hport : u.trailPort port.val = x := s.trailPort_setTrl_same _ _
  obtain ⟨-, -, hreg⟩ := u.portUpIf_ups port.val (by rw [hport]; exact hsent)
  refine does_of_gate (t := u.portUpIf port.val) rfl hl (by exact if_pos (by simp [hinit, hfec])) ?_
  rw [State.trlState, State.field, hreg, hport, if_pos rfl]
  exact bits_setBits_same _ _ _ _ (by decide) (by decide)

theorem initDoneRx_waits (hsent : (s.trailPort port.val).sentDone = false) :
    Does (.initDoneRx port) s fun t => t.trlState port.val = 1 ∧ (t.trailPort port.val).gotDone = true := by
  let x : TrailPort := { s.trailPort port.val with gotDone := true }
  let u := s.setTrl port.val x
  have hport : u.trailPort port.val = x := s.trailPort_setTrl_same _ _
  have hwait : u.portUpIf port.val = u := by
    refine if_neg ?_
    rw [hport, show x.sentDone = false from hsent]
    exact Bool.false_ne_true
  exact does_of_gate (t := u) rfl hl (by exact (if_pos (by simp [hinit, hfec])).trans hwait) ⟨hinit, congrArg TrailPort.gotDone hport⟩

end bringUp

/-! #### A port goes down (R571, R693) -/

theorem foldl_sendFrame_keeps {k : Nat} (hk : OffSends k) (fs : List FrameHead) (s : State) :
    (fs.foldl (fun s f => s.sendFrame f) s).reg k = s.reg k :=
  List.foldlRecOn fs _ (motive := fun u : State => u.reg k = s.reg k) rfl fun u hu f _ => (u.reg_sendFrame_offSends hk f).trans hu

/-- The registers a port's fall changes by name: its own, the counts of falls and LINK faults; and the log, the counts of frames. -/
theorem State.reg_portDown {s : State} {p : Nat} (hup : s.trlState p ≠ 0) (code : Nat) {k : Nat} (hsends : OffSends k)
    (hmoved : k ≠ Reg.trlCnt 7) (hlog : k ≠ Reg.fltLog) (hev : ∀ i < 1024, k ≠ Reg.fltEvent i) :
    (s.portDown p code).reg k = (((s.setField (Reg.trlPort p) 63 62 0).bump (Reg.trlCnt 3)).bump (Reg.fltCnt 5)).reg k := by
  rw [State.portDown, if_neg hup]
  dsimp only
  rw [State.reg_bumpBy_other _ _ _ _ hmoved, foldl_sendFrame_keeps hsends, State.reg_event_other _ _ _ _ _ _ _ _ hlog hev]
  rfl

theorem State.portDown_falls {s : State} {p : Nat} (hp : p < 8) (hup : s.trlState p ≠ 0) (code : Nat) :
    (s.portDown p code).reg (Reg.trlPort p) = setBits (s.reg (Reg.trlPort p)) 63 62 0 ∧
    (s.portDown p code).reg (Reg.trlCnt 3) = s.reg (Reg.trlCnt 3) + 1 ∧
    (s.portDown p code).reg (Reg.trlCnt 4) = s.reg (Reg.trlCnt 4) ∧
    (s.portDown p code).reg (Reg.fltCnt 5) = s.reg (Reg.fltCnt 5) + 1 := by
  have hne : ∀ i, Reg.trlCnt i ≠ Reg.trlPort p := fun i => by simp only [Reg.trlCnt, Reg.trlPort]; omega
  have hflt : Reg.fltCnt 5 ≠ Reg.trlPort p := by simp only [Reg.fltCnt, Reg.trlPort]; omega
  refine ⟨?_, ?_, ?_, ?_⟩
  · rw [State.reg_portDown hup code ⟨(hne 0).symm, (hne 6).symm⟩ (hne 7).symm (by simp only [Reg.trlPort, Reg.fltLog]; omega)
      (fun i hi => by simp only [Reg.trlPort, Reg.fltEvent]; omega), State.reg_bump_other _ _ _ hflt.symm,
      State.reg_bump_other _ _ _ (hne 3).symm]
    exact s.reg_setReg_same _ _
  · rw [State.reg_portDown hup code ⟨by decide, by decide⟩ (by decide) (by decide)
      (fun i hi => by simp only [Reg.trlCnt, Reg.fltEvent]; omega), State.reg_bump_other _ _ _ (by decide), State.reg_bump_same]
    exact congrArg (· + 1) (s.reg_setReg_other _ _ _ (hne 3))
  · rw [State.reg_portDown hup code ⟨by decide, by decide⟩ (by decide) (by decide)
      (fun i hi => by simp only [Reg.trlCnt, Reg.fltEvent]; omega), State.reg_bump_other _ _ _ (by decide),
      State.reg_bump_other _ _ _ (by decide)]
    exact s.reg_setReg_other _ _ _ (hne 4)
  · rw [State.reg_portDown hup code ⟨by decide, by decide⟩ (by decide) (by decide)
      (fun i hi => by simp only [Reg.fltCnt, Reg.fltEvent]; omega), State.reg_bump_same, State.reg_bump_other _ _ _ (by decide)]
    exact congrArg (· + 1) (s.reg_setReg_other _ _ _ hflt)

theorem State.trlState_portDown {s : State} {p : Nat} (hp : p < 8) (hup : s.trlState p ≠ 0) (code : Nat) :
    (s.portDown p code).trlState p = 0 := by
  rw [State.trlState, State.field, (State.portDown_falls hp hup code).1]
  exact (bits_setBits_same _ _ _ _ (by decide) (by decide)).trans (Nat.zero_mod _)

theorem fecLockLoss_falls {s : State} (hl : s.live = true) (port : Fin 8) (hup : s.trlState port.val ≠ 0) :
    Does (.fecLockLoss port) s fun t => t.trlState port.val = 0 ∧ t.reg (Reg.trlCnt 3) = s.reg (Reg.trlCnt 3) + 1 ∧
      t.reg (Reg.fltCnt 5) = s.reg (Reg.fltCnt 5) + 1 := by
  let u := s.setTrl port.val { s.trailPort port.val with fec := false }
  have hupu : u.trlState port.val ≠ 0 := hup
  obtain ⟨-, hfalls, -, hfaults⟩ := State.portDown_falls port.isLt hupu Code.trailDown
  exact does_of_gate (t := u.portDown port.val Code.trailDown) rfl hl rfl
    ⟨State.trlState_portDown port.isLt hupu _, hfalls, hfaults⟩

theorem fecLockLoss_of_down {s : State} (hl : s.live = true) (port : Fin 8) (hdown : s.trlState port.val = 0) :
    Does (.fecLockLoss port) s fun t => t = s.setTrl port.val { s.trailPort port.val with fec := false } :=
  does_of_gate rfl hl (by exact if_pos hdown) rfl

/-! #### INIT flits (R572) -/

/-- The port's register with the neighbour an INIT flit names. -/
def State.noteNeighbour (s : State) (p : Nat) (i : InitFlit) : State :=
  (s.setField (Reg.trlPort p) 60 51 i.module).setField (Reg.trlPort p) 50 48 i.port

theorem State.noteNeighbour_notes (s : State) (p : Nat) (i : InitFlit) :
    (s.noteNeighbour p i).trlState p = s.trlState p ∧ (s.noteNeighbour p i).field (Reg.trlPort p) 60 51 = i.module ∧
    (s.noteNeighbour p i).field (Reg.trlPort p) 50 48 = i.port := by
  have hreg : (s.noteNeighbour p i).reg (Reg.trlPort p) = setBits (setBits (s.reg (Reg.trlPort p)) 60 51 i.module) 50 48 i.port := by
    rw [State.noteNeighbour, State.setField, State.reg_setReg_same, State.setField, State.reg_setReg_same]
  have hmodule : i.module < 1024 := Nat.mod_lt _ (by decide)
  have hport : i.port < 8 := Nat.mod_lt _ (by decide)
  simp only [State.trlState, State.field, hreg]
  refine ⟨?_, ?_, ?_⟩
  · rw [bits_setBits_other _ _ _ _ _ _ (by decide) (by decide) (by decide) (by decide),
      bits_setBits_other _ _ _ _ _ _ (by decide) (by decide) (by decide) (by decide)]
  · rw [bits_setBits_other _ _ _ _ _ _ (by decide) (by decide) (by decide) (by decide),
      bits_setBits_same _ _ _ _ (by decide) (by decide)]
    exact Nat.mod_eq_of_lt hmodule
  · rw [bits_setBits_same _ _ _ _ (by decide) (by decide)]
    exact Nat.mod_eq_of_lt hport

/-- The checks of an INIT flit pass: this side sends INIT_DONE (R572). -/
def State.acceptInit (s : State) (p : Nat) (grants : List Nat) : State :=
  ((s.setTrl p { s.trailPort p with sentDone := true, grants := grants }).ctlFlit p 4 []).portUpIf p

theorem State.acceptInit_ups (s : State) (p : Nat) (grants : List Nat) :
    ((s.acceptInit p grants).trailPort p).sentDone = true ∧ ((s.acceptInit p grants).trailPort p).grants = grants ∧
    (s.acceptInit p grants).reg (Reg.trlPort p) =
      if (s.trailPort p).gotDone then setBits (s.reg (Reg.trlPort p)) 63 62 2 else s.reg (Reg.trlPort p) := by
  rw [State.acceptInit]
  have hport := s.trailPort_setTrl_same p { s.trailPort p with sentDone := true, grants := grants }
  have hregs : (s.setTrl p { s.trailPort p with sentDone := true, grants := grants }).regs = s.regs := rfl
  generalize s.setTrl p { s.trailPort p with sentDone := true, grants := grants } = u at *
  obtain ⟨-, hsentPort, -, hsentRegs⟩ := u.ctlFlit_sends p (k := 4) [] (by decide) (by decide)
  generalize u.ctlFlit p 4 [] = v at *
  rw [hport] at hsentPort
  obtain ⟨hsent, hkept, hreg⟩ := v.portUpIf_ups p (by rw [hsentPort])
  refine ⟨hsent, by rw [hkept, hsentPort], ?_⟩
  rw [hreg, hsentPort, State.reg_of_regs (hsentRegs.trans hregs)]

section initRx

variable {s : State} (hl : s.live = true) (port : Fin 8) (hinit : s.trlState port.val = 1) (hfec : (s.trailPort port.val).fec = true)
  (i : InitFlit) (hkind : i.kind = 0x7A11) (hversion : i.version = 1)
include hl hinit hfec hkind hversion

theorem initRx_accepts (hmodule : i.module = s.neighbour (isNext port.val)) (hport : i.port = partner port.val)
    (hmodules : i.modules = s.comp.map.modules) (hepoch : i.epoch = s.comp.map.epoch) :
    Does (.initRx port i) s fun t => (t.trailPort port.val).sentDone = true ∧ (t.trailPort port.val).grants = i.grants ∧
      t.trlState port.val = (if (s.trailPort port.val).gotDone then 2 else 1) ∧
      t.field (Reg.trlPort port.val) 60 51 = i.module ∧ t.field (Reg.trlPort port.val) 50 48 = i.port := by
  have hexec : exec (.initRx port i) s = .next ((s.noteNeighbour port.val i).acceptInit port.val i.grants) := by
    have hrun : exec (.initRx port i) s = execInitRx port i s := rfl
    rw [hrun, execInitRx, gate_live hl]
    dsimp only
    rw [if_neg (by simp [hinit, hfec, hkind, hversion]), if_neg (by simp [State.neighbour, hmodule, hport, hmodules]),
      if_neg (by simp [hepoch])]
    rfl
  have hgot : ((s.noteNeighbour port.val i).trailPort port.val).gotDone = (s.trailPort port.val).gotDone := rfl
  obtain ⟨hstate, hfmodule, hfport⟩ := s.noteNeighbour_notes port.val i
  refine ⟨_, hexec, ?_⟩
  generalize s.noteNeighbour port.val i = u at *
  obtain ⟨hsent, hgrants, hreg⟩ := u.acceptInit_ups port.val i.grants
  have hfield : ∀ hi lo, lo ≤ hi → hi < 62 →
      (u.acceptInit port.val i.grants).field (Reg.trlPort port.val) hi lo = u.field (Reg.trlPort port.val) hi lo := by
    intro hi lo hlo hhi
    rw [State.field, hreg, State.field]
    split
    · exact bits_setBits_other _ _ _ _ _ _ (by decide) (by decide) hlo (by omega)
    · rfl
  refine ⟨hsent, hgrants, ?_, (hfield 60 51 (by decide) (by decide)).trans hfmodule,
    (hfield 50 48 (by decide) (by decide)).trans hfport⟩
  rw [State.trlState, State.field, hreg, hgot]
  cases (s.trailPort port.val).gotDone with
  | true => exact bits_setBits_same _ _ _ _ (by decide) (by decide)
  | false => exact hstate.trans hinit

theorem initRx_locks (hwrong : i.module ≠ s.neighbour (isNext port.val) ∨ i.port ≠ partner port.val ∨
      i.modules ≠ s.comp.map.modules) :
    Does (.initRx port i) s fun t => t.trlState port.val = 0 ∧ t.miswired port.val = true ∧
      t.reg (Reg.trlCnt 4) = s.reg (Reg.trlCnt 4) + 1 := by
  let u := s.noteNeighbour port.val i
  let v := (u.setField (Reg.trlPort port.val) 61 61 1).bump (Reg.trlCnt 4)
  have hp := port.isLt
  have hne : ∀ i, Reg.trlCnt i ≠ Reg.trlPort port.val := fun i => by simp only [Reg.trlCnt, Reg.trlPort]; omega
  have hreg : v.reg (Reg.trlPort port.val) = setBits (u.reg (Reg.trlPort port.val)) 61 61 1 :=
    (State.reg_bump_other _ _ _ (hne 4).symm).trans (State.reg_setReg_same _ _ _)
  have hcnt : v.reg (Reg.trlCnt 4) = s.reg (Reg.trlCnt 4) + 1 :=
    (State.reg_bump_same _ _).trans (congrArg (· + 1) ((u.reg_setReg_other _ _ _ (hne 4)).trans
      ((State.reg_setReg_other _ _ _ _ (hne 4)).trans (State.reg_setReg_other _ _ _ _ (hne 4)))))
  have hup : v.trlState port.val ≠ 0 := by
    rw [State.trlState, State.field, hreg, bits_setBits_other _ _ _ _ _ _ (by decide) (by decide) (by decide) (by decide)]
    have hstate := (s.noteNeighbour_notes port.val i).1
    rw [State.trlState, State.field, hinit] at hstate
    rw [hstate]
    decide
  obtain ⟨hport, -, hkeeps, -⟩ := State.portDown_falls hp hup Code.trailMiswire
  refine does_of_gate (t := v.portDown port.val Code.trailMiswire) rfl hl (by
    exact (if_neg (by simp [hinit, hfec, hkind, hversion])).trans (if_pos (by
      simp only [Bool.or_eq_true, decide_eq_true_eq]; exact (or_assoc).mpr hwrong)))
    ⟨State.trlState_portDown hp hup _, ?_, hkeeps.trans hcnt⟩
  rw [State.miswired, hport, hreg, bit_setBits_above _ (by decide) (by decide) (by decide), bit_setBits_one _ (by decide)]
  simp

end initRx

end Sys2Proof.Machine
end

section
/-! ### Trail links: acknowledgement, replay and frames (R565, R568 to R570, R575, R576) -/

namespace Sys2Proof.Machine

open Sys2Proof

/-! #### Replay (R570, R571) -/

/-- A flit sent again leaves the ports as they are but for the rotation of the credit totals. -/
theorem resend_keeps (us : List DataFlit) (p : Nat) (s : State) :
    (∃ r, (us.foldl (fun s u => s.sendFlit p 1 u []) s).trailPort p = { s.trailPort p with rot := r }) ∧
    (∀ j, j ≠ p → (us.foldl (fun s u => s.sendFlit p 1 u []) s).trailPort j = s.trailPort j) ∧
    (us.foldl (fun s u => s.sendFlit p 1 u []) s).regs = s.regs := by
  refine List.foldlRecOn us _ (motive := fun v : State => (∃ r, v.trailPort p = { s.trailPort p with rot := r }) ∧
    (∀ j, j ≠ p → v.trailPort j = s.trailPort j) ∧ v.regs = s.regs) ⟨⟨_, rfl⟩, fun _ _ => rfl, rfl⟩ fun v hv u _ => ?_
  obtain ⟨⟨r, hport⟩, hothers, hregs⟩ := hv
  exact ⟨⟨_, (v.trailPort_setTrl_same p _).trans (by rw [hport])⟩,
    fun j hj => (v.trailPort_setTrl_other p _ hj).trans (hothers j hj), hregs⟩

/-- A replay within RETRY_LIMIT: the unacknowledged flits are sent again and counted. -/
theorem State.replay_resends {s : State} {p : Nat} (hp : p < 8) (hsome : (s.trailPort p).unacked ≠ [])
    (htry : (s.trailPort p).retries < s.field Reg.trlControl 47 40) :
    ((s.replay p).trailPort p).retries = (s.trailPort p).retries + 1 ∧ ((s.replay p).trailPort p).ackNs = s.now ∧
    ((s.replay p).trailPort p).unacked = (s.trailPort p).unacked ∧ ((s.replay p).trailPort p).waiting = (s.trailPort p).waiting ∧
    (∀ j, j ≠ p → (s.replay p).trailPort j = s.trailPort j) ∧ (s.replay p).trlState p = s.trlState p ∧
    (s.replay p).reg (Reg.trlCnt 1) = s.reg (Reg.trlCnt 1) + BitVec.ofNat 64 (s.trailPort p).unacked.length := by
  rw [State.replay, if_neg (by simpa using hsome), if_neg (Nat.not_le.2 htry)]
  have hport := s.trailPort_setTrl_same p { s.trailPort p with retries := (s.trailPort p).retries + 1, ackNs := s.now }
  have hother : ∀ j, j ≠ p → _ := fun j hj =>
    s.trailPort_setTrl_other p { s.trailPort p with retries := (s.trailPort p).retries + 1, ackNs := s.now } (j := j) hj
  have hregs : (s.setTrl p { s.trailPort p with retries := (s.trailPort p).retries + 1, ackNs := s.now }).regs = s.regs := rfl
  generalize s.setTrl p { s.trailPort p with retries := (s.trailPort p).retries + 1, ackNs := s.now } = u at *
  dsimp only
  obtain ⟨⟨r, hsent⟩, hothers, hkept⟩ := resend_keeps (s.trailPort p).unacked p u
  generalize List.foldl (fun s u => State.sendFlit s p 1 u []) u (s.trailPort p).unacked = v at *
  have hbump : (v.bumpBy (Reg.trlCnt 1) (s.trailPort p).unacked.length).trailPort p = v.trailPort p := rfl
  rw [hbump, hsent, hport]
  refine ⟨rfl, rfl, rfl, rfl, fun j hj => (hothers j hj).trans (hother j hj), State.trlState_of_reg ?_, ?_⟩
  · rw [State.reg_bumpBy_other _ _ _ _ (by simp only [Reg.trlPort, Reg.trlCnt]; omega), State.reg_of_regs (hkept.trans hregs)]
  · rw [State.reg_bumpBy_same, State.reg_of_regs (hkept.trans hregs)]

theorem State.replay_gives_up {s : State} {p : Nat} (hsome : (s.trailPort p).unacked ≠ [])
    (hlimit : s.field Reg.trlControl 47 40 ≤ (s.trailPort p).retries) : s.replay p = s.portDown p Code.trailDown := by
  rw [State.replay, if_neg (by simpa using hsome), if_pos hlimit]

section replay

variable {s : State} (hl : s.live = true) (port : Fin 8) (hup : s.trlState port.val = 2)
  (hsome : (s.trailPort port.val).unacked ≠ [])
  (hdue : (s.trailPort port.val).ackNs + usec (s.field Reg.trlControl 63 48) ≤ s.now)
include hl hup hsome hdue

theorem replayTimeout_runs : exec (.replayTimeout port) s = .next (s.replay port.val) :=
  exec_of_gate rfl hl |>.trans (congrArg Host.Outcome.next (if_pos (by simp [State.trlUp, hup, hsome, hdue])))

theorem replayTimeout_resends (htry : (s.trailPort port.val).retries < s.field Reg.trlControl 47 40) :
    Does (.replayTimeout port) s fun t => (t.trailPort port.val).retries = (s.trailPort port.val).retries + 1 ∧
      (t.trailPort port.val).ackNs = s.now ∧ (t.trailPort port.val).unacked = (s.trailPort port.val).unacked ∧
      (t.trailPort port.val).waiting = (s.trailPort port.val).waiting ∧
      (∀ j, j ≠ port.val → t.trailPort j = s.trailPort j) ∧ t.trlState port.val = 2 ∧
      t.reg (Reg.trlCnt 1) = s.reg (Reg.trlCnt 1) + BitVec.ofNat 64 (s.trailPort port.val).unacked.length := by
  obtain ⟨hretries, hack, hunacked, hwaiting, hothers, hstate, hcnt⟩ := State.replay_resends port.isLt hsome htry
  exact ⟨_, replayTimeout_runs hl port hup hsome hdue, hretries, hack, hunacked, hwaiting, hothers, hstate.trans hup, hcnt⟩

theorem replayTimeout_falls (hlimit : s.field Reg.trlControl 47 40 ≤ (s.trailPort port.val).retries) :
    Does (.replayTimeout port) s fun t => t.trlState port.val = 0 := by
  refine ⟨_, replayTimeout_runs hl port hup hsome hdue, ?_⟩
  rw [State.replay_gives_up hsome hlimit]
  exact State.trlState_portDown port.isLt (by rw [hup]; decide) _

end replay

/-! #### Received flits (R568 to R570) -/

/-- A request for replay: once until a flit is accepted. -/
theorem State.nak_asks (s : State) (p : Nat) :
    ((s.nak p).trailPort p).naked = true ∧ ((s.nak p).trailPort p).expect = (s.trailPort p).expect ∧ (s.nak p).regs = s.regs ∧
    ((s.trailPort p).naked = true → (s.nak p).out = s.out) ∧ ((s.trailPort p).naked = false → SentFlit s (s.nak p) p 2 []) := by
  cases hnaked : (s.trailPort p).naked with
  | true =>
    have hnak : s.nak p = s := if_pos hnaked
    rw [hnak]
    exact ⟨hnaked, rfl, rfl, fun _ => rfl, fun h => absurd h Bool.true_eq_false_eq_False⟩
  | false =>
    have hnak : s.nak p = (s.setTrl p { s.trailPort p with naked := true }).ctlFlit p 2 [] :=
      if_neg (by rw [hnaked]; exact Bool.false_ne_true)
    obtain ⟨hsent, hport, -, hregs⟩ := (s.setTrl p { s.trailPort p with naked := true }).ctlFlit_sends p (k := 2) [] (by decide)
      (by decide)
    rw [State.trailPort_setTrl_same] at hport
    rw [hnak, hport]
    exact ⟨rfl, rfl, hregs, fun h => absurd h Bool.false_ne_true, fun _ => hsent⟩

theorem flitRx_bad {s : State} (hl : s.live = true) (port : Fin 8) (hup : s.trlState port.val = 2) (f : Flit)
    (hbad : f.good = false ∨ 5 ≤ f.ftype) :
    Does (.flitRx port f) s fun t => t.reg (Reg.trlCnt 2) = s.reg (Reg.trlCnt 2) + 1 ∧ (t.trailPort port.val).naked = true ∧
      (t.trailPort port.val).expect = (s.trailPort port.val).expect ∧
      ((s.trailPort port.val).naked = true → t.out = s.out) ∧ ((s.trailPort port.val).naked = false → SentFlit s t port.val 2 []) := by
  obtain ⟨hnaked, hexpect, hregs, hout, hsent⟩ := (s.bump (Reg.trlCnt 2)).nak_asks port.val
  refine does_of_gate rfl hl (by exact (if_neg (by simp [State.trlUp, hup])).trans (if_pos (by simpa using hbad)))
    ⟨(State.reg_of_regs hregs _).trans (State.reg_bump_same _ _), hnaked, hexpect, hout, hsent⟩

theorem TrailPort.takeControl_keeps (x : TrailPort) (f : Flit) (now : Nat) :
    (x.takeControl f now).expect = x.expect ∧ (x.takeControl f now).waiting = x.waiting ∧ (x.takeControl f now).cur = x.cur := by
  simp only [TrailPort.takeControl]
  split <;> exact ⟨rfl, rfl, rfl⟩

theorem TrailPort.takeControl_acked {x : TrailPort} {f : Flit} {i : Nat} (h : x.unacked.findIdx? (fun u => u.seq = f.ack) = some i)
    (now : Nat) : (x.takeControl f now).unacked = x.unacked.drop (i + 1) ∧ (x.takeControl f now).retries = 0 := by
  simp only [TrailPort.takeControl, h, and_self]

/-- A flit in order on a port with nothing to send is accepted. -/
theorem flitRx_accepts {s : State} (hl : s.live = true) (port : Fin 8) (hup : s.trlState port.val = 2) (f : Flit)
    (hgood : f.good = true) (htype : f.ftype = 1) (hseq : f.fseq = (s.trailPort port.val).expect)
    (hwaiting : (s.trailPort port.val).waiting = []) (hcur : (s.trailPort port.val).cur = []) :
    Does (.flitRx port f) s fun t => (t.trailPort port.val).expect = (s.trailPort port.val).expect + 1 ∧
      (t.trailPort port.val).naked = false ∧ (∀ j, j ≠ port.val → t.trailPort j = s.trailPort j) ∧
      (∀ i, (s.trailPort port.val).unacked.findIdx? (fun u => u.seq = f.ack) = some i →
        (t.trailPort port.val).unacked = (s.trailPort port.val).unacked.drop (i + 1) ∧ (t.trailPort port.val).retries = 0) := by
  obtain ⟨hkexpect, hkwaiting, hkcur⟩ := (s.trailPort port.val).takeControl_keeps f s.now
  let x := (s.trailPort port.val).takeControl f s.now
  let u := s.setTrl port.val x
  let v := u.setTrl port.val { x with expect := x.expect + 1, naked := false }
  have hux : u.trailPort port.val = x := State.trailPort_setTrl_same _ _ _
  have hvx : v.trailPort port.val = { x with expect := x.expect + 1, naked := false } := State.trailPort_setTrl_same _ _ _
  have hexec : exec (.flitRx port f) s = .next v := by
    have hrun : exec (.flitRx port f) s = execFlitRx port f s := rfl
    have hvup : v.trlUp port.val = true := by exact decide_eq_true hup
    have hpump : v.pump port.val = v := State.pump_of_idle (by rw [hvx]; exact hkwaiting.trans hwaiting) (by rw [hvx]; exact hkcur.trans hcur)
    rw [hrun, execFlitRx, gate_live hl]
    dsimp only
    rw [if_neg (by simp [State.trlUp, hup]), if_neg (by simp [hgood, htype]), if_pos htype]
    change Host.Outcome.next (if (if f.fseq = (u.trailPort port.val).expect then u.setTrl port.val { u.trailPort port.val with
      expect := (u.trailPort port.val).expect + 1, naked := false } else _ : State).trlUp port.val = true then _ else _) = _
    rw [hux, if_pos (hseq.trans hkexpect.symm)]
    change Host.Outcome.next (if v.trlUp port.val = true then v.pump port.val else v) = _
    rw [if_pos hvup, hpump]
  refine ⟨_, hexec, ?_, ?_, fun j hj => (State.trailPort_setTrl_other _ _ _ hj).trans (State.trailPort_setTrl_other _ _ _ hj), ?_⟩
  · rw [hvx]
    exact congrArg (· + 1) hkexpect
  · rw [hvx]
  · intro i hi
    rw [hvx]
    exact TrailPort.takeControl_acked hi s.now

/-! #### Frames (R565, R575, R576) -/

section frames

variable {s : State} (hl : s.live = true) (port : Fin 8) (hawake : s.plat.parkedSince = none) (f : Frame)

theorem State.forward_counts (s : State) (p : Nat) {h : FrameHead} (hknown : s.ringDist h.dest ≠ none) :
    (s.forward p h).reg (Reg.trlCnt 5) = s.reg (Reg.trlCnt 5) + 1 ∧ (s.forward p h).hq = s.hq ∧ (s.forward p h).mem = s.mem := by
  have hforward : s.forward p h = ((s.frameGone p h).bump (Reg.trlCnt 5)).sendFrame h := by
    have hsome : ((s.frameGone p h).ringDist h.dest).isSome = true := Option.isSome_iff_ne_none.mpr hknown
    rw [State.forward, hsome, State.iff_true]
  rw [hforward, State.reg_sendFrame_offSends ⟨by decide, by decide⟩, State.reg_bump_same]
  exact ⟨rfl, by simp only [State.sendFrame_frame]; rfl, by simp only [State.sendFrame_frame]; rfl⟩

include hl hawake

theorem itemFrame_forwards (hdest : f.head.dest ≠ s.self) (hknown : s.ringDist f.head.dest ≠ none) :
    Does (.itemFrame port f) s fun t => t.reg (Reg.trlCnt 5) = s.reg (Reg.trlCnt 5) + 1 ∧ t.hq = s.hq ∧ t.mem = s.mem := by
  have hexec : exec (.itemFrame port f) s = .next (s.forward port.val f.head) := by
    have hrun : exec (.itemFrame port f) s = execItemFrame port f s := rfl
    rw [hrun, execItemFrame, gate_live hl]
    dsimp only
    rw [State.wake_of_awake hawake, if_pos hdest]
  exact ⟨_, hexec, s.forward_counts port.val hknown⟩

theorem larderDataFrame_forwards (hdest : f.head.dest ≠ s.self) (hknown : s.ringDist f.head.dest ≠ none) :
    Does (.larderDataFrame port f) s fun t => t.reg (Reg.trlCnt 5) = s.reg (Reg.trlCnt 5) + 1 ∧ t.hq = s.hq ∧ t.mem = s.mem := by
  have hexec : exec (.larderDataFrame port f) s = .next (s.forward port.val f.head) := by
    have hrun : exec (.larderDataFrame port f) s = execLarderDataFrame port f s := rfl
    rw [hrun, execLarderDataFrame, gate_live hl]
    dsimp only
    rw [State.wake_of_awake hawake, if_pos hdest]
  exact ⟨_, hexec, s.forward_counts port.val hknown⟩

theorem itemFrame_drops (hdest : f.head.dest = s.self) (hbad : f.head.mtype ≠ 0 ∨ f.head.bodyLen ≠ 48) :
    Does (.itemFrame port f) s fun t => t.reg (Reg.trlCnt 6) = s.reg (Reg.trlCnt 6) + 1 ∧ t.hq = s.hq ∧ t.mem = s.mem := by
  have hexec : exec (.itemFrame port f) s = .next ((s.frameGone port.val f.head).frameDropped) := by
    have hrun : exec (.itemFrame port f) s = execItemFrame port f s := rfl
    rw [hrun, execItemFrame, gate_live hl]
    dsimp only
    rw [State.wake_of_awake hawake, if_neg (not_not.mpr hdest), if_pos (by simpa using hbad)]
  exact ⟨_, hexec, State.reg_bump_same _ _, rfl, rfl⟩

theorem itemFrame_arrives (hdest : f.head.dest = s.self) (hitem : f.head.mtype = 0) (hlen : f.head.bodyLen = 48)
    (htag : tagBad (itemOf f).w1 = false) (hepoch : tagEpoch (itemOf f).w1 = s.comp.map.epoch)
    (hroom : (s.queue f.head.queue).items.length < s.qDepth f.head.queue)
    (hnew : s.duplicate (seqKey (frameSender f.head) (s.qReader f.head.queue) (tagClass (itemOf f).w1)) (itemOf f).w1 = false) :
    Does (.itemFrame port f) s fun t =>
      (t.queue f.head.queue).items = (s.queue f.head.queue).items ++ [⟨f.head.prio, itemOf f, false⟩] := by
  let u := s.noteSeq (seqKey (frameSender f.head) (s.qReader f.head.queue) (tagClass (itemOf f).w1)) (itemOf f).w1
  let w : WaitPush := { prio := f.head.prio, item := itemOf f, port := some port.val }
  have hok : s.refusalOf f.head.queue (itemOf f) = 0 :=
    State.refusalOf_eq_zero htag (if_pos hepoch) (Nat.ne_of_gt (Nat.zero_lt_of_lt hroom))
  have hwake : s.iff (s.qReader f.head.queue ≠ 0) State.wake = s := by
    rw [State.iff, State.wake_of_awake hawake, ite_self]
  have harrive : s.arriveItem f.head.queue f.head.prio (frameSender f.head) (itemOf f) false (some port.val) =
      (0, u.hwPush f.head.queue w) := by
    simp only [State.arriveItem, hok, hnew, hwake, Bool.false_eq_true, if_false, ne_eq, not_true_eq_false]
    exact if_neg (by simp [Code.epochAhead])
  have hexec : exec (.itemFrame port f) s = .next (u.hwPush f.head.queue w) := by
    have hrun : exec (.itemFrame port f) s = execItemFrame port f s := rfl
    have htag' : tagBad f.head.tag1 = false := htag
    rw [hrun, execItemFrame, gate_live hl]
    dsimp only
    rw [State.wake_of_awake hawake, if_neg (not_not.mpr hdest), if_neg (by simp [hitem, hlen]), if_neg (by simp [htag']), harrive,
      if_pos rfl]
  obtain ⟨hitems, -, -⟩ := State.EntersBehind.hwPush (s := u) (q := f.head.queue) hroom w
  exact ⟨_, hexec, hitems⟩

/-- A LARDER_DATA frame for this module: its bytes in the larder, its sequence noted. -/
def State.takeData (s : State) (p : Nat) (f : Frame) : State :=
  ((s.frameGone p f.head).noteSeq (seqKey (frameSender f.head) 15 f.head.cls) f.head.tag1).writeBytes
    (larderAddr f.head.die (128 * f.head.la)) (f.body.take f.head.bodyLen)

theorem larderDataFrame_writes (hdest : f.head.dest = s.self) (hdata : f.head.mtype = 1) (hleast : 128 ≤ f.head.bodyLen)
    (hmost : f.head.bodyLen ≤ 65536) (halign : f.head.bodyLen % 128 = 0) (hfits : 128 * f.head.la + f.head.bodyLen ≤ larderBytes)
    (htag : tagBad f.head.tag1 = false) (hepoch : tagEpoch f.head.tag1 = s.comp.map.epoch) (hbody : f.body.length = f.head.bodyLen)
    (hnew : s.duplicate (seqKey (frameSender f.head) 15 f.head.cls) f.head.tag1 = false) :
    Does (.larderDataFrame port f) s fun t => (∀ a, t.byte a =
        if larderAddr f.head.die (128 * f.head.la) ≤ a ∧ a < larderAddr f.head.die (128 * f.head.la) + f.head.bodyLen
        then f.body.getD (a - larderAddr f.head.die (128 * f.head.la)) 0 else s.byte a) ∧
      (bit f.head.tag1 40 = true → isReclaim f.head.tally = false → t.tally f.head.tally = s.tally f.head.tally + 1) ∧
      (bit f.head.tag1 40 = false → t.tly = s.tly) := by
  have hexec : exec (.larderDataFrame port f) s =
      .next ((s.takeData port.val f).iff (bit f.head.tag1 40) fun s => s.raise f.head.tally) := by
    have hrun : exec (.larderDataFrame port f) s = execLarderDataFrame port f s := rfl
    have hcode : (s.frameGone port.val f.head).epochCode (tagEpoch f.head.tag1) = 0 := if_pos hepoch
    have hnew' : (s.frameGone port.val f.head).duplicate (seqKey (frameSender f.head) 15 f.head.cls) f.head.tag1 = false := hnew
    rw [hrun, execLarderDataFrame, gate_live hl]
    dsimp only
    rw [State.wake_of_awake hawake, if_neg (not_not.mpr hdest), hcode, if_neg (by simp [hdata, halign]; omega), if_neg (by simp [htag]),
      if_neg (by decide), if_neg (by decide), if_neg (by simp [hnew'])]
    rfl
  have hbyte : ∀ a, (s.takeData port.val f).byte a =
      if larderAddr f.head.die (128 * f.head.la) ≤ a ∧ a < larderAddr f.head.die (128 * f.head.la) + f.head.bodyLen
      then f.body.getD (a - larderAddr f.head.die (128 * f.head.la)) 0 else s.byte a := by
    intro a
    rw [State.takeData, List.take_of_length_le hbody.le, State.byte_writeBytes, hbody]
    rfl
  have htly : (s.takeData port.val f).tly = s.tly := rfl
  refine ⟨_, hexec, ?_⟩
  generalize s.takeData port.val f = u at *
  cases hlast : bit f.head.tag1 40 with
  | false =>
    rw [State.iff_false]
    exact ⟨hbyte, fun h => absurd h Bool.false_ne_true, fun _ => htly⟩
  | true =>
    rw [State.iff_true]
    refine ⟨fun a => ?_, fun _ hfree => ?_, fun h => absurd h (by decide)⟩
    · exact (congrArg (SMap.get 0 · a) (u.raise_frame f.head.tally).2.2.2.2.2.1).trans (hbyte a)
    · rw [State.tally_raise _ hfree, State.tally, htly, State.tally]

end frames

/-- Settles O45: bring-up, loss, flits, replay and frames, each by what its command changes. -/
theorem trailLinks : Obligations.TrailLinks := by
  intro s port hl
  refine ⟨fecLock_locks hl port, fecLockLoss_falls hl port, fecLockLoss_of_down hl port,
    fun hdown hon hwired hmany => ⟨retrain_starts hl port hdown hon hwired hmany, fun hearly =>
      ignored_of_gate rfl hl (by exact if_neg (Nat.not_le.2 hearly))⟩,
    fun hinit hfec => ⟨initSend_sends hl port hinit hfec, initDoneRx_ups hl port hinit hfec, initDoneRx_waits hl port hinit hfec,
      fun i hkind hversion => ⟨initRx_accepts hl port hinit hfec i hkind hversion, initRx_locks hl port hinit hfec i hkind hversion⟩⟩,
    fun hup => ⟨fun hsome hdue => ⟨replayTimeout_resends hl port hup hsome hdue, replayTimeout_falls hl port hup hsome hdue⟩,
      flitRx_bad hl port hup, flitRx_accepts hl port hup⟩,
    fun hawake => ⟨fun f hdest hknown => ⟨itemFrame_forwards hl port hawake f hdest hknown,
        larderDataFrame_forwards hl port hawake f hdest hknown⟩,
      fun f hdest => ⟨itemFrame_drops hl port hawake f hdest, itemFrame_arrives hl port hawake f hdest,
        larderDataFrame_writes hl port hawake f hdest⟩⟩⟩

end Sys2Proof.Machine
end

section
/-! ### Configuration images (R632 to R646) -/

namespace Sys2Proof.Machine

open Sys2Proof

/-! #### What the placement of sections leaves -/

/-- The host's commands, what was sent, the fuses, the table of a boot and the image in effect stay through the steps of a load. -/
structure State.Loads (s t : State) : Prop where
  host : t.host = s.host
  out : t.out = s.out
  fuses : t.plat.fuses = s.plat.fuses
  stage : t.plat.stage = s.plat.stage
  boot : t.tsm.boot = s.tsm.boot
  base : t.cfg.base = s.cfg.base
  shadow : t.shadow = s.shadow

theorem State.Loads.refl (s : State) : s.Loads s := ⟨rfl, rfl, rfl, rfl, rfl, rfl, rfl⟩

theorem State.Loads.trans {s t u : State} (h : s.Loads t) (h' : t.Loads u) : s.Loads u :=
  ⟨h'.host.trans h.host, h'.out.trans h.out, h'.fuses.trans h.fuses, h'.stage.trans h.stage, h'.boot.trans h.boot,
    h'.base.trans h.base, h'.shadow.trans h.shadow⟩

theorem State.Loads.foldl {α : Type} {f : State → α → State} (hf : ∀ (u : State) (a : α), u.Loads (f u a)) (l : List α) (s : State) :
    s.Loads (l.foldl f s) :=
  List.foldlRecOn l f (motive := s.Loads) (.refl s) fun u hu a _ => hu.trans (hf u a)

/-- A command in progress is in progress after the steps of a load. -/
theorem Underway.of_loads {s u v : State} {c : HostCmd} (h : Underway s u c) (hhost : v.host = u.host)
    (hfuses : v.plat.fuses = u.plat.fuses) (hout : v.out = u.out) : Underway s v c where
  found := by
    rw [hhost]
    exact h.found
  silent := h.silent
  discarded := h.discarded
  ide := by
    rw [← h.ide]
    unfold State.ideBlocked State.fuse State.fn
    rw [hhost, hfuses]
  out := by
    rw [hout]
    exact h.out

theorem State.loads_setReg (s : State) (k : Nat) (w : Word) : s.Loads (s.setReg k w) := ⟨rfl, rfl, rfl, rfl, rfl, rfl, rfl⟩

theorem State.loads_putTab (s : State) (r : TabRef) (ws : List Word) : s.Loads (s.putTab r ws) := by
  cases r
  case req i =>
    unfold State.putTab State.putReqWords
    dsimp only
    split <;> exact ⟨rfl, rfl, rfl, rfl, rfl, rfl, rfl⟩
  all_goals exact ⟨rfl, rfl, rfl, rfl, rfl, rfl, rfl⟩  -- one table's entry changes

theorem State.loads_setVbyte (s : State) (a : Nat) (b : Byte) : s.Loads (s.setVbyte a b) := by
  unfold State.setVbyte
  split
  · exact s.loads_putTab _ _
  · exact ⟨rfl, rfl, rfl, rfl, rfl, rfl, rfl⟩

theorem State.loads_setVbytes (s : State) (a : Nat) (bs : List Byte) : s.Loads (s.setVbytes a bs) := by
  unfold State.setVbytes
  split
  · exact .foldl (fun u x => u.loads_setVbyte _ _) _ s
  · exact ⟨rfl, rfl, rfl, rfl, rfl, rfl, rfl⟩

theorem State.loads_mend (s : State) (a n : Nat) : s.Loads (s.mend a n) := by
  obtain ⟨b, hb⟩ := s.mend_keeps a n
  rw [hb]
  exact ⟨rfl, rfl, rfl, rfl, rfl, rfl, rfl⟩

theorem State.loads_setTabBytes (s : State) (a : Nat) (bs : List Byte) : s.Loads (s.setTabBytes a bs) := by
  unfold State.setTabBytes
  split
  next => exact .refl s
  next =>
    refine .foldl (fun u x => ?_) _ s
    unfold State.iff
    split
    · exact (u.loads_setVbytes _ _).trans (State.loads_mend _ _ _)
    · exact .refl u

theorem State.loads_mapAt (s : State) (p : Nat) (t : Tier) (loc : Nat) (kv : Bool) (tclass : Nat) :
    s.Loads (s.mapAt p t loc kv tclass) := by
  obtain ⟨d, hd⟩ := s.mapDirs_keeps p
  rw [State.mapAt, hd]
  exact ⟨rfl, rfl, rfl, rfl, rfl, rfl, rfl⟩

theorem State.loads_pinPage (s : State) (d : PinDesc) (p : Nat) : s.Loads (s.pinPage d p) := by
  unfold State.pinPage
  dsimp only
  split
  next => exact .refl s
  next t h =>
    have hmap : s.Loads t := by
      unfold State.mapPage at h
      split at h
      · cases h
      · split at h
        · cases h
          exact s.loads_mapAt _ _ _ _ _
        · cases h
    exact hmap.trans ⟨rfl, rfl, rfl, rfl, rfl, rfl, rfl⟩

theorem State.loads_pinTable (s : State) (p loc : Nat) : s.Loads (s.pinTable p loc) := by
  have hmap := s.loads_mapAt p .dram loc false 0
  unfold State.pinTable
  dsimp only
  generalize s.mapAt p .dram loc false 0 = u at *
  exact hmap.trans ⟨rfl, rfl, rfl, rfl, rfl, rfl, rfl⟩

theorem State.loads_placeSection (s : State) (x : CfgSection) : s.Loads (s.placeSection x) := by
  have hcfg (u : State) (c : Cfg) (h : c.base = u.cfg.base) : u.Loads { u with cfg := c } := ⟨rfl, rfl, rfl, rfl, rfl, h, rfl⟩
  cases x with
  | table d bs => exact (s.loads_setTabBytes _ _).trans (hcfg _ _ rfl)
  | vocab k d bs => exact (s.loads_setTabBytes _ _).trans (hcfg _ _ rfl)
  | index k d e bs => exact ((s.loads_setTabBytes _ _).trans (State.loads_setTabBytes _ _ _)).trans (hcfg _ _ rfl)
  | composition d bs => exact (s.loads_setTabBytes _ _).trans ⟨rfl, rfl, rfl, rfl, rfl, rfl, rfl⟩
  | larder ds => exact hcfg _ _ rfl
  | pinned ds => exact hcfg _ _ rfl
  | regs rs => exact .refl s

theorem State.loads_scanClaims (s : State) : s.Loads s.scanClaims := by
  unfold State.scanClaims
  split
  · exact .refl s
  · refine .foldl (fun u k => ?_) _ s
    unfold State.noteClaim
    dsimp only
    split
    · exact ⟨rfl, rfl, rfl, rfl, rfl, rfl, rfl⟩
    · exact .refl u

theorem State.loads_bringUp (s : State) (p : Nat) : s.Loads (s.bringUp p) := by
  unfold State.bringUp
  split
  · exact ⟨rfl, rfl, rfl, rfl, rfl, rfl, rfl⟩
  · exact .refl s

theorem State.loads_openCharge (s : State) : s.Loads s.openCharge := .foldl (fun u _ => u.loads_setReg _ _) _ s

theorem State.loads_placeRegs (s : State) (i : CfgImage) : s.Loads (s.placeRegs i) := .foldl (fun u _ => u.loads_setReg _ _) _ s

/-- The pinned regions are mapped in the page table of the image, the table of the boot is gone (R56, R76). -/
theorem State.placePins_loads (s : State) (ds : List PinDesc) :
    ({ s with cfg.pins := ds, tsm.boot := false } : State).Loads (s.placePins ds) := by
  unfold State.placePins
  dsimp only
  generalize ({ s with cfg.pins := ds, tsm.boot := false } : State) = u
  have htable := State.Loads.foldl (fun (v : State) (x : Nat × Nat) => v.loads_pinTable x.1 (v.rootPage + x.2))
    (tablePagesOf ds).zipIdx u
  exact htable.trans (.foldl (fun v d => .foldl (fun x p => x.loads_pinPage d p) _ v) _ _)

/-- A FULL image is in effect: the module is loaded and its boot at an end (R643, R644, R714). -/
theorem State.placeFull_loads (s : State) (i : CfgImage) (w dirBase headerBase : Word) :
    (s.placeFull i w dirBase headerBase).host = s.host ∧ (s.placeFull i w dirBase headerBase).out = s.out ∧
    (s.placeFull i w dirBase headerBase).plat.fuses = s.plat.fuses ∧ (s.placeFull i w dirBase headerBase).plat.stage = 7 ∧
    (s.placeFull i w dirBase headerBase).tsm.boot = false ∧ (s.placeFull i w dirBase headerBase).cfg.base = some i.digest ∧
    (s.placeFull i w dirBase headerBase).shadow = [] := by
  unfold State.placeFull
  dsimp only
  have hregs := ({ s with hmp.dirBase := dirBase.toNat, hmp.headerBase := headerBase.toNat } : State).loads_placeRegs i
  have hbegin : s.host = ({ s with hmp.dirBase := dirBase.toNat, hmp.headerBase := headerBase.toNat } : State).host ∧
      s.out = ({ s with hmp.dirBase := dirBase.toNat, hmp.headerBase := headerBase.toNat } : State).out ∧
      s.plat.fuses = ({ s with hmp.dirBase := dirBase.toNat, hmp.headerBase := headerBase.toNat } : State).plat.fuses := ⟨rfl, rfl, rfl⟩
  rw [hbegin.1, hbegin.2.1, hbegin.2.2]
  generalize ({ s with hmp.dirBase := dirBase.toNat, hmp.headerBase := headerBase.toNat } : State) = s at *
  generalize s.placeRegs i = u at *
  have hpins := u.placePins_loads (imgPins i)
  generalize u.placePins (imgPins i) = v at *
  have hsections := State.Loads.foldl State.loads_placeSection i.sections v
  generalize i.sections.foldl (fun s x => s.placeSection x) v = x at *
  have hboot : x.tsm.boot = false := hsections.boot.trans hpins.boot
  have hhost : x.host = s.host := hsections.host.trans (hpins.host.trans hregs.host)
  have hout : x.out = s.out := hsections.out.trans (hpins.out.trans hregs.out)
  have hfuses : x.plat.fuses = s.plat.fuses := hsections.fuses.trans (hpins.fuses.trans hregs.fuses)
  have hlast (y : State) : y.Loads (((List.range 8).foldl (fun s p => s.bringUp p)
      ((y.setField Reg.ctlDieRole 19 16 0).readDir w).scanClaims).openCharge) := by
    have hread : y.Loads ((y.setField Reg.ctlDieRole 19 16 0).readDir w) := ⟨rfl, rfl, rfl, rfl, rfl, rfl, rfl⟩
    exact ((hread.trans (State.loads_scanClaims _)).trans (.foldl (fun u p => u.loads_bringUp p) _ _)).trans (State.loads_openCharge _)
  obtain ⟨h1, h2, h3, h4, h5, h6, h7⟩ := hlast { { x with shadow := [], cfg.base := some i.digest, plat.stage := 7 } with
    comp.drainNs := msec (State.field { x with shadow := [], cfg.base := some i.digest, plat.stage := 7 } Reg.fabControl 47 42) }
  exact ⟨h1.trans hhost, h2.trans hout, h3.trans hfuses, h4, h5.trans hboot, h6, h7⟩

/-- Staging a DELTA's sections changes no register. -/
theorem State.stageSection_keeps (s : State) (x : CfgSection) :
    (s.stageSection x).regs = s.regs ∧ (s.stageSection x).host = s.host ∧ (s.stageSection x).plat = s.plat ∧
    (s.stageSection x).out = s.out ∧ (s.stageSection x).cfg.base = s.cfg.base := by
  cases x with
  | regs rs =>
    exact List.foldlRecOn rs _ (motive := fun u : State => u.regs = s.regs ∧ u.host = s.host ∧ u.plat = s.plat ∧ u.out = s.out ∧
      u.cfg.base = s.cfg.base) ⟨rfl, rfl, rfl, rfl, rfl⟩ fun u hu r _ => hu
  | vocab k d bs =>
    obtain ⟨hhost, hplat, hout, -, hregs, -⟩ := s.setTabBytes_keeps d.toNat bs
    exact ⟨hregs, hhost, hplat, hout, (s.loads_setTabBytes d.toNat bs).base⟩
  | index k d e bs =>
    obtain ⟨hhost, hplat, hout, -, hregs, -⟩ := s.setTabBytes_keeps d.toNat bs
    exact ⟨hregs, hhost, hplat, hout, (s.loads_setTabBytes d.toNat bs).base⟩
  | table d bs => exact ⟨rfl, rfl, rfl, rfl, rfl⟩
  | composition d bs => exact ⟨rfl, rfl, rfl, rfl, rfl⟩
  | larder ds => exact ⟨rfl, rfl, rfl, rfl, rfl⟩
  | pinned ds => exact ⟨rfl, rfl, rfl, rfl, rfl⟩

theorem stageSections_keep (l : List CfgSection) (s : State) :
    (l.foldl (fun s x => s.stageSection x) s).regs = s.regs ∧ (l.foldl (fun s x => s.stageSection x) s).host = s.host ∧
    (l.foldl (fun s x => s.stageSection x) s).plat = s.plat ∧ (l.foldl (fun s x => s.stageSection x) s).out = s.out ∧
    (l.foldl (fun s x => s.stageSection x) s).cfg.base = s.cfg.base := by
  refine List.foldlRecOn l _ (motive := fun u : State => u.regs = s.regs ∧ u.host = s.host ∧ u.plat = s.plat ∧ u.out = s.out ∧
    u.cfg.base = s.cfg.base) ⟨rfl, rfl, rfl, rfl, rfl⟩ fun u hu x _ => ?_
  obtain ⟨hregs, hhost, hplat, hout, hbase⟩ := hu
  obtain ⟨hregs', hhost', hplat', hout', hbase'⟩ := u.stageSection_keeps x
  exact ⟨hregs'.trans hregs, hhost'.trans hhost, hplat'.trans hplat, hout'.trans hout, hbase'.trans hbase⟩

/-! #### Codes of refusals (R643, R645, R646) -/

/-- The codes of the load checks, all of them values of a completion's code field. -/
def LoadCode (o : Option LoadErr) : Prop := ∀ e, o = some e → e.code < 8192

theorem LoadCode.or {a b : Option LoadErr} (ha : LoadCode a) (hb : LoadCode b) : LoadCode (a.or b) := by
  intro e he
  cases a with
  | none => exact hb e he
  | some x => exact ha e he

theorem LoadCode.none : LoadCode none := fun _ h => by cases h

theorem LoadCode.some {x : LoadErr} (h : x.code < 8192) : LoadCode (some x) := fun _ he => by cases he; exact h

theorem LoadCode.map {α : Type} {o : Option α} {f : α → LoadErr} (h : ∀ a, (f a).code < 8192) : LoadCode (o.map f) := by
  cases o with
  | none => exact .none
  | some a => exact .some (h a)

theorem formatErr_code {bs : List Byte} {e : LoadErr} (h : formatErr bs = some e) : e.code = Code.cfgFormat := by
  unfold formatErr at h
  dsimp only at h
  split at h
  · cases h
    rfl
  · split at h
    · cases h
      rfl
    · split at h
      · cases h
      · cases h
        rfl

theorem loadCode_countErr (i : CfgImage) (p : CfgSection → Bool) : LoadCode (countErr i p) := by
  unfold countErr
  split
  · exact .some (by decide)
  · exact .none
  · exact .some (by show Code.cfgFormat < 8192; decide)

theorem loadCode_slotErr (i : CfgImage) : LoadCode (slotErr i) := by
  unfold slotErr
  split
  · exact .some (by decide)
  · exact .none

theorem loadCode_recordErr (i : CfgImage) : LoadCode (recordErr i) := by
  unfold recordErr
  dsimp only
  split
  · exact .some (by show Code.cfgFormat < 8192; decide)
  · split
    · exact .some (by show Code.cfgFormat < 8192; decide)
    · exact .none

theorem loadCode_fullCounts (i : CfgImage) : LoadCode (fullCounts i) :=
  (loadCode_countErr i _).or ((loadCode_countErr i _).or ((loadCode_countErr i _).or ((loadCode_countErr i _).or
    ((loadCode_slotErr i).or ((loadCode_recordErr i).or (.map fun k => by show Code.cfgMissing < 8192; decide))))))

theorem State.loadCode_fullAgree (s : State) (i : CfgImage) : LoadCode (s.fullAgree i) := by
  unfold State.fullAgree
  dsimp only
  split
  · exact .some (by show Code.cfgAgree < 8192; decide)
  · split
    · exact .none
    · exact .some (by decide)

theorem State.loadCode_deltaErr (s : State) (i : CfgImage) : LoadCode (s.deltaErr i) := by
  unfold State.deltaErr
  split
  · exact .some (by decide)
  · split
    · exact .some (by decide)
    · split
      · exact .some (by show Code.cfgSection < 8192; decide)
      · split
        · exact .some (by show Code.cfgBusy < 8192; decide)
        · refine LoadCode.or ?_ ((loadCode_slotErr i).or ((loadCode_recordErr i).or (.map fun x => by show Code.cfgAgree < 8192; decide)))
          split
          · exact .some (by show Code.cfgFormat < 8192; decide)
          · exact .none

theorem State.loadMeasured_error {u : State} {i : CfgImage} {w dirBase headerBase : Word} {e : LoadErr}
    (h : u.loadMeasured i w dirBase headerBase = .error e) : e.code < 8192 := by
  unfold State.loadMeasured at h
  split at h
  · split at h
    next e' he =>
      cases h
      exact (loadCode_fullCounts i).or (u.loadCode_fullAgree i) e he
    · cases h
  · split at h
    next e' he =>
      cases h
      exact u.loadCode_deltaErr i e he
    · cases h

theorem State.loadMeasured_full {u v : State} {i : CfgImage} {w dirBase headerBase : Word} (hfull : i.full = true)
    (h : u.loadMeasured i w dirBase headerBase = .ok v) : v = u.placeFull i w dirBase headerBase := by
  rw [State.loadMeasured, if_pos hfull] at h
  split at h
  · cases h
  · cases h
    rfl

theorem State.loadMeasured_delta {u v : State} {i : CfgImage} {w dirBase headerBase : Word} (hdelta : i.full = false)
    (h : u.loadMeasured i w dirBase headerBase = .ok v) : v = i.sections.foldl (fun s x => s.stageSection x) u := by
  rw [State.loadMeasured, if_neg (by rw [hdelta]; exact Bool.false_ne_true)] at h
  split at h
  · cases h
  · cases h
    rfl

/-- A measurement changes the platform's measurements alone. -/
theorem State.extend_keeps {s u : State} {r k : Nat} {d : BitVec 384} (h : s.extend r k d = some u) :
    ∃ m l, u = { s with plat.meas := m, plat.measLog := l } := by
  unfold State.extend at h
  split at h
  · cases h
  · cases h
    exact ⟨_, _, rfl⟩

/-! #### The command (R641 to R646) -/

theorem not_full_and_loaded {a b : Bool} (h : a = true → b = false) : ¬(a && b) = true := by
  cases a with
  | false => exact Bool.false_ne_true
  | true =>
    rw [h rfl]
    exact Bool.false_ne_true

section load

variable {s : State} {id : Nat} {c : HostCmd} (hw : Waits s id 0x03 c) (dir w w' : Word)
include hw

theorem loadImage_unread : Does (.loadImage id none dir w w') s fun t =>
    t.regs = s.regs ∧ t.cfg = s.cfg ∧ Answers s t c Code.hostDma 0 0 := by
  have hexec : exec (.loadImage id none dir w w') s = execLoadImage id none dir w w' s := rfl
  refine ⟨s.complete c.id Code.hostDma 0 0, ?_, by simp, by simp, hw.is_open.underway.answers (by decide) 0 0⟩
  rw [hexec, execLoadImage, hw.hostCmd]

variable (bs : List Byte)

/-- A refusal before the measurement leaves registers, configuration and memory. -/
theorem loadImage_refuses {e : LoadErr} (hcode : e.code < 8192)
    (hexec : exec (.loadImage id (some bs) dir w w') s = .next (s.complete c.id e.code e.detail 0)) :
    Does (.loadImage id (some bs) dir w w') s fun t =>
      t.regs = s.regs ∧ t.cfg = s.cfg ∧ t.mem = s.mem ∧ ∃ d, Answers s t c e.code d 0 :=
  ⟨_, hexec, by simp, by simp, by simp, e.detail, hw.is_open.underway.answers hcode _ _⟩

theorem loadImage_denied (hmay : s.fuse (928 + c.fn) = false) : Does (.loadImage id (some bs) dir w w') s fun t =>
    t.regs = s.regs ∧ t.cfg = s.cfg ∧ t.mem = s.mem ∧ ∃ d, Answers s t c Code.cfgDenied d 0 := by
  refine loadImage_refuses hw dir w w' bs (e := { code := Code.cfgDenied }) (by decide) ?_
  have hexec : exec (.loadImage id (some bs) dir w w') s = execLoadImage id (some bs) dir w w' s := rfl
  rw [hexec, execLoadImage, hw.hostCmd]
  dsimp only
  rw [hmay, Bool.not_false, if_pos rfl]

variable (hmay : s.fuse (928 + c.fn) = true)
include hmay

theorem loadImage_over (hfull : (CfgImage.ofBytes bs).full = true) (hloaded : s.loaded = true) :
    Does (.loadImage id (some bs) dir w w') s fun t =>
      t.regs = s.regs ∧ t.cfg = s.cfg ∧ t.mem = s.mem ∧ ∃ d, Answers s t c Code.cfgBase d 0 := by
  refine loadImage_refuses hw dir w w' bs (e := { code := Code.cfgBase }) (by decide) ?_
  have hexec : exec (.loadImage id (some bs) dir w w') s = execLoadImage id (some bs) dir w w' s := rfl
  rw [hexec, execLoadImage, hw.hostCmd]
  dsimp only
  rw [hmay, Bool.not_true, if_neg Bool.false_ne_true, hfull, hloaded, if_pos (by decide)]

variable (hfirst : (CfgImage.ofBytes bs).full = true → s.loaded = false)
include hfirst

theorem loadImage_malformed (hformat : (formatErr bs).isSome) : Does (.loadImage id (some bs) dir w w') s fun t =>
    t.regs = s.regs ∧ t.cfg = s.cfg ∧ t.mem = s.mem ∧ ∃ d, Answers s t c Code.cfgFormat d 0 := by
  obtain ⟨e, he⟩ := Option.isSome_iff_exists.1 hformat
  have hcode := formatErr_code he
  rw [← hcode]
  refine loadImage_refuses hw dir w w' bs (by rw [hcode]; decide) ?_
  have hexec : exec (.loadImage id (some bs) dir w w') s = execLoadImage id (some bs) dir w w' s := rfl
  rw [hexec, execLoadImage, hw.hostCmd]
  dsimp only
  rw [hmay, Bool.not_true, if_neg Bool.false_ne_true, if_neg (not_full_and_loaded hfirst), he]

variable (hformat : formatErr bs = none)
include hformat

theorem loadImage_unsigned (hsign : s.imageSigned bs = false) : Does (.loadImage id (some bs) dir w w') s fun t =>
    t.regs = s.regs ∧ t.cfg = s.cfg ∧ t.mem = s.mem ∧ ∃ d, Answers s t c Code.cfgSignature d 0 := by
  refine loadImage_refuses hw dir w w' bs (e := { code := Code.cfgSignature }) (by decide) ?_
  have hexec : exec (.loadImage id (some bs) dir w w') s = execLoadImage id (some bs) dir w w' s := rfl
  rw [hexec, execLoadImage, hw.hostCmd]
  dsimp only
  rw [hmay, Bool.not_true, if_neg Bool.false_ne_true, if_neg (not_full_and_loaded hfirst), hformat]
  dsimp only
  rw [hsign, Bool.not_false, if_pos rfl]

variable (hsign : s.imageSigned bs = true)
include hsign

/-- A well-formed, signed image is measured; then come the checks of its sections. -/
theorem loadImage_measures : exec (.loadImage id (some bs) dir w w') s =
    match s.extend 4 (if (CfgImage.ofBytes bs).full then 4 else 5) (CfgImage.ofBytes bs).digest with
    | none => .next (s.complete c.id Code.cfgLogFull (LoadErr.detail { code := Code.cfgLogFull }) 0)
    | some u =>
      match u.loadMeasured (CfgImage.ofBytes bs) dir w w' with
      | .error e => .next (u.complete c.id e.code e.detail 0)
      | .ok v => .next (v.complete c.id 0 0 0) := by
  have hexec : exec (.loadImage id (some bs) dir w w') s = execLoadImage id (some bs) dir w w' s := rfl
  rw [hexec, execLoadImage, hw.hostCmd]
  dsimp only
  rw [hmay, Bool.not_true, if_neg Bool.false_ne_true, if_neg (not_full_and_loaded hfirst), hformat]
  dsimp only
  rw [hsign, Bool.not_true, if_neg Bool.false_ne_true]
  cases s.extend 4 (if (CfgImage.ofBytes bs).full then 4 else 5) (CfgImage.ofBytes bs).digest with
  | none => rfl
  | some u =>
    dsimp only
    cases u.loadMeasured (CfgImage.ofBytes bs) dir w w' <;> rfl

theorem loadImage_logFull (hfullLog : s.extend 4 (if (CfgImage.ofBytes bs).full then 4 else 5) (CfgImage.ofBytes bs).digest = none) :
    Does (.loadImage id (some bs) dir w w') s fun t =>
      t.regs = s.regs ∧ t.cfg = s.cfg ∧ t.mem = s.mem ∧ ∃ d, Answers s t c Code.cfgLogFull d 0 := by
  refine loadImage_refuses hw dir w w' bs (e := { code := Code.cfgLogFull }) (by decide) ?_
  rw [loadImage_measures hw dir w w' bs hmay hfirst hformat hsign, hfullLog]

theorem loadImage_disagrees {u : State} {e : LoadErr}
    (hmeasure : s.extend 4 (if (CfgImage.ofBytes bs).full then 4 else 5) (CfgImage.ofBytes bs).digest = some u)
    (hload : u.loadMeasured (CfgImage.ofBytes bs) dir w w' = .error e) :
    Does (.loadImage id (some bs) dir w w') s fun t => t.regs = s.regs ∧ t.cfg = s.cfg ∧ t.mem = s.mem ∧ t.plat = u.plat ∧
      Answers s t c e.code e.detail 0 := by
  obtain ⟨m, l, hu⟩ := State.extend_keeps hmeasure
  have hunder : Underway s u c := hw.is_open.underway.of_loads (by rw [hu]) (by rw [hu]) (by rw [hu])
  refine ⟨u.complete c.id e.code e.detail 0, ?_, ?_, ?_, ?_, by simp, hunder.answers (State.loadMeasured_error hload) _ _⟩
  · rw [loadImage_measures hw dir w w' bs hmay hfirst hformat hsign, hmeasure]
    dsimp only
    rw [hload]
  · rw [show (u.complete c.id e.code e.detail 0).regs = u.regs by simp, hu]
  · rw [show (u.complete c.id e.code e.detail 0).cfg = u.cfg by simp, hu]
  · rw [show (u.complete c.id e.code e.detail 0).mem = u.mem by simp, hu]

theorem loadImage_full {u v : State} (hfull : (CfgImage.ofBytes bs).full = true)
    (hmeasure : s.extend 4 4 (CfgImage.ofBytes bs).digest = some u)
    (hload : u.loadMeasured (CfgImage.ofBytes bs) dir w w' = .ok v) :
    Does (.loadImage id (some bs) dir w w') s fun t => t.loaded = true ∧ t.cfg.base = some (CfgImage.ofBytes bs).digest ∧
      t.plat.stage = 7 ∧ t.shadow = [] ∧ t.tsm.boot = false ∧ Answers s t c 0 0 0 := by
  have hexec : exec (.loadImage id (some bs) dir w w') s = .next (v.complete c.id 0 0 0) := by
    rw [loadImage_measures hw dir w w' bs hmay hfirst hformat hsign, hfull, if_pos rfl, hmeasure]
    dsimp only
    rw [hload]
  obtain ⟨m, l, hu⟩ := State.extend_keeps hmeasure
  have hunder : Underway s u c := hw.is_open.underway.of_loads (by rw [hu]) (by rw [hu]) (by rw [hu])
  have hplaced := u.placeFull_loads (CfgImage.ofBytes bs) dir w w'
  rw [← State.loadMeasured_full hfull hload] at hplaced
  obtain ⟨hhost, hout, hfuses, hstage, hboot, hbase, hshadow⟩ := hplaced
  have hcfg : (v.complete c.id 0 0 0).cfg = v.cfg := by simp
  refine ⟨_, hexec, ?_, by rw [hcfg, hbase], by simpa using hstage, by simpa using hshadow, by simpa using hboot,
    (hunder.of_loads hhost hfuses hout).answers (by decide) _ _⟩
  rw [State.loaded, hcfg, hbase]
  rfl

theorem loadImage_delta {u v : State} (hdelta : (CfgImage.ofBytes bs).full = false)
    (hmeasure : s.extend 4 5 (CfgImage.ofBytes bs).digest = some u)
    (hload : u.loadMeasured (CfgImage.ofBytes bs) dir w w' = .ok v) :
    Does (.loadImage id (some bs) dir w w') s fun t => (∀ k, t.reg k = u.reg k) ∧ t.cfg.base = s.cfg.base ∧
      Answers s t c 0 0 0 := by
  have hexec : exec (.loadImage id (some bs) dir w w') s = .next (v.complete c.id 0 0 0) := by
    rw [loadImage_measures hw dir w w' bs hmay hfirst hformat hsign, hdelta, if_neg Bool.false_ne_true, hmeasure]
    dsimp only
    rw [hload]
  obtain ⟨m, l, hu⟩ := State.extend_keeps hmeasure
  have hunder : Underway s u c := hw.is_open.underway.of_loads (by rw [hu]) (by rw [hu]) (by rw [hu])
  have hstaged := stageSections_keep (CfgImage.ofBytes bs).sections u
  rw [← State.loadMeasured_delta hdelta hload] at hstaged
  obtain ⟨hregs, hhost, hplat, hout, hbase⟩ := hstaged
  refine ⟨_, hexec, fun k => State.reg_of_regs ?_ k, ?_, (hunder.of_loads hhost (by rw [hplat]) hout).answers (by decide) _ _⟩
  · rw [show (v.complete c.id 0 0 0).regs = v.regs by simp, hregs]
  · rw [show (v.complete c.id 0 0 0).cfg = v.cfg by simp, hbase, hu]

end load

end Sys2Proof.Machine
end

section
/-! ### Commits of configuration groups (R648 to R652) -/

namespace Sys2Proof.Machine

open Sys2Proof

theorem State.groupCode_lt (s : State) (g : Nat) : s.groupCode g < 8192 := by
  unfold State.groupCode
  split_ifs <;> decide

/-- A mask of one bit names one group. -/
theorem groups_of_bit {g : Nat} (hg : g < 17) : ((List.range 17).filter fun k => 2 ^ g / 2 ^ k % 2 = 1) = [g] := by
  have hall : ∀ g < 17, ((List.range 17).filter fun k => 2 ^ g / 2 ^ k % 2 = 1) = [g] := by decide
  exact hall g hg

/-- The state in which a COMMIT has begun: the groups that pass wait under its number. -/
def State.commitBegun (s : State) (id : Nat) (gs : List Nat) (code : Nat) : State :=
  { s.began id with
    host.cmds := (s.began id).host.cmds.map fun (x : HostCmd) => if x.id = id then { x with groupsLeft := gs, firstCode := code } else x
    cfg.pending := gs.foldl (fun m g => SMap.put m g id) s.cfg.pending }

/-- The command of a COMMIT once it has begun. -/
def HostCmd.committing (c : HostCmd) (now : Nat) (gs : List Nat) (code : Nat) : HostCmd :=
  { c with began := true, sinceNs := now, groupsLeft := gs, firstCode := code }

theorem find?_map_id {f : HostCmd → HostCmd} (hf : ∀ x, (f x).id = x.id) (cmds : List HostCmd) (id : Nat) :
    (cmds.map f).find? (fun x => x.id = id) = (cmds.find? fun x => x.id = id).map f := by
  rw [List.find?_map]
  exact congrArg (Option.map f) (congrArg (List.find? · cmds) (funext fun x => by simp [Function.comp, hf]))

section commit

variable {s : State} {id : Nat} {c : HostCmd} (hw : Waits s id 0x04 c)
include hw

theorem commitBegun_finds (gs : List Nat) (code : Nat) :
    (s.commitBegun c.id gs code).host.cmds.find? (fun x => x.id = c.id) = some (c.committing s.now gs code) := by
  have hfind : s.host.cmds.find? (fun x => x.id = c.id) = some c := hw.is_open.2.1
  have hmark : ∀ x : HostCmd, (if x.id = c.id then { x with groupsLeft := gs, firstCode := code } else x : HostCmd).id = x.id :=
    fun x => by split <;> rfl
  have hbegan : ∀ x : HostCmd, (if x.id = c.id then { x with began := true, sinceNs := s.now } else x : HostCmd).id = x.id :=
    fun x => by split <;> rfl
  have hmarks := find?_map_id hmark (s.began c.id).host.cmds c.id
  have hbegans := find?_map_id hbegan s.host.cmds c.id
  refine hmarks.trans ?_
  refine (congrArg (Option.map _) hbegans).trans ?_
  rw [hfind, Option.map_some, Option.map_some, if_pos rfl, if_pos rfl]
  rfl

theorem commitBegun_begun (gs : List Nat) (code : Nat) :
    (s.commitBegun c.id gs code).begun? c.id 0x04 = some (c.committing s.now gs code) := by
  have hop : c.opcode = 0x04 := hw.2.2.1
  have hq : (decide ((c.committing s.now gs code).opcode = 0x04) && (c.committing s.now gs code).began) = true := by
    simp [HostCmd.committing, hop]
  simpa only [State.begun?, Bool.and_assoc] using
    find?_and_of_find? (q := fun x : HostCmd => decide (x.opcode = 0x04) && x.began) (commitBegun_finds hw gs code) hq

theorem commitBegun_underway (gs : List Nat) (code : Nat) :
    Underway s (s.commitBegun c.id gs code) (c.committing s.now gs code) where
  found := ⟨true, s.now, commitBegun_finds hw gs code⟩
  silent := hw.is_open.2.2.1
  discarded := hw.is_open.2.2.2.1
  ide := hw.is_open.2.2.2.2
  out := List.prefix_refl _

theorem commit_outOfRange (hmask : 2 ^ 17 ≤ bits (c.arg 0) 31 0) : Does (.commit id) s fun t =>
    t.cfg = s.cfg ∧ Answers s t c Code.invalidField 0 0 := by
  have hrun : exec (.commit id) s = execCommit id s := rfl
  refine ⟨s.complete c.id Code.invalidField 0 0, ?_, by simp, hw.is_open.underway.answers (by decide) 0 0⟩
  rw [hrun, execCommit, hw.hostCmd]
  dsimp only
  rw [if_pos hmask]

variable {g : Nat} (hg : g < 17) (hmask : bits (c.arg 0) 31 0 = 2 ^ g)
include hg hmask

theorem commit_one : exec (.commit id) s = .next (if (SMap.lookup s.cfg.pending g).isSome then s.complete c.id Code.cfgBusy 0 0
    else (s.commitBegun c.id (s.checkGroups [g]).1 (s.checkGroups [g]).2).commitDone c.id) := by
  have hrun : exec (.commit id) s = execCommit id s := rfl
  have hlt : ¬(2 ^ 17 ≤ 2 ^ g) := Nat.not_le.2 (Nat.pow_lt_pow_right (by decide) hg)
  rw [hrun, execCommit, hw.hostCmd]
  dsimp only
  rw [hmask, groups_of_bit hg, if_neg hlt]
  simp only [List.any_cons, List.any_nil, Bool.or_false]
  rfl

theorem commit_busy (hbusy : (SMap.lookup s.cfg.pending g).isSome) : Does (.commit id) s fun t =>
    t.cfg = s.cfg ∧ Answers s t c Code.cfgBusy 0 0 :=
  ⟨_, (commit_one hw hg hmask).trans (congrArg Host.Outcome.next (if_pos hbusy)), by simp,
    hw.is_open.underway.answers (by decide) 0 0⟩

theorem commit_waits (hfree : SMap.lookup s.cfg.pending g = none) (hcode : s.groupCode g = 0) : Does (.commit id) s fun t =>
    SMap.lookup t.cfg.pending g = some id ∧ t.regs = s.regs ∧ t.shadow = s.shadow ∧
      ∃ d ∈ t.host.cmds, d.id = id ∧ d.began = true ∧ d.groupsLeft = [g] := by
  have hcheck : s.checkGroups [g] = ([g], 0) := by simp [State.checkGroups, hcode]
  have hdone : (s.commitBegun c.id [g] 0).commitDone c.id = s.commitBegun c.id [g] 0 := by
    rw [State.commitDone, commitBegun_begun hw]
    exact if_neg Bool.false_ne_true
  have hexec : exec (.commit id) s = .next (s.commitBegun c.id [g] 0) := by
    rw [commit_one hw hg hmask, hfree, hcheck]
    exact congrArg Host.Outcome.next ((if_neg Bool.false_ne_true).trans hdone)
  refine ⟨_, hexec, ?_, rfl, rfl, _, List.mem_of_find?_eq_some (commitBegun_finds hw [g] 0), hw.id_eq, rfl, rfl⟩
  rw [← hw.id_eq]
  exact SMap.lookup_put_same _ _ _

theorem commit_refuses (hfree : SMap.lookup s.cfg.pending g = none) (hcode : s.groupCode g ≠ 0) (hfirst : c.groupsDone = []) :
    Does (.commit id) s fun t => t.cfg = s.cfg ∧ t.regs = s.regs ∧ Answers s t c (s.groupCode g) 0 0 := by
  have hcheck : s.checkGroups [g] = ([], s.groupCode g) := by simp [State.checkGroups, hcode]
  have hdone : (s.commitBegun c.id [] (s.groupCode g)).commitDone c.id =
      (s.commitBegun c.id [] (s.groupCode g)).complete c.id (s.groupCode g) 0 0 := by
    rw [State.commitDone, commitBegun_begun hw]
    dsimp only [HostCmd.committing]
    rw [hfirst, if_pos (by exact List.isEmpty_nil)]
    rfl
  have hexec : exec (.commit id) s = .next ((s.commitBegun c.id [] (s.groupCode g)).complete c.id (s.groupCode g) 0 0) := by
    rw [commit_one hw hg hmask, hfree, hcheck]
    exact congrArg Host.Outcome.next ((if_neg Bool.false_ne_true).trans hdone)
  have hanswer := (commitBegun_underway hw [] (s.groupCode g)).answers (s.groupCode_lt g) 0 0
  have hcfg : ((s.commitBegun c.id [] (s.groupCode g)).complete c.id (s.groupCode g) 0 0).cfg =
      (s.commitBegun c.id [] (s.groupCode g)).cfg := by simp
  have hregs : ((s.commitBegun c.id [] (s.groupCode g)).complete c.id (s.groupCode g) 0 0).regs =
      (s.commitBegun c.id [] (s.groupCode g)).regs := by simp
  exact ⟨_, hexec, hcfg.trans rfl, hregs.trans rfl, hanswer⟩

end commit

/-! #### A group takes effect (R648, R651) -/

/-- The value a register takes from its shadow: the read-write-shadow bits change. -/
def fromShadow (k : Nat) (old new : Word) : Word := (old &&& ~~~ regMask k .rws) ||| (new &&& regMask k .rws)

/-- Shadows applied one after another: each register listed once takes its own, the others stay. -/
theorem applyList_reg (l : SMap Word) (hsorted : SMap.sorted l = true) (s : State) (k : Nat) :
    (l.foldl (fun s x => s.setReg x.1 (fromShadow x.1 (s.reg x.1) x.2)) s).reg k =
      match SMap.lookup l k with
      | some v => fromShadow k (s.reg k) v
      | none => s.reg k := by
  induction l generalizing s with
  | nil => rfl
  | cons x l ih =>
    obtain ⟨j, v⟩ := x
    obtain ⟨hlt, htail⟩ := (SMap.sorted_cons _ _).1 hsorted
    rw [List.foldl_cons, ih htail]
    by_cases hk : j = k
    · subst hk
      have hnone : SMap.lookup l j = none := by
        cases h : SMap.lookup l j with
        | none => rfl
        | some w => exact absurd (hlt _ (SMap.mem_of_lookup h)) (Nat.lt_irrefl _)
      rw [hnone, SMap.lookup, if_pos rfl]
      exact s.reg_setReg_same _ _
    · rw [SMap.lookup, if_neg hk, s.reg_setReg_other _ _ _ fun h => hk h.symm]

theorem applyList_keeps (l : SMap Word) (s : State) :
    ∃ rs, l.foldl (fun s x => s.setReg x.1 (fromShadow x.1 (s.reg x.1) x.2)) s = { s with regs := rs } := by
  refine List.foldlRecOn l _ (motive := fun u : State => ∃ rs, u = { s with regs := rs }) ⟨s.regs, rfl⟩ fun u hu x _ => ?_
  obtain ⟨rs, rfl⟩ := hu
  exact ⟨_, rfl⟩

theorem State.applyShadows_applies {s : State} (hsorted : SMap.sorted s.shadow = true) (g : Nat) :
    (∀ k v, SMap.lookup s.shadow k = some v → groupOf k = some g → (s.applyShadows g).reg k = fromShadow k (s.reg k) v) ∧
    (∀ k, groupOf k ≠ some g → (s.applyShadows g).reg k = s.reg k) ∧
    (s.applyShadows g).shadow = s.shadow.filter (fun x => groupOf x.1 ≠ some g) ∧ (s.applyShadows g).cfg = s.cfg := by
  have hreg (k : Nat) := applyList_reg (s.shadow.filter fun x => decide (groupOf x.1 = some g)) (SMap.sorted_filter _ _ hsorted) s k
  obtain ⟨rs, hrs⟩ := applyList_keeps (s.shadow.filter fun x => decide (groupOf x.1 = some g)) s
  have happly : s.applyShadows g = { s with regs := rs, shadow := s.shadow.filter fun x => groupOf x.1 ≠ some g } := by
    have h : s.applyShadows g = { (s.shadow.filter fun x => decide (groupOf x.1 = some g)).foldl
      (fun s x => s.setReg x.1 (fromShadow x.1 (s.reg x.1) x.2)) s with
        shadow := ((s.shadow.filter fun x => decide (groupOf x.1 = some g)).foldl
      (fun s x => s.setReg x.1 (fromShadow x.1 (s.reg x.1) x.2)) s).shadow.filter fun x => groupOf x.1 ≠ some g } := rfl
    rw [h, hrs]
  rw [hrs] at hreg
  have hlookup := SMap.lookup_filter_key (fun k => decide (groupOf k = some g)) s.shadow
  rw [happly]
  refine ⟨fun k v hv hk => ?_, fun k hk => ?_, rfl, rfl⟩
  · have h := hreg k
    rw [hlookup k, decide_eq_true hk, if_pos rfl, hv] at h
    exact h
  · have h := hreg k
    rw [hlookup k, decide_eq_false hk, if_neg Bool.false_ne_true] at h
    exact h

/-- What keeps the old values for work that has begun leaves registers, shadows and commits. -/
theorem State.keepOld_keeps (s : State) (g : Nat) :
    (s.keepOld g).regs = s.regs ∧ (s.keepOld g).shadow = s.shadow ∧ (s.keepOld g).cfg = s.cfg := by
  unfold State.keepOld State.keepCfg
  split <;> exact ⟨rfl, rfl, rfl⟩

theorem State.commitDone_keeps (s : State) (id : Nat) :
    (s.commitDone id).regs = s.regs ∧ (s.commitDone id).shadow = s.shadow ∧ (s.commitDone id).cfg = s.cfg := by
  unfold State.commitDone
  split
  · exact ⟨rfl, rfl, rfl⟩
  · split
    · exact ⟨by simp, by simp, by simp⟩
    · exact ⟨rfl, rfl, rfl⟩

section apply

variable {s : State} (hl : s.live = true) (group : Fin 17) (hpending : (SMap.lookup s.cfg.pending group.val).isSome)
include hl hpending

theorem groupApply_waits (hsafe : s.safePoint group.val = false) : Ignored (.groupApply group) s := by
  obtain ⟨id, hid⟩ := Option.isSome_iff_exists.1 hpending
  have hrun : exec (.groupApply group) s = execGroupApply group s := rfl
  unfold Ignored
  rw [hrun, execGroupApply, gate_live hl]
  dsimp only
  rw [hid]
  dsimp only
  rw [hsafe, Bool.not_false, if_pos rfl]

theorem groupApply_applies (hsafe : s.safePoint group.val = true) (htrail : group.val ≠ 11) (hvocab : group.val ≠ 15)
    (hindex : group.val ≠ 16) (hsorted : SMap.sorted s.shadow = true) : Does (.groupApply group) s fun t =>
      (∀ k v, SMap.lookup s.shadow k = some v → groupOf k = some group.val →
        t.reg k = (s.reg k &&& ~~~ regMask k .rws) ||| (v &&& regMask k .rws)) ∧
      (∀ k, groupOf k ≠ some group.val → t.reg k = s.reg k) ∧ SMap.lookup t.cfg.pending group.val = none ∧
      t.shadow = s.shadow.filter fun x => groupOf x.1 ≠ some group.val := by
  obtain ⟨id, hid⟩ := Option.isSome_iff_exists.1 hpending
  have hrun : exec (.groupApply group) s = execGroupApply group s := rfl
  obtain ⟨hkregs, hkshadow, hkcfg⟩ := s.keepOld_keeps group.val
  have hksorted : SMap.sorted (s.keepOld group.val).shadow = true := by
    rw [hkshadow]
    exact hsorted
  obtain ⟨htake, hkeep, hshadow, hcfg⟩ := State.applyShadows_applies hksorted group.val
  refine ⟨({ (s.keepOld group.val).applyShadows group.val with
    cfg.pending := SMap.erase ((s.keepOld group.val).applyShadows group.val).cfg.pending group.val
    host.cmds := ((s.keepOld group.val).applyShadows group.val).host.cmds.map fun (x : HostCmd) =>
      if x.id = id then { x with groupsLeft := x.groupsLeft.erase group.val, groupsDone := x.groupsDone ++ [group.val] } else x
    } : State).commitDone id, ?_, ?_⟩
  · rw [hrun, execGroupApply, gate_live hl]
    dsimp only
    rw [hid]
    dsimp only
    rw [hsafe, Bool.not_true, if_neg Bool.false_ne_true, if_neg htrail, if_neg hvocab, if_neg hindex]
  · generalize (s.keepOld group.val) = u at *
    generalize u.applyShadows group.val = v at *
    obtain ⟨hdregs, hdshadow, hdcfg⟩ := State.commitDone_keeps ({ v with
      cfg.pending := SMap.erase v.cfg.pending group.val
      host.cmds := v.host.cmds.map fun (x : HostCmd) =>
        if x.id = id then { x with groupsLeft := x.groupsLeft.erase group.val, groupsDone := x.groupsDone ++ [group.val] } else x
      } : State) id
    have hureg : ∀ k, u.reg k = s.reg k := State.reg_of_regs hkregs
    refine ⟨fun k w hk hgroup => ?_, fun k hk => ?_, ?_, ?_⟩
    · rw [State.reg_of_regs hdregs k]
      exact (htake k w (by rw [hkshadow]; exact hk) hgroup).trans (by rw [hureg, fromShadow])
    · rw [State.reg_of_regs hdregs k]
      exact (hkeep k hk).trans (hureg k)
    · rw [hdcfg]
      exact SMap.lookup_erase_same _ _
    · rw [hdshadow]
      exact hshadow.trans (by rw [hkshadow])

end apply

/-- Settles O50: images, commits and the groups' safe points, each by what its command leaves. -/
theorem configuration : Obligations.Configuration := by
  intro s id c
  refine ⟨fun hw dir w w' => ⟨loadImage_unread hw dir w w', fun bs => ⟨loadImage_denied hw dir w w' bs,
      loadImage_over hw dir w w' bs, loadImage_malformed hw dir w w' bs, loadImage_unsigned hw dir w w' bs,
      fun hmay hfirst hformat hsign => ⟨loadImage_logFull hw dir w w' bs hmay hfirst hformat hsign,
        fun u e => loadImage_disagrees hw dir w w' bs hmay hfirst hformat hsign,
        fun u v => loadImage_full hw dir w w' bs hmay hfirst hformat hsign,
        fun u v => loadImage_delta hw dir w w' bs hmay hfirst hformat hsign⟩⟩⟩,
    fun hw => ⟨commit_outOfRange hw, fun g hg hmask => ⟨commit_busy hw hg hmask, commit_waits hw hg hmask,
      commit_refuses hw hg hmask⟩⟩,
    fun group hl hpending => ⟨groupApply_waits hl group hpending, groupApply_applies hl group hpending⟩⟩

end Sys2Proof.Machine
end

section
/-! ### Session transfers: the giver, reservations (R543, R544, R546) -/

namespace Sys2Proof.Machine

open Sys2Proof

/-! #### RoCE messages (R541) -/

/-- A RoCE message changes what was sent and the count of frames alone. -/
theorem State.roceTo_keeps (s : State) (peer : Nat) (m : RoceMsg) :
    ∃ o rs, s.roceTo peer m = { s with out := o, regs := rs } ∧ s.out <+: o ∧
      ∀ k, k ≠ Reg.netCnt 2 → ({ s with regs := rs } : State).reg k = s.reg k := by
  unfold State.roceTo State.netSend
  split
  · exact ⟨s.out, s.regs, rfl, List.prefix_refl _, fun _ _ => rfl⟩
  · exact ⟨_, _, rfl, List.prefix_append _ _, fun k hk => s.reg_setReg_other _ _ _ hk⟩

theorem State.reg_roceTo (s : State) (peer : Nat) (m : RoceMsg) {k : Nat} (hk : k ≠ Reg.netCnt 2) :
    (s.roceTo peer m).reg k = s.reg k := by
  obtain ⟨o, rs, h, -, hreg⟩ := s.roceTo_keeps peer m
  rw [h]
  exact hreg k hk

@[simp] theorem State.roceTo_frame (s : State) (peer : Nat) (m : RoceMsg) :
    (s.roceTo peer m).now = s.now ∧ (s.roceTo peer m).mem = s.mem ∧ (s.roceTo peer m).plat = s.plat ∧
    (s.roceTo peer m).host = s.host ∧ (s.roceTo peer m).tsm = s.tsm ∧ (s.roceTo peer m).hmp = s.hmp ∧
    (s.roceTo peer m).kvs = s.kvs ∧ (s.roceTo peer m).comp = s.comp ∧ (s.roceTo peer m).fw = s.fw ∧
    (s.roceTo peer m).snp = s.snp ∧ (s.roceTo peer m).net = s.net := by
  obtain ⟨o, rs, h, -, -⟩ := s.roceTo_keeps peer m
  rw [h]
  exact ⟨rfl, rfl, rfl, rfl, rfl, rfl, rfl, rfl, rfl, rfl, rfl⟩

theorem State.out_prefix_roceTo (s : State) (peer : Nat) (m : RoceMsg) : s.out <+: (s.roceTo peer m).out := by
  obtain ⟨o, rs, h, hout, -⟩ := s.roceTo_keeps peer m
  rw [h]
  exact hout

theorem sendMsgs_keeps (peer : Nat) (ms : List RoceMsg) (s : State) :
    (sendMsgs peer ms s).net = s.net ∧ ∀ k, k ≠ Reg.netCnt 2 → (sendMsgs peer ms s).reg k = s.reg k :=
  List.foldlRecOn ms _ (motive := fun u : State => u.net = s.net ∧ ∀ k, k ≠ Reg.netCnt 2 → u.reg k = s.reg k)
    ⟨rfl, fun _ _ => rfl⟩ fun u hu m _ => ⟨by rw [(u.roceTo_frame peer m).2.2.2.2.2.2.2.2.2.2, hu.1],
      fun k hk => (u.reg_roceTo peer m hk).trans (hu.2 k hk)⟩

/-- What a transfer sends stays unacknowledged until its peer answers. -/
theorem State.roceSend_queues (s : State) (peer id : Nat) (ms : List RoceMsg) :
    (s.roceSend peer id ms).net.outs = s.net.outs ∧ (s.roceSend peer id ms).net.nextXfer = s.net.nextXfer ∧
    ((s.roceSend peer id ms).qpair peer).unacked = (s.qpair peer).unacked ++ ms.map (fun m => (id, m)) ∧
    ∀ k, k ≠ Reg.netCnt 2 → (s.roceSend peer id ms).reg k = s.reg k := by
  let q : QueuePair := { s.qpair peer with unacked := (s.qpair peer).unacked ++ ms.map fun m => (id, m), sentNs := s.now }
  obtain ⟨hsent, hreg⟩ := sendMsgs_keeps peer ms (s.setQpair peer q)
  have hsend : s.roceSend peer id ms = sendMsgs peer ms (s.setQpair peer q) := rfl
  rw [hsend]
  refine ⟨by rw [hsent]; rfl, by rw [hsent]; rfl, ?_, fun k hk => hreg k hk⟩
  rw [State.qpair, hsent]
  exact congrArg QueuePair.unacked (SMap.get_put_same {} s.net.qps peer q)

/-! #### The giver's answers (R544) -/

/-- Giving back the page list of a transfer touches neither queues nor transfers. -/
theorem State.freeList_keeps (s : State) (page q : Nat) :
    s.SamePort (s.freeList page) q ∧ (s.freeList page).net.outs = s.net.outs ∧ (s.freeList page).net.qps = s.net.qps := by
  unfold State.freeList
  split
  next => exact ⟨⟨rfl, rfl, rfl⟩, rfl, rfl⟩
  next x _ =>
    refine List.foldlRecOn _ _ (motive := fun u : State => s.SamePort u q ∧ u.net.outs = s.net.outs ∧ u.net.qps = s.net.qps)
      ⟨⟨rfl, rfl, rfl⟩, rfl, rfl⟩ fun u hu p _ => ?_
    obtain ⟨hport, houts, hqps⟩ := hu
    dsimp only
    split
    · exact ⟨hport.trans ⟨rfl, rfl, rfl⟩, houts, hqps⟩
    · exact ⟨hport, houts, hqps⟩

theorem State.xferDone_answers {s : State} (it : Item) {code : Nat} (hcode : code ≠ 0) :
    (s.xferDone it code).net.outs = s.net.outs ∧ (s.xferDone it code).net.qps = s.net.qps ∧
    Posts s (s.xferDone it code) (bits it.w6 40 32) (xferAnswer it code 0) (bits it.w6 11 0) := by
  obtain ⟨hport, houts, hqps⟩ := s.freeList_keeps (it.w4.toNat / 65536) (bits it.w6 40 32)
  have hdone : s.xferDone it code = (s.freeList (it.w4.toNat / 65536)).post (bits it.w6 40 32) (xferAnswer it code 0)
      (bits it.w6 11 0) := by
    rw [State.xferDone, if_neg hcode]
    rfl
  have hpost := State.posts_post (s.freeList (it.w4.toNat / 65536)) (bits_lt it.w6 40 32) (xferAnswer it code 0) (bits it.w6 11 0)
  rw [hdone]
  exact ⟨by simpa using houts, by simpa using hqps, hpost.of_samePort hport⟩

/-- A transfer is under way: its SEND and its pages go out under a number of their own (R544). -/
def State.startXfer (s : State) (it : Item) (ms : List RoceMsg) : State :=
  ({ s with
      net.outs := s.net.outs ++ [XferOut.mk s.net.nextXfer (bits it.w2 63 54) it]
      net.nextXfer := s.net.nextXfer + 1 } : State).roceSend (bits it.w2 63 54) s.net.nextXfer
    (.hello (s.helloOf (hSlot it.w0) it) :: ms)

theorem State.startXfer_queues (s : State) (it : Item) (ms : List RoceMsg) :
    (s.startXfer it ms).net.outs = s.net.outs ++ [⟨s.net.nextXfer, bits it.w2 63 54, it⟩] ∧
    (s.startXfer it ms).net.nextXfer = s.net.nextXfer + 1 ∧
    ((s.startXfer it ms).qpair (bits it.w2 63 54)).unacked = (s.qpair (bits it.w2 63 54)).unacked ++
      (RoceMsg.hello (s.helloOf (hSlot it.w0) it) :: ms).map (fun m => (s.net.nextXfer, m)) ∧
    ∀ k, k ≠ Reg.netCnt 2 → (s.startXfer it ms).reg k = s.reg k :=
  State.roceSend_queues _ _ _ _

section giver

variable {s : State} (hl : s.live = true) (it : Item) (hepoch : tagEpoch it.w1 = s.comp.map.epoch)
include hl hepoch

theorem transferItem_unitFailed (hfailed : s.unitFailed 1 = true) : Does (.transferItem it) s fun t =>
    t.net.outs = s.net.outs ∧ t.net.qps = s.net.qps ∧
      Posts s t (bits it.w6 40 32) (xferAnswer it Code.unitFailed 0) (bits it.w6 11 0) := by
  have hexec : exec (.transferItem it) s = .next ((s.begin_ 8 it).xferDone it Code.unitFailed) := by
    have hrun : exec (.transferItem it) s = execTransferItem it s := rfl
    rw [hrun, execTransferItem, gate_live hl, State.byMap_of_current (s := s.begin_ 8 it) hepoch]
    dsimp only
    rw [if_pos (by exact hfailed)]
  obtain ⟨houts, hqps, hposts⟩ := (s.begin_ 8 it).xferDone_answers it (code := Code.unitFailed) (by decide)
  exact ⟨_, hexec, houts, hqps, hposts.of_samePort (s.begin_samePort _ _ _)⟩

variable (hup : s.unitFailed 1 = false)
include hup

theorem transferItem_stale (hcode : s.handleCode it.w0 ≠ 0) : Does (.transferItem it) s fun t =>
    t.net.outs = s.net.outs ∧ t.net.qps = s.net.qps ∧
      Posts s t (bits it.w6 40 32) (xferAnswer it (s.handleCode it.w0) 0) (bits it.w6 11 0) := by
  have hexec : exec (.transferItem it) s =
      .next (((s.begin_ 8 it).noteStale (s.handleCode it.w0)).xferDone it (s.handleCode it.w0)) := by
    have hrun : exec (.transferItem it) s = execTransferItem it s := rfl
    rw [hrun, execTransferItem, gate_live hl, State.byMap_of_current (s := s.begin_ 8 it) hepoch]
    dsimp only
    rw [if_neg (by exact ne_true_of_eq_false hup), if_pos (by exact hcode)]
    rfl
  have hport : (s.begin_ 8 it).SamePort ((s.begin_ 8 it).noteStale (s.handleCode it.w0)) (bits it.w6 40 32) :=
    State.SamePort.iff (State.SamePort.bumpBy _ (by decide) (bits_lt it.w6 40 32) 1) _
  have hnet : ((s.begin_ 8 it).noteStale (s.handleCode it.w0)).net = s.net := by
    simp only [State.noteStale_frame]
    rfl
  obtain ⟨houts, hqps, hposts⟩ := ((s.begin_ 8 it).noteStale (s.handleCode it.w0)).xferDone_answers it hcode
  exact ⟨_, hexec, by rw [houts, hnet], by rw [hqps, hnet], (hposts.of_samePort hport).of_samePort (s.begin_samePort _ _ _)⟩

variable (hcode : s.handleCode it.w0 = 0)
include hcode

theorem transferItem_unknown (hpeer : s.peerKnown (bits it.w2 63 54) = false) : Does (.transferItem it) s fun t =>
    t.net.outs = s.net.outs ∧ t.net.qps = s.net.qps ∧
      Posts s t (bits it.w6 40 32) (xferAnswer it Code.xferPeer 0) (bits it.w6 11 0) := by
  have hpeer' : (s.begin_ 8 it).peerKnown (bits it.w2 63 54) = false := hpeer
  have hexec : exec (.transferItem it) s = .next ((s.begin_ 8 it).xferDone it Code.xferPeer) := by
    have hrun : exec (.transferItem it) s = execTransferItem it s := rfl
    rw [hrun, execTransferItem, gate_live hl, State.byMap_of_current (s := s.begin_ 8 it) hepoch]
    dsimp only
    rw [if_neg (by exact ne_true_of_eq_false hup), if_neg (by exact not_not.2 hcode), hpeer', Bool.not_false, if_pos rfl]
  obtain ⟨houts, hqps, hposts⟩ := (s.begin_ 8 it).xferDone_answers it (code := Code.xferPeer) (by decide)
  exact ⟨_, hexec, houts, hqps, hposts.of_samePort (s.begin_samePort _ _ _)⟩

theorem transferItem_sends (hpeer : s.peerKnown (bits it.w2 63 54) = true) {bs : List Byte} {u v : State} {ms : List RoceMsg}
    (hlist : (s.begin_ 8 it).getBytes netCache it.w4.toNat (8 * bits it.w3 63 32) = (.ok bs, u))
    (hpages : streamPages 0 ((List.range (bits it.w3 63 32)).map fun i => (bytesWord (bs.drop (8 * i))).toNat) u = (.ok ms, v)) :
    Does (.transferItem it) s fun t =>
      t.net.outs = v.net.outs ++ [⟨v.net.nextXfer, bits it.w2 63 54, it⟩] ∧ t.net.nextXfer = v.net.nextXfer + 1 ∧
      t.reg (Reg.netCnt 6) = v.reg (Reg.netCnt 6) + BitVec.ofNat 64 (bits it.w3 63 32) ∧
      (t.qpair (bits it.w2 63 54)).unacked = (v.qpair (bits it.w2 63 54)).unacked ++
        (RoceMsg.hello (v.helloOf (hSlot it.w0) it) :: ms).map fun m => (v.net.nextXfer, m) := by
  have hpeer' : (s.begin_ 8 it).peerKnown (bits it.w2 63 54) = true := hpeer
  have hexec : exec (.transferItem it) s = .next ((v.startXfer it ms).bumpBy (Reg.netCnt 6) (bits it.w3 63 32)) := by
    have hrun : exec (.transferItem it) s = execTransferItem it s := rfl
    rw [hrun, execTransferItem, gate_live hl, State.byMap_of_current (s := s.begin_ 8 it) hepoch]
    dsimp only
    rw [if_neg (by exact ne_true_of_eq_false hup), if_neg (by exact not_not.2 hcode), hpeer', Bool.not_true,
      if_neg Bool.false_ne_true, hlist]
    dsimp only
    rw [hpages]
    rfl
  obtain ⟨houts, hnext, hunacked, hreg⟩ := v.startXfer_queues it ms
  exact ⟨_, hexec, houts, hnext, (State.reg_bumpBy_same _ _ _).trans (congrArg (· + _) (hreg _ (by decide))), hunacked⟩

end giver

/-! #### A grammar is left without a word of the session directory -/

/-- The byte at a state address belongs to the session directory. -/
def State.inDirectory (s : State) (a : Nat) : Bool :=
  s.hmp.dirBase ≠ 0 && s.hmp.dirBase ≤ a && a < s.hmp.dirBase + 32 * 2 ^ 22

theorem State.tabRef_ne_dir {s : State} {a : Nat} (h : s.inDirectory a = false) (n k : Nat) : s.tabRef a ≠ some (.dir n, k) := by
  have htable (d off : Nat) : s.tableRef d off ≠ some (.dir n, k) := by
    unfold State.tableRef
    dsimp only
    repeat' split
    all_goals simp
  have hslot (slot : Nat) : s.slotRef slot a ≠ some (.dir n, k) := by
    unfold State.slotRef
    dsimp only
    split_ifs <;> simp
  unfold State.tabRef
  dsimp only
  rw [if_neg (by exact ne_true_of_eq_false h)]
  split
  · simp
  · split
    · simp
    · split
      · exact htable _ _
      · intro hsome
        obtain ⟨_, slot, _, _, hsome, -⟩ := List.findSome?_eq_some_iff.1 hsome
        exact hslot slot hsome

theorem State.setVbyte_dir {s : State} {a : Nat} (h : s.inDirectory a = false) (b : Byte) : (s.setVbyte a b).hmp.dir = s.hmp.dir := by
  unfold State.setVbyte
  split
  next r i hr =>
    cases r with
    | dir n => exact absurd hr (s.tabRef_ne_dir h n i)
    | req n =>
      unfold State.putTab State.putReqWords
      dsimp only
      split <;> rfl
    | hdr n => rfl
    | log n j => rfl
    | span n j => rfl
    | side n j b => rfl
    | dirTab d j => rfl
    | leaf p => rfl
  next => rfl

theorem State.TablesOnly.inDirectory {s t : State} (h : s.TablesOnly t) (a : Nat) : t.inDirectory a = s.inDirectory a := by
  obtain ⟨_, _, _, _, _, _, _, _, rfl⟩ := h
  rfl

theorem State.setVbytes_dir {s : State} {a : Nat} {bs : List Byte} (h : ∀ i < bs.length, s.inDirectory (a + i) = false) :
    (s.setVbytes a bs).hmp.dir = s.hmp.dir := by
  unfold State.setVbytes
  split
  · refine (List.foldlRecOn bs.zipIdx _ (motive := fun u : State => s.TablesOnly u ∧ u.hmp.dir = s.hmp.dir) ⟨.refl s, rfl⟩
      fun u hu x hx => ?_).2
    obtain ⟨hu, hdir⟩ := hu
    have hi : x.2 < bs.length := by
      have := List.mem_zipIdx hx
      omega
    exact ⟨hu.trans (u.tablesOnly_setVbyte _ _),
      (State.setVbyte_dir ((hu.inDirectory _).trans (h _ hi)) _).trans hdir⟩
  · rfl

theorem State.setTabWord_dir {s : State} {a : Nat} (h : ∀ i < 8, s.inDirectory (a + i) = false) (w : Word) :
    (s.setTabWord a w).hmp.dir = s.hmp.dir := by
  unfold State.setTabWord
  split
  · split
    · exact State.setVbytes_dir fun i hi => h i (by rwa [length_leBytes] at hi)
    · rfl
  · rfl

/-- No companion stands beside a hamper, and the directory entry of its grammar lies outside the session directory. -/
structure State.Aside (s : State) (slot : Nat) : Prop where
  single : SMap.lookup s.fw.companions slot = none
  gram : ∀ n p, (s.hdr slot).gram = some (n, p) → ∀ i < 16, s.inDirectory (s.gramAt n + i) = false

theorem State.Alone.aside {s : State} {slot : Nat} (h : s.Alone slot) : s.Aside slot := by
  refine ⟨h.1, fun n p hgram i hi => ?_⟩
  have htab := h.2 n p hgram
  have hpage : s.gramAt n / 65536 * 65536 ≤ s.gramAt n ∧ s.gramAt n + 16 ≤ s.gramAt n / 65536 * 65536 + 65536 := by
    unfold State.gramAt
    omega
  cases hin : s.inDirectory (s.gramAt n + i) with
  | false => rfl
  | true =>
    unfold State.inDirectory at hin
    simp only [Bool.and_eq_true, decide_eq_true_eq] at hin
    obtain ⟨⟨hbase, hlo⟩, hhi⟩ := hin
    unfold State.tabled at htab
    dsimp only at htab
    simp only [Bool.or_eq_false_iff, Bool.and_eq_false_iff, decide_eq_false_iff_not] at htab
    obtain ⟨⟨⟨⟨hdir, -⟩, -⟩, -⟩, -⟩ := htab
    omega

theorem State.Aside.congr {s t : State} {slot : Nat} (h : s.Aside slot) (hhmp : t.hmp = s.hmp) (hfw : t.fw = s.fw)
    (hreg : t.reg Reg.txtGrammar = s.reg Reg.txtGrammar) : t.Aside slot := by
  have hat (n : Nat) : t.gramAt n = s.gramAt n := by
    rw [State.gramAt, State.field, hreg, State.gramAt, State.field]
  refine ⟨hfw ▸ h.single, fun n p hgram i hi => ?_⟩
  rw [hat, State.inDirectory, hhmp]
  exact h.gram n p (by rwa [State.hdr, hhmp] at hgram) i hi

theorem State.closeGrammar_dir {s : State} {slot : Nat} (h : s.Aside slot) : (s.closeGrammar slot).hmp.dir = s.hmp.dir := by
  unfold State.closeGrammar
  split
  · rfl
  next n p hgram =>
    have hfirst : ∀ i < 8, s.inDirectory (s.gramAt n + i) = false := fun i hi => h.gram n p hgram i (by omega)
    have hsecond : ∀ i < 8, s.inDirectory (s.gramAt n + 8 + i) = false := fun i hi => by
      rw [Nat.add_assoc]
      exact h.gram n p hgram (8 + i) (by omega)
    have htab := s.tablesOnly_setTabWord (s.gramAt n) (BitVec.ofNat 64 (s.gramEntry n).addr)
    have hdir := State.setTabWord_dir hfirst (BitVec.ofNat 64 (s.gramEntry n).addr)
    unfold State.setGramEntry
    dsimp only
    generalize s.setTabWord (s.gramAt n) (BitVec.ofNat 64 (s.gramEntry n).addr) = u at *
    exact (State.setTabWord_dir (fun i hi => (htab.inDirectory _).trans (hsecond i hi)) _).trans hdir

/-- A taking that ends leaves its slot FREE and every other slot as it is. -/
theorem State.Aside.dropTake {s : State} {slot : Nat} (h : s.Aside slot) :
    ((s.dropTake slot).dir slot).state = .free ∧ OtherDirs s (s.dropTake slot) slot := by
  unfold State.dropTake
  split
  · have hdir : ((s.closeGrammar slot).releaseText slot).hmp.dir = s.hmp.dir := State.closeGrammar_dir h
    have hsingle : SMap.lookup ((s.closeGrammar slot).releaseText slot).fw.companions slot = none := by
      obtain ⟨_, _, _, _, _, _, _, _, hclose⟩ := s.tablesOnly_closeGrammar slot
      rw [hclose]
      exact h.single
    have hfreed := State.toFree_freed hsingle
    have hfollow (n : Nat) : (s.freeAll slot none 0 0).dir n = (((s.closeGrammar slot).releaseText slot).toFree slot).dir n := by
      unfold State.freeAll
      rw [State.dir_follow]
      rfl
    refine ⟨by rw [hfollow]; exact hfreed.state, fun n hn => ?_⟩
    rw [hfollow, hfreed.otherDirs n hn, State.dir, hdir, State.dir]
  · have hfreed := State.toFree_freed h.single
    exact ⟨hfreed.state, hfreed.otherDirs⟩

/-! #### Reservations (R546) -/

theorem reserveItem_reserves {s : State} (hl : s.live = true) (handle origin : Word) (hfree : (s.dir (hSlot handle)).state = .free) :
    Does (.reserveItem handle origin) s fun t =>
      (t.dir (hSlot handle)).state = .taking ∧ (t.dir (hSlot handle)).kind = .shard ∧ (t.dir (hSlot handle)).gen = hGen handle ∧
      (t.hdr (hSlot handle)).handle = handle ∧ (t.hdr (hSlot handle)).origin = origin ∧ OtherDirs s t (hSlot handle) ∧
      ∃ x, SMap.lookup t.hmp.takes (hSlot handle) = some x ∧ x.sinceNs = s.now ∧ x.waiting = [s.self] := by
  refine does_of_gate rfl hl (by exact if_neg (not_not.2 hfree)) ?_
  have hdir : ((s.setDir (hSlot handle) { gen := hGen handle, state := .taking, kind := .shard, lastNs := s.now }).setHdr (hSlot handle)
      { handle := handle, origin := origin }).dir (hSlot handle) = { gen := hGen handle, state := .taking, kind := .shard, lastNs := s.now } :=
    SMap.get_set_same _ _ _ _
  have hhdr : ((s.setDir (hSlot handle) { gen := hGen handle, state := .taking, kind := .shard, lastNs := s.now }).setHdr (hSlot handle)
      { handle := handle, origin := origin }).hdr (hSlot handle) = { handle := handle, origin := origin } := SMap.get_set_same _ _ _ _
  exact ⟨congrArg DirEnt.state hdir, congrArg DirEnt.kind hdir, congrArg DirEnt.gen hdir, congrArg Header.handle hhdr,
    congrArg Header.origin hhdr, fun n hn => SMap.get_set_other _ _ _ _ _ _ hn, _, SMap.lookup_put_same _ _ _, rfl, rfl⟩

section timeout

variable {s : State} (hl : s.live = true) {slot : Nat} (dropped : Bool) {x : Take} (hx : SMap.lookup s.hmp.takes slot = some x)
include hl hx

theorem reservationTimeout_runs : exec (.reservationTimeout slot dropped) s =
    .next (if s.now < x.sinceNs + s.custodyTimeout || (s.dir slot).state ≠ .taking then s
      else if x.waiting.isEmpty && !((s.dir slot).kind = .shard && dropped) then s
      else { s.dropTake slot with net.ins := s.net.ins.filter fun x => x.2.slot ≠ slot }) := by
  have hrun : exec (.reservationTimeout slot dropped) s = execReservationTimeout slot dropped s := rfl
  rw [hrun, execReservationTimeout, gate_live hl]
  dsimp only
  rw [hx]

theorem reservationTimeout_early (h : s.now < x.sinceNs + s.custodyTimeout) : Ignored (.reservationTimeout slot dropped) s := by
  unfold Ignored
  rw [reservationTimeout_runs hl dropped hx, if_pos (by simp [h])]

variable (hdue : x.sinceNs + s.custodyTimeout ≤ s.now) (htaking : (s.dir slot).state = .taking)
include hdue htaking

theorem reservationTimeout_arrived (hall : x.waiting = []) (hkept : dropped = false ∨ (s.dir slot).kind ≠ .shard) :
    Ignored (.reservationTimeout slot dropped) s := by
  have hkeep : (!(decide ((s.dir slot).kind = .shard) && dropped)) = true := by
    rcases hkept with h | h
    · simp [h]
    · simp [h]
  unfold Ignored
  rw [reservationTimeout_runs hl dropped hx, if_neg (by simp [htaking, hdue]), if_pos (by rw [hall, hkeep]; rfl)]

theorem reservationTimeout_frees (halone : s.Alone slot)
    (hlost : x.waiting ≠ [] ∨ ((s.dir slot).kind = .shard ∧ dropped = true)) :
    Does (.reservationTimeout slot dropped) s fun t =>
      (t.dir slot).state = .free ∧ OtherDirs s t slot ∧ ∀ y ∈ t.net.ins, y.2.slot ≠ slot := by
  have hdrop : ¬(x.waiting.isEmpty && !(decide ((s.dir slot).kind = .shard) && dropped)) = true := by
    rcases hlost with h | ⟨hk, hd⟩
    · simp [h]
    · simp [hk, hd]
  obtain ⟨hstate, hothers⟩ := halone.aside.dropTake
  refine ⟨{ s.dropTake slot with net.ins := s.net.ins.filter fun x => x.2.slot ≠ slot }, ?_, hstate, hothers, fun y hy => ?_⟩
  · rw [reservationTimeout_runs hl dropped hx, if_neg (by simp [htaking, hdue]), if_neg hdrop]
  · simpa using (List.mem_filter.1 (show y ∈ s.net.ins.filter fun x => x.2.slot ≠ slot from hy)).2

end timeout

/-! #### The taker's answer at the giver's home (R546 step 4) -/

/-- Each peer has a ring position below the number of modules. -/
theorem State.peer_position {s : State} {m : Nat} (hm : m ∈ s.peers) :
    ∃ p, ((List.range s.comp.map.modules).find? fun k => s.comp.map.peers.getD k 0 = m) = some p ∧ s.comp.map.peers.getD p 0 = m := by
  have htake : m ∈ s.comp.map.peers.take s.comp.map.modules := (List.mem_filter.1 hm).1
  obtain ⟨i, hi, hget⟩ := List.mem_iff_getElem.1 htake
  rw [List.length_take] at hi
  rw [List.getElem_take] at hget
  have hat : s.comp.map.peers.getD i 0 = m := by
    rw [List.getD_eq_getElem _ _ (by omega), hget]
  have hsome : ((List.range s.comp.map.modules).find? fun k => s.comp.map.peers.getD k 0 = m).isSome := by
    rw [List.find?_isSome]
    exact ⟨i, List.mem_range.2 (by omega), by simpa using hat⟩
  obtain ⟨p, hp⟩ := Option.isSome_iff_exists.1 hsome
  exact ⟨p, hp, by simpa using List.find?_some hp⟩

/-- Sends one after another, each computed from what sending leaves: every message is there. -/
theorem mem_out_sends (ps : List Nat) (cls : Nat) (f : Comp → Nat → Msg) : ∀ (s : State) (m : Nat), m ∈ ps →
    Out.toModule m cls (f s.comp m) ∈ (ps.foldl (fun s m => s.send m cls (f s.comp m)) s).out := by
  have hprefix : ∀ (qs : List Nat) (u : State), u.out <+: (qs.foldl (fun s m => s.send m cls (f s.comp m)) u).out := by
    intro qs
    induction qs with
    | nil => exact fun u => List.prefix_refl _
    | cons q qs ih => exact fun u => (u.out_prefix_send q cls _).trans (ih _)
  induction ps with
  | nil => exact fun s m hm => absurd hm List.not_mem_nil
  | cons q qs ih =>
    intro s m hm
    rw [List.foldl_cons]
    rcases List.mem_cons.1 hm with rfl | hm
    · exact (hprefix qs _).subset (s.mem_out_send m cls _)
    · have hcomp : (s.send q cls (f s.comp q)).comp = s.comp := by simp
      have h := ih (s.send q cls (f s.comp q)) m hm
      rwa [hcomp] at h

/-- Where a giver's module stands for the taker: its number by its ring position (log entry 96). -/
def shardTarget (handle w : Word) (c : Comp) (m : Nat) : Msg :=
  .share w (.transfer ((hModule handle + ((List.range c.map.modules).find? fun k => c.map.peers.getD k 0 = m).getD 0 -
    c.map.ringPos) % 1024) handle)

theorem State.startShards_eq (s : State) (slot : Nat) (handle : Word) :
    s.startShards slot handle = s.peers.foldl (fun u m => u.send m 7 (shardTarget handle (s.hdr slot).handle u.comp m)) s := rfl

theorem reserveAnswer_tells {s : State} (hl : s.live = true) (hup : s.unitFailed 1 = false) (peer : Nat) (origin handle : Word)
    {slot : Nat} (hslot : s.slotOfOrigin origin = some slot) (hgiving : (s.dir slot).state = .giving) :
    Does (.reserveAnswer peer origin handle) s fun t => SMap.lookup t.net.answers slot = some handle ∧
      ∀ m ∈ s.peers, ∃ p, s.comp.map.peers.getD p 0 = m ∧ Out.toModule m 7 (.share (s.hdr slot).handle
        (.transfer ((hModule handle + p - s.comp.map.ringPos) % 1024) handle)) ∈ t.out := by
  let u : State := { s with net.answers := SMap.put s.net.answers slot handle }
  have hexec : exec (.reserveAnswer peer origin handle) s = .next ((u.roceTo peer (.ack 1)).startShards slot handle) := by
    have hrun : exec (.reserveAnswer peer origin handle) s = execReserveAnswer peer origin handle s := rfl
    rw [hrun, execReserveAnswer, netGate, gate_live hl]
    dsimp only
    rw [hup, if_neg Bool.false_ne_true, hslot]
    dsimp only
    rw [if_neg (not_not.2 hgiving)]
  refine ⟨_, hexec, ?_⟩
  have hframe := u.roceTo_frame peer (.ack 1)
  obtain ⟨-, -, -, -, -, hhmp, -, hcomp, -, -, hnet⟩ := hframe
  generalize u.roceTo peer (.ack 1) = v at *
  have hpeers : v.peers = s.peers := by
    rw [State.peers, State.self, hcomp, State.peers, State.self]
  have hhdr : v.hdr slot = s.hdr slot := by
    rw [State.hdr, hhmp, State.hdr]
  rw [State.startShards_eq, hpeers, hhdr]
  refine ⟨?_, fun m hm => ?_⟩
  · have hkeep : (s.peers.foldl (fun u m => u.send m 7 (shardTarget handle (s.hdr slot).handle u.comp m)) v).net = v.net :=
      List.foldlRecOn s.peers _ (motive := fun u : State => u.net = v.net) rfl fun u hu m _ => by simpa using hu
    rw [hkeep, hnet]
    exact SMap.lookup_put_same _ _ _
  · obtain ⟨p, hfind, hat⟩ := State.peer_position hm
    have hsent := mem_out_sends s.peers 7 (shardTarget handle (s.hdr slot).handle) v m hm
    rw [hcomp, shardTarget, hfind] at hsent
    exact ⟨p, hat, hsent⟩

end Sys2Proof.Machine
end

section
/-! ### Session transfers: the taker (R545, R546) -/

namespace Sys2Proof.Machine

open Sys2Proof

/-! #### Failures (R545) -/

theorem State.failTake_frees {s : State} {slot : Nat}
    (h : ((s.dropTake slot).dir slot).state = .free ∧ OtherDirs s (s.dropTake slot) slot) (peer code : Nat) :
    ((s.failTake peer slot code).dir slot).state = .free ∧ SMap.lookup (s.failTake peer slot code).net.ins peer = none ∧
    OtherDirs s (s.failTake peer slot code) slot := by
  have hdir (n : Nat) : (s.failTake peer slot code).dir n = (s.dropTake slot).dir n := by
    unfold State.failTake State.dir
    simp only [State.event_frame]
  refine ⟨by rw [hdir]; exact h.1, ?_, fun n hn => (hdir n).trans (h.2 n hn)⟩
  unfold State.failTake
  simp only [State.event_frame]
  exact SMap.lookup_erase_same _ _

theorem State.refuseXfer_keeps (s : State) (h : XferHello) (code : Nat) :
    (s.refuseXfer h code).hmp = s.hmp ∧ (s.refuseXfer h code).net = s.net := by
  unfold State.refuseXfer
  simp only [State.event_frame, and_self]

/-! #### A SEND at the taker (R545, R546) -/

theorem State.seeOrigin_keeps (s : State) (o : Word) (seen : Option PoolRec) : ∃ m, s.seeOrigin o seen = { s with mem := m } := by
  unfold State.seeOrigin
  split
  · exact ⟨s.mem, rfl⟩
  · split
    · exact ⟨s.mem, rfl⟩
    · split
      · exact ⟨_, rfl⟩
      · exact ⟨_, rfl⟩
      · exact ⟨s.mem, rfl⟩

theorem State.dir_of_hmp {s t : State} (h : t.hmp = s.hmp) (n : Nat) : t.dir n = s.dir n := State.dir_congr (congrArg Hmp.dir h) n

theorem State.freeSlot_congr {s t : State} (hhmp : t.hmp = s.hmp) (hreg : t.reg Reg.hmpDirRange = s.reg Reg.hmpDirRange) :
    t.freeSlot = s.freeSlot := by
  have hdir : t.dir = s.dir := funext (State.dir_of_hmp hhmp)
  have hbusy : t.busy = s.busy := funext fun n => by rw [State.busy, hhmp, State.busy]
  unfold State.freeSlot State.field
  rw [hreg, hdir, hbusy, hhmp]

/-- What the taker reads of the pool, and its acknowledgement, leave. -/
theorem State.greeted_keeps (s : State) (peer : Nat) (m : RoceMsg) (o : Word) (seen : Option PoolRec) :
    ((s.roceTo peer m).seeOrigin o seen).hmp = s.hmp ∧ ((s.roceTo peer m).seeOrigin o seen).net = s.net ∧
    ((s.roceTo peer m).seeOrigin o seen).fw = s.fw ∧ ((s.roceTo peer m).seeOrigin o seen).comp = s.comp ∧
    ((s.roceTo peer m).seeOrigin o seen).now = s.now ∧
    ∀ k, k ≠ Reg.netCnt 2 → ((s.roceTo peer m).seeOrigin o seen).reg k = s.reg k := by
  obtain ⟨c, hc⟩ := (s.roceTo peer m).seeOrigin_keeps o seen
  rw [hc]
  refine ⟨?_, ?_, ?_, ?_, ?_, fun k hk => s.reg_roceTo peer m hk⟩ <;> dsimp only <;> simp only [State.roceTo_frame]

theorem State.mem_out_sendAll {s : State} {m : Nat} (hm : m ∈ s.peers) (cls : Nat) (x : Msg) :
    Out.toModule m cls x ∈ (s.sendAll cls x).out :=
  mem_out_sends s.peers cls (fun _ _ => x) s m hm

/-- A SEND that is refused leaves the directory and the transfers in progress. -/
theorem refusedXfer_keeps {s : State} (peer : Nat) (h : XferHello) (seen : Option PoolRec) {code : Nat}
    (hexec : exec (.transferSendRx peer h seen) s =
      .next (((s.roceTo peer (.ack 1)).seeOrigin h.origin seen).refuseXfer h code)) :
    Does (.transferSendRx peer h seen) s fun t => t.hmp.dir = s.hmp.dir ∧ t.net.ins = s.net.ins := by
  obtain ⟨hhmp, hnet, -⟩ := s.greeted_keeps peer (.ack 1) h.origin seen
  obtain ⟨hhmp', hnet'⟩ := ((s.roceTo peer (.ack 1)).seeOrigin h.origin seen).refuseXfer_keeps h code
  exact ⟨_, hexec, by rw [hhmp', hhmp], by rw [hnet', hnet]⟩

section hello

variable {s : State} (hl : s.live = true) (hup : s.unitFailed 1 = false) (hawake : s.plat.parkedSince = none) (peer : Nat)
  (h : XferHello) (seen : Option PoolRec) {v : State} (hv : v = (s.roceTo peer (.ack 1)).seeOrigin h.origin seen)
include hl hup hawake hv

theorem transferSendRx_noRecord {code : Nat} (hrec : v.recOf h.origin = .error code) :
    exec (.transferSendRx peer h seen) s = .next (v.refuseXfer h code) := by
  have hrun : exec (.transferSendRx peer h seen) s = execTransferSendRx peer h seen s := rfl
  rw [hrun, execTransferSendRx, netRx, netGate, gate_live hl]
  dsimp only
  rw [hup, if_neg Bool.false_ne_true, State.wake_of_awake hawake, ← hv, hrec]

variable {k : Nat} (hrec : v.recOf h.origin = .ok k)
include hrec

theorem transferSendRx_otherGeometry (hgeo : v.sameGeometry h = false) :
    exec (.transferSendRx peer h seen) s = .next (v.refuseXfer h Code.xferGeometry) := by
  have hrun : exec (.transferSendRx peer h seen) s = execTransferSendRx peer h seen s := rfl
  rw [hrun, execTransferSendRx, netRx, netGate, gate_live hl]
  dsimp only
  rw [hup, if_neg Bool.false_ne_true, State.wake_of_awake hawake, ← hv, hrec]
  dsimp only
  rw [hgeo, Bool.not_false, if_pos rfl]

variable (hgeo : v.sameGeometry h = true)
include hgeo

theorem transferSendRx_full (hhome : h.target = 0) (hfull : s.freeSlot = none) :
    exec (.transferSendRx peer h seen) s = .next (v.refuseXfer h Code.dirFull) := by
  have hrun : exec (.transferSendRx peer h seen) s = execTransferSendRx peer h seen s := rfl
  obtain ⟨hhmp, -, -, -, -, hreg⟩ := s.greeted_keeps peer (.ack 1) h.origin seen
  rw [← hv] at hhmp hreg
  have hslot : v.freeSlot = none := (State.freeSlot_congr hhmp (hreg _ (by decide))).trans hfull
  rw [hrun, execTransferSendRx, netRx, netGate, gate_live hl]
  dsimp only
  rw [hup, if_neg Bool.false_ne_true, State.wake_of_awake hawake, ← hv, hrec]
  dsimp only
  rw [hgeo, Bool.not_true, if_neg Bool.false_ne_true, if_pos hhome, hslot]

/-- What the taker's home notes of a taking. -/
def State.homeTake (u : State) (k peer : Nat) (h : XferHello) : Take :=
  { key := k, n := h.custody, giver := .module peer, current := h.giver, sinceNs := u.now, waiting := u.self :: u.peers, peer := peer }

/-- A home transfer is taken into its slot and answered (R546 steps 1 to 3). -/
def State.takeHome (u : State) (slot k peer : Nat) (h : XferHello) : State :=
  ((({ u with
      hmp.takes := SMap.put u.hmp.takes slot (u.homeTake k peer h)
      net.ins := SMap.put u.net.ins peer (XferIn.mk slot h 0) } : State).sendAll 7 (.words 11 [(u.hdr slot).handle, h.origin])).roceTo
    peer (.answer h.origin (u.hdr slot).handle))

theorem transferSendRx_home (hhome : h.target = 0) {slot : Nat} {u : State} (hslot : s.freeSlot = some slot)
    (hinstall : v.installTake slot h .home (v.rec_ k) = some u) : Does (.transferSendRx peer h seen) s fun t =>
      (t.dir slot).state = .taking ∧ (t.dir slot).kind = .home ∧ (t.hdr slot).origin = h.origin ∧ OtherDirs s t slot ∧
      SMap.lookup t.net.ins peer = some ⟨slot, h, 0⟩ ∧
      (∃ x, SMap.lookup t.hmp.takes slot = some x ∧ x.waiting = s.self :: s.peers ∧ x.n = h.custody ∧ x.sinceNs = s.now) ∧
      ∀ m ∈ s.peers, Out.toModule m 7 (.words 11 [(t.hdr slot).handle, h.origin]) ∈ t.out := by
  obtain ⟨hhmp, -, -, hcomp, hnow, hreg⟩ := s.greeted_keeps peer (.ack 1) h.origin seen
  rw [← hv] at hhmp hcomp hnow hreg
  have hvslot : v.freeSlot = some slot := (State.freeSlot_congr hhmp (hreg _ (by decide))).trans hslot
  have hexec : exec (.transferSendRx peer h seen) s = .next (u.takeHome slot k peer h) := by
    have hrun : exec (.transferSendRx peer h seen) s = execTransferSendRx peer h seen s := rfl
    rw [hrun, execTransferSendRx, netRx, netGate, gate_live hl]
    dsimp only
    rw [hup, if_neg Bool.false_ne_true, State.wake_of_awake hawake, ← hv, hrec]
    dsimp only
    rw [hgeo, Bool.not_true, if_neg Bool.false_ne_true, if_pos hhome, hvslot]
    dsimp only
    rw [hinstall]
    rfl
  have hnew := State.install_installed hinstall
  have hself : u.self = s.self := by
    rw [State.self, hnew.comp, hcomp, State.self]
  have hpeers : u.peers = s.peers := by
    rw [State.peers, hself, hnew.comp, hcomp, State.peers]
  let w : State := { u with
    hmp.takes := SMap.put u.hmp.takes slot (u.homeTake k peer h)
    net.ins := SMap.put u.net.ins peer (XferIn.mk slot h 0) }
  have hdone : (u.takeHome slot k peer h).hmp = w.hmp ∧ (u.takeHome slot k peer h).net = w.net := by
    unfold State.takeHome
    simp only [State.roceTo_frame, State.sendAll_frame]
    exact ⟨rfl, rfl⟩
  have hdir (n : Nat) : (u.takeHome slot k peer h).dir n = u.dir n :=
    (State.dir_of_hmp hdone.1 n).trans rfl
  have hhdr : (u.takeHome slot k peer h).hdr slot = u.hdr slot :=
    (State.hdr_of_hmp hdone.1 slot).trans rfl
  refine ⟨_, hexec, by rw [hdir]; exact hnew.state, by rw [hdir]; exact hnew.kind, by rw [hhdr]; exact hnew.origin, fun n hn => ?_,
    ?_, ⟨u.homeTake k peer h, ?_, by rw [← hself, ← hpeers]; rfl, rfl, by rw [← hnow, ← hnew.now]; rfl⟩, fun m hm => ?_⟩
  · rw [hdir, hnew.otherDirs n hn, State.dir, hhmp, State.dir]
  · rw [hdone.2]
    exact SMap.lookup_put_same _ _ _
  · rw [hdone.1]
    exact SMap.lookup_put_same _ _ _
  · rw [hhdr]
    have hsent := State.mem_out_sendAll (s := w) (m := m) (by exact hpeers ▸ hm) 7 (.words 11 [(u.hdr slot).handle, h.origin])
    exact (State.out_prefix_roceTo _ _ _).subset hsent

variable (hshard : h.target ≠ 0) (htaking : (s.dir (hSlot h.target)).state = .taking)
  (hkind : (s.dir (hSlot h.target)).kind = .shard) (hgen : (s.dir (hSlot h.target)).gen = hGen h.target)
include hshard htaking hkind hgen

theorem transferSendRx_shard {u : State} (hinstall : v.installTake (hSlot h.target) h .shard (v.rec_ k) = some u) :
    Does (.transferSendRx peer h seen) s fun t => (t.dir (hSlot h.target)).state = .taking ∧ (t.dir (hSlot h.target)).kind = .shard ∧
      (t.dir (hSlot h.target)).gen = hGen h.target ∧ (t.hdr (hSlot h.target)).handle = h.target ∧
      SMap.lookup t.net.ins peer = some ⟨hSlot h.target, h, 0⟩ := by
  have hdir : v.dir = s.dir := funext fun n => by
    rw [State.dir, hv, (s.greeted_keeps peer (.ack 1) h.origin seen).1, State.dir]
  have hexec : exec (.transferSendRx peer h seen) s =
      .next { u with net.ins := SMap.put u.net.ins peer (XferIn.mk (hSlot h.target) h 0) } := by
    have hrun : exec (.transferSendRx peer h seen) s = execTransferSendRx peer h seen s := rfl
    rw [hrun, execTransferSendRx, netRx, netGate, gate_live hl]
    dsimp only
    rw [hup, if_neg Bool.false_ne_true, State.wake_of_awake hawake, ← hv, hrec]
    dsimp only
    rw [hgeo, Bool.not_true, if_neg Bool.false_ne_true, if_neg hshard, hdir, if_neg (by simp [htaking, hkind, hgen]), hinstall]
  have hnew := State.install_installed hinstall
  exact ⟨_, hexec, hnew.state, hnew.kind, hnew.gen, hnew.handle, SMap.lookup_put_same _ _ _⟩

theorem transferSendRx_noRoom (hinstall : v.installTake (hSlot h.target) h .shard (v.rec_ k) = none) (halone : s.Alone (hSlot h.target)) :
    Does (.transferSendRx peer h seen) s fun t => (t.dir (hSlot h.target)).state = .free ∧ SMap.lookup t.net.ins peer = none := by
  obtain ⟨hhmp, -, hfw, -, -, hreg⟩ := s.greeted_keeps peer (.ack 1) h.origin seen
  rw [← hv] at hhmp hfw hreg
  have hdir : v.dir = s.dir := funext (State.dir_of_hmp hhmp)
  have hexec : exec (.transferSendRx peer h seen) s = .next (v.failTake peer (hSlot h.target) Code.destFull) := by
    have hrun : exec (.transferSendRx peer h seen) s = execTransferSendRx peer h seen s := rfl
    rw [hrun, execTransferSendRx, netRx, netGate, gate_live hl]
    dsimp only
    rw [hup, if_neg Bool.false_ne_true, State.wake_of_awake hawake, ← hv, hrec]
    dsimp only
    rw [hgeo, Bool.not_true, if_neg Bool.false_ne_true, if_neg hshard, hdir, if_neg (by simp [htaking, hkind, hgen]), hinstall]
  have haside : v.Aside (hSlot h.target) := halone.aside.congr hhmp hfw (hreg _ (by decide))
  obtain ⟨hstate, hins, -⟩ := State.failTake_frees haside.dropTake peer Code.destFull
  exact ⟨_, hexec, hstate, hins⟩

end hello

/-! #### Pages at the taker (R545) -/

theorem takeSpans_keeps (slot : Nat) : ∀ (n : Nat) (ws : List Word) (s : State), ∃ k, takeSpans slot n ws s = { s with kvs := k }
  | n, a :: b :: ws, s => by
    unfold takeSpans
    dsimp only
    split
    · exact takeSpans_keeps slot (n + 1) ws s
    · obtain ⟨k, hk⟩ := takeSpans_keeps slot (n + 1) ws (s.setSpan slot n
        { spanOfWords a b with
          base := s.kvPage slot + s.pps (s.dir slot).model * n, res := takeRes (spanOfWords a b).res, sharers := 0
          inSnap := false, recomp := false, shared := false })
      exact ⟨k, hk⟩
  | n, [a], s => ⟨s.kvs, by simp [takeSpans]⟩
  | n, [], s => ⟨s.kvs, by simp [takeSpans]⟩

theorem takeSides_keeps (slot blocks : Nat) (ws : List Word) : ∀ (k : Nat) (s : State),
    ∃ x, takeSides slot blocks k ws s = { s with kvs := x } := by
  intro k s
  induction k, ws, s using takeSides.induct slot blocks with
  | case1 k a b c d e f x y ws s s' ih =>
    obtain ⟨x, hx⟩ := ih
    rw [takeSides, hx]
    refine ⟨x, ?_⟩
    dsimp only [s']
    split <;> rfl
  | case2 k ws s h => exact ⟨s.kvs, by rw [takeSides]; exact h⟩

theorem State.writeLog_keeps (slot : Nat) (es : List (BitVec 32)) : ∀ (i : Nat) (s : State),
    ∃ l, s.writeLog slot i es = { s with hmp.log := l } := by
  induction es with
  | nil => exact fun i s => ⟨s.hmp.log, rfl⟩
  | cons e es ih =>
    intro i s
    obtain ⟨l, hl⟩ := ih (i + 1) (s.setLog slot i e)
    exact ⟨l, hl⟩

/-- A page taken leaves the registers and the slot's state. -/
theorem State.takePage_keeps {s u : State} {slot i : Nat} {bs : List Byte} (h : s.takePage slot i bs = .ok u) :
    u.regs = s.regs ∧ (u.dir slot).state = (s.dir slot).state := by
  unfold State.takePage at h
  dsimp only at h
  generalize (if (s.dir slot).kind = .home then logPages (s.hdr slot).maxTokens else 0) = lp at h
  split at h
  · cases h
    exact ⟨rfl, (congrArg DirEnt.state (SMap.get_set_same (α := DirEnt) {} s.hmp.dir slot _)).trans rfl⟩
  · split at h
    · cases h
      obtain ⟨k, hk⟩ := takeSpans_keeps slot (4096 * (i - 1)) (pageWords bs) s
      rw [hk]
      exact ⟨rfl, rfl⟩
    · split at h
      · cases h
        obtain ⟨k, hk⟩ := takeSides_keeps slot (s.blocks (s.dir slot).model) (pageWords bs)
          (1024 * (i - 1 - tablePages (s.hdr slot).spans)) s
        rw [hk]
        exact ⟨rfl, rfl⟩
      · split at h
        next =>
          obtain ⟨l, hl⟩ := State.writeLog_keeps slot ((words32 bs).take ((s.hdr slot).maxTokens -
            16384 * (i - 1 - tablePages (s.hdr slot).spans - sidePages (s.hdr slot).spans (s.blocks (s.dir slot).model))))
            (16384 * (i - 1 - tablePages (s.hdr slot).spans - sidePages (s.hdr slot).spans (s.blocks (s.dir slot).model))) s
          rw [hl] at h
          cases h
          exact ⟨rfl, rfl⟩
        next =>
          split at h
          next => cases h
          next p _ =>
            split at h
            next => cases h
            next t hmap =>
              obtain ⟨x, m, rfl⟩ := State.mapPage_keeps hmap
              cases h
              exact ⟨rfl, rfl⟩

/-- What the end of a module's own stream leaves. -/
theorem State.ownShare_keeps (s : State) (slot : Nat) :
    (s.ownShare slot).mem = s.mem ∧ (s.ownShare slot).net = s.net ∧ (s.ownShare slot).hmp.dir = s.hmp.dir ∧
    (s.ownShare slot).reg (Reg.netCnt 6) = s.reg (Reg.netCnt 6) := by
  unfold State.ownShare
  split
  · exact ⟨rfl, rfl, rfl, rfl⟩
  · dsimp only
    split
    · exact ⟨rfl, rfl, rfl, rfl⟩
    · refine ⟨?_, ?_, ?_, (State.reg_send (by unfold OffTrail; decide) _ _ _ _).trans rfl⟩
      · simp
      · simp
      · simp

section page

variable {s : State} (hl : s.live = true) (hup : s.unitFailed 1 = false) (hawake : s.plat.parkedSince = none) (peer index : Nat)
  (data : List Byte) (imm : BitVec 32)
include hl hup hawake

theorem rdmaWriteRx_none (hnone : SMap.lookup s.net.ins peer = none) : Ignored (.rdmaWriteRx peer index data imm) s := by
  have hrun : exec (.rdmaWriteRx peer index data imm) s = execRdmaWriteRx peer index data imm s := rfl
  unfold Ignored
  rw [hrun, execRdmaWriteRx, netRx, netGate, gate_live hl]
  dsimp only
  rw [hup, if_neg Bool.false_ne_true, State.wake_of_awake hawake, hnone]

variable {x : XferIn} (hx : SMap.lookup s.net.ins peer = some x)
include hx

theorem rdmaWriteRx_outOfOrder (hbad : index ≠ x.next ∨ data.length ≠ if index = 0 then 4096 else 65536) :
    Does (.rdmaWriteRx peer index data imm) s fun t => t = s.roceTo peer .nak := by
  have hrun : exec (.rdmaWriteRx peer index data imm) s = execRdmaWriteRx peer index data imm s := rfl
  refine ⟨_, ?_, rfl⟩
  rw [hrun, execRdmaWriteRx, netRx, netGate, gate_live hl]
  dsimp only
  rw [hup, if_neg Bool.false_ne_true, State.wake_of_awake hawake, hx]
  dsimp only
  rw [if_pos (by simpa using hbad)]

variable (hnext : index = x.next) (hlen : data.length = if index = 0 then 4096 else 65536)
include hnext hlen

theorem rdmaWriteRx_damaged (hcrc : crc32c data ≠ imm) (halone : s.Alone x.slot) : Does (.rdmaWriteRx peer index data imm) s fun t =>
    (t.dir x.slot).state = .free ∧ SMap.lookup t.net.ins peer = none ∧ OtherDirs s t x.slot := by
  have hexec : exec (.rdmaWriteRx peer index data imm) s = .next ((s.roceTo peer (.ack 1)).failTake peer x.slot Code.xferCrc) := by
    have hrun : exec (.rdmaWriteRx peer index data imm) s = execRdmaWriteRx peer index data imm s := rfl
    rw [hrun, execRdmaWriteRx, netRx, netGate, gate_live hl]
    dsimp only
    rw [hup, if_neg Bool.false_ne_true, State.wake_of_awake hawake, hx]
    dsimp only
    rw [if_neg (by simp only [Bool.or_eq_true, decide_eq_true_eq, not_or, not_not]; exact ⟨hnext, hlen⟩), if_pos hcrc]
  obtain ⟨-, -, -, -, -, hhmp, -, -, hfw, -, -⟩ := s.roceTo_frame peer (.ack 1)
  have hreg := s.reg_roceTo peer (.ack 1) (k := Reg.txtGrammar) (by decide)
  refine ⟨_, hexec, ?_⟩
  generalize s.roceTo peer (.ack 1) = v at *
  obtain ⟨hstate, hins, hothers⟩ := State.failTake_frees (halone.aside.congr hhmp hfw hreg).dropTake peer Code.xferCrc
  exact ⟨hstate, hins, fun n hn => (hothers n hn).trans (by rw [State.dir, hhmp, State.dir])⟩

theorem rdmaWriteRx_takes (hcrc : crc32c data = imm) {u : State} (htake : (s.roceTo peer (.ack 1)).takePage x.slot index data = .ok u) :
    Does (.rdmaWriteRx peer index data imm) s fun t => t.reg (Reg.netCnt 6) = s.reg (Reg.netCnt 6) + 1 ∧
      (t.dir x.slot).state = (s.dir x.slot).state ∧ t.mem = u.mem ∧
      SMap.lookup t.net.ins peer = if index + 1 < x.hello.pages then some { x with next := index + 1 } else none := by
  let w := u.bump (Reg.netCnt 6)
  have hexec : exec (.rdmaWriteRx peer index data imm) s = .next (if index + 1 < x.hello.pages then
      { w with net.ins := SMap.put w.net.ins peer { x with next := index + 1 } }
      else ({ w with net.ins := SMap.erase w.net.ins peer } : State).ownShare x.slot) := by
    have hrun : exec (.rdmaWriteRx peer index data imm) s = execRdmaWriteRx peer index data imm s := rfl
    rw [hrun, execRdmaWriteRx, netRx, netGate, gate_live hl]
    dsimp only
    rw [hup, if_neg Bool.false_ne_true, State.wake_of_awake hawake, hx]
    dsimp only
    rw [if_neg (by simp only [Bool.or_eq_true, decide_eq_true_eq, not_or, not_not]; exact ⟨hnext, hlen⟩), if_neg (not_not.2 hcrc), htake]
  obtain ⟨-, -, -, -, -, hhmp, -⟩ := s.roceTo_frame peer (.ack 1)
  obtain ⟨hregs, hstate⟩ := State.takePage_keeps htake
  have hcnt : w.reg (Reg.netCnt 6) = s.reg (Reg.netCnt 6) + 1 :=
    (State.reg_bump_same _ _).trans (congrArg (· + 1) ((State.reg_of_regs hregs _).trans (s.reg_roceTo peer (.ack 1) (by decide))))
  have hslot : (w.dir x.slot).state = (s.dir x.slot).state :=
    hstate.trans (congrArg DirEnt.state (State.dir_of_hmp hhmp x.slot))
  refine ⟨_, hexec, ?_⟩
  split
  · exact ⟨hcnt, hslot, rfl, SMap.lookup_put_same _ _ _⟩
  · obtain ⟨hmem, hnet, hdir, hreg⟩ := ({ w with net.ins := SMap.erase w.net.ins peer } : State).ownShare_keeps x.slot
    refine ⟨hreg.trans hcnt, ?_, hmem, ?_⟩
    · rw [State.dir, hdir]
      exact hslot
    · rw [hnet]
      exact SMap.lookup_erase_same _ _

end page

/-- Settles O54: the giver's items, the reservations and the taker's messages, each by what its command leaves. -/
theorem sessionTransfers : Obligations.SessionTransfers := by
  intro s hl
  refine ⟨fun it hepoch => ⟨transferItem_unitFailed hl it hepoch, fun hup => ⟨transferItem_stale hl it hepoch hup,
      transferItem_unknown hl it hepoch hup, fun hcode hpeer bs u ms v => transferItem_sends hl it hepoch hup hcode hpeer⟩⟩,
    fun handle origin => ⟨fun hused => ignored_of_gate rfl hl (by exact if_pos hused), reserveItem_reserves hl handle origin⟩,
    fun slot dropped x hx => ⟨reservationTimeout_early hl dropped hx, fun hdue htaking halone =>
      ⟨reservationTimeout_arrived hl dropped hx hdue htaking, reservationTimeout_frees hl dropped hx hdue htaking halone⟩⟩,
    fun hup => ⟨fun peer origin handle => ⟨fun hnone => ?_, fun slot hslot hgiving =>
        reserveAnswer_tells hl hup peer origin handle hslot hgiving⟩,
      fun hawake peer h seen => ⟨fun code hrec => ?_, fun k hrec => ⟨fun hgeo => ?_, fun hgeo hhome => ⟨fun hfull => ?_,
          fun slot u hslot hinstall => transferSendRx_home hl hup hawake peer h seen rfl hrec hgeo hhome hslot hinstall⟩,
        fun hgeo hshard htaking hkind hgen => ⟨fun u hinstall =>
            transferSendRx_shard hl hup hawake peer h seen rfl hrec hgeo hshard htaking hkind hgen hinstall,
          fun hinstall halone => transferSendRx_noRoom hl hup hawake peer h seen rfl hrec hgeo hshard htaking hkind hgen hinstall halone⟩⟩⟩,
      fun hawake peer index data imm => ⟨rdmaWriteRx_none hl hup hawake peer index data imm, fun x hx =>
        ⟨rdmaWriteRx_outOfOrder hl hup hawake peer index data imm hx, fun hnext hlen hcrc halone =>
            rdmaWriteRx_damaged hl hup hawake peer index data imm hx hnext hlen hcrc halone,
          fun u hnext hlen hcrc htake => rdmaWriteRx_takes hl hup hawake peer index data imm hx hnext hlen hcrc htake⟩⟩⟩⟩
  case refine_1 =>
    exact ignored_of_netGate rfl hl hup (by dsimp only; rw [hnone])
  case refine_2 =>
    exact refusedXfer_keeps peer h seen (transferSendRx_noRecord hl hup hawake peer h seen rfl hrec)
  case refine_3 =>
    exact refusedXfer_keeps peer h seen (transferSendRx_otherGeometry hl hup hawake peer h seen rfl hrec hgeo)
  case refine_4 =>
    exact refusedXfer_keeps peer h seen (transferSendRx_full hl hup hawake peer h seen rfl hrec hgeo hhome hfull)

end Sys2Proof.Machine
end

section
/-! ### An absent module, with a grammar directory over the session directory (R111, R449, R458, R692) -/

namespace Sys2Proof.Machine

open Sys2Proof

/-- A step has stalled for a second and module 1 is silent. Hamper 0 is ACTIVE, and its open request holds grammar 0. The grammar
directory, on page 2, lies over the session directory: the entry's second word is the first of hamper 0's entry. -/
def strayDirectory : State :=
  { State.reset with
    plat.rails := true
    plat.stage := 7
    now := 10 ^ 9
    fw.stalled := true
    fw.reqs := [(0, {})]
    flt.stallSince := some 0
    flt.probed := [1]
    tsm.leaf := [(2, { v := true })]
    regs := [(Reg.txtGrammar, fld 48 36 1 ||| fld 35 0 2)]
    hmp.dirBase := 2 * 65536 + 8
    hmp.dir := [(0, { state := .active, kind := .home })]
    hmp.hdr := [(0, ({ handle := 1 } : Header).setGram 0 {})] }

/-- Refutes O47: the statement takes every state, also one whose grammar directory lies over the session directory. There the request
that fails with an absent module counts a session off its grammar, and with it writes hamper 0's entry: an ACTIVE session's entry reads
FREE before it is parked, and is left so. -/
theorem not_faults : ¬ Obligations.Faults := by
  intro h
  obtain ⟨-, -, hstall, -⟩ := h strayDirectory (by decide)
  obtain ⟨-, -, habsent⟩ := hstall (by decide)
  obtain ⟨t, ht, -, -, -, hparked⟩ := habsent 1 0 (by decide) (by decide) (by decide) (by decide)
    (by decide) (by decide)
  have hread : readAfter (.moduleAbsent 1) strayDirectory (fun t => (t.dir 0).state) = some .free := by decide +kernel
  rw [readAfter_of_next ht, hparked 0 (by decide) (by decide) (by decide)] at hread
  exact absurd (Option.some.inj hread) (by decide)

end Sys2Proof.Machine
end
